-- ==== Sys2Proof/Word.lean ====
section
/-! DEFINITION. The word types of the IL9640's register, image and token spaces, and the plainest arithmetic on them. -/

namespace Sys2Proof

/-- A byte (00_scope R4). -/
abbrev Byte := BitVec 8

/-- A register, mailbox or image word (00_scope R4). -/
abbrev Word := BitVec 32

/-- Bits `[lo + len - 1 : lo]` of a number. -/
def bitsOf (lo len n : Nat) : Nat := (n >>> lo) % 2 ^ len

/-- Bit `i` of a number. -/
def bitAt (i n : Nat) : Bool := n.testBit i

/-- A Boolean as the number that a one-bit field holds. -/
def bitNat (b : Bool) : Nat := if b then 1 else 0

/-- A number shifted to a field's place. -/
def place (lo len n : Nat) : Nat := (n % 2 ^ len) <<< lo

/-- The word of bit `i`. -/
def bitWord (i : Nat) : Word := BitVec.ofNat 32 (1 <<< i)

/-- A number as a word, modulo 2^32. -/
def word (n : Nat) : Word := BitVec.ofNat 32 n

end Sys2Proof
end

