-- ==== Sys2Proof/Syntax.lean ====
section
/-! DEFINITION. The commands of the IL9640 as a block: one constructor per row of the table of operations and events, with the operands that say what the sender asserts. -/

namespace Sys2Proof

/-- The three host ports (17_pins R428, R430, R433). -/
inductive HostPort where
  | spi | i2c | jtag
deriving DecidableEq, Repr

/-- A cell: cavern, chamber column and row, cell number (03_cells R55). -/
structure CellId where
  cav : Fin 40
  x : Fin 50
  y : Fin 50
  k : Fin 16
deriving DecidableEq, Repr

/-- A chamber (03_cells R55). -/
structure ChamberId where
  cav : Fin 40
  x : Fin 50
  y : Fin 50
deriving DecidableEq, Repr

/-- Token latch 0 or 1 of a cell (03_cells R72). -/
inductive LatchNo where
  | l0 | l1
deriving DecidableEq, Repr

/-- An acknowledge node (04_routing R91), or the acknowledge merge of a global line (R98). -/
inductive NodeId where
  | ln (c : ChamberId) (n : Fin 16)
  | cn (cav : Fin 40) (gx gy : Fin 10) (n : Fin 64)
  | gn (cav : Fin 40) (n : Fin 128)
  | line (r : Fin 5) (k : Fin 16)
deriving DecidableEq, Repr

/-- A bit at the boundary gate into a cavern: an output of a cell of another cavern, or an inward edge bit (01_architecture, Cavern-boundary
isolation). -/
inductive GateBit where
  | out (c : CellId) (y1 : Bool)
  | edge (c : ChamberId) (j : Fin 64)
deriving DecidableEq, Repr

/-- Where a dual-rail fault is found (02_token_contract R54): in a latch, or at a bit by the boundary gate into a cavern. -/
inductive FaultSite where
  | latch (c : CellId) (l : LatchNo)
  | gate (into : Fin 40) (bit : GateBit)
deriving DecidableEq, Repr

/-- A Pocket, cavern.index (06_pockets R118). -/
structure PocketId where
  cav : Fin 40
  idx : Fin 112
deriving DecidableEq, Repr

/-- Port A or B of a Pocket (06_pockets R124). -/
inductive PocketPort where
  | a | b
deriving DecidableEq, Repr

/-- A block access of port B on the haul road (06_pockets R129): a read, or a write of the enabled bytes, byte 0 lowest. -/
inductive BlockOp where
  | read
  | write (data : BitVec 1024) (enable : BitVec 128)
deriving DecidableEq, Repr

/-- The wide counters read through a snapshot (19_events_counters R468, 11_lane_electrical R270). -/
inductive WideCounter where
  | timestamp
  | prbsBits (lane : Fin 96)
  | prbsErr (lane : Fin 96)
deriving DecidableEq, Repr

/-- The mailboxes (14_foreman): sixteen of the host, eight of the fabric. -/
inductive Mailbox where
  | host (n : Fin 16)
  | fabric (n : Fin 8)
deriving DecidableEq, Repr

/-- A power domain that a command can name (16_power R398). -/
inductive Domain where
  | fab (n : Fin 40)
  | lb (n : Fin 24)
  | io (n : Fin 12)
deriving DecidableEq, Repr

/-- The controlled rails, in the order of `PWR_FAULT.RAIL` (16_power R410). -/
inductive Rail5 where
  | vccf | vccs | vccl | vcclh | vcca
deriving DecidableEq, Repr

/-- The wake sources in the order of `AON_WAKE_EN` (16_power R389), with what identifies the source. -/
inductive WakeSrc where
  | patrol (s : Fin 24) | hpd (b : Fin 24) | i2c | spi | alarm | signal (lane : Fin 96)
deriving DecidableEq, Repr

/-- What the error-correcting logic of a memory finds at a visit or an access. -/
inductive EccFound where
  | clean | corrected | uncorrectable
deriving DecidableEq, Repr

/-- What the error-correcting logic finds in a Sump beat: which of its sixteen 64-bit groups it corrects, and which are uncorrectable
(08_sump R167, R191). -/
structure BeatFound where
  corrected : BitVec 16 := 0
  bad : BitVec 16 := 0
deriving DecidableEq, Repr

/-- The scrubber's memory classes (18_self_test_faults R449). -/
inductive ScrubClass where
  | pocket | sump | foreman | crusher
deriving DecidableEq, Repr

/-- What a rail answers to a poll (16_power R402, R403): its STATUS_WORD, READ_VOUT as LINEAR16, READ_IOUT and READ_TEMPERATURE_1 as
LINEAR11; `none` where the transaction failed three times (R402). -/
structure RailReading where
  status : BitVec 16
  vout : BitVec 16
  iout : BitVec 16
  temp : BitVec 16
deriving DecidableEq, Repr

/-- A 64b/66b block on a lane (12_lane_link R280): the sync header, whose bit 1 is sent first, and its 64 bits as on the line. -/
structure Block66 where
  hdr : BitVec 2
  bits : BitVec 64
deriving DecidableEq, Repr

/-- The crossings between clocked islands (09_portals R213): a lane's receive path to its Crusher client, Crusher clients to
a lane's transmitter, the Sump to a lane's transmitter. -/
inductive CrossingId where
  | toCrusher (lane : Fin 96)
  | fromCrusher (lane : Fin 96)
  | fromSump (lane : Fin 96)
deriving DecidableEq, Repr

/-- An Update-DR of the boundary register: the levels that the Capture-DR before it finds on the pins, and the cells that it changes, each
by its pin, its value and its enable (17_pins R416, R420). -/
structure BoundaryScan where
  levels : BitVec 720
  vals : List (Nat × Bool × Bool)
deriving DecidableEq, Repr

/-- One unit interval at a lane's receiver, after its CTLE, in 768ths of a step of `LNnn_LEVELS`: the value at the data slicer's
instant, and at the margin slicer's (11_lane_electrical R254, R271). -/
structure RxSample where
  data : Int
  aux : Int
deriving DecidableEq, Repr

/-- One beat of the haul road: 1,024 bits (10_haulers R220). -/
abbrev Beat := BitVec 1024

/-- A Sump beat: 1,024 data bits and its 16-bit tag (08_sump R170). -/
structure SumpBeat where
  data : Beat
  tag : BitVec 16
deriving DecidableEq, Repr

/-- The producers of the Sump (08_sump R174): a portal site, a Crusher client, a Hauler channel, the Foreman. -/
inductive Producer where
  | portal (c : Fin 16) (s : Fin 54)
  | client (e : Fin 16) (k : Fin 128)
  | hauler (h : Fin 64)
  | foreman
deriving DecidableEq, Repr

/-- What is offered at a Sump port: the beat that the port's producer of this clock holds, or a beat that the sender says a
producer offers. -/
inductive SumpOffer where
  | held
  | given (p : Producer) (b : SumpBeat)
deriving DecidableEq, Repr

/-- A word on the fabric side of a portal: data and tag (09_portals R202). -/
structure TokenWord where
  data : BitVec 72
  tag : BitVec 15
deriving DecidableEq, Repr

/-- A portal (09_portals R199, R200): of a lane, or of site `s` of cavern 16 + `c`; `out` is the direction from the fabric. -/
inductive PortalId where
  | lane (n : Fin 96) (out : Bool)
  | site (c : Fin 16) (s : Fin 54) (out : Bool)
deriving DecidableEq, Repr

/-- The commands: the rows of the table of operations and events, in its order. SCRUB_VISIT says which parts of the unit the logic corrects
and which are uncorrectable: of a Sump unit, 64-bit groups 0 to 15 of its first beat, 16 to 31 of its second, 32 and 33 the copies of its
link word, 34 and 35 those of its descriptor; of a word or a pair, bit 0; a Pocket row shows its own errors. BOUNDARY_SCAN_UPDATE_DR
ends a scan that captured the levels of the pads, pin `nn` of bank `bb` at bit 60·`bb` + `nn`, and shifted in a value and an enable for
the pins named. -/
inductive Instr where
  | registerWrite (p : HostPort) (addr val : Word)
  | rcRead (p : HostPort) (addr : Word)
  | snapshotLowRead (p : HostPort) (c : WideCounter)
  | qstatRead (p : HostPort)
  | powerOnReset (boot : BitVec 2) (hadr : BitVec 3)
  | cellEvaluate (c : CellId)
  | cellReturn (c : CellId)
  | latchCapture (c : CellId) (l : LatchNo)
  | latchTokenTransfer (c : CellId) (l : LatchNo)
  | latchRelease (c : CellId) (l : LatchNo)
  | latchInputReopen (c : CellId) (l : LatchNo)
  | ackNodeSwitch (n : NodeId)
  | choiceGrant (c : ChamberId)
  | choiceGrantEnd (c : ChamberId)
  | dualRailFault (site : FaultSite)
  | pocketPortAccess (p : PocketId) (port : PocketPort)
  | pocketHaulBlockAccess (p : PocketId) (block : Fin 64) (op : BlockOp)
  | pocketRestore
  | gaugeWindowEnd (cav : Fin 40) (revs : Nat)
  | gaugeMaxClr (p : HostPort)
  | crusherSlot (e : Fin 16) (ctx : EccFound)
  | crusherSliceComplete (e : Fin 16)
  | clientHoldWrite (p : HostPort) (e : Fin 16) (hold : Fin 4) (val : Word)
  | sumpPush (port : Fin 4) (q : Fin 2048) (o : SumpOffer)
  | sumpCellCommit (port : Fin 4) (cell : Fin 32768)
  | sumpPop (port : Fin 4) (q : Fin 2048) (e0 e1 : BeatFound)
  | sumpFlush (p : HostPort) (q : Fin 2048)
  | sumpFlushDone (q : Fin 2048)
  | sumpRecoverClr (p : HostPort) (q : Fin 2048)
  | staleTimerExpiry (q : Fin 2048)
  | laneQueueDrain (lane : Fin 96) (e0 e1 : BeatFound)
  | portalEnqueue (p : PortalId)
  | portalDeliver (p : PortalId)
  | islandCrossingTransfer (x : CrossingId)
  | multibitValueLoad (x : Fin 1024) (v : BitVec 64)
  | multibitValueAccept (x : Fin 1024) (s1 s2 : BitVec 64)
  | eventCrossingArrival (cls : Fin 5) (code : Fin 384)
  | haulerStart (p : HostPort) (h : Fin 64)
  | haulerStop (p : HostPort) (h : Fin 64)
  | haulerResume (p : HostPort) (h : Fin 64)
  | descriptorFetch (h : Fin 64)
  | burstReadRequest (m : Fin 65)
  | targetBeatStaged (m : Fin 65)
  | haulerBeat (h : Fin 64)
  | haulerPausePower (h : Fin 64)
  | txpllLock (lane : Fin 96)
  | refclkLoss (k : Fin 12)
  | refclkBack (k : Fin 12)
  | signalDetectRise (lane : Fin 96)
  | signalDetectFall (lane : Fin 96)
  | relock (p : HostPort) (lane : Fin 96)
  | rxLockDone (lane : Fin 96) (l0 l1 l2 l3 : BitVec 8)
  | cdrLockLoss (lane : Fin 96)
  | txIdleEntry (lane : Fin 96)
  | txIdleExit (lane : Fin 96)
  | rxBurstCheck (lane : Fin 96) (line : List RxSample)
  | patternGenSet (p : HostPort) (lane : Fin 96) (gen : BitVec 4)
  | patternChkSet (p : HostPort) (lane : Fin 96) (chk : BitVec 4)
  | checkerSync (lane : Fin 96)
  | checkerSyncLoss (lane : Fin 96) (line : List RxSample)
  | injOne (p : HostPort) (lane : Fin 96)
  | injRateInjection (lane : Fin 96)
  | patCounterClear (p : HostPort) (lane : Fin 96)
  | marginWrite (p : HostPort) (lane : Fin 96) (val : Word)
  | loopbackChange (p : HostPort) (lane : Fin 96) (loop : BitVec 2)
  | eqOverrideWrite (p : HostPort) (lane : Fin 96) (val : Word)
  | rxBlock (lane : Fin 96) (line : List RxSample)
  | txBlock (lane : Fin 96)
  | blockLock (lane : Fin 96)
  | blockLockLoss (lane : Fin 96)
  | codewordDecode (lane : Fin 96) (line : List RxSample)
  | trainBlockReceive (lane : Fin 96)
  | trainComplete (lane : Fin 96)
  | linkRetrainWrite (p : HostPort) (lane : Fin 96)
  | linkResetWrite (p : HostPort) (lane : Fin 96)
  | linkDisable (p : HostPort) (lane : Fin 96)
  | linkDownTimeout (lane : Fin 96)
  | downBlockReceive (lane : Fin 96)
  | hpdIn (b : Fin 24)
  | hpdOut (b : Fin 24)
  | sdModeBurst (lane : Fin 96)
  | aditFrameSend (lane : Fin 96)
  | aditFrameReceive (lane : Fin 96)
  | ackBlockSend (lane : Fin 96)
  | ackReceive (lane : Fin 96)
  | nakReceive (lane : Fin 96)
  | replayTimeout (lane : Fin 96)
  | hostMailboxPost (p : HostPort) (w0 : Word)
  | mailboxRelease (p : HostPort) (n : Fin 16)
  | fabricMailboxMessage (n : Fin 8)
  | ping (m : Mailbox)
  | getStatus (m : Mailbox)
  | abort (m : Mailbox)
  | fwInfo (m : Mailbox)
  | get (m : Mailbox)
  | set (m : Mailbox)
  | paramInfo (m : Mailbox)
  | domainDown (m : Mailbox)
  | domainDownForced (m : Mailbox)
  | domainUp (m : Mailbox)
  | domainResume (m : Mailbox)
  | domainOffReport (d : Domain)
  | domainOnReport (d : Domain)
  | setMode (m : Mailbox)
  | setModeForced (m : Mailbox)
  | cavernReinit (m : Mailbox)
  | cavernRevert (m : Mailbox)
  | sealedLoad (m : Mailbox)
  | storeWrite (m : Mailbox)
  | storeCommit (m : Mailbox)
  | crCounters (m : Mailbox)
  | crReinit (m : Mailbox)
  | qFlush (m : Mailbox)
  | qDesc (m : Mailbox)
  | qCounters (m : Mailbox)
  | ramWrite (m : Mailbox)
  | ramRead (m : Mailbox)
  | haulCopy (m : Mailbox)
  | bistRun (m : Mailbox)
  | bistRunForcedLane (m : Mailbox)
  | faultLog (m : Mailbox)
  | lockstepMismatch (cause : Fin 3)
  | watchdogExpiry
  | foremanRestartComplete
  | loadWindowEnd (pct : Fin 101)
  | loadPeakClr (p : HostPort)
  | progNPulse (ns : Nat)
  | cfgReprog (p : HostPort) (key : BitVec 16)
  | cfgStreamWrite (p : HostPort) (w : Word)
  | loadHeader
  | loadRecord
  | loadFrame
  | loadTrailer
  | loadRun
  | icpImageToken
  | icpLibReference
  | icpCommit
  | icpAbort
  | quietEntry
  | quietExit
  | standbyRetentionReached
  | wakeLatch (src : WakeSrc)
  | alarmMatch
  | standbyExitVccfReady
  | sleepRailsOff
  | sleepWakeRailsOn
  | wakePgfailRetry
  | padRelease (p : HostPort) (banks : BitVec 12)
  | patrolPeriod
  | patrolSample (n : Fin 24) (count : BitVec 12)
  | sysPointRequest (p : HostPort) (req : BitVec 2)
  | sysPointChangeDone
  | sysRaiseTimeout
  | vccfSet (p : HostPort) (mv : BitVec 10)
  | vccfQuietSet (p : HostPort) (mv : BitVec 10)
  | pmbusPoll (rail : Rail5) (r : Option RailReading)
  | regRetry (rail : Rail5) (first second : BitVec 16)
  | pmbAlert (rail : Rail5) (status : Option (BitVec 16))
  | tempRead (highest : BitVec 8)
  | thermalTrip
  | supplyFault (rail : Rail5)
  | supplyRecover (rail : Rail5)
  | aonTicksWrap
  | timestampWrap
  | bankSupplyInvalid (b : Fin 12)
  | bankSupplyValid (b : Fin 12) (strap : Bool)
  | pinOutputToken (b : Fin 12) (n : Fin 60)
  | levelSample (b : Fin 12) (n : Fin 60) (level : Bool)
  | strobeEdge (b : Fin 12) (n : Fin 60) (rising : Bool) (levels : BitVec 60)
  | handshakeReqRise (b : Fin 12) (n : Fin 60) (levels : BitVec 60)
  | handshakeAckRaise (b : Fin 12) (n : Fin 60)
  | handshakeReqFall (b : Fin 12) (n : Fin 60)
  | spiUnknownCommand (cmd : Byte)
  | i2cSclTimeout
  | tapReset
  | extest
  | idcode
  | samplePreload
  | clamp
  | highz
  | extestPulse
  | extestTrain
  | regacc (w : BitVec 65)
  | cfgLoad (w : Word)
  | otpProg (w : BitVec 64)
  | otpProgramDone
  | debugMask (m : BitVec 12)
  | bypass
  | bistTestEnd (type : Fin 6) (target : BitVec 8) (sig : BitVec 64) (count : Word)
  | scrubVisit (cls : ScrubClass) (corrected bad : BitVec 36)
  | scrubVoteCorrect (r : Fin 12) (fa fb fc : Word)
  | fabricEventToken (k : Fin 24)
  | eventHistoryCopy
  | wakePowerGoodTimeout
  | startupSelfTestTimeout
  | foremanWheelSlot
  | eventCrossingDelivery (cls : Fin 5) (code : Fin 384)
  | storeProgrammingDone (ok : Bool)
  | boundaryScanUpdateDr (scan : BoundaryScan)
  | vaonLoss
deriving DecidableEq, Repr

end Sys2Proof
end

