-- ==== Sys2Proof/WellFormed.lean ====
section
/-! DEFINITION. When the operands of a command agree with each other. -/

namespace Sys2Proof

/-- The operands of a command do not contradict each other. -/
def Instr.wf : Instr → Bool
  | .boundaryScanUpdateDr scan => decide (scan.vals.map (·.1)).Nodup && scan.vals.all fun v => v.1 < 720
  | _ => true

end Sys2Proof
end

