-- ==== Sys2Proof/Decode.lean ====
section
/-! DEFINITION. The command that a word spells by the table's bits: the table of operations and events gives no row any bits, so no word spells a command. -/

namespace Sys2Proof

/-- No row of the table has an encoding: the block's commands are happenings, not words. -/
def decodeTableWord (_nbits _w : Nat) : Option Instr := none

end Sys2Proof
end

