-- ==== Sys2Proof/Machine/State.lean ====
section
/-! DEFINITION. The state of the IL9640 as plain data, its one fault and its refusals, and the state right after power-on reset is asserted. -/

namespace Sys2Proof.Machine

/-- Why a step stops with a fault. -/
inductive Fault where
  /-- The operands of a command contradict each other (no sender can mean them). Raised by a meaning whose WellFormed
  check fails, for the command named; safe: the hardware is never asked this. -/
  | illFormed (mnemonic : String)
deriving DecidableEq, Repr

/-- Why a step is refused. -/
inductive Refusal where
  /-- A row of the table that has no meaning in the model yet. Raised by the dispatch alone; safe: nothing is claimed. -/
  | notModelled (mnemonic : String)
deriving DecidableEq, Repr

/-- A sparse table: keys strictly rising, no entry equal to what an unlisted key reads as. -/
abbrev Tab (α : Type) := List (Nat × α)

/-- A byte memory in canonical form. -/
abbrev Mem := List Host.Cell

/-- The operating modes with their codes in `PWR_MODE` (16_power R378). -/
inductive Mode where
  | powerUp | load | start | run | quiet | standby | patrol | deepSleep | selfTest | maintenance | faultHold | loadFailed
deriving DecidableEq, Repr

/-- The SYS operating points (01_architecture R14). -/
inductive SysPoint where
  | p0 | p1 | p2
deriving DecidableEq, Repr

/-- The five isolation causes (01_architecture R24). -/
inductive Cause where
  | load | freeze | bist | partialLoad | power
deriving DecidableEq, Repr

/-- The code that a dual-rail bit carries (02_token_contract R33). -/
inductive Rail where
  | empty | v0 | v1 | illegal
deriving DecidableEq, Repr

/-- The output side of a token latch (03_cells R68); `withheld` is the latch whose token R54 withholds. -/
inductive LatchOut where
  | vacant | hold (v : Bool) | returning | withheld
deriving DecidableEq, Repr

/-- The input side of a token latch (03_cells R69). -/
inductive LatchIn where
  | isOpen | closing
deriving DecidableEq, Repr

/-- A logic cell: what its sources drive before the latches, its carry out, and its two latches. -/
structure Cell where
  src0 : Rail := .empty
  src1 : Rail := .empty
  carry : Rail := .empty
  out0 : LatchOut := .vacant
  in0 : LatchIn := .isOpen
  out1 : LatchOut := .vacant
  in1 : LatchIn := .isOpen
deriving DecidableEq, Repr

/-- The two sides of a choice element (03_cells R77). -/
inductive ChoiceSide where
  | a | b
deriving DecidableEq, Repr

/-- A choice element: the grant in progress and the request that R46 owes the next grant. -/
structure Choice where
  grant : Option ChoiceSide := none
  owed : Option ChoiceSide := none
deriving DecidableEq, Repr

/-- Where a fabric-side input attachment stands in R35: nothing offered, a token offered, the return to empty. -/
inductive InPhase where
  | idle | offering | returning
deriving DecidableEq, Repr

/-- The fabric side of an attachment that offers tokens on EI bits; `withheld` marks a token of which the boundary gate found a bit
illegal (02_token_contract R54). -/
structure InAtt where
  val : Nat := 0
  ph : InPhase := .idle
  withheld : Bool := false
deriving DecidableEq, Repr

/-- The clockless fabric: cells, acknowledge nodes, choice elements and the attachments' fabric sides. -/
structure Fabric where
  cells : Tab Cell
  nodes : Tab Bool
  choices : Tab Choice
  attIn : Tab InAtt
  attAck : Tab Bool
deriving DecidableEq, Repr

/-- What a LOGIC test's shadow holds of a cavern whose interior a load has emptied under the test (18_self_test_faults R440,
01_architecture R26): its cells with their latches, its nodes, its choice elements, and its outputs whose handshake outside was not
over. -/
structure Shadow where
  cells : Tab Cell
  nodes : Tab Bool
  choices : Tab Choice
  owed : List Nat
deriving DecidableEq, Repr

/-- One cavern: its isolation causes, supply, the tokens that its boundary gate still lets complete (outputs by number, with the code
that stood at the gate), its own outputs whose handshake outside is not over (01_architecture R21), whether its interior has been emptied
and is held so until it is reinitialised (04_routing R96), the shadow of a test under which it was emptied, and the timestamps, plus one, of
the SYSCLK periods in which its speed gauge last wrote a reading and last wrote one above the threshold (05_speed_latency R114). -/
structure Cavern where
  load : Bool := true
  freeze : Bool := false
  bist : Bool := false
  partialLoad : Bool := false
  power : Bool := false
  fpocket : BitVec 8 := 0
  powered : Bool := false
  supplyLost : Bool := false
  used : Bool := false
  pass : List (Nat × Rail) := []
  owed : List Nat := []
  emptied : Bool := false
  shadow : Option Shadow := none
  gaugeAt : Nat := 0
  gaugeOver : Nat := 0
  crc : Word := 0
deriving DecidableEq, Repr

/-- A handshake port of a Pocket (06_pockets R123, R126). -/
structure PPort where
  blocked : Bool := false
deriving DecidableEq, Repr

/-- Where a Pocket's initial contents came from (06_pockets R134): omitted, a stream held nowhere, or frames in the
image store (content minor and byte offset of each). -/
inductive PSource where
  | omitted | stream | store (frames : List (Nat × Nat))
deriving DecidableEq, Repr

/-- What the loader keeps of a Pocket for its restore. -/
structure PMeta where
  source : PSource := .omitted
  crc : Word := 0
deriving DecidableEq, Repr

/-- What the haul-road side of a Pocket's port B last answered: a channel code and a target code of 10_haulers R241 (0 none), or a
block. -/
structure BlockRes where
  err : Nat := 0
  terr : Nat := 0
  data : Nat := 0
deriving DecidableEq, Repr

/-- The Pockets: rows of 72 bits, ports, restore records, and the Pockets that await a restore, in order. -/
structure Pockets where
  rows : Tab (BitVec 72)
  ports : Tab PPort
  info : Tab PMeta
  restoring : List Nat
  blocks : Tab BlockRes
deriving DecidableEq, Repr

/-- The clock counts and the device timestamp (01_architecture R14, R508; 19_events_counters R465); `micro` counts the SYSCLK periods
since the last microsecond tick of the stale-queue timers (08_sump R189), `scrub` gives for each memory class the timestamp from which the
scrubber's next visit is due (18_self_test_faults R449). -/
structure Clocks where
  sys : Nat
  phase : Nat
  micro : Nat
  stamp : Nat
  aon : Nat
  scrub : Tab Nat
deriving DecidableEq, Repr

/-- What each host port banks (14_foreman R330, 19_events_counters R468): its post buffer and post result, its snapshots of the
high words, and the value that its last read returned. -/
structure PortBank where
  post : List Word := List.replicate 16 0
  postRes : Word := 0
  snapTs : Word := 0
  snapBits : Tab Word := []
  snapErr : Tab Word := []
  hostRead : Word := 0
deriving DecidableEq, Repr

/-- The kinds of load (15_configuration R356, R374). -/
inductive LoadKind where
  | full | partialImage | sealedImage
deriving DecidableEq, Repr

/-- Where a load reads its image (15_configuration R349, R368, R373). -/
inductive LoadSource where
  | slot (b : Bool) | spi | jtag | icp | library (off len : Nat) | nowhere (err : Nat)
deriving DecidableEq, Repr

/-- Where a load stands: the header awaited, a record awaited, frames of a record awaited, the trailer awaited,
a partial image verified, the end-of-load work of a full image. -/
inductive LoadPhase where
  | header | record | frames (addr : Nat) (left : Nat) (desc : Bool) | trailer | verified | checked
deriving DecidableEq, Repr

/-- The load in progress. `words` holds the words consumed, the newest first. -/
structure Load where
  kind : LoadKind
  source : LoadSource
  phase : LoadPhase
  words : List Word
  buf : List Word
  hdr : List Word
  frames : Nat
  region : Nat
  wrote : Nat
  sealedCav : Nat
  autocommit : Bool
  fellBack : Bool
  lastSeen : Bool
  mailbox : Option Nat
  cavCrc : Tab Word
deriving DecidableEq, Repr

/-- Bytes being programmed into the image store for a STORE_WRITE or STORE_COMMIT. -/
structure StoreJob where
  mailbox : Nat
  off : Nat
  bytes : List Byte
  commit : Option Nat
deriving DecidableEq, Repr

/-- The configuration controller beside its registers. `started` says that the hard blocks have left reset since the last full load began
(15_configuration R362, R365 step 8), `ran` that RUN has been reached since then (R366, 14_foreman R509). -/
structure Conf where
  load : Option Load
  part : Option Load
  discard : Bool
  liveSlot : Option Bool
  store : Mem
  otp : Tab Word
  otpBusy : Option (Nat × Word)
  boot : BitVec 2
  hadr : BitVec 3
  wakeBegun : Bool
  authFrames : Bool
  job : Option StoreJob
  startUs : Nat
  started : Bool
  ran : Bool
deriving DecidableEq, Repr

/-- Long work that a Foreman command has begun. -/
inductive Work where
  | none
  | domain (d : Nat)
  | storeJob
  | bist
  | sealedLoad
  | copy
deriving DecidableEq, Repr

/-- A mailbox of the host or the fabric (14_foreman R331, R334, R340). -/
structure Mbox where
  busy : Bool := false
  done : Bool := false
  cmd : List Word := List.replicate 16 0
  rsp : List Word := List.replicate 16 0
  staged : Option (List Word) := none
  work : Work := .none
  gather : List (Nat × Nat) := []
  discarding : Bool := false
deriving DecidableEq, Repr

/-- The Foreman: mailboxes (0 to 15 of the host, 16 to 23 of the fabric), post order, RAM, restarts and parameters; the posts of this clock
with their mailboxes, and those that found none free and may still take one that is released in this clock (14_foreman R332, R347). -/
structure Foreman where
  mbox : Tab Mbox
  order : List Nat
  ram : Mem
  restarting : Bool
  dead : Bool
  running : Bool
  restartTimes : List Nat
  loadWindow : Nat
  cmdsDone : Nat
  gpioVal : Tab (BitVec 60)
  gpioOe : Tab (BitVec 60)
  posted : List (HostPort × Nat)
  waiting : List (HostPort × List Word)
deriving DecidableEq, Repr

/-- The Foreman's event queue and history (19_events_counters R464). -/
structure History where
  queue : List (Nat × Nat)
  ring : Tab Nat
  next : Nat
deriving DecidableEq, Repr

/-- The fault log (18_self_test_faults R454), oldest entry first. -/
structure FaultLog where
  entries : List (Word × Word)
  next : Nat
deriving DecidableEq, Repr

/-- A mode entry or exit in progress (16_power R382, R383, R385, R386). -/
inductive ModeSeq where
  | none
  | entering (target : Mode) (woken : Bool) (faulted : Bool)
  | leavingStandby
  | wakingRails
  | pgRetry
deriving DecidableEq, Repr

/-- A change of SYS operating point in progress (16_power R400). -/
structure PointChange where
  target : SysPoint
  raising : Bool
deriving DecidableEq, Repr

/-- A domain command in progress (16_power R398): its direction, whether bursts still complete, and the mailbox that
awaits the report. -/
structure DomCmd where
  up : Bool
  waiting : Bool
  mailbox : Option Nat
deriving DecidableEq, Repr

/-- An edge that a detector took while SYS was stopped, whose flag waits for SYS: of a lane's signal detect or a bench's debounced
HPD (11_lane_electrical R259, 12_lane_link R296). -/
inductive SleepEdge where
  | signal (lane : Nat) (rise : Bool)
  | hpd (bench : Nat) (rise : Bool)
deriving DecidableEq, Repr

/-- The power controller and the always-on sequencer beside their registers; `lbOff` and `ioOff` name the benches and banks whose
domain is off, `edges` the edges that wait for the end of a sleep, `waiting` the accesses that the I2C target and the access port hold
until then (a port, an address, the value of a write). `vccfCmd` and `vccsCmd` are the voltages last commanded over PMBus, in mV, and
`railsOff` the rails whose last OPERATION was off (R402). -/
structure Power where
  mode : Mode
  last : Mode
  seq : ModeSeq
  wakes : List WakeSrc
  point : SysPoint
  change : Option PointChange
  nextPoint : Option SysPoint
  lbOff : Tab Bool
  ioOff : Tab Bool
  dom : Tab DomCmd
  thermal : Bool
  supply : Tab Bool
  regFault : Tab Bool
  held : Bool
  progPending : Bool
  retention : Bool
  padHold : Tab Bool
  temps : Tab (BitVec 16)
  vccfCmd : Nat
  vccsCmd : Nat
  railsOff : Tab Bool
  seqCopy : Tab Word
  edges : List SleepEdge
  waiting : List (HostPort × Word × Option Word)
deriving DecidableEq, Repr

/-- One sensor of Patrol beside its registers (16_power R395, R396). -/
structure Sensor where
  based : Bool := false
  above : Nat := 0
  below : Nat := 0
  length : Nat := 0
deriving DecidableEq, Repr

/-- Patrol: the sensors, the sensor after the one sampled last in this period, and the count of always-on ticks from which the next
period may begin (16_power R393). -/
structure Patrol where
  sensors : Tab Sensor
  nextSensor : Nat
  due : Nat
deriving DecidableEq, Repr

/-- The owners that a pin can have (17_pins R416). -/
inductive PinOwner where
  | none | fabric | foreman | secure | debug
deriving DecidableEq, Repr

/-- One user pin: an owner set by the host, what its pad drives, its keeper, its samples and its handshake phase. -/
structure Pin where
  hostOwner : Option PinOwner := none
  val : Bool := false
  oe : Bool := false
  fabVal : Bool := false
  fabOe : Bool := false
  keeper : Bool := false
  queue : List Bool := []
  reqHigh : Bool := false
  ackHigh : Bool := false
  sampled : Bool := false
deriving DecidableEq, Repr

/-- One bank of pins beside its settings (17_pins R411, R412, R434); `sampled` says that its strap has been sampled since power-on. -/
structure Bank where
  valid : Bool := false
  sampled : Bool := false
  vmis : Bool := false
  strap : Bool := false
  debug : Bool := false
deriving DecidableEq, Repr

/-- The pin controller. -/
structure Pins where
  pins : Tab Pin
  banks : Tab Bank
deriving DecidableEq, Repr

/-- The instructions of the test access port (17_pins R431). -/
inductive JtagIr where
  | extest | idcode | sample | clamp | highz | extestPulse | extestTrain | regacc | cfgLoad | otpProg | debugMask | bypass
deriving DecidableEq, Repr

/-- The test access port; `captured` holds the pads that read 1 at the last capture of the boundary-scan register (pins by number),
`otpIndex` the word that OTP_PROG has addressed last (17_pins R416, R433). -/
structure Jtag where
  ir : JtagIr
  refused : Bool
  mask : BitVec 12
  regaccRead : Word
  regaccDone : Bool
  boundary : Tab (Bool × Bool)
  captured : BitVec 720
  otpIndex : Nat
deriving DecidableEq, Repr

/-- One running or waiting self-test (18_self_test_faults R437, R442): its type and target, whether it has been stopped early, the
outcome, signature and count of a CAVERN test's LOGIC part, and what the registers of the lanes under test held before. -/
structure TestRun where
  type : Nat
  target : Nat
  stopped : Bool := false
  logic : Option (Nat × Nat × Nat) := none
  saved : List (Nat × Word) := []
deriving DecidableEq, Repr

/-- The self-test controller beside its registers: the run of one BIST_RUN or of the start-up self-test. -/
structure SelfTest where
  type : Nat
  target : Nat
  running : List TestRun
  todo : List TestRun
  worst : Nat
  mailbox : Option Nat
  startup : Bool
deriving DecidableEq, Repr

/-- A multi-bit crossing (09_portals R214): the holding register, whether a load awaits acceptance, the pairs that
disagreed, the destination's value, and the clock of the last load, plus one. -/
structure MultiBit where
  held : BitVec 64 := 0
  waiting : Bool := false
  misses : Nat := 0
  seen : BitVec 64 := 0
  loadedAt : Nat := 0
  next : Option (BitVec 64) := none
deriving DecidableEq, Repr

/-- A beat of a Crusher stream (07_crushers R138): 256 bits, start and end markers, bad and tag marks, and valid bytes. -/
structure CBeat where
  data : BitVec 256
  start : Bool
  fin : Bool
  bad : Bool
  mark : Bool
  bytes : Nat
deriving DecidableEq, Repr

/-- A slice in an engine's pipeline: the client, its beats, the timestamp at its first cycle, whether it begins a packet, and the
destinations (type and index) that hold room for its output (07_crushers R145, 08_sump R179). -/
structure Slice where
  client : Nat
  beats : List CBeat
  stamp : Nat
  begins : Bool := false
  dests : List (Nat × Nat) := []
deriving DecidableEq, Repr

/-- What an engine keeps of a client between slices beside the context: the bytes of the packet in earlier slices, whether
a packet is in progress, its marks, whether MATCH drops it or sends it to the alternate destination, whether an output beat
of it has left, and the bytes that each CRC step holds back. -/
structure ClientPkt where
  off : Nat := 0
  inPkt : Bool := false
  bad : Bool := false
  mark : Bool := false
  drop : Bool := false
  alt : Bool := false
  started : Bool := false
  tails : List (Nat × List Byte) := []
deriving DecidableEq, Repr

/-- The Crushers: each engine's next slot, its pipeline, the context words, the clients' packets, the input buffers of the
lane clients, the internal holds of R165 (client, domain), the clients reinitialised after a halt and not yet released
(09_portals R210), the clients whose next slice begins a packet after a reset of their portal's fabric side (09_portals R212), and the
beats that end a halted client's packet and wait for room in the crossing to their lane (R162, 09_portals R213), and the clock, plus one,
in which a slice last took a beat (16_power R381). -/
structure Crushers where
  pos : Tab Nat
  pipe : Tab (List Slice)
  ctx : Tab Word
  pkts : Tab ClientPkt
  inbuf : Tab (List CBeat)
  held : List (Nat × Nat)
  revived : List Nat
  anew : List Nat
  stops : List (Nat × CBeat)
  used : Nat
deriving DecidableEq, Repr

/-- A cell of the Sump in use (08_sump R167, R172, R178): its beats, its queue, its packet, whether it takes no more beats, whether it
is written to its bank, and the 64-bit groups that the scrubber found uncorrectable, by beat (R191). -/
structure SCell where
  beats : List SumpBeat := []
  queue : Nat := 0
  port : Nat := 0
  desc : Option Nat := none
  full : Bool := false
  committed : Bool := false
  err0 : BitVec 16 := 0
  err1 : BitVec 16 := 0
deriving DecidableEq, Repr

/-- A packet descriptor in use (08_sump R172, R173): the cells held, next to be read first; the last cell written; the
cells ever taken; the bytes pushed; its flags; whether a consumer has begun it; whether its `SOP` came after the queue's
`RECOVER` flag was set (R183). -/
structure SDesc where
  used : Bool := false
  queue : Nat := 0
  cells : List Nat := []
  tail : Nat := 0
  total : Nat := 0
  len : Nat := 0
  trunc : Bool := false
  stale : Bool := false
  mark : Bool := false
  bad : Bool := false
  ended : Bool := false
  vis : Bool := false
  begun : Bool := false
  fresh : Bool := false
deriving DecidableEq, Repr

/-- A queue of the Sump beside its settings (08_sump R174 to R190): visible packets, open packets in the order of their
`SOP`, the packet in progress of each producer, producers whose beats are discarded up to an `EOP`, the cells of a stream
queue, cells held, `RECOVER` now and at the start of this clock, a flush and what it has yet to discard, the timer's ticks,
and the four counters of Q_COUNTERS. -/
structure SQueue where
  vis : List Nat := []
  opens : List Nat := []
  prog : List (Producer × Nat) := []
  dropping : List Producer := []
  stream : List Nat := []
  held : Nat := 0
  recover : Bool := false
  recoverWas : Bool := false
  flushing : Bool := false
  doomed : List Nat := []
  timer : Nat := 0
  pktsIn : Nat := 0
  bytesIn : Nat := 0
  pktsOut : Nat := 0
  bytesOut : Nat := 0
deriving DecidableEq, Repr

/-- A beat that waits at a port for its push (08_sump R171): its queue, its producer, and whether it is the last of its
slice. -/
structure SOffer where
  port : Nat
  queue : Nat
  producer : Producer
  beat : SumpBeat
  last : Bool
deriving DecidableEq, Repr

/-- A reservation of a client's slice (08_sump R179): the client, its queue, and whether it reserves a descriptor. -/
structure SResv where
  producer : Producer
  queue : Nat
  desc : Bool
deriving DecidableEq, Repr

/-- Who takes the beats of a pop (08_sump R184, 09_portals R203, 10_haulers R220, 12_lane_link R288). -/
inductive PopTo where
  | master (m q : Nat) | portal (p : Nat) | lane (n : Nat)
deriving DecidableEq, Repr

/-- A pop on its way (08_sump R168, R169): its port, the cell that waits for its bank (none where no cell is read), the beats, and
who takes them. -/
structure SRead where
  port : Nat
  cell : Option Nat
  beats : List SumpBeat
  dest : PopTo
deriving DecidableEq, Repr

/-- The Sump. The free lists are the numbers from `freshCell` and `freshDesc` up, then the freed ones in order. `doneCells`,
`gone`, `goneDescs`, `release`, `flushes` and `expiring` take effect at the end of the clock (R185, R187). `moved` says which ports have
moved a beat in this clock, in which direction and on which queue; `scrubbed` which banks the scrubber has taken; `reads` holds the pops
on their way; `result` is what each port's last push was answered, `got` the beats that each port's last pop returned. -/
structure Sump where
  cells : Tab SCell
  descs : Tab SDesc
  queues : Tab SQueue
  freshCell : Nat
  freeCells : List Nat
  freshDesc : Nat
  freeDescs : List Nat
  offers : List SOffer
  resv : List SResv
  doneCells : List Nat
  gone : List Nat
  goneDescs : List Nat
  release : List Nat
  flushes : List Nat
  expiring : List Nat
  moved : List (Nat × Bool × Nat)
  scrubbed : List Nat
  reads : List SRead
  devCommit : Bool
  fmQueues : List Nat
  result : Tab Nat
  got : Tab (List SumpBeat)
deriving DecidableEq, Repr
/-- A portal (09_portals R197, R203, R207, R211): queued words as (data, tag), how many of them have crossed to the far
side, the `RST` mark due on the next token, a beat being gathered, gathered beats that wait for port 2 with their token counts, the second
beat of a popped cell until the next entry (R205), words that the island has ready for the queue, a frame begun, the cells of the burst in
progress, and the domain whose forced power-down has paused it or awaits the end of that burst (08_sump R192). -/
structure Portal where
  queue : List (Nat × Nat) := []
  ready : Nat := 0
  rst : Bool := true
  gather : List (Nat × Nat) := []
  beats : List (SumpBeat × Nat) := []
  held : List SumpBeat := []
  stage : List (Nat × Nat) := []
  begun : Bool := false
  burst : Nat := 0
  pausing : Option Nat := none
  paused : Option Nat := none
deriving DecidableEq, Repr

/-- The crossings between clock domains (09_portals R213 to R215): beats in each island crossing, the multi-bit crossings,
events offered and in flight by class, and the destination clock of each class's last acceptance, plus one. -/
structure Crossings where
  toCrusher : Tab (List CBeat)
  fromCrusher : Tab (List CBeat)
  fromSump : Tab (List SumpBeat)
  sumpHeld : Tab (List SumpBeat)
  multi : Tab MultiBit
  offered : List (Nat × Nat)
  flight : List (Nat × Nat)
  accepted : Tab Nat
deriving DecidableEq, Repr

/-- What a burst read asks for (10_haulers R220, R225, R229): a descriptor, beats in sequence, some entries of the index table, one
indexed element. -/
inductive ReadKind where
  | desc | seq | index (n : Nat) | element (bit len : Nat)
deriving DecidableEq, Repr

/-- A beat that a target has staged for a master (10_haulers R220, R228): what it was asked for, its valid bytes, the marks of a Sump
beat, the error that answers it (channel code and target code, 0 none), its address, and the blocks of a Pocket that it is read from. -/
structure StagedBeat where
  data : Nat
  bytes : Nat
  nv : Bool := false
  eop : Bool := false
  bad : Bool := false
  err : Bool := false
  mark : Bool := false
  kind : ReadKind := .seq
  code : Nat := 0
  terr : Nat := 0
  addr : Nat := 0
  blocks : Nat := 1
deriving DecidableEq, Repr

/-- A burst read: the address of its next beat, the beats yet to be staged, the beats yet to be taken. -/
structure ReadReq where
  kind : ReadKind
  addr : Nat
  stage : Nat
  left : Nat
deriving DecidableEq, Repr

/-- A master of the haul road beside its registers (10_haulers R220 to R240): its state, its descriptor, a stop or a pause that
awaits the burst boundary, slots to leave idle, where the burst in progress ends, whether the next burst's reads are requested,
destination and source bytes passed, source bits not yet used and those of the beat taken last, converted bits not yet written, elements
converted, the elements that the source gives and the error that then ends the transfer, the failing read after which it halts, index
entries held, how many of them have their elements' reads requested, and entries taken from the table, its burst reads and their staged
beats, the beats popped for it, a pop it has issued, and the marks to pass on, each with the destination bit that ends its beat. -/
structure Hauler where
  st : Nat := 0
  err : Nat := 0
  terr : Nat := 0
  left : Nat := 0
  cur : Nat := 0
  desc : List Word := []
  stop : Bool := false
  pause : Bool := false
  skip : Nat := 0
  burst : Option Nat := none
  ahead : Bool := false
  db : Nat := 0
  sb : Nat := 0
  hold : Nat := 0
  holdLen : Nat := 0
  lastLen : Nat := 0
  out : Nat := 0
  outLen : Nat := 0
  conv : Nat := 0
  limit : Option Nat := none
  stopErr : Option (Nat × Nat) := none
  failed : Option StagedBeat := none
  idx : List Nat := []
  elems : Nat := 0
  idxTaken : Nat := 0
  waiting : List ReadReq := []
  opened : List ReadReq := []
  staged : List StagedBeat := []
  popped : List StagedBeat := []
  popping : Bool := false
  marks : List (Nat × Nat) := []
deriving DecidableEq, Repr

/-- The haul road: the channels H00 to H63 and the Foreman, master 64, and the clocks (plus one) in which the request path and the
wheel's slot were last used. -/
structure Haul where
  chans : Tab Hauler
  asked : Nat
  used : Nat
deriving DecidableEq, Repr

/-- A received block or RAW word in a lane's receive buffer (12_lane_link R284, R286): a control block, its payload, whether it
arrived errored, whether blocks were discarded before it, and whether its packet suffered a discard after it. -/
structure RxBlk where
  ctrl : Bool
  payload : Nat
  err : Bool
  gap : Bool
  cut : Bool := false
deriving DecidableEq, Repr

/-- A block that a lane's transmitter has ready: a control block, its payload, and whether it ends a frame (12_lane_link R281). -/
structure TxBlk where
  ctrl : Bool
  payload : Nat
  last : Bool
deriving DecidableEq, Repr

/-- What an Adit receiver has taken from its lane and its link layer has yet to act on (12_lane_link R297 to R303). -/
inductive LinkMsg where
  | frame (seq : Nat) (toks : List (Nat × Nat)) (bad : Bool)
  | train (payload : Nat)
  | ack (ackSeq credSeq : Nat)
  | nak (expSeq credSeq : Nat)
  | down
deriving DecidableEq, Repr

/-- A lane's transmitter beside its registers: scrambler and precoder, blocks ready, whether a frame is in progress or being
skipped after an underrun, blocks since the last FILL, the packet being built, whether the drained queue's packet is open,
an injection that waits for its symbol, the training bursts sent, the block and line symbols sent last, the pattern generator's state
(11_lane_electrical R266), the blocks gathered for a codeword (12_lane_link R283), and the transmit filter: the levels that it still
needs and its output for the symbols sent last, in 192nds of the full-scale swing (11_lane_electrical R253). -/
structure LaneTx where
  scr : Nat := 0
  pre : Nat := 0
  out : List TxBlk := []
  inFrame : Bool := false
  skip : Bool := false
  sinceFill : Nat := 0
  bytes : List Byte := []
  opened : Bool := false
  started : Bool := false
  draining : Bool := false
  inject : Bool := false
  idleWanted : Bool := false
  bursts : Nat := 0
  sent : Option Block66 := none
  line : List Nat := []
  gen : Nat := 0
  cw : List Block66 := []
  tail : List Int := [0]
  fir : List Int := []
deriving DecidableEq, Repr

/-- A lane's receiver beside its registers: a lock in progress and whether its step 1 has passed, a signal lost since receive idle
began, the last line symbol, the last six decisions, the count of UI for the margin scan, the pattern checker's register, count and
window (11_lane_electrical R247, R254, R268, R271); the bits last received and their place among 66, the runs of valid headers by place,
the place locked and the window of invalid headers (12_lane_link R280); the bits of a codeword, their place, the boundary tried, the runs
of good codewords by boundary, the boundary locked and the run of uncorrectable ones (R283); the descrambler, the buffer of 64 blocks,
whether the arriving stream is in a packet and is being discarded to its end, a gap due, and the packet being assembled for a Crusher. -/
structure LaneRx where
  locking : Bool := false
  heard : Bool := false
  lost : Bool := false
  pre : Nat := 0
  past : List Nat := []
  ui : Nat := 0
  chk : Nat := 0
  chkRun : Nat := 0
  chkErr : Nat := 0
  bits : List Bool := []
  phase : Nat := 0
  runs : Tab Nat := []
  align : Option Nat := none
  inval : Nat := 0
  cw : List Bool := []
  cwPhase : Nat := 0
  cwTried : Bool := true
  cwRuns : Tab Nat := []
  cwAlign : Option Nat := none
  cwBad : Nat := 0
  scr : Nat := 0
  buf : List RxBlk := []
  inArrival : Bool := false
  cutting : Bool := false
  gap : Bool := false
  bytes : List Byte := []
  inPkt : Bool := false
  bad : Bool := false
  begun : Bool := false
deriving DecidableEq, Repr

/-- An ADIT lane's link layer (12_lane_link R297 to R303, 13_chains R324): sequence counts, the replay buffer and where a replay
stands, replays without an advance, the receive buffer of 256 tokens, what is due to be sent, the blocks since a NAK, the frame
under assembly, the messages received, the TRAIN exchange, and whether the state has been held since the lane was last UP. -/
structure Adit where
  txAck : Nat := 0
  txNext : Nat := 0
  tokens : List (Nat × Nat) := []
  resend : Option Nat := none
  replays : Nat := 0
  farCred : Nat := 0
  rxNext : Nat := 0
  rxTokens : List (Nat × Nat) := []
  ackDue : Bool := false
  nakAge : Option Nat := none
  frame : Option (List Nat) := none
  frameErr : Bool := false
  inbox : List LinkMsg := []
  matched : Nat := 0
  oks : Nat := 0
  farEpoch : Nat := 0
  farRxNext : Nat := 0
  kept : Bool := false
deriving DecidableEq, Repr

/-- A lane beside its registers. -/
structure Lane where
  tx : LaneTx := {}
  rx : LaneRx := {}
  adit : Adit := {}
deriving DecidableEq, Repr

/-- What has met the direct registers in the clock that runs, for the happenings of one clock (20_register_map R474 R476,
19_events_counters R466): bits to clear by a write of 1 that hardware has set, what counters to clear by a read have advanced by, the
events whose raise counted in `EVT_MERGED`, the bits of `EVT_FM` that a write has changed, and the registers written with the rank of the
writer (20_register_map R476); `period` holds those written in the SYSCLK period (18_self_test_faults R456). -/
structure Fresh where
  flags : List (Nat × Word) := []
  counts : List (Nat × Nat) := []
  merged : List Nat := []
  recorded : List (Nat × Word) := []
  writes : List (Nat × Nat) := []
  period : List Nat := []
deriving DecidableEq, Repr

/-- The whole block. `regs` holds every direct register that has no other home, at its address; `freeCtr` and `pending`
are the model's own: the count of free values taken, and the commands that wait. -/
structure State where
  clocks : Clocks
  regs : Tab Word
  ports : Tab PortBank
  cavs : Tab Cavern
  cfg : Tab Word
  conf : Conf
  fabric : Fabric
  pockets : Pockets
  crushers : Crushers
  sump : Sump
  portals : Tab Portal
  crossings : Crossings
  haul : Haul
  lanes : Tab Lane
  foreman : Foreman
  history : History
  flog : FaultLog
  power : Power
  patrol : Patrol
  pins : Pins
  jtag : Jtag
  test : SelfTest
  fresh : Fresh
  freeCtr : Nat
  pending : List Instr
deriving DecidableEq, Repr

/-- The Foreman as reset leaves it: mailboxes free, `FM_LOAD_WINDOW` 1 (14_foreman R339, R348). -/
def Foreman.reset : Foreman :=
  { mbox := [], order := [], ram := [], restarting := false, dead := false, running := false, restartTimes := [],
    loadWindow := 1, cmdsDone := 0, gpioVal := [], gpioOe := [], posted := [], waiting := [] }

/-- The power controller while power-on reset is asserted (16_power R378, R388, R410). -/
def Power.reset : Power :=
  { mode := .powerUp, last := .powerUp, seq := .none, wakes := [], point := .p0, change := none, nextPoint := none,
    lbOff := [], ioOff := [], dom := [], thermal := false, supply := [], regFault := [], held := true, progPending := false,
    retention := false, padHold := [], temps := [], vccfCmd := 0, vccsCmd := 0, railsOff := [], seqCopy := [],
    edges := [], waiting := [] }

/-- The configuration controller while power-on reset is asserted (15_configuration R377). -/
def Conf.reset : Conf :=
  { load := none, part := none, discard := false, liveSlot := none, store := [], otp := [], otpBusy := none,
    boot := 0, hadr := 0, wakeBegun := false, authFrames := false, job := none, startUs := 0, started := false, ran := false }

/-- The Crushers as SYS reset and every full load leave them (07_crushers R143, R164). -/
def Crushers.reset : Crushers := { pos := [], pipe := [], ctx := [], pkts := [], inbuf := [], held := [], revived := [], anew := [], stops := [], used := 0 }

/-- The Sump as SYS reset and every full load leave it (08_sump R178). -/
def Sump.reset : Sump :=
  { cells := [], descs := [], queues := [], freshCell := 0, freeCells := [], freshDesc := 0, freeDescs := [], offers := [],
    resv := [], doneCells := [], gone := [], goneDescs := [], release := [], flushes := [], expiring := [], moved := [], scrubbed := [], reads := [], devCommit := false,
    fmQueues := [], result := [], got := [] }

/-- The device held at power-on reset: every register at its reset value, every cavern isolated with cause LOAD
(01_architecture R31, R32), nothing loaded, no command waiting. -/
def State.reset : State :=
  { clocks := { sys := 0, phase := 0, micro := 0, stamp := 0, aon := 0, scrub := [] }, regs := [], ports := [], cavs := [],
    cfg := [], conf := Conf.reset,
    fabric := { cells := [], nodes := [], choices := [], attIn := [], attAck := [] },
    pockets := { rows := [], ports := [], info := [], restoring := [], blocks := [] },
    crushers := Crushers.reset, sump := Sump.reset, portals := [], crossings := { toCrusher := [], fromCrusher := [], fromSump := [], sumpHeld := [], multi := [], offered := [], flight := [], accepted := [] }, haul := { chans := [], asked := 0, used := 0 }, lanes := [],
    foreman := Foreman.reset, history := { queue := [], ring := [], next := 0 }, flog := { entries := [], next := 0 },
    power := Power.reset, patrol := { sensors := [], nextSensor := 24, due := 0 }, pins := { pins := [], banks := [] },
    jtag := { ir := .idcode, refused := false, mask := 0xFFF, regaccRead := 0, regaccDone := false,
              boundary := [], captured := 0, otpIndex := 0 },
    test := { type := 0, target := 0, running := [], todo := [], worst := 0, mailbox := none, startup := false },
    fresh := {}, freeCtr := 0, pending := [] }

end Sys2Proof.Machine
end

