-- ==== Sys2Proof/Machine/Tab.lean ====
section
/-! DEFINITION. Operations on sparse tables and byte memories: the one way in which the state's collections are read and written. -/

namespace Sys2Proof.Machine

variable {α : Type}

/-- What a table reads as at a key; `d` is what an unlisted key reads as. -/
def tabGet (d : α) : Tab α → Nat → α
  | [], _ => d
  | (k, v) :: r, j => if k = j then v else tabGet d r j

/-- A table without a key. -/
def tabErase (t : Tab α) (k : Nat) : Tab α := t.filter fun e => e.1 ≠ k

/-- An entry put before the first greater key. -/
def tabInsert (t : Tab α) (k : Nat) (v : α) : Tab α :=
  match t with
  | [] => [(k, v)]
  | (j, w) :: r => if k < j then (k, v) :: (j, w) :: r else (j, w) :: tabInsert r k v

/-- A table with a key's value replaced; writing what an unlisted key reads as removes the entry. -/
def tabSet [DecidableEq α] (d : α) (t : Tab α) (k : Nat) (v : α) : Tab α :=
  if v = d then tabErase t k else tabInsert (tabErase t k) k v

/-- A table with a key's value changed by a function. -/
def tabMod [DecidableEq α] (d : α) (t : Tab α) (k : Nat) (f : α → α) : Tab α := tabSet d t k (f (tabGet d t k))

/-- The keys of a table rise strictly. -/
def tabSorted : Tab α → Bool
  | [] => true
  | [_] => true
  | (j, _) :: (k, w) :: r => j < k && tabSorted ((k, w) :: r)

/-- The canonical form of a table: keys strictly rising, no entry equal to what an unlisted key reads as. -/
def tabWf [DecidableEq α] (d : α) (t : Tab α) : Bool := tabSorted t && t.all fun e => e.2 ≠ d

/-- What a byte of Foreman RAM that nothing has written reads as (DESIGN CHOICE, unsafe, log 5). -/
def ramFill : Byte := 0

/-- What a byte of the image store that nothing has written reads as (DESIGN CHOICE, unsafe, log 5). -/
def storeFill : Byte := 0xFF

/-- A little-endian word (00_scope R4) of a byte memory. -/
def memWord (fill : Byte) (m : Mem) (a : Nat) : Word :=
  word ((tabGet fill m a).toNat + (tabGet fill m (a + 1)).toNat * 2 ^ 8 + (tabGet fill m (a + 2)).toNat * 2 ^ 16 +
    (tabGet fill m (a + 3)).toNat * 2 ^ 24)

/-- Bytes `i` of a number, lowest first. -/
def bytesOf (n : Nat) (len : Nat) : List Byte := (List.range len).map fun i => BitVec.ofNat 8 (n >>> (8 * i))

/-- The number that bytes hold, lowest first. -/
def natOfBytes (bs : List Byte) : Nat := bs.foldr (fun b n => b.toNat + 2 ^ 8 * n) 0

/-- Bytes written at rising addresses. -/
def memWrite (fill : Byte) (m : Mem) (a : Nat) (bs : List Byte) : Mem :=
  match bs with
  | [] => m
  | b :: r => memWrite fill (tabSet fill m a b) (a + 1) r

/-- Bytes read from rising addresses. -/
def memRead (fill : Byte) (m : Mem) (a len : Nat) : List Byte := (List.range len).map fun i => tabGet fill m (a + i)

/-- The canonical form of a byte memory. -/
def memWf (fill : Byte) (m : Mem) : Bool := tabWf fill m

end Sys2Proof.Machine
end

