-- ==== Sys2Proof/Machine/Operands.lean ====
section
/-! DEFINITION. What a command reads: configuration fields in force, the mesh and the acknowledge hierarchy of the fabric, and the attachments of edge bits. -/

namespace Sys2Proof

/-! ### Tags of Sump beats (08_sump R170) -/

/-- `SOP`. -/
def SumpBeat.sop (b : SumpBeat) : Bool := b.tag.getLsbD 14
/-- `EOP`. -/
def SumpBeat.eop (b : SumpBeat) : Bool := b.tag.getLsbD 13
/-- `BAD`. -/
def SumpBeat.bad (b : SumpBeat) : Bool := b.tag.getLsbD 12
/-- `MARK`. -/
def SumpBeat.mark (b : SumpBeat) : Bool := b.tag.getLsbD 11
/-- `ERR`. -/
def SumpBeat.err (b : SumpBeat) : Bool := b.tag.getLsbD 10
/-- `NV`. -/
def SumpBeat.nv (b : SumpBeat) : Bool := b.tag.getLsbD 15
/-- `PEND`. -/
def SumpBeat.pend (b : SumpBeat) : Bool := b.tag.getLsbD 8
/-- `TRUNC`. -/
def SumpBeat.truncated (b : SumpBeat) : Bool := b.tag.getLsbD 7
/-- Valid bytes of a beat (08_sump R170, R182). -/
def SumpBeat.bytes (b : SumpBeat) : Nat :=
  if b.truncated then 0 else if b.eop then bitsOf 0 7 b.tag.toNat + 1 else 128

/-- What the Sump stores of a pushed beat: the producer's fields alone (08_sump R170). -/
def SumpBeat.stored (b : SumpBeat) : SumpBeat := { b with tag := b.tag &&& 0x787F#16 }

end Sys2Proof

namespace Sys2Proof.Machine

/-! ### Configuration cells -/

/-- The place of a frame word among the configuration cells (03_cells R81). -/
def cfgKey (cav col minor w : Nat) : Nat := ((cav * 1024 + col) * 256 + minor) * 128 + w

/-- A word of a frame in force. -/
def cfgWord (t : Tab Word) (cav col minor w : Nat) : Nat := (tabGet 0 t (cfgKey cav col minor w)).toNat

/-- Frame bits `[lo + len - 1 : lo]`, at most 64 of them: bit b is bit b mod 32 of word b / 32 (03_cells R81). -/
def cfgBits (t : Tab Word) (cav col minor lo len : Nat) : Nat :=
  let w := lo / 32
  bitsOf (lo % 32) len
    (cfgWord t cav col minor w + 2 ^ 32 * (cfgWord t cav col minor (w + 1) + 2 ^ 32 * cfgWord t cav col minor (w + 2)))

/-- Bits of a cell's 128-bit field (03_cells R81, R82). -/
def cellBits (t : Tab Word) (cav x y k lo len : Nat) : Nat :=
  cfgBits t cav x (y / 2) (128 * (16 * (y % 2) + k) + lo) len

/-- Bits of a chamber's routing settings (04_routing R102, R103). -/
def chamberBits (t : Tab Word) (cav x y lo len : Nat) : Nat :=
  cfgBits t cav x (0x19 + y / 2) (2048 * (y % 2) + lo) len

/-- The settings of a cell that its behaviour reads (03_cells R82). -/
structure CellCfg where
  mode : Nat
  use : Nat
  lat0 : Bool
  lat1 : Bool
  lat1Src : Nat
  cin : Nat
  y0 : Bool
  y1 : Bool
  init0 : Nat
  init1 : Nat
  table : Nat
deriving DecidableEq, Repr

/-- The settings of a cell. -/
def cellCfg (t : Tab Word) (cav x y k : Nat) : CellCfg :=
  let f := fun lo len => cellBits t cav x y k lo len
  { mode := f 70 3, use := f 64 6, lat0 := f 77 1 = 1, lat1 := f 78 1 = 1, lat1Src := f 79 2, cin := f 81 2,
    y0 := f 83 1 = 1, y1 := f 84 1 = 1, init0 := f 73 2, init1 := f 75 2, table := f 0 64 }

/-- Latch 1 takes latch 0's output (03_cells R72, R73). -/
def CellCfg.cascade (c : CellCfg) : Bool := c.lat1 && c.lat1Src = 1
/-- Latch 1 takes input I5 (03_cells R72). -/
def CellCfg.bypass (c : CellCfg) : Bool := c.lat1 && c.lat1Src = 2
/-- Latch 1 takes the second output of the table or the choice element (03_cells R72). -/
def CellCfg.lat1Table (c : CellCfg) : Bool := c.lat1 && c.lat1Src = 0

/-! ### Caverns -/

/-- A cavern (01_architecture R24); an unlisted one is as power-on reset leaves it. -/
def State.cav (s : State) (c : Nat) : Cavern := tabGet {} s.cavs c

/-- A cavern is isolated while any of its five causes is set (01_architecture R24). -/
def Cavern.isolated (c : Cavern) : Bool := c.load || c.freeze || c.bist || c.partialLoad || c.power

/-- The interior takes no part in handshakes: it is held by LOAD, PARTIAL or POWER, without supply, or emptied and not yet
reinitialised (04_routing R96). -/
def Cavern.heldInside (v : Cavern) : Bool := v.load || v.partialLoad || v.power || !v.powered || v.emptied

/-- The cavern's boundary gate is closed. -/
def State.isolated (s : State) (c : Nat) : Bool := (s.cav c).isolated

/-! ### Names of outputs, nodes and attachments -/

/-- The number of a cell. -/
def cellKey (cav x y k : Nat) : Nat := ((cav * 50 + x) * 50 + y) * 16 + k
/-- The number of a cell output: 0 to 15 are Y0, 16 to 31 are Y1 (04_routing R103). -/
def outKey (cav x y o : Nat) : Nat := ((cav * 50 + x) * 50 + y) * 32 + o
/-- The number of a chamber. -/
def chamberKey (cav x y : Nat) : Nat := (cav * 50 + x) * 50 + y

/-- The number of an acknowledge node; the merge of a global line is one too (04_routing R91, R98). -/
def lnKey (cav x y n : Nat) : Nat := ((cav * 50 + x) * 50 + y) * 16 + n
/-- Cluster nodes. -/
def cnKey (cav gx gy n : Nat) : Nat := 2000000 + ((cav * 10 + gy) * 10 + gx) * 64 + n
/-- Global nodes. -/
def gnKey (cav n : Nat) : Nat := 3000000 + cav * 128 + n
/-- Global lines. -/
def lineKey (r k : Nat) : Nat := 4000000 + r * 16 + k
/-- The memory of the merge that forms a cell's AKI (03_cells R73). -/
def akiKey (cav x y k : Nat) : Nat := 5000000 + cellKey cav x y k

/-- A node's output. -/
def State.node (s : State) (k : Nat) : Bool := tabGet false s.fabric.nodes k

/-- Attachment numbers: Pocket ports. -/
def attPocket (cav idx port : Nat) : Nat := (cav * 112 + idx) * 2 + port
/-- User pins. -/
def attPin (b n : Nat) : Nat := 10000 + b * 60 + n
/-- Taps of fabric-raised events (19_events_counters R460). -/
def attEvent (k : Nat) : Nat := 11000 + k
/-- Portals. -/
def attPortal (p : Nat) : Nat := 12000 + p

/-- A cell's stored state. -/
def State.cell (s : State) (cav x y k : Nat) : Cell := tabGet {} s.fabric.cells (cellKey cav x y k)

/-- The code that a latch presents (03_cells R68). -/
def LatchOut.rail : LatchOut → Rail
  | .hold true => .v1
  | .hold false => .v0
  | _ => .empty

/-- A valid value as a code. -/
def Rail.ofBool (b : Bool) : Rail := if b then .v1 else .v0
/-- The code is valid. -/
def Rail.valid : Rail → Bool
  | .v0 => true | .v1 => true | _ => false
/-- The value of a code, 0 where it carries none (03_cells R56). -/
def Rail.bit : Rail → Nat
  | .v1 => 1 | _ => 0

/-- What output Y0 or Y1 of a cell presents (03_cells R72). Where `LAT1_EN` is 0 the model gives `LAT1_SRC` no part in Y1: Y1 presents B,
C or grant B directly in the modes that form one, and nothing in TABLE mode (DESIGN CHOICE, unsafe, log 93). -/
def State.cellOut (s : State) (cav x y o : Nat) : Rail :=
  let k := o % 16
  let cc := cellCfg s.cfg cav x y k
  let c := s.cell cav x y k
  if o < 16 then
    if cc.y0 then (if cc.lat0 then c.out0.rail else c.src0) else .empty
  else if cc.y1 then (if cc.lat1 then c.out1.rail else c.src1) else .empty

/-! ### The boundary gates -/

/-- The number that stands for no output: no chamber's outputs reach it. -/
def noOut : Nat := 3200000

/-- What the gate of cavern `c` lets through of an output's code. Of its own outputs, an isolated cavern presents outside only the
tokens that stood there, and an output that owes a handshake outside nothing newer. Of the outputs of others, an isolated cavern lets
in only the tokens that had reached its gate, in their valid phase and their return, and after a release a token that it had accepted
before does not enter the new run (01_architecture R20, R21). -/
def Cavern.gatePass (v : Cavern) (c o : Nat) (r : Rail) : Rail :=
  if o / 80000 = c then
    if v.isolated && !v.heldInside then (if v.pass.any (·.1 = o) then r else .empty)
    else if v.isolated || v.owed.contains o then tabGet .empty v.pass o
    else r
  else if v.isolated then (if v.pass.any (·.1 = o) then r else .empty)
  else if v.pass.any (·.1 = o) then .empty else r

/-- A code that crosses from cavern `a` into cavern `b` through the gate (01_architecture R20, R21). -/
def State.gate (s : State) (a b : Nat) (or : Nat × Rail) : Nat × Rail :=
  if a = b then or else (or.1, (s.cav b).gatePass b or.1 ((s.cav a).gatePass a or.1 or.2))

/-- What an output presents outside its cavern. -/
def State.presentedOut (s : State) (o : Nat) : Rail :=
  (s.cav (o / 80000)).gatePass (o / 80000) o (s.cellOut (o / 80000) (o / 1600 % 50) (o / 32 % 50) (o % 32))

/-! ### The mesh -/

/-- Tracks of a length that a chamber starts in a direction (04_routing R84). -/
def trackCount (len : Nat) : Nat := if len = 1 then 16 else if len = 4 then 4 else 2

/-- The track number in the chamber's settings (04_routing R103): direction 0 north, 1 east, 2 south, 3 west. -/
def trackNo (d len t : Nat) : Nat := 22 * d + (if len = 1 then t else if len = 4 then 16 + t else 20 + t)

/-- Where a track that ends at a chamber of the device started, by device coordinates (04_routing R84, R85). -/
def trackOrigin (gx gy d len : Nat) : Option (Nat × Nat) :=
  match d with
  | 0 => if gy + len < 250 then some (gx, gy + len) else none
  | 1 => if len ≤ gx then some (gx - len, gy) else none
  | 2 => if len ≤ gy then some (gx, gy - len) else none
  | _ => if gx + len < 400 then some (gx + len, gy) else none

/-- Where a track that starts at a chamber ends. -/
def trackTarget (gx gy d len : Nat) : Option (Nat × Nat) := trackOrigin gx gy ((d + 2) % 4) len

/-- The cavern of a chamber given by device coordinates (01_architecture R11). -/
def cavAt (gx gy : Nat) : Nat := 8 * (gy / 50) + gx / 50
/-- Device column of a chamber. -/
def devX (cav x : Nat) : Nat := 50 * (cav % 8) + x
/-- Device row of a chamber. -/
def devY (cav y : Nat) : Nat := 50 * (cav / 8) + y

/-- The arriving track that a start multiplexer's select names: direction, length and index (04_routing R86). -/
def turnOf (sel d len t : Nat) : Option (Nat × Nat × Nat) :=
  let n := trackCount len
  match sel with
  | 0x21 => some (d, len, t)
  | 0x22 => some ((d + 3) % 4, len, (t + 1) % n)
  | 0x23 => some ((d + 1) % 4, len, (t + n - 1) % n)
  | 0x24 => some (if len = 1 then (d, 4, t % 4) else (d, 1, t))
  | 0x25 => some (if len = 12 then (d, 4, t) else (d, 12, t % 2))
  | _ => none

/-- The tracks of the device: a chain longer than this meets a track twice, and a ring of tracks presents EMPTY (04_routing R84,
R90). -/
def meshFuel : Nat := 400 * 250 * 88

/-- What arrives at a chamber on a track: the output that drives it and its code after the gates it crosses. -/
def State.trackEnd (s : State) : Nat → Nat → Nat → Nat → Nat → Nat → Nat × Rail
  | 0, _, _, _, _, _ => (noOut, .empty)
  | fuel + 1, gx, gy, d, len, t =>
    match trackOrigin gx gy d len with
    | none => (noOut, .empty)
    | some (ox, oy) =>
      let c := cavAt ox oy
      let sel := chamberBits s.cfg c (ox % 50) (oy % 50) (128 + 6 * trackNo d len t) 6
      s.gate c (cavAt gx gy)
        (if 1 ≤ sel ∧ sel ≤ 0x20 then
          (outKey c (ox % 50) (oy % 50) (sel - 1), s.cellOut c (ox % 50) (oy % 50) (sel - 1))
        else
          match turnOf sel d len t with
          | none => (noOut, .empty)
          | some (d', len', t') => s.trackEnd fuel ox oy d' len' t')

/-! ### Global lines -/

/-- Bits of a line's settings in a cavern (04_routing R98). -/
def lineBits (t : Tab Word) (cav k lo len : Nat) : Nat := cfgBits t cav 60 0x04 (32 * k + lo) len

/-- The cavern that drives a line: the one whose driver is enabled in force (04_routing R99). -/
def lineOwner (t : Tab Word) (r k : Nat) : Option Nat :=
  ((List.range 8).map (8 * r + ·)).find? fun c => lineBits t c k 0 1 = 1

/-- The output that drives a line and the code that the line presents (04_routing R98, R99). -/
def State.line (s : State) (r k : Nat) : Nat × Rail :=
  match lineOwner s.cfg r k with
  | none => (noOut, .empty)
  | some c =>
    let x := lineBits s.cfg c k 1 6
    let y := lineBits s.cfg c k 7 6
    let o := lineBits s.cfg c k 13 5
    (outKey c x y o, (s.cav c).gatePass c (outKey c x y o) (s.cellOut c x y o))

/-- A line as the tap of a cavern reads it (04_routing R98). -/
def State.lineTap (s : State) (r k cav : Nat) : Rail :=
  let l := s.line r k
  if l.1 / 80000 = cav then l.2 else (s.cav cav).gatePass cav l.1 l.2

/-- The node that an output's `AKSEL` names, if any (04_routing R95). -/
def outNode (t : Tab Word) (cav x y o : Nat) : Option Nat :=
  let sel := chamberBits t cav x y (1296 + 8 * o) 8
  if sel = 0 then none
  else if sel ≤ 0x10 then some (lnKey cav x y (sel - 1))
  else if sel ≤ 0x50 then some (cnKey cav (x / 5) (y / 5) (sel - 0x11))
  else if sel ≤ 0xD0 then some (gnKey cav (sel - 0x51))
  else none

/-- The cavern of the neighbour on a side: 0 north, 1 east, 2 south, 3 west (04_routing R94). -/
def neighbour (cav side : Nat) : Option Nat :=
  match side with
  | 0 => if 8 ≤ cav then some (cav - 8) else none
  | 1 => if cav % 8 < 7 then some (cav + 1) else none
  | 2 => if cav < 32 then some (cav + 8) else none
  | _ => if 0 < cav % 8 then some (cav - 1) else none

/-- Input select `i` of a global node (04_routing R102). -/
def gnSel (t : Tab Word) (cav n i : Nat) : Nat := cfgBits t cav 60 (n / 32) (128 * (n % 32) + 13 * i) 13

/-- The node of an output by its number. -/
def outNodeOf (t : Tab Word) (o : Nat) : Option Nat := outNode t (o / 80000) (o / 1600 % 50) (o / 32 % 50) (o % 32)

/-- A global node is the end of a chain of neighbour selects that begins at global node `n` of cavern `a` (04_routing R94, R95). -/
def gnReaches (t : Tab Word) : Nat → Nat → Nat → Nat → Nat → Bool
  | 0, _, _, _, _ => false
  | fuel + 1, a, n, b, m =>
    (a = b && n = m) || (List.range 8).any fun i =>
      let sel := gnSel t a n i
      6400 < sel && sel ≤ 6912 &&
        match neighbour a ((sel - 6401) / 128) with
        | some c => gnReaches t fuel c ((sel - 6401) % 128) b m
        | none => false

/-- An output's acknowledge comes through global node `n` of cavern `cav`: its own node, or one on the chain of its node (04_routing
R95). A chain that meets no cavern twice has 40 nodes at most. -/
def rides (t : Tab Word) (o cav n : Nat) : Bool :=
  match outNodeOf t o with
  | some k => 3000000 ≤ k && k < 4000000 && gnReaches t 40 ((k - 3000000) / 128) ((k - 3000000) % 128) cav n
  | none => false

/-- What the gate of a consumer's cavern makes of an acknowledge `v` that its interior forms, for the tokens `os` of others that ride
on it (01_architecture R21, 04_routing R96, R98). Closed, it passes the acknowledge on while a token that had reached the gate is not
through, where the interior is held in the interior's place, and low otherwise; open, it finishes for the old run a token that the
interior had accepted before its release. -/
def State.consumerGate (s : State) (c : Nat) (rides : Nat → Bool) (v : Bool) : Bool :=
  let cv := s.cav c
  let os := (cv.pass.map (·.1)).filter fun o => o / 80000 ≠ c && rides o
  if os.isEmpty then (if cv.isolated then false else v)
  else if cv.isolated && !cv.heldInside then v
  else os.any fun o => (s.presentedOut o).valid

/-- The acknowledge of a line as a driver's global node reads it, or of a neighbour's node, by the select's value, before the gate of
the node's own cavern (04_routing R94, R96). -/
def State.crossAck (s : State) (cav n sel : Nat) : Option Bool :=
  if 6400 < sel ∧ sel ≤ 6912 then
    (neighbour cav ((sel - 6401) / 128)).map fun c =>
      s.consumerGate c (fun o => rides s.cfg o cav n) (s.node (gnKey c ((sel - 6401) % 128)))
  else if 6912 < sel ∧ sel ≤ 6928 then some (s.node (lineKey (cav / 8) (sel - 6913)))
  else none

/-- The acknowledges that reach a global node from beyond its cavern's gate: the neighbours' nodes and the lines (04_routing R94,
R96). -/
def State.crossAcks (s : State) (cav n : Nat) : List Bool :=
  (List.range 8).filterMap fun i => s.crossAck cav n (gnSel s.cfg cav n i)

/-- What the gate of a producer's cavern lets in of an acknowledge from outside (01_architecture R21, R25; 04_routing R96): while the
cavern is isolated, only one for a token that it still presents or passes on; after a release, none that belongs to a token presented
before. -/
def State.producerGate (s : State) (cav : Nat) (rides : Nat → Bool) (v : Bool) : Bool :=
  let cv := s.cav cav
  v && (if cv.isolated then (cv.owed.any rides) || cv.pass.any (fun p => p.1 / 80000 ≠ cav && rides p.1) else !(cv.owed.any rides))

/-! ### Edge bits -/

/-- The first lane and the number of lanes whose portals a cavern hosts (01_architecture R12). -/
def laneHost (cav : Nat) : Option (Nat × Nat) :=
  match cav with
  | 0 => some (0, 8) | 8 => some (8, 12) | 16 => some (20, 8) | 24 => some (28, 12) | 32 => some (40, 8)
  | 7 => some (48, 8) | 15 => some (56, 12) | 23 => some (68, 8) | 31 => some (76, 12) | 39 => some (88, 8)
  | _ => none

/-- The cavern that hosts a lane's portals (01_architecture R12). -/
def laneCav (n : Nat) : Nat :=
  if n < 8 then 0 else if n < 20 then 8 else if n < 28 then 16 else if n < 40 then 24 else if n < 48 then 32
  else if n < 56 then 7 else if n < 68 then 15 else if n < 76 then 23 else if n < 88 then 31 else 39

/-- The first lane of the cavern that hosts a lane. -/
def laneFirst (n : Nat) : Nat :=
  if n < 8 then 0 else if n < 20 then 8 else if n < 28 then 20 else if n < 40 then 28 else if n < 48 then 40
  else if n < 56 then 48 else if n < 68 then 56 else if n < 76 then 68 else if n < 88 then 76 else 88

/-- The Pocket port whose host chamber this is: Pocket index, port, and whether it is the second chamber
(06_pockets R124). -/
def pocketAt (x y : Nat) : Option (Nat × Nat × Bool) :=
  let port := if x % 7 = 3 then some 0 else if x % 7 = 4 then some 1 else none
  match port with
  | none => none
  | some p =>
    if x < 49 ∧ y / 3 < 16 ∧ y % 3 = 1 then some (16 * (x / 7) + y / 3, p, false)
    else if x < 49 ∧ y / 3 < 16 ∧ y % 3 = 2 then some (16 * (x / 7) + y / 3, p, true)
    else none

/-- The pin that attaches at a chamber in half `p` (17_pins R413). -/
def pinAt (cav x y p : Nat) : Option (Nat × Nat) :=
  if 10 ≤ x ∧ x < 40 then
    if 1 ≤ cav ∧ cav ≤ 6 ∧ y = 0 then some (cav - 1, 2 * (x - 10) + p)
    else if 33 ≤ cav ∧ cav ≤ 38 ∧ y = 49 then some (cav - 33 + 6, 2 * (x - 10) + p)
    else none
  else none

/-- The number of a portal: lanes first, then the sites of caverns 16 to 31, IN before OUT. -/
def lanePortal (n dir : Nat) : Nat := 2 * n + dir
/-- The number of a site portal (09_portals R200). -/
def sitePortal (cav site dir : Nat) : Nat := 192 + ((cav - 16) * 54 + site) * 2 + dir

/-- The number of a portal that a command names. -/
def portalNo : PortalId → Nat
  | .lane n out => lanePortal n.val (bitNat out)
  | .site c s out => sitePortal (16 + c.val) s.val (bitNat out)

/-- The cavern that hosts a portal (09_portals R199, R200). -/
def portalCav (p : Nat) : Nat := if p < 192 then laneCav (p / 2) else 16 + (p - 192) / 108

/-- A portal's settings word (09_portals R206). -/
def portalCfg (t : Tab Word) (p : Nat) : Nat :=
  if p < 192 then cfgWord t 41 (laneCav (p / 2)) 0x01 (2 * (p / 2 - laneFirst (p / 2)) + p % 2)
  else cfgWord t 41 (portalCav p) 0x00 ((p - 192) % 108)

/-- `PORTAL.EN`. -/
def portalEn (t : Tab Word) (p : Nat) : Bool := bitAt 0 (portalCfg t p)
/-- `PORTAL.WIDTH` in bits. -/
def portalWidth (t : Tab Word) (p : Nat) : Nat := 64 * 2 ^ bitsOf 3 2 (portalCfg t p)
/-- `PORTAL.DEPTH` in words. -/
def portalDepth (t : Tab Word) (p : Nat) : Nat := 8 * 2 ^ bitsOf 5 2 (portalCfg t p)
/-- `PORTAL.TXSTART`. -/
def portalTxstart (t : Tab Word) (p : Nat) : Nat := bitsOf 7 7 (portalCfg t p)
/-- `PORTAL.ACK_NODE`. -/
def portalNode (t : Tab Word) (p : Nat) : Nat := bitsOf 14 7 (portalCfg t p)
/-- `PORTAL.BIND`. -/
def portalBind (t : Tab Word) (p : Nat) : Nat := bitsOf 21 11 (portalCfg t p)

/-- The row of a site's chambers (09_portals R200). -/
def siteRow (cav b : Nat) : Nat :=
  if cav < 24 then (if b = 0 then 49 else 51 - 3 * b) else 3 * b

/-- Chamber `k` of a portal (09_portals R199, R200). -/
def portalChamber (p k : Nat) : Nat × Nat :=
  if p < 192 then
    (if laneCav (p / 2) % 8 = 0 then 0 else 49, 4 * (p / 2 - laneFirst (p / 2)) + k)
  else
    let s := (p - 192) % 108 / 2
    (5 * (s % 9) + 1 + k, siteRow (portalCav p) (s / 9))

/-- The IN portal whose chamber this is, and which chamber of it (09_portals R199, R200). -/
def portalAt (cav x y : Nat) : Option (Nat × Nat) :=
  match laneHost cav with
  | some (l, n) =>
    if x = (if cav % 8 = 0 then 0 else 49) ∧ y / 4 < n ∧ y % 4 < 3 then some (lanePortal (l + y / 4) 0, y % 4)
    else none
  | none => none

/-- The IN portal of the site whose chamber this is, and which chamber of it (09_portals R200). -/
def siteAt (cav x y : Nat) : Option (Nat × Nat) :=
  if 16 ≤ cav ∧ cav < 32 ∧ 1 ≤ x ∧ x < 46 then
    match (List.range 6).find? fun b => siteRow cav b = y with
    | some b => some (sitePortal cav (9 * b + (x - 1) / 5) 0, (x - 1) % 5)
    | none => none
  else none

/-- A bit of a Pocket's settings frame (06_pockets R132). -/
def pocketBits (t : Tab Word) (cav idx lo len : Nat) : Nat := cfgBits t cav (64 + idx) 0x12 lo len

/-- The width code of a port: 0 where it is off. -/
def pocketWidthCode (t : Tab Word) (cav idx port : Nat) : Nat := pocketBits t cav idx (3 * port) 3

/-- Array bits of a word by width code (06_pockets R119). -/
def widthBits (code : Nat) : Nat :=
  match code with
  | 1 => 1 | 2 => 2 | 3 => 4 | 4 => 9 | 5 => 18 | 6 => 36 | 7 => 72 | _ => 0

/-- The data width that a port presents to its channels (06_pockets R120). -/
def pocketDataWidth (t : Tab Word) (cav idx port : Nat) : Nat :=
  let w := widthBits (pocketWidthCode t cav idx port)
  match pocketBits t cav idx 7 2 with
  | 0 => w
  | 1 => w / 9 * 8
  | _ => if w = 72 then 64 else 0

/-- The inward attachment of an edge bit: the attachment's number and the bit of its token (04_routing R85; a Pocket's
port, 06_pockets R125). -/
def edgeIn (t : Tab Word) (cav x y j : Nat) : Option (Nat × Nat) :=
  match pocketAt x y with
  | some (i, p, second) =>
    let b := if second then 64 + j else j
    if b < pocketDataWidth t cav i p ∧ (second = false ∨ j < 8) then some (attPocket cav i p, b) else none
  | none =>
    match pinAt cav x y (j / 32) with
    | some (b, n) => if j % 32 = 0 then some (attPin b n, 0) else none
    | none =>
      match (portalAt cav x y).orElse fun _ => siteAt cav x y with
      | some (p, k) =>
        let w := portalWidth t p
        if portalEn t p then
          if k < w / 64 then some (attPortal p, 64 * k + j)
          else if k = w / 64 ∧ j < 16 then some (attPortal p, w + j) else none
        else none
      | none => none

/-- The attachment whose acknowledge is input EA `j` of a chamber (04_routing R93). -/
def edgeAck (t : Tab Word) (cav x y j : Nat) : Option Nat :=
  match pocketAt x y with
  | some (i, p, _) => if j = 0 ∧ pocketDataWidth t cav i p ≠ 0 then some (attPocket cav i p) else none
  | none =>
    match pinAt cav x y j with
    | some (b, n) => if j < 2 then some (attPin b n) else none
    | none =>
      match (portalAt cav x y).orElse fun _ => siteAt cav x y with
      | some (p, k) => if j = 0 ∧ portalEn t (p + 1) ∧ k ≤ portalWidth t (p + 1) / 64 then some (attPortal (p + 1)) else none
      | none => none

/-- The attachment that reads outward edge bit `j` of a chamber through the cavern's boundary gate: a pin or an OUT portal (04_routing
R85, 17_pins R413, 09_portals R199, R200). -/
def edgeOutAtt (t : Tab Word) (cav x y j : Nat) : Option Nat :=
  match pinAt cav x y (j / 32) with
  | some (b, n) => if j % 32 < 2 then some (attPin b n) else none
  | none =>
    match (portalAt cav x y).orElse fun _ => siteAt cav x y with
    | some (p, k) =>
      let w := portalWidth t (p + 1)
      if portalEn t (p + 1) && (k < w / 64 || (k = w / 64 && j < 16)) then some (attPortal (p + 1)) else none
    | none => none

/-- The attachments beyond the gate that read an output of a chamber. -/
def outAtts (t : Tab Word) (o : Nat) : List Nat :=
  let cav := o / 80000
  let x := o / 1600 % 50
  let y := o / 32 % 50
  (List.range 64).filterMap fun j =>
    if chamberBits t cav x y (1552 + 6 * j) 6 = o % 32 + 1 then edgeOutAtt t cav x y j else none

/-- The acknowledges that an output's channel receives from beyond its cavern's gate: from neighbours and lines by its global node, and
from the pins and portals that read it. -/
def State.outCross (s : State) (o : Nat) : List Bool :=
  (match outNodeOf s.cfg o with
   | some k => if 3000000 ≤ k ∧ k < 4000000 then s.crossAcks ((k - 3000000) / 128) ((k - 3000000) % 128) else []
   | none => []) ++ (outAtts s.cfg o).map fun a => tabGet false s.fabric.attAck a

/-- The cavern that hosts an attachment's fabric side. -/
def attCav (a : Nat) : Nat :=
  if a < 10000 then a / 224
  else if a < 11000 then (if (a - 10000) / 60 < 6 then 1 + (a - 10000) / 60 else 27 + (a - 10000) / 60)
  else if a < 12000 then 40
  else portalCav (a - 12000)

/-- Tokens at a cavern's gates are not through: of other caverns' outputs, of its own outputs, or of its pins and portals
(01_architecture R21). -/
def State.gateBusy (s : State) (c : Nat) : Bool :=
  !(s.cav c).pass.isEmpty || !(s.cav c).owed.isEmpty || s.fabric.attIn.any fun e => 10000 ≤ e.1 && attCav e.1 = c && !e.2.withheld

/-- The interior of a cavern may move: it takes part in handshakes (04_routing R96) and is not under the retention hold of
STANDBY (03_cells R76) or of a self-test, which applies once the gates' tokens are through (18_self_test_faults R440). -/
def State.interiorLive (s : State) (c : Nat) : Bool :=
  let v := s.cav c
  !v.heldInside && !(v.bist && !(s.gateBusy c)) && !s.power.retention

/-- The token that an inward attachment holds. -/
def State.attIn (s : State) (a : Nat) : InAtt := tabGet {} s.fabric.attIn a

/-- What an inward edge bit presents (04_routing R85, R97). -/
def State.edgeRail (s : State) (cav x y j : Nat) : Rail :=
  match edgeIn s.cfg cav x y j with
  | none => .empty
  | some (a, b) =>
    let t := s.attIn a
    if t.ph = .offering ∧ t.withheld = false then Rail.ofBool (bitAt b t.val) else .empty

/-! ### Cell inputs -/

/-- What chamber input `k` presents (04_routing R87). -/
def State.chamberIn (s : State) (cav x y k : Nat) : Rail :=
  let sel := chamberBits s.cfg cav x y (4 * k) 4
  let gx := devX cav x
  let gy := devY cav y
  if sel = 0 then .empty
  else if sel ≤ 12 then
    -- arriving from a side: the heading is the opposite one
    let d := ((sel - 1) % 4 + 2) % 4
    let len := if sel ≤ 4 then 1 else if sel ≤ 8 then 4 else 12
    (s.trackEnd meshFuel gx gy d len (k % trackCount len)).2
  else if sel = 13 then s.lineTap (cav / 8) (k % 16) cav
  else if sel = 14 then s.edgeRail cav x y k
  else s.edgeRail cav x y (k + 32)

/-- What a source of the local crossbar presents (04_routing R88). -/
def State.crossbar (s : State) (cav x y sel : Nat) : Rail :=
  if sel < 0x20 then s.cellOut cav x y sel else s.chamberIn cav x y (sel - 0x20)

/-- What input I`n` of a cell presents (04_routing R88). -/
def State.cellIn (s : State) (cav x y k n : Nat) : Rail :=
  s.crossbar cav x y (cellBits s.cfg cav x y k (86 + 6 * n) 6)

/-- The cell below in the carry chain: chamber row and cell number (03_cells R62). -/
def cellBelow (y k : Nat) : Option (Nat × Nat) :=
  if k = 0 then (if y = 49 then none else some (y + 1, 15)) else some (y, k - 1)

/-- The cell above in the carry chain (03_cells R62). -/
def cellAbove (y k : Nat) : Option (Nat × Nat) :=
  if k = 15 then (if y = 0 then none else some (y - 1, 0)) else some (y, k + 1)

/-- What an outward edge bit presents (04_routing R89); a pin or a portal reads it through the cavern's gate (01_architecture R20). -/
def State.edgeOut (s : State) (cav x y j : Nat) : Rail :=
  let sel := chamberBits s.cfg cav x y (1552 + 6 * j) 6
  if 1 ≤ sel ∧ sel ≤ 0x20 then
    if (edgeOutAtt s.cfg cav x y j).isSome then s.presentedOut (outKey cav x y (sel - 1)) else s.cellOut cav x y (sel - 1)
  else .empty

/-- Bits of the channel that an outward attachment reads, lowest first, as chamber and edge bit. -/
def outBits (t : Tab Word) (a : Nat) : List (Nat × Nat × Nat × Nat) :=
  if a < 10000 then
    let cav := a / 224
    let i := a % 224 / 2
    let p := a % 2
    let x := 7 * (i / 16) + 3 + p
    let y := 3 * (i % 16) + 1
    let w := pocketDataWidth t cav i p
    (List.range (17 + w)).map fun b => if b < 64 then (cav, x, y, b) else (cav, x, y + 1, b - 64)
  else if a < 11000 then
    let b := (a - 10000) / 60
    let n := (a - 10000) % 60
    let c := if b < 6 then 1 + b else 27 + b
    let y := if b < 6 then 0 else 49
    [(c, 10 + n / 2, y, 32 * (n % 2)), (c, 10 + n / 2, y, 32 * (n % 2) + 1)]
  else
    let p := a - 12000
    let w := portalWidth t p
    let c := portalCav p
    (List.range (w + 16)).map fun b =>
      if b < w then (c, (portalChamber p (b / 64)).1, (portalChamber p (b / 64)).2, b % 64)
      else (c, (portalChamber p (w / 64)).1, (portalChamber p (w / 64)).2, b - w)

/-- The codes on the channel of an outward attachment. -/
def State.outRails (s : State) (a : Nat) : List Rail :=
  if 11000 ≤ a ∧ a < 12000 then
    -- every token on the line of a fabric-raised event raises it; the tap lies behind the gate of cavern 8r + 3 (19_events_counters
    -- R460, 01_architecture R20)
    let f := cfgBits s.cfg 46 2 0 (8 * (a - 11000)) 8
    let r := bitsOf 0 7 f / 16
    [s.lineTap r (bitsOf 0 7 f % 16) (8 * r + 3)]
  else (outBits s.cfg a).map fun (c, x, y, j) => s.edgeOut c x y j

/-- The number that valid codes carry, lowest first. -/
def railsNat (rs : List Rail) : Nat := rs.foldr (fun r n => r.bit + 2 * n) 0

/-- The token on the channel of an outward attachment, when every bit is valid and its acknowledge is low
(02_token_contract R34, R36). -/
def State.outToken (s : State) (a : Nat) : Option Nat :=
  let rs := s.outRails a
  if rs.all Rail.valid && !(tabGet false s.fabric.attAck a) then some (railsNat rs) else none

end Sys2Proof.Machine
end

