-- ==== Sys2Proof/Machine/Checks.lean ====
section
/-! DEFINITION. The loader's checks on frames of caverns, pins, portals, power, Patrol and fabric-raised events (03_cells R83, 04_routing R99 R100 R104, 06_pockets R133, 09_portals R208, 16_power R409, 17_pins R425, 19_events_counters R460). -/

namespace Sys2Proof.Machine

/-- Error codes of 15_configuration R376 that frame checks give. -/
def errBadAddress : Nat := 0x0A
/-- OUT_OF_REGION. -/
def errOutOfRegion : Nat := 0x0B
/-- BAD_FIELD. -/
def errBadField : Nat := 0x0C
/-- CONTENTION. -/
def errContention : Nat := 0x0D
/-- FANOUT. -/
def errFanout : Nat := 0x0E
/-- DOMAIN_OFF. -/
def errDomainOff : Nat := 0x0F

/-- A frame's words put among the configuration cells. -/
def putFrame (t : Tab Word) (cav col minor : Nat) (ws : List Word) : Tab Word :=
  (ws.zip (List.range 128)).foldl (fun t p => tabSet 0 t (cfgKey cav col minor p.2) p.1) t

/-- The address of a frame (15_configuration R359). -/
def frameAddr (cav col minor : Nat) : Nat := cav * 2 ^ 26 + col * 2 ^ 16 + minor * 2 ^ 8

/-- R83 for one cell, read from the configuration with the frame in place: true when the field is legal. -/
def cellLegal (t : Tab Word) (cav x y k : Nat) : Bool :=
  let c := cellCfg t cav x y k
  let f := fun lo len => cellBits t cav x y k lo len
  let split := c.mode = 2 || c.mode = 3
  let below := match cellBelow y k with
    | some (y', k') => (cellCfg t cav x y' k').mode = 3
    | none => false
  let awaits := c.use ≠ 0 || (c.mode = 3 && (c.cin = 0 || c.cin = 3))
  c.mode ≤ 4 && c.init0 ≠ 3 && c.init1 ≠ 3 && c.lat1Src ≠ 3 && f 122 6 = 0 && f 85 1 = 0 &&
  !(split && bitAt 5 c.use) &&
  !(c.mode = 4 && (k ≠ 15 || c.use ≠ 3)) &&
  !(c.mode = 1 && c.lat1 && c.lat1Src ≠ 1) &&
  !(c.mode = 4 && c.lat1Src = 2) &&
  !(c.mode = 0 && (f 0 64 ≠ 0 || f 64 6 ≠ 0 || f 73 12 ≠ 0 || f 86 36 ≠ 0)) &&
  !(c.lat1Src = 1 && (!c.lat0 || c.y0)) &&
  !(c.init0 ≠ 0 && !c.lat0) && !(c.init1 ≠ 0 && !c.lat1) &&
  !(c.y1 && c.mode = 1 && !c.lat1) &&
  !(c.mode = 3 && c.cin = 0 && !below) &&
  !((1 ≤ c.mode && c.mode ≤ 3) && !awaits)

/-- A chamber on an edge of the device, or a host chamber of a Pocket or a portal site (04_routing R85, 06_pockets R124,
09_portals R201). -/
def hasEdgePort (cav x y : Nat) : Bool :=
  (devX cav x = 0 || devX cav x = 399 || devY cav y = 0 || devY cav y = 249) ||
  (pocketAt x y).isSome || (siteAt cav x y).isSome

/-- The track that a start multiplexer's select reads exists (04_routing R104). -/
def turnExists (gx gy sel d len t : Nat) : Bool :=
  match turnOf sel d len t with
  | some (d', len', _) => (trackOrigin gx gy d' len').isSome
  | none => true

/-- An output is enabled. -/
def outEnabled (t : Tab Word) (cav x y o : Nat) : Bool :=
  let c := cellCfg t cav x y (o % 16)
  if o < 16 then c.y0 else c.y1

/-- R104 for the routing settings of one chamber. -/
def chamberLegal (t : Tab Word) (cav x y : Nat) : Bool :=
  let f := fun lo len => chamberBits t cav x y lo len
  let gx := devX cav x
  let gy := devY cav y
  let edge := hasEdgePort cav x y
  ((List.range 4).all fun d => (List.range 22).all fun j =>
    let len := if j < 16 then 1 else if j < 20 then 4 else 12
    let i := if j < 16 then j else if j < 20 then j - 16 else j - 20
    let v := f (128 + 6 * (22 * d + j)) 6
    v < 0x26 && (v = 0 || (trackTarget gx gy d len).isSome) && turnExists gx gy v d len i) &&
  ((List.range 32).all fun k =>
    let v := f (4 * k) 4
    if v = 14 then edge && (edgeIn t cav x y k).isSome
    else if v = 15 then edge && (edgeIn t cav x y (k + 32)).isSome
    else true) &&
  ((List.range 64).all fun j => let v := f (1552 + 6 * j) 6; v ≤ 0x20 && (v = 0 || edge)) &&
  ((List.range 16).all fun n =>
    ((List.range 16).all fun k =>
      f (656 + 40 * n + 16 + k) 1 = 0 || (cellCfg t cav x y k).bypass || (cellCfg t cav x y k).mode = 4) &&
    ((List.range 8).all fun j => f (656 + 40 * n + 32 + j) 1 = 0 || (edgeAck t cav x y j).isSome)) &&
  ((List.range 32).all fun o =>
    let v := f (1296 + 8 * o) 8
    v ≤ 0xD0 && (if outEnabled t cav x y o then v ≠ 0 else v = 0)) &&
  ((List.range 2).all fun i => f (1936 + 56 * i) 56 = 0)

/-- R104 for a frame of cluster nodes. -/
def clusterLegal (t : Tab Word) (cav col minor : Nat) : Bool :=
  (List.range 32).all fun s =>
    ((List.range 8).all fun i => cfgBits t cav col minor (128 * s + 9 * i) 9 ≤ 400) &&
    cfgBits t cav col minor (128 * s + 72) 56 = 0

/-- R104 for a frame of global nodes. -/
def globalLegal (t : Tab Word) (cav minor : Nat) : Bool :=
  (List.range 32).all fun s =>
    ((List.range 8).all fun i =>
      let v := cfgBits t cav 60 minor (128 * s + 13 * i) 13
      v ≤ 6928 &&
      (!(6401 ≤ v && v ≤ 6912) ||
        (let side := (v - 6401) / 128
         if side = 0 then 8 ≤ cav else if side = 1 then cav % 8 < 7 else if side = 2 then cav < 32 else 0 < cav % 8))) &&
    cfgBits t cav 60 minor (128 * s + 104) 24 = 0

/-- Every frame word from one upward is zero. -/
def wordsZero (t : Tab Word) (cav col minor : Nat) (lo : Nat) : Bool :=
  (List.range (128 - lo)).all fun i => cfgWord t cav col minor (lo + i) = 0

/-- R104 for the line settings. -/
def linesLegal (t : Tab Word) (cav : Nat) : Bool :=
  ((List.range 16).all fun k =>
    let x := lineBits t cav k 1 6
    let y := lineBits t cav k 7 6
    lineBits t cav k 26 6 = 0 && x ≤ 49 && y ≤ 49 &&
    (lineBits t cav k 0 1 = 0 || outEnabled t cav x y (lineBits t cav k 13 5))) &&
  wordsZero t cav 60 4 16

/-- R99: a line that the frame drives while another cavern of the row owns it. -/
def contends (old new : Tab Word) (cav : Nat) : Bool :=
  (List.range 16).any fun k =>
    lineBits new cav k 0 1 = 1 &&
    (match lineOwner old (cav / 8) k with | some c => c ≠ cav | none => false)

/-- Chamber inputs of a cavern that read a line, the tap of a fabric-raised event counted as one (04_routing R100,
19_events_counters R460). -/
def lineReaders (t : Tab Word) (cav k : Nat) : Nat :=
  let lo := cfgKey cav 0 0 0
  let hi := cfgKey cav 50 0 0
  let inputs := t.foldl (fun n e =>
    if lo ≤ e.1 ∧ e.1 < hi ∧ 0x19 ≤ e.1 / 128 % 256 ∧ e.1 / 128 % 256 < 0x32 ∧ e.1 % 64 < 4 then
      n + ((List.range 8).filter fun i => bitsOf (4 * i) 4 e.2.toNat = 13 ∧ (8 * (e.1 % 64) + i) % 16 = k).length
    else n) 0
  let taps := ((List.range 24).filter fun e =>
    cav % 8 = 3 ∧ cfgBits t 46 2 0 (8 * e) 8 = 128 + 16 * (cav / 8) + k).length
  inputs + taps

/-- R100: the readers of every line of a row stay within both limits. -/
def fanoutLegal (t : Tab Word) (row : Nat) : Bool :=
  (List.range 16).all fun k =>
    let ns := (List.range 8).map fun i => lineReaders t (8 * row + i) k
    ns.all (· ≤ 16) && ns.sum ≤ 64

/-- The width codes that a protection allows (06_pockets R120). -/
def protWidth (prot w : Nat) : Bool :=
  match prot with
  | 1 => w = 0 || 4 ≤ w
  | 2 => w = 0 || w = 7
  | _ => true

/-- R133 for a Pocket's settings frame. -/
def pocketLegal (t : Tab Word) (cav i : Nat) : Bool :=
  let f := fun lo len => pocketBits t cav i lo len
  let a := f 0 3
  let b := f 3 3
  let prot := f 7 2
  f 30 34 = 0 && wordsZero t cav (64 + i) 0x12 2 && f 7 2 ≠ 3 && f 9 2 ≠ 3 && f 11 2 ≠ 3 &&
  protWidth prot a && protWidth prot b &&
  !(f 6 1 = 1 && (b ≠ 0 || f 11 2 ≠ 0 || f 22 7 ≠ 0)) &&
  !(f 13 1 = 1 && f 9 2 ≠ 0) && !(f 14 1 = 1 && f 11 2 ≠ 0) &&
  !(a = 0 && b = 0 && f 6 1 = 0 && f 0 30 ≠ 0) &&
  !(f 29 1 = 1 && f 7 2 ≠ 2)

/-- R208 for one portal field, as far as its own frame decides. -/
def portalLegal (t : Tab Word) (cav : Nat) (laneEntry : Bool) (e : Nat) : Bool :=
  let w := cfgWord t 41 cav (if laneEntry then 1 else 0) e
  let site := e / 2
  let out := e % 2 = 1
  let width := bitsOf 3 2 w
  let depth := 8 * 2 ^ bitsOf 5 2 w
  let isLane := laneEntry
  let exists? :=
    if isLane then (match laneHost cav with | some (_, n) => site < n | none => false) && (width = 0 || width = 1)
    else
      if 16 ≤ cav && cav < 32 then
        site < 48 || (site = 48 && cav < 24 && width = 0) || (site = 49 && cav = 20 && width = 0)
      else false
  let binds := !isLane && 32 ≤ site && site < 48
  if bitAt 0 w then
    width ≠ 3 && bitsOf 1 2 w = 0 && exists? &&
    !(out && bitsOf 14 7 w ≠ 0) &&
    !(bitsOf 7 7 w ≠ 0 && (!(isLane && out) || depth < bitsOf 7 7 w)) &&
    !(bitsOf 21 11 w ≠ 0 && !binds) &&
    !(!isLane && 40 ≤ site && bitsOf 21 11 w > 63)
  else w = 0

/-- R208 for a frame of portal settings: site fields (minor 0), lane fields (minor 1). -/
def portalFrameLegal (t : Tab Word) (col minor : Nat) : Bool :=
  if minor = 0 then ((List.range 108).all fun e => portalLegal t col false e) && wordsZero t 41 col 0 108
  else ((List.range 24).all fun e => portalLegal t col true e) && wordsZero t 41 col 1 24

/-- An entry of the Sump's port 2 table (09_portals R204). -/
def port2Entry (t : Tab Word) (e : Nat) : Nat := cfgBits t 41 40 (e / 256) (16 * (e % 256)) 16

/-- R208 for a frame of the port 2 table: reserved bits, and `DIR` of a lane's entry. An entry with `V` = 0 is an idle turn whatever
its other fields say (R204). -/
def port2Legal (t : Tab Word) (minor : Nat) : Bool :=
  (List.range 256).all fun i =>
    let v := port2Entry t (256 * minor + i)
    bitsOf 7 6 v = 0 && (!(bitAt 15 v) || !(bitAt 13 v) || (!(bitAt 14 v) && bitsOf 0 7 v < 96))

/-- A pin's settings field (17_pins R414). -/
def pinCfg (t : Tab Word) (b n : Nat) : Nat := cfgWord t 45 b 0 n
/-- The owner code in the image (17_pins R414). -/
def pinOwnerCode (t : Tab Word) (b n : Nat) : Nat := bitsOf 30 2 (pinCfg t b n)
/-- The bank field (17_pins R415). -/
def bankCfg (t : Tab Word) (b : Nat) : Nat := cfgWord t 45 b 1 0

/-- R425 for one pin of a bank. -/
def pinLegal (t : Tab Word) (b n : Nat) : Bool :=
  let w := pinCfg t b n
  let owner := bitsOf 30 2 w
  let imode := bitsOf 25 3 w
  let ackout := bitAt 24 w
  let spin := bitsOf 18 6 w
  let node := bitsOf 3 7 w
  let pinsOfReq := (List.range 60).filter fun m => bitAt 24 (pinCfg t b m) ∧ bitsOf 18 6 (pinCfg t b m) = spin
  bitsOf 0 3 w = 0 && imode ≤ 4 && spin < 60 &&
  !(owner = 0 && w ≠ place 10 2 (bitsOf 10 2 w)) &&
  !(owner = 2 && (imode ≠ 0 || ackout || bitAt 28 w || node ≠ 0)) &&
  !(owner = 3 && (bitAt 29 w || bitAt 28 w)) &&
  (imode ≠ 0) = (node ≠ 0) &&
  !((2 ≤ imode || ackout) && (spin = n || pinOwnerCode t b spin ≠ owner)) &&
  !(ackout && (bitAt 17 w || imode ≠ 0)) &&
  !(ackout && 1 < pinsOfReq.length) &&
  !(imode = 4 && pinsOfReq.isEmpty)

/-- R425 for a frame of a bank: pins in minor 0, the bank field in minor 1. -/
def bankLegal (t : Tab Word) (b : Nat) (minor : Nat) : Bool :=
  let vio := bitsOf 29 3 (bankCfg t b)
  (if minor = 0 then ((List.range 60).all fun n => pinLegal t b n) && wordsZero t 45 b 0 60
   else vio < 6 && bitsOf 0 28 (bankCfg t b) = 0 && wordsZero t 45 b 1 1) &&
  (minor = 0 || vio ≠ 0 || ((List.range 60).all fun n => pinOwnerCode t b n = 0))

/-- Power settings (16_power R408). -/
def pwrs (t : Tab Word) (lo len : Nat) : Nat := cfgBits t 46 0 0 lo len

/-- R409 for the power settings. -/
def powerLegal (t : Tab Word) : Bool :=
  let en := pwrs t 32 1 = 1
  let addrs := [pwrs t 40 7, pwrs t 48 7, pwrs t 56 7, pwrs t 64 7, pwrs t 72 7]
  let lo := pwrs t 0 10
  let hi := pwrs t 16 10
  pwrs t 88 8 = 0 && pwrs t 36 4 = 0 && pwrs t 47 1 = 0 && pwrs t 55 1 = 0 && pwrs t 63 1 = 0 && pwrs t 71 1 = 0 &&
  pwrs t 26 6 = 0 && pwrs t 10 6 = 0 && wordsZero t 46 0 0 3 && pwrs t 34 2 ≠ 3 &&
  (if en then pwrs t 84 4 ≠ 0 && pwrs t 79 5 ≠ 0 && bitAt 4 (pwrs t 79 5) && addrs.all (· ≠ 0) && decide addrs.Nodup
   else pwrs t 33 1 = 0 && pwrs t 84 4 = 0 && pwrs t 79 5 = 0 && addrs.all (· = 0)) &&
  650 ≤ lo && lo ≤ 950 && 650 ≤ hi && hi ≤ 950 && lo ≤ hi

/-- The count limit M that `MAXCNT` gives (16_power R397). -/
def maxCount (code : Nat) : Nat := 2 ^ (8 + code) - 1

/-- `PATROL_CFG_s` is legal (16_power R409). -/
def sensorLegal (w : Nat) : Bool :=
  bitsOf 20 5 w = 0 && bitsOf 0 8 w = 0 &&
  (if bitAt 31 w then bitsOf 8 8 w ≠ 0 && bitsOf 16 4 w < bitsOf 8 8 w else w = 0)

/-- The enabled sensors fit the period (16_power R393): n · (M + 80) / 4 MHz at most 32 · PERIOD / 32,768 Hz. -/
def patrolFits (ctrl : Nat) (sensors : List Nat) : Bool :=
  let n := (sensors.filter (bitAt 31)).length
  n * (maxCount (bitsOf 24 3 ctrl) + 80) * 32768 ≤ 32 * bitsOf 0 11 ctrl * 4000000

/-- `PATROL_CTRL` is legal (16_power R397, R409): a zero word leaves Patrol off. -/
def patrolCtrlLegal (w : Nat) : Bool :=
  bitsOf 27 4 w = 0 && bitsOf 11 5 w = 0 && bitsOf 24 3 w ≤ 4 && (w = 0 || 10 ≤ bitsOf 0 11 w)

/-- R409 for Patrol's settings. -/
def patrolLegal (t : Tab Word) : Bool :=
  let e := fun i => cfgWord t 46 1 0 i
  let sensors := (List.range 24).map e
  sensors.all sensorLegal && patrolCtrlLegal (e 24) && (e 24 = 0 || patrolFits (e 24) sensors) &&
  bitsOf 24 8 (e 25) = 0 && ((List.range 12).all fun b => bitsOf (2 * b) 2 (e 25) ≠ 3) && wordsZero t 46 1 0 26

/-- R460 for the fabric-raised events. -/
def fevLegal (t : Tab Word) : Bool :=
  let f := fun k => cfgBits t 46 2 0 (8 * k) 8
  ((List.range 24).all fun k => if bitAt 7 (f k) then f k - 128 < 80 else f k = 0) &&
  decide ((((List.range 24).map f).filter (bitAt 7)).Nodup) && wordsZero t 46 2 0 6

/-- The carry cells of a cavern whose cell below is not in CARRY mode: the frame address of the first (03_cells R83, at
the end of every load). -/
def carryBroken (t : Tab Word) (cav : Nat) : Option Nat :=
  let lo := cfgKey cav 0 0 0
  let hi := cfgKey cav 50 0 0
  (t.find? fun e =>
    let p := e.1 % 128 / 4
    let x := e.1 / 32768 % 1024
    let m := e.1 / 128 % 256
    let y := 2 * m + p / 16
    lo ≤ e.1 && e.1 < hi && m < 25 && e.1 % 4 = 2 && bitsOf 6 3 e.2.toNat = 3 && bitsOf 17 2 e.2.toNat = 0 &&
    (match cellBelow y (p % 16) with
     | some (y', k') => (cellCfg t cav x y' k').mode ≠ 3
     | none => true)).map fun e => frameAddr cav (e.1 / 32768 % 1024) (e.1 / 128 % 256)

/-- A legal answer as an error code. -/
def orBadField (b : Bool) : Option Nat := if b then none else some errBadField

/-- The check of a frame of a cavern (codes 0 to 39): `old` is in force, `new` has the frame in place. Of a frame that breaks two rules the
spec does not say which code is reported: a bad field (R104) comes before an exceeded fan-out (R100) and before a contended line (R99)
(DESIGN CHOICE, log 94). -/
def checkCavern (old new : Tab Word) (cav col minor : Nat) : Option Nat :=
  if col < 50 then
    if minor ≤ 0x18 then
      orBadField ((List.range 32).all fun p => cellLegal new cav col (2 * minor + p / 16) (p % 16))
    else if minor ≤ 0x31 then
      let y := 2 * (minor - 0x19)
      if chamberLegal new cav col y && chamberLegal new cav col (y + 1) then
        (if fanoutLegal new (cav / 8) then none else some errFanout)
      else some errBadField
    else some errBadAddress
  else if col < 60 then (if minor ≤ 0x13 then orBadField (clusterLegal new cav col minor) else some errBadAddress)
  else if col = 60 then
    if minor ≤ 3 then orBadField (globalLegal new cav minor)
    else if minor = 4 then
      (if linesLegal new cav then (if contends old new cav then some errContention else none) else some errBadField)
    else some errBadAddress
  else if 64 ≤ col ∧ col < 176 then
    if minor < 0x12 then none
    else if minor = 0x12 then orBadField (pocketLegal new cav (col - 64))
    else some errBadAddress
  else some errBadAddress

/-- The check of a frame of codes 41, 45 and 46. -/
def checkPortals (new : Tab Word) (col minor : Nat) : Option Nat :=
  if col < 40 ∧ minor ≤ 1 then orBadField (portalFrameLegal new col minor)
  else if col = 40 ∧ minor ≤ 1 then orBadField (port2Legal new minor)
  else some errBadAddress

/-- Code 45 (17_pins R425). -/
def checkPins (new : Tab Word) (col minor : Nat) : Option Nat :=
  if col < 12 ∧ minor ≤ 1 then orBadField (bankLegal new col minor) else some errBadAddress

/-- Code 46 (16_power R409, 19_events_counters R460). -/
def checkPower (new : Tab Word) (col minor : Nat) : Option Nat :=
  if minor ≠ 0 then some errBadAddress
  else if col = 0 then orBadField (powerLegal new)
  else if col = 1 then orBadField (patrolLegal new)
  else if col = 2 then
    (if fevLegal new then
      (if (List.range 5).all (fanoutLegal new) then none else some errFanout)
     else some errBadField)
  else some errBadAddress

end Sys2Proof.Machine
end

