-- ==== Sys2Proof/Config.lean ====
section
/-! DEFINITION. What an implementation or a unit of the IL9640 fixes, and the free values: constants without a body, so that no proof can see what they are. -/

namespace Sys2Proof.Config

/-- The temperature grades (00_scope R1). -/
inductive Grade where
  | c | i | e
deriving DecidableEq, Repr, Inhabited

/-- The code of `DEVCFG.GRADE` (20_register_map R473). -/
def Grade.code : Grade → Nat
  | .c => 0 | .i => 1 | .e => 2

/-- `PWR_TEMP.TSHUT` by grade in degrees (16_power R404). -/
def Grade.shut : Grade → Nat
  | .c => 95 | .i => 110 | .e => 125

/-- The reset value of `PWR_TEMP.TWARN`: the grade's maximum (00_scope R1) less 5 degrees (16_power R410). -/
def Grade.warn : Grade → Nat
  | .c => 80 | .i => 95 | .e => 110

/-- The speed bins (00_scope R1). -/
inductive Bin where
  | one | two
deriving DecidableEq, Repr, Inhabited

/-- The code of `DEVCFG.BIN` (20_register_map R473). -/
def Bin.code : Bin → Nat
  | .one => 1 | .two => 2

/-- The unit's silicon revision letter (20_register_map R473). -/
opaque revision : BitVec 4
/-- The unit's revision digit (R473). -/
opaque revisionMinor : BitVec 4
/-- The register and parameter map version (R473). -/
opaque mapVersion : BitVec 8
/-- The unit's temperature grade (R473). -/
opaque grade : Grade
/-- The unit's speed bin (R473). -/
opaque speedBin : Bin
/-- Bits [31:0] of the unit identifier (R473). -/
opaque unitIdLow : Word
/-- Bits [63:32] of the unit identifier (R473). -/
opaque unitIdHigh : Word
/-- Firmware version, ROM version and signing key index (14_foreman R336 FW_INFO). -/
opaque firmwareVersion : Word
/-- ROM version (14_foreman R336). -/
opaque romVersion : Word
/-- Signing key index (14_foreman R336). -/
opaque signingKeyIndex : Word
/-- Expected signature of the LOGIC test, a constant of the silicon revision (18_self_test_faults R437). -/
opaque logicSignature : BitVec 64
/-- Expected signature of the HARD test (18_self_test_faults R437). -/
opaque hardSignature : BitVec 64

/-- A bit that timing or the implementation decides (a contended choice, an order of unordered accesses). -/
opaque freeBit : Nat → Bool
/-- A word that the spec leaves open. -/
opaque freeWord : Nat → BitVec 32
/-- A number that the spec leaves open. -/
opaque freeNat : Nat → Nat
/-- A beat that the spec leaves open. -/
opaque freeBeat : Nat → BitVec 1024
/-- Whether an edge of the always-on clock falls in the haul-road clock of this count (16_power R388 gives no phase). -/
opaque aonEdge : Nat → Bool
/-- `PI.WIDTH` of a parameter whose width the spec does not state (20_register_map R478). -/
opaque paramWidth : Nat → BitVec 7
/-- `PI.EFFECT` of a parameter for which the spec states none (R478). -/
opaque paramEffect : Nat → BitVec 2
/-- `PI.MIN` of a parameter whose range the spec does not state (R478). -/
opaque paramMin : Nat → BitVec 64
/-- `PI.MAX` of a parameter whose range the spec does not state (R478). -/
opaque paramMax : Nat → BitVec 64
/-- The symbols of the SSPRQ pattern of IEEE 802.3-2022 Clause 120 (11_lane_electrical R266; the spec gives its length alone). -/
opaque ssprq : Nat → Nat
end Sys2Proof.Config
end

