-- ==== Sys2Proof/Machine/RegMap.lean ====
section
/-! DEFINITION. The direct register map (20_register_map R471 to R475 and the register tables of every chapter): each register kind with its address, its instances and its fields. -/

namespace Sys2Proof.Machine

/-- The access codes of 00_scope R5. -/
inductive Access where
  | ro | rw | w1c | rc | wo
deriving DecidableEq, Repr

/-- A field of a register: bits `[lo + len - 1 : lo]`, its access code and its reset value. -/
structure Field where
  lo : Nat
  len : Nat
  acc : Access
  reset : Nat
deriving DecidableEq, Repr

/-- A read-only field. -/
def fRo (lo len : Nat) (reset : Nat := 0) : Field := { lo := lo, len := len, acc := .ro, reset := reset }
/-- A read-write field. -/
def fRw (lo len : Nat) (reset : Nat := 0) : Field := { lo := lo, len := len, acc := .rw, reset := reset }
/-- A field whose bits a write of 1 clears. -/
def fW1c (lo len : Nat) : Field := { lo := lo, len := len, acc := .w1c, reset := 0 }
/-- A field that a read clears. -/
def fRc (lo len : Nat) : Field := { lo := lo, len := len, acc := .rc, reset := 0 }
/-- A write-only field. -/
def fWo (lo len : Nat) : Field := { lo := lo, len := len, acc := .wo, reset := 0 }

/-- The register kinds, one per register table of the spec, instances of one table together. -/
inductive RegKind where
  | idcode | devrev | devcfg | uidLo | uidHi | gstat | gstatAddr | pwrMode | isoStatus0 | isoStatus1 | isoEvt0
  | isoEvt1 | isoEvtEn0 | isoEvtEn1 | pocketEvt | pocketEvtEn | pocketCntCorr | pocketCntUncorr | isoCause
  | xcOvr | xcLost | xcFail | portalDisc | mbxPost | mbxPostres | mbxBusy | mbxDone | mbxEvt | mbxEvtEn
  | loadPct | fmStatus | fmRestarts | mbxFullCnt | hmbRsp | hmbCmd | evtPend | evtEn | evtFm | evtSum | evtCtrl
  | evtMerged | evtOvf | tsLo | tsHi | pwrCtrl | pwrSys | pwrVccf | pwrVccfQ | pwrDom0 | pwrDom1 | pwrDomLb
  | pwrDomIo | pwrEvt | pwrEvtEn | pwrFault | pwrTemp | pwrPadrel | pwrPmbErr | pwrRail | speedGaugeCtrl
  | speedGauge | aonWakeEn | aonWakeHpd | aonWake | aonPadpol | aonTicks | aonAlarm | aonScratch | pinBank
  | pinEvt | pinEvtEn | pinLost | pinHosterr | pinOvrL | pinOvrH | cfgStatus | cfgErraddr | cfgCtrl | cfgStream
  | cfgOtp | cfgDesign | cfgLoadcount | cfgStore | cfgStoreSeq | cfgPart | cfgPartReg0 | cfgPartReg1 | cfgEvt
  | cfgEvtEn | cfgTime | cfgFrames | glOwner | stCtrl | stStatus | stSigLo | stSigHi | stCount | stLast | stEvt
  | stEvtEn | stResHard | stResCav | stResLb | lnPmaCtrl | lnPmaStatus | lnPmaEvt | lnPmaEvtEn | lnEq
  | lnLevels | lnPatCtrl | lnPatStatus | lnPatUserLo | lnPatUserHi | lnPrbsBitsLo | lnPrbsBitsHi | lnPrbsErrLo
  | lnPrbsErrHi | lnPrbsSymerr | lnPrbsRelock | lnMargin | lnMarginSamp | lnMarginErr | lnLinkStatus
  | lnLinkCtrl | lnLinkEvt | lnLinkEvtEn | lnBlkErr | lnFecCorr | lnFecUncorr | lnRxDrop | lnTxUnderrun
  | lnRetrains | lnAditCrc | lnAditReplay | lnAditProto | lnLinkOvf | lnAditSeq | lnAditRx | lnAditCred
  | lbStatus | lbEvt | lbEvtEn | lbHpd | sumpStatus | sumpEvt | sumpEvtEn | sumpCntFull | sumpCntNodesc
  | sumpCntRewind | sumpCntTrunc | sumpCntFlushed | sumpCntStale | sumpCntCorr | sumpCntUncorr | sumpCntSeqerr
  | sumpCntEmpty | sumpOvf | sumpLowmark | sumpQsel | sumpQstat | sumpQstat2 | sumpQcmd | sumpStale | hchCtrl
  | hchDesc | hchStatus | hchCur | hchLeft | hchErraddr | hchTag | hchEvt | hchEvtEn | hchRetry | haulStatus
  | crStatus | crEvt | crEvtEn | crIdle | crHold0 | crHold1 | crHold2 | crHold3 | adEvt | adEvtEn | patrolCtrl
  | patrolTouch | patrolRel | patrolFault | patrolStuck | patrolEvtEn | patrolPeriods | patrolCfg | patrolCount
  | scrubCtrl | scrubRate | scrubPosPocket | scrubPosSump | scrubPosFm | scrubPosCr | scrubCntCorr
  | scrubCntUncorr | scrubCntVote | scrubEvt | scrubEvtEn | flogStatus | flogLostCnt
deriving DecidableEq, Repr

/-- The place of a register kind: address of instance 0, instances, distance between instances. -/
structure RegPlace where
  base : Nat
  count : Nat
  stride : Nat
deriving DecidableEq, Repr

/-- Where each register lies. -/
def RegKind.loc : RegKind → RegPlace
  | .idcode => ⟨0x0, 1, 0x4⟩
  | .devrev => ⟨0x4, 1, 0x4⟩
  | .devcfg => ⟨0x8, 1, 0x4⟩
  | .uidLo => ⟨0xC, 1, 0x4⟩
  | .uidHi => ⟨0x10, 1, 0x4⟩
  | .gstat => ⟨0x14, 1, 0x4⟩
  | .gstatAddr => ⟨0x18, 1, 0x4⟩
  | .pwrMode => ⟨0x20, 1, 0x4⟩
  | .isoStatus0 => ⟨0x40, 1, 0x4⟩
  | .isoStatus1 => ⟨0x44, 1, 0x4⟩
  | .isoEvt0 => ⟨0x48, 1, 0x4⟩
  | .isoEvt1 => ⟨0x4C, 1, 0x4⟩
  | .isoEvtEn0 => ⟨0x50, 1, 0x4⟩
  | .isoEvtEn1 => ⟨0x54, 1, 0x4⟩
  | .pocketEvt => ⟨0x58, 1, 0x4⟩
  | .pocketEvtEn => ⟨0x5C, 1, 0x4⟩
  | .pocketCntCorr => ⟨0x60, 1, 0x4⟩
  | .pocketCntUncorr => ⟨0x64, 1, 0x4⟩
  | .isoCause => ⟨0x100, 40, 0x4⟩
  | .xcOvr => ⟨0x200, 1, 0x4⟩
  | .xcLost => ⟨0x204, 1, 0x4⟩
  | .xcFail => ⟨0x208, 1, 0x4⟩
  | .portalDisc => ⟨0x20C, 1, 0x4⟩
  | .mbxPost => ⟨0x10000, 16, 0x4⟩
  | .mbxPostres => ⟨0x10040, 1, 0x4⟩
  | .mbxBusy => ⟨0x10044, 1, 0x4⟩
  | .mbxDone => ⟨0x10048, 1, 0x4⟩
  | .mbxEvt => ⟨0x1004C, 1, 0x4⟩
  | .mbxEvtEn => ⟨0x10050, 1, 0x4⟩
  | .loadPct => ⟨0x10054, 1, 0x4⟩
  | .fmStatus => ⟨0x10058, 1, 0x4⟩
  | .fmRestarts => ⟨0x1005C, 1, 0x4⟩
  | .mbxFullCnt => ⟨0x10060, 1, 0x4⟩
  | .hmbRsp => ⟨0x10400, 256, 0x4⟩
  | .hmbCmd => ⟨0x10800, 256, 0x4⟩
  | .evtPend => ⟨0x20000, 12, 0x4⟩
  | .evtEn => ⟨0x20040, 12, 0x4⟩
  | .evtFm => ⟨0x20080, 12, 0x4⟩
  | .evtSum => ⟨0x200C0, 1, 0x4⟩
  | .evtCtrl => ⟨0x200C4, 1, 0x4⟩
  | .evtMerged => ⟨0x200C8, 1, 0x4⟩
  | .evtOvf => ⟨0x200CC, 1, 0x4⟩
  | .tsLo => ⟨0x20100, 1, 0x4⟩
  | .tsHi => ⟨0x20104, 1, 0x4⟩
  | .pwrCtrl => ⟨0x30000, 1, 0x4⟩
  | .pwrSys => ⟨0x30004, 1, 0x4⟩
  | .pwrVccf => ⟨0x30008, 1, 0x4⟩
  | .pwrVccfQ => ⟨0x3000C, 1, 0x4⟩
  | .pwrDom0 => ⟨0x30010, 1, 0x4⟩
  | .pwrDom1 => ⟨0x30014, 1, 0x4⟩
  | .pwrDomLb => ⟨0x30018, 1, 0x4⟩
  | .pwrDomIo => ⟨0x3001C, 1, 0x4⟩
  | .pwrEvt => ⟨0x30020, 1, 0x4⟩
  | .pwrEvtEn => ⟨0x30024, 1, 0x4⟩
  | .pwrFault => ⟨0x30028, 1, 0x4⟩
  | .pwrTemp => ⟨0x3002C, 1, 0x4⟩
  | .pwrPadrel => ⟨0x30030, 1, 0x4⟩
  | .pwrPmbErr => ⟨0x30034, 1, 0x4⟩
  | .pwrRail => ⟨0x30040, 5, 0x4⟩
  | .speedGaugeCtrl => ⟨0x30100, 1, 0x4⟩
  | .speedGauge => ⟨0x30200, 40, 0x4⟩
  | .aonWakeEn => ⟨0x30800, 1, 0x4⟩
  | .aonWakeHpd => ⟨0x30804, 1, 0x4⟩
  | .aonWake => ⟨0x30808, 1, 0x4⟩
  | .aonPadpol => ⟨0x3080C, 1, 0x4⟩
  | .aonTicks => ⟨0x30810, 1, 0x4⟩
  | .aonAlarm => ⟨0x30814, 1, 0x4⟩
  | .aonScratch => ⟨0x30820, 4, 0x4⟩
  | .pinBank => ⟨0x40000, 12, 0x4⟩
  | .pinEvt => ⟨0x40040, 1, 0x4⟩
  | .pinEvtEn => ⟨0x40044, 1, 0x4⟩
  | .pinLost => ⟨0x40048, 1, 0x4⟩
  | .pinHosterr => ⟨0x4004C, 1, 0x4⟩
  | .pinOvrL => ⟨0x40080, 12, 0x8⟩
  | .pinOvrH => ⟨0x40084, 12, 0x8⟩
  | .cfgStatus => ⟨0x50000, 1, 0x4⟩
  | .cfgErraddr => ⟨0x50004, 1, 0x4⟩
  | .cfgCtrl => ⟨0x50008, 1, 0x4⟩
  | .cfgStream => ⟨0x5000C, 1, 0x4⟩
  | .cfgOtp => ⟨0x50010, 1, 0x4⟩
  | .cfgDesign => ⟨0x50014, 1, 0x4⟩
  | .cfgLoadcount => ⟨0x50018, 1, 0x4⟩
  | .cfgStore => ⟨0x5001C, 1, 0x4⟩
  | .cfgStoreSeq => ⟨0x50020, 1, 0x4⟩
  | .cfgPart => ⟨0x50024, 1, 0x4⟩
  | .cfgPartReg0 => ⟨0x50028, 1, 0x4⟩
  | .cfgPartReg1 => ⟨0x5002C, 1, 0x4⟩
  | .cfgEvt => ⟨0x50030, 1, 0x4⟩
  | .cfgEvtEn => ⟨0x50034, 1, 0x4⟩
  | .cfgTime => ⟨0x50038, 1, 0x4⟩
  | .cfgFrames => ⟨0x5003C, 1, 0x4⟩
  | .glOwner => ⟨0x50200, 20, 0x4⟩
  | .stCtrl => ⟨0x60000, 1, 0x4⟩
  | .stStatus => ⟨0x60004, 1, 0x4⟩
  | .stSigLo => ⟨0x60008, 1, 0x4⟩
  | .stSigHi => ⟨0x6000C, 1, 0x4⟩
  | .stCount => ⟨0x60010, 1, 0x4⟩
  | .stLast => ⟨0x60014, 1, 0x4⟩
  | .stEvt => ⟨0x60018, 1, 0x4⟩
  | .stEvtEn => ⟨0x6001C, 1, 0x4⟩
  | .stResHard => ⟨0x60020, 1, 0x4⟩
  | .stResCav => ⟨0x60100, 40, 0x4⟩
  | .stResLb => ⟨0x60200, 24, 0x4⟩
  | .lnPmaCtrl => ⟨0x80000, 96, 0x400⟩
  | .lnPmaStatus => ⟨0x80004, 96, 0x400⟩
  | .lnPmaEvt => ⟨0x80008, 96, 0x400⟩
  | .lnPmaEvtEn => ⟨0x8000C, 96, 0x400⟩
  | .lnEq => ⟨0x80010, 96, 0x400⟩
  | .lnLevels => ⟨0x80014, 96, 0x400⟩
  | .lnPatCtrl => ⟨0x80020, 96, 0x400⟩
  | .lnPatStatus => ⟨0x80024, 96, 0x400⟩
  | .lnPatUserLo => ⟨0x80028, 96, 0x400⟩
  | .lnPatUserHi => ⟨0x8002C, 96, 0x400⟩
  | .lnPrbsBitsLo => ⟨0x80030, 96, 0x400⟩
  | .lnPrbsBitsHi => ⟨0x80034, 96, 0x400⟩
  | .lnPrbsErrLo => ⟨0x80038, 96, 0x400⟩
  | .lnPrbsErrHi => ⟨0x8003C, 96, 0x400⟩
  | .lnPrbsSymerr => ⟨0x80040, 96, 0x400⟩
  | .lnPrbsRelock => ⟨0x80044, 96, 0x400⟩
  | .lnMargin => ⟨0x80050, 96, 0x400⟩
  | .lnMarginSamp => ⟨0x80054, 96, 0x400⟩
  | .lnMarginErr => ⟨0x80058, 96, 0x400⟩
  | .lnLinkStatus => ⟨0x80100, 96, 0x400⟩
  | .lnLinkCtrl => ⟨0x80104, 96, 0x400⟩
  | .lnLinkEvt => ⟨0x80108, 96, 0x400⟩
  | .lnLinkEvtEn => ⟨0x8010C, 96, 0x400⟩
  | .lnBlkErr => ⟨0x80110, 96, 0x400⟩
  | .lnFecCorr => ⟨0x80114, 96, 0x400⟩
  | .lnFecUncorr => ⟨0x80118, 96, 0x400⟩
  | .lnRxDrop => ⟨0x8011C, 96, 0x400⟩
  | .lnTxUnderrun => ⟨0x80120, 96, 0x400⟩
  | .lnRetrains => ⟨0x80124, 96, 0x400⟩
  | .lnAditCrc => ⟨0x80128, 96, 0x400⟩
  | .lnAditReplay => ⟨0x8012C, 96, 0x400⟩
  | .lnAditProto => ⟨0x80130, 96, 0x400⟩
  | .lnLinkOvf => ⟨0x80134, 96, 0x400⟩
  | .lnAditSeq => ⟨0x80140, 96, 0x400⟩
  | .lnAditRx => ⟨0x80144, 96, 0x400⟩
  | .lnAditCred => ⟨0x80148, 96, 0x400⟩
  | .lbStatus => ⟨0x98000, 24, 0x10⟩
  | .lbEvt => ⟨0x98004, 24, 0x10⟩
  | .lbEvtEn => ⟨0x98008, 24, 0x10⟩
  | .lbHpd => ⟨0x9800C, 24, 0x10⟩
  | .sumpStatus => ⟨0xA0000, 1, 0x4⟩
  | .sumpEvt => ⟨0xA0008, 1, 0x4⟩
  | .sumpEvtEn => ⟨0xA000C, 1, 0x4⟩
  | .sumpCntFull => ⟨0xA0010, 1, 0x4⟩
  | .sumpCntNodesc => ⟨0xA0014, 1, 0x4⟩
  | .sumpCntRewind => ⟨0xA0018, 1, 0x4⟩
  | .sumpCntTrunc => ⟨0xA001C, 1, 0x4⟩
  | .sumpCntFlushed => ⟨0xA0020, 1, 0x4⟩
  | .sumpCntStale => ⟨0xA0024, 1, 0x4⟩
  | .sumpCntCorr => ⟨0xA0028, 1, 0x4⟩
  | .sumpCntUncorr => ⟨0xA002C, 1, 0x4⟩
  | .sumpCntSeqerr => ⟨0xA0030, 1, 0x4⟩
  | .sumpCntEmpty => ⟨0xA0034, 1, 0x4⟩
  | .sumpOvf => ⟨0xA0040, 1, 0x4⟩
  | .sumpLowmark => ⟨0xA0044, 1, 0x4⟩
  | .sumpQsel => ⟨0xA0080, 1, 0x4⟩
  | .sumpQstat => ⟨0xA0084, 1, 0x4⟩
  | .sumpQstat2 => ⟨0xA0088, 1, 0x4⟩
  | .sumpQcmd => ⟨0xA008C, 1, 0x4⟩
  | .sumpStale => ⟨0xA0100, 64, 0x4⟩
  | .hchCtrl => ⟨0xB0000, 64, 0x40⟩
  | .hchDesc => ⟨0xB0004, 64, 0x40⟩
  | .hchStatus => ⟨0xB0008, 64, 0x40⟩
  | .hchCur => ⟨0xB000C, 64, 0x40⟩
  | .hchLeft => ⟨0xB0010, 64, 0x40⟩
  | .hchErraddr => ⟨0xB0014, 64, 0x40⟩
  | .hchTag => ⟨0xB0018, 64, 0x40⟩
  | .hchEvt => ⟨0xB001C, 64, 0x40⟩
  | .hchEvtEn => ⟨0xB0020, 64, 0x40⟩
  | .hchRetry => ⟨0xB0024, 64, 0x40⟩
  | .haulStatus => ⟨0xB1000, 1, 0x4⟩
  | .crStatus => ⟨0xC0000, 16, 0x100⟩
  | .crEvt => ⟨0xC0004, 16, 0x100⟩
  | .crEvtEn => ⟨0xC0008, 16, 0x100⟩
  | .crIdle => ⟨0xC000C, 16, 0x100⟩
  | .crHold0 => ⟨0xC0010, 16, 0x100⟩
  | .crHold1 => ⟨0xC0014, 16, 0x100⟩
  | .crHold2 => ⟨0xC0018, 16, 0x100⟩
  | .crHold3 => ⟨0xC001C, 16, 0x100⟩
  | .adEvt => ⟨0xD0000, 24, 0x10⟩
  | .adEvtEn => ⟨0xD0004, 24, 0x10⟩
  | .patrolCtrl => ⟨0xE0000, 1, 0x4⟩
  | .patrolTouch => ⟨0xE0004, 1, 0x4⟩
  | .patrolRel => ⟨0xE0008, 1, 0x4⟩
  | .patrolFault => ⟨0xE000C, 1, 0x4⟩
  | .patrolStuck => ⟨0xE0010, 1, 0x4⟩
  | .patrolEvtEn => ⟨0xE0014, 1, 0x4⟩
  | .patrolPeriods => ⟨0xE0018, 1, 0x4⟩
  | .patrolCfg => ⟨0xE0100, 24, 0x4⟩
  | .patrolCount => ⟨0xE0200, 24, 0x4⟩
  | .scrubCtrl => ⟨0xF0000, 1, 0x4⟩
  | .scrubRate => ⟨0xF0004, 4, 0x4⟩
  | .scrubPosPocket => ⟨0xF0014, 1, 0x4⟩
  | .scrubPosSump => ⟨0xF0018, 1, 0x4⟩
  | .scrubPosFm => ⟨0xF001C, 1, 0x4⟩
  | .scrubPosCr => ⟨0xF0020, 1, 0x4⟩
  | .scrubCntCorr => ⟨0xF0024, 1, 0x4⟩
  | .scrubCntUncorr => ⟨0xF0028, 1, 0x4⟩
  | .scrubCntVote => ⟨0xF002C, 1, 0x4⟩
  | .scrubEvt => ⟨0xF0030, 1, 0x4⟩
  | .scrubEvtEn => ⟨0xF0034, 1, 0x4⟩
  | .flogStatus => ⟨0xF0040, 1, 0x4⟩
  | .flogLostCnt => ⟨0xF0044, 1, 0x4⟩

/-- The fields of each register, highest first; bits that no field holds are reserved. -/
def RegKind.fields : RegKind → List Field
  | .idcode => [fRo 28 4 (Config.revision.toNat), fRo 12 16 0x9640, fRo 1 11 0x4F1, fRo 0 1 1]
  | .devrev => [fRo 8 8 (Config.mapVersion.toNat), fRo 4 4 (Config.revision.toNat), fRo 0 4 (Config.revisionMinor.toNat)]
  | .devcfg => [fRo 4 2 (Config.grade.code), fRo 0 2 (Config.speedBin.code)]
  | .uidLo => [fRo 0 32 (Config.unitIdLow.toNat)]
  | .uidHi => [fRo 0 32 (Config.unitIdHigh.toNat)]
  | .gstat => [fW1c 1 1, fW1c 0 1]
  | .gstatAddr => [fRo 0 32]
  | .pwrMode => [fRo 8 4, fRo 0 4]
  | .isoStatus0 => [fRo 0 32 0xFFFFFFFF]
  | .isoStatus1 => [fRo 0 8 0xFF]
  | .isoEvt0 => [fW1c 0 32]
  | .isoEvt1 => [fW1c 0 8]
  | .isoEvtEn0 => [fRw 0 32]
  | .isoEvtEn1 => [fRw 0 8]
  | .pocketEvt => [fW1c 2 1, fW1c 1 1, fW1c 0 1]
  | .pocketEvtEn => [fRw 0 3]
  | .pocketCntCorr => [fRc 0 32]
  | .pocketCntUncorr => [fRc 0 32]
  | .isoCause => [fRo 8 8, fRo 4 1 1, fRo 3 1, fRo 2 1, fRo 1 1, fRo 0 1]
  | .xcOvr => [fW1c 10 1, fW1c 9 1, fW1c 8 1, fW1c 0 5]
  | .xcLost => [fRc 0 32]
  | .xcFail => [fRc 0 32]
  | .portalDisc => [fRc 0 32]
  | .mbxPost => [fRw 0 32]
  | .mbxPostres => [fRo 16 16, fRo 8 8, fRo 7 1, fRo 0 4]
  | .mbxBusy => [fRo 0 16]
  | .mbxDone => [fW1c 0 16]
  | .mbxEvt => [fW1c 3 1, fW1c 2 1, fW1c 1 1, fW1c 0 1]
  | .mbxEvtEn => [fRw 0 4]
  | .loadPct => [fWo 31 1, fRo 24 5, fRo 19 5, fRo 14 5, fRo 7 7, fRo 0 7]
  | .fmStatus => [fRo 2 1, fRo 1 1, fRo 0 1]
  | .fmRestarts => [fRc 0 32]
  | .mbxFullCnt => [fRc 0 32]
  | .hmbRsp => [fRo 0 32]
  | .hmbCmd => [fRo 0 32]
  | .evtPend => [fW1c 0 32]
  | .evtEn => [fRw 0 32]
  | .evtFm => [fRw 0 32]
  | .evtSum => [fRo 31 1, fRo 16 9, fRo 0 12]
  | .evtCtrl => [fRw 0 1]
  | .evtMerged => [fRc 0 32]
  | .evtOvf => [fW1c 4 1, fW1c 3 1, fW1c 2 1, fW1c 1 1, fW1c 0 1]
  | .tsLo => [fRo 0 32]
  | .tsHi => [fRo 0 32]
  | .pwrCtrl => [fRw 16 4, fRw 8 1]
  | .pwrSys => [fRw 8 2, fRo 4 2, fRo 0 1]
  | .pwrVccf => [fRo 16 10, fRw 0 10]
  | .pwrVccfQ => [fRo 16 10, fRw 0 10]
  | .pwrDom0 => [fRo 0 32]
  | .pwrDom1 => [fRo 0 8]
  | .pwrDomLb => [fRo 0 24]
  | .pwrDomIo => [fRo 0 12]
  | .pwrEvt => [fW1c 0 9]
  | .pwrEvtEn => [fRw 0 9]
  | .pwrFault => [fRo 28 4, fRo 16 3, fRo 0 3]
  | .pwrTemp => [fRw 16 8 (Config.grade.warn), fRo 8 8 (Config.grade.shut), fRo 0 8]
  | .pwrPadrel => [fWo 0 12]
  | .pwrPmbErr => [fRc 0 32]
  | .pwrRail => [fRo 16 16, fRo 0 16]
  | .speedGaugeCtrl => [fRw 31 1, fWo 30 1, fRw 16 2, fRw 12 1, fRw 0 12]
  | .speedGauge => [fRo 31 1, fW1c 30 1, fRo 16 12, fRo 0 12]
  | .aonWakeEn => [fRw 0 6]
  | .aonWakeHpd => [fRw 0 24]
  | .aonWake => [fW1c 8 1, fW1c 7 1, fW1c 0 6]
  | .aonPadpol => [fRw 0 24]
  | .aonTicks => [fRo 0 32]
  | .aonAlarm => [fRw 0 32]
  | .aonScratch => [fRw 0 32]
  | .pinBank => [fRo 4 1, fRo 3 1, fRo 2 1, fRo 1 1, fRo 0 1]
  | .pinEvt => [fW1c 4 1, fW1c 3 1, fW1c 2 1, fW1c 1 1, fW1c 0 1]
  | .pinEvtEn => [fRw 0 5]
  | .pinLost => [fRc 0 32]
  | .pinHosterr => [fRc 0 32]
  | .pinOvrL => [fW1c 0 32]
  | .pinOvrH => [fW1c 0 28]
  | .cfgStatus => [fRo 24 4, fRo 16 8, fRo 13 1, fRo 12 1, fRo 10 2, fRo 8 2, fRo 7 1, fRo 5 2, fRo 3 2, fRo 2 1, fRo 1 1, fRo 0 1]
  | .cfgErraddr => [fRo 0 32]
  | .cfgCtrl => [fWo 16 16, fWo 0 1]
  | .cfgStream => [fWo 0 32]
  | .cfgOtp => [fRo 8 1, fRo 4 4, fRo 0 4]
  | .cfgDesign => [fRo 0 32]
  | .cfgLoadcount => [fRo 0 32]
  | .cfgStore => [fRo 2 1, fRo 1 1, fRo 0 1]
  | .cfgStoreSeq => [fRo 0 32]
  | .cfgPart => [fRo 24 8, fRo 4 1, fRo 0 4]
  | .cfgPartReg0 => [fRo 0 32]
  | .cfgPartReg1 => [fRo 0 8]
  | .cfgEvt => [fW1c 0 8]
  | .cfgEvtEn => [fRw 0 8]
  | .cfgTime => [fRo 0 32]
  | .cfgFrames => [fRo 0 32]
  | .glOwner => [fRo 31 1, fRo 24 6, fRo 23 1, fRo 16 6, fRo 15 1, fRo 8 6, fRo 7 1, fRo 0 6]
  | .stCtrl => [fRw 0 4 4]
  | .stStatus => [fRo 31 1, fRo 24 4, fRo 0 8]
  | .stSigLo => [fRo 0 32]
  | .stSigHi => [fRo 0 32]
  | .stCount => [fRo 0 32]
  | .stLast => [fRo 16 8, fRo 8 4, fRo 0 2]
  | .stEvt => [fW1c 2 1, fW1c 1 1, fW1c 0 1]
  | .stEvtEn => [fRw 0 3]
  | .stResHard => [fRo 0 2]
  | .stResCav => [fRo 2 2, fRo 0 2]
  | .stResLb => [fRo 0 8]
  | .lnPmaCtrl => [fWo 7 1, fRw 6 1, fRw 4 2]
  | .lnPmaStatus => [fRo 6 1, fRo 5 1, fRo 4 1, fRo 3 1, fRo 2 1, fRo 1 1, fRo 0 1]
  | .lnPmaEvt => [fW1c 0 7]
  | .lnPmaEvtEn => [fRw 0 7]
  | .lnEq => [fRw 26 6, fRw 20 6, fRo 10 6, fRo 4 6, fRw 0 1]
  | .lnLevels => [fRo 24 8, fRo 16 8, fRo 8 8, fRo 0 8]
  | .lnPatCtrl => [fWo 31 1, fWo 30 1, fRw 29 1, fRw 24 5, fRw 16 1, fRw 8 4, fRw 0 4]
  | .lnPatStatus => [fW1c 6 1, fW1c 5 1, fW1c 4 1, fW1c 3 1, fW1c 2 1, fW1c 1 1, fRo 0 1]
  | .lnPatUserLo => [fRw 0 32]
  | .lnPatUserHi => [fRw 0 32]
  | .lnPrbsBitsLo => [fRo 0 32]
  | .lnPrbsBitsHi => [fRo 0 16]
  | .lnPrbsErrLo => [fRo 0 32]
  | .lnPrbsErrHi => [fRo 0 16]
  | .lnPrbsSymerr => [fRc 0 32]
  | .lnPrbsRelock => [fRc 0 32]
  | .lnMargin => [fRw 31 1, fRw 16 2, fRw 8 7, fRw 0 7]
  | .lnMarginSamp => [fRc 0 32]
  | .lnMarginErr => [fRc 0 32]
  | .lnLinkStatus => [fRo 24 8, fRo 12 1, fRo 10 1, fRo 9 1, fRo 8 1, fRo 0 3]
  | .lnLinkCtrl => [fRw 2 1, fWo 1 1, fWo 0 1]
  | .lnLinkEvt => [fW1c 0 9]
  | .lnLinkEvtEn => [fRw 0 9]
  | .lnBlkErr => [fRc 0 32]
  | .lnFecCorr => [fRc 0 32]
  | .lnFecUncorr => [fRc 0 32]
  | .lnRxDrop => [fRc 0 32]
  | .lnTxUnderrun => [fRc 0 32]
  | .lnRetrains => [fRc 0 32]
  | .lnAditCrc => [fRc 0 32]
  | .lnAditReplay => [fRc 0 32]
  | .lnAditProto => [fRc 0 32]
  | .lnLinkOvf => [fW1c 0 9]
  | .lnAditSeq => [fRo 12 12, fRo 0 12]
  | .lnAditRx => [fRo 12 12, fRo 0 12]
  | .lnAditCred => [fRo 0 9 0x100]
  | .lbStatus => [fRo 0 1]
  | .lbEvt => [fW1c 9 1, fW1c 8 1, fW1c 1 1, fW1c 0 1]
  | .lbEvtEn => [fRw 8 2, fRw 0 2]
  | .lbHpd => [fRo 1 1, fRo 0 1]
  | .sumpStatus => [fRo 31 1, fRo 16 15 0x4000, fRo 0 16 0x8000]
  | .sumpEvt => [fW1c 0 12]
  | .sumpEvtEn => [fRw 0 12]
  | .sumpCntFull => [fRc 0 32]
  | .sumpCntNodesc => [fRc 0 32]
  | .sumpCntRewind => [fRc 0 32]
  | .sumpCntTrunc => [fRc 0 32]
  | .sumpCntFlushed => [fRc 0 32]
  | .sumpCntStale => [fRc 0 32]
  | .sumpCntCorr => [fRc 0 32]
  | .sumpCntUncorr => [fRc 0 32]
  | .sumpCntSeqerr => [fRc 0 32]
  | .sumpCntEmpty => [fRc 0 32]
  | .sumpOvf => [fW1c 0 10]
  | .sumpLowmark => [fRw 0 16]
  | .sumpQsel => [fRw 0 11]
  | .sumpQstat => [fRo 16 16, fRo 0 16]
  | .sumpQstat2 => [fRo 21 1, fRo 20 1, fRo 19 1, fRo 18 1, fRo 17 1, fRo 16 1, fRo 0 15]
  | .sumpQcmd => [fWo 16 11, fWo 1 1, fWo 0 1]
  | .sumpStale => [fW1c 0 32]
  | .hchCtrl => [fWo 2 1, fWo 1 1, fWo 0 1]
  | .hchDesc => [fRw 5 27]
  | .hchStatus => [fRo 16 6, fRo 12 4, fRo 8 4, fRo 0 4]
  | .hchCur => [fRo 0 32]
  | .hchLeft => [fRo 0 32]
  | .hchErraddr => [fRo 0 32]
  | .hchTag => [fRo 0 32]
  | .hchEvt => [fW1c 0 6]
  | .hchEvtEn => [fRw 0 6]
  | .hchRetry => [fRc 0 32]
  | .haulStatus => [fRo 16 11, fRo 0 12]
  | .crStatus => [fRo 2 1, fRo 1 1, fRo 0 1]
  | .crEvt => [fW1c 0 5]
  | .crEvtEn => [fRw 0 5]
  | .crIdle => [fRc 0 32]
  | .crHold0 => [fRw 0 32]
  | .crHold1 => [fRw 0 32]
  | .crHold2 => [fRw 0 32]
  | .crHold3 => [fRw 0 32]
  | .adEvt => [fW1c 0 16]
  | .adEvtEn => [fRw 0 16]
  | .patrolCtrl => [fRw 31 1, fRw 24 3, fRw 16 8, fRw 0 11]
  | .patrolTouch => [fW1c 0 24]
  | .patrolRel => [fW1c 0 24]
  | .patrolFault => [fW1c 0 24]
  | .patrolStuck => [fW1c 0 24]
  | .patrolEvtEn => [fRw 0 24]
  | .patrolPeriods => [fRo 0 32]
  | .patrolCfg => [fRw 31 1, fRw 30 1, fRw 28 2, fRw 25 3, fRw 16 4, fRw 8 8]
  | .patrolCount => [fRo 16 16, fRo 12 1, fRo 0 12]
  | .scrubCtrl => [fRw 3 1, fRw 2 1, fRw 1 1, fRw 0 1]
  | .scrubRate => [fRw 0 16 9]
  | .scrubPosPocket => [fRo 24 6, fRo 16 7, fRo 0 10]
  | .scrubPosSump => [fRo 0 15]
  | .scrubPosFm => [fRo 0 17]
  | .scrubPosCr => [fRo 16 4, fRo 8 7, fRo 0 5]
  | .scrubCntCorr => [fRc 0 32]
  | .scrubCntUncorr => [fRc 0 32]
  | .scrubCntVote => [fRc 0 32]
  | .scrubEvt => [fW1c 0 10]
  | .scrubEvtEn => [fRw 0 10]
  | .flogStatus => [fRo 16 16, fRo 0 7]
  | .flogLostCnt => [fRc 0 32]

/-- Register kinds, part 1 of the map. -/
def RegKind.part1 : List RegKind :=
  [.idcode, .devrev, .devcfg, .uidLo, .uidHi, .gstat, .gstatAddr, .pwrMode, .isoStatus0, .isoStatus1,
    .isoEvt0, .isoEvt1, .isoEvtEn0, .isoEvtEn1, .pocketEvt, .pocketEvtEn, .pocketCntCorr, .pocketCntUncorr,
    .isoCause, .xcOvr, .xcLost, .xcFail, .portalDisc, .mbxPost, .mbxPostres, .mbxBusy, .mbxDone, .mbxEvt,
    .mbxEvtEn, .loadPct, .fmStatus, .fmRestarts, .mbxFullCnt, .hmbRsp, .hmbCmd]

/-- Register kinds, part 2 of the map. -/
def RegKind.part2 : List RegKind :=
  [.evtPend, .evtEn, .evtFm, .evtSum, .evtCtrl, .evtMerged, .evtOvf, .tsLo, .tsHi, .pwrCtrl, .pwrSys,
    .pwrVccf, .pwrVccfQ, .pwrDom0, .pwrDom1, .pwrDomLb, .pwrDomIo, .pwrEvt, .pwrEvtEn, .pwrFault, .pwrTemp,
    .pwrPadrel, .pwrPmbErr, .pwrRail, .speedGaugeCtrl, .speedGauge, .aonWakeEn, .aonWakeHpd, .aonWake,
    .aonPadpol, .aonTicks, .aonAlarm, .aonScratch, .pinBank, .pinEvt]

/-- Register kinds, part 3 of the map. -/
def RegKind.part3 : List RegKind :=
  [.pinEvtEn, .pinLost, .pinHosterr, .pinOvrL, .pinOvrH, .cfgStatus, .cfgErraddr, .cfgCtrl, .cfgStream,
    .cfgOtp, .cfgDesign, .cfgLoadcount, .cfgStore, .cfgStoreSeq, .cfgPart, .cfgPartReg0, .cfgPartReg1,
    .cfgEvt, .cfgEvtEn, .cfgTime, .cfgFrames, .glOwner, .stCtrl, .stStatus, .stSigLo, .stSigHi, .stCount,
    .stLast, .stEvt, .stEvtEn, .stResHard, .stResCav, .stResLb, .lnPmaCtrl, .lnPmaStatus]

/-- Register kinds, part 4 of the map. -/
def RegKind.part4 : List RegKind :=
  [.lnPmaEvt, .lnPmaEvtEn, .lnEq, .lnLevels, .lnPatCtrl, .lnPatStatus, .lnPatUserLo, .lnPatUserHi,
    .lnPrbsBitsLo, .lnPrbsBitsHi, .lnPrbsErrLo, .lnPrbsErrHi, .lnPrbsSymerr, .lnPrbsRelock, .lnMargin,
    .lnMarginSamp, .lnMarginErr, .lnLinkStatus, .lnLinkCtrl, .lnLinkEvt, .lnLinkEvtEn, .lnBlkErr, .lnFecCorr,
    .lnFecUncorr, .lnRxDrop, .lnTxUnderrun, .lnRetrains, .lnAditCrc, .lnAditReplay, .lnAditProto, .lnLinkOvf,
    .lnAditSeq, .lnAditRx, .lnAditCred, .lbStatus]

/-- Register kinds, part 5 of the map. -/
def RegKind.part5 : List RegKind :=
  [.lbEvt, .lbEvtEn, .lbHpd, .sumpStatus, .sumpEvt, .sumpEvtEn, .sumpCntFull, .sumpCntNodesc, .sumpCntRewind,
    .sumpCntTrunc, .sumpCntFlushed, .sumpCntStale, .sumpCntCorr, .sumpCntUncorr, .sumpCntSeqerr,
    .sumpCntEmpty, .sumpOvf, .sumpLowmark, .sumpQsel, .sumpQstat, .sumpQstat2, .sumpQcmd, .sumpStale,
    .hchCtrl, .hchDesc, .hchStatus, .hchCur, .hchLeft, .hchErraddr, .hchTag, .hchEvt, .hchEvtEn, .hchRetry,
    .haulStatus, .crStatus]

/-- Register kinds, part 6 of the map. -/
def RegKind.part6 : List RegKind :=
  [.crEvt, .crEvtEn, .crIdle, .crHold0, .crHold1, .crHold2, .crHold3, .adEvt, .adEvtEn, .patrolCtrl,
    .patrolTouch, .patrolRel, .patrolFault, .patrolStuck, .patrolEvtEn, .patrolPeriods, .patrolCfg,
    .patrolCount, .scrubCtrl, .scrubRate, .scrubPosPocket, .scrubPosSump, .scrubPosFm, .scrubPosCr,
    .scrubCntCorr, .scrubCntUncorr, .scrubCntVote, .scrubEvt, .scrubEvtEn, .flogStatus, .flogLostCnt]

/-- Every register kind. -/
def RegKind.all : List RegKind :=
  RegKind.part1 ++ RegKind.part2 ++ RegKind.part3 ++ RegKind.part4 ++ RegKind.part5 ++ RegKind.part6

/-- The address of instance `i` of a register. -/
def RegKind.addr (k : RegKind) (i : Nat) : Nat := k.loc.base + i * k.loc.stride

/-- The instance of kind `k` that lies at address `a`. -/
def RegKind.instAt (k : RegKind) (a : Nat) : Option Nat :=
  let p := k.loc
  if p.base ≤ a ∧ (a - p.base) % p.stride = 0 ∧ (a - p.base) / p.stride < p.count then some ((a - p.base) / p.stride) else none

/-- The register at an address, if one is defined there (20_register_map R471). -/
def regAt (a : Nat) : Option (RegKind × Nat) :=
  RegKind.all.findSome? fun k => (k.instAt a).map fun i => (k, i)

/-- The mask of the fields that have an access code. -/
def fieldMask (acc : Access) (fs : List Field) : Nat :=
  fs.foldl (fun m f => if f.acc = acc then m ||| place f.lo f.len (2 ^ f.len - 1) else m) 0

/-- The mask of every defined bit. -/
def definedMask (fs : List Field) : Nat := fs.foldl (fun m f => m ||| place f.lo f.len (2 ^ f.len - 1)) 0

/-- The reset value of a register. -/
def RegKind.reset (k : RegKind) : Word := word (k.fields.foldl (fun m f => m ||| place f.lo f.len f.reset) 0)

/-- The mask of the bits of a register with an access code, as a word. -/
def RegKind.mask (k : RegKind) (acc : Access) : Word := word (fieldMask acc k.fields)

end Sys2Proof.Machine
end

