-- ==== Sys2Proof/Machine/Flags.lean ====
section
/-! DEFINITION. Registers, event flags, statistics counters and the event controller: every flag computation of the block. -/

namespace Sys2Proof.Machine

/-- The stored value of a register. -/
def State.reg (s : State) (k : RegKind) (i : Nat) : Word := tabGet k.reset s.regs (k.addr i)

/-- A register's stored value replaced. -/
def State.setReg (s : State) (k : RegKind) (i : Nat) (v : Word) : State :=
  { s with regs := tabSet k.reset s.regs (k.addr i) v }

/-- Bits `[lo + len - 1 : lo]` of a stored register. -/
def State.field (s : State) (k : RegKind) (i lo len : Nat) : Nat := bitsOf lo len (s.reg k i).toNat

/-- One bit of a stored register. -/
def State.bit (s : State) (k : RegKind) (i b : Nat) : Bool := (s.reg k i).getLsbD b

/-- A field of a word replaced. -/
def putField (w : Word) (lo len v : Nat) : Word :=
  (w &&& ~~~ (word (place lo len (2 ^ len - 1)))) ||| word (place lo len v)

/-- A field of a stored register replaced by hardware. -/
def State.setField (s : State) (k : RegKind) (i lo len v : Nat) : State :=
  s.setReg k i (putField (s.reg k i) lo len v)

/-- The next free value's index, and the state after it is taken. -/
def State.takeFree (s : State) : Nat × State := (s.freeCtr, { s with freeCtr := s.freeCtr + 1 })

/-- What has happened in this clock changed. -/
def State.withFresh (s : State) (f : Fresh → Fresh) : State := { s with fresh := f s.fresh }

/-- The bits of a register that hardware has set in this clock (20_register_map R476). -/
def State.freshBits (s : State) (k : RegKind) (i : Nat) : Word :=
  s.fresh.flags.foldl (fun w e => if e.1 = k.addr i then w ||| e.2 else w) 0

/-- What a counter has advanced by in this clock (20_register_map R476). -/
def State.freshCount (s : State) (k : RegKind) (i : Nat) : Nat :=
  s.fresh.counts.foldl (fun n e => if e.1 = k.addr i then n + e.2 else n) 0

/-- Hardware sets bits that a write of 1 clears; such a write in the same clock leaves them 1 (20_register_map R476). -/
def State.setBits (s : State) (k : RegKind) (i : Nat) (bits : Word) : State :=
  (s.setReg k i (s.reg k i ||| bits)).withFresh fun f => { f with flags := (k.addr i, bits) :: f.flags }

/-- A counter that a read clears takes a new value, `n` above its old one; a read in the same clock keeps the increment
(20_register_map R476). -/
def State.setCount (s : State) (k : RegKind) (i n : Nat) (v : Word) : State :=
  (s.setReg k i v).withFresh fun f => { f with counts := (k.addr i, n) :: f.counts }

/-- Bits of `EVT_OVF` set, without the event that R462 raises. -/
def setEvtOvf (s : State) (b : Nat) : State := s.setBits .evtOvf 0 (bitWord b)

/-- One raise of event `n` at the event controller (19_events_counters R459, R464): pending, merge count, history queue. A write of
`EVT_FM` in the same clock that changes the event's bit leaves the raise out of the queue (R466). -/
def raiseOnce (n : Nat) (s : State) : State :=
  let i := n / 32
  let b := n % 32
  let s :=
    if s.bit .evtPend i b then
      if s.reg .evtMerged 0 = 0xFFFFFFFF then s
      else
        let v := s.reg .evtMerged 0 + 1
        let s := (s.setCount .evtMerged 0 1 v).withFresh fun f => { f with merged := n :: f.merged }
        if v = 0xFFFFFFFF then setEvtOvf s 0 else s
    else s
  let s := s.setBits .evtPend i (bitWord b)
  if s.bit .evtFm i b && !(s.fresh.recorded.any fun e => e.1 = i && e.2.getLsbD b) then
    if s.history.queue.length < 32 then
      { s with history := { s.history with queue := s.history.queue ++ [(n, s.clocks.stamp % 2 ^ 32)] } }
    else setEvtOvf s 4
  else s

/-- Raising an event, with the EV019 that a bit of `EVT_OVF` passing from 0 to 1 raises (19_events_counters R459, R462). -/
def raiseEvent (n : Nat) (s : State) : State :=
  let s' := raiseOnce n s
  if (s'.reg .evtOvf 0 &&& ~~~ s.reg .evtOvf 0) ≠ 0 then raiseOnce 19 s' else s'

/-- Events raised in order. -/
def raiseAll (ns : List Nat) (s : State) : State := ns.foldl (fun s n => raiseEvent n s) s

/-- A bit of `EVT_OVF` set by its counter (19_events_counters R462). -/
def evtOverflow (b : Nat) (s : State) : State :=
  let t := setEvtOvf s b
  if s.bit .evtOvf 0 b then t else raiseEvent 19 t

/-- An event handed to the crossing of its class (09_portals R215). -/
def offerEvent (cls n : Nat) (s : State) : State :=
  { s with crossings := { s.crossings with offered := s.crossings.offered ++ [(cls, n)] } }

/-- How the flags of an event register raise events. -/
inductive Raising where
  | perBit (first : Nat)          -- bit b raises event first + b
  | perReg (ev : Nat)             -- any bit raises the one event
  | crossing (cls ev : Nat)       -- any bit offers the one event to a crossing
deriving DecidableEq, Repr

/-- Flag bits set in an event register: every bit that passes from 0 to 1 while its enable is 1 raises. -/
def setFlags (k en : RegKind) (i : Nat) (how : Raising) (bits : Word) (s : State) : State :=
  let old := s.reg k i
  let fresh := bits &&& ~~~ old &&& s.reg en i
  let s := s.setBits k i bits
  match how with
  | .perBit first => raiseAll ((List.range 32).filterMap fun b => if fresh.getLsbD b then some (first + b) else none) s
  | .perReg ev => if fresh = 0 then s else raiseEvent ev s
  | .crossing cls ev => if fresh = 0 then s else offerEvent cls ev s

/-- `PWR_EVT` (16_power R410). -/
def flagPwr (b : Nat) (s : State) : State := setFlags .pwrEvt .pwrEvtEn 0 (.perBit 0) (bitWord b) s
/-- `CFG_EVT` (15_configuration R377). -/
def flagCfg (b : Nat) (s : State) : State := setFlags .cfgEvt .cfgEvtEn 0 (.perBit 32) (bitWord b) s
/-- `ST_EVT` (18_self_test_faults R457). -/
def flagTest (b : Nat) (s : State) : State := setFlags .stEvt .stEvtEn 0 (.perBit 40) (bitWord b) s
/-- `SUMP_EVT` (08_sump R193). -/
def flagSump (b : Nat) (s : State) : State := setFlags .sumpEvt .sumpEvtEn 0 (.perBit 248) (bitWord b) s
/-- `SCRUB_EVT` (18_self_test_faults R452). -/
def flagScrub (b : Nat) (s : State) : State := setFlags .scrubEvt .scrubEvtEn 0 (.perBit 344) (bitWord b) s
/-- `MBX_EVT` (14_foreman R348). -/
def flagMbx (b : Nat) (s : State) : State := setFlags .mbxEvt .mbxEvtEn 0 (.perReg 17) (bitWord b) s
/-- `PIN_EVT` (17_pins R436). -/
def flagPin (b : Nat) (s : State) : State := setFlags .pinEvt .pinEvtEn 0 (.perReg 18) (bitWord b) s
/-- `HCHnn_EVT` (10_haulers R241). -/
def flagHauler (h b : Nat) (s : State) : State := setFlags .hchEvt .hchEvtEn h (.perReg (184 + h)) (bitWord b) s
/-- `CRnn_EVT` (07_crushers R166). -/
def flagCrusher (e b : Nat) (s : State) : State := setFlags .crEvt .crEvtEn e (.perReg (280 + e)) (bitWord b) s
/-- `LNnn_PMA_EVT` (11_lane_electrical R274), through the class 1 crossing. -/
def flagPma (n b : Nat) (s : State) : State := setFlags .lnPmaEvt .lnPmaEvtEn n (.crossing 1 (64 + n)) (bitWord b) s
/-- `LNnn_LINK_EVT` (12_lane_link R306), through the class 1 crossing. -/
def flagLink (n b : Nat) (s : State) : State := setFlags .lnLinkEvt .lnLinkEvtEn n (.crossing 1 (64 + n)) (bitWord b) s
/-- `LBbb_EVT` (11_lane_electrical R275), through the class 1 crossing. -/
def flagBench (bb b : Nat) (s : State) : State := setFlags .lbEvt .lbEvtEn bb (.crossing 1 (160 + bb)) (bitWord b) s
/-- `ADbb_EVT` (12_lane_link R308). -/
def flagAdit (bb b : Nat) (s : State) : State := setFlags .adEvt .adEvtEn bb (.perReg (296 + bb)) (bitWord b) s

/-- `ISO_EVT0` and `ISO_EVT1` (19_events_counters R461). -/
def flagIso (c : Nat) (s : State) : State :=
  if c < 32 then setFlags .isoEvt0 .isoEvtEn0 0 (.perReg 9) (bitWord c) s
  else setFlags .isoEvt1 .isoEvtEn1 0 (.perReg 9) (bitWord (c - 32)) s

/-- `POCKET_EVT`: bit 0 raises EV010, bits 1 and 2 raise EV011 (19_events_counters R458, R461). -/
def flagPocket (b : Nat) (s : State) : State :=
  setFlags .pocketEvt .pocketEvtEn 0 (.perReg (if b = 0 then 10 else 11)) (bitWord b) s

/-- A bit of `XC_OVR`, whose passing from 0 to 1 raises EV013 (09_portals R216). -/
def flagXc (b : Nat) (s : State) : State :=
  let t := s.setBits .xcOvr 0 (bitWord b)
  if s.bit .xcOvr 0 b then t else raiseEvent 13 t

/-- `SUMP_STALE_i` and the event of its group (08_sump R196). -/
def flagStale (q : Nat) (s : State) : State :=
  let i := q / 32
  let b := q % 32
  let t := s.setBits .sumpStale i (bitWord b)
  if s.bit .sumpStale i b then t else raiseEvent (264 + q / 128) t

/-- A sensor's bit in a Patrol register, raising EV320 + s under `PATROL_EVT_EN` through the class 2 crossing
(16_power R396, 09_portals R215). -/
def flagPatrol (k : RegKind) (n : Nat) (s : State) : State :=
  setFlags k .patrolEvtEn 0 (.crossing 2 (320 + n)) (bitWord n) s

/-- A 32-bit statistics counter advanced: it saturates at all ones, and reaching it reports (19_events_counters R467). -/
def countStat (k : RegKind) (i : Nat) (report : State → State) (s : State) : State :=
  let v := s.reg k i
  if v = 0xFFFFFFFF then s
  else
    let s := s.setCount k i 1 (v + 1)
    if v + 1 = 0xFFFFFFFF then report s else s

/-- A statistics counter advanced by several. -/
def countMany (k : RegKind) (i n : Nat) (report : State → State) (s : State) : State :=
  let v := (s.reg k i).toNat
  let t := min (v + n) (2 ^ 32 - 1)
  let s := s.setCount k i (t - v) (word t)
  if v < 2 ^ 32 - 1 ∧ t = 2 ^ 32 - 1 then report s else s

/-- A lane link counter at offset 0x110 + 4·n has saturated: its bit in `LNnn_LINK_OVF`, and `CNT_OVF` (12_lane_link R306). -/
def linkOverflow (n lane : Nat) (s : State) : State :=
  flagLink lane 8 (s.setBits .lnLinkOvf lane (bitWord n))

/-- A lane link counter advanced. -/
def countLink (k : RegKind) (n lane : Nat) (s : State) : State := countStat k lane (linkOverflow n lane) s

/-- `XC_LOST` (09_portals R216). -/
def countXcLost (s : State) : State := countStat .xcLost 0 (flagXc 8) s
/-- `XC_FAIL` (09_portals R216). -/
def countXcFail (s : State) : State := countStat .xcFail 0 (flagXc 9) s
/-- `PORTAL_DISC` (09_portals R216). -/
def countPortalDisc (n : Nat) (s : State) : State := countMany .portalDisc 0 n (flagXc 10) s
/-- `POCKET_CNT_CORR` (19_events_counters R461, R469). -/
def countPocketCorr (s : State) : State := flagPocket 0 (countStat .pocketCntCorr 0 (flagPocket 2) s)
/-- `POCKET_CNT_UNCORR` (19_events_counters R461, R469). -/
def countPocketUncorr (s : State) : State := flagPocket 1 (countStat .pocketCntUncorr 0 (flagPocket 2) s)

/-- The entries of the fault log with one more at its place: after every earlier one, but before those of the same SYSCLK period with a
larger code (18_self_test_faults R456); the newest stands first here. -/
def placeFault (e : Word × Word) : List (Word × Word) → List (Word × Word)
  | x :: rest => if x.2 = e.2 ∧ bitsOf 24 8 e.1.toNat < bitsOf 24 8 x.1.toNat then x :: placeFault e rest else e :: x :: rest
  | [] => [e]

/-- An entry of the fault log (18_self_test_faults R454): written whole, overwriting the oldest of 64. -/
def logFault (code inst : Nat) (s : State) : State :=
  let e : Word × Word := (word (place 24 8 code + place 0 24 inst), word s.clocks.stamp)
  let full := s.flog.entries.length ≥ 64
  let held := if full then s.flog.entries.drop 1 else s.flog.entries
  let s := { s with flog := { entries := (placeFault e held.reverse).reverse, next := (s.flog.next + 1) % 2 ^ 16 } }
  let s := flagScrub 7 s
  if full then countStat .flogLostCnt 0 (evtOverflow 1) (flagScrub 8 s) else s

end Sys2Proof.Machine
end

