-- ==== Sys2Proof/Machine/Ops.lean ====
section
/-! DEFINITION. The shared operations: updates of the state's blocks, portals' resets, mailbox responses, and the modes. -/

namespace Sys2Proof.Machine

/-- The outcome of a command that goes on. -/
abbrev Out := Host.Outcome State Fault Refusal

/-! ### Field updates of the nested blocks -/

/-- The fabric changed. -/
def State.withFabric (s : State) (f : Fabric → Fabric) : State := { s with fabric := f s.fabric }
/-- One cavern changed. -/
def State.modCav (s : State) (c : Nat) (f : Cavern → Cavern) : State := { s with cavs := tabMod {} s.cavs c f }
/-- The power controller changed. -/
def State.withPower (s : State) (f : Power → Power) : State := { s with power := f s.power }
/-- The configuration controller changed. -/
def State.withConf (s : State) (f : Conf → Conf) : State := { s with conf := f s.conf }
/-- The Foreman changed. -/
def State.withForeman (s : State) (f : Foreman → Foreman) : State := { s with foreman := f s.foreman }
/-- One mailbox changed. -/
def State.modMbox (s : State) (m : Nat) (f : Mbox → Mbox) : State :=
  s.withForeman fun fm => { fm with mbox := tabMod {} fm.mbox m f }
/-- One mailbox. -/
def State.mboxAt (s : State) (m : Nat) : Mbox := tabGet {} s.foreman.mbox m
/-- One portal. -/
def State.portal (s : State) (p : Nat) : Portal := tabGet {} s.portals p
/-- One portal changed. -/
def State.modPortal (s : State) (p : Nat) (f : Portal → Portal) : State := { s with portals := tabMod {} s.portals p f }
/-- The bank of a host port. -/
def State.portBank (s : State) (p : HostPort) : PortBank :=
  tabGet {} s.ports (match p with | .spi => 0 | .i2c => 1 | .jtag => 2)
/-- The bank of a host port changed. -/
def State.modPort (s : State) (p : HostPort) (f : PortBank → PortBank) : State :=
  { s with ports := tabMod {} s.ports (match p with | .spi => 0 | .i2c => 1 | .jtag => 2) f }
/-- One inward attachment changed. -/
def State.setAttIn (s : State) (a : Nat) (v : InAtt) : State :=
  s.withFabric fun f => { f with attIn := tabSet {} f.attIn a v }
/-- The acknowledge of an outward attachment driven. -/
def State.setAttAck (s : State) (a : Nat) (b : Bool) : State :=
  s.withFabric fun f => { f with attAck := tabSet false f.attAck a b }
/-- One pin. -/
def State.pin (s : State) (b n : Nat) : Pin := tabGet {} s.pins.pins (60 * b + n)
/-- One pin changed. -/
def State.modPin (s : State) (b n : Nat) (f : Pin → Pin) : State :=
  { s with pins := { s.pins with pins := tabMod {} s.pins.pins (60 * b + n) f } }
/-- One bank of pins. -/
def State.bank (s : State) (b : Nat) : Bank := tabGet {} s.pins.banks b
/-- One bank of pins changed. -/
def State.modBank (s : State) (b : Nat) (f : Bank → Bank) : State :=
  { s with pins := { s.pins with banks := tabMod {} s.pins.banks b f } }

/-! ### Portals -/

/-- The tokens of a popped beat for a portal of width `w` (R203). -/
def beatTokens (w : Nat) (b : SumpBeat) : List (Nat × Nat) :=
  if b.nv then []
  else
    let n := if b.truncated then 1 else (b.bytes * 8 + w - 1) / w
    (List.range n).map fun i => (bitsOf (w * i) w b.data.toNat, b.tag.toNat % 2 ^ 15)

/-- The pops on their way to a portal. -/
def State.portalReads (s : State) (p : Nat) : List SumpBeat := (s.sump.reads.filter fun r => r.dest = PopTo.portal p).flatMap (·.beats)

/-- A portal reset from either side: its queue empties and every word discarded counts (09_portals R211). A handshake on its fabric side
goes on: the reset is a closed gate, at which a token offered or acknowledged completes its phases (01_architecture R21); a reset of the
fabric side ends it with the interior (`resetAttachments`). -/
def portalReset (p : Nat) (s : State) : State :=
  let v := s.portal p
  let lost := v.queue.length + v.gather.length + (v.beats.map (·.2)).sum + v.stage.length +
    ((v.held ++ s.portalReads p).flatMap (beatTokens (portalWidth s.cfg p))).length
  let s := { s with sump := { s.sump with reads := s.sump.reads.filter fun r => r.dest ≠ PopTo.portal p } }
  let s := s.modPortal p fun v =>
    { v with queue := [], ready := 0, gather := [], beats := [], held := [], stage := [], begun := false, rst := true
             burst := 0, pausing := none, paused := v.pausing <|> v.paused }
  if lost = 0 then s else countPortalDisc lost s

/-! ### Mailbox responses -/

/-- Status codes of responses (14_foreman R338): BUSY. -/
def stBusy : Nat := 0x0001
/-- BAD_OPCODE. -/
def stBadOpcode : Nat := 0x0004
/-- DENIED. -/
def stDenied : Nat := 0x0005
/-- BAD_CLASS. -/
def stBadClass : Nat := 0x0006
/-- BAD_LENGTH. -/
def stBadLength : Nat := 0x0007
/-- BAD_PARAM. -/
def stBadParam : Nat := 0x0008
/-- NO_PARAM. -/
def stNoParam : Nat := 0x0009
/-- READ_ONLY. -/
def stReadOnly : Nat := 0x000A
/-- DOMAIN_OFF. -/
def stDomainOff : Nat := 0x000B
/-- ABORTED. -/
def stAborted : Nat := 0x000C
/-- NOT_ABORTABLE. -/
def stNotAbortable : Nat := 0x000D
/-- BAD_FRAME. -/
def stBadFrame : Nat := 0x000E
/-- STATE. -/
def stState : Nat := 0x000F


/-- The words of a response: the header copied, the status, the payload cut at its length (14_foreman R329). -/
def mkResponse (cmd : List Word) (status : Nat) (payload : List Word) (len : Nat) : List Word :=
  let w0 := (cmd.getD 0 0) &&& 0x01FFFFFF
  let cls := bitsOf 8 2 (cmd.getD 1 0).toNat
  let n := natOfBytes ((payload.flatMap fun w => bytesOf w.toNat 4).take len)
  [w0, word (place 16 16 status + place 8 2 cls + len)] ++
    (List.range 14).map fun i => word (n >>> (32 * i))

/-- A response posted (14_foreman R333, R334, R340): the host's mailbox shows it with `DONE`; a fabric mailbox's tokens
enter its IN portal. The mailbox leaves the order of service, and `FM_CMDS_DONE` counts. -/
def postResponse (m : Nat) (rsp : List Word) (s : State) : State :=
  let cmd := (s.mboxAt m).cmd
  let s := s.withForeman fun f => { f with order := f.order.filter (· ≠ m) }
  let s :=
    if s.foreman.cmdsDone ≥ 2 ^ 64 - 1 then s
    else
      let s' := s.withForeman fun f => { f with cmdsDone := f.cmdsDone + 1 }
      if s'.foreman.cmdsDone = 2 ^ 64 - 1 then evtOverflow 2 s' else s'
  if m < 16 then
    let s := s.modMbox m fun b => { b with rsp := rsp, done := true, staged := none, work := .none }
    let s := s.withFresh fun f => { f with flags := (RegKind.mbxDone.addr 0, bitWord m) :: f.flags }
    if (cmd.getD 0 0).getLsbD 24 then raiseEvent 16 s else s
  else
    let p := sitePortal m 48 0
    let toks := (List.range 8).map fun t =>
      ((rsp.getD (2 * t) 0).toNat + 2 ^ 32 * (rsp.getD (2 * t + 1) 0).toNat,
        (if t = 0 then 1 else 0) + (if t = 7 then 2 else 0))
    let s := s.modMbox m fun b => { b with rsp := rsp, busy := false, done := false, staged := none, work := .none }
    if portalEn s.cfg p then s.modPortal p fun v => { v with stage := v.stage ++ toks } else s

/-- A command ended while the Foreman may be held in reset: it is answered, or the response is kept in its staging copy for step 4 of the
restart (14_foreman R340, R345, R346). -/
def answerOrStage (m : Nat) (status : Nat) (payload : List Word) (len : Nat) (s : State) : State :=
  if s.foreman.running then postResponse m (mkResponse (s.mboxAt m).cmd status payload len) s
  else s.modMbox m fun b => { b with staged := some (mkResponse b.cmd status payload len) }

/-- A command answered with a status and a payload. -/
def answer (m : Nat) (status : Nat) (payload : List Word) (len : Nat) (s : State) : State :=
  postResponse m (mkResponse (s.mboxAt m).cmd status payload len) s

/-! ### Self-tests -/

/-- Running self-tests that a happening stops early: each then ends INCOMPLETE (18_self_test_faults R446). -/
def stopTests (hit : TestRun → Bool) (s : State) : State :=
  { s with test := { s.test with running := s.test.running.map fun r => if hit r then { r with stopped := true } else r } }

/-- A test covers a cavern: types 1 to 3 of it, and HARD (18_self_test_faults R437, R443). -/
def TestRun.covers (r : TestRun) (c : Nat) : Bool := (1 ≤ r.type && r.type ≤ 3 && r.target = c) || r.type = 5

/-! ### Modes -/

/-- The device passes to a mode: `LAST` and `PWR_EVT.MODE` (16_power R378, R410). -/
def enterMode (m : Mode) (s : State) : State :=
  if s.power.mode = m then s
  else flagPwr 0 (s.withPower fun p => { p with last := p.mode, mode := m })

/-- The code of a mode (16_power R378). -/
def Mode.code : Mode → Nat
  | .powerUp => 0 | .load => 1 | .start => 2 | .run => 3 | .quiet => 4 | .standby => 5 | .patrol => 6 | .deepSleep => 7
  | .selfTest => 8 | .maintenance => 9 | .faultHold => 10 | .loadFailed => 11

/-- SYS has its supply and its clocks: not held as at power-on reset, not in STANDBY, PATROL or DEEP SLEEP. -/
def State.sysRuns (s : State) : Bool :=
  !s.power.held && !s.power.retention &&
    (s.power.mode ≠ .standby && s.power.mode ≠ .patrol && s.power.mode ≠ .deepSleep)

/-- The hard blocks are in reset: from the start of a full load to START, and without their supplies (15_configuration R362, R367,
01_architecture R508). -/
def State.loading (s : State) : Bool :=
  s.power.held || !s.conf.started || s.power.mode = .patrol || s.power.mode = .deepSleep

/-- RUN has been reached since the last full load began, and SYS has its supplies (15_configuration R365, R366, 14_foreman R509). -/
def State.configured (s : State) : Bool := s.conf.ran && !s.loading

/-- `CFG_STATUS.BUSY`: a load of any kind is in progress, a verified partial image that awaits its `COMMIT` among them
(15_configuration R370, R377). -/
def State.loadBusy (s : State) : Bool := s.conf.load.isSome || s.conf.part.isSome

/-- A cause of FAULT HOLD is set: THERMAL, or SUPPLY or REG of VCCF, VCCL or VCCLH (16_power R407). -/
def State.holdCauses (s : State) : Bool :=
  s.power.thermal || [0, 2, 3].any fun r => tabGet false s.power.supply r || tabGet false s.power.regFault r

/-- `PWRS.PMB_EN` (16_power R402, R408). -/
def pmbEn (t : Tab Word) : Bool := cfgBits t 46 0 0 32 1 = 1

/-- VCCF commanded, while the device controls the regulators (16_power R401, R402). -/
def commandVccf (mv : Nat) (s : State) : State :=
  if pmbEn s.cfg then s.withPower fun p => { p with vccfCmd := mv } else s

/-- VCCS commanded, while the device controls the regulators (16_power R400, R402). -/
def commandVccs (mv : Nat) (s : State) : State :=
  if pmbEn s.cfg then s.withPower fun p => { p with vccsCmd := mv } else s

/-- OPERATION sent to rails: on, or immediate off (16_power R402). -/
def operateRails (rails : List Nat) (on : Bool) (s : State) : State :=
  s.withPower fun p => { p with railsOff := rails.foldl (fun t r => if on then tabErase t r else tabSet false t r true) p.railsOff }

/-- VCCS at a SYS operating point, in mV (16_power R400). -/
def pointVccs : SysPoint → Nat
  | .p0 => 800 | .p1 => 740 | .p2 => 700

/-- The exponent `VOUT_EXP` of an image, negated: 1 to 16 (16_power R402, R408). -/
def voutShift (t : Tab Word) : Nat := 32 - cfgBits t 46 0 0 79 5

/-- The mantissa that VOUT_COMMAND carries for a voltage in mV: LINEAR16, rounded to the nearest (16_power R402). -/
def linear16 (shift mv : Nat) : BitVec 16 := BitVec.ofNat 16 ((mv * 2 ^ shift * 2 + 1000) / 2000)

/-- Activity ends QUIET in the next SYS clock, and VCCF is commanded back to `SET_MV` (16_power R381). -/
def wakeActivity (s : State) : State :=
  if s.power.mode = .quiet then enterMode .run (commandVccf (s.field .pwrVccf 0 0 10) s) else s

end Sys2Proof.Machine
end

