-- ==== Sys2Proof/Machine/Access.lean ====
section
/-! DEFINITION. How a host port reaches the direct registers: what answers, what is recorded in GSTAT, and what a write does by access codes (00_scope R5 R6, 20_register_map R471 to R476). -/

namespace Sys2Proof.Machine

/-- The host ports answer while SYS runs (20_register_map R475, 16_power R390). -/
def State.hostAnswers (s : State) : Bool := s.sysRuns

/-- The order of the accesses of one clock: SPI, I2C, JTAG; what the image loads at START comes after them (20_register_map R476). -/
def writerRank : HostPort → Nat
  | .spi => 0 | .i2c => 1 | .jtag => 2

/-- The image, among the writers of one clock (20_register_map R476). -/
def imageRank : Nat := 3

/-- A writer of a later rank has written a register in this clock. -/
def State.outranked (s : State) (r a : Nat) : Bool := s.fresh.writes.any fun w => w.1 = a && r < w.2

/-- A register is written in this clock. -/
def noteWrite (r a : Nat) (s : State) : State :=
  s.withFresh fun f => { f with writes := (a, r) :: f.writes, period := a :: f.period }

/-- An access that had no effect is recorded: bit 0 `ACC_OFF`, bit 1 `ACC_RSV`; of two in one clock, the address of the one that comes
last in the order of R476 stands (20_register_map R474). -/
def noteAccess (p : HostPort) (b addr : Nat) (s : State) : State :=
  let s := s.setBits .gstat 0 (bitWord b)
  let at0 := RegKind.gstatAddr.addr 0
  if s.outranked (writerRank p) at0 then s else noteWrite (writerRank p) at0 (s.setReg .gstatAddr 0 (word addr))

/-- The lane whose registers an address belongs to (20_register_map R475). -/
def laneOfAddr (a : Nat) : Option Nat := if 0x80000 ≤ a ∧ a < 0x98000 then some ((a - 0x80000) / 0x400) else none

/-- A bench's domain is powered (16_power R398). -/
def State.benchOn (s : State) (b : Nat) : Bool := !(tabGet false s.power.lbOff b)

/-- The windows of the hard blocks that a full load holds in reset (20_register_map R475). -/
def heldWindow (a : Nat) : Bool := 0x80000 ≤ a && a < 0xE0000

/-- How an access to an address ends before the register is looked at. -/
inductive Reach where
  | silent | held | off | open
deriving DecidableEq, Repr

/-- R475: no answer, a block held in reset, a lane whose bench is off, or the register itself. -/
def State.reach (s : State) (a : Nat) : Reach :=
  if !s.hostAnswers then .silent
  else if heldWindow a && s.loading then .held
  else match laneOfAddr a with
    | some n => if s.benchOn (n / 4) then .open else .off
    | none => .open

/-- The events that some source raises (19_events_counters R458, 08_sump R196); the others are reserved. -/
def eventAssigned (n : Nat) : Bool :=
  n ≤ 19 || (32 ≤ n && n ≤ 42) || (64 ≤ n && n ≤ 259) || (264 ≤ n && n ≤ 353) || (360 ≤ n && n ≤ 383)

/-- The bits of group `i` of the event registers whose events are assigned (19_events_counters R470). -/
def eventMask (i : Nat) : Word := word ((List.range 32).foldl (fun m b => m + bitNat (eventAssigned (32 * i + b)) * 2 ^ b) 0)

/-- The bits of instance `i` of a register that a write may set. -/
def RegKind.writable (k : RegKind) (i : Nat) : Word :=
  match k with
  | .evtPend | .evtEn | .evtFm => eventMask i
  | _ => word (definedMask k.fields)

/-- A raise that met the clearing of its pending bit in one clock does not count in `EVT_MERGED` (19_events_counters R466). -/
def uncountMerged (i : Nat) (val : Word) (s : State) : State :=
  let hit := fun (n : Nat) => n / 32 = i && val.getLsbD (n % 32)
  let n := (s.fresh.merged.filter hit).length
  if n = 0 then s
  else
    ((s.setReg .evtMerged 0 (word ((s.reg .evtMerged 0).toNat - n))).withFresh fun f =>
      { f with merged := f.merged.filter fun e => !(hit e)
               counts := (RegKind.evtMerged.addr 0, s.freshCount .evtMerged 0 - n) ::
                 f.counts.filter fun e => e.1 ≠ RegKind.evtMerged.addr 0 })

/-- What a write leaves in a register by its access codes: RW fields take the value, W1C bits written 1 clear. -/
def codedValue (k : RegKind) (old val : Word) : Word :=
  ((old &&& ~~~ k.mask .rw) ||| (val &&& k.mask .rw)) &&& ~~~ (val &&& k.mask .w1c)

/-- The bits of a register that some field holds. -/
def RegKind.defined (k : RegKind) : Word := word (definedMask k.fields)

/-- A write by access codes (00_scope R5); the bits of reserved events ignore it (19_events_counters R470), and a bit that hardware has
set in this clock stays 1 (20_register_map R476). A write of `EVT_FM` marks the bits that it changes, one of `EVT_PEND` the merges of the
raises that it meets (19_events_counters R466). -/
def codedWrite (k : RegKind) (i : Nat) (val : Word) (s : State) : State :=
  let old := s.reg k i
  let new := codedValue k old (val &&& k.writable i &&& ~~~ (s.freshBits k i &&& k.mask .w1c))
  let s := s.setReg k i new
  match k with
  | .evtFm => s.withFresh fun f => { f with recorded := (i, old ^^^ new) :: f.recorded }
  | .evtPend => uncountMerged i val s
  | _ => s

/-- A write that sets a reserved bit is recorded (20_register_map R474). -/
def noteReserved (p : HostPort) (k : RegKind) (i : Nat) (val : Word) (s : State) : State :=
  if val &&& ~~~ k.writable i = 0 then s else noteAccess p 1 (k.addr i) s

/-- STANDBY, its entry or its exit, as a port other than the SPI target meets it (16_power R390, R392). -/
def State.heldStandby (s : State) (p : HostPort) : Bool :=
  !s.power.held && p ≠ .spi &&
  (s.power.mode = .standby || (match s.power.seq with | .entering .standby _ _ => true | _ => false))

/-- An access that arrives in STANDBY, or in its entry or exit, waits for the end of the exit: the I2C target holds HSCL low, and an
access of the access port has not completed; each port holds one (16_power R390, 17_pins R433; DESIGN CHOICE for JTAG, log 104). -/
def holdAccess (p : HostPort) (a : Word) (v : Option Word) (s : State) : State :=
  if s.heldStandby p && !(s.power.waiting.any fun w => w.1 = p) then
    s.withPower fun q => { q with waiting := q.waiting ++ [(p, a, v)] }
  else s

/-- The word that a command of its own writes to a register: `bits`, the read-write fields as they are. -/
def State.actWord (s : State) (k : RegKind) (i : Nat) (bits : Word) : Word := (s.reg k i &&& k.mask .rw) ||| bits

/-- A command of its own that writes `val` to a register, as `f` does it (00_scope R5, 20_register_map R474, R475). -/
def hostCommand (p : HostPort) (k : RegKind) (i : Nat) (val : Word) (f : State → State) (s : State) : State :=
  match s.reach (k.addr i) with
  | .open => f s
  | .off => noteAccess p 0 (k.addr i) s
  | .silent => holdAccess p (word (k.addr i)) (some val) s
  | .held => s

/-- As `hostCommand`, for a command that gives read-write fields their values: one that comes before another writer of the register in
this clock leaves them to it (20_register_map R476). -/
def hostField (p : HostPort) (k : RegKind) (i : Nat) (val : Word) (f : State → State) (s : State) : State :=
  hostCommand p k i val (fun s =>
    if s.outranked (writerRank p) (k.addr i) then noteReserved p k i val s else f (noteWrite (writerRank p) (k.addr i) s)) s

end Sys2Proof.Machine
end

