-- ==== Sys2Proof/Machine/Ecc.lean ====
section
/-! DEFINITION. The error-correcting code of 06_pockets R121 and R122, parity, and the CRC-32C of 12_lane_link R299. -/

namespace Sys2Proof.Machine

/-- The XOR of the bits of a number below a length. -/
def parityOf (len n : Nat) : Bool := (List.range len).foldl (fun p i => p != bitAt i n) false

/-- The codeword positions of data bits 0 to 63: 3 upward, powers of two left out (06_pockets R121). -/
def eccPositions : List Nat :=
  (List.range 72).filter fun p => 3 ≤ p && p ≠ 4 && p ≠ 8 && p ≠ 16 && p ≠ 32 && p ≠ 64

/-- The XOR of the positions of the data bits that are 1: its bit i is check bit ci, i from 0 to 6 (06_pockets R121). -/
def eccSum (d : Nat) : Nat :=
  ((List.range 64).zip eccPositions).foldl (fun x p => if bitAt p.1 d then x ^^^ p.2 else x) 0

/-- A row of 72 bits that holds data under the code (06_pockets R121). -/
def eccEncode (d : Nat) : Nat :=
  let d := d % 2 ^ 64
  let c := eccSum d
  let row := d + c * 2 ^ 64
  row + bitNat (parityOf 71 row) * 2 ^ 71

/-- What a read of a row under the code delivers. -/
inductive EccRead where
  | good (d : Nat)
  | corrected (d : Nat)
  | uncorrectable
deriving DecidableEq, Repr

/-- R122: syndrome and parity decide. -/
def eccDecode (row : Nat) : EccRead :=
  let d := row % 2 ^ 64
  let syn := eccSum d ^^^ bitsOf 64 7 row
  let p := parityOf 72 row
  if syn = 0 then (if p then .corrected d else .good d)
  else if p ∧ syn ≤ 71 then
    match ((List.range 64).zip eccPositions).find? fun q => q.2 = syn with
    | some q => .corrected (d ^^^ 2 ^ q.1)
    | none => .corrected d
  else .uncorrectable

/-- A row whose ninth bits are even parity of their bytes (06_pockets R120). -/
def parityRow (row : Nat) : Nat :=
  (List.range 8).foldl (fun r e =>
    let b := bitsOf (9 * e) 8 row
    r + (b + bitNat (parityOf 8 b) * 2 ^ 8) * 2 ^ (9 * e)) 0

/-- A group of 9 bits whose ninth bit is the parity of its byte. -/
def groupGood (g : Nat) : Bool := bitAt 8 g = parityOf 8 (bitsOf 0 8 g)

/-- One bit step of the reflected CRC-32C division. -/
def crcBit (c : Nat) : Nat := if c % 2 = 1 then (c / 2) ^^^ 0x82F63B78 else c / 2

/-- The CRC-32C register advanced by a byte. -/
def crcByte (c b : Nat) : Nat := crcBit (crcBit (crcBit (crcBit (crcBit (crcBit (crcBit (crcBit (c ^^^ b))))))))

/-- The CRC-32C register advanced by a word in the byte order of R4. -/
def crcWord (c w : Nat) : Nat :=
  crcByte (crcByte (crcByte (crcByte c (w % 256)) (w / 256 % 256)) (w / 65536 % 256)) (w / 16777216 % 256)

/-- The CRC-32C register advanced by words in order. -/
def crcWords (c : Nat) (ws : List Word) : Nat := ws.foldl (fun c w => crcWord c w.toNat) c

/-- The register before the first byte. -/
def crcInit : Nat := 0xFFFFFFFF

/-- The CRC-32C of words in order. -/
def crc32c (ws : List Word) : Word := word (crcWords crcInit ws ^^^ 0xFFFFFFFF)

end Sys2Proof.Machine
end

