-- ==== Sys2Proof/Machine/Coding.lean ====
section
/-! DEFINITION. The codes of the serial lanes, as functions on bits and symbols: symbol mapping and precoding (11_lane_electrical R247), the training burst and the test patterns (R264, R266), the scrambler (12_lane_link R280), and the 256b/257b transcoding and the RS(544,514) code of Clause 91 of IEEE 802.3-2022 (R282, R283). PRESUMED: what the spec takes from the standard by name is written here as the standard gives it (log 101). -/

namespace Sys2Proof.Machine

/-! ### Bits -/

/-- Bits of a number, bit 0 first. -/
def bitsLsb (len n : Nat) : List Bool := (List.range len).map fun i => bitAt i n
/-- The number of a list of bits, bit 0 first. -/
def natOfBits (l : List Bool) : Nat := l.foldr (fun b n => bitNat b + 2 * n) 0
/-- The ones among the bits of a number below a length. -/
def onesOf (len n : Nat) : Nat := (List.range len).foldl (fun k i => k + bitNat (bitAt i n)) 0
/-- The numbers that successive groups of `w` bits give. -/
def groupsOf (w : Nat) : Nat → List Bool → List Nat
  | 0, _ => []
  | k + 1, l => natOfBits (l.take w) :: groupsOf w k (l.drop w)

/-! ### Symbols (11_lane_electrical R247) -/

/-- R247: the Gray symbol of a bit pair, the first bit the more significant. -/
def graySymbol (a b : Bool) : Nat := match a, b with | false, false => 0 | false, true => 1 | true, true => 2 | true, false => 3
/-- R247: the bit pair of a Gray symbol. -/
def grayPair (g : Nat) : List Bool := match g with | 0 => [false, false] | 1 => [false, true] | 2 => [true, true] | _ => [true, false]
/-- R247: the precoder's symbol. -/
def precode (g p : Nat) : Nat := (g + 4 - p % 4) % 4
/-- R247: the receiver's symbol. -/
def unprecode (p q : Nat) : Nat := (p + q) % 4

/-- PAM4 symbols of bits in transmission order, through the precoder or past it. -/
def pamSymbols (pre : Bool) : Nat → List Bool → List Nat × Nat
  | p, a :: b :: rest =>
    let x := if pre then precode (graySymbol a b) p else graySymbol a b
    let r := pamSymbols pre x rest
    (x :: r.1, r.2)
  | p, _ => ([], p)

/-- R248: a symbol under polarity inversion. -/
def invertSymbol (pam inv : Bool) (x : Nat) : Nat := if inv then (if pam then 3 else 1) - x else x
/-- Three times the level of a symbol, scaled as 11_lane_electrical R253 scales it: -3, -1, 1, 3, or -3 and 3 on NRZ. -/
def levelOf (pam : Bool) (x : Nat) : Int := if pam then 2 * (x : Int) - 3 else 6 * (x : Int) - 3

/-! ### The scrambler (12_lane_link R280) -/

/-- One bit through x^58 + x^39 + 1: the shift register after it, and the bit out. -/
def scrambleBit (rx : Bool) (st : Nat) (b : Bool) : Nat × Bool :=
  let o := (b != bitAt 38 st) != bitAt 57 st
  ((2 * st + bitNat (if rx then b else o)) % 2 ^ 58, o)

/-- Some bits of a number, bit 0 first. -/
def scrambleBits (rx : Bool) (len st w : Nat) : Nat × Nat :=
  (List.range len).foldl (fun (a : Nat × Nat) i =>
    let r := scrambleBit rx a.1 (bitAt i w)
    (r.1, a.2 + bitNat r.2 * 2 ^ i)) (st, 0)

/-- 64 bits, bit 0 first. -/
def scrambleWord (rx : Bool) (st w : Nat) : Nat × Nat := scrambleBits rx 64 st w

/-! ### Patterns (11_lane_electrical R264, R266) -/

/-- The length and the taps of a PRBS code of R266. -/
def prbsTaps (code : Nat) : Option (Nat × Nat) :=
  match code with
  | 1 => some (7, 0x60)
  | 2 => some (9, 0x110)
  | 3 | 7 => some (13, 0x1803)
  | 4 => some (15, 0x6000)
  | 5 => some (23, 0x420000)
  | 6 | 8 => some (31, 0x48000000)
  | _ => none

/-- Bits of a PRBS from a register whose bit 0 is the latest bit, with the register after them. -/
def prbsBits (len taps : Nat) : Nat → Nat → List Bool × Nat
  | 0, g => ([], g)
  | k + 1, g =>
    let b := parityOf 31 (g &&& taps)
    let r := prbsBits len taps k ((2 * g + bitNat b) % 2 ^ len)
    (b :: r.1, r.2)

/-- A bit of a pattern that is no PRBS: the user word, or SSPRQ (R266). PRESUMED: the symbols of SSPRQ are Clause 120's. -/
def patternAt (code user i : Nat) : Bool :=
  if code = 9 then (grayPair (Config.ssprq (i / 2) % 4)).getD (i % 2) false else bitAt i user
/-- The period of such a pattern in bits. -/
def patternPeriod (code : Nat) : Nat := if code = 9 then 131070 else 64

/-- The next bit of a pattern and the generator's state after it: the register of a PRBS, the place in another pattern. -/
def patternNext (code user g : Nat) : Bool × Nat :=
  match prbsTaps code with
  | some (len, taps) =>
    let b := parityOf 31 (g &&& taps)
    (b, (2 * g + bitNat b) % 2 ^ len)
  | none => (patternAt code user g, (g + 1) % patternPeriod code)

/-- Bits of a pattern. -/
def patternBits (code user : Nat) : Nat → Nat → List Bool × Nat
  | 0, g => ([], g)
  | k + 1, g =>
    let n := patternNext code user g
    let r := patternBits code user k n.2
    (n.1 :: r.1, r.2)

/-- The place in a pattern that follows the last 64 bits received, the latest in bit 0, if they are a stretch of it. -/
def patternPlace (code user hist : Nat) : Option Nat :=
  let p := patternPeriod code
  ((List.range p).find? fun i => (List.range 64).all fun j => patternAt code user ((i + j) % p) = bitAt (63 - j) hist).map
    fun i => (i + 64) % p

/-- The PRBS13 half of a training burst as symbols: PRBS13Q on PAM4, from a register of ones (R264). -/
def burstPrbs (pam : Bool) : List Nat :=
  if pam then (pamSymbols false 0 (prbsBits 13 0x1803 4096 0x1FFF).1).1 else (prbsBits 13 0x1803 2048 0x1FFF).1.map bitNat

/-- A training burst of 4,096 UI: its clock half, then its PRBS13 half (R264). -/
def burstSymbols (pam : Bool) : List Nat :=
  (List.range 2048).map (fun i => (i % 2) * (if pam then 3 else 1)) ++ burstPrbs pam

/-- Symbol errors of a received PRBS13 half (R265); a symbol that did not arrive counts as one. -/
def burstErrors (pam : Bool) (got : List Nat) : Nat :=
  2048 - ((got.zip (burstPrbs pam)).countP fun p => p.1 = p.2)

/-! ### GF(2^10) -/

/-- A field element times x, modulo x^10 + x^3 + 1. -/
def gfDouble (a : Nat) : Nat := if 512 ≤ a then (2 * a) ^^^ 0x409 else 2 * a
/-- The product of two field elements. -/
def gfMul (a b : Nat) : Nat :=
  ((List.range 10).foldl (fun (r : Nat × Nat) i => (if bitAt i b then r.1 ^^^ r.2 else r.1, gfDouble r.2)) (0, a)).1
/-- A power of the element x. -/
def gfAlpha : Nat → Nat
  | 0 => 1
  | k + 1 => gfDouble (gfAlpha k)
/-- The inverse of a field element: its power 1,022. -/
def gfInv (a : Nat) : Nat :=
  ((List.range 9).foldl (fun (r : Nat × Nat) _ => let q := gfMul r.2 r.2; (gfMul r.1 q, q)) (1, a)).1
/-- The value of a polynomial whose constant comes first. -/
def gfEval (p : List Nat) (x : Nat) : Nat := p.foldr (fun c a => gfMul a x ^^^ c) 0
/-- The sum of two polynomials. -/
def gfAdd : List Nat → List Nat → List Nat
  | a :: p, b :: q => (a ^^^ b) :: gfAdd p q
  | [], q => q
  | p, [] => p
/-- The product of two polynomials. -/
def gfPolyMul : List Nat → List Nat → List Nat
  | [], _ => []
  | a :: p, q => gfAdd (q.map (gfMul a)) (0 :: gfPolyMul p q)

/-! ### RS(544,514) -/

/-- The generator polynomial, whose roots are the powers 0 to 29 of x. -/
def rsGenerator : List Nat := (List.range 30).foldl (fun p i => gfPolyMul [gfAlpha i, 1] p) [1]

/-- The 30 check symbols of a message, whose first symbol has the highest degree; the highest comes first. -/
def rsParity (m : List Nat) : List Nat :=
  let g := (rsGenerator.take 30).reverse
  m.foldl (fun r x =>
    let f := x ^^^ r.headD 0
    gfAdd (r.drop 1 ++ [0]) (g.map (gfMul f))) (List.replicate 30 0)

/-- The syndromes of a received word. -/
def rsSyndromes (c : List Nat) : List Nat :=
  (List.range 30).map fun j => let a := gfAlpha j; c.foldl (fun s x => gfMul s a ^^^ x) 0

/-- One round of Berlekamp and Massey: the locator, the one before, its length, the shift and the old discrepancy. -/
def bmRound (syn : List Nat) (n : Nat) (r : List Nat × List Nat × Nat × Nat × Nat) : List Nat × List Nat × Nat × Nat × Nat :=
  let (c, b, len, m, old) := r
  let d := (List.range (len + 1)).foldl (fun a i => a ^^^ gfMul (c.getD i 0) (if i ≤ n then syn.getD (n - i) 0 else 0)) 0
  if d = 0 then (c, b, len, m + 1, old)
  else
    let next := gfAdd c (List.replicate m 0 ++ b.map (gfMul (gfMul d (gfInv old))))
    if 2 * len ≤ n then (next, c, n + 1 - len, 1, d) else (next, b, len, m + 1, old)

/-- A received word decoded: the corrected word and the symbols corrected, at most 15; none where that is not enough. -/
def rsDecode (c : List Nat) : Option (List Nat × Nat) :=
  let syn := rsSyndromes c
  if syn.all (· = 0) then some (c, 0)
  else
    let r := (List.range 30).foldl (fun r n => bmRound syn n r) ([1], [1], 0, 1, 1)
    let loc := r.1
    let len := r.2.2.1
    let omega := (gfPolyMul syn loc).take 30
    let slope := (List.range len).map fun i => if i % 2 = 0 then loc.getD (i + 1) 0 else 0
    let fixes := (List.range 544).filterMap fun i =>
      let d := 543 - i
      let x := gfAlpha ((1023 - d) % 1023)
      if gfEval loc x = 0 then some (i, gfMul (gfAlpha d) (gfMul (gfEval omega x) (gfInv (gfEval slope x)))) else none
    let out := (List.range 544).map fun i => c.getD i 0 ^^^ ((fixes.find? (·.1 = i)).map (·.2)).getD 0
    if len ≤ 15 ∧ fixes.length = len ∧ (rsSyndromes out).all (· = 0) then some (out, len) else none

/-! ### 256b/257b transcoding -/

/-- A block is a data block, by its header. -/
def blockIsData (b : Block66) : Bool := b.hdr = 1
/-- The second nibble of the block type whose first nibble, in transmission order, is given. -/
def typeNibble (low : Nat) : Nat := [0, 0xE, 0xD, 3, 0xB, 5, 6, 8, 7, 9, 0xA, 4, 0xC, 2, 1, 0xF].getD low 0

/-- Four blocks as 257 bits: a group of data blocks whole; otherwise four flags, and the payloads without the second nibble of the first
control block's type. The first five bits are scrambled with bits 8 to 12. -/
def transcode (bs : List Block66) : Nat :=
  let pay := bs.foldr (fun b n => b.bits.toNat + 2 ^ 64 * n) 0
  let x :=
    if bs.all blockIsData then 1 + 2 * pay
    else
      let bad := bs.any fun b => b.hdr = 0 || b.hdr = 3
      let c := if bad then 0 else (bs.findIdx? fun b => b.hdr = 2).getD 0
      let flags := natOfBits (bs.map fun b => bad || blockIsData b)
      2 * flags + place 5 (64 * c + 4) (pay % 2 ^ (64 * c + 4)) + pay / 2 ^ (64 * c + 8) * 2 ^ (64 * c + 9)
  x ^^^ bitsOf 8 5 x

/-- 257 bits as four blocks. The payloads are scrambled: the nibble left out is found from the first nibble descrambled, and scrambled
again; `hist` is the descrambler's register before the group. -/
def untranscode (hist x : Nat) : List Block66 :=
  let x := x ^^^ bitsOf 8 5 x
  let block := fun (hdr pay j : Nat) => (⟨BitVec.ofNat 2 hdr, BitVec.ofNat 64 (bitsOf (64 * j) 64 pay)⟩ : Block66)
  if bitAt 0 x then (List.range 4).map (block 1 (x / 2))
  else
    let flags := bitsOf 1 4 x
    let c := ((List.range 4).find? fun j => !(bitAt j flags)).getD 0
    let low := bitsOf 5 (64 * c + 4) x
    let h := (scrambleBits true (64 * c) hist (low % 2 ^ (64 * c))).1
    let g := scrambleBits true 4 h (bitsOf (64 * c) 4 low)
    let nib := (scrambleBits false 4 g.1 (typeNibble g.2)).2
    let pay := low + nib * 2 ^ (64 * c + 4) + x / 2 ^ (64 * c + 9) * 2 ^ (64 * c + 8)
    (List.range 4).map fun j => block (if flags = 15 then 0 else if bitAt j flags then 1 else 2) pay j

/-- Eighty blocks as the 5,440 bits of a codeword (12_lane_link R283). -/
def codewordBits (bs : List Block66) : List Bool :=
  let msg := (List.range 20).flatMap fun i => bitsLsb 257 (transcode ((bs.drop (4 * i)).take 4))
  let m := groupsOf 10 514 msg
  (m ++ rsParity m).flatMap (bitsLsb 10)

/-- The eighty blocks of a codeword's message symbols, with the descrambler's register before them. -/
def codewordBlocks (hist : Nat) (syms : List Nat) : List Block66 :=
  let xs := groupsOf 257 20 ((syms.take 514).flatMap (bitsLsb 10))
  (xs.foldl (fun (r : List Block66 × Nat) x =>
    let bs := untranscode r.2 x
    (r.1 ++ bs, bs.foldl (fun h b => (scrambleWord true h b.bits.toNat).1) r.2)) ([], hist)).1

end Sys2Proof.Machine
end

