-- ==== Sys2Proof/Machine/Sump.lean ====
section
/-! DEFINITION. The Sump queue manager (08_sump): cells, packets and descriptors, pushes, pops, visibility, flush, the stale-queue timer and the end of a clock. -/

namespace Sys2Proof.Machine

/-! ### Settings and access -/

/-- Bits of a queue's settings (08_sump R176). -/
def qCfg (t : Tab Word) (q lo len : Nat) : Nat := cfgBits t 43 (q / 64) 0 (64 * (q % 64) + lo) len
/-- `Q.EN`. -/
def qEn (t : Tab Word) (q : Nat) : Bool := qCfg t q 0 1 = 1
/-- `Q.PKT`. -/
def qPkt (t : Tab Word) (q : Nat) : Bool := qCfg t q 1 1 = 1
/-- `Q.CMODE`. -/
def qCmode (t : Tab Word) (q : Nat) : Bool := qCfg t q 2 1 = 1
/-- `Q.STALE`. -/
def qStale (t : Tab Word) (q : Nat) : Nat := qCfg t q 3 5
/-- `Q.THRESH`. -/
def qThresh (t : Tab Word) (q : Nat) : Nat := qCfg t q 8 8
/-- `Q.QUOTA`. -/
def qQuota (t : Tab Word) (q : Nat) : Nat := qCfg t q 16 16
/-- Port `p` may push (`Q.PMASK`). -/
def qMayPush (t : Tab Word) (q p : Nat) : Bool := qCfg t q (32 + p) 1 = 1
/-- Port `p` may pop (`Q.CMASK`). -/
def qMayPop (t : Tab Word) (q p : Nat) : Bool := qCfg t q (36 + p) 1 = 1

/-- The Sump changed. -/
def State.withSump (s : State) (f : Sump → Sump) : State := { s with sump := f s.sump }
/-- A queue. -/
def State.queue (s : State) (q : Nat) : SQueue := tabGet {} s.sump.queues q
/-- A queue changed. -/
def State.modQueue (s : State) (q : Nat) (f : SQueue → SQueue) : State :=
  s.withSump fun u => { u with queues := tabMod {} u.queues q f }
/-- A descriptor. -/
def State.desc (s : State) (d : Nat) : SDesc := tabGet {} s.sump.descs d
/-- A descriptor changed. -/
def State.modDesc (s : State) (d : Nat) (f : SDesc → SDesc) : State :=
  s.withSump fun u => { u with descs := tabMod {} u.descs d f }
/-- A cell of the Sump. -/
def State.scell (s : State) (c : Nat) : SCell := tabGet {} s.sump.cells c
/-- A cell of the Sump changed. -/
def State.modSCell (s : State) (c : Nat) (f : SCell → SCell) : State :=
  s.withSump fun u => { u with cells := tabMod {} u.cells c f }

/-- A tag from its fields (08_sump R170). -/
def sumpTag (nv sop eop bad mark err stale pend trunc : Bool) (bytes : Nat) : BitVec 16 :=
  BitVec.ofNat 16 (place 15 1 (bitNat nv) + place 14 1 (bitNat sop) + place 13 1 (bitNat eop) + place 12 1 (bitNat bad) +
    place 11 1 (bitNat mark) + place 10 1 (bitNat err) + place 9 1 (bitNat stale) + place 8 1 (bitNat pend) +
    place 7 1 (bitNat trunc) + place 0 7 bytes)

/-- The not-valid beat (08_sump R184). -/
def notValidBeat (pend : Bool) : SumpBeat :=
  { data := 0, tag := sumpTag true false false false false false false pend false 0 }

/-! ### Counts and levels -/

/-- A counter of R194: `SUMP_OVF` bit `n` and `SUMP_EVT.CNT_OVF` at saturation. -/
def countSump (k : RegKind) (n : Nat) (s : State) : State :=
  countStat k 0 (fun s => flagSump 3 (s.setBits .sumpOvf 0 (bitWord n))) s

/-- A 64-bit count of Q_COUNTERS advanced (19_events_counters R467, R469). -/
def count64 (v n : Nat) : Nat := min (v + n) (2 ^ 64 - 1)

/-- Packets and bytes counted on the push side. -/
def countIn (q pkts bytes : Nat) (s : State) : State :=
  let v := s.queue q
  let s := s.modQueue q fun v => { v with pktsIn := count64 v.pktsIn pkts, bytesIn := count64 v.bytesIn bytes }
  let w := s.queue q
  if (v.pktsIn < 2 ^ 64 - 1 ∧ w.pktsIn = 2 ^ 64 - 1) ∨ (v.bytesIn < 2 ^ 64 - 1 ∧ w.bytesIn = 2 ^ 64 - 1) then evtOverflow 3 s
  else s

/-- Packets and bytes counted on the pop side. -/
def countOut (q pkts bytes : Nat) (s : State) : State :=
  let v := s.queue q
  let s := s.modQueue q fun v => { v with pktsOut := count64 v.pktsOut pkts, bytesOut := count64 v.bytesOut bytes }
  let w := s.queue q
  if (v.pktsOut < 2 ^ 64 - 1 ∧ w.pktsOut = 2 ^ 64 - 1) ∨ (v.bytesOut < 2 ^ 64 - 1 ∧ w.bytesOut = 2 ^ 64 - 1) then evtOverflow 3 s
  else s

/-- Free cells, reservations taken off (08_sump R179, R193). -/
def State.freeCells (s : State) : Nat := 32768 - s.sump.freshCell + s.sump.freeCells.length - s.sump.resv.length

/-- Free descriptors, reservations taken off. -/
def State.freeDescs (s : State) : Nat :=
  16384 - s.sump.freshDesc + s.sump.freeDescs.length - (s.sump.resv.filter (·.desc)).length

/-- The flags of R193 for levels that fell since `old`. -/
def watchLevels (old s : State) : State :=
  let low := s.field .sumpLowmark 0 0 16
  let s := if low ≤ old.freeCells ∧ s.freeCells < low then flagSump 0 s else s
  let s := if 0 < old.freeCells ∧ s.freeCells = 0 then flagSump 1 s else s
  if 0 < old.freeDescs ∧ s.freeDescs = 0 then flagSump 2 s else s

/-- Cells that count against a queue's quota, reservations among them (08_sump R178, R179). -/
def State.quotaCells (s : State) (q : Nat) : Nat :=
  (s.queue q).held + (s.sump.resv.filter fun r => r.queue = q).length

/-- The queue holds a cell that nothing has taken in this clock (08_sump R184, R189). -/
def State.holdsCell (s : State) (q : Nat) : Bool :=
  (s.sump.gone.filter fun c => (s.scell c).queue = q).length < (s.queue q).held

/-- The queue is in commit mode in this clock (08_sump R180). -/
def State.commitMode (s : State) (q : Nat) : Bool :=
  qPkt s.cfg q && (qCmode s.cfg q || s.sump.devCommit || (s.queue q).recoverWas)

/-! ### Allocation -/

/-- The head of the free list taken. -/
def takeCell (s : State) : Nat × State :=
  if s.sump.freshCell < 32768 then (s.sump.freshCell, s.withSump fun u => { u with freshCell := u.freshCell + 1 })
  else match s.sump.freeCells with
    | c :: r => (c, s.withSump fun u => { u with freeCells := r })
    | [] => (0, s)

/-- A free descriptor taken. -/
def takeDesc (s : State) : Nat × State :=
  if s.sump.freshDesc < 16384 then (s.sump.freshDesc, s.withSump fun u => { u with freshDesc := u.freshDesc + 1 })
  else match s.sump.freeDescs with
    | d :: r => (d, s.withSump fun u => { u with freeDescs := r })
    | [] => (0, s)

/-- A beat put into a fresh cell of a queue: the cell counts toward the quota from here (08_sump R178). -/
def newCell (port q : Nat) (d : Option Nat) (b : SumpBeat) (full : Bool) (s : State) : Nat × State :=
  let s := if s.holdsCell q then s else s.modQueue q fun v => { v with timer := 0 }
  let (c, s) := takeCell s
  let s := s.modSCell c fun _ => { beats := [b], queue := q, port := port, desc := d, full := full }
  (c, s.modQueue q fun v => { v with held := v.held + 1 })

/-! ### The end of packets -/

/-- The packet that a producer has in progress on a queue. -/
def State.inProgress (s : State) (q : Nat) (p : Producer) : Option Nat :=
  ((s.queue q).prog.find? fun e => e.1 = p).map (·.2)

/-- A packet's cells and descriptor given back at the end of this clock, and the packet out of its queue. -/
def dropPacket (d : Nat) (s : State) : State :=
  let v := s.desc d
  let s := s.withSump fun u =>
    { u with gone := u.gone ++ v.cells, goneDescs := u.goneDescs ++ [d],
             doneCells := u.doneCells.filter fun c => !v.cells.contains c,
             release := u.release.filter (· ≠ d) }
  let s := s.modDesc d fun v => { v with cells := [] }
  s.modQueue v.queue fun w =>
    { w with vis := w.vis.filter (· ≠ d), opens := w.opens.filter (· ≠ d), prog := w.prog.filter (·.2 ≠ d)
             doomed := w.doomed.filter (· ≠ d) }

/-- R182: an open bad packet is rewound. -/
def rewind (d : Nat) (s : State) : State := flagSump 8 (countSump .sumpCntRewind 2 (dropPacket d s))

/-- R182: the Sump closes a packet in progress of a producer as bad; the producer's further beats are discarded up to its `EOP`. -/
def closeDesc (q : Nat) (p : Producer) (d : Nat) (s : State) : State :=
  let s := s.modQueue q fun v =>
    { v with prog := v.prog.filter (·.1 ≠ p), dropping := if v.dropping.contains p then v.dropping else v.dropping ++ [p] }
  let v := s.desc d
  if v.vis then
    let s := s.modDesc d fun v => { v with trunc := true, bad := true }
    let s := match v.cells.getLast? with
      | some c => s.modSCell c fun w => { w with full := true }
      | none => s
    flagSump 9 (countSump .sumpCntTrunc 3 s)
  else rewind d s

/-- R182: a producer's packet in progress closed, if it has one. -/
def closePacket (q : Nat) (p : Producer) (s : State) : State :=
  match s.inProgress q p with
  | none => s
  | some d => closeDesc q p d s

/-- R183: an interrupted producer: `RECOVER` is set, and its packet in progress is closed. -/
def interruptProducer (q : Nat) (p : Producer) (s : State) : State :=
  let s := s.modQueue q fun v => { v with recover := true }
  let s := (s.queue q).opens.foldl (fun s d => s.modDesc d fun v => { v with fresh := false }) s
  let s := (s.queue q).vis.foldl (fun s d => s.modDesc d fun v => { v with fresh := false }) s
  closePacket q p s

/-- A case of R175 counted. -/
def seqError (s : State) : State := flagSump 6 (countSump .sumpCntSeqerr 8 s)

/-! ### Pushing -/

/-- The answer to a beat that is offered (08_sump R178). -/
inductive PushAnswer where
  | taken | disabled | notOwner | noDesc | full
deriving DecidableEq, Repr

/-- The code of an answer, as the port keeps it. -/
def PushAnswer.code : PushAnswer → Nat
  | .taken => 0 | .disabled => 1 | .notOwner => 2 | .noDesc => 3 | .full => 4

/-- R178: the checks of an attempt, in their order; `held` is a reservation that the producer brings. -/
def pushCheck (port q : Nat) (sop heldCell heldDesc : Bool) (s : State) : PushAnswer × State :=
  if !(qEn s.cfg q) then (.disabled, s)
  else if !(qMayPush s.cfg q port) then (.notOwner, s)
  else if qPkt s.cfg q && sop && !heldDesc && s.freeDescs = 0 then (.noDesc, countSump .sumpCntNodesc 1 s)
  else if !heldCell && ((qQuota s.cfg q ≠ 0 && qQuota s.cfg q ≤ s.quotaCells q) || s.freeCells = 0) then
    (.full, countSump .sumpCntFull 0 s)
  else (.taken, s)

/-- The reservation of a client on a queue. -/
def State.resvOf (s : State) (p : Producer) (q : Nat) : Option SResv :=
  s.sump.resv.find? fun r => r.producer = p ∧ r.queue = q

/-- A reservation given back. -/
def dropResv (r : SResv) (s : State) : State := s.withSump fun u => { u with resv := u.resv.erase r }

/-- A beat of a packet taken into its descriptor; the packet's end on `EOP` (08_sump R172, R182). `err` says that it was pushed with
`ERR`. -/
def packetBeat (q d : Nat) (b : SumpBeat) (err : Bool) (s : State) : State :=
  let s := s.modDesc d fun v =>
    { v with len := v.len + b.bytes, mark := v.mark || b.mark, bad := v.bad || err || (b.eop && b.bad) }
  let s := countIn q (bitNat b.eop) b.bytes s
  if b.eop then
    let s := s.modQueue q fun v => { v with prog := v.prog.filter (·.2 ≠ d) }
    if (s.desc d).bad ∧ (s.desc d).vis = false then rewind d s else s
  else s

/-- A beat put into a fresh cell of a packet. -/
def packetCell (port q d : Nat) (b : SumpBeat) (err : Bool) (s : State) : State :=
  let (c, s) := newCell port q (some d) b b.eop s
  let s := s.modDesc d fun v => { v with cells := v.cells ++ [c], tail := c, total := v.total + 1 }
  packetBeat q d b err s

/-- A packet's cell completed by its second beat. -/
def packetFill (q d c : Nat) (b : SumpBeat) (err : Bool) (s : State) : State :=
  packetBeat q d b err (s.modSCell c fun w => { w with beats := w.beats ++ [b], full := true })

/-- The last cell of a packet has room for a beat (08_sump R178). -/
def State.roomCell (s : State) (d : Nat) : Option Nat :=
  match (s.desc d).cells.getLast? with
  | some c => if (s.scell c).full then none else some c
  | none => none

/-- R178, R175: one beat offered at a port by a producer. -/
def pushBeat (port q : Nat) (p : Producer) (b0 : SumpBeat) (s : State) : PushAnswer × State :=
  let b := b0.stored
  let old := s
  let resv := s.resvOf p q
  let heldCell := resv.isSome
  let heldDesc := match resv with | some r => r.desc | none => false
  let useResv := fun (s : State) => match resv with | some r => dropResv r s | none => s
  if qPkt s.cfg q = false then
    match pushCheck port q false heldCell heldDesc s with
    | (.taken, s) =>
      let (c, s) := newCell port q none b true (useResv s)
      let s := s.modQueue q fun v => { v with stream := v.stream ++ [c] }
      (.taken, watchLevels old (countIn q 0 b.bytes s))
    | r => r
  else if b.sop then
    match pushCheck port q true heldCell heldDesc s with
    | (.taken, s) =>
      let s := if (s.inProgress q p).isSome then closePacket q p (seqError s) else s
      let (d, s) := takeDesc (useResv s)
      let s := s.modDesc d fun _ => { used := true, queue := q, fresh := (s.queue q).recover }
      let s := s.modQueue q fun v =>
        { v with opens := v.opens ++ [d], prog := v.prog ++ [(p, d)], dropping := v.dropping.filter (· ≠ p) }
      (.taken, watchLevels old (packetCell port q d b b0.err s))
    | r => r
  else
    match s.inProgress q p with
    | none =>
      if (s.queue q).dropping.contains p then
        (.taken, if b.eop then s.modQueue q fun v => { v with dropping := v.dropping.filter (· ≠ p) } else s)
      else (.taken, seqError s)
    | some d =>
      match s.roomCell d with
      | some c => (.taken, packetFill q d c b b0.err s)
      | none =>
        if (s.desc d).total = 256 then
          let s := closePacket q p (seqError s)
          (.taken, if b.eop then s.modQueue q fun v => { v with dropping := v.dropping.filter (· ≠ p) } else s)
        else
          match pushCheck port q false heldCell heldDesc s with
          | (.taken, s) => (.taken, watchLevels old (packetCell port q d b b0.err (useResv s)))
          | r => r

/-- R179: the reservation that a Crusher client's readiness makes; it fails as a push attempt would. -/
def reserve (port q : Nat) (p : Producer) (begins : Bool) (s : State) : Bool × State :=
  match pushCheck port q begins false false s with
  | (.taken, s') =>
    (true, watchLevels s (s'.withSump fun u =>
      { u with resv := u.resv ++ [{ producer := p, queue := q, desc := begins && qPkt s.cfg q }] }))
  | (_, s') => (false, s')

/-! ### Commit -/

/-- The port that bank `c` mod 64 serves in clock `t` (08_sump R168). -/
def bankPort (c t : Nat) : Nat := (c % 64 + t) % 4

/-- R178, R168: a complete cell is written to its bank in a clock in which its port owns the bank, one cell a clock from each port
(R169). -/
def commitCell (port c : Nat) (s : State) : State :=
  let v := s.scell c
  if v.full ∧ v.committed = false ∧ v.port = port ∧ bankPort c s.clocks.sys = port ∧ !(s.sump.gone.contains c) ∧
      !(s.sump.doneCells.any fun e => (s.scell e).port = port) ∧ !(s.sump.scrubbed.contains (c % 64)) then
    s.withSump fun u => { u with doneCells := u.doneCells ++ [c] }
  else s

/-! ### Popping -/

/-- Something done a number of times. -/
def times : Nat → (State → State) → State → State
  | 0, _, s => s
  | n + 1, f, s => times n f (f s)

/-- The bits of a mask that are 1. -/
def bitCount {w : Nat} (m : BitVec w) : Nat := ((List.range w).filter fun i => m.getLsbD i).length

/-- Corrected and uncorrectable groups of a popped beat counted, each of them; an uncorrectable one is logged (08_sump R191,
18_self_test_faults R453). -/
def popErrors (c : Nat) (fixed bad : BitVec 16) (s : State) : State :=
  let s := times (bitCount (fixed &&& ~~~bad)) (fun s => flagSump 4 (countSump .sumpCntCorr 6 s)) s
  times (bitCount bad) (fun s => logFault 0x05 c (flagSump 5 (countSump .sumpCntUncorr 7 s))) s

/-- What a pop gives: the cell that is read, none where none is, and the beats. -/
abbrev Popped := Option Nat × List SumpBeat

/-- A not-valid beat returned and counted. -/
def popNothing (pend : Bool) (s : State) : Popped × State :=
  ((none, [notValidBeat pend]), countSump .sumpCntEmpty 9 s)

/-- The beats of a cell as a pop returns them. -/
def popBeats (bs : List SumpBeat) (bad0 bad1 : Bool) (d : Option SDesc) : List SumpBeat :=
  let one := fun (b : SumpBeat) (e : Bool) (first : Bool) =>
    match d with
    | none => { b with tag := b.tag ||| (if e then 0x400#16 else 0#16) }
    | some v => { b with tag := b.tag ||| (if e then 0x400#16 else 0#16) ||| (if v.mark then 0x800#16 else 0#16) |||
        (if b.eop && (v.bad || bad0 || bad1) then 0x1000#16 else 0#16) |||
        (if first && v.stale then 0x200#16 else 0#16) }
  match bs, d with
  | [a], some v => [one a bad0 (!v.begun)]
  | [a, b], some v => [one a bad0 (!v.begun), one b bad1 false]
  | [a], none => [one a bad0 false]
  | _, _ => bs

/-- R184: one pop of a queue from a port. `e0` and `e1` are what the error logic finds in the cell's beats (R191). -/
def popQueue (port q : Nat) (e0 e1 : BeatFound) (s : State) : Popped × State :=
  if qEn s.cfg q = false ∨ qMayPop s.cfg q port = false then popNothing false s
  else if qPkt s.cfg q then
    match (s.queue q).vis with
    | [] => popNothing (s.holdsCell q) s
    | d :: _ =>
      let v := s.desc d
      match v.cells with
      | [] =>
        if v.trunc then
          let b : SumpBeat := { data := 0, tag := sumpTag false false true true v.mark false false false true 0 }
          ((none, [b]), countOut q 1 0 (dropPacket d s))
        else popNothing (s.holdsCell q) s
      | c :: rest =>
        let w := s.scell c
        if w.committed then
          let bad0 := w.err0 ||| e0.bad
          let bad1 := if 1 < w.beats.length then w.err1 ||| e1.bad else 0
          let s := popErrors c e0.corrected bad0 s
          let s := if 1 < w.beats.length then popErrors c e1.corrected bad1 s else s
          let out := popBeats w.beats (bad0 ≠ 0) (bad1 ≠ 0) (some v)
          let s := s.modDesc d fun v => { v with cells := rest, begun := true, bad := v.bad || bad0 ≠ 0 || bad1 ≠ 0 }
          let s := s.withSump fun u => { u with gone := u.gone ++ [c] }
          let s := s.modQueue q fun x => { x with timer := 0 }
          let ended := w.beats.any SumpBeat.eop
          let s := countOut q (bitNat ended) (w.beats.map SumpBeat.bytes).sum s
          ((some c, out), if ended then dropPacket d s else s)
        else popNothing (s.holdsCell q) s
  else
    match (s.queue q).stream with
    | [] => popNothing (s.holdsCell q) s
    | c :: rest =>
      let w := s.scell c
      if w.committed then
        let bad0 := w.err0 ||| e0.bad
        let s := popErrors c e0.corrected bad0 s
        let s := s.withSump fun u => { u with gone := u.gone ++ [c] }
        let s := s.modQueue q fun x => { x with timer := 0, stream := rest, doomed := x.doomed.filter (· ≠ c) }
        ((some c, popBeats w.beats (bad0 ≠ 0) false none), countOut q 0 (w.beats.map SumpBeat.bytes).sum s)
      else popNothing (s.holdsCell q) s

/-! ### Flush and RECOVER -/

/-- R188: a flush written. It is taken at the end of its clock, after that clock's pops and pushes (R187). -/
def flushQueue (q : Nat) (s : State) : State :=
  if (s.queue q).flushing || s.sump.flushes.contains q then s else s.withSump fun u => { u with flushes := u.flushes ++ [q] }

/-- R188: what a flush discards is fixed; the discards follow clock by clock. The producers of open packets have their further beats
discarded from here, those of a visible packet from its discard. -/
def beginFlush (q : Nat) (s : State) : State :=
  if qPkt s.cfg q then
    let opens := (s.queue q).opens
    let unread := (s.queue q).vis.filter fun d => (s.desc d).begun = false
    let s := s.withSump fun u => { u with release := u.release.filter fun d => !opens.contains d }
    s.modQueue q fun v =>
      { v with
        flushing := true, opens := [], doomed := opens ++ unread
        prog := v.prog.filter fun e => !opens.contains e.2
        dropping := v.dropping ++ ((v.prog.filter fun e => opens.contains e.2).map (·.1)).filter
          fun p => !v.dropping.contains p }
  else
    s.modQueue q fun v => { v with flushing := true, doomed := v.stream.filter fun c => (s.scell c).committed }

/-- One discard of a flush: a packet that a consumer has begun meanwhile stays, and goes on with its producer. -/
def discardOne (q : Nat) (s : State) : State :=
  match (s.queue q).doomed with
  | [] => s
  | d :: rest =>
    let s := s.modQueue q fun v => { v with doomed := rest }
    if qPkt s.cfg q then
      if (s.desc d).begun ∨ (s.desc d).used = false then s
      else
        let s := s.modQueue q fun v =>
          { v with dropping := v.dropping ++ ((v.prog.filter fun e => e.2 = d).map (·.1)).filter fun p => !v.dropping.contains p }
        countSump .sumpCntFlushed 4 (dropPacket d s)
    else
      let s := s.modQueue q fun v => { v with stream := v.stream.filter (· ≠ d) }
      countSump .sumpCntFlushed 4 (s.withSump fun u => { u with gone := u.gone ++ [d] })

/-- Every discard that a flush still owes. -/
def discardAll (q : Nat) (s : State) : State := (s.queue q).doomed.foldl (fun s _ => discardOne q s) s

/-- R188: the flush ends. -/
def flushDone (q : Nat) (s : State) : State :=
  if (s.queue q).flushing then
    flagSump 7 ((discardAll q s).modQueue q fun v => { v with flushing := false, doomed := [] })
  else s

/-- R183: `RECOVER` cleared. -/
def recoverClear (q : Nat) (s : State) : State := s.modQueue q fun v => { v with recover := false }

/-! ### The stale-queue timer -/

/-- The times of R189 in microseconds, by code; code 0 has no timer. -/
def staleTime (code : Nat) : Nat :=
  [0, 1, 2, 5, 10, 20, 50, 100, 200, 500, 1000, 2000, 5000, 10000, 20000, 50000, 100000, 200000, 500000, 1000000].getD code 0

/-- The timer has reached the tick at which it expires (08_sump R189). -/
def State.staleDue (s : State) (q : Nat) : Bool :=
  qStale s.cfg q ≠ 0 && s.holdsCell q && staleTime (qStale s.cfg q) + 1 ≤ (s.queue q).timer

/-- STALE_TIMER_EXPIRY: an expiry is taken at the end of its clock; a pop that returns a cell in that clock prevents it (R187). -/
def staleExpiry (q : Nat) (s : State) : State :=
  if s.staleDue q ∧ s.sump.expiring.contains q = false then s.withSump fun u => { u with expiring := u.expiring ++ [q] } else s

/-- R190: the expiry of a timer. -/
def expire (q : Nat) (s : State) : State :=
  if s.staleDue q then
    let s := flagSump 10 (countSump .sumpCntStale 5 (flagStale q (s.modQueue q fun v => { v with timer := 0 })))
    match qPkt s.cfg q, (s.queue q).opens with
    | true, d :: _ =>
      if s.commitMode q then
        -- closed as bad and rewound; a producer still in it has its further beats discarded
        match (s.queue q).prog.find? fun e => e.2 = d with
        | some e => closeDesc q e.1 d s
        | none => rewind d s
      else s.withSump fun u => { u with release := if u.release.contains d then u.release else u.release ++ [d] }
    | _, _ => s
  else s

/-! ### The end of a clock -/

/-- A commit takes hold: the cell may be read, `DESC.END`, and the end of `RECOVER` (08_sump R178, R183). -/
def applyCommit (c : Nat) (s : State) : State :=
  let s := s.modSCell c fun v => { v with committed := true }
  let v := s.scell c
  match v.desc with
  | none => s
  | some d =>
    if v.beats.any SumpBeat.eop then
      let s := s.modDesc d fun w => { w with ended := true }
      -- an open packet in which the scrubber has found an uncorrectable group meanwhile ends bad (R182, R191)
      if (s.desc d).bad then (if (s.desc d).vis then s else rewind d s)
      else if (s.desc d).fresh then recoverClear v.queue s else s
    else s

/-- A packet takes its place in its queue (08_sump R174, R181). -/
def makeVisible (d : Nat) (s : State) : State :=
  let q := (s.desc d).queue
  (s.modDesc d fun v => { v with vis := true }).modQueue q fun v =>
    { v with opens := v.opens.filter (· ≠ d), vis := v.vis ++ [d] }

/-- R181: an open packet that becomes visible at the end of this clock. -/
def State.turnsVisible (s : State) (q d : Nat) : Bool :=
  let v := s.desc d
  let n := (v.cells.filter fun c => (s.scell c).committed).length
  (!(s.commitMode q) && qThresh s.cfg q ≠ 0 && qThresh s.cfg q ≤ n) || (v.ended && !v.bad)

/-- The queues whose commit mode changes at the end of this clock (08_sump R180, R193). -/
def State.modeChanges (s : State) (dev : Bool) : Bool :=
  let differs := fun q => qEn s.cfg q && qPkt s.cfg q && !(qCmode s.cfg q) &&
    (s.sump.devCommit || (s.queue q).recoverWas) != (dev || (s.queue q).recover)
  if dev = s.sump.devCommit then s.sump.queues.any fun e => differs e.1 else (List.range 2048).any differs

/-- The device commits every queue (08_sump R180). -/
def State.deviceCommit (s : State) : Bool :=
  s.power.mode = .start || s.power.mode = .selfTest || s.power.mode = .faultHold

/-- Cells and descriptors given back (08_sump R184, R173: a freed descriptor reads zero). -/
def freeGone (s : State) : State :=
  let gone := s.sump.gone
  let s := gone.foldl (fun s c => s.modQueue (s.scell c).queue fun v => { v with held := v.held - 1 }) s
  s.withSump fun u =>
    { u with cells := u.cells.filter fun e => !gone.contains e.1
             descs := u.descs.filter fun e => !u.goneDescs.contains e.1
             freeCells := u.freeCells ++ gone, freeDescs := u.freeDescs ++ u.goneDescs, gone := [], goneDescs := [] }

/-- The end of a clock: expiries, commits, flushes, visibility, discards, freed cells, and commit modes (08_sump R180 to R190). -/
def sumpClock (s : State) : State :=
  let s := (s.sump.expiring.foldl (fun s q => expire q s) s).withSump fun u => { u with expiring := [] }
  let s := (s.sump.doneCells.foldl (fun s c => applyCommit c s) s).withSump fun u => { u with doneCells := [] }
  let s := (s.sump.flushes.foldl (fun s q => beginFlush q s) s).withSump fun u => { u with flushes := [] }
  let s := s.sump.queues.foldl (fun s e =>
    (s.queue e.1).opens.foldl (fun s d => if s.turnsVisible e.1 d then makeVisible d s else s) s) s
  let s := s.sump.release.foldl (fun s d =>
    if (s.desc d).used ∧ (s.desc d).vis = false then makeVisible d (s.modDesc d fun v => { v with stale := true }) else s) s
  let s := s.withSump fun u => { u with release := [] }
  let s := s.sump.queues.foldl (fun s e => if (s.queue e.1).flushing then discardOne e.1 s else s) s
  let s := freeGone s
  let dev := s.deviceCommit
  let changed := s.modeChanges dev
  let s := s.withSump fun u =>
    { u with devCommit := dev, moved := [], scrubbed := [], queues := u.queues.filterMap fun e =>
        let v : SQueue := { e.2 with recoverWas := e.2.recover }
        if v = {} then none else some (e.1, v) }
  if changed then flagSump 11 s else s

/-- The microsecond tick of every timer (08_sump R189). -/
def sumpMicro (s : State) : State :=
  s.sump.queues.foldl (fun s e =>
    if qStale s.cfg e.1 ≠ 0 ∧ s.holdsCell e.1 then s.modQueue e.1 fun v => { v with timer := v.timer + 1 } else s) s

/-! ### The uses of the ports -/

/-- The place of a port's operations on one queue in a clock: by port, and at port 3 a pop before a push (08_sump R185). -/
def portRank (port : Nat) (pop : Bool) : Nat := if port < 3 then port else if pop then 3 else 4

/-- A beat may pass a port on a queue in this clock (08_sump R169, R185): the port has moved none in this direction (ports 0 to 2: in
either), no operation that comes after it has acted on the queue in this clock, and fewer than eight cells of its direction wait at the
port for their banks. -/
def State.portTakes (s : State) (port q : Nat) (pop : Bool) : Bool :=
  !(s.sump.moved.any fun e => e.1 = port && (port < 3 || e.2.1 = pop)) &&
  !(s.sump.moved.any fun e => e.2.2 = q && portRank port pop < portRank e.1 e.2.1) &&
  (if pop then (s.sump.reads.filter fun r => r.port = port && r.cell.isSome).length < 8
   else (s.sump.cells.filter fun e => e.2.port = port && e.2.full && !e.2.committed).length < 8)

/-- A port has moved a beat in this clock. -/
def usePort (port q : Nat) (pop : Bool) (s : State) : State :=
  s.withSump fun u => { u with moved := u.moved ++ [(port, pop, q)] }

/-- One beat offered at a port in this clock, the answer kept (08_sump R169, R178). -/
def portPush (port q : Nat) (p : Producer) (b : SumpBeat) (s : State) : PushAnswer × State :=
  let (a, s) := pushBeat port q p b (usePort port q false s)
  (a, s.withSump fun u => { u with result := tabSet 0 u.result port a.code })

/-- One pop at a port in this clock: its beats come with the cell's bank (08_sump R168, R184). -/
def portPop (port q : Nat) (e0 e1 : BeatFound) (dest : PopTo) (s : State) : State :=
  let (r, s) := popQueue port q e0 e1 (usePort port q true s)
  s.withSump fun u => { u with reads := u.reads ++ [{ port := port, cell := r.1, beats := r.2, dest := dest }] }

/-- A pop's consumer has one on its way. -/
def State.reading (s : State) (dest : PopTo) : Bool := s.sump.reads.any (·.dest = dest)

/-- The pops of a port that end in this clock (08_sump R168, R169, R184): those that read no cell, and of the waiting cells the first
whose bank the port owns. -/
def State.readsDone (s : State) (port : Nat) : List SRead :=
  let mine := s.sump.reads.filter (·.port = port)
  (mine.filter (·.cell.isNone)) ++
    (mine.find? fun r => match r.cell with
      | some c => bankPort c s.clocks.sys = port && !(s.sump.scrubbed.contains (c % 64))
      | none => false).toList

/-- The bank of a cell is idle in this clock: its owner has neither a complete cell nor a pop that waits for it (08_sump R168). -/
def State.bankIdle (s : State) (c : Nat) : Bool :=
  let p := bankPort c s.clocks.sys
  let same := fun (e : Nat) => e % 64 = c % 64
  !(s.sump.scrubbed.contains (c % 64)) &&
  !(s.sump.reads.any fun r => r.port = p && (match r.cell with | some e => same e | none => false)) &&
  !(s.sump.cells.any fun e => e.2.port = p && e.2.full && !e.2.committed && same e.1)

/-- The link RAM entry of a cell (08_sump R173): `LAST` where no cell of its packet or stream follows it, otherwise `NEXT`. -/
def State.linkWord (s : State) (c : Nat) : Word :=
  let v := s.scell c
  let chain := match v.desc with | some d => (s.desc d).cells | none => (s.queue v.queue).stream
  match (chain.dropWhile (· ≠ c)).drop 1 with
  | n :: _ => word n
  | [] => word (2 ^ 15)

/-- R173: the link RAM entry of a cell among the cells of its packet, or of its queue in stream mode, which are held in order: `LAST`
above `NEXT`. Of the two copies, which agree but for an upset, this is either. -/
def linkEntry (run : List Nat) (c : Nat) : Nat :=
  match (run.dropWhile (· ≠ c)).drop 1 with
  | e :: _ => e
  | [] => 2 ^ 15

/-- The words of a descriptor (08_sump R173); the head of a packet that holds no cell is a value the spec leaves open. -/
def descWords (d : Nat) (s : State) : List Word × State :=
  let v := s.desc d
  if v.used then
    let (n, s') := s.takeFree
    let (head, s) := match v.cells with
      | c :: _ => (c, s)
      | [] => (Config.freeNat n % 2 ^ 15, s')
    let next := match ((s.queue v.queue).vis.dropWhile (· ≠ d)).drop 1 with | e :: _ => e | [] => 0
    ([word (place 15 15 v.tail + head), word (place 16 9 v.cells.length + place 0 14 next),
      word (place 22 1 (bitNat v.trunc) + place 21 1 (bitNat v.stale) + place 20 1 (bitNat v.mark) +
        place 19 1 (bitNat v.bad) + place 18 1 (bitNat v.ended) + place 17 1 (bitNat v.vis) + place 0 17 v.len)], s)
  else ([0, 0, 0], s)

/-- `SUMP_QSTAT` of a queue (08_sump R195). -/
def State.qstat (s : State) (q : Nat) : Word :=
  let v := s.queue q
  let ready := fun c => (s.scell c).committed
  let depth := if qPkt s.cfg q then (v.vis.map fun d => ((s.desc d).cells.filter ready).length).sum else (v.stream.filter ready).length
  word (place 16 16 depth + place 0 16 (s.quotaCells q))

/-- `SUMP_QSTAT2` of a queue (08_sump R195). -/
def State.qstat2 (s : State) (q : Nat) : Word :=
  let v := s.queue q
  let reading := match v.vis with | d :: _ => (s.desc d).begun | [] => false
  word (place 21 1 (bitNat (qEn s.cfg q)) + place 20 1 (bitNat reading) + place 19 1 (bitNat (!v.opens.isEmpty)) +
    place 18 1 (bitNat (v.flushing || s.sump.flushes.contains q)) + place 17 1 (bitNat v.recover) + place 16 1 (bitNat (s.commitMode q)) +
    place 0 15 (v.vis.length + v.opens.length))

end Sys2Proof.Machine
end

