-- ==== Sys2Proof/Machine/Crushers.lean ====
section
/-! DEFINITION. The Crushers (07_crushers): slots and readiness, the program steps, slices, destinations, halts and holds. -/

namespace Sys2Proof.Machine

/-! ### Contexts and settings -/

/-- The Crushers changed. -/
def State.withCrushers (s : State) (f : Crushers → Crushers) : State := { s with crushers := f s.crushers }

/-- The number of a client: an engine has 128 (R137). -/
def clientKey (e k : Nat) : Nat := 128 * e + k

/-- A word of a client's context (07_crushers R147). -/
def State.ctx (s : State) (e k w : Nat) : Word := tabGet 0 s.crushers.ctx (64 * clientKey e k + w)

/-- A word of a client's context written. -/
def State.setCtx (s : State) (e k w : Nat) (v : Word) : State :=
  s.withCrushers fun c => { c with ctx := tabSet 0 c.ctx (64 * clientKey e k + w) v }

/-- A field of `CTX.CFG` (07_crushers R148). -/
def State.ctxCfg (s : State) (e k lo len : Nat) : Nat := bitsOf lo len (s.ctx e k 0).toNat

/-- `CTX.CFG.EN`. -/
def State.clientEn (s : State) (e k : Nat) : Bool := s.ctxCfg e k 31 1 = 1
/-- `CTX.CFG.PKT`. -/
def State.clientPkt (s : State) (e k : Nat) : Bool := s.ctxCfg e k 30 1 = 1
/-- `CTX.FLAGS.HALTED`. -/
def State.clientHalted (s : State) (e k : Nat) : Bool := (s.ctx e k 63).getLsbD 8

/-- `CRENG.EN` (07_crushers R143). -/
def engineEn (t : Tab Word) (e : Nat) : Bool := cfgBits t 42 e 0x42 0 1 = 1

/-- An engine runs its table: `CRENG.EN` in force and SYS running outside a load (07_crushers R166). -/
def State.engineRuns (s : State) (e : Nat) : Bool := engineEn s.cfg e && s.sysRuns && !s.loading

/-- A slot table entry (07_crushers R142, R143). -/
def slotEntry (t : Tab Word) (e n : Nat) : Nat := cfgBits t 42 e (n / 256) (16 * (n % 256)) 16

/-- What an engine keeps of a client. -/
def State.clientState (s : State) (e k : Nat) : ClientPkt := tabGet {} s.crushers.pkts (clientKey e k)

/-- A client is held by the host or by a forced power-down (07_crushers R164, R165). -/
def State.clientHeld (s : State) (e k : Nat) : Bool :=
  (match k / 32 with
   | 0 => s.bit .crHold0 e k
   | 1 => s.bit .crHold1 e (k - 32)
   | 2 => s.bit .crHold2 e (k - 64)
   | _ => s.bit .crHold3 e (k - 96)) ||
  s.crushers.held.any fun h => h.1 = clientKey e k

/-- The producer that a client is to the Sump. -/
def clientProducer (e k : Nat) : Producer := .client (Fin.ofNat 16 e) (Fin.ofNat 128 k)

/-- The Sump port of an engine (01_architecture R17). -/
def enginePort (e : Nat) : Nat := e / 8

/-- The destination of a client's packet in progress: type and index (07_crushers R148, R157). -/
def State.clientDest (s : State) (e k : Nat) : Nat × Nat :=
  if (s.clientState e k).alt then (s.ctxCfg e k 15 2, s.ctxCfg e k 4 11) else (s.ctxCfg e k 28 2, s.ctxCfg e k 17 11)

/-- A client counter advanced: words 60 to 62, their flag in word 63 and `CRnn_EVT.CNT_OVF` (07_crushers R147, R166). -/
def countCtx (e k w n : Nat) (s : State) : State :=
  let v := (s.ctx e k w).toNat
  let t := min (v + n) (2 ^ 32 - 1)
  let s := s.setCtx e k w (word t)
  if v < 2 ^ 32 - 1 ∧ t = 2 ^ 32 - 1 then
    flagCrusher e 3 (s.setCtx e k 63 (s.ctx e k 63 ||| bitWord (w - 60)))
  else s

/-! ### Bytes and fields -/

/-- The number that bytes form, the first most significant. -/
def natBE (bs : List Byte) : Nat := bs.foldl (fun n b => n * 256 + b.toNat) 0

/-- A number as bytes, the first most significant. -/
def bytesBE (n len : Nat) : List Byte := (List.range len).map fun i => BitVec.ofNat 8 (n >>> (8 * (len - 1 - i)))

/-- A field of bytes by its first bit, counted from the most significant bit of the first byte (07_crushers R152). -/
def fieldGet (bs : List Byte) (bit len : Nat) : Nat := bitsOf (8 * bs.length - bit - len) len (natBE bs)

/-- A field of bytes written. -/
def fieldPut (bs : List Byte) (bit len v : Nat) : List Byte :=
  let lo := 8 * bs.length - bit - len
  let n := natBE bs
  bytesBE (n - place lo len (bitsOf lo len n) + place lo len v) bs.length

/-- Bytes cut into beats of 32, the last padded with zero bytes; the valid bytes of each are kept beside it. -/
def beatsOf : Nat → List Byte → List (Nat × Nat)
  | 0, _ => []
  | fuel + 1, bs =>
    if bs.isEmpty then [] else (natOfBytes (bs.take 32), min 32 bs.length) :: beatsOf fuel (bs.drop 32)

/-- A slice's bytes as beats. -/
def sliceBeats (bs : List Byte) : List (Nat × Nat) := beatsOf (bs.length / 32 + 1) bs

/-! ### The steps of a program -/

/-- A slice as its program runs on it: bytes, state words, the packet, whether the slice begins or ends its packet, token
mode, the timestamp, what the counters take, and the next free value. -/
structure Run where
  bytes : List Byte
  st : List Word
  pkt : ClientPkt
  first : Bool
  last : Bool
  token : Bool
  stamp : Nat
  errs : Nat
  sats : Nat
  drops : Nat
  free : Nat
deriving DecidableEq, Repr

/-- A state word. -/
def Run.getS (r : Run) (i : Nat) : Nat := (r.st.getD i 0).toNat
/-- A state word written. -/
def Run.setS (r : Run) (i v : Nat) : Run := { r with st := r.st.set i (word v) }
/-- The packet marked bad. -/
def Run.spoil (r : Run) : Run := { r with pkt := { r.pkt with bad := true } }
/-- A check step that fails (07_crushers R154, R155). DESIGN CHOICE (log 97): each mismatch counts one in `CTX.ERR`, so that a packet that
fails two check steps counts two; R147 calls the counter packets, R154 counts mismatches. -/
def Run.failCheck (r : Run) : Run := { r.spoil with errs := r.errs + 1 }

/-- The first bit of a field, from the packet start, and its length (07_crushers R152). -/
def fieldBit (p : Nat) : Nat := 8 * bitsOf 16 16 p + bitsOf 13 3 p
/-- The length of a field. -/
def fieldLen (p : Nat) : Nat := bitsOf 1 6 p + 1

/-- The place of a field that lies whole in this slice's chunk (07_crushers R153). -/
def Run.fieldAt (r : Run) (bit len : Nat) : Option Nat :=
  if 8 * r.pkt.off ≤ bit ∧ bit + len ≤ 8 * (r.pkt.off + r.bytes.length) then some (bit - 8 * r.pkt.off) else none

/-- R153: a packet that ends before a field does is marked bad. -/
def Run.fieldCheck (r : Run) (bit len : Nat) : Run :=
  if r.last ∧ 8 * (r.pkt.off + r.bytes.length) < bit + len then r.spoil else r

/-- A field of the packet written in its slice. -/
def Run.putField (r : Run) (p v : Nat) : Run :=
  match r.fieldAt (fieldBit p) (fieldLen p) with
  | some b => { r with bytes := fieldPut r.bytes b (fieldLen p) v }
  | none => r.fieldCheck (fieldBit p) (fieldLen p)

/-- One bit shifted into a CRC register of width `w`. -/
def crcShift (w poly reg : Nat) (b : Bool) : Nat :=
  let r := reg * 2 % 2 ^ w
  if (bitAt (w - 1) reg != b) then r ^^^ (poly % 2 ^ w) else r

/-- One byte shifted into a CRC register (07_crushers R154). -/
def crcShiftByte (w poly : Nat) (refin : Bool) (reg : Nat) (b : Byte) : Nat :=
  (List.range 8).foldl (fun r i => crcShift w poly r (bitAt (if refin then i else 7 - i) b.toNat)) reg

/-- A number reflected over `w` bits. -/
def reflectBits (w n : Nat) : Nat := (List.range w).foldl (fun r i => r + bitNat (bitAt i n) * 2 ^ (w - 1 - i)) 0

/-- CRC_GEN and CRC_CHK (07_crushers R154). `n` is the step's number, under which held-back bytes are kept. -/
def stepCrc (gen : Bool) (p : List Nat) (si n : Nat) (r : Run) : Run :=
  let p1 := p.getD 1 0
  let w := bitsOf 0 5 p1 + 1
  let size := (w + 7) / 8
  let start := bitsOf 16 16 p1
  let plc := bitsOf 8 2 p1
  let lsbf := bitAt 7 p1
  let hold := !gen || plc = 1
  let reg := if r.first then p.getD 2 0 % 2 ^ w else r.getS si % 2 ^ w
  let kept := ((r.pkt.tails.find? fun t => t.1 = n).map (·.2)).getD []
  let covered := (if r.first then [] else kept) ++ r.bytes.drop (start - r.pkt.off)
  let feed := if hold then covered.take (covered.length - size) else covered
  let tail := if hold then covered.drop (covered.length - size) else []
  let reg := feed.foldl (crcShiftByte w (p.getD 0 0) (bitAt 13 p1)) reg
  if r.last then
    let res := ((if bitAt 12 p1 then reflectBits w reg else reg) ^^^ (p.getD 3 0)) % 2 ^ w
    let out := if lsbf then bytesOf res size else bytesBE res size
    let r := r.setS si res
    if gen then
      match plc with
      | 0 => { r with bytes := r.bytes ++ out }
      | 1 => if size ≤ r.bytes.length then { r with bytes := r.bytes.take (r.bytes.length - size) ++ out } else r.spoil
      | _ => r
    else if tail.length = size ∧ tail = out then r else r.failCheck
  else
    let r := r.setS si reg
    { r with pkt := { r.pkt with tails := (n, tail) :: r.pkt.tails.filter fun t => t.1 ≠ n } }

/-- A ones'-complement addition of width `8 * w` bits. -/
def addOnes (w a b : Nat) : Nat := let t := a + b; if 2 ^ (8 * w) ≤ t then t - 2 ^ (8 * w) + 1 else t

/-- CSUM16 and CSUM32 (07_crushers R155); `w` is the word's bytes. The second state word of CSUM32 is not stated. A result that is complete
before its field's slice is not written (R153), and the packet is bad if it ends before the field. DESIGN CHOICE (log 97): a packet that ends
before `START` + `LEN` is summed over the bytes there are, and the step completes in its last slice. -/
def stepCsum (w : Nat) (p : List Nat) (si : Nat) (r : Run) : Run :=
  let start := bitsOf 16 16 (p.getD 0 0)
  let field := bitsOf 0 16 (p.getD 0 0)
  let len := bitsOf 16 16 (p.getD 1 0)
  let action := bitsOf 0 2 (p.getD 1 0)
  let stop := start + len
  let off := r.pkt.off
  if len ≠ 0 ∧ r.first = false ∧ stop ≤ off then
    if action = 1 ∧ field ≠ 0xFFFF then r.fieldCheck (8 * field) (8 * w) else r
  else
    let add := fun (acc : Nat) (q : Byte × Nat) =>
      let a := off + q.2
      if start ≤ a ∧ (len = 0 ∨ a < stop) ∧ !(action = 1 ∧ field ≠ 0xFFFF ∧ field ≤ a ∧ a < field + w) then
        addOnes w acc (q.1.toNat <<< (8 * (w - 1 - (a - start) % w)))
      else acc
    let sum := (r.bytes.zip (List.range r.bytes.length)).foldl add (if r.first then 0 else r.getS si)
    let r := r.setS si sum
    let r := if w = 4 then { (r.setS (si + 1) (Config.freeWord r.free).toNat) with free := r.free + 1 } else r
    if r.last ∨ (len ≠ 0 ∧ stop ≤ off + r.bytes.length) then
      match action with
      | 1 =>
        if field = 0xFFFF then r
        else match r.fieldAt (8 * field) (8 * w) with
          | some b => { r with bytes := fieldPut r.bytes b (8 * w) (2 ^ (8 * w) - 1 - sum) }
          | none => r.fieldCheck (8 * field) (8 * w)
      | 2 => if sum = 2 ^ (8 * w) - 1 then r else r.failCheck
      | _ => r
    else r

/-- A number of `w` bits read as two's complement. -/
def signedOf (w n : Nat) : Int := if bitAt (w - 1) n then (n % 2 ^ w : Nat) - (2 ^ w : Nat) else (n % 2 ^ w : Nat)

/-- A value clamped to `w` bits signed, and whether it saturated. -/
def saturate (w : Nat) (v : Int) : Int × Bool :=
  if v < -(2 ^ (w - 1) : Nat) then (-(2 ^ (w - 1) : Nat), true)
  else if (2 ^ (w - 1) : Nat) - 1 < v then ((2 ^ (w - 1) : Nat) - 1, true)
  else (v, false)

/-- A signed value as `w` bits. -/
def bitsOfInt (w : Nat) (v : Int) : Nat := (v % (2 ^ w : Nat)).toNat

/-- Coefficient `j` (07_crushers R156). -/
def macCoef (p : List Nat) (j : Nat) : Int := signedOf 16 (bitsOf (16 * (j % 2)) 16 (p.getD (j / 2) 0))

/-- A result: shifted right arithmetically, saturated to 16 bits. -/
def macResult (shift : Nat) (v : Int) : Int × Bool := saturate 16 (v / (2 ^ shift : Nat))

/-- GAIN of one beat: the output beat and the saturations. -/
def macGain (p : List Nat) (shift beat : Nat) : Nat × Nat :=
  (List.range 16).foldl (fun (o : Nat × Nat) j =>
    let v := macResult shift (macCoef p j * signedOf 16 (bitsOf (16 * j) 16 beat))
    (o.1 + place (16 * j) 16 (bitsOfInt 16 v.1), o.2 + bitNat v.2)) (0, 0)

/-- What MIX carries: accumulator, beats of the span, results gathered, the gathering beat, beats emitted, saturations. -/
structure Mix where
  acc : Int
  cnt : Nat
  res : Nat
  beat : Nat
  out : List Nat
  sats : Nat

/-- MIX of one beat. -/
def macMix (p : List Nat) (shift span : Nat) (m : Mix) (beat : Nat) : Mix :=
  let m := (List.range 16).foldl (fun (m : Mix) j =>
    let v := saturate 48 (m.acc + macCoef p j * signedOf 16 (bitsOf (16 * j) 16 beat))
    { m with acc := v.1, sats := m.sats + bitNat v.2 }) m
  if m.cnt + 1 < span then { m with cnt := m.cnt + 1 }
  else
    let v := macResult shift m.acc
    let b := m.beat + place (16 * m.res) 16 (bitsOfInt 16 v.1)
    let m := { m with acc := 0, cnt := 0, sats := m.sats + bitNat v.2 }
    if m.res = 15 then { m with res := 0, beat := 0, out := m.out ++ [b] } else { m with res := m.res + 1, beat := b }

/-- MAC (07_crushers R156). -/
def stepMac (p : List Nat) (si : Nat) (r : Run) : Run :=
  let p8 := p.getD 8 0
  let shift := bitsOf 0 6 p8
  let beats := sliceBeats r.bytes
  if bitsOf 6 2 p8 = 0 then
    let outs := beats.map fun b => macGain p shift b.1
    { r with bytes := (outs.flatMap fun o => bytesOf o.1 32).take r.bytes.length, sats := r.sats + (outs.map (·.2)).sum }
  else
    let m0 : Mix := { acc := signedOf 48 (r.getS si + 2 ^ 32 * bitsOf 0 16 (r.getS (si + 1)))
                      cnt := bitsOf 0 16 (r.getS (si + 2)), res := bitsOf 16 16 (r.getS (si + 2))
                      beat := (List.range 8).foldl (fun n i => n + 2 ^ (32 * i) * r.getS (si + 3 + i)) 0
                      out := [], sats := 0 }
    let m := beats.foldl (fun m b => macMix p shift (bitsOf 8 4 p8 + 1) m b.1) m0
    -- at a packet's end the gathering beat is offered too, unless the last result has just filled one
    let m := if r.last ∧ r.token = false ∧ (m.res ≠ 0 ∨ m.out.isEmpty) then
        { m with res := 0, beat := 0, out := m.out ++ [m.beat] } else m
    let a := bitsOfInt 48 m.acc
    let r := ((r.setS si a).setS (si + 1) (a >>> 32)).setS (si + 2) (m.cnt + 2 ^ 16 * m.res)
    let r := (List.range 8).foldl (fun (r : Run) i => r.setS (si + 3 + i) (m.beat >>> (32 * i))) r
    { r with bytes := m.out.flatMap fun b => bytesOf b 32, sats := r.sats + m.sats }

/-- PERMUTE (07_crushers R157). -/
def stepPermute (p : List Nat) (r : Run) : Run :=
  let sel := (List.range 5).foldl (fun n i => n + 2 ^ (32 * i) * p.getD i 0) 0
  let one := fun (b : Nat) => (List.range 32).map fun i => BitVec.ofNat 8 (bitsOf (8 * bitsOf (5 * i) 5 sel) 8 b)
  { r with bytes := ((sliceBeats r.bytes).flatMap fun b => one b.1).take r.bytes.length }

/-- A packet that MATCH drops, counted once (07_crushers R158). -/
def Run.dropPkt (r : Run) : Run :=
  if r.pkt.drop then r else { r with pkt := { r.pkt with drop := true }, drops := r.drops + 1 }

/-- MATCH (07_crushers R157, R158). -/
def stepMatch (p : List Nat) (si : Nat) (r : Run) : Run :=
  if r.first then
    let hit := (r.getS si &&& p.getD 1 0) = (p.getD 0 0 &&& p.getD 1 0)
    match bitsOf 0 2 (p.getD 2 0) with
    | 0 => if hit then r.dropPkt else r
    | 1 => if hit then r else r.dropPkt
    | 2 => if hit then { r with pkt := { r.pkt with mark := true } } else r
    | _ => if hit then { r with pkt := { r.pkt with alt := true } } else r
  else r

/-- COUNT (07_crushers R157, R159). DESIGN CHOICE (log 97): in token mode there is no packet start from which a field could be counted, and
the step inserts nothing. -/
def stepCount (p : List Nat) (si : Nat) (r : Run) : Run :=
  let n := if r.token then (sliceBeats r.bytes).length else bitNat r.first
  let r := (r.setS si (r.getS si + n)).setS (si + 1) (r.getS (si + 1) + r.bytes.length)
  if bitAt 0 (p.getD 0 0) ∧ r.token = false then r.putField (p.getD 0 0) (r.getS si) else r

/-- EXTRACT (07_crushers R157). -/
def stepExtract (p : List Nat) (si : Nat) (r : Run) : Run :=
  let f := p.getD 0 0
  match r.fieldAt (fieldBit f) (fieldLen f) with
  | some b => r.setS si (fieldGet r.bytes b (fieldLen f))
  | none => r.fieldCheck (fieldBit f) (fieldLen f)

/-- One program step (07_crushers R149, R150). -/
def runStep (opc n : Nat) (p : List Nat) (si : Nat) (r : Run) : Run :=
  match opc with
  | 0x01 => stepCrc true p si n r
  | 0x02 => stepCrc false p si n r
  | 0x03 => stepCsum 2 p si r
  | 0x04 => stepCsum 4 p si r
  | 0x05 => stepMac p si r
  | 0x06 => stepExtract p si r
  | 0x07 => r.putField (p.getD 0 0) (r.getS si)
  | 0x08 => stepPermute p r
  | 0x09 => stepMatch p si r
  | 0x0A => stepCount p si r
  | 0x0B => r.putField (p.getD 0 0) r.stamp
  | _ => r

/-- The steps of a program in order, to the first END or through `OP7` (07_crushers R149). A packet that MATCH drops is worked on to the end
of its first slice, and its output is discarded there. -/
def runProgram (ctx : Nat → Word) : List Nat → Run → Run
  | [], r => r
  | n :: rest, r =>
    let op := (ctx (4 + n)).toNat
    if bitsOf 27 5 op = 0 then r
    else
      let p := (List.range 16).map fun i => (ctx (12 + bitsOf 23 4 op + i)).toNat
      runProgram ctx rest (runStep (bitsOf 27 5 op) n p (bitsOf 18 5 op) r)

/-- Output beats from bytes (07_crushers R138, R144). -/
def outBeats (r : Run) : List CBeat :=
  let bs := sliceBeats r.bytes
  (bs.zip (List.range bs.length)).map fun q =>
    let fin := r.last && q.2 + 1 = bs.length && !r.token
    { data := BitVec.ofNat 256 q.1.1, start := !r.token && q.2 = 0 && !r.pkt.started, fin := fin,
      bad := fin && r.pkt.bad, mark := r.pkt.mark, bytes := q.1.2 }

/-! ### Inputs and destinations -/

/-- The portal that feeds fabric client `j` of an engine: the OUT portal of its site (09_portals R200). -/
def fpiPortal (e j : Nat) : Nat := sitePortal (16 + e) j 1
/-- The portal that a fabric output feeds. -/
def fpoPortal (e j : Nat) : Nat := sitePortal (16 + e) j 0

/-- Words of a portal gathered into beats of 256 bits: each beat with the words that it took (07_crushers R138,
09_portals R202). -/
def wordsToBeats (w : Nat) : List (Nat × Nat) → List (Nat × Nat) → List (CBeat × Nat)
  | _, [] => []
  | got, (d, t) :: rest =>
    let got := got ++ [(d, t)]
    let n := got.length
    if bitAt 1 t ∨ 256 / w ≤ n then
      let first := (got.headD (0, 0)).2
      let beat : CBeat :=
        { data := BitVec.ofNat 256 (got.foldr (fun q x => q.1 + 2 ^ w * x) 0), start := bitAt 0 first, fin := bitAt 1 t,
          bad := bitAt 2 t, mark := bitAt 3 t
          bytes := if bitAt 1 t then (n - 1) * (w / 8) + (bitsOf 4 5 t % (w / 8)) + 1 else 32 }
      (beat, n) :: wordsToBeats w [] rest
    else wordsToBeats w got rest

/-- The beats that a client's input holds, with the portal words that each takes. -/
def State.clientInput (s : State) (e k : Nat) : List (CBeat × Nat) :=
  if k < 96 then (tabGet [] s.crushers.inbuf k).map fun b => (b, 0)
  else
    let p := fpiPortal e (k - 96)
    if portalEn s.cfg p then wordsToBeats (portalWidth s.cfg p) [] ((s.portal p).queue.take (s.portal p).ready) else []

/-- The beats of a whole chunk at the head of an input (07_crushers R138, R145): four beats, or up to an end. -/
def chunkLen : List CBeat → Nat → Option Nat
  | [], _ => none
  | b :: rest, n =>
    if b.start ∧ n ≠ 0 then some n
    else if b.fin ∨ n = 3 then some (n + 1)
    else chunkLen rest (n + 1)

/-- The beats that a slice takes, if the input allows one (07_crushers R139, R145). -/
def sliceTake (pkt : Bool) (bs : List CBeat) : Option Nat :=
  if pkt then chunkLen bs 0 else if bs.isEmpty then none else some (min 4 bs.length)

/-- The beats for which slices in the pipelines hold room at a destination, five each (07_crushers R144). -/
def State.heldRoom (s : State) (e : Nat) (d : Nat × Nat) : Nat :=
  5 * (if d.1 = 2 then (s.crushers.pipe.map fun p => (p.2.filter fun sl => sl.dests.contains d).length).sum
       else ((tabGet [] s.crushers.pipe e).filter fun sl => sl.dests.contains d).length)

/-- The crossing to lane `n` can take `b` more beats beside those for which room is held there (09_portals R213). -/
def State.crossingRoom (s : State) (n b : Nat) : Bool :=
  (tabGet [] s.crossings.fromCrusher n).length + s.heldRoom 0 (2, n) + b ≤ 8

/-- A destination other than the Sump can take 5 beats (07_crushers R145). DESIGN CHOICE (log 97): every slice in a pipeline counts as the 5
beats that it may offer. -/
def State.destRoom (s : State) (e : Nat) (d : Nat × Nat) : Bool :=
  match d.1 with
  | 2 => s.crossingRoom d.2 (5 + (s.crushers.stops.filter (·.1 = d.2)).length)
  | 3 =>
    let p := fpoPortal e d.2
    let v := s.portal p
    let w := portalWidth s.cfg p
    portalEn s.cfg p && (v.queue.length + v.stage.length) * w + 256 * (s.heldRoom e d + 5) ≤ portalDepth s.cfg p * w
  | _ => true

/-- The program of a client may send a packet to the alternate destination (07_crushers R157). -/
def State.mayDivert (s : State) (e k : Nat) : Bool :=
  (List.range 8).any fun n =>
    let op := (s.ctx e k (4 + n)).toNat
    bitsOf 27 5 op = 9 && bitsOf 0 2 (s.ctx e k (12 + bitsOf 23 4 op + 2)).toNat = 3

/-- A slice in the pipeline that begins a packet of the client. -/
def State.beginPiped (s : State) (e k : Nat) : Bool := (tabGet [] s.crushers.pipe e).any fun sl => sl.client = k && sl.begins

/-- A client's next slice, whose first beat has the start marker `st`, begins a packet (07_crushers R139, 09_portals R212). -/
def State.nextBegins (s : State) (e k : Nat) (st : Bool) : Bool :=
  s.clientPkt e k &&
  (st || s.crushers.anew.contains (clientKey e k) ||
    (match ((tabGet [] s.crushers.pipe e).filter (·.client = k)).getLast? with
     | some sl => sl.beats.any (·.fin)
     | none => !(s.clientState e k).inPkt))

/-- The destinations at which a client's next slice needs room: of a packet whose first slice has not yet decided, both (log 97). -/
def State.sliceDests (s : State) (e k : Nat) (begins : Bool) : List (Nat × Nat) :=
  if s.mayDivert e k && (begins || s.beginPiped e k) then
    [(s.ctxCfg e k 28 2, s.ctxCfg e k 17 11), (s.ctxCfg e k 15 2, s.ctxCfg e k 4 11)].eraseDups
  else [s.clientDest e k]

/-- Beats of one slice as Sump beats (07_crushers R138, 08_sump R171). DESIGN CHOICE (log 97): fewer than four beats of a slice in token mode
fill one Sump beat to its end with zeros. -/
def gatherSump (token : Bool) : List CBeat → List SumpBeat
  | [] => []
  | a :: rest =>
    let four := (a :: rest).take 4
    let last := four.getLast?.getD a
    let n := (four.map (·.bytes)).sum
    let tag := if token then sumpTag false false false false a.mark false false false false 127
      else sumpTag false a.start last.fin (last.fin && last.bad) a.mark false false false false (n - 1)
    let beat : SumpBeat := { data := BitVec.ofNat 1024 (four.foldr (fun b x => b.data.toNat + 2 ^ 256 * x) 0), tag := tag }
    match rest.drop 3 with
    | [] => [beat]
    | b :: _ =>
      let tag := sumpTag false false b.fin (b.fin && b.bad) b.mark false false false false (b.bytes - 1)
      [beat, { data := BitVec.ofNat 1024 b.data.toNat, tag := tag }]

/-- Beats as the words of a fabric output portal (09_portals R202). -/
def fpoWords (w : Nat) (b : CBeat) : List (Nat × Nat) :=
  let n := if b.fin then (b.bytes + w / 8 - 1) / (w / 8) else 256 / w
  (List.range n).map fun i =>
    let fin := b.fin && i + 1 = n
    (bitsOf (w * i) w b.data.toNat,
      bitNat (b.start && i = 0) + 2 * bitNat fin + 4 * bitNat (fin && b.bad) + 8 * bitNat b.mark +
        (if fin then 16 * (b.bytes - i * (w / 8) - 1) else 0))

/-- Output beats offered to a destination (07_crushers R144, R148). -/
def deliverBeats (e k : Nat) (token : Bool) (d : Nat × Nat) (bs : List CBeat) (s : State) : State :=
  match d.1 with
  | 1 =>
    let p := clientProducer e k
    let offers := gatherSump token bs
    let items := (offers.zip (List.range offers.length)).map fun o =>
      { port := enginePort e, queue := d.2, producer := p, beat := o.1, last := o.2 + 1 = offers.length : SOffer }
    if items.isEmpty then
      match s.resvOf p d.2 with
      | some r => dropResv r s
      | none => s
    else s.withSump fun u => { u with offers := u.offers ++ items }
  | 2 => { s with crossings := { s.crossings with fromCrusher := tabMod [] s.crossings.fromCrusher d.2 (· ++ bs) } }
  | 3 =>
    let p := fpoPortal e d.2
    s.modPortal p fun v => { v with stage := v.stage ++ bs.flatMap (fpoWords (portalWidth s.cfg p)) }
  | _ => s

/-! ### Halts and interruptions -/

/-- R183: an interrupted client that pushes into a Sump queue. Its beats at the port and the reservations of its slices stay: what follows
of the closed packet is discarded as it is taken. -/
def interruptClient (e k : Nat) (s : State) : State :=
  let d := s.clientDest e k
  if s.clientEn e k ∧ d.1 = 1 then interruptProducer d.2 (clientProducer e k) s else s

/-- A beat that ends a halted client's packet at a lane: it waits for room in the crossing (09_portals R213). -/
def stopBeat (n : Nat) (b : CBeat) (s : State) : State :=
  if s.crossingRoom n 1 && !(s.crushers.stops.any (·.1 = n)) then
    { s with crossings := { s.crossings with fromCrusher := tabMod [] s.crossings.fromCrusher n (· ++ [b]) } }
  else s.withCrushers fun c => { c with stops := c.stops ++ [(n, b)] }

/-- A waiting stop beat enters its lane's crossing. -/
def admitStop (n : Nat) (s : State) : State :=
  match s.crushers.stops.find? (·.1 = n) with
  | some x =>
    if s.crossingRoom n 1 then
      let s := s.withCrushers fun c => { c with stops := c.stops.erase x }
      { s with crossings := { s.crossings with fromCrusher := tabMod [] s.crossings.fromCrusher n (· ++ [x.2]) } }
    else s
  | none => s

/-- What a client has offered to the Sump and reserved there is dropped. -/
def dropClient (p : Producer) (s : State) : State :=
  s.withSump fun u => { u with offers := u.offers.filter fun o => o.producer ≠ p, resv := u.resv.filter fun r => r.producer ≠ p }

/-- R162: an uncorrectable word halts a client: its slices offer nothing more, and its packet in progress is marked bad at
its destination. -/
def haltClient (e k : Nat) (s : State) : State :=
  let d := s.clientDest e k
  let v := s.clientState e k
  let s := (interruptClient e k (dropClient (clientProducer e k) s)).withCrushers fun c =>
    { c with pipe := tabMod [] c.pipe e fun l => l.filter (·.client ≠ k), pkts := tabSet {} c.pkts (clientKey e k) {} }
  let stop : CBeat := { data := 0, start := false, fin := true, bad := true, mark := false, bytes := 0 }
  let s :=
    if v.inPkt ∧ v.started then
      match d.1 with
      | 2 => stopBeat d.2 stop s
      | 3 => deliverBeats e k false d [{ stop with bytes := 1 }] s
      | _ => s
    else s
  let s := s.setCtx e k 63 (s.ctx e k 63 ||| bitWord 8)
  logFault 0x04 (256 * e + k) (flagCrusher e 2 s)

/-! ### Slots and slices -/

/-- The next owned slot of an engine from slot `n` on, within one table: the slots run in order without a gap (R141, R146). -/
def nextSlot (t : Tab Word) (e : Nat) : Nat → Nat → Option Nat
  | 0, _ => none
  | fuel + 1, n => if bitAt 15 (slotEntry t e (n % 512)) then some (n % 512) else nextSlot t e fuel (n + 1)

/-- An owned slot whose client is not ready (07_crushers R145). -/
def idleSlot (e : Nat) (s : State) : State := countStat .crIdle e (flagCrusher e 4) s

/-- R145: the readiness of a client apart from its Sump reservations: the beats that its slice takes, whether it begins a packet, and its
destinations. -/
def State.readyBeats (s : State) (e k : Nat) : Option (List CBeat × Bool × List (Nat × Nat)) :=
  if s.clientEn e k && !(s.clientHeld e k) && !(s.clientHalted e k) then
    let input := (s.clientInput e k).map (·.1)
    match sliceTake (s.clientPkt e k) input with
    | none => none
    | some b =>
      let begins := s.nextBegins e k (input.take 1 |>.any (·.start))
      let ds := s.sliceDests e k begins
      if ds.all (s.destRoom e) then some (input.take b, begins, ds) else none
  else none

/-- R179: the reservations of a slice at its Sump destinations, all of them or none. -/
def reserveAll (e k : Nat) (desc : Bool) : List (Nat × Nat) → State → Bool × State
  | [], s => (true, s)
  | d :: rest, s =>
    if d.1 = 1 then
      match reserve (enginePort e) d.2 (clientProducer e k) desc s with
      | (true, t) =>
        match reserveAll e k desc rest t with
        | (true, u) => (true, u)
        | (false, u) => (false, u.withSump fun x => { x with resv := s.sump.resv })
      | (false, t) => (false, t)
    else reserveAll e k desc rest s

/-- Beats taken from a client's input. -/
def takeInput (e k n : Nat) (s : State) : State :=
  if k < 96 then s.withCrushers fun c => { c with inbuf := tabMod [] c.inbuf k (·.drop n) }
  else
    let words := (((s.clientInput e k).take n).map (·.2)).sum
    s.modPortal (fpiPortal e (k - 96)) fun v => { v with queue := v.queue.drop words, ready := v.ready - words }

/-- R144, R145: the next owned slot of an engine; `found` is what the error logic finds in the client's context. A slice that takes a beat
is activity (16_power R381). -/
def crusherSlot (e : Nat) (found : EccFound) (s : State) : State :=
  if s.engineRuns e then
    match nextSlot s.cfg e 512 (tabGet 0 s.crushers.pos e) with
    | none => s
    | some n =>
      let s := s.withCrushers fun c => { c with pos := tabSet 0 c.pos e ((n + 1) % 512) }
      let k := bitsOf 0 7 (slotEntry s.cfg e n)
      match s.readyBeats e k with
      | none => idleSlot e s
      | some (beats, begins, ds) =>
        -- the slice may give the first beat of a packet (R179)
        let desc := begins || s.beginPiped e k || !(s.clientState e k).started
        match reserveAll e k desc ds s with
        | (true, s) =>
          let s := takeInput e k beats.length s
          let s := s.withCrushers fun c =>
            { c with pipe := tabMod [] c.pipe e
                       (· ++ [{ client := k, beats := beats, stamp := s.clocks.stamp, begins := begins, dests := ds }])
                     anew := c.anew.filter (· ≠ clientKey e k), used := s.clocks.sys + 1 }
          if found = .uncorrectable then haltClient e k s else s
        | (false, s) => idleSlot e s
  else s

/-- A slice as its program first sees it. -/
def sliceRun (token : Bool) (v : ClientPkt) (st : List Word) (free : Nat) (sl : Slice) : Run :=
  let first := !token && (sl.begins || !v.inPkt)
  let v := if first then { (({} : ClientPkt)) with inPkt := true } else v
  { bytes := sl.beats.flatMap fun b => (bytesOf b.data.toNat 32).take (if token then 32 else b.bytes)
    st := st
    pkt := { v with bad := v.bad || sl.beats.any (·.bad), mark := v.mark || sl.beats.any (·.mark) }
    first := first, last := !token && sl.beats.any (·.fin), token := token, stamp := sl.stamp,
    errs := 0, sats := 0, drops := 0, free := free }

/-- R144: the oldest slice of an engine completes. -/
def sliceComplete (e : Nat) (s : State) : State :=
  match tabGet [] s.crushers.pipe e with
  | [] => s
  | sl :: rest =>
    let k := sl.client
    let token := !(s.clientPkt e k)
    let s := s.withCrushers fun c => { c with pipe := tabSet [] c.pipe e rest }
    let size := (sl.beats.map (·.bytes)).sum
    let r0 := sliceRun token (s.clientState e k) ((List.range 32).map fun i => s.ctx e k (28 + i)) s.freeCtr sl
    let r := if r0.pkt.drop then r0 else runProgram (s.ctx e k) (List.range 8) r0
    let s := { s with freeCtr := r.free }
    let s := (List.range 32).foldl (fun s i => s.setCtx e k (28 + i) (r.st.getD i 0)) s
    let s := if r.errs = 0 then s else flagCrusher e 0 (countCtx e k 60 r.errs s)
    let s := if r.sats = 0 then s else flagCrusher e 1 (countCtx e k 61 r.sats s)
    let s := if r.drops = 0 then s else countCtx e k 62 r.drops s
    let out := if r.pkt.drop then [] else outBeats r
    let v : ClientPkt := { r.pkt with off := r.pkt.off + size, started := r.pkt.started || !out.isEmpty }
    let s := s.withCrushers fun c => { c with pkts := tabSet {} c.pkts (clientKey e k) v }
    let d := s.clientDest e k
    -- what the slice reserved at the destination that it does not use is returned (R179)
    let s := (sl.dests.filter fun x => x.1 = 1 && x ≠ d).foldl (fun s x =>
      match s.resvOf (clientProducer e k) x.2 with
      | some r => dropResv r s
      | none => s) s
    let s := deliverBeats e k token d out s
    if r.last ∨ token then s.withCrushers fun c => { c with pkts := tabSet {} c.pkts (clientKey e k) {} } else s

/-! ### Loading and reinitialising contexts -/

/-- The image word `w` of a client's context (07_crushers R143). -/
def ctxImage (t : Tab Word) (e k w : Nat) : Word := word (cfgWord t 42 e (2 + k / 2) (64 * (k % 2) + w))

/-- Context words written from the image; words 60 to 63 cleared (07_crushers R162). -/
def loadContext (e k : Nat) (s : State) : State :=
  (List.range 64).foldl (fun s w => s.setCtx e k w (if w < 60 then ctxImage s.cfg e k w else 0)) s

/-- A slice of the client is in the pipeline. -/
def State.sliceInPipe (s : State) (e k : Nat) : Bool := (tabGet [] s.crushers.pipe e).any fun sl => sl.client = k

/-- The engine and client that takes a lane's receive stream, if one is enabled (07_crushers R140). -/
def State.laneClient (s : State) (n : Nat) : Option Nat := (List.range 16).find? fun e => s.clientEn e n

/-! ### Meanings -/

/-- CRUSHER_SLOT (07_crushers R145). -/
def execCrusherSlot (e : Fin 16) (ctx : EccFound) (s : State) : Out := .next (crusherSlot e.val ctx s)
/-- CRUSHER_SLICE_COMPLETE (07_crushers R144). -/
def execCrusherSliceComplete (e : Fin 16) (s : State) : Out := .next (if s.sysRuns then sliceComplete e.val s else s)

end Sys2Proof.Machine
end

