-- ==== Sys2Proof/Machine/Lanes.lean ====
section
/-! DEFINITION. The serial lanes: settings, locks, electrical idle, the test machinery (11_lane_electrical), and bring-up, retrain, link-down and lane reset (12_lane_link R290 to R305). -/

namespace Sys2Proof.Machine

/-! ### Settings -/

/-- Bits of a lane's settings (11_lane_electrical R250, 12_lane_link R277). -/
def lnCfg (t : Tab Word) (n lo len : Nat) : Nat := cfgBits t 40 (n / 4) 0 (128 * (n % 4) + lo) len
/-- `LANE.RATE`. -/
def lnRate (t : Tab Word) (n : Nat) : Nat := lnCfg t n 12 3
/-- The lane signals PAM4 (11_lane_electrical R243). -/
def lnPam4 (t : Tab Word) (n : Nat) : Bool := lnRate t n = 4 || lnRate t n = 5
/-- `PCS.PROTO`. -/
def lnProto (t : Tab Word) (n : Nat) : Nat := lnCfg t n 32 2
/-- `PCS.FEC`. -/
def lnFec (t : Tab Word) (n : Nat) : Bool := lnCfg t n 34 1 = 1
/-- `PCS.RX_CR`. -/
def lnRxCr (t : Tab Word) (n : Nat) : Bool := lnCfg t n 39 1 = 1
/-- `PCS.HP_MODE`. -/
def lnHpMode (t : Tab Word) (n : Nat) : Nat := lnCfg t n 40 2
/-- `PCS.TX_SRC`. -/
def lnTxCr (t : Tab Word) (n : Nat) : Bool := lnCfg t n 42 1 = 1
/-- `PCS.TXQ_EN`. -/
def lnTxqEn (t : Tab Word) (n : Nat) : Bool := lnCfg t n 59 1 = 1
/-- `PCS.TXQ`. -/
def lnTxq (t : Tab Word) (n : Nat) : Nat := lnCfg t n 48 11
/-- Bits of a lane's Adit settings (12_lane_link R278). -/
def lnAdit (t : Tab Word) (n lo len : Nat) : Nat := cfgBits t 47 0 (n / 64) (64 * (n % 64) + lo) len
/-- A board table entry's `V` and `RATE` allow it for a lane (11_lane_electrical R252, R256). -/
def beqFits (t : Tab Word) (n e : Nat) : Bool :=
  cfgBits t 40 24 0 (64 * e + 63) 1 = 1 && cfgBits t 40 24 0 (64 * e + 60) 3 = lnRate t n
/-- `REF_USE` of a reference clock (11_lane_electrical R251). -/
def refUsed (t : Tab Word) (k : Nat) : Bool := cfgBits t 40 24 1 (16 + k) 1 = 1

/-! ### Access -/

/-- A lane. -/
def State.lane (s : State) (n : Nat) : Lane := tabGet {} s.lanes n
/-- A lane changed. -/
def State.modLane (s : State) (n : Nat) (f : Lane → Lane) : State := { s with lanes := tabMod {} s.lanes n f }
/-- A lane's transmitter changed. -/
def State.modTx (s : State) (n : Nat) (f : LaneTx → LaneTx) : State := s.modLane n fun l => { l with tx := f l.tx }
/-- A lane's receiver changed. -/
def State.modRx (s : State) (n : Nat) (f : LaneRx → LaneRx) : State := s.modLane n fun l => { l with rx := f l.rx }
/-- A lane's Adit link layer changed. -/
def State.modAdit (s : State) (n : Nat) (f : Adit → Adit) : State := s.modLane n fun l => { l with adit := f l.adit }

/-- A bit of `LNnn_PMA_STATUS` written. -/
def State.setPma (s : State) (n b : Nat) (v : Bool) : State := s.setField .lnPmaStatus n b 1 (bitNat v)
/-- A bit of `LNnn_LINK_STATUS` written. -/
def State.setLink (s : State) (n b : Nat) (v : Bool) : State := s.setField .lnLinkStatus n b 1 (bitNat v)
/-- `LNnn_LINK_STATUS.STATE` (12_lane_link R290). -/
def State.laneState (s : State) (n : Nat) : Nat := s.field .lnLinkStatus n 0 3
/-- The link state written. -/
def State.setLaneState (s : State) (n v : Nat) : State := s.setField .lnLinkStatus n 0 3 v
/-- `EPOCH`. -/
def State.epoch (s : State) (n : Nat) : Nat := s.field .lnLinkStatus n 24 8
/-- The lane runs the Adit service. -/
def State.isAdit (s : State) (n : Nat) : Bool := lnProto s.cfg n = 3
/-- `READY`. -/
def State.ready (s : State) (n : Nat) : Bool := s.bit .lnPmaStatus n 4
/-- `SD`. -/
def State.signal (s : State) (n : Nat) : Bool := s.bit .lnPmaStatus n 1
/-- `GEN`. -/
def State.gen (s : State) (n : Nat) : Nat := s.field .lnPatCtrl n 0 4
/-- The bench's reference clock is valid. -/
def State.refOk (s : State) (n : Nat) : Bool := s.bit .lbStatus (n / 4) 0

/-- A lane's analog part runs: a rate, its bench powered, the lane clocks running, from RUN on (15_configuration R365, R366). -/
def State.pmaOn (s : State) (n : Nat) : Bool :=
  lnRate s.cfg n ≠ 0 && s.benchOn (n / 4) && s.sysRuns && s.configured
/-- A lane is not held OFF by `DISABLE` (12_lane_link R290). -/
def State.laneOn (s : State) (n : Nat) : Bool := s.pmaOn n && !(s.bit .lnLinkCtrl n 2)

/-- The Adit registers show the counts of one clock (12_lane_link R306). -/
def showAdit (n : Nat) (s : State) : State :=
  let a := (s.lane n).adit
  let s := s.setReg .lnAditSeq n (word (place 12 12 a.txAck + place 0 12 a.txNext))
  let s := s.setReg .lnAditRx n
    (word (place 12 12 ((a.rxNext + 4096 - a.rxTokens.length) % 4096) + place 0 12 a.rxNext))
  s.setReg .lnAditCred n (word (256 - (a.txNext + 4096 - a.farCred) % 4096))

/-! ### The transmitted line (11_lane_electrical R246, R253) -/

/-- Bits of a board table entry (11_lane_electrical R252). -/
def beqBits (t : Tab Word) (e lo len : Nat) : Nat := cfgBits t 40 24 0 (64 * e + lo) len
/-- `LOOP` (11_lane_electrical R272). -/
def State.loop (s : State) (n : Nat) : Nat := s.field .lnPmaCtrl n 4 2

/-- The three-tap filter over levels in order: an output for each level between two others. -/
def firOut (pre main post : Int) : List Int → List Int
  | x :: y :: z :: rest => (main * y - pre * z - post * x) :: firOut pre main post (y :: z :: rest)
  | _ => []

/-- Line symbols sent. The filter's taps are nominal, of the transmit entry in force, or 0, 64 and 0 in near serial loopback (R253,
R272); its output for a symbol needs the symbol after it. -/
def putLine (n : Nat) (syms : List Nat) (s : State) : State :=
  let e := s.field .lnEq n 10 6
  let near := s.loop n = 1
  let tap := fun (lo len : Nat) => (beqBits s.cfg e lo len : Int)
  s.modTx n fun t =>
    let l := t.tail ++ syms.map (levelOf (lnPam4 s.cfg n))
    { t with line := syms, tail := l.drop (l.length - 2)
             fir := if near then firOut 0 64 0 l else firOut (tap 0 5) (tap 5 6) (tap 11 5) l }

/-- A training burst sent: neither half is precoded, polarity applies, and the precoder starts afresh after it (R264, R247). -/
def sendBurst (n : Nat) (s : State) : State :=
  let pam := lnPam4 s.cfg n
  (putLine n ((burstSymbols pam).map (invertSymbol pam (lnCfg s.cfg n 17 1 = 1))) s).modTx n fun t =>
    { t with bursts := t.bursts + 1, pre := 0 }

/-- R246, R247, R269: the line symbols of bits in transmission order, through mapping, precoder, injection into the first symbol, and
inversion; and the precoder's state after them. -/
def lineSymbols (n : Nat) (pre hot : Bool) (bits : List Bool) (s : State) : List Nat × Nat :=
  let pam := lnPam4 s.cfg n
  let r := if pam then pamSymbols pre (s.lane n).tx.pre bits else (bits.map bitNat, (s.lane n).tx.pre)
  let hit := match r.1 with | x :: rest => (if hot then x ^^^ 1 else x) :: rest | [] => []
  (hit.map (invertSymbol pam (lnCfg s.cfg n 17 1 = 1)), r.2)

/-- Bits sent in transmission order. -/
def driveBits (n : Nat) (pre hot : Bool) (bits : List Bool) (s : State) : State :=
  let r := lineSymbols n pre hot bits s
  (putLine n r.1 s).modTx n fun t => { t with pre := r.2 }

/-- `TX_PRECODE`. -/
def lnTxPre (t : Tab Word) (n : Nat) : Bool := lnCfg t n 15 1 = 1
/-- The 66 bits of a block in the order sent: the header first (12_lane_link R280). -/
def blockBits (b : Block66) : List Bool := [b.hdr.getLsbD 1, b.hdr.getLsbD 0] ++ bitsLsb 64 b.bits.toNat

/-! ### Locks (11_lane_electrical R260) -/

/-- The transmit entry in force under R256 is applied. -/
def applyTxEq (n : Nat) (s : State) : State :=
  let eq := s.reg .lnEq n
  s.setField .lnEq n 10 6 (if eq.getLsbD 0 then bitsOf 26 6 eq.toNat else lnCfg s.cfg n 26 6)
/-- The receive entry in force under R256 is applied. -/
def applyRxEq (n : Nat) (s : State) : State :=
  let eq := s.reg .lnEq n
  s.setField .lnEq n 4 6 (if eq.getLsbD 0 then bitsOf 20 6 eq.toNat else lnCfg s.cfg n 20 6)

/-- The checker searches again (R268). -/
def checkerSearch (n : Nat) (s : State) : State :=
  (s.setField .lnPatStatus n 0 1 0).modRx n fun r => { r with chk := 0, chkRun := 0, chkErr := 0 }

/-- The receiver hears something to lock to: the signal, or its own transmitter in near serial loopback (R260, R272). -/
def State.hears (s : State) (n : Nat) : Bool := s.signal n || s.loop n = 1

/-- A lock cause: the sequence starts or restarts at step 1, and the checker returns to search (R260, R268). The transmitter takes its
entry here, the receiver once there is something to hear, which also ends receive idle. -/
def lockStart (n : Nat) (s : State) : State :=
  let s := checkerSearch n (((s.setPma n 2 false).setPma n 3 false).setPma n 4 false)
  let hears := s.hears n
  let s := applyTxEq n (s.modRx n fun r => { r with locking := true, heard := hears })
  if hears then applyRxEq n ((s.modRx n fun r => { r with lost := false }).setPma n 6 false) else s

/-- The receiver stops: no lock in progress, nothing locked. -/
def lockStop (n : Nat) (s : State) : State :=
  let s := ((s.setPma n 2 false).setPma n 3 false).setPma n 4 false
  s.modRx n fun r => { r with locking := false }

/-- Block lock and codeword lock lost with what depends on them. -/
def unalign (n : Nat) (s : State) : State :=
  let s := (s.setLink n 9 false).setLink n 10 false
  let s := s.modRx n fun r =>
    { r with bits := [], phase := 0, runs := [], align := none, inval := 0,
             cw := [], cwPhase := 0, cwTried := true, cwRuns := [], cwAlign := none, cwBad := 0 }
  s.modAdit n fun a => { a with frame := none, frameErr := false, inbox := [], matched := 0, oks := 0 }

/-! ### The link state -/

/-- The Crusher client that a lane feeds is interrupted (08_sump R183). -/
def interruptLaneClient (n : Nat) (s : State) : State :=
  if lnRxCr s.cfg n then
    match s.laneClient n with
    | some e => interruptClient e n s
    | none => s
  else s

/-- A transmit frame cut short is counted (12_lane_link R286, R288). -/
def countUnderrun (n : Nat) (s : State) : State := flagLink n 6 (countLink .lnTxUnderrun 4 n s)

/-- R295: the lane reset. -/
def laneReset (n : Nat) (s : State) : State :=
  let t := (s.lane n).tx
  let fromQueue := lnTxqEn s.cfg n
  let cut := fromQueue && (t.draining || t.opened || t.inFrame)
  let s := portalReset (lanePortal n 1) (portalReset (lanePortal n 0) s)
  let s := { s with crossings := { s.crossings with toCrusher := tabErase s.crossings.toCrusher n
                                                    fromCrusher := tabErase s.crossings.fromCrusher n
                                                    fromSump := tabErase s.crossings.fromSump n
                                                    sumpHeld := tabErase s.crossings.sumpHeld n }
                    crushers := { s.crushers with stops := s.crushers.stops.filter (·.1 ≠ n) } }
  let s := s.modTx n fun t =>
    { t with out := [], inFrame := false, bytes := [], opened := false, started := false
             skip := if fromQueue then t.draining else lnTxCr s.cfg n && (t.opened || t.skip) }
  let s := s.modRx n fun r =>
    { r with buf := [], inArrival := false, cutting := false, gap := false, bytes := [], inPkt := false, bad := false, begun := false }
  if cut then countUnderrun n s else s

/-- R294: link-down is declared. An ADIT lane sends no frame from then on: what was to be sent is dropped, and the replay buffer keeps
the tokens. -/
def linkDown (n : Nat) (s : State) : State :=
  let s := if s.isAdit n then s.modTx n fun t => { t with out := [], inFrame := false } else s
  if s.bit .lnLinkStatus n 12 then s
  else
    let s := flagLink n 1 (s.setLink n 12 true)
    if s.isAdit n then flagAdit (n / 4) (4 + n % 4) s else s

/-- R291 step 5: UP is reached. -/
def linkUp (n : Nat) (s : State) : State :=
  let s := ((s.setLaneState n 5).setLink n 8 false).setLink n 12 false
  let s := flagLink n 0 s
  if s.isAdit n then
    flagAdit (n / 4) (n % 4) (s.modAdit n fun a => { a with kept := true, matched := 0, oks := 0 })
  else s

/-- R291: a lane goes on to the next step that its service uses, once the step before it is done. -/
def advanceLink (n : Nat) (s : State) : State :=
  let aligned := fun (s : State) => s.bit .lnLinkStatus n 9 && (!(lnFec s.cfg n) || s.bit .lnLinkStatus n 10)
  let s :=
    if s.laneState n = 2 ∧ s.ready n ∧ s.bit .lnPmaStatus n 0 then
      (if lnProto s.cfg n = 1 then linkUp n s else s.setLaneState n 3)
    else s
  if s.laneState n = 3 ∧ aligned s then (if s.isAdit n then s.setLaneState n 4 else linkUp n s) else s

/-- R291 steps 1 and 2: the lane leaves OFF or WAIT. -/
def beginLock (n : Nat) (s : State) : State := lockStart n (unalign n (s.setLaneState n 2))

/-- R291, R296: what an enabled lane does at the start of bring-up. -/
def bringUp (n : Nat) (s : State) : State :=
  if s.laneOn n then
    if lnProto s.cfg n = 0 then lockStart n (s.setLaneState n 0)
    else if s.gen n ≠ 0 then lockStart n (unalign n (s.setLaneState n 7))
    else
      let open? := match lnHpMode s.cfg n with
        | 1 => s.bit .lbHpd (n / 4) 0
        | 2 => s.signal n
        | _ => true
      if open? then beginLock n s else (unalign n (lockStop n s)).setLaneState n 1
  else s.setLaneState n 0

/-- R292: a retrain starts. -/
def retrain (n : Nat) (s : State) : State :=
  let s := flagLink n 2 (countLink .lnRetrains 5 n (s.setLink n 8 true))
  let s := if s.isAdit n then s else laneReset n s
  beginLock n (interruptLaneClient n s)

/-- R292: a cause on a lane that is UP or in TRAIN starts a retrain; elsewhere the bring-up starts again at LOCK. -/
def linkCause (n : Nat) (s : State) : State :=
  if s.laneState n = 5 ∨ s.laneState n = 4 then retrain n s
  else if s.laneState n = 2 ∨ s.laneState n = 3 ∨ s.laneState n = 6 then beginLock n s
  else lockStart n s

/-- The electrical idle that the link layer or the host asks for (11_lane_electrical R263, 12_lane_link R296). -/
def State.idleAsked (s : State) (n : Nat) : Bool :=
  s.bit .lnPmaCtrl n 6 || s.laneState n = 1 || s.bit .lnLinkCtrl n 2 || (s.lane n).tx.idleWanted

/-! ### Events of the lane's analog part -/

/-- The transmitter stops driving: the filter's next symbol follows no level (R263). -/
def quietTx (n : Nat) (s : State) : State := (s.setPma n 5 true).modTx n fun t => { t with tail := [0] }

/-- R244, R291: the transmit PLL has locked. -/
def txpllLock (n : Nat) (s : State) : State :=
  if s.laneOn n ∧ s.refOk n ∧ s.bit .lnPmaStatus n 0 = false then
    let s := s.setPma n 0 true
    let s := if s.idleAsked n then s else sendBurst n (s.setPma n 5 false)
    let s := if (s.lane n).rx.locking ∨ s.ready n ∨ s.laneState n = 1 then s else lockStart n s
    advanceLink n s
  else s

/-- R245: a reference clock is lost. -/
def refclkLoss (k : Nat) (s : State) : State :=
  if refUsed s.cfg k ∧ s.bit .lbStatus (2 * k) 0 then
    -- a test of a bench that loses its clock stops (18_self_test_faults R446)
    let s := stopTests (fun r => r.type = 4 && r.target / 2 = k) s
    (List.range 2).foldl (fun s i =>
      let b := 2 * k + i
      let s := flagBench b 0 (s.setField .lbStatus b 0 1 0)
      (List.range 4).foldl (fun s p =>
        let n := 4 * b + p
        if s.pmaOn n then
          let s := lockStop n (quietTx n (s.setPma n 0 false))
          if 2 ≤ s.laneState n ∧ s.laneState n ≤ 6 then unalign n (s.setLaneState n 2) else s
        else s) s) s
  else s

/-- R245: a reference clock is back; each lane then locks its transmit PLL. -/
def refclkBack (k : Nat) (s : State) : State :=
  if refUsed s.cfg k ∧ s.bit .lbStatus (2 * k) 0 = false ∧ s.sysRuns ∧ s.configured then
    (List.range 2).foldl (fun s i => flagBench (2 * k + i) 1 (s.setField .lbStatus (2 * k + i) 0 1 1)) s
  else s

/-- The link layer's own idle: a lane that waits, is held OFF or sleeps (11_lane_electrical R263, R265). -/
def State.linkIdle (s : State) (n : Nat) : Bool := s.laneState n = 1 || s.bit .lnLinkCtrl n 2 || (s.lane n).tx.idleWanted

/-- Receive idle is entered (R265): decisions are ignored until a burst or a lock. -/
def enterRxIdle (n : Nat) (s : State) : State := (s.setPma n 6 true).setPma n 4 false

/-- An edge that a detector takes while SYS is stopped waits for the end of the sleep. -/
def noteEdge (e : SleepEdge) (s : State) : State := s.withPower fun p => { p with edges := p.edges ++ [e] }

/-- R259: `SD_RISE` or `SD_FALL`. -/
def flagSignal (n : Nat) (rise : Bool) (s : State) : State :=
  if lnCfg s.cfg n 11 1 = 1 then flagPma n (if rise then 0 else 1) s else s

/-- R259, R260: signal detect asserts. -/
def signalRise (n : Nat) (s : State) : State :=
  if lnRate s.cfg n ≠ 0 ∧ s.benchOn (n / 4) ∧ s.configured ∧ s.signal n = false then
    let s := s.setPma n 1 true
    if s.pmaOn n then
      let s := flagSignal n true s
      if s.laneOn n then
        if s.laneState n = 1 then (if lnHpMode s.cfg n = 2 then bringUp n s else s)
        else if s.refOk n then lockStart n s else s
      else s
    else noteEdge (.signal n true) s
  else s

/-- R259, R265, R292: signal detect deasserts. The receiver enters receive idle, or completes its lock first (R273). -/
def signalFall (n : Nat) (s : State) : State :=
  if lnRate s.cfg n ≠ 0 ∧ s.benchOn (n / 4) ∧ s.configured ∧ s.signal n then
    let s := s.setPma n 1 false
    if s.pmaOn n then
      let s := (flagSignal n false s).modRx n fun r => { r with lost := true }
      let s := if (s.lane n).rx.locking && (s.lane n).rx.heard then s else enterRxIdle n s
      if s.laneState n = 5 ∨ s.laneState n = 4 then retrain n (logFault 0x09 n s) else s
    else noteEdge (.signal n false) s
  else s

/-- A write of `RELOCK` (R260). -/
def relockWrite (n : Nat) (s : State) : State := if s.laneOn n then lockStart n s else s

/-- A level of the search as a signed number. -/
def levelInt (b : BitVec 8) : Int := b.toInt

/-- R261: the search passes. -/
def levelsPass (l0 l1 l2 l3 : BitVec 8) : Bool :=
  let a := levelInt l1 - levelInt l0
  let b := levelInt l2 - levelInt l1
  let c := levelInt l3 - levelInt l2
  0 < a && 0 < b && 0 < c && 4 * (levelInt l3 - levelInt l0) ≤ 15 * min a (min b c)

/-- R260 step 5: `READY`; where idle was asked for during the lock, receive idle applies instead (R273). -/
def lockEnd (n : Nat) (s : State) : State :=
  let s := s.modRx n fun r => { r with locking := false }
  if !(s.hears n) || s.linkIdle n then enterRxIdle n s else advanceLink n (s.setPma n 4 true)

/-- R260 steps 3 to 5: the lock reaches its end, or the level search fails and repeats. -/
def lockDone (n : Nat) (l0 l1 l2 l3 : BitVec 8) (s : State) : State :=
  if s.laneOn n ∧ (s.lane n).rx.locking ∧ (s.lane n).rx.heard ∧ s.refOk n then
    let s := s.setPma n 2 true
    if lnPam4 s.cfg n then
      let s := s.setReg .lnLevels n (word (place 24 8 l3.toNat + place 16 8 l2.toNat + place 8 8 l1.toNat + l0.toNat))
      if levelsPass l0 l1 l2 l3 then lockEnd n (s.setPma n 3 true) else flagPma n 3 s
    else lockEnd n (s.setReg .lnLevels n (word (place 24 8 l3.toNat + l0.toNat)))
  else s

/-- R262: loss of CDR lock while READY. -/
def cdrLoss (n : Nat) (s : State) : State :=
  if s.pmaOn n ∧ s.ready n then linkCause n (flagPma n 2 ((s.setPma n 4 false).setPma n 2 false)) else s

/-- R263, R265: electrical idle is entered. Where the link layer asks for it the receiver idles too, once a lock in progress is
complete (R273). -/
def txIdleEntry (n : Nat) (s : State) : State :=
  if s.pmaOn n ∧ s.idleAsked n ∧ s.bit .lnPmaStatus n 5 = false then
    let s := quietTx n s
    if s.linkIdle n && !((s.lane n).rx.locking && (s.lane n).rx.heard) then enterRxIdle n s else s
  else s

/-- R263, R264: electrical idle is left by a training burst. -/
def txIdleExit (n : Nat) (s : State) : State :=
  if s.laneOn n ∧ s.idleAsked n = false ∧ s.bit .lnPmaStatus n 5 ∧ s.bit .lnPmaStatus n 0 then sendBurst n (s.setPma n 5 false)
  else s

/-- A lane counter's overflow: its bit of `LNnn_PAT_STATUS`, and `CNT_OVF` (R270). -/
def patOverflow (n b : Nat) (s : State) : State := flagPma n 6 (s.setBits .lnPatStatus n (bitWord b))

/-! ### The receiver's decisions (11_lane_electrical R246, R254, R261) -/

/-- A level of `LNnn_LEVELS`. -/
def State.level (s : State) (n i : Nat) : Int := (BitVec.ofNat 8 (s.field .lnLevels n (8 * i) 8)).toInt
/-- L3 - L0, twice the A of R254. -/
def State.span (s : State) (n : Nat) : Int := s.level n 3 - s.level n 0
/-- R261: the thresholds, midway between adjacent levels; zero on NRZ. In 768ths of a level step. -/
def State.thresholds (s : State) (n : Nat) : List Int :=
  if lnPam4 s.cfg n then (List.range 3).map fun i => 384 * (s.level n i + s.level n (i + 1)) else [0]

/-- A tap of the receive entry in force, two's complement (R252); none works in near serial loopback (R272). -/
def State.dfeTap (s : State) (n k : Nat) : Int :=
  let e := s.field .lnEq n 4 6
  if s.loop n = 1 then 0
  else if k = 0 then (BitVec.ofNat 7 (beqBits s.cfg e 21 7)).toInt else (BitVec.ofNat 6 (beqBits s.cfg e (22 + 6 * k) 6)).toInt

/-- R254: the peaking of the CTLE ahead of the slicers, in half dB, of the receive entry in force. Samples are given as they stand after it. -/
def State.ctlePeaking (s : State) (n : Nat) : Nat := beqBits s.cfg (s.field .lnEq n 4 6) 16 5

/-- R254: what the DFE subtracts before a decision, after the decisions given, the latest first. -/
def State.dfe (s : State) (n : Nat) (past : List Nat) : Int :=
  (List.range 6).foldl (fun x k => match past[k]? with
    | some d => x + s.dfeTap n k * levelOf (lnPam4 s.cfg n) d * s.span n
    | none => x) 0

/-- The decision for a value at the slicers: the thresholds that it exceeds. -/
def State.slice (s : State) (n : Nat) (x : Int) : Nat := (s.thresholds n).countP fun t => decide (t < x)

/-- R271: the auxiliary slicer decides otherwise than the data slicer of its eye. -/
def State.marginDiffers (s : State) (n : Nat) (x aux : Int) : Bool :=
  let eye := if lnPam4 s.cfg n then s.field .lnMargin n 16 2 else 0
  let thr := (s.thresholds n).getD eye 0
  let volt := (BitVec.ofNat 7 (s.field .lnMargin n 8 7)).toInt
  decide (thr + 3 * volt * s.span n < aux) != decide (thr < x)

/-- R271: a UI at the margin slicer, which samples every 16th. With `PHASE` 0 it samples with the data slicer. -/
def marginSample (n : Nat) (x aux : Int) (s : State) : State :=
  let ui := (s.lane n).rx.ui
  let s := s.modRx n fun r => { r with ui := (ui + 1) % 16 }
  if s.bit .lnMargin n 31 ∧ ui = 0 then
    let s := countStat .lnMarginSamp n (patOverflow n 6) s
    if s.marginDiffers n x (if s.field .lnMargin n 0 7 = 0 then x else aux) then countStat .lnMarginErr n (patOverflow n 5) s else s
  else s

/-- A UI decided. -/
def decideUi (n : Nat) (u : RxSample) (s : State) : Nat × State :=
  let sub := s.dfe n (s.lane n).rx.past
  let d := s.slice n (u.data - sub)
  (d, marginSample n (u.data - sub) (u.aux - sub) (s.modRx n fun r => { r with past := (d :: r.past).take 6 }))

/-- A stretch of UI decided in order. -/
def decideLine (n : Nat) : List RxSample → State → List Nat × State
  | [], s => ([], s)
  | u :: rest, s =>
    let a := decideUi n u s
    let r := decideLine n rest a.2
    (a.1 :: r.1, r.2)

/-- R265: the end of a received training burst, of which the PRBS13 half is given; its symbol errors decide. The receiver's precoder
state starts afresh after it (R247). -/
def burstCheck (n : Nat) (line : List RxSample) (s : State) : State :=
  if s.laneOn n ∧ s.bit .lnPmaStatus n 6 ∧ s.signal n ∧ (s.lane n).rx.lost = false ∧ (s.lane n).rx.locking = false then
    let pam := lnPam4 s.cfg n
    let (syms, s) := decideLine n line s
    let s := s.modRx n fun r => { r with pre := 0 }
    if burstErrors pam (syms.map (invertSymbol pam (lnCfg s.cfg n 18 1 = 1))) < 8 then
      advanceLink n ((s.setPma n 6 false).setPma n 4 true)
    else linkCause n (flagPma n 4 ((s.setPma n 6 false).setPma n 4 false))
  else s

/-! ### Patterns, injection and margins -/

/-- R266: a pattern code is allowed for the lane's rate. -/
def patternAllowed (t : Tab Word) (n code : Nat) : Bool := code ≤ 6 || code = 0xA || (7 ≤ code && code ≤ 9 && lnPam4 t n)

/-- A pattern begins. The spec gives a PRBS no start: its register holds any state but zero. -/
def startPattern (n code : Nat) (s : State) : State :=
  match prbsTaps code with
  | some (len, _) =>
    let (f, s) := s.takeFree
    s.modTx n fun t => { t with gen := Config.freeNat f % (2 ^ len - 1) + 1 }
  | none => s.modTx n fun t => { t with gen := 0 }

/-- R267, R305: `GEN` written. -/
def genWrite (n code : Nat) (s : State) : State :=
  if patternAllowed s.cfg n code then
    let old := s.gen n
    let s := if old = code then s else startPattern n code s
    let s := s.setField .lnPatCtrl n 0 4 code
    if s.laneOn n ∧ lnProto s.cfg n ≠ 0 then
      if old = 0 ∧ code ≠ 0 then linkDown n (((unalign n s).setLaneState n 7).setLink n 8 false)
      else if old ≠ 0 ∧ code = 0 then bringUp n (s.modTx n fun t => { t with inject := false })
      else s
    else s
  else s

/-- R267, R268: `CHK` written; a change returns the checker to search without a count. -/
def chkWrite (n code : Nat) (s : State) : State :=
  if patternAllowed s.cfg n code ∧ s.field .lnPatCtrl n 8 4 ≠ code then
    checkerSearch n (s.setField .lnPatCtrl n 8 4 code)
  else s

/-- The user pattern of a lane (R266). -/
def State.patUser (s : State) (n : Nat) : Nat := (s.reg .lnPatUserLo n).toNat + 2 ^ 32 * (s.reg .lnPatUserHi n).toNat
/-- `CHK`. -/
def State.chkCode (s : State) (n : Nat) : Nat := s.field .lnPatCtrl n 8 4
/-- `CHK_LOCK`. -/
def State.chkLock (s : State) (n : Nat) : Bool := s.bit .lnPatStatus n 0

/-- R268: the state with which a searching checker would synchronise now: the register that the bits received have filled, after 128
correct bits, or the place found of another pattern. -/
def State.checkerReady (s : State) (n : Nat) : Option Nat :=
  let r := (s.lane n).rx
  match prbsTaps (s.chkCode n) with
  | some (len, _) => if 128 ≤ r.chkRun then some (r.chk % 2 ^ len) else none
  | none => if 64 ≤ r.chkRun then patternPlace (s.chkCode n) (s.patUser n) r.chk else none

/-- R268: the checker synchronises. -/
def checkerSync (n : Nat) (s : State) : State :=
  if s.pmaOn n ∧ s.ready n ∧ s.chkCode n ≠ 0 ∧ s.chkLock n = false then
    match s.checkerReady n with
    | some g => (s.setField .lnPatStatus n 0 1 1).modRx n fun r => { r with chk := g, chkErr := 0 }
    | none => s
  else s

/-- A 48-bit lane counter advanced (R270). -/
def count48 (lo hi : RegKind) (b n k : Nat) (s : State) : State :=
  let v := (s.reg lo n).toNat + 2 ^ 32 * (s.reg hi n).toNat
  let t := min (v + k) (2 ^ 48 - 1)
  let s := (s.setReg lo n (word t)).setReg hi n (word (t / 2 ^ 32))
  if v < 2 ^ 48 - 1 ∧ t = 2 ^ 48 - 1 then patOverflow n b s else s

/-- R268: a window of 1,024 bits holds 64 or more errors. -/
def State.checkerLost (s : State) (n : Nat) : Bool := 64 ≤ onesOf 1024 (s.lane n).rx.chkErr

/-- R268, R270: the checker returns to search. -/
def checkerLoss (n : Nat) (s : State) : State :=
  if s.pmaOn n ∧ s.chkLock n ∧ s.checkerLost n then
    flagPma n 5 (countStat .lnPrbsRelock n (patOverflow n 4) (checkerSearch n s))
  else s

/-- A bit at a checker that searches: of a PRBS, correct if it follows from the bits before it. -/
def searchBit (code : Nat) (b : Bool) (r : LaneRx) : LaneRx :=
  let next := (2 * r.chk + bitNat b) % 2 ^ 64
  match prbsTaps code with
  | some (len, taps) =>
    let ok := r.chk % 2 ^ len ≠ 0 && parityOf 31 (r.chk &&& taps) = b
    { r with chk := next, chkRun := if ok then r.chkRun + 1 else 0 }
  | none => { r with chk := next, chkRun := min 64 (r.chkRun + 1) }

/-- R268, R270: a bit at the checker, and whether it is in error. What synchronises the checker or ends its synchronisation takes effect
before the next bit. -/
def checkBit (n : Nat) (b : Bool) (s : State) : Bool × State :=
  let s := checkerLoss n (checkerSync n s)
  if s.chkLock n then
    let p := patternNext (s.chkCode n) (s.patUser n) (s.lane n).rx.chk
    let bad := p.1 != b
    let s := count48 .lnPrbsBitsLo .lnPrbsBitsHi 1 n 1 s
    let s := if bad then count48 .lnPrbsErrLo .lnPrbsErrHi 2 n 1 s else s
    (bad, s.modRx n fun r => { r with chk := p.2, chkErr := (2 * r.chkErr + bitNat bad) % 2 ^ 1024 })
  else (false, s.modRx n (searchBit (s.chkCode n) b))

/-- R267, R270: the bits of a symbol at the checker. -/
def checkSymbol (n : Nat) (bits : List Bool) (s : State) : State :=
  let r := bits.foldl (fun (a : Bool × State) b => let c := checkBit n b a.2; (a.1 || c.1, c.2)) (false, s)
  if r.1 then countStat .lnPrbsSymerr n (patOverflow n 3) r.2 else r.2

/-- R269: an inversion at the next line symbol, of the pattern, or of PCS data while `INJ_DATA` is 1. -/
def inject (n : Nat) (s : State) : State :=
  if s.laneOn n ∧ (s.gen n ≠ 0 ∨ s.bit .lnPatCtrl n 29) then s.modTx n fun t => { t with inject := true } else s

/-- R269: the periodic injection. -/
def injectRate (n : Nat) (s : State) : State := if s.field .lnPatCtrl n 24 5 = 0 then s else inject n s

/-- R270: `CLR` clears the pattern and margin counters and their overflow bits. -/
def patClear (n : Nat) (s : State) : State :=
  let s := [RegKind.lnPrbsBitsLo, .lnPrbsBitsHi, .lnPrbsErrLo, .lnPrbsErrHi, .lnPrbsSymerr, .lnPrbsRelock, .lnMarginSamp,
    .lnMarginErr].foldl (fun s k => s.setReg k n 0) s
  s.setReg .lnPatStatus n (s.reg .lnPatStatus n &&& 1)

/-- R271: `LNnn_MARGIN` written: a phase outside -32 to +32, a voltage of -64 and `EYE` 0b11 leave their fields unchanged; a change
of any field clears both counters. -/
def marginWrite (n : Nat) (val : Word) (s : State) : State :=
  let old := s.reg .lnMargin n
  let v := val.toNat
  let phase := bitsOf 0 7 v
  let new := place 31 1 (bitsOf 31 1 v) +
    place 16 2 (if bitsOf 16 2 v = 3 then bitsOf 16 2 old.toNat else bitsOf 16 2 v) +
    place 8 7 (if bitsOf 8 7 v = 64 then bitsOf 8 7 old.toNat else bitsOf 8 7 v) +
    (if phase ≤ 32 ∨ 96 ≤ phase then phase else bitsOf 0 7 old.toNat)
  let s := s.setReg .lnMargin n (word new)
  if word new = old then s else (s.setReg .lnMarginSamp n 0).setReg .lnMarginErr n 0

/-- R272: `LOOP` written; a change starts a lock and drops the lane's link. -/
def loopWrite (n loop : Nat) (s : State) : State :=
  if loop = 3 ∨ s.field .lnPmaCtrl n 4 2 = loop then s
  else
    let s := s.setField .lnPmaCtrl n 4 2 loop
    if s.laneOn n then
      if 2 ≤ s.laneState n ∧ s.laneState n ≤ 6 then beginLock n s else lockStart n s
    else s

/-- R256: `LNnn_EQ` written: an override that names entries not defined for the lane's rate is not taken. -/
def eqWrite (n : Nat) (val : Word) (s : State) : State :=
  let v := val.toNat
  if beqFits s.cfg n (bitsOf 26 6 v) && beqFits s.cfg n (bitsOf 20 6 v) then
    s.setReg .lnEq n (codedValue .lnEq (s.reg .lnEq n) val)
  else s.setField .lnEq n 0 1 0

/-! ### Commands of the link -/

/-- R292, R305: `RETRAIN` written. -/
def retrainWrite (n : Nat) (s : State) : State :=
  if s.laneOn n then
    if s.bit .lnLinkStatus n 8 then (if 2 ≤ s.laneState n ∧ s.laneState n ≤ 6 then beginLock n s else s)
    else if s.laneState n = 5 ∨ s.laneState n = 4 then retrain n s
    else s
  else s

/-- `EPOCH` advances (12_lane_link R303). -/
def advanceEpoch (n : Nat) (s : State) : State := s.setField .lnLinkStatus n 24 8 ((s.epoch n + 1) % 256)

/-- R303: `LINK_RESET` written. -/
def linkResetWrite (n : Nat) (s : State) : State := if s.isAdit n then advanceEpoch n s else s

/-- R290, R294, R295: `DISABLE` written 1. -/
def disableWrite (n : Nat) (s : State) : State :=
  if s.bit .lnLinkCtrl n 2 then s
  else
    let was := s.laneOn n && lnProto s.cfg n ≠ 0
    let on := s.pmaOn n
    let s := s.setField .lnLinkCtrl n 2 1 1
    let s := if was then linkDown n s else s
    let s := if on then interruptLaneClient n (laneReset n s) else s
    (unalign n (lockStop n (s.setLaneState n 0))).setLink n 8 false

/-- `DISABLE` written 0: the lane brings up. -/
def enableWrite (n : Nat) (s : State) : State :=
  if s.bit .lnLinkCtrl n 2 then bringUp n (s.setField .lnLinkCtrl n 2 1 0) else s

/-- R294: the link-down time passes without UP. -/
def linkDownTimeout (n : Nat) (s : State) : State :=
  let st := s.laneState n
  if s.laneOn n ∧ 2 ≤ lnProto s.cfg n ∧ (st = 2 ∨ st = 3 ∨ st = 4 ∨ st = 6) then
    let s := linkDown n s
    if lnHpMode s.cfg n = 2 ∧ s.signal n = false then
      ((unalign n (lockStop n s)).setLaneState n 1).setLink n 8 false
    else s
  else s

/-- R296: what a bench's lanes in HPD mode do when a cable comes. -/
def benchIn (b : Nat) (s : State) : State :=
  (List.range 4).foldl (fun s p =>
    let n := 4 * b + p
    if s.laneOn n ∧ lnHpMode s.cfg n = 1 ∧ s.laneState n = 1 then bringUp n s else s) (flagBench b 8 s)

/-- R294, R296, R305: and when it goes. -/
def benchOut (b : Nat) (s : State) : State :=
  (List.range 4).foldl (fun s p =>
    let n := 4 * b + p
    if s.laneOn n ∧ lnProto s.cfg n ≠ 0 ∧ lnHpMode s.cfg n = 1 ∧ 2 ≤ s.laneState n ∧ s.laneState n ≤ 6 then
      ((unalign n (lockStop n (linkDown n s))).setLaneState n 1).setLink n 8 false
    else s) (flagBench b 9 s)

/-- R296: debounced HPD rises. The debouncer runs in every mode. -/
def hpdIn (b : Nat) (s : State) : State :=
  if s.bit .lbHpd b 0 then s
  else
    let s := s.setField .lbHpd b 0 1 1
    if s.configured then (if s.sysRuns then benchIn b s else noteEdge (.hpd b true) s) else s

/-- R296: debounced HPD falls. -/
def hpdOut (b : Nat) (s : State) : State :=
  if s.bit .lbHpd b 0 then
    let s := s.setField .lbHpd b 0 1 0
    if s.configured then (if s.sysRuns then benchOut b s else noteEdge (.hpd b false) s) else s
  else s

/-- The edges taken while SYS was stopped reach their flags and lanes at the end of the sleep (R259, R296). -/
def replayEdges (s : State) : State :=
  let es := s.power.edges
  es.foldl (fun s e => match e with
    | .signal n rise => flagSignal n rise s
    | .hpd b true => benchIn b s
    | .hpd b false => benchOut b s) (s.withPower fun p => { p with edges := [] })

/-- R296: a waiting lane in SD mode sends a training burst. -/
def sdBurst (n : Nat) (s : State) : State :=
  if s.laneOn n ∧ s.laneState n = 1 ∧ lnHpMode s.cfg n = 2 ∧ s.bit .lnPmaStatus n 0 then sendBurst n s else s

/-! ### Starts and stops of whole lanes -/

/-- A block scrambled (12_lane_link R280): the transmitter's scrambler after it, and the block. -/
def scrambled (scr : Nat) (ctrl : Bool) (payload : Nat) : Nat × Block66 :=
  let w := scrambleWord false scr payload
  (w.1, { hdr := if ctrl then 2 else 1, bits := BitVec.ofNat 64 w.2 })

/-- Equal control blocks in a row. -/
def manyBlocks (payload : Nat) : Nat → Nat → List Block66 × Nat
  | 0, scr => ([], scr)
  | k + 1, scr =>
    let b := scrambled scr true payload
    let r := manyBlocks payload k b.1
    (b.2 :: r.1, r.2)

/-- What a lane sends before it stops: DOWN blocks, on an ADIT lane (12_lane_link R304, 16_power R382); under FEC the spec's microsecond
of them fills codewords, of which one is shown. -/
def sendDown (n : Nat) (s : State) : State :=
  if s.isAdit n ∧ s.laneOn n ∧ s.bit .lnPmaStatus n 5 = false then
    let fec := lnFec s.cfg n
    let r := manyBlocks 0x78 (if fec then 80 else 1) (s.lane n).tx.scr
    driveBits n (lnTxPre s.cfg n) false (if fec then codewordBits r.1 else r.1.flatMap blockBits)
      (s.modTx n fun t => { t with scr := r.2, out := [], inFrame := false, cw := [], sent := r.1.getLast? })
  else s

/-- The Adit state of a lane is lost (12_lane_link R303, 13_chains R324). -/
def loseAdit (n : Nat) (s : State) : State := showAdit n (s.modAdit n fun _ => {})

/-- R295, R304: a lane whose bench powers down. -/
def laneOff (n : Nat) (s : State) : State :=
  let s := interruptLaneClient n (laneReset n (sendDown n s))
  let s := loseAdit n (s.modLane n fun l =>
    { (({} : Lane)) with tx := { (({} : LaneTx)) with bursts := l.tx.bursts, draining := l.tx.draining, skip := l.tx.skip, sent := l.tx.sent, line := l.tx.line } })
  (s.setReg .lnPmaStatus n 0).setReg .lnLinkStatus n (s.reg .lnLinkStatus n &&& 0xFF001000#32)

/-- R291, R304: a lane whose bench powers up: its `EPOCH` advances, and it brings up from step 1. -/
def laneBack (n : Nat) (s : State) : State :=
  let s := if s.isAdit n then advanceEpoch n s else s
  bringUp n s

/-- LOAD_RUN and the end of START: a lane is enabled; an ADIT lane takes its `EPOCH` from the load count (R303, 13_chains R325). -/
def laneEnable (n : Nat) (s : State) : State :=
  let s := s.setField .lnLinkStatus n 24 8 (if s.isAdit n then (s.reg .cfgLoadcount 0).toNat % 256 else 0)
  bringUp n s

/-- 16_power R382: a lane at the entry to STANDBY. -/
def laneSleep (n : Nat) (s : State) : State :=
  if s.laneOn n then
    let s := sendDown n s
    let s := (quietTx n s).modTx n fun t => { t with idleWanted := true }
    lockStop n ((s.setPma n 0 false).setPma n 6 true)
  else s

/-- 16_power R383, R384: a lane at the exit of STANDBY. -/
def laneResume (n : Nat) (s : State) : State :=
  if s.laneOn n then
    let s := s.modTx n fun t => { t with idleWanted := false }
    let s := if s.isAdit n ∨ lnProto s.cfg n = 0 then s else interruptLaneClient n (laneReset n s)
    bringUp n (s.setPma n 6 false)
  else s

/-! ### Meanings -/

/-- A host's write of bits to a lane register that its command names. -/
def lnWrite (p : HostPort) (k : RegKind) (n : Fin 96) (bits : Nat) (f : Nat → State → State) (s : State) : Out :=
  .next (hostCommand p k n.val (s.actWord k n.val (word bits)) (f n.val) s)

/-- A host's write of a word to a lane register that gives read-write fields their values. -/
def lnSet (p : HostPort) (k : RegKind) (n : Fin 96) (val : Word) (f : Nat → State → State) (s : State) : Out :=
  .next (hostField p k n.val val (f n.val) s)

/-- TXPLL_LOCK (11_lane_electrical R244). -/
def execTxpllLock (n : Fin 96) (s : State) : Out := .next (txpllLock n.val s)
/-- REFCLK_LOSS (11_lane_electrical R245). -/
def execRefclkLoss (k : Fin 12) (s : State) : Out := .next (refclkLoss k.val s)
/-- REFCLK_BACK (11_lane_electrical R245). -/
def execRefclkBack (k : Fin 12) (s : State) : Out := .next (refclkBack k.val s)
/-- SIGNAL_DETECT_RISE (11_lane_electrical R259). -/
def execSignalDetectRise (n : Fin 96) (s : State) : Out := .next (signalRise n.val s)
/-- SIGNAL_DETECT_FALL (11_lane_electrical R259). -/
def execSignalDetectFall (n : Fin 96) (s : State) : Out := .next (signalFall n.val s)
/-- RELOCK (11_lane_electrical R260). -/
def execRelock (p : HostPort) (n : Fin 96) (s : State) : Out := lnWrite p .lnPmaCtrl n (2 ^ 7) relockWrite s
/-- RX_LOCK_DONE (11_lane_electrical R260, R261). -/
def execRxLockDone (n : Fin 96) (l0 l1 l2 l3 : BitVec 8) (s : State) : Out := .next (lockDone n.val l0 l1 l2 l3 s)
/-- CDR_LOCK_LOSS (11_lane_electrical R262). -/
def execCdrLockLoss (n : Fin 96) (s : State) : Out := .next (cdrLoss n.val s)
/-- TX_IDLE_ENTRY (11_lane_electrical R263). -/
def execTxIdleEntry (n : Fin 96) (s : State) : Out := .next (txIdleEntry n.val s)
/-- TX_IDLE_EXIT (11_lane_electrical R263). -/
def execTxIdleExit (n : Fin 96) (s : State) : Out := .next (txIdleExit n.val s)
/-- RX_BURST_CHECK (11_lane_electrical R265). -/
def execRxBurstCheck (n : Fin 96) (line : List RxSample) (s : State) : Out := .next (burstCheck n.val line s)
/-- PATTERN_GEN_SET (11_lane_electrical R267). -/
def execPatternGenSet (p : HostPort) (n : Fin 96) (g : BitVec 4) (s : State) : Out :=
  lnSet p .lnPatCtrl n (putField (s.actWord .lnPatCtrl n.val 0) 0 4 g.toNat) (fun n => genWrite n g.toNat) s
/-- PATTERN_CHK_SET (11_lane_electrical R267). -/
def execPatternChkSet (p : HostPort) (n : Fin 96) (c : BitVec 4) (s : State) : Out :=
  lnSet p .lnPatCtrl n (putField (s.actWord .lnPatCtrl n.val 0) 8 4 c.toNat) (fun n => chkWrite n c.toNat) s
/-- CHECKER_SYNC (11_lane_electrical R268). -/
def execCheckerSync (n : Fin 96) (s : State) : Out := .next (checkerSync n.val s)
/-- INJ_ONE (11_lane_electrical R269). -/
def execInjOne (p : HostPort) (n : Fin 96) (s : State) : Out := lnWrite p .lnPatCtrl n (2 ^ 30) inject s
/-- INJ_RATE_INJECTION (11_lane_electrical R269). -/
def execInjRateInjection (n : Fin 96) (s : State) : Out := .next (injectRate n.val s)
/-- PAT_COUNTER_CLEAR (11_lane_electrical R270). -/
def execPatCounterClear (p : HostPort) (n : Fin 96) (s : State) : Out := lnWrite p .lnPatCtrl n (2 ^ 31) patClear s
/-- MARGIN_WRITE (11_lane_electrical R271). -/
def execMarginWrite (p : HostPort) (n : Fin 96) (v : Word) (s : State) : Out :=
  lnSet p .lnMargin n v (fun n s => noteReserved p .lnMargin n v (marginWrite n v s)) s
/-- LOOPBACK_CHANGE (11_lane_electrical R272). -/
def execLoopbackChange (p : HostPort) (n : Fin 96) (l : BitVec 2) (s : State) : Out :=
  lnSet p .lnPmaCtrl n (putField (s.actWord .lnPmaCtrl n.val 0) 4 2 l.toNat) (fun n => loopWrite n l.toNat) s
/-- EQ_OVERRIDE_WRITE (11_lane_electrical R256). -/
def execEqOverrideWrite (p : HostPort) (n : Fin 96) (v : Word) (s : State) : Out :=
  lnSet p .lnEq n v (fun n s => noteReserved p .lnEq n v (eqWrite n v s)) s
/-- LINK_RETRAIN_WRITE (12_lane_link R292). -/
def execLinkRetrainWrite (p : HostPort) (n : Fin 96) (s : State) : Out := lnWrite p .lnLinkCtrl n 1 retrainWrite s
/-- LINK_RESET_WRITE (12_lane_link R303). -/
def execLinkResetWrite (p : HostPort) (n : Fin 96) (s : State) : Out := lnWrite p .lnLinkCtrl n 2 linkResetWrite s
/-- LINK_DISABLE (12_lane_link R294). -/
def execLinkDisable (p : HostPort) (n : Fin 96) (s : State) : Out := lnSet p .lnLinkCtrl n 4 disableWrite s
/-- LINK_DOWN_TIMEOUT (12_lane_link R294). -/
def execLinkDownTimeout (n : Fin 96) (s : State) : Out := .next (linkDownTimeout n.val s)
/-- HPD_IN (12_lane_link R296). -/
def execHpdIn (b : Fin 24) (s : State) : Out := .next (hpdIn b.val s)
/-- HPD_OUT (12_lane_link R296). -/
def execHpdOut (b : Fin 24) (s : State) : Out := .next (hpdOut b.val s)
/-- SD_MODE_BURST (12_lane_link R296). -/
def execSdModeBurst (n : Fin 96) (s : State) : Out := .next (sdBurst n.val s)

end Sys2Proof.Machine
end

