-- ==== Sys2Proof/Machine/LaneData.lean ====
section
/-! DEFINITION. The lanes' data: block coding, the streaming and raw services, forward error correction and the Adit link (12_lane_link R280 to R303). -/

namespace Sys2Proof.Machine

/-! ### Blocks -/

/-- FILL (12_lane_link R280). -/
def fillPayload : Nat := 0x1E
/-- ERROR: type 0x1E with eight 7-bit characters of 0x1E (R280). -/
def errorPayload : Nat := (List.range 8).foldl (fun n i => n + 0x1E * 2 ^ (8 + 7 * i)) 0x1E
/-- The terminate types, by the bytes that they carry (R285). -/
def termTypes : List Nat := [0x87, 0x99, 0xAA, 0xB4, 0xCC, 0xD2, 0xE1, 0xFF]
/-- The bytes that a terminate block carries, if it is one. -/
def termBytes (payload : Nat) : Option Nat := termTypes.findIdx? (· = payload % 256)
/-- The control types that a service defines (R282, R297). -/
def typeDefined (adit : Bool) (payload : Nat) : Bool :=
  let t := payload % 256
  if adit then t = 0x1E || t = 0x2D || t = 0x33 || t = 0x55 || t = 0x66 || t = 0x4B || t = 0x78
  else t = 0x1E || t = 0x78 || termTypes.contains t

/-! ### Receive: the buffer and its consumers -/

/-- A block or word discarded at a full buffer (R286). -/
def countDrop (n : Nat) (s : State) : State := flagLink n 7 (countLink .lnRxDrop 3 n s)

/-- A received block of a stream is a start block. -/
def RxBlk.isStart (b : RxBlk) : Bool := b.ctrl && !b.err && b.payload % 256 = 0x78
/-- A received block of a stream is a terminate block. -/
def RxBlk.isTerm (b : RxBlk) : Bool := b.ctrl && !b.err && (termBytes b.payload).isSome

/-- Beats of 32 bytes cut from the front while more than 32 bytes are held, so that a packet's last beat carries its end. -/
def cutBeats : Nat → Bool → List Byte → List CBeat × Bool × List Byte
  | 0, begun, bs => ([], begun, bs)
  | fuel + 1, begun, bs =>
    if 32 < bs.length then
      let b : CBeat := { data := BitVec.ofNat 256 (natOfBytes (bs.take 32)), start := !begun, fin := false, bad := false,
                         mark := false, bytes := 32 }
      let r := cutBeats fuel true (bs.drop 32)
      (b :: r.1, r.2)
    else ([], begun, bs)

/-- R285: one block taken into the packet that is assembled for a Crusher client. -/
def assemble (b : RxBlk) (r : LaneRx) : List CBeat × LaneRx :=
  let bytes := bytesOf b.payload 8
  if r.inPkt = false then
    if b.isStart && b.cut then
      ([{ data := BitVec.ofNat 256 (natOfBytes (bytes.drop 1)), start := true, fin := true, bad := true, mark := false, bytes := 7 }], r)
    else if b.isStart then ([], { r with inPkt := true, bad := false, begun := false, bytes := bytes.drop 1 })
    else ([], r)
  else
    let more := if b.err then [] else if !b.ctrl then bytes else match termBytes b.payload with
      | some k => (bytes.drop 1).take k
      | none => []
    let bad := r.bad || b.cut || b.err || (b.ctrl && !b.isTerm)
    let c := cutBeats 3 r.begun (r.bytes ++ more)
    if b.isTerm || b.cut then
      let last : CBeat := { data := BitVec.ofNat 256 (natOfBytes c.2.2), start := !c.2.1, fin := true, bad := bad,
                            mark := false, bytes := c.2.2.length }
      (c.1 ++ [last], { r with inPkt := false, bad := false, begun := false, bytes := [] })
    else (c.1, { r with bad := bad, begun := c.2.1, bytes := c.2.2 })

/-- Blocks of a lane's buffer passed into the crossing to its Crusher client while that has room (R286, 09_portals R213). -/
def drainToCrusher (n : Nat) : Nat → State → State
  | 0, s => s
  | fuel + 1, s =>
    match (s.lane n).rx.buf with
    | [] => s
    | b :: rest =>
      if (tabGet [] s.crossings.toCrusher n).length + 2 ≤ 8 then
        let (beats, r) := assemble b { (s.lane n).rx with buf := rest }
        let s := s.modRx n fun _ => r
        drainToCrusher n fuel
          { s with crossings := { s.crossings with toCrusher := tabMod [] s.crossings.toCrusher n (· ++ beats) } }
      else s

/-- R286: a block or word for the IN portal. -/
def storePortal (n : Nat) (b : RxBlk) (s : State) : State :=
  let r := (s.lane n).rx
  if 64 ≤ r.buf.length then countDrop n (s.modRx n fun r => { r with gap := true })
  else s.modRx n fun r => { r with buf := r.buf ++ [{ b with gap := r.gap }], gap := false }

/-- R286: a block for a Crusher client; a discard cuts its packet short. -/
def storeCrusher (n : Nat) (b : RxBlk) (s : State) : State :=
  let r := (s.lane n).rx
  if r.cutting then
    countDrop n (s.modRx n fun r => if b.isTerm then { r with cutting := false, inArrival := false } else r)
  else if 64 ≤ r.buf.length then
    countDrop n (s.modRx n fun r =>
      let buf := if r.inArrival then (r.buf.take 63) ++ ((r.buf.drop 63).map fun x => { x with cut := true }) else r.buf
      let cutting := (r.inArrival || b.isStart) && !b.isTerm
      { r with buf := buf, cutting := cutting, inArrival := cutting })
  else
    drainToCrusher n 64 (s.modRx n fun r =>
      { r with buf := r.buf ++ [b], inArrival := (r.inArrival || b.isStart) && !b.isTerm })

/-! ### Receive: the Adit link -/

/-- The portal width of an ADIT lane in 64-bit units (R298). -/
def aditUnits (t : Tab Word) (n : Nat) : Nat := portalWidth t (lanePortal n 0) / 64

/-- The CRC of a frame's payloads in order (R299). -/
def frameCrc (ps : List Nat) : Nat := (crc32c (ps.flatMap fun p => [word p, word (p / 2 ^ 32)])).toNat

/-- The tokens of a frame's payloads: FRM, tag blocks, data blocks (R298). -/
def frameTokens (units : Nat) (ps : List Nat) : List (Nat × Nat) :=
  let ntok := bitsOf 20 3 (ps.headD 0) + 1
  let tags := (ps.drop 1).take ((ntok + 3) / 4)
  let data := ps.drop (1 + (ntok + 3) / 4)
  (List.range ntok).map fun t =>
    ((List.range units).foldl (fun x m => x + (data.getD (units * t + m) 0) * 2 ^ (64 * m)) 0,
      bitsOf (16 * (t % 4)) 16 (tags.getD (t / 4) 0))

/-- R298, R299: a frame at its END, or cut off before it. -/
def frameMsg (units : Nat) (ps : List Nat) (err : Bool) (crc : Option Nat) : LinkMsg :=
  let ntok := bitsOf 20 3 (ps.headD 0) + 1
  let good := !err && ps.length = 1 + (ntok + 3) / 4 + ntok * units && crc = some (frameCrc ps)
  .frame (bitsOf 8 12 (ps.headD 0)) (if good then frameTokens units ps else []) (!good)

/-- Messages that wait for the link layer. -/
def addMsgs (n : Nat) (ms : List LinkMsg) (s : State) : State := s.modAdit n fun a => { a with inbox := a.inbox ++ ms }

/-- R297 to R301: one block taken by an Adit receiver. -/
def aditBlock (n : Nat) (ctrl : Bool) (payload : Nat) (err : Bool) (s : State) : State :=
  let a := (s.lane n).adit
  let units := aditUnits s.cfg n
  if err then s.modAdit n fun a => { a with frameErr := a.frameErr || a.frame.isSome }
  else if !ctrl then
    match a.frame with
    | some ps => s.modAdit n fun a => { a with frame := some (ps ++ [payload]) }
    | none => countLink .lnAditProto 8 n s
  else
    let spoil := fun (s : State) => s.modAdit n fun a => { a with frameErr := a.frameErr || a.frame.isSome }
    match payload % 256 with
    | 0x33 =>
      let s := match a.frame with
        | some ps => addMsgs n [frameMsg units ps true none] s
        | none => s
      s.modAdit n fun a => { a with frame := some [payload], frameErr := false }
    | 0x55 =>
      match a.frame with
      | some ps =>
        let m := frameMsg units ps a.frameErr (some (bitsOf 8 32 payload))
        let acks := match m with
          | .frame _ _ false => [LinkMsg.ack (bitsOf 40 12 payload) (bitsOf 52 12 payload)]
          | _ => []
        addMsgs n (m :: acks) (s.modAdit n fun a => { a with frame := none, frameErr := false })
      | none => s
    | 0x66 => addMsgs n [.ack (bitsOf 8 12 payload) (bitsOf 20 12 payload)] (spoil s)
    | 0x4B => addMsgs n [.nak (bitsOf 8 12 payload) (bitsOf 20 12 payload)] (spoil s)
    | 0x2D => addMsgs n [.train payload] (spoil s)
    | 0x78 => addMsgs n [.down] (spoil s)
    | _ => spoil s

/-! ### RX_BLOCK and the locks of blocks and codewords -/

/-- R280, R281: a block at its place. FILL is deleted; a block with an invalid header or an undefined type is counted and delivered as an
errored one, and `lost` says that its codeword was uncorrectable (R283). -/
def pcsBlock (n : Nat) (lost : Bool) (b : Block66) (s : State) : State :=
  let adit := s.isAdit n
  let d := scrambleWord true (s.lane n).rx.scr b.bits.toNat
  let s := s.modRx n fun r => { r with scr := d.1 }
  let ctrl := b.hdr = 2
  let valid := (b.hdr = 1 || b.hdr = 2) && (!ctrl || typeDefined adit d.2)
  let s := if valid ∨ lost then s else countLink .lnBlkErr 0 n s
  let err := lost || !valid
  if ctrl ∧ d.2 = fillPayload ∧ err = false then s
  else if adit then aditBlock n ctrl d.2 err s
  else if s.laneState n = 5 then
    let blk : RxBlk := { ctrl := ctrl, payload := d.2, err := err, gap := false }
    if lnRxCr s.cfg n then storeCrusher n blk s else storePortal n blk s
  else s

/-- R280: a place with 64 consecutive valid headers. -/
def State.lockPlace (s : State) (n : Nat) : Option Nat := ((s.lane n).rx.runs.find? fun p => 64 ≤ p.2).map (·.1)

/-- R280: block lock at such a place. -/
def blockLock (n : Nat) (s : State) : State :=
  if s.laneOn n ∧ s.ready n ∧ 2 ≤ lnProto s.cfg n ∧ (s.lane n).rx.align = none ∧
      (lnFec s.cfg n = false ∨ s.bit .lnLinkStatus n 10) then
    match s.lockPlace n with
    | some p => advanceLink n ((s.setLink n 9 true).modRx n fun r => { r with align := some p, inval := 0, runs := [] })
    | none => s
  else s

/-- R280, R292: block lock is lost at 16 invalid headers within 64 consecutive blocks. -/
def blockLoss (n : Nat) (s : State) : State :=
  if s.pmaOn n ∧ (s.lane n).rx.align.isSome ∧ 16 ≤ onesOf 64 (s.lane n).rx.inval then
    linkCause n ((s.setLink n 9 false).modRx n fun r => { r with align := none, inval := 0, runs := [] })
  else s

/-- R280: a whole block seen at a place: its header is tested, and at the place locked the block is taken. -/
def blockAt (n p : Nat) (lost : Bool) (b : Block66) (s : State) : State :=
  let valid := b.hdr = 1 || b.hdr = 2
  match (s.lane n).rx.align with
  | none => s.modRx n fun r => { r with runs := tabSet 0 r.runs p (if valid then tabGet 0 r.runs p + 1 else 0) }
  | some q =>
    if p = q then pcsBlock n lost b (s.modRx n fun r => { r with inval := (2 * r.inval + bitNat !valid) % 2 ^ 64 }) else s

/-- The block of 66 bits in the order received. -/
def blockOf (bits : List Bool) : Block66 :=
  { hdr := BitVec.ofNat 2 (2 * bitNat (bits.getD 0 false) + bitNat (bits.getD 1 false)), bits := BitVec.ofNat 64 (natOfBits (bits.drop 2)) }

/-- R280: a bit of a lane without FEC. A lock or a loss that is due takes effect before it. -/
def blockBit (n : Nat) (b : Bool) (s : State) : State :=
  let s := blockLock n (blockLoss n s)
  if s.ready n then
    let r := (s.lane n).rx
    let bits := (r.bits ++ [b]).drop (r.bits.length - 65)
    let p := (r.phase + 1) % 66
    let s := s.modRx n fun r => { r with bits := bits, phase := p }
    if bits.length = 66 then blockAt n p false (blockOf bits) s else s
  else s

/-- R283: the last 5,440 bits are a codeword of the boundary locked, or stand at a candidate boundary, and have not been tried. -/
def State.codewordDue (s : State) (n : Nat) : Bool :=
  let r := (s.lane n).rx
  !r.cwTried && r.cw.length = 5440 && (r.cwAlign = none || r.cwAlign = some r.cwPhase)

/-- R283: the blocks of a codeword delivered: of an uncorrectable one as it came, each errored. They keep one place. -/
def codewordDeliver (n : Nat) (lost : Bool) (syms : List Nat) (s : State) : State :=
  (codewordBlocks (s.lane n).rx.scr syms).foldl (fun s b =>
    let s := blockLock n (blockLoss n s)
    if s.ready n then blockAt n 0 lost b s else s) s

/-- R283: a codeword is decoded. -/
def codeword (n : Nat) (s : State) : State :=
  if s.laneOn n ∧ s.ready n ∧ lnFec s.cfg n ∧ s.codewordDue n then
    let s := s.modRx n fun r => { r with cwTried := true }
    let r := (s.lane n).rx
    let syms := groupsOf 10 544 r.cw
    match r.cwAlign, rsDecode syms with
    | some _, some (fixed, k) =>
      codewordDeliver n false fixed
        (countMany .lnFecCorr n k (linkOverflow 1 n) (s.modRx n fun r => { r with cwBad := 0 }))
    | some _, none =>
      let bad := r.cwBad + 1
      let s := codewordDeliver n true syms (countLink .lnFecUncorr 2 n (s.modRx n fun r => { r with cwBad := bad }))
      if 3 ≤ bad ∧ (s.lane n).rx.cwAlign.isSome then
        linkCause n ((s.setLink n 10 false).modRx n fun r => { r with cwAlign := none, cwRuns := [], cwBad := 0 })
      else s
    | none, some _ =>
      let good := tabGet 0 r.cwRuns r.cwPhase + 1
      if 3 ≤ good then
        advanceLink n ((s.setLink n 10 true).modRx n fun r => { r with cwAlign := some r.cwPhase, cwRuns := [], cwBad := 0 })
      else s.modRx n fun r => { r with cwRuns := tabSet 0 r.cwRuns r.cwPhase good }
    | none, none => s.modRx n fun r => { r with cwRuns := tabErase r.cwRuns r.cwPhase }
  else s

/-- R283: a bit of a lane with FEC. A codeword that is complete is decoded before it. -/
def codewordBit (n : Nat) (b : Bool) (s : State) : State :=
  let s := codeword n s
  if s.ready n then
    s.modRx n fun r =>
      { r with cw := (r.cw ++ [b]).drop (r.cw.length - 5439), cwPhase := (r.cwPhase + 1) % 5440, cwTried := false }
  else s

/-- R287: a bit of a RAW lane; 64 of them are a word. -/
def rawBit (n : Nat) (b : Bool) (s : State) : State :=
  let bits := (s.lane n).rx.bits ++ [b]
  if bits.length < 64 then s.modRx n fun r => { r with bits := bits }
  else storePortal n { ctrl := false, payload := natOfBits bits, err := false, gap := false } (s.modRx n fun r => { r with bits := [] })

/-- A bit that reaches the PCS (R276). -/
def pcsBit (n : Nat) (s : State) (b : Bool) : State :=
  if s.laneOn n ∧ s.ready n then
    match lnProto s.cfg n with
    | 0 => s
    | 1 => if s.laneState n = 5 then rawBit n b s else s
    | _ => if lnFec s.cfg n then codewordBit n b s else blockBit n b s
  else s

/-- The bits of a line symbol after inversion, given the symbol before it: precoder decode where it applies, and Gray demapping
(11_lane_electrical R246, R247). -/
def symbolBits (pam dec : Bool) (x before : Nat) : List Bool :=
  if pam then grayPair (if dec then unprecode x before else x) else [x = 1]

/-- A decided line symbol passes the receiver's stages to the checker and the PCS (11_lane_electrical R246 to R248, R267). DEDUCED:
inversion applies to the slicer's decision, so that it is without effect on precoded data (log 101). -/
def hearSymbol (n : Nat) (s : State) (d : Nat) : State :=
  if s.pmaOn n ∧ s.ready n then
    let pam := lnPam4 s.cfg n
    let x := invertSymbol pam (lnCfg s.cfg n 18 1 = 1) d
    let before := (s.lane n).rx.pre
    let dec := lnCfg s.cfg n 16 1 = 1
    let s := s.modRx n fun r => { r with pre := x }
    let s := if s.chkCode n = 0 then s else checkSymbol n (symbolBits pam (dec && s.bit .lnPatCtrl n 16) x before) s
    (symbolBits pam dec x before).foldl (pcsBit n) s
  else s

/-- Symbols at the receiver. -/
def hear (n : Nat) (syms : List Nat) (s : State) : State := syms.foldl (hearSymbol n) s

/-- RX_BLOCK (R280, 11_lane_electrical R246): a stretch of UI at the receiver. In far parallel loopback its symbols are sent out
unchanged; in near serial loopback the receiver hears its own transmitter instead (R272). -/
def rxBlock (n : Nat) (line : List RxSample) (s : State) : State :=
  if s.pmaOn n ∧ s.ready n ∧ s.loop n ≠ 1 then
    let (syms, s) := decideLine n line s
    hear n syms (if s.loop n = 2 then putLine n syms s else s)
  else s

/-! ### Transmit: building blocks -/

/-- Data blocks cut from bytes, eight at a time. -/
def dataBlocks : Nat → List Byte → List TxBlk × List Byte
  | 0, bs => ([], bs)
  | fuel + 1, bs =>
    if 8 ≤ bs.length then
      let r := dataBlocks fuel (bs.drop 8)
      ({ ctrl := false, payload := natOfBytes (bs.take 8), last := false } :: r.1, r.2)
    else ([], bs)

/-- R285: the blocks that a packet's bytes give; `pad` fills the start block of a packet of fewer than seven bytes. -/
def packetBlocks (started fin bad : Bool) (pad bs : List Byte) : List TxBlk × Bool × List Byte :=
  let open? := started || (bs.length < 7 && !fin)
  let head : List TxBlk :=
    if open? then [] else [{ ctrl := true, payload := 0x78 + 256 * natOfBytes ((bs ++ pad).take 7), last := false }]
  let rest := if open? then bs else bs.drop 7
  if !started && open? then ([], false, bs)
  else
    let d := dataBlocks (rest.length / 8 + 1) rest
    if fin then
      let stop : TxBlk := if bad then { ctrl := true, payload := errorPayload, last := true }
        else { ctrl := true, payload := termTypes.getD d.2.length 0x87 + 256 * natOfBytes d.2, last := true }
      (head ++ d.1 ++ [stop], false, [])
    else (head ++ d.1, true, d.2)

/-- R285, R288: one beat of a packet taken by the transmitter. A beat outside any packet, which a client in token mode sends, goes
out as data blocks. -/
def feedBeat (n : Nat) (bytes : List Byte) (sop fin bad : Bool) (s : State) : State :=
  let t := (s.lane n).tx
  if t.skip && !sop then s.modTx n fun t => { t with skip := !fin }
  else if !sop && !t.opened then
    s.modTx n fun t => { t with out := t.out ++ (dataBlocks 17 bytes).1.map fun b => { b with last := true } }
  else
    let (f, s') := s.takeFree
    let short := fin && !t.started && (t.bytes ++ bytes).length < 7
    let s := if short then s' else s
    let pad := bytesOf (Config.freeNat f) 7
    let r := packetBlocks (!sop && t.started) fin bad pad ((if sop then [] else t.bytes) ++ bytes)
    s.modTx n fun t => { t with out := t.out ++ r.1, skip := false, opened := !fin, started := r.2.1, bytes := r.2.2 }

/-- An underrun: one ERROR block ends the frame, and the rest of it is discarded (R286, R288). -/
def underrun (n : Nat) (s : State) : State :=
  countUnderrun n (s.modTx n fun t =>
    { t with out := t.out ++ [{ ctrl := true, payload := errorPayload, last := true }], skip := true, opened := false,
             started := false, bytes := [] })

/-- A Crusher beat at the lane's end of its crossing. -/
def feedCrusher (n : Nat) (b : CBeat) (s : State) : State :=
  feedBeat n ((bytesOf b.data.toNat 32).take b.bytes) b.start b.fin b.bad s

/-- A Sump beat at the lane's end of its crossing; a not-valid beat within a packet is an underrun (R288). -/
def feedSump (n : Nat) (b : SumpBeat) (s : State) : State :=
  if b.nv then (if (s.lane n).tx.opened then underrun n s else s)
  else feedBeat n ((bytesOf b.data.toNat 128).take b.bytes) b.sop b.eop b.bad s

/-! ### Transmit: the OUT portal -/

/-- Words of a frame that are skipped after an underrun (R286): taken up to `LAST`. -/
def skipWords (n : Nat) : Nat → State → State
  | 0, s => s
  | fuel + 1, s =>
    let p := lanePortal n 1
    let v := s.portal p
    match (s.lane n).tx.skip, v.queue, v.ready with
    | true, (_, t) :: rest, _ + 1 =>
      let s := s.modPortal p fun v => { v with queue := rest, ready := v.ready - 1 }
      skipWords n fuel (if bitAt 0 t then s.modTx n fun t => { t with skip := false } else s)
    | _, _, _ => s

/-- R284, R287: the next word of the OUT portal becomes one block or two; a RAW word is 64 bits whatever the portal's width. -/
def takeWord (n : Nat) (s : State) : State :=
  let p := lanePortal n 1
  let v := s.portal p
  match v.queue, v.ready with
  | (d, t) :: rest, _ + 1 =>
    let raw := lnProto s.cfg n = 1
    let two := !raw && portalWidth s.cfg p = 128 && !(bitAt 1 t)
    let b0 : TxBlk := { ctrl := !raw && bitAt 2 t, payload := d % 2 ^ 64, last := bitAt 0 t && !two }
    let b1 : List TxBlk := if two then [{ ctrl := !raw && bitAt 3 t, payload := bitsOf 64 64 d, last := bitAt 0 t }] else []
    let s := s.modPortal p fun v => { v with queue := rest, ready := v.ready - 1 }
    s.modTx n fun x => { x with out := x.out ++ [b0] ++ b1 }
  | _, _ => s

/-- The lane transmits from its OUT portal (R276). -/
def txFromPortal (t : Tab Word) (n : Nat) : Bool := !(lnTxCr t n) && !(lnTxqEn t n)

/-! ### Transmit: the line -/

/-- Symbols go out, and in near serial loopback they come in again (11_lane_electrical R272). -/
def sendBits (n : Nat) (pre hot : Bool) (bits : List Bool) (s : State) : State :=
  let s := driveBits n pre hot bits (if hot then s.modTx n fun t => { t with inject := false } else s)
  if s.loop n = 1 then hear n (s.lane n).tx.line s else s

/-- A block put on the line: its word on a RAW lane (R287); coded and scrambled (R280); under FEC gathered until 80 make a codeword
(R283). An injection that waits acts on PCS data while `INJ_DATA` is 1 (11_lane_electrical R269). -/
def sendBlock (n : Nat) (b : TxBlk) (s : State) : State :=
  let hot := (s.lane n).tx.inject && s.bit .lnPatCtrl n 29
  let pre := lnTxPre s.cfg n
  if lnProto s.cfg n = 1 then
    sendBits n pre hot (bitsLsb 64 b.payload)
      (s.modTx n fun t => { t with sent := some { hdr := 1, bits := BitVec.ofNat 64 b.payload } })
  else
    let w := scrambled (s.lane n).tx.scr b.ctrl b.payload
    let s := s.modTx n fun t => { t with scr := w.1, sent := some w.2 }
    if lnFec s.cfg n then
      let cw := (s.lane n).tx.cw ++ [w.2]
      if cw.length < 80 then s.modTx n fun t => { t with cw := cw }
      else sendBits n pre hot (codewordBits cw) (s.modTx n fun t => { t with cw := [] })
    else sendBits n pre hot (blockBits w.2) s

/-- R267: 64 bits of the pattern in place of PCS data; it passes the precoder only while `PAT_PRE` is 1. -/
def sendPattern (n : Nat) (s : State) : State :=
  let r := patternBits (s.gen n) (s.patUser n) 64 (s.lane n).tx.gen
  sendBits n (lnTxPre s.cfg n && s.bit .lnPatCtrl n 16) (s.lane n).tx.inject r.1 (s.modTx n fun t => { t with gen := r.2 })

/-- R264: the clock pattern as the bits of a word: symbols 0 and 3, or bits 0 and 1, alternating. -/
def clockWord (pam : Bool) : Nat := if pam then 0x4444444444444444 else 0xAAAAAAAAAAAAAAAA

/-- TRAIN (R297). -/
def trainPayload (n : Nat) (ok : Bool) (s : State) : Nat :=
  0x2D + place 8 4 1 + place 12 1 (bitNat ok) + place 13 1 (bitNat (lnFec s.cfg n)) +
    place 14 1 (bitNat (aditUnits s.cfg n = 2)) + place 16 8 (s.epoch n) + place 24 12 (s.lane n).adit.rxNext +
    place 36 24 (lnAdit s.cfg n 0 24)

/-- The head of the transmit list sent. -/
def sendHead (n : Nat) (s : State) : State :=
  match (s.lane n).tx.out with
  | [] => s
  | b :: rest =>
    sendBlock n b (s.modTx n fun t => { t with out := rest, inFrame := !b.last, sinceFill := t.sinceFill + 1 })

/-- FILL sent. -/
def sendFill (n : Nat) (s : State) : State :=
  sendBlock n { ctrl := true, payload := fillPayload, last := true } (s.modTx n fun t => { t with sinceFill := 0 })

/-- R300, R301: a NAK may be sent again once `RTMO` has passed. -/
def ageNak (n : Nat) (s : State) : State :=
  s.modAdit n fun a => { a with nakAge := match a.nakAge with
    | some k => if 64 * lnAdit s.cfg n 24 8 ≤ k + 1 then none else some (k + 1)
    | none => none }

/-- R281, R286 to R288, R291: the transmitter sends a block, or a stretch of the pattern (11_lane_electrical R267). In far parallel
loopback it sends nothing of its own (R272). -/
def txBlock (n : Nat) (s : State) : State :=
  if s.laneOn n ∧ s.bit .lnPmaStatus n 0 ∧ s.bit .lnPmaStatus n 5 = false ∧ s.loop n ≠ 2 then
    if s.gen n ≠ 0 then sendPattern n s
    else
    let up := s.laneState n = 5
    match lnProto s.cfg n with
    | 0 => s
    | 1 =>
      let s := if up ∧ (s.lane n).tx.out.isEmpty then takeWord n s else s
      if (s.lane n).tx.out.isEmpty then sendBlock n { ctrl := false, payload := clockWord (lnPam4 s.cfg n), last := true } s
      else sendHead n s
    | 2 =>
      if up then
        let port := txFromPortal s.cfg n
        let s := if port then skipWords n 64 s else s
        let t := (s.lane n).tx
        if t.inFrame = false ∧ 2048 ≤ t.sinceFill then sendFill n s
        else
          let s := if port ∧ t.out.isEmpty then takeWord n s else s
          if (s.lane n).tx.out.isEmpty then
            (if t.inFrame then sendHead n (underrun n s) else sendFill n s)
          else sendHead n s
      else sendFill n s
    | _ =>
      let s := ageNak n s
      let t := (s.lane n).tx
      if t.inFrame = false ∧ 2048 ≤ t.sinceFill then sendFill n s
      else if t.out.isEmpty then
        let st := s.laneState n
        if st = 5 ∨ st = 1 ∨ st = 0 then sendFill n s
        else
          let ok := st = 4 || st = 6
          let s := if ok then s.modAdit n fun a => { a with oks := a.oks + 1 } else s
          sendBlock n { ctrl := true, payload := trainPayload n ok s, last := true }
            (s.modTx n fun t => { t with sinceFill := t.sinceFill + 1 })
      else sendHead n s
  else s

/-! ### The Adit link layer -/

/-- The distance from one sequence number to another (R300). -/
def seqDist (a b : Nat) : Nat := (b + 4096 - a) % 4096

/-- Credits (R300). -/
def Adit.credits (a : Adit) : Nat := 256 - seqDist a.farCred a.txNext
/-- `CREDSEQ`: the number of the next token to leave the receive buffer (R300). -/
def Adit.credSeq (a : Adit) : Nat := (a.rxNext + 4096 - a.rxTokens.length) % 4096

/-- The blocks of a frame (R298, R299): tags keep `LAST` and the user bits. -/
def frameBlocks (units seq : Nat) (toks : List (Nat × Nat)) (ackSeq cred : Nat) : List TxBlk :=
  let frm := 0x33 + place 8 12 seq + place 20 3 (toks.length - 1)
  let tags := (List.range ((toks.length + 3) / 4)).map fun g =>
    (List.range 4).foldl (fun x i => x + place (16 * i) 16 ((toks.getD (4 * g + i) (0, 0)).2 &&& 0x7FFD)) 0
  let data := toks.flatMap fun t => (List.range units).map fun m => bitsOf (64 * m) 64 t.1
  let stop := 0x55 + place 8 32 (frameCrc (frm :: tags ++ data)) + place 40 12 ackSeq + place 52 12 cred
  { ctrl := true, payload := frm, last := false } :: (tags ++ data).map (fun p => { ctrl := false, payload := p, last := false }) ++
    [{ ctrl := true, payload := stop, last := true }]

/-- A frame put on the transmit list; its END carries the counts. -/
def queueFrame (n seq : Nat) (toks : List (Nat × Nat)) (s : State) : State :=
  let a := (s.lane n).adit
  let bs := frameBlocks (aditUnits s.cfg n) seq toks a.rxNext a.credSeq
  (s.modTx n fun t => { t with out := t.out ++ bs }).modAdit n fun a => { a with ackDue := false }

/-- R300, R302: at a frame start, a replay's tokens or new ones. -/
def aditSend (n : Nat) (s : State) : State :=
  let a := (s.lane n).adit
  if s.laneOn n ∧ s.isAdit n ∧ s.laneState n = 5 ∧ (s.lane n).tx.out.isEmpty then
    match a.resend with
    | some k =>
      let toks := (a.tokens.drop (seqDist a.txAck k)).take 8
      if toks.isEmpty then s.modAdit n fun a => { a with resend := none }
      else
        let next := (k + toks.length) % 4096
        queueFrame n k toks (s.modAdit n fun a => { a with resend := if next = a.txNext then none else some next })
    | none =>
      let p := lanePortal n 1
      let v := s.portal p
      let c := min 8 (min v.ready a.credits)
      if c = 0 then s
      else
        let toks := v.queue.take c
        let s := s.modPortal p fun v => { v with queue := v.queue.drop c, ready := v.ready - c }
        showAdit n (queueFrame n a.txNext toks
          (s.modAdit n fun a => { a with tokens := a.tokens ++ toks, txNext := (a.txNext + c) % 4096 }))
  else s

/-- A control block on the transmit list. -/
def queueControl (n payload : Nat) (s : State) : State :=
  s.modTx n fun t => { t with out := t.out ++ [{ ctrl := true, payload := payload, last := true }] }

/-- R300: an ACK block while a change of the counts is unreported. -/
def ackSend (n : Nat) (s : State) : State :=
  let a := (s.lane n).adit
  if s.laneOn n ∧ s.isAdit n ∧ s.laneState n = 5 ∧ a.ackDue then
    queueControl n (0x66 + place 8 12 a.rxNext + place 20 12 a.credSeq) (s.modAdit n fun a => { a with ackDue := false })
  else s

/-- R301: a NAK, once until a frame is accepted or `RTMO` passes. -/
def sendNak (n : Nat) (s : State) : State :=
  let a := (s.lane n).adit
  if a.nakAge.isSome then s
  else queueControl n (0x4B + place 8 12 a.rxNext + place 20 12 a.credSeq) (s.modAdit n fun a => { a with nakAge := some 0 })

/-- The oldest message of a kind, taken out of the inbox. -/
def takeMsg (n : Nat) (kind : LinkMsg → Bool) (s : State) : Option (LinkMsg × State) :=
  let l := (s.lane n).adit.inbox
  match l.find? kind with
  | some m => some (m, s.modAdit n fun a => { a with inbox := l.erase m })
  | none => none

/-- R301: a received frame is acted on. -/
def aditFrame (n : Nat) (s : State) : State :=
  if s.laneOn n ∧ s.isAdit n ∧ s.laneState n = 5 then
    match takeMsg n (fun m => match m with | .frame _ _ _ => true | _ => false) s with
    | some (.frame seq toks bad, s) =>
      let a := (s.lane n).adit
      let before := seqDist seq a.rxNext
      if bad then sendNak n (countLink .lnAditCrc 6 n s)
      else if before < toks.length then
        let fresh := toks.drop before
        if 256 < a.rxTokens.length + fresh.length then sendNak n (countLink .lnAditProto 8 n s)
        else showAdit n (s.modAdit n fun a =>
          { a with rxTokens := a.rxTokens ++ fresh, rxNext := (a.rxNext + fresh.length) % 4096, ackDue := true, nakAge := none })
      else if before < 2048 then s.modAdit n fun a => { a with ackDue := true }
      else sendNak n s
    | _ => s
  else s

/-- A far `CREDSEQ` taken when it lies in the window of 256 (R300). -/
def Adit.takeCred (a : Adit) (c : Nat) : Adit := if seqDist c a.txNext ≤ 256 then { a with farCred := c } else a

/-- `TXACK` moved: tokens before it leave the replay buffer (R302). -/
def Adit.moveAck (a : Adit) (k : Nat) : Adit :=
  let d := seqDist a.txAck k
  if d = 0 then a
  else
    { a with tokens := a.tokens.drop d, txAck := k, replays := 0
             resend := match a.resend with
               | some r => if seqDist k r ≤ seqDist k a.txNext then some r else if k = a.txNext then none else some k
               | none => none }

/-- R302: counts received. -/
def aditAck (n : Nat) (s : State) : State :=
  if s.laneOn n ∧ s.isAdit n ∧ s.laneState n = 5 then
    match takeMsg n (fun m => match m with | .ack _ _ => true | _ => false) s with
    | some (.ack k c, s) =>
      showAdit n (s.modAdit n fun a =>
        (if seqDist a.txAck k ≤ seqDist a.txAck a.txNext then a.moveAck k else a).takeCred c)
    | _ => s
  else s

/-- R302: a replay from a sequence number; the fourth from one `TXACK` starts a retrain. -/
def replayFrom (n k : Nat) (s : State) : State :=
  let a := (s.lane n).adit
  if k = a.txNext then s
  else
    let s := countLink .lnAditReplay 7 n (s.modAdit n fun a => { a with resend := some k, replays := a.replays + 1 })
    if 4 ≤ (s.lane n).adit.replays then
      retrain n (flagAdit (n / 4) (12 + n % 4) (flagLink n 5 (s.modAdit n fun a => { a with replays := 0 })))
    else s

/-- R302, R305: a NAK received. -/
def aditNak (n : Nat) (s : State) : State :=
  if s.laneOn n ∧ s.isAdit n ∧ s.laneState n = 5 then
    match takeMsg n (fun m => match m with | .nak _ _ => true | _ => false) s with
    | some (.nak k c, s) =>
      let a := (s.lane n).adit
      if seqDist a.txAck k ≤ seqDist a.txAck a.txNext then
        showAdit n (replayFrom n k (s.modAdit n fun a => (a.moveAck k).takeCred c))
      else s
    | _ => s
  else s

/-- R302: `RTMO`·64 blocks without an advance. -/
def aditTimeout (n : Nat) (s : State) : State :=
  let a := (s.lane n).adit
  if s.laneOn n ∧ s.isAdit n ∧ s.laneState n = 5 ∧ a.tokens ≠ [] then replayFrom n a.txAck s else s

/-- R303: `VER`, `FEC`, `W` and `LINK_ID` of a TRAIN block match the lane's own. -/
def trainMatches (n p : Nat) (s : State) : Bool :=
  bitsOf 8 4 p = 1 && bitsOf 13 1 p = bitNat (lnFec s.cfg n) && bitsOf 14 1 p = bitNat (aditUnits s.cfg n = 2) &&
  bitsOf 36 24 p = lnAdit s.cfg n 0 24

/-- R303: a TRAIN block is compared. A lane that is UP and hears TRAIN with `RX_OK` 0 enters the exchange again. -/
def trainReceive (n : Nat) (s : State) : State :=
  let st := s.laneState n
  if s.laneOn n ∧ s.isAdit n ∧ (st = 4 ∨ st = 5 ∨ st = 6) then
    match takeMsg n (fun m => match m with | .train _ => true | _ => false) s with
    | some (.train p, s) =>
      if trainMatches n p s then
        if st = 5 then
          if bitAt 12 p then s else (s.setLaneState n 4).modAdit n fun a => { a with matched := 0, oks := 0 }
        else
          (s.setLaneState n 4).modAdit n fun a =>
            { a with matched := if bitAt 12 p then a.matched + 1 else 0, farEpoch := bitsOf 16 8 p, farRxNext := bitsOf 24 12 p }
      else if st = 5 then s
      else
        let s := s.modAdit n fun a => { a with matched := 0 }
        if st = 6 then s else flagLink n 3 (s.setLaneState n 6)
    | _ => s
  else s

/-- R303: a link reset. -/
def linkReset (n : Nat) (s : State) : State :=
  let far := (s.lane n).adit.farEpoch
  let s := s.setField .lnLinkStatus n 24 8 ((s.epoch n + far + 1) % 256)
  let s := s.modAdit n fun a =>
    { a with txAck := 0, txNext := 0, tokens := [], resend := none, replays := 0, farCred := 0, rxNext := 0, rxTokens := [],
             ackDue := false, nakAge := none }
  flagAdit (n / 4) (8 + n % 4) (flagLink n 4 (showAdit n (laneReset n s)))

/-- R291, R303, 13_chains R324: the exchange completes; the lane resumes or performs a link reset, then is UP. -/
def trainComplete (n : Nat) (s : State) : State :=
  let a := (s.lane n).adit
  if s.laneOn n ∧ s.isAdit n ∧ s.laneState n = 4 ∧ 8 ≤ a.matched ∧ 8 ≤ a.oks then
    if a.kept ∧ a.farEpoch = s.epoch n ∧ seqDist a.txAck a.farRxNext ≤ seqDist a.txAck a.txNext then
      let s := s.modAdit n fun a => { (a.moveAck a.farRxNext) with resend := none, replays := 0 }
      linkUp n (showAdit n (replayFrom n a.farRxNext s))
    else linkUp n (linkReset n s)
  else s

/-- R294, R305: a DOWN block. -/
def downReceive (n : Nat) (s : State) : State :=
  if s.laneOn n ∧ s.isAdit n ∧ 4 ≤ s.laneState n ∧ s.laneState n ≤ 6 then
    match takeMsg n (fun m => match m with | .down => true | _ => false) s with
    | some (_, s) =>
      let s := linkDown n s
      if s.laneState n = 4 ∨ s.laneState n = 6 then s.modAdit n fun a => { a with matched := 0, oks := 0 }
      else (s.setLaneState n 4).modAdit n fun a => { a with matched := 0, oks := 0 }
    | none => s
  else s

/-! ### Meanings -/

/-- RX_BLOCK (12_lane_link R280). -/
def execRxBlock (n : Fin 96) (line : List RxSample) (s : State) : Out := .next (rxBlock n.val line s)
/-- TX_BLOCK (12_lane_link R281). -/
def execTxBlock (n : Fin 96) (s : State) : Out := .next (txBlock n.val s)
/-- BLOCK_LOCK (12_lane_link R280). -/
def execBlockLock (n : Fin 96) (s : State) : Out := .next (blockLock n.val s)
/-- BLOCK_LOCK_LOSS (12_lane_link R280). -/
def execBlockLockLoss (n : Fin 96) (s : State) : Out := .next (blockLoss n.val s)
/-- CHECKER_SYNC_LOSS (11_lane_electrical R268): the UI that bring the last errors arrive, and the checker loses its synchronisation. -/
def execCheckerSyncLoss (n : Fin 96) (line : List RxSample) (s : State) : Out := .next (checkerLoss n.val (rxBlock n.val line s))
/-- CODEWORD_DECODE (12_lane_link R283): the UI that complete a codeword arrive, and it is decoded. -/
def execCodewordDecode (n : Fin 96) (line : List RxSample) (s : State) : Out := .next (codeword n.val (rxBlock n.val line s))
/-- TRAIN_BLOCK_RECEIVE (12_lane_link R303). -/
def execTrainBlockReceive (n : Fin 96) (s : State) : Out := .next (trainReceive n.val s)
/-- TRAIN_COMPLETE (12_lane_link R303). -/
def execTrainComplete (n : Fin 96) (s : State) : Out := .next (trainComplete n.val s)
/-- DOWN_BLOCK_RECEIVE (12_lane_link R294). -/
def execDownBlockReceive (n : Fin 96) (s : State) : Out := .next (downReceive n.val s)
/-- ADIT_FRAME_SEND (12_lane_link R300). -/
def execAditFrameSend (n : Fin 96) (s : State) : Out := .next (aditSend n.val s)
/-- ADIT_FRAME_RECEIVE (12_lane_link R301). -/
def execAditFrameReceive (n : Fin 96) (s : State) : Out := .next (aditFrame n.val s)
/-- ACK_BLOCK_SEND (12_lane_link R300). -/
def execAckBlockSend (n : Fin 96) (s : State) : Out := .next (ackSend n.val s)
/-- ACK_RECEIVE (12_lane_link R302). -/
def execAckReceive (n : Fin 96) (s : State) : Out := .next (aditAck n.val s)
/-- NAK_RECEIVE (12_lane_link R302). -/
def execNakReceive (n : Fin 96) (s : State) : Out := .next (aditNak n.val s)
/-- REPLAY_TIMEOUT (12_lane_link R302). -/
def execReplayTimeout (n : Fin 96) (s : State) : Out := .next (aditTimeout n.val s)

end Sys2Proof.Machine
end

