-- ==== Sys2Proof/Machine/PinCore.lean ====
section
/-! DEFINITION. The pads (17_pins R411 to R424, 01_architecture R23): owners, what a pad drives, its keeper, and its samples. -/

namespace Sys2Proof.Machine

/-- The base owner that the image names (17_pins R416). -/
def baseOwner (t : Tab Word) (b n : Nat) : PinOwner :=
  match pinOwnerCode t b n with
  | 1 => .fabric | 2 => .foreman | 3 => .secure | _ => .none

/-- The owner of a pin now (17_pins R416, R417, R434). -/
def State.pinOwner (s : State) (b n : Nat) : PinOwner :=
  let base := baseOwner s.cfg b n
  if (s.bank b).debug && base ≠ .secure then .debug
  else match (s.pin b n).hostOwner with
    | some o => if base = .secure then base else o
    | none => base

/-- The fabric side of a pin's channels belongs to the pin's owner. -/
def State.pinFabric (s : State) (b n : Nat) : Bool := s.pinOwner b n = .fabric || s.pinOwner b n = .secure

/-- The cavern that hosts a bank (17_pins R413). -/
def bankCav (b : Nat) : Nat := if b < 6 then 1 + b else 27 + b

/-- A bank's IO domain is off (16_power R398). -/
def State.bankDown (s : State) (b : Nat) : Bool := tabGet false s.power.ioOff b

/-- Every pin of the bank is at high impedance: from the start of a full load to the end of START, a hold as at power-on reset, FAULT HOLD,
a supply outside its limits, the domain off (15_configuration R366, 16_power R399 R405 R407, 17_pins R411). In PATROL and DEEP SLEEP the
banks keep their sleep policies (16_power R387). -/
def State.bankFloats (s : State) (b : Nat) : Bool :=
  !s.conf.ran || s.power.held || s.power.mode = .faultHold || s.holdCauses || !(s.bank b).valid || s.bankDown b

/-- What one source contributes: an enable, and a value that is 0 where it does not enable (17_pins R419). -/
def contribute (val oe : Bool) : Bool × Bool := (val && oe, oe)

/-- The Foreman's value and enable for a pin (17_pins R418). -/
def State.gpio (s : State) (b n : Nat) : Bool × Bool :=
  contribute ((tabGet 0 s.foreman.gpioVal b).getLsbD n) ((tabGet 0 s.foreman.gpioOe b).getLsbD n)

/-- A pin's settings bit. -/
def pinBit (t : Tab Word) (b n i : Nat) : Bool := bitAt i (pinCfg t b n)
/-- `PIN.IMODE`. -/
def pinMode (t : Tab Word) (b n : Nat) : Nat := bitsOf 25 3 (pinCfg t b n)
/-- `PIN.SPIN`. -/
def pinSpin (t : Tab Word) (b n : Nat) : Nat := bitsOf 18 6 (pinCfg t b n)

/-- What a pin's owner contributes (17_pins R416, R423, R434). -/
def State.ownerDrive (s : State) (b n : Nat) : Bool × Bool :=
  match s.pinOwner b n with
  | .none => (false, false)
  | .foreman => s.gpio b n
  | .debug =>
    match s.jtag.ir with
    | .extest | .clamp | .extestPulse | .extestTrain => let c := tabGet (false, false) s.jtag.boundary (60 * b + n); contribute c.1 c.2
    | _ => (false, false)
  | _ =>
    if pinBit s.cfg b n 24 then contribute (s.pin b (pinSpin s.cfg b n)).ackHigh true
    else if pinBit s.cfg b n 17 then contribute (s.pin b n).fabVal (s.pin b n).fabOe
    else (false, false)

/-- What a pad drives: value and enable (17_pins R419, R420; 01_architecture R23). -/
def State.padDrive (s : State) (b n : Nat) : Bool × Bool :=
  let p := s.pin b n
  if s.bankFloats b then (false, false)
  else if p.keeper then contribute p.val p.oe
  else if s.pinFabric b n && s.isolated (bankCav b) && !(bitAt 28 (bankCfg s.cfg b)) then (false, false)
  else
    let a := s.ownerDrive b n
    let f := if pinBit s.cfg b n 28 && s.pinOwner b n ≠ .debug then s.gpio b n else (false, false)
    let v := a.1 || f.1
    let e := a.2 || f.2
    if pinBit s.cfg b n 16 then contribute false (e && !v) else contribute v e

/-- What pulls a pad weakly. -/
inductive Pull where
  | none | up | down
deriving DecidableEq, Repr

/-- The weak pull that a bank's strap selects; a bank whose VCCIO has not been valid since power-on has none (17_pins R412). -/
def State.strapPull (s : State) (b : Nat) : Pull :=
  if !(s.bank b).sampled then .none else if (s.bank b).strap then .up else .down

/-- The weak pull of a pad: the bank's strap while the bank is at high impedance, none while its domain is off, otherwise as `PIN.PULL`
says (17_pins R411, R412, R414, R416; 16_power R387, R399, R407). -/
def State.padPull (s : State) (b n : Nat) : Pull :=
  if s.bankDown b then .none
  else if s.bankFloats b || (s.power.retention && bitsOf (2 * b) 2 (s.reg .aonPadpol 0).toNat = 0) then s.strapPull b
  else match bitsOf 10 2 (pinCfg s.cfg b n) with
    | 0 => s.strapPull b
    | 1 => .none
    | 2 => .up
    | _ => .down

/-- The keeper takes the pad's present value and output enable (17_pins R420 step 1). -/
def captureKeeper (b n : Nat) (s : State) : State :=
  let d := s.padDrive b n
  s.modPin b n fun p => { p with keeper := true, val := d.1, oe := d.2 }

/-- Owners that present at once take the pad from the keeper (17_pins R420 steps 3 and 4). -/
def presentNow (b n : Nat) (s : State) : State :=
  let now := match s.pinOwner b n with
    | .none | .foreman => true
    | .fabric | .secure => pinBit s.cfg b n 24 && !(s.isolated (bankCav b))   -- a handshake ACK is always valid
    | .debug => false
  if now then s.modPin b n fun p => { p with keeper := false, val := false, oe := false } else s

/-- The pad passes from the keeper to an owner that presents a value. -/
def releaseKeeper (b n : Nat) (s : State) : State := s.modPin b n fun p => { p with keeper := false, val := false, oe := false }

/-- R420: the owner of a pin changes by `f`; samples held for the old owner are discarded. -/
def switchOwner (b n : Nat) (f : State → State) (s : State) : State :=
  let old := s.pinOwner b n
  let s' := f s
  if s'.pinOwner b n = old then s'
  else
    let s := f (captureKeeper b n s)
    presentNow b n (s.modPin b n fun p => { p with queue := [], fabVal := false, fabOe := false })

/-! ### Samples -/

/-- A pin's samples reach its fabric side (17_pins R416, R399 of 16_power; R411). -/
def State.pinSamples (s : State) (b n : Nat) : Bool :=
  !(s.bankFloats b) && !s.power.retention && (s.pinFabric b n || (s.pinOwner b n = .debug && baseOwner s.cfg b n = .fabric))

/-- A sample token offered on a pin's input channel (17_pins R421). -/
def offerSample (b n : Nat) (v : Bool) (s : State) : State :=
  s.setAttIn (attPin b n) { val := bitNat v, ph := .offering }

/-- The oldest queued sample is offered when the channel is free. -/
def offerQueued (b n : Nat) (s : State) : State :=
  match (s.pin b n).queue with
  | v :: rest =>
    if (s.attIn (attPin b n)).ph = .idle && s.pinSamples b n && !(s.isolated (bankCav b)) then
      offerSample b n v (s.modPin b n fun p => { p with queue := rest })
    else s
  | [] => s

/-- The data pins of a HANDSHAKE group (17_pins R423). -/
def groupPins (t : Tab Word) (b req : Nat) : List Nat :=
  (List.range 60).filter fun m => pinMode t b m = 4 ∧ pinSpin t b m = req

/-- R423 step 3: with REQ low and every data token through phase 4, the pad lowers ACK. -/
def settleAck (b req : Nat) (s : State) : State :=
  let p := s.pin b req
  if p.ackHigh && !p.reqHigh && (groupPins s.cfg b req).all fun m => (s.attIn (attPin b m)).ph = .idle then
    s.modPin b req fun p => { p with ackHigh := false, sampled := false }
  else s

/-- What the pads of a cavern do once input channels have returned to EMPTY. -/
def pinsSettle (cav : Nat) (s : State) : State :=
  (List.range 12).foldl (fun s b =>
    if bankCav b = cav then
      (List.range 60).foldl (fun s n => settleAck b n (offerQueued b n s)) s
    else s) s

/-- R23: what isolation does to the fabric's pins of a cavern's banks: under HOLD the keeper takes the last output value and enable,
under FLOAT a pin waits for its first valid output after release. -/
def isolatePins (c : Nat) (s : State) : State :=
  (List.range 12).foldl (fun s b =>
    if bankCav b = c then
      (List.range 60).foldl (fun s n =>
        if s.pinFabric b n then
          if bitAt 28 (bankCfg s.cfg b) then captureKeeper b n s else s.modPin b n fun p => { p with fabVal := false, fabOe := false }
        else s) s
    else s) s

/-- R23 at release: a pin whose fabric side always has a valid output, a handshake's ACK, drives again; every other one waits for its
first token. -/
def releasePins (c : Nat) (s : State) : State :=
  (List.range 12).foldl (fun s b =>
    if bankCav b = c then
      (List.range 60).foldl (fun s n => if s.pinFabric b n && (s.pin b n).keeper then presentNow b n s else s) s
    else s) s

/-- Samples that a cavern's pins hold go with the new run of its interior. -/
def clearSamples (c : Nat) (s : State) : State :=
  (List.range 12).foldl (fun s b =>
    if bankCav b = c then (List.range 60).foldl (fun s n => s.modPin b n fun p => { p with queue := [] }) s else s) s

/-! ### Banks -/

/-- `PIN_BANK_bb` as it reads (17_pins R436). -/
def State.pinBankReg (s : State) (b : Nat) : Word :=
  let k := s.bank b
  word (bitNat (s.bankDown b) + 2 * bitNat k.valid + 4 * bitNat k.vmis + 8 * bitNat k.strap + 16 * bitNat k.debug)

/-- The sleep policy of a bank (16_power R387). -/
def State.padPolicy (s : State) (b : Nat) : Nat := bitsOf (2 * b) 2 (s.reg .aonPadpol 0).toNat

/-- R387: a bank takes its sleep policy: under FLOAT high impedance, under HOLD and HOLD_SW the keeper. -/
def sleepPads (s : State) : State :=
  (List.range 12).foldl (fun s b =>
    let pol := s.padPolicy b
    let s := (List.range 60).foldl (fun s n =>
      if pol = 0 then s.modPin b n fun p => { p with keeper := true, val := false, oe := false }
      else captureKeeper b n s) s
    if pol = 2 then s.withPower fun p => { p with padHold := tabSet false p.padHold b true } else s) s

/-- The pins of a bank return to their owners: each drives again from its first valid output (16_power R387). -/
def returnPads (b : Nat) (s : State) : State :=
  (List.range 60).foldl (fun s n => presentNow b n s) s

/-- R387 at the exit of STANDBY: banks not held by HOLD_SW return. -/
def wakePads (s : State) : State :=
  (List.range 12).foldl (fun s b => if tabGet false s.power.padHold b then s else returnPads b s) s

/-- R387: a write of `PWR_PADREL` releases banks held by HOLD_SW. -/
def padRelease (banks : Nat) (s : State) : State :=
  (List.range 12).foldl (fun s b =>
    if bitAt b banks && tabGet false s.power.padHold b && s.power.mode ≠ .standby && s.power.retention = false then
      returnPads b (s.withPower fun p => { p with padHold := tabErase p.padHold b })
    else s) s

/-- A bank passes to or from the debug owner (17_pins R434). -/
def setDebug (b : Nat) (v : Bool) (s : State) : State :=
  if (s.bank b).debug = v then s
  else
    -- each pin switches by itself, then the bank's mark stands
    let marked := s.modBank b fun k => { k with debug := v }
    (List.range 60).foldl (fun t n =>
      if s.pinOwner b n = marked.pinOwner b n then t
      else
        let d := s.padDrive b n
        presentNow b n (t.modPin b n fun p =>
          { p with keeper := true, val := d.1, oe := d.2, queue := [], fabVal := false, fabOe := false })) marked

/-- Every bank returns to its base owners (17_pins R434). -/
def dropDebug (s : State) : State := (List.range 12).foldl (fun s b => setDebug b false s) s

/-- The instructions that give banks to the debug owner (17_pins R434). -/
def JtagIr.takesPins : JtagIr → Bool
  | .extest | .clamp | .highz | .extestPulse | .extestTrain => true
  | _ => false

/-- MAINTENANCE is left: banks return, and a loaded EXTEST or its like then acts as BYPASS (17_pins R434, R435). -/
def leaveMaintenance (s : State) : State :=
  if s.power.mode = .maintenance then
    let s := dropDebug s
    if s.jtag.ir.takesPins then { s with jtag := { s.jtag with ir := .bypass } } else s
  else s

end Sys2Proof.Machine
end

