-- ==== Sys2Proof/Machine/Caverns.lean ====
section
/-! DEFINITION. Caverns: isolation causes, reinitialisation, Pocket restores, self-test ends and the freeze (01_architecture R20 to R28). -/

namespace Sys2Proof.Machine

/-! ### Cavern causes -/

/-- A cause of a cavern (01_architecture R24). -/
def Cavern.has (v : Cavern) : Cause → Bool
  | .load => v.load | .freeze => v.freeze | .bist => v.bist | .partialLoad => v.partialLoad | .power => v.power

/-- A cause written. -/
def Cavern.put (v : Cavern) (c : Cause) (b : Bool) : Cavern :=
  match c with
  | .load => { v with load := b } | .freeze => { v with freeze := b } | .bist => { v with bist := b }
  | .partialLoad => { v with partialLoad := b } | .power => { v with power := b }

/-- The outputs of a cavern that name an acknowledge node: output `o` of a chamber has its `AKSEL` in byte `o` from bit 1296 of the
chamber's settings (04_routing R95, R103). -/
def namedOutputs (t : Tab Word) (c : Nat) : List Nat :=
  (t.filter fun e => cfgKey c 0 0 0 ≤ e.1 && e.1 < cfgKey c 50 0 0 && 0x19 ≤ e.1 / 128 % 256 && e.1 / 128 % 256 < 0x32).flatMap fun e =>
    let w := e.1 % 128
    (List.range 4).filterMap fun b =>
      let at0 := 32 * (w % 64) + 8 * b
      if 1296 ≤ at0 ∧ at0 < 1552 ∧ bitsOf (8 * b) 8 e.2.toNat ≠ 0 then
        some (outKey c (e.1 / 32768 % 1024) (2 * (e.1 / 128 % 256 - 0x19) + w / 64) ((at0 - 1296) / 8))
      else none

/-- What an output presents to its gate. -/
def State.outAt (s : State) (o : Nat) : Rail := s.cellOut (o / 80000) (o / 1600 % 50) (o / 32 % 50) (o % 32)

/-- The tokens of the device whose valid phase has reached the gates when isolation applies: outputs all of whose channel is valid; the
outputs that carry bits of one channel name one node (01_architecture R21, 02_token_contract R34, 04_routing R95). -/
def State.validOutputs (s : State) : List (Nat × Rail) :=
  (List.range 40).flatMap fun c =>
    let os := namedOutputs s.cfg c
    (os.filter fun o => (os.filter fun q => outNodeOf s.cfg q = outNodeOf s.cfg o).all fun q => (s.outAt q).valid).map
      fun o => (o, s.outAt o)

/-- The outputs of a cavern whose handshake with a consumer outside has begun and is not over (01_architecture R21). -/
def State.presented (s : State) (c : Nat) (valid : List (Nat × Rail)) : List Nat :=
  (namedOutputs s.cfg c).filter fun o =>
    let l := s.outCross o
    !l.isEmpty && ((valid.any fun p => p.1 = o) || l.any id)

/-- The cavern of an acknowledge node's number. -/
def nodeCav (k : Nat) : Nat :=
  if k < 2000000 then k / 40000
  else if k < 3000000 then (k - 2000000) / 6400
  else if k < 4000000 then (k - 3000000) / 128
  else if k < 5000000 then 40
  else (k - 5000000) / 40000

/-- Every latch and cell output of a cavern EMPTY, its nodes low, its choice elements and Pocket ports idle
(03_cells R75, 04_routing R96). -/
def wipeInterior (c : Nat) (s : State) : State :=
  let s := s.withFabric fun f =>
    { f with cells := f.cells.filter fun e => e.1 / 40000 ≠ c
             nodes := f.nodes.filter fun e => nodeCav e.1 ≠ c
             choices := f.choices.filter fun e => e.1 / 2500 ≠ c
             attIn := f.attIn.filter fun e => e.1 ≥ 10000 || attCav e.1 ≠ c
             attAck := f.attAck.filter fun e => e.1 ≥ 10000 || attCav e.1 ≠ c }
  { s with pockets := { s.pockets with ports := s.pockets.ports.filter fun e => e.1 / 224 ≠ c } }

/-- Outward attachments lower their acknowledge once their channel is EMPTY (02_token_contract R35). -/
def lowerAcks (s : State) : State :=
  s.fabric.attAck.foldl (fun s e => if (s.outRails e.1).all (· = .empty) then s.setAttAck e.1 false else s) s

/-- R212: after a reset of a cavern's fabric side the lanes that transmit from its OUT portals begin a new frame, and the Crusher clients
that its portals feed a new packet. The blocks of words that a lane has taken are sent, and end its frame. -/
def beginAnew (c : Nat) (s : State) : State :=
  let cut := fun (l : Nat × Lane) =>
    if portalCav (lanePortal l.1 1) = c && lnProto s.cfg l.1 = 2 && !(lnTxCr s.cfg l.1) && !(lnTxqEn s.cfg l.1) then
      let t := l.2.tx
      let out := t.out.dropLast ++ (t.out.getLast?.map fun b => { b with last := true }).toList
      (l.1, { l.2 with tx := { t with out := out, inFrame := t.inFrame && !out.isEmpty, skip := false } })
    else l
  let s := { s with lanes := s.lanes.map cut }
  if 16 ≤ c ∧ c < 32 then
    let e := c - 16
    let keys := ((List.range 32).map fun j => 128 * e + 96 + j).filter fun k =>
      (tabGet {} s.crushers.pkts k).inPkt || (tabGet [] s.crushers.pipe e).any fun sl => 128 * e + sl.client = k
    { s with crushers := { s.crushers with anew := s.crushers.anew.filter (fun k => !(keys.contains k)) ++ keys } }
  else s

/-- The fabric sides of a cavern's portals and pins reset with its interior (09_portals R210): their input channels are EMPTY, and an
output channel's acknowledge falls with its rails, which the gate holds valid as long as a token completes outside (01_architecture R21). -/
def resetAttachments (c : Nat) (s : State) : State :=
  let s := beginAnew c ((s.portals.filter fun e => portalCav e.1 = c).foldl (fun s e => portalReset e.1 s) s)
  lowerAcks (s.withFabric fun f => { f with attIn := f.attIn.filter fun e => attCav e.1 ≠ c })

/-- The tokens that pins and portals had brought to the gate of a cavern whose interior is held complete there (01_architecture R21). -/
def completeAttachments (c : Nat) (s : State) : State :=
  pinsSettle c (s.withFabric fun f => { f with attIn := f.attIn.filter fun e => e.1 < 10000 || attCav e.1 ≠ c })

/-- The acknowledge that an output receives (04_routing R95). -/
def State.outAck (s : State) (cav x y o : Nat) : Bool :=
  match outNode s.cfg cav x y o with
  | some n => s.node n
  | none => false

/-- What the gates let complete moves on (01_architecture R21). An own output's token leaves its list once its outside consumers have
acknowledged it, or with a live interior once the cell has withdrawn it, and the output is free again once those acknowledges have
fallen. A token of another cavern's output leaves it once the output is EMPTY again and its acknowledge is low: all four phases. -/
def gateProgress (s : State) : State :=
  { s with cavs := s.cavs.map fun e =>
      let c := e.1
      let v := e.2
      let pass := v.pass.filter fun p =>
        if p.1 / 80000 = c then
          if v.isolated && !v.heldInside then (s.outAt p.1).valid else !((s.outCross p.1).all id)
        else
          (s.presentedOut p.1).valid || (s.outCross p.1).any id ||
            s.outAck (p.1 / 80000) (p.1 / 1600 % 50) (p.1 / 32 % 50) (p.1 % 32)
      let owed := v.owed.filter fun o => (pass.any fun p => p.1 = o) || (s.outCross o).any id
      (c, { v with pass := pass, owed := owed }) }

/-- The state that a latch's initial setting gives it (03_cells R74). -/
def initLatch (code : Nat) : LatchOut :=
  match code with
  | 1 => .hold false | 2 => .hold true | _ => .vacant

/-- The latches of a cavern at their image initial values: the cells whose settings name a FULL state (03_cells R74, R75).
A configuration key's word 2 of each cell field holds the initial states. -/
def initCells (c : Nat) (s : State) : State :=
  let lo := cfgKey c 0 0 0
  let hi := cfgKey c 50 0 0
  let full := s.cfg.filter fun e => lo ≤ e.1 && e.1 < hi && e.1 / 128 % 256 < 25 && e.1 % 4 = 2 &&
    bitsOf 9 4 e.2.toNat ≠ 0
  s.withFabric fun f =>
    { f with cells := full.foldl (fun t e =>
        let p := e.1 % 128 / 4
        let key := cellKey c (e.1 / 32768 % 1024) (2 * (e.1 / 128 % 256) + p / 16) (p % 16)
        tabSet {} t key { (tabGet {} t key) with out0 := initLatch (bitsOf 9 2 e.2.toNat)
                                                 out1 := initLatch (bitsOf 11 2 e.2.toNat) }) f.cells }

/-- The rows of a Pocket all zero. -/
def pocketClear (pk : Nat) (s : State) : State :=
  { s with pockets := { s.pockets with rows := s.pockets.rows.filter fun e => e.1 / 1024 ≠ pk } }

/-- A Pocket in use: a port on, or port B on the haul road (06_pockets R134). -/
def pocketUsed (t : Tab Word) (pk : Nat) : Bool := pocketBits t (pk / 112) (pk % 112) 0 7 ≠ 0

/-- The Pockets of a cavern restored to their initial contents at a release other than LOAD or PARTIAL: those held in the
store wait for their restore in index order, every other one is zero at once (06_pockets R134). -/
def restorePockets (c : Nat) (s : State) : State :=
  (List.range 112).foldl (fun s i =>
    let pk := c * 112 + i
    let s := pocketClear pk s
    match (tabGet {} s.pockets.info pk).source with
    | .store fr =>
      if pocketUsed s.cfg pk && !fr.isEmpty then
        { s with pockets := { s.pockets with restoring := s.pockets.restoring ++ [pk] } }
      else s
    | _ => s) { s with pockets := { s.pockets with restoring := s.pockets.restoring.filter fun pk => pk / 112 ≠ c } }

/-- R322, R323 of 13_chains: the ADIT lanes that a cavern hosts advance their `EPOCH` and retrain when a release begins a new run. -/
def restartChains (c : Nat) (s : State) : State :=
  match laneHost c with
  | some (l, k) =>
    (List.range k).foldl (fun s i =>
      let n := l + i
      if s.isAdit n then
        let s := advanceEpoch n s
        if s.laneState n = 5 ∨ s.laneState n = 4 then retrain n s
        else if s.laneState n = 2 ∨ s.laneState n = 3 ∨ s.laneState n = 6 then beginLock n s
        else s
      else s) s
  | none => s

/-- The interior of a cavern has accepted a token of another cavern's output: a node of it that acknowledges the output is high
(02_token_contract R36, 04_routing R94, R98). -/
def State.accepted (s : State) (c o : Nat) : Bool :=
  ((List.range 4).any fun side =>
    match neighbour c side with
    | some a => (List.range 128).any fun n => (List.range 8).any fun i =>
        let sel := gnSel s.cfg a n i
        6400 < sel && sel ≤ 6912 && neighbour a ((sel - 6401) / 128) = some c && s.node (gnKey c ((sel - 6401) % 128)) &&
          rides s.cfg o a n
    | none => false) ||
  (List.range 16).any fun k => (s.line (c / 8) k).1 = o && lineBits s.cfg c k 18 1 = 1 && s.node (gnKey c (lineBits s.cfg c k 19 7))

/-- The interior as the test's shadow holds it (18_self_test_faults R440, 01_architecture R24, R26); an output whose token completed
outside meanwhile is not presented again. -/
def restoreShadow (c : Nat) (sh : Shadow) (s : State) : State :=
  let owed := (s.cav c).owed
  let pass := (s.cav c).pass
  let gone := fun (o : Nat) => sh.owed.contains o && !(pass.any (·.1 = o))
  let outOf := fun (o : Nat) (l : LatchOut) => if gone o then (if owed.contains o then LatchOut.returning else .vacant) else l
  s.withFabric fun f =>
    { f with cells := sh.cells.foldl (fun t e =>
               let base := e.1 / 16 * 32 + e.1 % 16
               let v := e.2
               tabSet {} t e.1 { v with src0 := if gone base then .empty else v.src0
                                        src1 := if gone (base + 16) then .empty else v.src1
                                        out0 := outOf base v.out0, out1 := outOf (base + 16) v.out1 }) f.cells
             nodes := sh.nodes.foldl (fun t e => tabSet false t e.1 e.2) f.nodes
             choices := sh.choices.foldl (fun t e => tabSet {} t e.1 e.2) f.choices }

/-- The interior of a cavern reinitialised for the last cause cleared (01_architecture R24 to R26). At a new run the gate finishes what
was accepted before; after a test the channels go on where they stood. -/
def reinit (c : Nat) (last : Cause) (s : State) : State :=
  let v := s.cav c
  if last = .bist ∧ v.supplyLost = false then
    let s := match v.shadow with
      | some sh => restoreShadow c sh s
      | none => s
    s.modCav c fun v => { v with pass := [], owed := [], emptied := false, shadow := none }
  else
    let held := v.emptied || last = .load || last = .partialLoad || last = .power
    let within := v.pass.filter fun p => p.1 / 80000 ≠ c && (held || s.accepted c p.1)
    let s := clearSamples c (restartChains c (initCells c (resetAttachments c (wipeInterior c s))))
    let s := if (last = .load ∨ last = .partialLoad) ∧ v.supplyLost = false then s else restorePockets c s
    s.modCav c fun v => { v with pass := (v.pass.filter fun p => v.owed.contains p.1) ++ within
                                 supplyLost := false, emptied := false, shadow := none }

/-- What a LOGIC test's shadow keeps of a cavern. -/
def State.shadowOf (s : State) (c : Nat) : Shadow :=
  { cells := s.fabric.cells.filter fun e => e.1 / 40000 = c
    nodes := s.fabric.nodes.filter fun e => nodeCav e.1 = c
    choices := s.fabric.choices.filter fun e => e.1 / 2500 = c
    owed := (s.cav c).owed }

/-- A speed gauge that stops shows no reading (05_speed_latency R114). -/
def gaugeStop (c : Nat) (s : State) : State :=
  s.setReg .speedGauge c (s.reg .speedGauge c &&& word 0x4FFF0000)

/-- A cause set for a cavern: isolation applies, the gates keep the tokens that stand at them, and under LOAD or PARTIAL
the interior is held empty (01_architecture R20 to R26, 19_events_counters R461). -/
def setCause (c : Nat) (w : Cause) (s : State) : State :=
  if (s.cav c).has w then s
  else
    let old := s.cav c
    let valid := if s.isolated c then [] else s.validOutputs.filter fun p => !(old.owed.contains p.1) && !(old.pass.any (·.1 = p.1))
    let owed := if s.isolated c then [] else (s.presented c valid).filter fun o => !(old.owed.contains o)
    let s := if s.isolated c then s else isolatePins c s
    let empties := w = .load || w = .partialLoad
    let shadow := if w = .partialLoad && old.bist && old.shadow.isNone && !old.emptied then some (s.shadowOf c) else old.shadow
    let s := s.modCav c fun v =>
      { (v.put w true) with pass := valid.filter (fun p => p.1 / 80000 ≠ c || owed.contains p.1) ++ old.pass
                            owed := old.owed ++ owed, emptied := v.emptied || empties, shadow := shadow }
    let s := if empties then wipeInterior c s else s
    let s := if w = .power then gaugeStop c s else s
    flagIso c (if empties || w = .power then completeAttachments c s else s)

/-- A cause cleared for a cavern: when it was the last, the interior is reinitialised and the gate opens
(01_architecture R24 to R26). -/
def clearCause (c : Nat) (w : Cause) (s : State) : State :=
  if (s.cav c).has w then
    let s := flagIso c (s.modCav c fun v => v.put w false)
    if s.isolated c then s else releasePins c (pinsSettle c (gateProgress (reinit c w s)))
  else s

/-! ### Freezing -/

/-- The outcome registers and flags of a test that ends (18_self_test_faults R445, R457). -/
def testReport (type target outcome : Nat) (sig : BitVec 64) (count : Word) (s : State) : State :=
  let s := s.setReg .stSigLo 0 (word sig.toNat)
  let s := s.setReg .stSigHi 0 (word (sig.toNat >>> 32))
  let s := s.setReg .stCount 0 count
  let s := s.setReg .stLast 0 (word (place 16 8 target + place 8 4 type + outcome))
  let s := if outcome = 2 then flagTest 1 s else s
  let s := if outcome = 3 then flagTest 2 s else s
  if outcome = 2 ∨ outcome = 3 then logFault 0x0D (type * 256 + target) s else s

/-- The Sump producers that a FREEZE of a cavern interrupts: its push portals, and the Crusher clients that its portals feed
(08_sump R183). -/
def interruptCavern (c : Nat) (s : State) : State :=
  if 16 ≤ c ∧ c < 32 then
    let s := (List.range 8).foldl (fun s i =>
      let p := sitePortal c (32 + i) 1
      if portalEn s.cfg p then
        interruptProducer (portalBind s.cfg p) (.portal (Fin.ofNat 16 (c - 16)) (Fin.ofNat 54 (32 + i))) s
      else s) s
    (List.range 32).foldl (fun s j =>
      if portalEn s.cfg (fpiPortal (c - 16) j) then interruptClient (c - 16) (96 + j) s else s) s
  else s

/-- A cavern frozen (01_architecture R28): the cause, its source, the event, the fault log entry, and the end of a test of
types 1 to 3 of that cavern that did not cause it (18_self_test_faults R446). -/
def freezeCav (c fpocket code inst : Nat) (s : State) : State :=
  let fresh := !(s.cav c).freeze
  let s := setCause c .freeze s
  let s := if fresh then interruptCavern c (s.modCav c fun v => { v with fpocket := BitVec.ofNat 8 fpocket }) else s
  logFault code inst (stopTests (fun r => r.type ≠ 5 && r.covers c) s)

end Sys2Proof.Machine
end

