-- ==== Sys2Proof/Machine/Fabric.lean ====
section
/-! DEFINITION. The clockless fabric: cells (03_cells), token latches, acknowledge nodes (04_routing), choice elements and dual-rail faults (02_token_contract). -/

namespace Sys2Proof.Machine

/-- A cell's stored state replaced. -/
def State.setCell (s : State) (cav x y k : Nat) (v : Cell) : State :=
  s.withFabric fun f => { f with cells := tabSet {} f.cells (cellKey cav x y k) v }

/-- The codes on the used inputs of a cell (03_cells R57). -/
def State.usedIn (s : State) (cav x y k : Nat) (cc : CellCfg) : List (Nat × Rail) :=
  (List.range 6).filterMap fun n => if bitAt n cc.use then some (n, s.cellIn cav x y k n) else none

/-- The carry in of a cell, where it is awaited (03_cells R61): `none` for a constant. -/
def State.carryIn (s : State) (cav x y k : Nat) (cc : CellCfg) : Option Rail :=
  if cc.mode ≠ 3 then none
  else match cc.cin with
    | 0 => some (match cellBelow y k with | some (y', k') => (s.cell cav x y' k').carry | none => .empty)
    | 3 => some (s.cellIn cav x y k 5)
    | _ => none

/-- The constant or awaited carry as a value. -/
def carryBit (cc : CellCfg) (c : Option Rail) : Bool :=
  match c with
  | some r => r = .v1
  | none => cc.cin = 2

/-- The index that input values form (03_cells R56). -/
def tableIndex (ins : List (Nat × Rail)) : Nat := ins.foldl (fun i p => i + p.2.bit * 2 ^ p.1) 0

/-- What the sources of a cell drive from a full set of inputs: first output, second output, carry (03_cells R56 to R61). -/
def cellValues (cc : CellCfg) (ins : List (Nat × Rail)) (cin : Option Rail) : Rail × Rail × Rail :=
  let i := tableIndex ins
  let a := bitAt i cc.table
  let b := bitAt (32 + i) cc.table
  let c := carryBit cc cin
  match cc.mode with
  | 1 => (Rail.ofBool a, .empty, .empty)
  | 2 => (Rail.ofBool a, Rail.ofBool b, .empty)
  | 3 =>
    let co := if a then c else b
    (Rail.ofBool (a != c), Rail.ofBool co, Rail.ofBool co)
  | _ => (.empty, .empty, .empty)

/-- A cell drives nothing. -/
def Cell.quiet (c : Cell) : Bool := c.src0 = .empty && c.src1 = .empty && c.carry = .empty

/-- R64, and R67 for an illegal code on an awaited input. -/
def cellEvaluate (id : CellId) (s : State) : State :=
  let cav := id.cav.val
  let x := id.x.val
  let y := id.y.val
  let k := id.k.val
  let cc := cellCfg s.cfg cav x y k
  if s.interiorLive cav && (1 ≤ cc.mode && cc.mode ≤ 3) then
    let ins := s.usedIn cav x y k cc
    let cin := s.carryIn cav x y k cc
    let rails := ins.map (·.2) ++ cin.toList
    if rails.any (· = .illegal) then freezeCav cav 0xFF 0x03 cav s
    else if rails.all Rail.valid && !rails.isEmpty && (s.cell cav x y k).quiet then
      let v := cellValues cc ins cin
      s.setCell cav x y k { (s.cell cav x y k) with src0 := v.1, src1 := v.2.1, carry := v.2.2 }
    else s
  else s

/-- Every input of the carry chain from a cell downward is EMPTY (03_cells R63). -/
def State.chainEmptyDown (s : State) (cav x : Nat) : Nat → Nat → Nat → Bool
  | 0, _, _ => true
  | fuel + 1, y, k =>
    let cc := cellCfg s.cfg cav x y k
    let own := (s.usedIn cav x y k cc).all (·.2 = .empty) && (cc.cin ≠ 3 || s.cellIn cav x y k 5 = .empty)
    if cc.cin = 0 then
      match cellBelow y k with
      | some (y', k') => own && s.chainEmptyDown cav x fuel y' k'
      | none => own
    else own

/-- Every input of the carry chain above a cell is EMPTY (03_cells R63). -/
def State.chainEmptyUp (s : State) (cav x : Nat) : Nat → Nat → Nat → Bool
  | 0, _, _ => true
  | fuel + 1, y, k =>
    match cellAbove y k with
    | none => true
    | some (y', k') =>
      let cc := cellCfg s.cfg cav x y' k'
      if cc.mode = 3 ∧ cc.cin = 0 then
        (s.usedIn cav x y' k' cc).all (·.2 = .empty) && s.chainEmptyUp cav x fuel y' k'
      else true

/-- R65 and R63: a cell whose awaited inputs (for a carry cell, those of its whole chain) are all EMPTY returns its outputs;
a choice element's forwarded token returns once its granted input is EMPTY. -/
def cellReturn (id : CellId) (s : State) : State :=
  let cav := id.cav.val
  let x := id.x.val
  let y := id.y.val
  let k := id.k.val
  let cc := cellCfg s.cfg cav x y k
  let c := s.cell cav x y k
  if s.interiorLive cav then
    if 1 ≤ cc.mode ∧ cc.mode ≤ 3 then
      let rails := (s.usedIn cav x y k cc).map (·.2) ++ (s.carryIn cav x y k cc).toList
      let chain := cc.mode ≠ 3 || (s.chainEmptyDown cav x 800 y k && s.chainEmptyUp cav x 800 y k)
      if rails.all (· = .empty) && chain then
        s.setCell cav x y k { c with src0 := .empty, src1 := .empty, carry := .empty }
      else s
    else if cc.mode = 4 then
      match (tabGet {} s.fabric.choices (chamberKey cav x y)).grant with
      | some .a => if s.cellIn cav x y k 0 = .empty then s.setCell cav x y k { c with src0 := .empty } else s
      | some .b => if s.cellIn cav x y k 1 = .empty then s.setCell cav x y k { c with src1 := .empty } else s
      | none => s
    else s
  else s

/-- What a latch's input carries (03_cells R72). -/
def State.latchIn (s : State) (id : CellId) (l : LatchNo) : Rail :=
  let c := s.cell id.cav.val id.x.val id.y.val id.k.val
  match l with
  | .l0 => c.src0
  | .l1 =>
    match (cellCfg s.cfg id.cav.val id.x.val id.y.val id.k.val).lat1Src with
    | 0 => c.src1
    | 1 => c.out0.rail
    | _ => s.cellIn id.cav.val id.x.val id.y.val id.k.val 5

/-- The acknowledge of a latch's consumers, ao (03_cells R68, R73). -/
def State.latchAck (s : State) (id : CellId) (l : LatchNo) : Bool :=
  let cav := id.cav.val
  let x := id.x.val
  let y := id.y.val
  let k := id.k.val
  match l with
  | .l0 =>
    if (cellCfg s.cfg cav x y k).cascade then (s.cell cav x y k).in1 = .closing else s.outAck cav x y k
  | .l1 => s.outAck cav x y (16 + k)

/-- A latch is in use (03_cells R72). -/
def CellCfg.latchOn (cc : CellCfg) : LatchNo → Bool
  | .l0 => cc.lat0
  | .l1 => cc.lat1

/-- The two sides of a latch. -/
def Cell.latch (c : Cell) : LatchNo → LatchOut × LatchIn
  | .l0 => (c.out0, c.in0)
  | .l1 => (c.out1, c.in1)

/-- A latch's sides written. -/
def Cell.putLatch (c : Cell) (l : LatchNo) (o : LatchOut) (i : LatchIn) : Cell :=
  match l with
  | .l0 => { c with out0 := o, in0 := i }
  | .l1 => { c with out1 := o, in1 := i }

/-- A latch of a live cavern moved by a rule that names its new sides. -/
def moveLatch (id : CellId) (l : LatchNo) (rule : LatchOut → LatchIn → Option (LatchOut × LatchIn)) (s : State) : State :=
  let cav := id.cav.val
  let x := id.x.val
  let y := id.y.val
  let k := id.k.val
  if s.interiorLive cav && (cellCfg s.cfg cav x y k).latchOn l then
    let c := s.cell cav x y k
    match rule (c.latch l).1 (c.latch l).2 with
    | some (o, i) => s.setCell cav x y k (c.putLatch l o i)
    | none => s
  else s

/-- A latch has captured: activity in a cavern whose gates are open ends QUIET (16_power R381). -/
def capturedIn (cav : Nat) (s : State) : State := if s.isolated cav then s else wakeActivity s

/-- R70: capture; an illegal code at the latch freezes the cavern and is withheld (02_token_contract R54). -/
def latchCapture (id : CellId) (l : LatchNo) (s : State) : State :=
  let d := s.latchIn id l
  if d = .illegal ∧ s.interiorLive id.cav.val ∧
      (cellCfg s.cfg id.cav.val id.x.val id.y.val id.k.val).latchOn l then
    freezeCav id.cav.val 0xFF 0x02 id.cav.val s
  else
    let c := s.cell id.cav.val id.x.val id.y.val id.k.val
    let s' := moveLatch id l (fun o i =>
      if o = .vacant ∧ i = .isOpen ∧ d.valid then some (.hold (d = .v1), .closing) else none) s
    if s'.cell id.cav.val id.x.val id.y.val id.k.val = c then s' else capturedIn id.cav.val s'

/-- R68: the consumers' acknowledge rises on a held latch. -/
def latchTokenTransfer (id : CellId) (l : LatchNo) (s : State) : State :=
  moveLatch id l (fun o i =>
    match o with
    | .hold _ => if s.latchAck id l then some (.returning, i) else none
    | _ => none) s

/-- R68, R71: the consumers' acknowledge falls; a valid code that waits at an open input is captured in the same step. -/
def latchRelease (id : CellId) (l : LatchNo) (s : State) : State :=
  let d := s.latchIn id l
  let c := s.cell id.cav.val id.x.val id.y.val id.k.val
  let s' := moveLatch id l (fun o i =>
    if o = .returning ∧ s.latchAck id l = false then
      some (if i = .isOpen ∧ d.valid then (.hold (d = .v1), .closing) else (.vacant, i))
    else none) s
  if ((s'.cell id.cav.val id.x.val id.y.val id.k.val).latch l).2 = (c.latch l).2 then s' else capturedIn id.cav.val s'

/-- R69: the latch's input is EMPTY again. -/
def latchInputReopen (id : CellId) (l : LatchNo) (s : State) : State :=
  moveLatch id l (fun o i => if i = .closing ∧ s.latchIn id l = .empty then some (o, .isOpen) else none) s

/-! ### Acknowledge nodes -/

/-- A C-element: it follows its inputs when they agree and holds otherwise; with no input it is low (04_routing R91). -/
def cElement (old : Bool) (ins : List Bool) : Bool :=
  if ins.isEmpty then false else if ins.all (· = true) then true else if ins.all (· = false) then false else old

/-- The merged acknowledges of a cell's table outputs (03_cells R66, R73; 04_routing R92), before the merge. -/
def State.akiInputs (s : State) (cav x y k : Nat) : List Bool :=
  let cc := cellCfg s.cfg cav x y k
  let c := s.cell cav x y k
  if cc.mode = 4 then [if cc.lat0 then c.in0 = .closing else s.outAck cav x y k]
  else
    (if cc.lat0 then [decide (c.in0 = .closing)] else if cc.y0 then [s.outAck cav x y k] else []) ++
    (if cc.lat1Table then [decide (c.in1 = .closing)]
     else if cc.y1 ∧ cc.lat1 = false then [s.outAck cav x y (16 + k)] else [])

/-- AKI of a cell (04_routing R92). -/
def State.aki (s : State) (cav x y k : Nat) : Bool := cElement (s.node (akiKey cav x y k)) (s.akiInputs cav x y k)

/-- AKB of a cell (04_routing R92). -/
def State.akb (s : State) (cav x y k : Nat) : Bool :=
  let cc := cellCfg s.cfg cav x y k
  let c := s.cell cav x y k
  if cc.mode = 4 then
    (if cc.lat1Table then c.in1 = .closing else if cc.cascade then false else s.outAck cav x y (16 + k))
  else cc.bypass && c.in1 = .closing

/-- The input that a global node's select names (04_routing R94, R96). -/
def State.gnInput (s : State) (cav n sel : Nat) : Option Bool :=
  if sel = 0 then none
  else if sel ≤ 6400 then
    let g := (sel - 1) / 64
    some (s.node (cnKey cav (g % 10) (g / 10) ((sel - 1) % 64)))
  else (s.crossAck cav n sel).map (s.producerGate cav fun o => rides s.cfg o cav n)

/-- The acknowledge that an edge input EA carries (04_routing R93): that of a pin or portal comes through the cavern's gate. -/
def State.edgeAckIn (s : State) (cav a : Nat) : Bool :=
  let v := tabGet false s.fabric.attAck a
  if a < 10000 then v else s.producerGate cav (fun o => (outAtts s.cfg o).contains a) v

/-- What a reader of a line contributes to its acknowledge through its cavern's gate (04_routing R98): the driver `o` of the line may lie
in the reader's own cavern. -/
def State.lineReader (s : State) (c o : Nat) (v : Bool) : Bool :=
  if o / 80000 = c then v && (!(s.isolated c) || (s.cav c).owed.contains o) else s.consumerGate c (· = o) v

/-- The inputs of an acknowledge node that its settings enable (04_routing R93, R94, R98; 19_events_counters R460). -/
def State.nodeInputs (s : State) : NodeId → List Bool
  | .ln c n =>
    let cav := c.cav.val
    let x := c.x.val
    let y := c.y.val
    (List.range 40).filterMap fun b =>
      if chamberBits s.cfg cav x y (656 + 40 * n.val + b) 1 = 1 then
        some (if b < 16 then s.aki cav x y b
              else if b < 32 then s.akb cav x y (b - 16)
              else match edgeAck s.cfg cav x y (b - 32) with
                | some a => s.edgeAckIn cav a
                | none => false)
      else none
  | .cn cav gx gy n =>
    (List.range 8).filterMap fun i =>
      let sel := cfgBits s.cfg cav.val (50 + gx.val) (2 * gy.val + n.val / 32) (128 * (n.val % 32) + 9 * i) 9
      if sel = 0 ∨ 400 < sel then none
      else
        let c := (sel - 1) / 16
        some (s.node (lnKey cav.val (5 * gx.val + c % 5) (5 * gy.val + c / 5) ((sel - 1) % 16)))
  | .gn cav n =>
    (List.range 8).filterMap fun i =>
      s.gnInput cav.val n.val (gnSel s.cfg cav.val n.val i)
  | .line r k =>
    let o := (s.line r.val k.val).1
    ((List.range 8).filterMap fun i =>
      let c := 8 * r.val + i
      if lineBits s.cfg c k.val 18 1 = 1 then
        some (s.lineReader c o (s.node (gnKey c (lineBits s.cfg c k.val 19 7))))
      else none) ++
    ((List.range 24).filterMap fun e =>
      let f := cfgBits s.cfg 46 2 0 (8 * e) 8
      if f = 128 + 16 * r.val + k.val then some (s.lineReader (8 * r.val + 3) o (tabGet false s.fabric.attAck (attEvent e))) else none)

/-- The number of a node. -/
def nodeKey : NodeId → Nat
  | .ln c n => lnKey c.cav.val c.x.val c.y.val n.val
  | .cn cav gx gy n => cnKey cav.val gx.val gy.val n.val
  | .gn cav n => gnKey cav.val n.val
  | .line r k => lineKey r.val k.val

/-- The interior that a node lies in is not held (04_routing R96). -/
def State.nodeLive (s : State) : NodeId → Bool
  | .ln c _ => s.interiorLive c.cav.val
  | .cn cav _ _ _ => s.interiorLive cav.val
  | .gn cav _ => s.interiorLive cav.val
  | .line _ _ => !s.power.retention

/-- The global node that acknowledges an inward attachment (04_routing R97). -/
def attNode (t : Tab Word) (a : Nat) : Nat :=
  if a < 10000 then pocketBits t (a / 224) (a % 224 / 2) (15 + 7 * (a % 2)) 7
  else if a < 11000 then bitsOf 3 7 (cfgWord t 45 ((a - 10000) / 60) 0 ((a - 10000) % 60))
  else portalNode t (a - 12000)

/-- The inward attachments that a global node acknowledges move on with it (04_routing R97, 02_token_contract R35). -/
def advanceAtts (cav n : Nat) (high : Bool) (s : State) : State :=
  s.withFabric fun f =>
    { f with attIn := f.attIn.filterMap fun e =>
        if attCav e.1 = cav ∧ attNode s.cfg e.1 = n ∧ e.2.withheld = false then
          match e.2.ph, high with
          | .offering, true => some (e.1, { e.2 with ph := .returning })
          | .returning, false => none
          | _, _ => some e
        else some e }

/-- The memories of the AKI merges that a local node reads. -/
def keepAkis (c : ChamberId) (s : State) : State :=
  (List.range 16).foldl (fun s k =>
    let cav := c.cav.val
    let x := c.x.val
    let y := c.y.val
    let v := s.aki cav x y k
    s.withFabric fun f => { f with nodes := tabSet false f.nodes (akiKey cav x y k) v }) s

/-- R91: a node takes the level that its enabled inputs agree on. -/
def ackNodeSwitch (n : NodeId) (s : State) : State :=
  if s.nodeLive n then
    let s := lowerAcks s
    let v := cElement (s.node (nodeKey n)) (s.nodeInputs n)
    let old := s.node (nodeKey n)
    let s := match n with
      | .ln c _ => keepAkis c s
      | _ => s
    if v = old then gateProgress s
    else
      let s := s.withFabric fun f => { f with nodes := tabSet false f.nodes (nodeKey n) v }
      let s := match n with
        | .gn cav i =>
          let s := advanceAtts cav.val i.val v s
          if v then s else pinsSettle cav.val s
        | _ => s
      gateProgress s
  else s

/-! ### Choice elements -/

/-- A choice element's state. -/
def State.choice (s : State) (c : ChamberId) : Choice := tabGet {} s.fabric.choices (chamberKey c.cav.val c.x.val c.y.val)

/-- A choice element's state replaced. -/
def State.setChoice (s : State) (c : ChamberId) (v : Choice) : State :=
  s.withFabric fun f => { f with choices := tabSet {} f.choices (chamberKey c.cav.val c.x.val c.y.val) v }

/-- The request input of a side (03_cells R77). -/
def State.request (s : State) (c : ChamberId) : ChoiceSide → Rail
  | .a => s.cellIn c.cav.val c.x.val c.y.val 15 0
  | .b => s.cellIn c.cav.val c.x.val c.y.val 15 1

/-- The element is in use in a live cavern (03_cells R77). -/
def State.choiceOn (s : State) (c : ChamberId) : Bool :=
  s.interiorLive c.cav.val && (cellCfg s.cfg c.cav.val c.x.val c.y.val 15).mode = 4

/-- The grant given to a side: the request's token forwarded, value unchanged (03_cells R77). -/
def giveGrant (c : ChamberId) (side : ChoiceSide) (s : State) : State :=
  let r := s.request c side
  let v := s.cell c.cav.val c.x.val c.y.val 15
  let s := s.setCell c.cav.val c.x.val c.y.val 15
    (match side with | .a => { v with src0 := r } | .b => { v with src1 := r })
  s.setChoice c { grant := some side, owed := none }

/-- R77, R46, R79: one pending request is granted; two that contend are resolved by timing, a free value. -/
def choiceGrant (c : ChamberId) (s : State) : State :=
  let ch := s.choice c
  if s.choiceOn c && ch.grant.isNone then
    let ra := s.request c .a
    let rb := s.request c .b
    if ra = .illegal ∨ rb = .illegal then freezeCav c.cav.val 0xFF 0x03 c.cav.val s
    else match ra.valid, rb.valid with
      | true, true =>
        match ch.owed with
        | some side => giveGrant c side s
        | none => giveGrant c (if Config.freeBit s.takeFree.1 then .a else .b) s.takeFree.2
      | true, false => giveGrant c .a s
      | false, true => giveGrant c .b s
      | false, false => s
  else s

/-- The granted output has completed phases 3 and 4 toward its latch or its consumer (03_cells R78). -/
def State.grantDone (s : State) (c : ChamberId) (side : ChoiceSide) : Bool :=
  let cav := c.cav.val
  let x := c.x.val
  let y := c.y.val
  let cc := cellCfg s.cfg cav x y 15
  let v := s.cell cav x y 15
  match side with
  | .a => v.src0 = .empty && (if cc.lat0 then v.in0 = .isOpen else s.outAck cav x y 15 = false)
  | .b => v.src1 = .empty && (if cc.lat1Table then v.in1 = .isOpen else s.outAck cav x y 31 = false)

/-- R78: a grant ends; a request then pending on the other side is owed the next grant (02_token_contract R46). -/
def choiceGrantEnd (c : ChamberId) (s : State) : State :=
  match s.choiceOn c, (s.choice c).grant with
  | true, some side =>
    if s.request c side = .empty ∧ s.grantDone c side then
      let other := match side with | .a => ChoiceSide.b | .b => ChoiceSide.a
      s.setChoice c { grant := none, owed := if (s.request c other).valid then some other else none }
    else s
  | _, _ => s

/-- The outputs that carry bits of an output's channel name its node (04_routing R95). -/
def sameChannel (t : Tab Word) (o q : Nat) : Bool := q = o || (q / 80000 = o / 80000 && (outNodeOf t o).isSome && outNodeOf t q = outNodeOf t o)

/-- A bit found illegal by the gate into a cavern: its token is not passed on (02_token_contract R54). -/
def withholdBit (into : Nat) (bit : GateBit) (s : State) : State :=
  match bit with
  | .out c y1 =>
    let o := outKey c.cav.val c.x.val c.y.val (16 * bitNat y1 + c.k.val)
    s.modCav into fun v => { v with pass := v.pass.filter fun p => !(sameChannel s.cfg o p.1) }
  | .edge c j =>
    match edgeIn s.cfg c.cav.val c.x.val c.y.val j.val with
    | some (a, _) => if (s.attIn a).ph = .offering then s.setAttIn a { (s.attIn a) with withheld := true } else s
    | none => s

/-- A bit passes the gate into a cavern: another cavern's output, or a bit that a pin or a portal drives. -/
def gateBitOf (t : Tab Word) (into : Nat) : GateBit → Bool
  | .out c _ => c.cav.val ≠ into
  | .edge c j => c.cav.val = into &&
      match edgeIn t c.cav.val c.x.val c.y.val j.val with
      | some (a, _) => 10000 ≤ a
      | none => false

/-- R54: a dual-rail fault; none is raised by a cell in OFF mode (03_cells R59), by a latch not in use, or by a cavern under a self-test
(18_self_test_faults R441). -/
def dualRailFault (site : FaultSite) (s : State) : State :=
  match site with
  | .latch id l =>
    let cav := id.cav.val
    let cc := cellCfg s.cfg cav id.x.val id.y.val id.k.val
    if s.interiorLive cav && (s.cav cav).bist = false && cc.mode ≠ 0 && cc.latchOn l then
      let c := s.cell cav id.x.val id.y.val id.k.val
      let s := s.setCell cav id.x.val id.y.val id.k.val (c.putLatch l .withheld (c.latch l).2)
      freezeCav cav 0xFF 0x02 cav s
    else s
  | .gate into bit =>
    if (s.cav into.val).bist || !(s.interiorLive into.val) || !(gateBitOf s.cfg into.val bit) then s
    else withholdBit into.val bit (freezeCav into.val 0xFF 0x02 into.val s)

/-! ### Meanings -/

/-- CELL_EVALUATE (03_cells R64). -/
def execCellEvaluate (c : CellId) (s : State) : Out := .next (cellEvaluate c s)
/-- CELL_RETURN (03_cells R65). -/
def execCellReturn (c : CellId) (s : State) : Out := .next (cellReturn c s)
/-- LATCH_CAPTURE (03_cells R70). -/
def execLatchCapture (c : CellId) (l : LatchNo) (s : State) : Out := .next (latchCapture c l s)
/-- LATCH_TOKEN_TRANSFER (03_cells R68). -/
def execLatchTokenTransfer (c : CellId) (l : LatchNo) (s : State) : Out := .next (latchTokenTransfer c l s)
/-- LATCH_RELEASE (03_cells R68). -/
def execLatchRelease (c : CellId) (l : LatchNo) (s : State) : Out := .next (latchRelease c l s)
/-- LATCH_INPUT_REOPEN (03_cells R69). -/
def execLatchInputReopen (c : CellId) (l : LatchNo) (s : State) : Out := .next (latchInputReopen c l s)
/-- ACK_NODE_SWITCH (04_routing R91). -/
def execAckNodeSwitch (n : NodeId) (s : State) : Out := .next (ackNodeSwitch n s)
/-- CHOICE_GRANT (03_cells R77). -/
def execChoiceGrant (c : ChamberId) (s : State) : Out := .next (choiceGrant c s)
/-- CHOICE_GRANT_END (03_cells R78). -/
def execChoiceGrantEnd (c : ChamberId) (s : State) : Out := .next (choiceGrantEnd c s)
/-- DUAL_RAIL_FAULT (02_token_contract R54). -/
def execDualRailFault (site : FaultSite) (s : State) : Out := .next (dualRailFault site s)

end Sys2Proof.Machine
end

