-- ==== Sys2Proof/Machine/Pockets.lean ====
section
/-! DEFINITION. The Pocket memories (06_pockets): handshake ports, the haul-road port, initial contents and restore; and the speed gauges (05_speed_latency). -/

namespace Sys2Proof.Machine

/-- A row of a Pocket. -/
def State.row (s : State) (pk r : Nat) : Nat := (tabGet 0 s.pockets.rows (pk * 1024 + r)).toNat

/-- A row written. -/
def State.setRow (s : State) (pk r v : Nat) : State :=
  { s with pockets := { s.pockets with rows := tabSet 0 s.pockets.rows (pk * 1024 + r) (BitVec.ofNat 72 v) } }

/-- `POCKET.PROT` (06_pockets R120). -/
def pocketProt (t : Tab Word) (pk : Nat) : Nat := pocketBits t (pk / 112) (pk % 112) 7 2

/-- Row, lowest bit and length of the word at a port address, by width code (06_pockets R119). -/
def wordPlace (code a : Nat) : Nat × Nat × Nat :=
  match code with
  | 1 => (a % 65536 / 64, 9 * (a % 64 / 8) + a % 8, 1)
  | 2 => (a % 32768 / 32, 9 * (a % 32 / 4) + 2 * (a % 4), 2)
  | 3 => (a % 16384 / 16, 9 * (a % 16 / 2) + 4 * (a % 2), 4)
  | 4 => (a % 8192 / 8, 9 * (a % 8), 9)
  | 5 => (a % 4096 / 4, 18 * (a % 4), 18)
  | 6 => (a % 2048 / 2, 36 * (a % 2), 36)
  | _ => (a % 1024, 0, 72)

/-- Bits of a row replaced. -/
def putBits (row lo len v : Nat) : Nat :=
  row - place lo len (bitsOf lo len row) + place lo len v

/-- What a port read delivers under a protection mode. -/
def readWord (prot row lo len : Nat) : EccRead :=
  match prot with
  | 0 => .good (bitsOf lo len row)
  | 1 =>
    let gs := (List.range (len / 9)).map fun i => bitsOf (lo + 9 * i) 9 row
    if gs.all groupGood then .good (gs.foldr (fun g n => bitsOf 0 8 g + 2 ^ 8 * n) 0) else .uncorrectable
  | _ => eccDecode row

/-- A row after a port write of a word under a protection mode (06_pockets R120, R121). -/
def writeWord (prot row lo len v : Nat) : Nat :=
  match prot with
  | 0 => putBits row lo len v
  | 1 => (List.range (len / 9)).foldl (fun r i =>
      let b := bitsOf (8 * i) 8 v
      putBits r (lo + 9 * i) 9 (b + bitNat (parityOf 8 b) * 2 ^ 8)) row
  | _ => eccEncode v

/-- An uncorrectable word: counted, and the cavern frozen with the Pocket's index (06_pockets R123). -/
def pocketUncorr (pk : Nat) (s : State) : State :=
  freezeCav (pk / 112) (pk % 112) 0x01 (pk / 112 * 256 + pk % 112) (countPocketUncorr s)

/-- A port that takes no further command until its cavern is reinitialised (06_pockets R123). -/
def blockPort (pk p : Nat) (s : State) : State :=
  { s with pockets := { s.pockets with ports := tabSet {} s.pockets.ports (pk * 2 + p) { blocked := true } } }

/-- R126: one access per command token, whole by itself (R128): the order of two ports is the order of their rows. -/
def pocketPortAccess (id : PocketId) (port : PocketPort) (s : State) : State :=
  let cav := id.cav.val
  let i := id.idx.val
  let pk := cav * 112 + i
  let p := match port with | .a => 0 | .b => 1
  let att := attPocket cav i p
  let code := pocketWidthCode s.cfg cav i p
  let ready := s.interiorLive cav && code ≠ 0 && !(tabGet {} s.pockets.ports (pk * 2 + p)).blocked &&
    (s.attIn att).ph = .idle && !(s.pockets.restoring.contains pk)
  match ready, s.outToken att with
  | true, some tok =>
    let prot := pocketProt s.cfg pk
    let nowr := pocketBits s.cfg cav i (13 + p) 1 = 1
    let wrsp := pocketBits s.cfg cav i (9 + 2 * p) 2
    let isWrite := bitAt 0 tok && !nowr
    let (r, lo, len) := wordPlace code (bitsOf 1 16 tok)
    let v := tok >>> 17
    let old := readWord prot (s.row pk r) lo len
    let s := s.setAttAck att true
    let s := if s.power.mode = .quiet then wakeActivity s else s
    if isWrite ∧ wrsp ≠ 2 then
      let s := s.setRow pk r (writeWord prot (s.row pk r) lo len v)
      if wrsp = 1 then s.setAttIn att { val := v, ph := .offering } else s
    else
      match old with
      | .uncorrectable => pocketUncorr pk (blockPort pk p s)
      | .good d =>
        let s := if isWrite then s.setRow pk r (writeWord prot (s.row pk r) lo len v) else s
        s.setAttIn att { val := d, ph := .offering }
      | .corrected d =>
        let s := if isWrite then s.setRow pk r (writeWord prot (s.row pk r) lo len v) else s
        countPocketCorr (s.setAttIn att { val := d, ph := .offering })
  | _, _ => s

/-! ### Port B on the haul road -/

/-- How a Pocket answers a block access (06_pockets R130, 10_haulers R222). -/
inductive BlockAnswer where
  | data (d : Nat)
  | done
  | noPort
  | isolated
  | readOnly
  | uncorr
  | waits
deriving DecidableEq, Repr

/-- The eight bytes of a row that the haul road sees (06_pockets R129), with what the protection finds at a read of them (R123). -/
def rowBytes (prot row : Nat) : EccRead :=
  let bytes := (List.range 8).foldr (fun e n => bitsOf (9 * e) 8 row + 2 ^ 8 * n) 0
  match prot with
  | 0 => .good bytes
  | 1 => if (List.range 8).all fun e => groupGood (bitsOf (9 * e) 9 row) then .good bytes else .uncorrectable
  | _ => eccDecode row

/-- The bytes that a read delivers; those of an uncorrectable row are not used. -/
def EccRead.bytes : EccRead → Nat
  | .good d => d | .corrected d => d | .uncorrectable => 0

/-- The errors of the rows that a block access reads: every one counts, and an uncorrectable one freezes the cavern
(06_pockets R123, 19_events_counters R461). -/
def countRows (pk : Nat) (rs : List EccRead) (s : State) : State :=
  let s := rs.foldl (fun s r => match r with | .corrected _ => countPocketCorr s | .uncorrectable => countPocketUncorr s | .good _ => s) s
  if rs.any (· = .uncorrectable) then freezeCav (pk / 112) (pk % 112) 0x01 (pk / 112 * 256 + pk % 112) s else s

/-- Bytes merged by their enables. -/
def mergeBytes (old new en : Nat) : Nat :=
  (List.range 8).foldl (fun n e => n + (if bitAt e en then bitsOf (8 * e) 8 new else bitsOf (8 * e) 8 old) * 2 ^ (8 * e)) 0

/-- A row after a block write of its enabled bytes (06_pockets R129). -/
def rowWrite (prot row bytes en : Nat) : Nat :=
  match prot with
  | 2 => eccEncode bytes
  | 1 => (List.range 8).foldl (fun r e =>
      if bitAt e en then
        let b := bitsOf (8 * e) 8 bytes
        putBits r (9 * e) 9 (b + bitNat (parityOf 8 b) * 2 ^ 8) else r) row
  | _ => (List.range 8).foldl (fun r e => if bitAt e en then putBits r (9 * e) 8 (bitsOf (8 * e) 8 bytes) else r) row

/-- One block access of port B on the haul road (06_pockets R129, R130): the answer, and the state after it. Where several rows of
R130's table apply, a port that is off answers before an isolated cavern, and an access waits for the restore before a `B_NOWR` refuses
it (DESIGN CHOICE, log 96). -/
def pocketBlock (pk blk : Nat) (op : BlockOp) (s : State) : BlockAnswer × State :=
  let cav := pk / 112
  let prot := pocketProt s.cfg pk
  let rows := (List.range 16).map (16 * blk + ·)
  if pocketBits s.cfg cav (pk % 112) 6 1 = 0 then (.noPort, s)
  else if s.isolated cav then (.isolated, s)
  else if s.pockets.restoring.contains pk then (.waits, s)
  else
    match op with
    | .read =>
      let rs := rows.map fun r => rowBytes prot (s.row pk r)
      let s := countRows pk rs s
      if rs.any (· = .uncorrectable) then (.uncorr, s) else (.data (rs.foldr (fun r n => r.bytes + 2 ^ 64 * n) 0), s)
    | .write data enable =>
      if pocketBits s.cfg cav (pk % 112) 14 1 = 1 then (.readOnly, s)
      else
        let part := rows.map fun r =>
          let en := bitsOf (8 * (r % 16)) 8 enable.toNat
          (r, en, bitsOf (64 * (r % 16)) 64 data.toNat)
        -- a row that an ECC write covers in part is read first
        let rs := (part.filter fun q => prot = 2 ∧ q.2.1 ≠ 0 ∧ q.2.1 ≠ 255).map fun q => eccDecode (s.row pk q.1)
        if rs.any (· = .uncorrectable) then (.uncorr, countRows pk rs s)
        else
          let s := part.foldl (fun s q =>
            if q.2.1 = 0 then s
            else
              let old := (rowBytes prot (s.row pk q.1)).bytes
              s.setRow pk q.1 (rowWrite prot (s.row pk q.1) (mergeBytes old q.2.2 q.2.1) q.2.1)) s
          (.done, countRows pk rs s)

/-- R129 as a command: while SYS runs, the SYS side of the port keeps the answer. -/
def pocketHaulBlockAccess (id : PocketId) (blk : Fin 64) (op : BlockOp) (s : State) : State :=
  if s.sysRuns then
    let pk := id.cav.val * 112 + id.idx.val
    let (a, s) := pocketBlock pk blk.val op s
    let put := fun (v : BlockRes) => { s with pockets := { s.pockets with blocks := tabSet {} s.pockets.blocks pk v } }
    match a with
    | .data d => put { data := d }
    | .done => put {}
    | .noPort => put { err := 4 }
    | .isolated => put { err := 7, terr := 1 }
    | .readOnly => put { err := 7, terr := 2 }
    | .uncorr => put { err := 7, terr := 3 }
    | .waits => s
  else s

/-! ### Initial contents and restore -/

/-- A content frame written at a Pocket under the protection in force (06_pockets R131). -/
def pocketContent (pk minor : Nat) (ws : List Word) (s : State) : State :=
  let n := ws.foldr (fun w n => w.toNat + 2 ^ 32 * n) 0
  let base := 4096 * minor
  let prot := pocketProt s.cfg pk
  (List.range 58).foldl (fun s j =>
    let r := base / 72 + j
    let start := 72 * r
    if r ≥ 1024 ∨ start ≥ base + 4096 then s
    else
      let old := s.row pk r
      let v :=
        if start < base then putBits old (base - start) (72 - (base - start)) n
        else putBits old 0 (min 72 (base + 4096 - start)) (n >>> (start - base))
      s.setRow pk r (match prot with | 0 => v | 1 => parityRow v | _ => eccEncode v)) s

/-- The words of a frame held in the image store. -/
def storeFrame (m : Mem) (off : Nat) : List Word := (List.range 128).map fun i => memWord storeFill m (off + 4 * i)

/-- A load that takes the whole read path of the image store is in progress (15_configuration R507). -/
def State.storeLoading (s : State) : Bool :=
  match s.conf.load with
  | some l => (match l.source with | .slot _ => true | .library _ _ => true | _ => false)
  | none => false

/-- R134: the next Pocket that awaits its restore is read again and checked against its CRC. -/
def pocketRestore (s : State) : State :=
  match s.pockets.restoring with
  | [] => s
  | pk :: rest =>
    if s.storeLoading ∨ s.loading then s
    else
      let info := tabGet {} s.pockets.info pk
      let frames := match info.source with | .store fr => fr | _ => []
      let ws := frames.map fun f => (f.1, storeFrame s.conf.store f.2)
      let s := { (pocketClear pk s) with pockets := { (pocketClear pk s).pockets with restoring := rest } }
      let s := ws.foldl (fun s f => pocketContent pk f.1 f.2 s) s
      let crc := crc32c (ws.flatMap (·.2))
      if crc = info.crc then s else freezeCav (pk / 112) 0xFF 0x0C (pk / 112 * 256 + pk % 112) s

/-! ### Speed gauges -/

/-- The window of the gauges in picoseconds (05_speed_latency R112). -/
def gaugeWindow (code : Nat) : Nat :=
  match code with
  | 1 => 10240000 | 2 => 163840000 | _ => 40960000

/-- A gauge runs (05_speed_latency R111). -/
def State.gaugeRuns (s : State) (c : Nat) : Bool :=
  s.bit .speedGaugeCtrl 0 31 && !(s.cav c).power && s.sysRuns && (s.cav c).powered

/-- R114: at the end of a window with `n` revolutions. A window of no revolution reads 0xFFF, as one too slow to show does, and its
length is that of the `WINDOW` code in force at its end (DESIGN CHOICE, log 95). -/
def gaugeWindowEnd (cav : Fin 40) (n : Nat) (s : State) : State :=
  let c := cav.val
  if s.gaugeRuns c then
    let now := s.clocks.stamp + 1
    let w := gaugeWindow (s.field .speedGaugeCtrl 0 16 2)
    let ps := if n = 0 then 0xFFF else min 0xFFF ((w + 16 * n) / (32 * n))
    let old := s.reg .speedGauge c
    let top := max ps (bitsOf 16 12 old.toNat)
    let above := s.bit .speedGaugeCtrl 0 12 && s.field .speedGaugeCtrl 0 0 12 < ps
    let was := old.getLsbD 30
    let s := s.setReg .speedGauge c (word (2 ^ 31 + bitNat (was || above) * 2 ^ 30 + top * 2 ^ 16 + ps))
    let s := s.modCav c fun v => { v with gaugeAt := now, gaugeOver := if above then now else v.gaugeOver }
    if above ∧ was = false then raiseEvent 12 s else s
  else s

/-- R112: `MAX_CLR` clears `MAX_PS` of every gauge; one whose window has ended in this SYSCLK period keeps its new reading (R114). -/
def gaugeMaxClear (s : State) : State :=
  (List.range 40).foldl (fun s c =>
    let top := if (s.cav c).gaugeAt = s.clocks.stamp + 1 then s.field .speedGauge c 0 12 else 0
    s.setField .speedGauge c 16 12 top) s

/-- A write of a gauge's register: 1 to `OVER` clears it, but where a reading of this SYSCLK period has set it (R114). -/
def gaugeOverWrite (c : Nat) (val : Word) (s : State) : State :=
  if val.getLsbD 30 && (s.cav c).gaugeOver ≠ s.clocks.stamp + 1 then s.setField .speedGauge c 30 1 0 else s

/-! ### Meanings -/

/-- POCKET_PORT_ACCESS (06_pockets R126). -/
def execPocketPortAccess (p : PocketId) (port : PocketPort) (s : State) : Out := .next (pocketPortAccess p port s)
/-- POCKET_HAUL_BLOCK_ACCESS (06_pockets R129). -/
def execPocketHaulBlockAccess (p : PocketId) (b : Fin 64) (op : BlockOp) (s : State) : Out :=
  .next (pocketHaulBlockAccess p b op s)
/-- POCKET_RESTORE (06_pockets R134). -/
def execPocketRestore (s : State) : Out := .next (pocketRestore s)
/-- GAUGE_WINDOW_END (05_speed_latency R114). -/
def execGaugeWindowEnd (c : Fin 40) (n : Nat) (s : State) : Out := .next (gaugeWindowEnd c n s)

end Sys2Proof.Machine
end

