-- ==== Sys2Proof/Machine/Haulers.lean ====
section
/-! DEFINITION. The haul road and the Haulers (10_haulers): the wheel, the request path, targets, descriptors, element streams, bursts, pauses and errors. -/

namespace Sys2Proof.Machine

/-! ### Wheel and masters -/

/-- A wheel entry (10_haulers R218). -/
def wheelEntry (t : Tab Word) (e : Nat) : Nat := cfgBits t 44 0 (e / 256) (16 * (e % 256)) 16

/-- The master that owns the slot of clock `c`: a channel, or 64 for the Foreman (R217, R218). -/
def slotOwner (t : Tab Word) (c : Nat) : Nat :=
  let w := wheelEntry t (c % 1024)
  if bitsOf 14 2 w = 1 then bitsOf 0 6 w else 64

/-- A master of the haul road. -/
def State.master (s : State) (m : Nat) : Hauler := tabGet {} s.haul.chans m

/-- The registers of a channel show its state (R241). -/
def showHauler (m : Nat) (s : State) : State :=
  if m < 64 then
    let v := s.master m
    let s := s.setReg .hchStatus m (word (place 16 6 v.opened.length + place 12 4 v.terr + place 8 4 v.err + v.st))
    (s.setReg .hchCur m (word v.cur)).setReg .hchLeft m (word v.left)
  else s

/-- A master changed. -/
def State.modMaster (s : State) (m : Nat) (f : Hauler → Hauler) : State :=
  showHauler m { s with haul := { s.haul with chans := tabMod {} s.haul.chans m f } }

/-- Wheel slots that the Haulers own (R242). -/
def haulerSlots (t : Tab Word) : Nat := ((List.range 1024).filter fun e => bitsOf 14 2 (wheelEntry t e) = 1).length

/-- Burst reads outstanding in the device (R220, R242). -/
def State.readsOut (s : State) : Nat := (s.haul.chans.map fun e => e.2.opened.length).sum

/-- The hard blocks run: SYS is clocked and no full load holds them (20_register_map R475). -/
def State.blocksRun (s : State) : Bool := s.sysRuns && !s.loading

/-! ### Targets -/

/-- The targets of the haul road (R221), with the offset in the window. -/
inductive Target where
  | pocket (pk off : Nat) | queue (q : Nat) | ramPrivate | ram (off : Nat) | portal (k : Nat) | library (off : Nat) | nowhere
deriving DecidableEq, Repr

/-- The target of an address (R221). -/
def targetOf (a : Nat) : Target :=
  if 0x10000000 ≤ a ∧ a < 0x12800000 then
    let c := (a - 0x10000000) / 0x100000
    let i := (a - 0x10000000) % 0x100000 / 0x2000
    if i < 112 then .pocket (112 * c + i) (a % 0x2000) else .nowhere
  else if 0x20000000 ≤ a ∧ a < 0x20800000 then .queue ((a - 0x20000000) / 0x1000)
  else if 0x30000000 ≤ a ∧ a < 0x30080000 then .ramPrivate
  else if 0x30080000 ≤ a ∧ a < 0x30100000 then .ram (a - 0x30000000)
  else if 0x40000000 ≤ a ∧ a < 0x40080000 then .portal ((a - 0x40000000) / 0x1000)
  else if 0x50000000 ≤ a ∧ a < 0x51800000 then .library (a - 0x50000000)
  else .nowhere

/-- The end of the window that holds an address. -/
def windowEnd (a : Nat) : Nat :=
  match targetOf a with
  | .pocket _ o => a - o + 0x2000
  | .queue _ => a - a % 0x1000 + 0x1000
  | .ramPrivate => 0x30080000
  | .ram _ => 0x30100000
  | .portal _ => a - a % 0x1000 + 0x1000
  | .library _ => 0x51800000
  | .nowhere => a

/-- The beginning of the window that holds an address. -/
def windowStart (a : Nat) : Nat :=
  match targetOf a with
  | .pocket _ o => a - o
  | .ram _ => 0x30080000
  | .library _ => 0x50000000
  | _ => a - a % 0x1000

/-- A side is a memory: a Pocket, the shared RAM or the library. -/
def Target.memory : Target → Bool
  | .pocket _ _ => true | .ram _ => true | .library _ => true | _ => false

/-- The portal of a Hauler portal `HPk` in a direction (09_portals R200). -/
def hpPortal (k dir : Nat) : Nat := sitePortal (16 + k / 8) (40 + k % 8) dir

/-- Where the library begins in the image store (15_configuration R350). -/
def libraryBase : Nat := 0x0E000000

/-- The codes of `HCHnn_STATUS.ERR` (R241). -/
def herrDescBad : Nat := 1
/-- DECODE. -/
def herrDecode : Nat := 2
/-- DENIED. -/
def herrDenied : Nat := 3
/-- NOPORT. -/
def herrNoport : Nat := 4
/-- QUEUE. -/
def herrQueue : Nat := 5
/-- INDEX_RANGE. -/
def herrIndex : Nat := 6
/-- TARGET. -/
def herrTarget : Nat := 7
/-- ERR_LAST. -/
def herrLast : Nat := 8
/-- BADPKT. -/
def herrBadpkt : Nat := 9
/-- FETCH. -/
def herrFetch : Nat := 10

/-- A master may use a Hauler portal in a direction: enabled, and bound to it; the Foreman's copies use any enabled one. -/
def portalAllows (t : Tab Word) (m k dir : Nat) : Bool :=
  portalEn t (hpPortal k dir) && (m = 64 || portalBind t (hpPortal k dir) = m)

/-- R222: the condition of the configuration that an access meets, as an error code; 0 where it may go on. -/
def accessError (t : Tab Word) (m : Nat) (write : Bool) : Target → Nat
  | .pocket pk _ => if pocketBits t (pk / 112) (pk % 112) 6 1 = 0 then herrNoport else 0
  | .queue q => if qEn t q && (if write then qMayPush t q 3 else qMayPop t q 3) then 0 else herrQueue
  | .ramPrivate => herrDenied
  | .ram _ => 0
  | .portal k => if portalAllows t m k (if write then 0 else 1) then 0 else herrNoport
  | .library _ => if write then herrDenied else 0
  | .nowhere => herrDecode

/-- What a memory target answers to a beat. -/
inductive BeatAnswer where
  | data (d : Nat) | waits | fails (code terr : Nat)
deriving DecidableEq, Repr

/-- The bytes of one 128-byte block of a memory target, by the block's address. -/
def readBlock (m a : Nat) (s : State) : BeatAnswer × State :=
  let e := accessError s.cfg m false (targetOf a)
  if e ≠ 0 then (.fails e 0, s)
  else match targetOf a with
    | .pocket pk off =>
      match pocketBlock pk (off / 128) .read s with
      | (.data d, s) => (.data d, s)
      | (.noPort, s) => (.fails herrNoport 0, s)
      | (.isolated, s) => (.fails herrTarget 1, s)
      | (.readOnly, s) => (.fails herrTarget 2, s)
      | (.uncorr, s) => (.fails herrTarget 3, s)
      | (_, s) => (.waits, s)
    | .ram off => (.data (natOfBytes (memRead ramFill s.foreman.ram (off - off % 128) 128)), s)
    | .library off =>
      if s.storeLoading ∨ s.pockets.restoring ≠ [] then (.waits, s)
      else (.data (natOfBytes (memRead storeFill s.conf.store (libraryBase + off - off % 128) 128)), s)
    | _ => (.fails herrDecode 0, s)

/-- `len` bytes of a memory target from an address, over at most two blocks. -/
def readSpan (m a len : Nat) (s : State) : BeatAnswer × State :=
  let o := a % 128
  match readBlock m a s with
  | (.data d, s) =>
    if o + len ≤ 128 then (.data (bitsOf (8 * o) (8 * len) d), s)
    else match readBlock m (a - o + 128) s with
      | (.data d', s) => (.data (bitsOf (8 * o) (8 * len) (d + 2 ^ 1024 * d')), s)
      | r => r
  | r => r

/-- Bytes written within one 128-byte block of a memory target. -/
def writeBlock (m a len d : Nat) (s : State) : BeatAnswer × State :=
  let e := accessError s.cfg m true (targetOf a)
  if e ≠ 0 then (.fails e 0, s)
  else match targetOf a with
    | .pocket pk off =>
      let o := off % 128
      match pocketBlock pk (off / 128)
          (.write (BitVec.ofNat 1024 (d <<< (8 * o))) (BitVec.ofNat 128 ((2 ^ len - 1) <<< o))) s with
      | (.done, s) => (.data 0, s)
      | (.noPort, s) => (.fails herrNoport 0, s)
      | (.isolated, s) => (.fails herrTarget 1, s)
      | (.readOnly, s) => (.fails herrTarget 2, s)
      | (.uncorr, s) => (.fails herrTarget 3, s)
      | (_, s) => (.waits, s)
    | .ram off => (.data 0, s.withForeman fun f => { f with ram := memWrite ramFill f.ram off (bytesOf d len) })
    | _ => (.fails herrDecode 0, s)

/-- Bytes written to a memory target from an address, over at most two blocks. -/
def writeSpan (m a len d : Nat) (s : State) : BeatAnswer × State :=
  let o := a % 128
  if o + len ≤ 128 then writeBlock m a len d s
  else match writeBlock m a (128 - o) (d % 2 ^ (8 * (128 - o))) s with
    | (.data _, s) => writeBlock m (a - o + 128) (o + len - 128) (d >>> (8 * (128 - o))) s
    | r => r

/-! ### Descriptors (R223) -/

/-- A field of the current descriptor. -/
def Hauler.hd (v : Hauler) (w lo len : Nat) : Nat := bitsOf lo len (v.desc.getD w 0).toNat
/-- `HD.SRC`. -/
def Hauler.src (v : Hauler) : Nat := v.hd 0 0 32
/-- `HD.DST`. -/
def Hauler.dst (v : Hauler) : Nat := v.hd 1 0 32
/-- `HD.COUNT`. -/
def Hauler.count (v : Hauler) : Nat := v.hd 2 0 24
/-- Source element width. -/
def Hauler.sw (v : Hauler) : Nat := v.hd 3 0 10 + 1
/-- Destination element width. -/
def Hauler.dw (v : Hauler) : Nat := v.hd 3 16 10 + 1
/-- `HD.CONV`. -/
def Hauler.cnv (v : Hauler) : Nat := v.hd 3 26 2
/-- `HD.IDX`. -/
def Hauler.ixm (v : Hauler) : Nat := v.hd 3 28 2
/-- `HD.PKT`. -/
def Hauler.pkt (v : Hauler) : Bool := v.hd 3 30 1 = 1
/-- `HD.TOEOP`. -/
def Hauler.toeop (v : Hauler) : Bool := v.hd 3 31 1 = 1
/-- `HD.ITAB`. -/
def Hauler.itab (v : Hauler) : Nat := v.hd 4 0 32
/-- Elements that the transfer will move as far as is known. -/
def Hauler.total (v : Hauler) : Nat := match v.limit with | some k => min k v.count | none => v.count
/-- Bytes of the destination's extent. -/
def Hauler.extent (v : Hauler) : Nat := (v.total * v.dw + 7) / 8

/-- The pacing request codes 225 to 255 are reserved (R232). -/
def reqReserved (r : Nat) : Bool := 225 ≤ r

/-- An extent of a memory side lies in its window, as an error code (R224). -/
def extentError (a len : Nat) : Nat :=
  match targetOf a with
  | .nowhere => herrDecode
  | .ramPrivate => if a + len ≤ 0x30080000 then herrDenied else herrDecode
  | t => if t.memory && windowEnd a < a + len then herrDecode else 0

/-- R224: the first check that a descriptor fails, as an error code; 0 where it passes. -/
def descError (t : Tab Word) (m : Nat) (v : Hauler) : Nat :=
  let qpkt := fun (x : Target) => match x with | .queue q => qEn t q && qPkt t q | _ => false
  let s := targetOf v.src
  let d := targetOf v.dst
  let indexed := if v.ixm = 1 then s else d
  let sbytes := (v.count * v.sw + 7) / 8
  let dbytes := (v.count * v.dw + 7) / 8
  let isQueue := match d with | .queue q => qEn t q | _ => false
  let isPortal := match s with | .portal _ => true | _ => false
  let reserved := v.hd 2 24 8 ≠ 0 || v.hd 3 10 6 ≠ 0 || v.hd 5 30 2 ≠ 0 || v.hd 7 1 4 ≠ 0 || v.cnv = 3 || v.ixm = 3 ||
    (v.ixm = 0 && v.itab ≠ 0) || v.itab % 4 ≠ 0
  if reserved || v.count = 0 || v.sw < 8 || v.dw < 8 || (v.hd 5 8 8 ≠ 0 && v.hd 5 0 8 = 0) ||
      reqReserved (v.hd 5 0 8) || reqReserved (v.hd 5 8 8) then herrDescBad
  else if v.ixm ≠ 0 ∧ (65536 < v.count ∨ indexed.memory = false ∨ (targetOf v.itab).memory = false ∨
      (v.ixm = 2 ∧ v.dw % 8 ≠ 0)) then herrDescBad
  else if v.pkt && (!(qpkt d) || 524288 < v.count * v.dw) then herrDescBad
  else if !v.pkt && isQueue && qpkt d then herrDescBad
  else if v.toeop && !(qpkt s) && !isPortal then herrDescBad
  else
    let e1 := if v.ixm = 1 then extentError v.src 1 else extentError v.src sbytes
    let e2 := if v.ixm = 2 then extentError v.dst 1 else extentError v.dst dbytes
    let e3 := if v.ixm = 0 then 0 else extentError v.itab (4 * v.count)
    let deny := match d with | .library _ => herrDenied | _ => 0
    let a1 := accessError t m false s
    let a2 := accessError t m true d
    let a3 := if v.ixm = 0 then 0 else accessError t m false (targetOf v.itab)
    let all := [e1, e2, e3, deny, a1, a2, a3]
    if all.contains herrDecode then herrDecode
    else if all.contains herrDenied then herrDenied
    else (all.find? (· ≠ 0)).getD 0

/-! ### Ends of a transfer -/

/-- The producer that a master is to the Sump. -/
def masterProducer (m : Nat) : Producer := if m < 64 then .hauler (Fin.ofNat 64 m) else .foreman

/-- An event flag of a channel (R241); the Foreman has none. -/
def masterFlag (m b : Nat) (s : State) : State := if m < 64 then flagHauler m b s else s

/-- A word that a Hauler has put into a portal is marked as followed by an error (R228). -/
def markPortalErr (k : Nat) (s : State) : State :=
  s.modPortal (hpPortal k 0) fun v =>
    match v.stage.reverse with
    | (d, t) :: r => { v with stage := (r.reverse) ++ [(d, t ||| 4)] }
    | [] =>
      match v.queue.reverse with
      | (d, t) :: r => if v.ready < v.queue.length then { v with queue := r.reverse ++ [(d, t ||| 4)] } else v
      | [] => v

/-- R234: content that is undefined after an error becomes free values: bytes `[from, to)` of a memory destination. -/
def loseBytes (m dst : Nat) : Nat → Nat → Nat → State → State
  | 0, _, _, s => s
  | fuel + 1, a, b, s =>
    if a < b then
      let n := min (b - a) (128 - (dst + a) % 128)
      let (f, s') := s.takeFree
      let s := if (targetOf (dst + a)).memory then (writeBlock m (dst + a) n ((Config.freeBeat f).toNat % 2 ^ (8 * n)) s').2 else s
      loseBytes m dst fuel (a + n) b s
    else s

/-- R234: an error halts a master: `left` elements are not moved, `addr` is the failing address. -/
def haltMaster (m code terr left addr : Nat) (s : State) : State :=
  let v := s.master m
  let s := s.modMaster m fun v =>
    { v with st := 7, err := code, terr := terr, left := left, waiting := [], opened := [], staged := [], popping := false,
             popped := [], elems := 0, failed := none, ahead := false, burst := none, stop := false, pause := false }
  let s := if m < 64 then s.setReg .hchErraddr m (word addr) else s
  let s := match v.desc, targetOf v.dst with
    | [], _ => s
    | _, .queue q => interruptProducer q (masterProducer m) s
    | _, .portal k => markPortalErr k s
    | _, _ => s
  masterFlag m 1 s

/-- R234: the content of indexed destination elements becomes free values. -/
def loseElems (m : Nat) (es : List Nat) (s : State) : State :=
  let v := s.master m
  es.foldl (fun s e => loseBytes m v.dst 3 (e * (v.dw / 8)) ((e + 1) * (v.dw / 8)) s) s

/-- The descriptor at `cur` is asked for (R225). -/
def Hauler.askDesc (v : Hauler) : Hauler := { v with waiting := [{ kind := .desc, addr := v.cur, stage := 1, left := 1 }] }

/-- R226: a descriptor ends without error. A `STOP` that meets the end of the last one is discarded by a channel (R240); the Foreman's
copy keeps it (14_foreman R341). -/
def endDescriptor (m : Nat) (s : State) : State :=
  let v := s.master m
  let s := if m < 64 then s.setReg .hchTag m (v.desc.getD 6 0) else s
  let s := if v.hd 5 29 1 = 1 then masterFlag m 0 s else s
  let fresh : Hauler := { cur := v.cur, left := v.left, pause := v.pause, skip := v.hd 5 16 8, desc := v.desc }
  if v.hd 7 0 1 = 1 then s.modMaster m fun _ => { fresh with st := 6, pause := false, skip := 0, stop := v.stop && decide (m = 64) }
  else
    let next : Hauler := { fresh with st := 1, cur := 32 * v.hd 7 5 27, desc := [] }
    if v.pause then s.modMaster m fun _ => next
    else if v.stop then masterFlag m 3 (s.modMaster m fun _ => { next with st := 5 })
    else s.modMaster m fun _ => next.askDesc

/-- R235: an error on the beat that brings the elements left to zero. -/
def haltLast (m terr addr : Nat) (s : State) : State :=
  let v := s.master m
  let s := haltMaster m herrLast terr 0 addr s
  let s := if m < 64 then s.setReg .hchTag m (v.desc.getD 6 0) else s
  masterFlag m 0 s

/-! ### Bursts -/

/-- The next destination beat of a sequential destination: the byte after it. -/
def Hauler.beatEnd (v : Hauler) (db : Nat) : Nat :=
  let d := v.extent
  if (targetOf v.dst).memory then min d (db + (128 - (v.dst + db) % 128)) else min d (db + 128)

/-- The destination byte at which a burst that begins at `db` ends (R230). -/
def Hauler.burstEnd (v : Hauler) : Nat → Nat → Nat
  | 0, db => db
  | n + 1, db =>
    let nb := v.beatEnd db
    if v.extent ≤ nb ∨ (v.dst + nb) % 4096 = 0 then nb
    else if (v.dst + db) / 4096 ≠ (v.dst + nb) / 4096 then nb
    else v.burstEnd n nb

/-- Source bytes that the elements of the destination bytes below `b` need. -/
def Hauler.needBytes (v : Hauler) (b : Nat) : Nat := (min v.total ((8 * b + v.dw - 1) / v.dw) * v.sw + 7) / 8

/-- Beats of a memory source between two stream bytes. -/
def Hauler.srcBeats (v : Hauler) (a b : Nat) : Nat :=
  if b ≤ a then 0
  else if (targetOf v.src).memory then (v.src + b + 127) / 128 - (v.src + a) / 128 else (b - a + 127) / 128

/-- The burst reads that a burst of a sequential source makes when it begins (R230); the offset in a stream's window is ignored
(R221). -/
def Hauler.seqReads (v : Hauler) (need : Nat) : List ReadReq :=
  let n := v.srcBeats v.sb need
  if n = 0 then [] else [{ kind := .seq, addr := if (targetOf v.src).memory then v.src + v.sb else v.src, stage := n, left := n }]

/-- The source is popped, not read (R220). -/
def Hauler.popsSource (v : Hauler) : Bool := match targetOf v.src with | .queue _ => true | _ => false

/-- Destination elements of a scatter that one burst takes from the index entries in hand: `BURST` + 1 beats at most, and none that
lies beyond a 4 KiB boundary from the one before it (R230; DEDUCED, log 98). -/
def Hauler.scatterRun (v : Hauler) : Nat → List Nat → Nat
  | 0, _ => 0
  | _, [] => 0
  | _ + 1, [_] => 1
  | n + 1, e :: f :: r =>
    let w := v.dw / 8
    if (v.dst + (e + 1) * w - 1) / 4096 ≠ (v.dst + f * w) / 4096 then 1 else 1 + v.scatterRun n (f :: r)

/-- The destination byte at which the burst that begins at `db` ends, as far as is known (R230). -/
def Hauler.goal (v : Hauler) : Nat :=
  let n := v.hd 5 24 5 + 1
  if v.ixm ≠ 2 then v.burstEnd n v.db
  else if v.idx = [] then min v.extent (v.db + n * (v.dw / 8))
  else min v.extent (v.db + v.scatterRun n v.idx * (v.dw / 8))

/-- Elements that the destination bytes below `b` need. -/
def Hauler.needElems (v : Hauler) (b : Nat) : Nat := min v.total ((8 * b + v.dw - 1) / v.dw)

/-- The reads of the elements that a gather's burst needs of the entries in hand (R229, R230). -/
def Hauler.askElems (v : Hauler) (goal : Nat) : Hauler :=
  let asked := v.idxTaken - v.idx.length + v.elems
  let es := (v.idx.drop v.elems).take (v.needElems goal - asked)
  { v with elems := v.elems + es.length
           waiting := v.waiting ++ es.map fun e =>
             { kind := .element ((e * v.sw) % 8) v.sw, addr := v.src + e * v.sw / 8, stage := 1, left := 1 } }

/-- The reads of a sequential source for a burst; a queue is popped instead. -/
def Hauler.askSeq (v : Hauler) (goal : Nat) : Hauler :=
  if v.popsSource then v else { v with waiting := v.waiting ++ v.seqReads (v.needBytes goal) }

/-- The reads of a burst are requested (R230): of an indexed one first a beat of the table, unless entries are left from the last. -/
def Hauler.requestReads (v : Hauler) : Hauler :=
  if v.ixm = 0 then v.askSeq v.goal
  else if v.idx = [] then
    let more := min 32 (v.total - v.idxTaken)
    if more = 0 then v
    else { v with waiting := v.waiting ++ [{ kind := .index more, addr := v.itab + 4 * v.idxTaken, stage := 1, left := 1 }] }
  else if v.ixm = 1 then v.askElems v.goal
  else v.askSeq v.goal

/-- R230: a burst begins; its reads are requested unless they were requested ahead. -/
def beginBurst (m : Nat) (s : State) : State :=
  s.modMaster m fun v =>
    let v := if v.ahead then { v with ahead := false } else v.requestReads
    { v with st := 2, burst := some v.goal }

/-! ### Pacing (R232) -/

/-- A lane's request (12_lane_link R289). -/
def State.laneRequest (s : State) (n : Nat) : Bool :=
  s.laneState n = 5 &&
    (if txFromPortal s.cfg n then
      2 * (s.portal (lanePortal n 1)).queue.length ≤ portalDepth s.cfg (lanePortal n 1) else true)

/-- A Hauler portal's request, for the burst that would begin. -/
def State.portalRequest (s : State) (v : Hauler) (k : Nat) : Bool :=
  let e := v.goal
  if targetOf v.dst = .portal k then
    let p := hpPortal k 0
    let w := portalWidth s.cfg p / 8
    let x := s.portal p
    portalEn s.cfg p && x.queue.length + x.stage.length + (e - v.db + w - 1) / w ≤ portalDepth s.cfg p
  else
    let p := hpPortal k 1
    let w := portalWidth s.cfg p / 8
    let x := s.portal p
    let need := (v.needBytes e - v.sb + w - 1) / w
    portalEn s.cfg p && (need ≤ x.queue.length || x.queue.any fun q => bitAt 1 q.2)

/-- A request code is asserted. -/
def State.request? (s : State) (v : Hauler) (r : Nat) : Bool :=
  if r = 0 then false else if r ≤ 128 then s.portalRequest v (r - 1) else if r ≤ 224 then s.laneRequest (r - 129) else false

/-- A channel may begin a burst (R232). -/
def State.paced (s : State) (v : Hauler) : Bool :=
  v.hd 5 0 8 = 0 || s.request? v (v.hd 5 0 8) || s.request? v (v.hd 5 8 8)

/-- R230, R231: no slot but the idle ones lies between two bursts, so the reads of the next burst are requested where the fetch,
the burst before or its last idle slot ends (DEDUCED, log 45). Until its first slot that burst has moved nothing and a
pause or a stop cancels it (R238). A portal's words stay with the portal until the burst's own slots. -/
def requestAhead (m : Nat) (s : State) : State :=
  let v := s.master m
  let far := v.ixm ≠ 0 || (targetOf v.src).memory
  if v.st = 2 ∧ v.burst.isNone ∧ v.ahead = false ∧ v.pause = false ∧ v.stop = false ∧ v.skip = 0 ∧ far ∧ s.paced v then
    s.modMaster m fun v => { v.requestReads with ahead := true }
  else s

/-- The end of a burst (R230, R236). A pause that waits comes before a stop (R240). -/
def endBurst (m : Nat) (s : State) : State :=
  let v := s.master m
  if v.stop && !v.pause then masterFlag m 3 (s.modMaster m fun v => { v with st := 5, burst := none, stop := false, skip := v.hd 5 16 8 })
  else requestAhead m (s.modMaster m fun v => { v with burst := none, skip := v.hd 5 16 8 })

/-! ### Elements (R227) -/

/-- One element converted. -/
def convElem (cnv sw dw e : Nat) : Nat :=
  match cnv with
  | 1 => if sw ≤ dw ∧ bitAt (sw - 1) e then e % 2 ^ sw + (2 ^ dw - 2 ^ sw) else e % 2 ^ dw
  | 2 => if sw ≤ dw then e * 2 ^ (dw - sw) else e / 2 ^ (sw - dw)
  | _ => e % 2 ^ dw

/-- Elements converted while the destination beat wants bits: up to `need` bits, at most `max` elements. -/
def convert (need : Nat) : Nat → Hauler → Hauler
  | 0, v => v
  | fuel + 1, v =>
    if v.outLen < need ∧ v.sw ≤ v.holdLen ∧ v.conv < v.total then
      let e := v.hold % 2 ^ v.sw
      convert need fuel
        { v with hold := v.hold / 2 ^ v.sw, holdLen := v.holdLen - v.sw, conv := v.conv + 1
                 out := v.out + convElem v.cnv v.sw v.dw e * 2 ^ v.outLen, outLen := v.outLen + v.dw }
    else v

/-- Whole elements written once the destination bytes below `b` are. -/
def Hauler.movedAt (v : Hauler) (b : Nat) : Nat := if v.extent ≤ b then v.total else 8 * b / v.dw

/-! ### The source side of a slot -/

/-- A retry (R222). -/
def countRetry (m : Nat) (s : State) : State :=
  if m < 64 then countStat .hchRetry m (flagHauler m 5) s else s

/-- The beat at the head of the staged ones leaves its burst read. -/
def Hauler.dropStaged (v : Hauler) : Hauler :=
  let opened := match v.opened with
    | r :: rest => if r.left ≤ 1 then rest else { r with left := r.left - 1 } :: rest
    | [] => []
  { v with staged := v.staged.drop 1, opened := opened }

/-- Stream bits taken into the holding register (R227, R228). -/
def Hauler.feed (v : Hauler) (data bits : Nat) : Hauler :=
  { v with hold := v.hold + (data % 2 ^ bits) * 2 ^ v.holdLen, holdLen := v.holdLen + bits, lastLen := bits }

/-- Source elements that the channel has in hand or has used. -/
def Hauler.elemsIn (v : Hauler) : Nat := v.conv + v.holdLen / v.sw

/-- The source gives no element after those in hand. -/
def Hauler.cutOff (v : Hauler) : Hauler := { v with limit := some (min v.total v.elemsIn) }

/-- R228: a beat of the source taken. A queue's marks go on with the destination beat that holds the end of this one. -/
def takeSeq (v : Hauler) (b : StagedBeat) (bothQueues : Bool) : Hauler :=
  let v := match b.kind with
    | .element _ len => { v.dropStaged.feed b.data len with idx := v.idx.drop 1, elems := v.elems - 1 }
    | _ =>
      let v := if v.popsSource then { v with popped := v.popped.drop 1 } else v.dropStaged
      { v.feed b.data (8 * b.bytes) with sb := v.sb + b.bytes }
  let marks := bitNat b.mark + 2 * bitNat b.bad + 4 * bitNat b.err
  let v := if marks = 0 then v else { v with marks := v.marks ++ [(v.elemsIn * v.dw, marks)] }
  if (b.err || b.bad) && !bothQueues then { v.cutOff with stopErr := some (herrBadpkt, v.src) }
  else if b.eop && v.toeop then v.cutOff
  else v

/-- R229: a beat of the index table taken. An entry beyond the window ends the transfer there. -/
def takeIndex (v : Hauler) (b : StagedBeat) : Hauler :=
  let v := v.dropStaged
  let n := min 32 (v.total - v.idxTaken)
  let es := (List.range n).map fun i => bitsOf (32 * i) 32 b.data
  let side := if v.ixm = 1 then v.src else v.dst
  let w := if v.ixm = 1 then v.sw else v.dw
  let fits := fun (e : Nat) => side * 8 + (e + 1) * w ≤ 8 * windowEnd side
  let good := es.takeWhile fits
  let v := { v with idx := v.idx ++ good, idxTaken := v.idxTaken + n }
  let v := match es.drop good.length with
    | e :: _ => { v with limit := some (min v.total (v.idxTaken - n + good.length))
                         idxTaken := v.idxTaken - n + good.length, stopErr := some (herrIndex, side + e * w / 8) }
    | [] => v
  if v.ixm = 1 then v.askElems (v.burst.getD v.db) else { v.askSeq v.goal with burst := some v.goal }

/-- The byte after the next destination beat, and the bits that the beat wants. -/
def Hauler.nextBeat (v : Hauler) : Nat × Nat :=
  let nb := if v.ixm = 2 then v.db + v.dw / 8 else v.beatEnd v.db
  (nb, 8 * (nb - v.db))

/-- The next destination beat can be made of what is in hand. -/
def Hauler.canFinish (v : Hauler) : Bool :=
  v.nextBeat.2 ≤ v.outLen + min (v.holdLen / v.sw) (v.total - v.conv) * v.dw || v.total ≤ v.elemsIn

/-- R227: a source beat is taken where the next destination beat needs it, and ahead of that where the register of 2,048 bits has room
and holds no source beat that is not yet used (DEDUCED, log 98). -/
def Hauler.wants (v : Hauler) : Bool :=
  v.elemsIn < v.total && (!v.canFinish ||
    (!(0 < v.lastLen && v.lastLen ≤ v.holdLen) && v.holdLen + v.outLen + 1024 ≤ 2048))

/-- A read that its target answers with an error: no further beat is issued, and what was read before it is still written (R234). -/
def failRead (m : Nat) (b : StagedBeat) (s : State) : State :=
  s.modMaster m fun v => { v with failed := some b, waiting := [], opened := [], staged := [], popping := false }

/-- The failing read is the one of the source's last beat. -/
def Hauler.lastRead (v : Hauler) (b : StagedBeat) : Bool :=
  match b.kind with
  | .seq => v.needBytes v.extent ≤ v.sb + (if (targetOf v.src).memory then 128 - b.addr % 128 else 128)
  | .element _ _ => v.elemsIn + 1 = v.total
  | _ => false

/-- R234, R235: nothing read before the failing beat is left to write, and the master halts. The failing beat's first element counts
as not moved; its destination beat is not written, and what follows it in the burst becomes free values. -/
def haltRead (m : Nat) (b : StagedBeat) (s : State) : State :=
  let v := s.master m
  if v.lastRead b then haltLast m b.terr b.addr s
  else
    let s := haltMaster m b.code b.terr (v.count - min v.count v.elemsIn) b.addr s
    if v.ixm = 2 then loseElems m ((v.idx.take ((v.burst.getD 0 - v.db) / (v.dw / 8))).drop 1) s
    else loseBytes m v.dst 300 v.nextBeat.1 (v.burst.getD 0) s

/-- A pop of a master is on its way. -/
def State.popOut (s : State) (m : Nat) : Bool := s.sump.reads.any fun r => match r.dest with | .master k _ => k = m | _ => false

/-- The source side of a slot: whether it used the slot, or ended the transfer. -/
def sourceSide (m : Nat) (s : State) : Bool × State :=
  let v := s.master m
  let both := v.popsSource && (match targetOf v.dst with | .queue _ => true | _ => false)
  let index := match v.staged with
    | b :: _ => (match b.kind with | .index _ => some b | _ => none)
    | [] => none
  if v.failed.isSome then (false, s)
  else match index, (if v.popsSource then v.popped else v.staged) with
  | some b, _ => (true, if b.code ≠ 0 then failRead m b s else s.modMaster m fun v => takeIndex v b)
  | none, b :: _ =>
    if b.nv then (false, countRetry m (s.modMaster m fun v => { v with popped := v.popped.drop 1 }))
    else if v.wants then (true, if b.code ≠ 0 then failRead m b s else s.modMaster m fun v => takeSeq v b both)
    else (false, s)
  | none, [] =>
    if v.wants ∧ v.popsSource ∧ v.popping = false ∧ s.popOut m = false ∧ (v.ixm = 0 ∨ v.idx ≠ []) then
      let e := accessError s.cfg m false (targetOf v.src)
      if e ≠ 0 then (true, failRead m { data := 0, bytes := 0, code := e, addr := v.src } s)
      else (true, s.modMaster m fun v => { v with popping := true })
    else (false, s)

/-! ### The destination side of a slot -/

/-- The words of a beat for a portal (R228). -/
def hpWords (w : Nat) (bytes d : Nat) (first last err : Bool) : List (Nat × Nat) :=
  let n := (bytes + w / 8 - 1) / (w / 8)
  (List.range n).map fun i =>
    let fin := last && i + 1 = n
    (bitsOf (w * i) w d,
      bitNat (first && i = 0) + 2 * bitNat fin + 4 * bitNat (err && i + 1 = n) +
        (if fin then 8 * (bytes - i * (w / 8) - 1) else 0))

/-- The marks that pass on with the destination beat that ends before byte `nb` (R228), as bits: `MARK`, `BAD`, `ERR`. -/
def Hauler.marksTo (v : Hauler) (nb : Nat) : Nat := (v.marks.filter (·.1 ≤ 8 * nb)).foldl (fun m e => m ||| e.2) 0

/-- The destination beat up to byte `nb` offered to the target at `addr`. -/
def writeBeat (m addr nb d : Nat) (first last : Bool) (s : State) : BeatAnswer × State :=
  let v := s.master m
  let len := nb - v.db
  match targetOf addr with
  | .queue q =>
    let e := accessError s.cfg m true (.queue q)
    if e ≠ 0 then (.fails e 0, s)
    else if s.portTakes 3 q false = false then (.waits, s)
    else
      let packet := qPkt s.cfg q
      let marks := v.marksTo nb
      let b : SumpBeat := { data := BitVec.ofNat 1024 d
                            tag := sumpTag false (packet && first) (packet && last) (bitAt 1 marks) (bitAt 0 marks) (bitAt 2 marks)
                              false false false (if packet && last then len - 1 else 127) }
      match portPush 3 q (masterProducer m) b s with
      | (.taken, s) =>
        (.data 0, if m = 64 then s.withSump fun u =>
          { u with fmQueues := if u.fmQueues.contains q then u.fmQueues else u.fmQueues ++ [q] } else s)
      | (.full, s) => (.waits, s)
      | (.noDesc, s) => (.waits, s)
      | (_, s) => (.fails herrQueue 0, s)
  | .portal k =>
    let e := accessError s.cfg m true (.portal k)
    if e ≠ 0 then (.fails e 0, s)
    else
      let p := hpPortal k 0
      if (s.portal p).stage.isEmpty then
        (.data 0, s.modPortal p fun x =>
          { x with stage := hpWords (portalWidth s.cfg p) len d first last (last && v.stopErr.isSome) })
      else (.waits, s)
  | _ => writeSpan m addr len d s

/-- The end of a transfer whose last element is written. -/
def finishTransfer (m : Nat) (s : State) : State :=
  let v := s.master m
  match v.stopErr with
  | some (code, addr) => haltMaster m code 0 (v.count - v.total) addr s
  | none => endDescriptor m (s.modMaster m fun v => { v with left := v.count - v.total })

/-- A write that its target answers with an error (R234, R235). -/
def failWrite (m code terr addr nb : Nat) (s : State) : State :=
  let v := s.master m
  let stop := v.burst.getD 0
  if v.extent ≤ nb then
    let s := haltLast m terr addr s
    if v.ixm = 2 then loseElems m (v.idx.take 1) s else loseBytes m v.dst 2 v.db nb s
  else
    let s := haltMaster m code terr (v.count - 8 * v.db / v.dw) addr s
    if v.ixm = 2 then loseElems m (v.idx.take ((stop - v.db) / (v.dw / 8))) s else loseBytes m v.dst 300 v.db stop s

/-- A destination beat written: the stream moves on, and the burst or the transfer may end. -/
def wroteBeat (m nb : Nat) (s : State) : State :=
  let s := s.modMaster m fun v =>
    { v with out := v.out / 2 ^ (8 * (nb - v.db)), outLen := v.outLen - 8 * (nb - v.db), db := nb
             left := v.count - v.movedAt nb, marks := v.marks.filter (8 * nb < ·.1)
             idx := if v.ixm = 2 then v.idx.drop 1 else v.idx }
  let v := s.master m
  if v.extent ≤ nb then finishTransfer m s
  else if v.burst.getD 0 ≤ nb then endBurst m s
  else s

/-- The destination side of a slot: whether it used the slot. -/
def destSide (m : Nat) (s : State) : Bool × State :=
  let (nb, need) := (s.master m).nextBeat
  let s := s.modMaster m (convert need 1024)
  let v := s.master m
  let last := v.extent ≤ nb
  let whole := need ≤ v.outLen || (last && v.conv = v.total)
  -- the last beat of a packet that ends with its source is known only at the source's end
  let held := v.pkt && v.toeop && v.limit.isNone && v.failed.isNone && last = false && v.holdLen = 0 && v.outLen ≤ need
  if v.extent ≤ v.db then (true, finishTransfer m s)
  else if whole ∧ held = false ∧ (v.ixm = 2 ∧ v.idx = []) = false then
    let addr := if v.ixm = 2 then v.dst + v.idx.headD 0 * (v.dw / 8)
      else if (targetOf v.dst).memory then v.dst + v.db else v.dst
    match writeBeat m addr nb (v.out % 2 ^ need) (v.db = 0) last s with
    | (.data _, s) => (true, wroteBeat m nb s)
    | (.waits, s) =>
      -- a full portal makes the channel wait (09_portals R197); the other targets make it retry
      (match targetOf addr with | .portal _ => (true, s) | _ => (false, countRetry m s))
    | (.fails c t, s) => (true, failWrite m c t (addr % 2 ^ 32) nb s)
  else match v.failed with
    | some b => (true, haltRead m b s)
    | none =>
      if v.ixm = 1 ∧ v.idx = [] ∧ v.idxTaken < v.total ∧ v.opened = [] ∧ v.waiting = [] ∧ v.staged = [] ∧ v.burst.isSome then
        -- the last element of the index beat is in hand: the burst ends here
        (true, endBurst m s)
      else (false, s)

/-- R222: one slot of a transfer in progress. -/
def transferSlot (m : Nat) (s : State) : State :=
  let (a, s') := sourceSide m s
  if (s'.master m).st ≠ 2 then s'
  else
    let (b, s'') := destSide m s'
    if a || b || (s''.master m).st ≠ 2 || (s''.reg .hchRetry m ≠ s.reg .hchRetry m) then s'' else countRetry m s''

/-! ### Slots, requests and staging -/

/-- The slot of this clock is the master's and is not yet used. -/
def State.slotFree (s : State) (m : Nat) : Bool :=
  s.blocksRun && slotOwner s.cfg s.clocks.sys = m && s.haul.used ≠ s.clocks.sys + 1

/-- The slot of this clock is used. -/
def useSlot (s : State) : State := { s with haul := { s.haul with used := s.clocks.sys + 1 } }

/-- R222, R230, R232, R236: a master in its usable slot. -/
def masterBeat (m : Nat) (s : State) : State :=
  let v := s.master m
  if s.slotFree m ∧ (v.st = 2 ∨ v.st = 3) then
    let s := useSlot s
    if v.burst.isNone then
      if v.pause then s
      else if 0 < v.skip then requestAhead m (s.modMaster m fun v => { v with skip := v.skip - 1 })
      else if s.paced v then transferSlot m (beginBurst m s)
      else s.modMaster m fun v => { v with st := 3 }
    else transferSlot m s
  else s

/-- R225: the Pocket or the shared RAM that holds a descriptor is read. -/
def readDesc (h a : Nat) (s : State) : BeatAnswer × State :=
  match targetOf a with
  | .ram _ => readSpan h a 32 s
  | .pocket pk _ =>
    if pocketBits s.cfg (pk / 112) (pk % 112) 6 1 = 0 then (.fails herrFetch 0, s)
    else readSpan h a 32 s
  | _ => (.fails herrFetch 0, s)

/-- R224, R225: a channel takes the descriptor that it has asked for, in a usable slot; one that is not yet staged is a retry. -/
def descriptorFetch (h : Nat) (s : State) : State :=
  let v := s.master h
  if s.slotFree h ∧ v.st = 1 ∧ v.pause = false then
    let s := useSlot s
    match v.staged with
    | [] => countRetry h (if v.waiting = [] ∧ v.opened = [] then s.modMaster h Hauler.askDesc else s)
    | b :: _ =>
      if b.code ≠ 0 then haltMaster h herrFetch b.terr 0 v.cur (s.modMaster h fun v => { v with desc := [] })
      else
        let ws := (List.range 8).map fun i => word (b.data >>> (32 * i))
        let n : Hauler := { cur := v.cur, desc := ws, st := 2, skip := v.skip }
        let e := descError s.cfg h n
        if e = 0 then requestAhead h (s.modMaster h fun _ => { n with left := n.count })
        else haltMaster h e 0 n.count v.cur (s.modMaster h fun _ => { n with desc := [] })
  else s

/-- R220: a burst read request placed in the master's turn. -/
def burstRequest (m : Nat) (s : State) : State :=
  let v := s.master m
  if s.blocksRun ∧ s.clocks.sys % 65 = m ∧ s.haul.asked ≠ s.clocks.sys + 1 ∧ v.opened.length < 32 ∧ s.readsOut < 2048 then
    match v.waiting with
    | [] => s
    | r :: rest =>
      { s with haul := { s.haul with asked := s.clocks.sys + 1 } }.modMaster m fun v => { v with waiting := rest, opened := v.opened ++ [r] }
  else s

/-- Source bytes that the burst in progress still wants from a portal beyond those staged: no word beyond the transfer's extent,
and none that the burst does not need, is read (R228, R230). -/
def Hauler.portalWants (v : Hauler) : Nat :=
  let need := if v.ixm = 2 ∧ v.idx = [] then 0 else v.needBytes (v.burst.getD v.db)
  need - v.sb - ((v.staged.filter fun b => b.kind = .seq).map fun b => b.bytes).sum

/-- The words that a portal gives to one staged beat: up to 128 bytes, or to a `LAST` word. -/
def portalBeat (w : Nat) : Nat → List (Nat × Nat) → Nat × Nat × Nat × Bool
  | 0, _ => (0, 0, 0, false)
  | _, [] => (0, 0, 0, false)
  | n + 1, (d, t) :: rest =>
    let last := bitAt 1 t
    let bytes := if last then bitsOf 3 5 t % (w / 8) + 1 else w / 8
    if last then (d % 2 ^ (8 * bytes), bytes, 1, true)
    else
      let r := portalBeat w n rest
      (d % 2 ^ w + 2 ^ w * r.1, bytes + r.2.1, 1 + r.2.2.1, r.2.2.2)

/-- What a memory target answers, as a staged beat; none where the beat waits. -/
def stagedAnswer (a : BeatAnswer) (f : Nat → StagedBeat) : Option StagedBeat :=
  match a with
  | .data d => some (f d)
  | .fails c t => some { f 0 with data := 0, bytes := 0, code := c, terr := t }
  | .waits => none

/-- The blocks of memory that a beat of `len` bytes at `a` reads. -/
def spanBlocks (a len : Nat) : Nat := (a % 128 + len + 127) / 128

/-- The blocks of memory that the next beat of a burst read takes. -/
def ReadReq.blocks (r : ReadReq) : Nat :=
  match r.kind with
  | .index n => spanBlocks r.addr (4 * n)
  | .element bit len => spanBlocks r.addr ((bit + len + 7) / 8)
  | _ => 1

/-- Blocks of a Pocket that its portal holds on the SYS side (06_pockets R129). -/
def State.blocksHeld (s : State) (pk : Nat) : Nat :=
  (s.haul.chans.map fun e => ((e.2.staged.filter fun b =>
    match targetOf b.addr with | .pocket k _ => k = pk | _ => false).map (·.blocks)).sum).sum

/-- The portal of the Pocket that a burst read is of has room for the next beat: it holds up to four blocks (06_pockets R129). -/
def State.stageRoom (s : State) (r : ReadReq) : Bool :=
  match targetOf r.addr with
  | .pocket pk _ => s.blocksHeld pk + r.blocks ≤ 4
  | _ => true

/-- The beat that a target stages for a burst read, if it can (R220, R221). -/
def stageOne (m : Nat) (r : ReadReq) (s : State) : Option StagedBeat × State :=
  let beat := fun (d n : Nat) => ({ data := d, bytes := n, kind := r.kind, addr := r.addr, blocks := r.blocks } : StagedBeat)
  match r.kind with
  | .desc => let (a, s) := readDesc m r.addr s; (stagedAnswer a fun d => beat d 32, s)
  | .index n => let (a, s) := readSpan m r.addr (4 * n) s; (stagedAnswer a fun d => beat d (4 * n), s)
  | .element bit len =>
    let (a, s) := readSpan m r.addr ((bit + len + 7) / 8) s; (stagedAnswer a fun d => beat (bitsOf bit len d) 0, s)
  | .seq =>
    match targetOf r.addr with
    | .portal k =>
      let e := accessError s.cfg m false (.portal k)
      if e ≠ 0 then (stagedAnswer (.fails e 0) fun d => beat d 0, s)
      else
        let p := hpPortal k 1
        let w := portalWidth s.cfg p
        let x := s.portal p
        let rem := (s.master m).portalWants
        let n := min (1024 / w) ((rem + w / 8 - 1) / (w / 8))
        let b := portalBeat w n (x.queue.take x.ready)
        if 0 < n ∧ (b.2.2.1 = n ∨ b.2.2.2) then
          (some { beat b.1 b.2.1 with eop := b.2.2.2 },
            s.modPortal p fun x => { x with queue := x.queue.drop b.2.2.1, ready := x.ready - b.2.2.1 })
        else (none, s)
    | _ =>
      let o := r.addr % 128
      let (a, s) := readBlock m r.addr s; (stagedAnswer a fun d => beat (d >>> (8 * o)) (128 - o), s)

/-- R220: the next beat of the oldest burst read that has one to stage. -/
def stageBeat (m : Nat) (s : State) : State :=
  let v := s.master m
  if s.blocksRun then
    match v.opened.findIdx? fun r => 0 < r.stage with
    | none => s
    | some i =>
      match v.opened[i]? with
      | none => s
      | some r =>
        if s.stageRoom r then
          match stageOne m r s with
          | (none, s) => s
          | (some b, s) =>
            -- a portal's beat may end early at a `LAST` word: the beats still wanted are counted again
            let r' := match targetOf r.addr with
              | .portal _ =>
                let n := (v.portalWants - b.bytes + 127) / 128
                { r with stage := n, left := r.left - r.stage + 1 + n }
              | _ => { r with stage := r.stage - 1, addr := r.addr - r.addr % 128 + 128 }
            s.modMaster m fun v => { v with staged := v.staged ++ [b], opened := v.opened.set i r' }
        else s
  else s

/-! ### Starts, stops and pauses -/

/-- `START` (R225, R240). -/
def haulerStart (h : Nat) (s : State) : State :=
  let v := s.master h
  if v.st = 0 ∨ v.st = 6 ∨ v.st = 7 ∨ v.st = 5 then
    s.modMaster h fun v => ({ st := 1, cur := (s.reg .hchDesc h).toNat, left := v.left } : Hauler).askDesc
  else flagHauler h 4 s

/-- At a burst boundary the reads of later bursts are cancelled: they have moved nothing (R238). Beats popped from a queue stay. -/
def Hauler.cancelReads (v : Hauler) : Hauler :=
  { v with ahead := false, waiting := [], opened := [], staged := [], elems := 0, popping := false }

/-- `STOP` (R236, R240). -/
def haulerStop (h : Nat) (s : State) : State :=
  let v := s.master h
  if v.st = 1 ∨ v.st = 2 ∨ v.st = 3 then
    if v.burst.isNone then
      if v.pause then s.modMaster h fun v => { v with stop := true }
      else flagHauler h 3 (s.modMaster h fun v => { v.cancelReads with st := 5 })
    else s.modMaster h fun v => { v with stop := true }
  else flagHauler h 4 s

/-- The cavern of a target's address. -/
def targetCav (a : Nat) : Option Nat :=
  match targetOf a with
  | .pocket pk _ => some (pk / 112)
  | .portal k => some (16 + k / 8)
  | _ => none

/-- The cavern of an address in a Pocket. -/
def pocketCav (a : Nat) : Option Nat :=
  match targetOf a with
  | .pocket pk _ => some (pk / 112)
  | _ => none

/-- R237: the caverns in which a channel's source or target lies: its source, destination, index table and pacing portals, and the
Pockets of its own descriptor and of the next. -/
def Hauler.places (v : Hauler) : List Nat :=
  if v.desc = [] then (pocketCav v.cur).toList
  else
    let sides := [v.src, v.dst] ++ (if v.ixm = 0 then [] else [v.itab]) ++
      ([v.hd 5 0 8, v.hd 5 8 8].filter fun r => 1 ≤ r && r ≤ 128).map fun r => 0x40000000 + 0x1000 * (r - 1)
    sides.filterMap targetCav ++ (v.cur :: if v.hd 7 0 1 = 0 then [32 * v.hd 7 5 27] else []).filterMap pocketCav

/-- R237: a master's source or target lies in a cavern. -/
def State.masterIn (s : State) (m c : Nat) : Bool := (s.master m).places.contains c

/-- `RESUME` (R239, R240). -/
def haulerResume (h : Nat) (s : State) : State :=
  let v := s.master h
  let off := v.st = 4 && v.places.any fun c => (s.cav c).power
  if (v.st = 4 ∨ v.st = 5) ∧ off = false then
    requestAhead h (s.modMaster h fun v =>
      let v := { v with stop := false, pause := false }
      if v.desc = [] then { v with st := 1 }.askDesc else { v with st := 2 })
  else flagHauler h 4 s

/-- R238, R240: a channel that a forced power-down pauses, at its burst boundary. -/
def haulerPause (h : Nat) (s : State) : State :=
  let v := s.master h
  if v.pause ∧ v.burst.isNone ∧ (v.st = 1 ∨ v.st = 2 ∨ v.st = 3) then
    flagHauler h 2 (s.modMaster h fun v =>
      { v.cancelReads with st := 4, pause := false, stop := false })
  else s

/-- The channels that a forced power-down of a cavern pauses (R238). -/
def pauseHaulers (c : Nat) (s : State) : State :=
  (List.range 64).foldl (fun s h =>
    let v := s.master h
    if (v.st = 1 ∨ v.st = 2 ∨ v.st = 3) ∧ s.masterIn h c then s.modMaster h fun v => { v with pause := true } else s) s

/-! ### Meanings -/

/-- A host's write of a bit to a channel's control register. -/
def hchWrite (p : HostPort) (h : Fin 64) (b : Nat) (f : Nat → State → State) (s : State) : Out :=
  .next (hostCommand p .hchCtrl h.val (bitWord b) (f h.val) s)

/-- HAULER_START (10_haulers R225). -/
def execHaulerStart (p : HostPort) (h : Fin 64) (s : State) : Out := hchWrite p h 0 haulerStart s
/-- HAULER_STOP (10_haulers R236). -/
def execHaulerStop (p : HostPort) (h : Fin 64) (s : State) : Out := hchWrite p h 2 haulerStop s
/-- HAULER_RESUME (10_haulers R239). -/
def execHaulerResume (p : HostPort) (h : Fin 64) (s : State) : Out := hchWrite p h 1 haulerResume s
/-- DESCRIPTOR_FETCH (10_haulers R225). -/
def execDescriptorFetch (h : Fin 64) (s : State) : Out := .next (descriptorFetch h.val s)
/-- BURST_READ_REQUEST (10_haulers R220). -/
def execBurstReadRequest (m : Fin 65) (s : State) : Out := .next (burstRequest m.val s)
/-- TARGET_BEAT_STAGED (10_haulers R220). -/
def execTargetBeatStaged (m : Fin 65) (s : State) : Out := .next (stageBeat m.val s)
/-- HAULER_BEAT (10_haulers R222). -/
def execHaulerBeat (h : Fin 64) (s : State) : Out := .next (masterBeat h.val s)

end Sys2Proof.Machine
end

