-- ==== Sys2Proof/Machine/BlockChecks.lean ====
section
/-! DEFINITION. The loader's checks on frames of lanes, Crushers, Sump queues, the wheel and Adit links, and the checks at the end of a load (07_crushers R163, 08_sump R177, 09_portals R208, 10_haulers R219, 11_lane_electrical R255, 12_lane_link R279, 17_pins R425). -/

namespace Sys2Proof.Machine

/-! ### Crushers -/

/-- Cycles, parameter words, state words and packet-only of an operation (07_crushers R150). -/
def opShape (opc : Nat) : Option (Nat × Nat × Nat × Bool) :=
  match opc with
  | 0x00 => some (0, 0, 0, false) | 0x01 => some (4, 4, 1, true) | 0x02 => some (4, 4, 1, true)
  | 0x03 => some (2, 2, 1, true) | 0x04 => some (2, 2, 2, true) | 0x05 => some (6, 9, 11, false)
  | 0x06 => some (1, 1, 1, true) | 0x07 => some (1, 1, 1, true) | 0x08 => some (1, 5, 0, false)
  | 0x09 => some (2, 3, 1, true) | 0x0A => some (1, 1, 2, false) | 0x0B => some (1, 1, 0, true)
  | _ => none

/-- The parameters of a step hold no reserved encoding, and its field no length above the operation's limit (07_crushers R152 to
R157). -/
def paramsLegal (opc : Nat) (p : Nat → Nat) : Bool :=
  match opc with
  | 0x01 => bitsOf 14 2 (p 1) = 0 && bitsOf 10 2 (p 1) = 0 && bitsOf 5 2 (p 1) = 0 && bitsOf 8 2 (p 1) ≠ 3
  | 0x02 => bitsOf 14 2 (p 1) = 0 && bitsOf 10 2 (p 1) = 0 && bitsOf 5 2 (p 1) = 0 && bitsOf 8 2 (p 1) ≠ 3
  | 0x03 => bitsOf 2 14 (p 1) = 0 && bitsOf 0 2 (p 1) ≠ 3
  | 0x04 => bitsOf 2 14 (p 1) = 0 && bitsOf 0 2 (p 1) ≠ 3
  | 0x05 => bitsOf 12 20 (p 8) = 0 && bitsOf 6 2 (p 8) ≤ 1
  | 0x06 => bitsOf 7 6 (p 0) = 0 && bitsOf 1 6 (p 0) ≤ 31
  | 0x07 => bitsOf 7 6 (p 0) = 0 && bitsOf 1 6 (p 0) ≤ 31
  | 0x0A => bitsOf 7 6 (p 0) = 0 && bitsOf 1 6 (p 0) ≤ 31
  | 0x0B => bitsOf 7 6 (p 0) = 0
  | _ => true

/-- A destination's index is in range for its type (07_crushers R148). -/
def destLegal (ty idx : Nat) : Bool := if ty = 2 then idx < 96 else if ty = 3 then idx < 32 else true

/-- R163 for one client's context, its words read by `w`; its steps take at most 32 cycles (R151). -/
def contextLegal (w : Nat → Nat) : Bool :=
  let ops := (List.range 8).map fun i => w (4 + i)
  let opc := fun o => bitsOf 27 5 o
  let run := ops.takeWhile fun o => opc o ≠ 0
  let rest := ops.dropWhile fun o => opc o ≠ 0
  let pkt := bitAt 30 (w 0)
  (List.range 3).all (fun i => w (1 + i) = 0) && (List.range 4).all (fun i => w (60 + i) = 0) && bitsOf 0 4 (w 0) = 0 &&
  rest.all (fun o => opc o = 0) && ops.all (fun o => bitsOf 0 18 o = 0 && (opShape (opc o)).isSome) &&
  run.all (fun o =>
    match opShape (opc o) with
    | some (_, np, ns, only) =>
      bitsOf 23 4 o + np ≤ 16 && bitsOf 18 5 o + ns ≤ 32 && (!only || pkt) &&
      paramsLegal (opc o) (fun i => w (12 + bitsOf 23 4 o + i))
    | none => false) &&
  (run.map fun o => match opShape (opc o) with | some (c, _) => c | none => 0).sum ≤ 32 &&
  (run.filter fun o => opc o = 1 ∧ bitsOf 8 2 (w (12 + bitsOf 23 4 o + 1)) = 0).length ≤ 1 &&
  -- a state word that MATCH tests comes from a field in the first chunk (R158)
  run.all (fun m => opc m ≠ 9 || run.all fun o => opc o ≠ 6 || bitsOf 18 5 o ≠ bitsOf 18 5 m ||
    (let f := w (12 + bitsOf 23 4 o); fieldBit f + fieldLen f ≤ 1024)) &&
  destLegal (bitsOf 28 2 (w 0)) (bitsOf 17 11 (w 0)) && destLegal (bitsOf 15 2 (w 0)) (bitsOf 4 11 (w 0))

/-- A word of a client's context in the image's frames (07_crushers R143). -/
def ctxFrame (t : Tab Word) (e k w : Nat) : Nat := (ctxImage t e k w).toNat

/-- A client's `EN` in the image's frames. -/
def ctxEn (t : Tab Word) (e k : Nat) : Bool := bitAt 31 (ctxFrame t e k 0)

/-- The slots of an engine name enabled clients of an enabled engine (07_crushers R163). -/
def slotsLegal (t : Tab Word) (e : Nat) : Bool :=
  (List.range 512).all fun n =>
    let v := slotEntry t e n
    !(bitAt 15 v) || (engineEn t e && ctxEn t e (bitsOf 0 7 v))

/-- R163: the check of a frame of code 42. -/
def checkCrusher (new : Tab Word) (col minor : Nat) : Option Nat :=
  if 16 ≤ col ∨ 0x42 < minor then some errBadAddress
  else if minor ≤ 1 then
    orBadField (((List.range 256).all fun i => bitsOf 7 8 (slotEntry new col (256 * minor + i)) = 0) && slotsLegal new col)
  else if minor ≤ 0x41 then
    orBadField (((List.range 2).all fun i =>
      let k := 2 * (minor - 2) + i
      contextLegal (ctxFrame new col k) &&
      (!(k < 96 && ctxEn new col k) || (List.range 16).all fun e => e = col || !(ctxEn new e k))) && slotsLegal new col)
  else orBadField (cfgWord new 42 col 0x42 0 ≤ 1 && wordsZero new 42 col 0x42 1 && slotsLegal new col)

/-! ### The Sump -/

/-- R177 for one queue's settings. -/
def queueLegal (t : Tab Word) (q : Nat) : Bool :=
  let f := fun lo len => qCfg t q lo len
  if f 0 1 = 0 then f 0 64 = 0
  else
    f 40 24 = 0 && f 3 5 ≤ 19 && f 16 16 ≤ 32768 && f 32 4 ≠ 0 && f 36 4 ≠ 0 &&
    !(f 16 16 ≠ 0 && f 16 16 < f 8 8) && !(f 1 1 = 0 && (f 8 8 ≠ 0 || f 2 1 = 1))

/-- R177: the check of a frame of code 43. -/
def checkSump (new : Tab Word) (col minor : Nat) : Option Nat :=
  if minor ≠ 0 then some errBadAddress
  else if col < 32 then orBadField ((List.range 64).all fun i => queueLegal new (64 * col + i))
  else if col = 32 then orBadField (cfgWord new 43 32 0 0 < 2 ^ 16 && wordsZero new 43 32 0 1)
  else some errBadAddress

/-! ### The wheel -/

/-- R219: the check of a frame of code 44. -/
def checkWheel (new : Tab Word) (col minor : Nat) : Option Nat :=
  if col ≠ 0 ∨ 3 < minor then some errBadAddress
  else orBadField ((List.range 256).all fun i =>
    let v := wheelEntry new (256 * minor + i)
    bitsOf 14 2 v ≤ 1 && bitsOf 6 8 v = 0 && !(bitsOf 14 2 v = 0 && bitsOf 0 6 v ≠ 0))

/-- R219: the Foreman owns at least 16 slots. -/
def wheelEnough (t : Tab Word) : Bool := 16 ≤ ((List.range 1024).filter fun e => bitsOf 14 2 (wheelEntry t e) = 0).length

/-! ### Lanes -/

/-- R255 and R279 for the fields of one lane, as far as its frame decides. -/
def laneLegal (t : Tab Word) (n : Nat) : Bool :=
  let f := fun lo len => lnCfg t n lo len
  let rate := f 12 3
  let proto := f 32 2
  let pam := rate = 4 || rate = 5
  if rate = 0 then f 0 64 = 0 && f 64 64 = 0
  else
    f 19 1 = 0 && f 0 11 = 0 && f 60 4 = 0 && f 64 64 = 0 && f 35 4 = 0 && rate ≤ 5 && f 40 2 ≠ 3 &&
    (pam || (f 15 1 = 0 && f 16 1 = 0)) &&
    (if 2 ≤ proto then 6 ≤ f 43 5 && f 43 5 ≤ 19 else f 43 5 = 0) &&
    !(f 34 1 = 1 && (proto < 2 || rate = 1)) &&
    !(f 42 1 = 1 && proto ≠ 2) &&
    !(f 59 1 = 1 && (proto ≠ 2 || f 42 1 = 1)) && !(f 59 1 = 0 && f 48 11 ≠ 0) &&
    !(f 39 1 = 1 && proto ≠ 2)

/-- R255 for one entry of the board table. -/
def boardLegal (t : Tab Word) (e : Nat) : Bool :=
  let f := fun lo len => cfgBits t 40 24 0 (64 * e + lo) len
  if f 63 1 = 0 then f 0 64 = 0
  else
    f 58 2 = 0 && f 60 3 ≤ 5 && f 0 5 ≤ 16 && f 11 5 ≤ 24 && f 0 5 + f 5 6 + f 11 5 ≤ 64 && f 0 5 + f 11 5 + 16 ≤ f 5 6

/-- R255: the check of a frame of code 40. -/
def checkLanes (new : Tab Word) (col minor : Nat) : Option Nat :=
  if col < 24 ∧ minor = 0 then
    orBadField (((List.range 4).all fun p => laneLegal new (4 * col + p)) && wordsZero new 40 col 0 16)
  else if col = 24 ∧ minor = 0 then orBadField ((List.range 64).all (boardLegal new))
  else if col = 24 ∧ minor = 1 then
    orBadField (cfgBits new 40 24 1 12 4 = 0 && cfgBits new 40 24 1 28 4 = 0 && wordsZero new 40 24 1 1)
  else some errBadAddress

/-- R279: the check of a frame of code 47. -/
def checkAdit (new : Tab Word) (col minor : Nat) : Option Nat :=
  if col ≠ 0 ∨ 1 < minor then some errBadAddress
  else
    orBadField (((List.range 64).all fun i => cfgBits new 47 0 minor (64 * i + 32) 32 = 0) &&
      (minor = 0 || wordsZero new 47 0 1 64))

/-- R208: the check of a frame of code 41; R425: code 45; the power settings: code 46. Every frame of the image is checked by the
chapter that owns it (15_configuration R359). `old` is in force, `new` has the frame in place. -/
def checkFrame (old new : Tab Word) (cav col minor : Nat) : Option Nat :=
  if cav < 40 then checkCavern old new cav col minor
  else match cav with
    | 40 => checkLanes new col minor
    | 41 => checkPortals new col minor
    | 42 => checkCrusher new col minor
    | 43 => checkSump new col minor
    | 44 => checkWheel new col minor
    | 45 => checkPins new col minor
    | 46 => checkPower new col minor
    | 47 => checkAdit new col minor
    | _ => some errBadAddress

/-! ### The end of a load -/

/-- The engines that enable the client of a lane. -/
def laneEngines (t : Tab Word) (n : Nat) : List Nat := (List.range 16).filter fun e => ctxEn t e n

/-- The enabled clients that send to a lane, by either destination (07_crushers R148). -/
def lanesFed (t : Tab Word) : List Nat :=
  (List.range 2048).flatMap fun c =>
    let e := c / 128
    let k := c % 128
    let w := ctxFrame t e k 0
    if bitAt 31 w then
      let a := if bitsOf 28 2 w = 2 then [bitsOf 17 11 w] else []
      if bitsOf 15 2 w = 2 ∧ a ≠ [bitsOf 4 11 w] then a ++ [bitsOf 4 11 w] else a
    else []

/-- The checks of R255 and R279 on a lane against the configuration in force; `fed` is what `lanesFed` gives. -/
def laneFits (t : Tab Word) (fed : List Nat) (n : Nat) : Bool :=
  let f := fun lo len => lnCfg t n lo len
  let rate := f 12 3
  let proto := f 32 2
  let inOn := portalEn t (lanePortal n 0)
  let outOn := portalEn t (lanePortal n 1)
  let clients := laneEngines t n
  let stream := proto = 2
  let q := lnTxq t n
  (rate = 0 || (beqFits t n (f 26 6) && beqFits t n (f 20 6) && refUsed t (n / 8) &&
    !(rate = 2 && cfgBits t 40 24 1 (n / 8) 1 = 1))) &&
  !(lnTxqEn t n && !(qCfg t q 0 1 = 1 && qCfg t q 1 1 = 1 && qCfg t q 38 1 = 1)) &&
  (if lnRxCr t n then !clients.isEmpty && !inOn else clients.isEmpty) &&
  (if proto = 3 then lnAdit t n 24 8 ≠ 0 else lnAdit t n 0 32 = 0) &&
  !((proto = 1 || proto = 3 || (stream && !(lnRxCr t n))) && !inOn) &&
  !((proto = 1 || proto = 3 || (stream && !(lnTxCr t n) && !(lnTxqEn t n))) && !outOn) &&
  !(proto = 3 && portalWidth t (lanePortal n 0) ≠ portalWidth t (lanePortal n 1)) &&
  !((proto = 1 || proto = 3) && !clients.isEmpty) &&
  (match (fed.filter (· = n)).length with | 0 => true | 1 => lnTxCr t n | _ => false)

/-- R208: the checks of portals and the port 2 table against the configuration in force. -/
def portalsFit (t : Tab Word) : Bool :=
  ((List.range 128).all fun i =>
    let k := i / 2
    let out := i % 2
    let p := sitePortal (16 + k / 8) (32 + k % 8) out
    !(portalEn t p) ||
      (qCfg t (portalBind t p) 0 1 = 1 && qCfg t (portalBind t p) (if out = 0 then 38 else 34) 1 = 1 &&
        (out = 1 || 2048 ≤ portalDepth t p * portalWidth t p))) &&
  ((List.range 512).all fun i =>
    let p := sitePortal (16 + i / 32) (i % 32) 0
    !(portalEn t p) || 1280 ≤ portalDepth t p * portalWidth t p) &&
  ((List.range 512).all fun e =>
    let v := port2Entry t e
    !(bitAt 15 v) ||
      (if bitAt 13 v then lnTxqEn t (bitsOf 0 7 v)
       else portalEn t (sitePortal (16 + bitsOf 0 7 v / 8) (32 + bitsOf 0 7 v % 8) (bitNat (bitAt 14 v))))) &&
  ((List.range 96).all fun n =>
    !(lnTxqEn t n) || (List.range 512).any fun e =>
      let v := port2Entry t e
      bitAt 15 v && bitAt 13 v && bitsOf 0 7 v = n)

/-- R425: no pin is SECURE. -/
def noSecure (t : Tab Word) : Bool := (List.range 720).all fun i => pinOwnerCode t (i / 60) (i % 60) ≠ 3

/-- The checks at the end of a full load (15_configuration R365 step 6): the error, and the frame address reported. -/
def endChecks (t : Tab Word) (wrote : Nat) (crcMode : Bool) : Option (Nat × Nat) :=
  match ((List.range 40).filter fun c => bitAt c wrote).findSome? (carryBroken t) with
  | some a => some (errBadField, a)
  | none =>
    let fed := lanesFed t
    if portalsFit t && wheelEnough t && ((List.range 96).all (laneFits t fed)) && (!crcMode || noSecure t) then none
    else some (errBadField, 0)

end Sys2Proof.Machine
end

