-- ==== Sys2Proof/Machine/Crypto.lean ====
section
/-! DEFINITION. The digest and the signature that 15_configuration R357 and R361 name: SHA-384 of FIPS 180-4, and ECDSA verification over P-384 of FIPS 186-5. PRESUMED: the spec names the two standards, and they are written here as they stand (log 103). -/

namespace Sys2Proof.Machine

/-! ### SHA-384 -/

/-- The constants of the eighty rounds. -/
def shaRounds : List (BitVec 64) :=
  [0x428A2F98D728AE22, 0x7137449123EF65CD, 0xB5C0FBCFEC4D3B2F, 0xE9B5DBA58189DBBC,
   0x3956C25BF348B538, 0x59F111F1B605D019, 0x923F82A4AF194F9B, 0xAB1C5ED5DA6D8118,
   0xD807AA98A3030242, 0x12835B0145706FBE, 0x243185BE4EE4B28C, 0x550C7DC3D5FFB4E2,
   0x72BE5D74F27B896F, 0x80DEB1FE3B1696B1, 0x9BDC06A725C71235, 0xC19BF174CF692694,
   0xE49B69C19EF14AD2, 0xEFBE4786384F25E3, 0x0FC19DC68B8CD5B5, 0x240CA1CC77AC9C65] ++
  [0x2DE92C6F592B0275, 0x4A7484AA6EA6E483, 0x5CB0A9DCBD41FBD4, 0x76F988DA831153B5,
   0x983E5152EE66DFAB, 0xA831C66D2DB43210, 0xB00327C898FB213F, 0xBF597FC7BEEF0EE4,
   0xC6E00BF33DA88FC2, 0xD5A79147930AA725, 0x06CA6351E003826F, 0x142929670A0E6E70,
   0x27B70A8546D22FFC, 0x2E1B21385C26C926, 0x4D2C6DFC5AC42AED, 0x53380D139D95B3DF,
   0x650A73548BAF63DE, 0x766A0ABB3C77B2A8, 0x81C2C92E47EDAEE6, 0x92722C851482353B] ++
  [0xA2BFE8A14CF10364, 0xA81A664BBC423001, 0xC24B8B70D0F89791, 0xC76C51A30654BE30,
   0xD192E819D6EF5218, 0xD69906245565A910, 0xF40E35855771202A, 0x106AA07032BBD1B8,
   0x19A4C116B8D2D0C8, 0x1E376C085141AB53, 0x2748774CDF8EEB99, 0x34B0BCB5E19B48A8,
   0x391C0CB3C5C95A63, 0x4ED8AA4AE3418ACB, 0x5B9CCA4F7763E373, 0x682E6FF3D6B2B8A3,
   0x748F82EE5DEFB2FC, 0x78A5636F43172F60, 0x84C87814A1F0AB72, 0x8CC702081A6439EC] ++
  [0x90BEFFFA23631E28, 0xA4506CEBDE82BDE9, 0xBEF9A3F7B2C67915, 0xC67178F2E372532B,
   0xCA273ECEEA26619C, 0xD186B8C721C0C207, 0xEADA7DD6CDE0EB1E, 0xF57D4F7FEE6ED178,
   0x06F067AA72176FBA, 0x0A637DC5A2C898A6, 0x113F9804BEF90DAE, 0x1B710B35131C471B,
   0x28DB77F523047D84, 0x32CAAB7B40C72493, 0x3C9EBE0A15C9BEBC, 0x431D67C49C100D4C,
   0x4CC5D4BECB3E42B6, 0x597F299CFC657E2A, 0x5FCB6FAB3AD6FAEC, 0x6C44198C4A475817]

/-- The initial value of SHA-384. -/
def shaStart : List (BitVec 64) :=
  [0xCBBB9D5DC1059ED8, 0x629A292A367CD507, 0x9159015A3070DD17, 0x152FECD8F70E5939,
   0x67332667FFC00B31, 0x8EB44A8768581511, 0xDB0C2E0D64F98FA7, 0x47B5481DBEFA4FA4]

/-- The small and the large sigma functions: two rotations, and a shift or a third rotation. -/
def shaSigma (a b c : Nat) (shift : Bool) (x : BitVec 64) : BitVec 64 :=
  x.rotateRight a ^^^ x.rotateRight b ^^^ (if shift then x >>> c else x.rotateRight c)

/-- The schedule goes on from the last sixteen words, the latest first. -/
def shaNext (w : List (BitVec 64)) : BitVec 64 :=
  shaSigma 19 61 6 true (w.getD 1 0) + w.getD 6 0 + shaSigma 1 8 7 true (w.getD 14 0) + w.getD 15 0

/-- One round on the eight working variables. -/
def shaRound (k w : BitVec 64) : List (BitVec 64) → List (BitVec 64)
  | [a, b, c, d, e, f, g, h] =>
    let t := h + shaSigma 14 18 41 false e + ((e &&& f) ^^^ (~~~ e &&& g)) + k + w
    let u := shaSigma 28 34 39 false a + ((a &&& b) ^^^ (a &&& c) ^^^ (b &&& c))
    [t + u, a, b, c, d + t, e, f, g]
  | v => v

/-- A block of sixteen words, in order, taken into the hash value. -/
def shaBlock (hash block : List (BitVec 64)) : List (BitVec 64) :=
  let r := shaRounds.foldl (fun (a : List (BitVec 64) × List (BitVec 64)) k =>
    -- the sixteen words of the block come first; the window then holds the latest of the schedule
    (shaRound k (a.2.getD 15 0) a.1, shaNext a.2 :: a.2.take 15)) (hash, block.reverse)
  (hash.zip r.1).map fun p => p.1 + p.2

/-- The number of bytes, most significant first. -/
def natOfBig (bs : List Byte) : Nat := natOfBytes bs.reverse
/-- Words of 64 bits, most significant byte first. -/
def bigWords : Nat → List Byte → List (BitVec 64)
  | 0, _ => []
  | k + 1, bs => BitVec.ofNat 64 (natOfBig (bs.take 8)) :: bigWords k (bs.drop 8)

/-- A message padded to whole blocks of 128 bytes: a one bit, zeros, and its length in bits as 16 bytes. -/
def shaPad (bs : List Byte) : List Byte :=
  bs ++ [0x80] ++ List.replicate ((239 - bs.length % 128) % 128) 0 ++ (bytesOf (8 * bs.length) 16).reverse

/-- Blocks taken in order. -/
def shaBlocks : Nat → List Byte → List (BitVec 64) → List (BitVec 64)
  | 0, _, h => h
  | k + 1, bs, h => shaBlocks k (bs.drop 128) (shaBlock h (bigWords 16 (bs.take 128)))

/-- The SHA-384 digest of a byte string: 48 bytes. -/
def sha384 (bs : List Byte) : List Byte :=
  let p := shaPad bs
  ((shaBlocks (p.length / 128) p shaStart).take 6).flatMap fun w => (bytesOf w.toNat 8).reverse

/-! ### P-384 -/

/-- The prime of the field. -/
def ecPrime : Nat := 2 ^ 384 - 2 ^ 128 - 2 ^ 96 + 2 ^ 32 - 1
/-- The order of the base point. -/
def ecOrder : Nat := 0xFFFFFFFFFFFFFFFFFFFFFFFFFFFFFFFFFFFFFFFFFFFFFFFFC7634D81F4372DDF581A0DB248B0A77AECEC196ACCC52973
/-- The coefficient b of the curve, whose other coefficient is -3. -/
def ecB : Nat := 0xB3312FA7E23EE7E4988E056BE3F82D19181D9C6EFE8141120314088F5013875AC656398D8A2ED19D2A85C8EDD3EC2AEF
/-- The base point. -/
def ecBase : Nat × Nat :=
  (0xAA87CA22BE8B05378EB1C71EF320AD746E1D3B628BA79B9859F741E082542A385502F25DBF55296C3A545E3872760AB7,
   0x3617DE4A96262C6F5D9E98BF9292DC29F8F41DBD289A147CE9DA3113B5F0B8C00A60B1CE1D7E819D7A431D7C90EA0E5F)

/-- A power modulo m, over the bits of an exponent of 384 bits. -/
def powMod (m a e : Nat) : Nat :=
  ((List.range 384).foldl (fun (r : Nat × Nat) i => (if bitAt i e then r.1 * r.2 % m else r.1, r.2 * r.2 % m)) (1, a % m)).1
/-- The inverse modulo a prime. -/
def invMod (m a : Nat) : Nat := powMod m a (m - 2)

/-- The sum of two points; none is the point at infinity. -/
def ecAdd : Option (Nat × Nat) → Option (Nat × Nat) → Option (Nat × Nat)
  | none, q => q
  | p, none => p
  | some (x1, y1), some (x2, y2) =>
    let p := ecPrime
    if x1 = x2 ∧ (y1 + y2) % p = 0 then none
    else
      let l := (if x1 = x2 then (3 * x1 * x1 + (p - 3)) * invMod p (2 * y1) else (y2 + p - y1) * invMod p (x2 + p - x1)) % p
      let x := (l * l + 2 * p - x1 - x2) % p
      some (x, (l * (x1 + p - x) + p - y1) % p)

/-- A multiple of a point. -/
def ecMul (k : Nat) (q : Nat × Nat) : Option (Nat × Nat) :=
  ((List.range 384).foldl (fun (r : Option (Nat × Nat) × Option (Nat × Nat)) i =>
    (if bitAt i k then ecAdd r.1 r.2 else r.1, ecAdd r.2 r.2)) (none, some q)).1

/-- A point is on the curve. -/
def ecOn (q : Nat × Nat) : Bool :=
  q.1 < ecPrime && q.2 < ecPrime && q.2 * q.2 % ecPrime = (q.1 * q.1 * q.1 + (ecPrime - 3) * q.1 + ecB) % ecPrime

/-- ECDSA verification of a digest of 384 bits. -/
def ecdsaVerify (key : Nat × Nat) (digest r s : Nat) : Bool :=
  let n := ecOrder
  if 0 < r ∧ r < n ∧ 0 < s ∧ s < n ∧ ecOn key then
    let w := invMod n s
    match ecAdd (ecMul (digest * w % n) ecBase) (ecMul (r * w % n) key) with
    | some (x, _) => x % n = r
    | none => false
  else false

end Sys2Proof.Machine
end

