-- ==== Sys2Proof/Machine/Ports.lean ====
section
/-! DEFINITION. The Sump's ports (08_sump, 09_portals R203 to R205), the portals (R197 to R211), and the crossings between clock domains (R213 to R215). -/

namespace Sys2Proof.Machine

/-! ### Sump portals -/

/-- The portal of Sump portal `SPk` in a direction (09_portals R200). -/
def spPortal (k dir : Nat) : Nat := sitePortal (16 + k / 8) (32 + k % 8) dir
/-- The entry of the port 2 table that this clock serves (R204). -/
def State.port2Now (s : State) : Nat := port2Entry s.cfg (s.clocks.sys % 512)

/-- A beat gathered from tokens: `SOP` of the first, the other fields of the last (R203). -/
def gatherBeat (w : Nat) (ts : List (Nat × Nat)) : SumpBeat :=
  let first := (ts.headD (0, 0)).2
  let last := (ts.getLast?.getD (0, 0)).2
  { data := BitVec.ofNat 1024 (ts.foldr (fun t x => t.1 % 2 ^ w + 2 ^ w * x) 0)
    tag := BitVec.ofNat 16 (bitsOf 0 14 last + place 14 1 (bitsOf 14 1 first)) }

/-- R203: a token taken by a Sump push portal. -/
def gatherToken (p : Nat) (d t : Nat) (s : State) : State :=
  let w := portalWidth s.cfg p
  s.modPortal p fun v =>
    let v := if bitAt 14 t && !v.gather.isEmpty then
        { v with beats := v.beats ++ [(gatherBeat w v.gather, v.gather.length)], gather := [] } else v
    let g := v.gather ++ [(d, t)]
    if bitAt 13 t || 1024 / w ≤ g.length then { v with beats := v.beats ++ [(gatherBeat w g, g.length)], gather := [] }
    else { v with gather := g }

/-! ### Pushes and pops -/

/-- A producer's attachment is this port's in this clock (01_architecture R17, 09_portals R204). A paused portal offers nothing
(08_sump R192). -/
def State.producerFits (s : State) (port q : Nat) : Producer → Bool
  | .client e _ => port = enginePort e.val
  | .portal c k =>
    let e := s.port2Now
    let n := 8 * c.val + k.val - 32
    port = 2 && 32 ≤ k.val && k.val < 40 && bitAt 15 e && bitAt 14 e && !(bitAt 13 e) && bitsOf 0 7 e = n &&
      portalBind s.cfg (spPortal n 1) = q && (s.portal (spPortal n 1)).paused.isNone
  | .hauler h => port = 3 && slotOwner s.cfg s.clocks.sys = h.val
  | .foreman => port = 3 && slotOwner s.cfg s.clocks.sys = 64

/-- A queue into which the Foreman pushes is kept (08_sump R183). -/
def noteForeman (q : Nat) (p : Producer) (s : State) : State :=
  if p = .foreman then
    s.withSump fun u => { u with fmQueues := if u.fmQueues.contains q then u.fmQueues else u.fmQueues ++ [q] }
  else s

/-- A Sump portal reaches the boundary of its burst: a pause that waits for it applies (08_sump R192, 01_architecture R30). -/
def burstOver (p : Nat) (s : State) : State :=
  s.modPortal p fun v => { v with burst := 0, pausing := none, paused := v.pausing <|> v.paused }

/-- The cells of a Sump portal's burst (08_sump R192): `began` says that a cell is begun, `ends` that a cell is over. A burst ends after
16 cells, and with its packet. -/
def countBurst (p : Nat) (began ends eop : Bool) (s : State) : State :=
  let s := if began then s.modPortal p fun v => { v with burst := v.burst + 1 } else s
  if eop || (ends && 16 ≤ (s.portal p).burst) then burstOver p s else s

/-- A beat of a Sump push portal taken: its place in the portal's burst. -/
def pushedBurst (p q : Nat) (pr : Producer) (b : SumpBeat) (old s : State) : State :=
  let ends := match s.inProgress q pr with | some d => (s.roomCell d).isNone | none => true
  countBurst p ((old.queue q).held < (s.queue q).held) ends b.eop s

/-- The portal that a producer is, for its bursts. -/
def producerPortal : Producer → Option Nat
  | .portal c k => if 32 ≤ k.val ∧ k.val < 40 then some (spPortal (8 * c.val + k.val - 32) 1) else none
  | _ => none

/-- SUMP_PUSH (08_sump R178): the beat that the port's producer of this clock holds, or one that the sender offers for a producer. -/
def sumpPush (port q : Nat) (o : SumpOffer) (s : State) : State :=
  if s.blocksRun && s.portTakes port q false then
    match o with
    | .given p b =>
      if s.producerFits port q p then
        let (a, t) := portPush port q p b s
        if a = .taken then
          noteForeman q p (match producerPortal p with | some n => pushedBurst n q p b s t | none => t)
        else t
      else s
    | .held =>
      if port < 2 then
        match s.sump.offers.find? fun x => x.port = port ∧ x.queue = q with
        | some x =>
          let (a, s) := portPush port q x.producer x.beat s
          if a = .taken then
            let s := s.withSump fun u => { u with offers := u.offers.erase x }
            if x.last then (match s.resvOf x.producer q with | some r => dropResv r s | none => s) else s
          else s
        | none => s
      else if port = 2 then
        let e := s.port2Now
        let k := bitsOf 0 7 e
        let p := spPortal k 1
        if bitAt 15 e && bitAt 14 e && !(bitAt 13 e) && portalEn s.cfg p && portalBind s.cfg p = q && (s.portal p).paused.isNone then
          match (s.portal p).beats with
          | (b, _) :: rest =>
            let pr : Producer := .portal (Fin.ofNat 16 (k / 8)) (Fin.ofNat 54 (32 + k % 8))
            let (a, t) := portPush 2 q pr b s
            if a = .taken then pushedBurst p q pr b s (t.modPortal p fun v => { v with beats := rest }) else t
          -- an entry with nothing to move ends the burst
          | [] => burstOver p s
        else s
      else s
  else s

/-- A lane that drains a queue takes beats now: it is UP with room, or it discards the rest of a packet (12_lane_link R286, R288). -/
def State.drains (s : State) (n : Nat) : Bool × Bool :=
  let t := (s.lane n).tx
  let xs := tabGet [] s.crossings.fromSump n
  (s.laneState n = 5 && xs.length + 2 ≤ 8 && t.out.length + 16 * xs.length + 32 ≤ 64,
    s.laneState n ≠ 5 && t.skip && t.draining)

/-- R288: a lane pops the queue that it drains, at the port 2 entry that names it. An entry carries one beat (08_sump R169,
09_portals R205): the second beat of a cell takes the lane's next entry. -/
def drainLane (n : Nat) (e0 e1 : BeatFound) (s : State) : State :=
  let e := s.port2Now
  let q := lnTxq s.cfg n
  let d := s.drains n
  if s.blocksRun && s.portTakes 2 q true && bitAt 15 e && !(bitAt 14 e) && bitAt 13 e && bitsOf 0 7 e = n && lnTxqEn s.cfg n &&
      s.benchOn (n / 4) && (d.1 || d.2) && !(s.reading (.lane n)) then
    match tabGet [] s.crossings.sumpHeld n with
    | b :: rest =>
      let s := usePort 2 q true s
      { s with crossings := { s.crossings with sumpHeld := tabSet [] s.crossings.sumpHeld n rest
                                               fromSump := tabMod [] s.crossings.fromSump n (· ++ [b]) } }
    | [] => portPop 2 q e0 e1 (.lane n) s
  else s

/-- A popped cell reaches the lane that drains its queue. -/
def laneGets (n : Nat) (bs : List SumpBeat) (s : State) : State :=
  let t := (s.lane n).tx
  let up := s.laneState n = 5
  let nv := bs.any SumpBeat.nv
  let still := if nv then t.draining else match bs.getLast? with | some b => !b.eop | none => t.draining
  let s := s.modTx n fun t => { t with draining := still, skip := if up then t.skip else still }
  if up && (!nv || t.draining) then
    { s with crossings := { s.crossings with fromSump := tabMod [] s.crossings.fromSump n (· ++ bs.take 1)
                                             sumpHeld := tabSet [] s.crossings.sumpHeld n (bs.drop 1) } }
  else s

/-- A popped beat as a master's staged beat (10_haulers R220, R228). -/
def stagedOf (q : Nat) (packet : Bool) (b : SumpBeat) : StagedBeat :=
  { data := b.data.toNat, bytes := if packet then b.bytes else 128, nv := b.nv, eop := packet && b.eop,
    bad := packet && b.eop && b.bad, err := b.err, mark := b.mark, addr := 0x20000000 + 0x1000 * q }

/-- A popped cell reaches a Sump pop portal: its first beat is split into tokens, the second waits for the portal's next entry (R203,
R205). -/
def portalGets (p : Nat) (bs : List SumpBeat) (s : State) : State :=
  let w := portalWidth s.cfg p
  let s := s.modPortal p fun v => { v with stage := v.stage ++ (bs.take 1).flatMap (beatTokens w), held := bs.drop 1 }
  if bs.any SumpBeat.nv then burstOver p s
  else if bs.length ≤ 1 then countBurst p false true (bs.any SumpBeat.eop) s
  else s

/-- The beats of a pop reach who takes them. -/
def giveRead (r : SRead) (s : State) : State :=
  let s := s.withSump fun u => { u with reads := u.reads.erase r, got := tabSet [] u.got r.port r.beats }
  match r.dest with
  | .lane n => laneGets n r.beats s
  | .portal p => portalGets p r.beats s
  | .master m q =>
    let v := s.master m
    -- a channel that has ended meanwhile takes nothing
    if 2 ≤ v.st ∧ v.st ≤ 5 ∧ targetOf v.src = .queue q then
      s.modMaster m fun v => { v with popped := v.popped ++ r.beats.map (stagedOf q (qPkt s.cfg q)) }
    else s

/-- The end of a clock for the pops on their way (08_sump R168, R169). A pop takes its bank before a push of the same port, which then
waits for the port's next turn. -/
def serveReads (s : State) : State :=
  let done := s.readsDone 2 ++ s.readsDone 3
  let s := s.withSump fun u =>
    { u with doneCells := u.doneCells.filter fun c => !(done.any fun r => match r.cell with | some e => e % 64 = c % 64 | none => false) }
  done.foldl (fun s r => giveRead r s) s

/-- The portal of a pop entry moves its next beat (08_sump R169, R184, 09_portals R203 to R205). -/
def popPortal (p q : Nat) (e0 e1 : BeatFound) (s : State) : State :=
  let v := s.portal p
  let w := portalWidth s.cfg p
  if portalEn s.cfg p && portalBind s.cfg p = q && v.paused.isNone && !(s.reading (.portal p)) then
    if !v.held.isEmpty then
      let s := (usePort 2 q true s).modPortal p fun v =>
        { v with stage := v.stage ++ (v.held.take 1).flatMap (beatTokens w), held := v.held.drop 1 }
      countBurst p false true (v.held.any SumpBeat.eop) s
    else if v.queue.length + v.stage.length + 2048 / w ≤ portalDepth s.cfg p then
      portPop 2 q e0 e1 (.portal p) (s.modPortal p fun v => { v with burst := v.burst + 1 })
    else burstOver p s
  else s

/-- SUMP_POP (08_sump R184): the pop of the attachment that the port serves in this clock. Ports 0 and 1 only push (R169). -/
def sumpPop (port q : Nat) (e0 e1 : BeatFound) (s : State) : State :=
  if s.blocksRun && s.portTakes port q true then
    if port < 2 then s
    else if port = 2 then
      let e := s.port2Now
      let k := bitsOf 0 7 e
      if bitAt 15 e && !(bitAt 14 e) then
        if bitAt 13 e then (if lnTxq s.cfg k = q then drainLane k e0 e1 s else s) else popPortal (spPortal k 0) q e0 e1 s
      else s
    else
      let m := slotOwner s.cfg s.clocks.sys
      let v := s.master m
      if v.popping ∧ targetOf v.src = .queue q then
        portPop 3 q e0 e1 (.master m q) (s.modMaster m fun v => { v with popping := false })
      else s
  else s

/-! ### Portals -/

/-- The island side of a portal is out of reset (09_portals R210). -/
def State.islandUp (s : State) (p : Nat) : Bool :=
  if p < 192 then s.laneOn (p / 2)
  else if (p - 192) % 108 / 2 = 48 then s.sysRuns && !s.foreman.restarting && !s.foreman.dead && !s.loading
  else s.blocksRun

/-- The fabric side of a portal is fed: its host cavern is not isolated and not held (01_architecture R20, 09_portals R211). -/
def State.fabricUp (s : State) (p : Nat) : Bool := !(s.isolated (portalCav p)) && s.interiorLive (portalCav p)

/-- R284, R286, R287: the next word of a lane for its IN portal, and the state after it is taken. A RAW word is 64 bits. A STREAM word of
128 bits pairs two consecutive blocks and waits for the second. DESIGN CHOICE, the spec does not say when a word carries one block: only
where its first block is a terminate block, or where blocks were discarded after it, which `GAP` of the next word must show (log 102). -/
def laneWord (n : Nat) (s : State) : Option ((Nat × Nat) × State) :=
  if s.isAdit n then
    match (s.lane n).adit.rxTokens with
    | t :: rest => some (t, showAdit n (s.modAdit n fun a => { a with rxTokens := rest, ackDue := true }))
    | [] => none
  else
    let raw := lnProto s.cfg n = 1
    let two := portalWidth s.cfg (lanePortal n 0) = 128
    let tags := fun (a : RxBlk) (half : Bool) =>
      bitNat (!raw && a.isTerm) + 2 * bitNat half + 4 * bitNat (!raw && a.ctrl) + 16 * bitNat a.gap + 32 * bitNat (!raw && a.err)
    let take := fun (rest : List RxBlk) => s.modRx n fun r => { r with buf := rest }
    match (s.lane n).rx.buf with
    | [] => none
    | [a] => if !two || raw || a.isTerm then some ((a.payload, tags a two), take []) else none
    | a :: b :: rest =>
      if !two || raw || a.isTerm || b.gap then some ((a.payload, tags a two), take (b :: rest))
      else
        some ((a.payload + 2 ^ 64 * b.payload, tags a false + bitNat b.isTerm + 8 * bitNat b.ctrl + 64 * bitNat b.err), take rest)

/-- PORTAL_ENQUEUE (R197): the side that feeds a portal writes a word into its queue while the queue has room. -/
def portalEnqueue (p : Nat) (s : State) : State :=
  let v := s.portal p
  if portalEn s.cfg p && s.islandUp p && v.queue.length < portalDepth s.cfg p then
    if p % 2 = 1 then
      -- the gate of an isolated cavern shows no other token than one that stood there (01_architecture R21)
      if s.power.retention then s
      else
        match s.outToken (attPortal p) with
        | some tok =>
          let w := portalWidth s.cfg p
          gateProgress ((s.setAttAck (attPortal p) true).modPortal p fun v =>
            { v with queue := v.queue ++ [(tok % 2 ^ w, tok / 2 ^ w % 2 ^ 15)] })
        | none => s
    else if p < 192 then
      match laneWord (p / 2) s with
      | some (t, s) => s.modPortal p fun v => { v with queue := v.queue ++ [t] }
      | none => s
    else
      match v.stage with
      | t :: rest => s.modPortal p fun v => { v with queue := v.queue ++ [t], stage := rest }
      | [] => s
  else s

/-- The words of the frame at the frontier of an OUT portal, and whether its `LAST` is among them (R207). -/
def frameWords : List (Nat × Nat) → Nat × Bool
  | [] => (0, false)
  | (_, t) :: rest => if bitAt 0 t then (1, true) else let r := frameWords rest; (1 + r.1, r.2)

/-- PORTAL_DELIVER (R198): the next word of a portal crosses to the other side. -/
def portalDeliver (p : Nat) (s : State) : State :=
  let v := s.portal p
  if portalEn s.cfg p && s.islandUp p then
    if p % 2 = 0 then
      match v.queue with
      | (d, t) :: rest =>
        if s.fabricUp p && (s.attIn (attPortal p)).ph = .idle then
          let tag := t % 2 ^ 15 + 2 ^ 15 * bitNat v.rst
          (s.modPortal p fun v => { v with queue := rest, rst := false }).setAttIn (attPortal p)
            { val := d + 2 ^ portalWidth s.cfg p * tag, ph := .offering }
        else s
      | [] => s
    else
      let site := (p - 192) % 108 / 2
      if 192 ≤ p ∧ 32 ≤ site ∧ site < 40 then
        match v.queue, v.beats with
        | (d, t) :: rest, [] =>
          if v.paused.isNone then gatherToken p d t (s.modPortal p fun v => { v with queue := rest }) else s
        | _, _ => s
      else if v.ready < v.queue.length then
        let start := if p < 192 then portalTxstart s.cfg p else 0
        let f := frameWords (v.queue.drop v.ready)
        if v.begun || start ≤ f.1 || f.2 then
          let last := match v.queue[v.ready]? with | some (_, t) => bitAt 0 t | none => false
          s.modPortal p fun v => { v with ready := v.ready + 1, begun := !last }
        else s
      else s
  else s

/-! ### Crossings -/

/-- ISLAND_CROSSING_TRANSFER (R213): the oldest word of a crossing enters its destination while that has room. -/
def crossingTransfer (x : CrossingId) (s : State) : State :=
  if s.blocksRun then
    match x with
    | .toCrusher l =>
      let n := l.val
      match tabGet [] s.crossings.toCrusher n with
      | b :: rest =>
        if (tabGet [] s.crushers.inbuf n).length < 32 then
          let s := { s with crossings := { s.crossings with toCrusher := tabSet [] s.crossings.toCrusher n rest } }
          drainToCrusher n 64 (s.withCrushers fun c => { c with inbuf := tabMod [] c.inbuf n (· ++ [b]) })
        else s
      | [] => s
    | .fromCrusher l =>
      let n := l.val
      match tabGet [] s.crossings.fromCrusher n with
      | b :: rest =>
        if s.laneOn n ∧ s.laneState n = 5 ∧ (s.lane n).tx.out.length + 6 ≤ 64 then
          feedCrusher n b
            (admitStop n { s with crossings := { s.crossings with fromCrusher := tabSet [] s.crossings.fromCrusher n rest } })
        else s
      | [] => s
    | .fromSump l =>
      let n := l.val
      match tabGet [] s.crossings.fromSump n with
      | b :: rest =>
        if s.laneOn n ∧ s.laneState n = 5 ∧ (s.lane n).tx.out.length + 18 ≤ 64 then
          feedSump n b { s with crossings := { s.crossings with fromSump := tabSet [] s.crossings.fromSump n rest } }
        else s
      | [] => s
  else s

/-- A multi-bit crossing. -/
def State.multi (s : State) (x : Nat) : MultiBit := tabGet {} s.crossings.multi x
/-- A multi-bit crossing written. -/
def State.setMulti (s : State) (x : Nat) (v : MultiBit) : State :=
  { s with crossings := { s.crossings with multi := tabSet {} s.crossings.multi x v } }

/-- A crossing whose source has a newer value loads it once 4 destination clocks have passed since its last load (R214). -/
def multiSettle (now : Nat) (m : MultiBit) : MultiBit :=
  match m.next with
  | some v =>
    if m.loadedAt + 3 ≤ now then
      { m with held := v, waiting := true, misses := 0, loadedAt := m.loadedAt + 4, next := none }
    else m
  | none => m

/-- MULTIBIT_VALUE_LOAD (R214): no sooner than 4 destination clocks after the last load. A value that comes sooner waits at the source,
where a later one takes its place: the latest is delivered. -/
def multiLoad (x : Nat) (v : BitVec 64) (s : State) : State :=
  if s.sysRuns then
    let m := multiSettle s.clocks.sys (s.multi x)
    if m.loadedAt = 0 ∨ m.loadedAt + 3 ≤ s.clocks.sys then
      s.setMulti x { m with held := v, waiting := true, misses := 0, loadedAt := s.clocks.sys + 1, next := none }
    else s.setMulti x { m with next := some v }
  else s

/-- MULTIBIT_VALUE_ACCEPT (R214): a pair of samples. DEDUCED: samples that agree are samples of the holding register, so that its
value is the one accepted (log 100). -/
def multiAccept (x : Nat) (a b : BitVec 64) (s : State) : State :=
  let m := multiSettle s.clocks.sys (s.multi x)
  if s.sysRuns ∧ m.waiting then
    if a = b then s.setMulti x { m with waiting := false, misses := 0, seen := m.held }
    else if 2 ≤ m.misses then
      logFault 0x0B x (raiseEvent 14 (countXcFail (s.setMulti x { m with waiting := false, misses := 0 })))
    else s.setMulti x { m with misses := m.misses + 1 }
  else s

/-- The count of destination clocks of an event crossing: SYS clocks, or for SYS to AON the periods of the always-on clock (R215). -/
def State.crossingClock (s : State) (cls : Nat) : Nat := if cls = 3 then s.clocks.aon else s.clocks.sys

/-- EVENT_CROSSING_ARRIVAL (R215): accepted when 3 destination clocks have passed since the last acceptance, lost otherwise. -/
def eventArrival (cls code : Nat) (s : State) : State :=
  if s.sysRuns then
    let s := { s with crossings := { s.crossings with offered := s.crossings.offered.erase (cls, code) } }
    let now := s.crossingClock cls
    let last := tabGet 0 s.crossings.accepted cls
    if last = 0 ∨ last + 2 ≤ now then
      { s with crossings := { s.crossings with accepted := tabSet 0 s.crossings.accepted cls (now + 1)
                                               flight := s.crossings.flight ++ [(cls, code)] } }
    else countXcLost (flagXc cls s)
  else s

/-- EVENT_CROSSING_DELIVERY (R215, 19_events_counters R459): an accepted event reaches its destination. Classes 0 to 2 end in the
event controller. -/
def eventDelivery (cls code : Nat) (s : State) : State :=
  if s.sysRuns ∧ s.crossings.flight.contains (cls, code) then
    let s := { s with crossings := { s.crossings with flight := s.crossings.flight.erase (cls, code) } }
    if cls ≤ 2 then raiseEvent code s else s
  else s

/-! ### Meanings -/

/-- SUMP_PUSH (08_sump R178). -/
def execSumpPush (port : Fin 4) (q : Fin 2048) (o : SumpOffer) (s : State) : Out := .next (sumpPush port.val q.val o s)
/-- SUMP_CELL_COMMIT (08_sump R178). -/
def execSumpCellCommit (port : Fin 4) (c : Fin 32768) (s : State) : Out :=
  .next (if s.blocksRun then commitCell port.val c.val s else s)
/-- SUMP_POP (08_sump R184). -/
def execSumpPop (port : Fin 4) (q : Fin 2048) (e0 e1 : BeatFound) (s : State) : Out := .next (sumpPop port.val q.val e0 e1 s)
/-- SUMP_FLUSH (08_sump R188). -/
def execSumpFlush (p : HostPort) (q : Fin 2048) (s : State) : Out :=
  .next (hostCommand p .sumpQcmd 0 (word (place 16 11 q.val + 1)) (flushQueue q.val) s)
/-- SUMP_FLUSH_DONE (08_sump R188). -/
def execSumpFlushDone (q : Fin 2048) (s : State) : Out := .next (if s.blocksRun then flushDone q.val s else s)
/-- SUMP_RECOVER_CLR (08_sump R183). -/
def execSumpRecoverClr (p : HostPort) (q : Fin 2048) (s : State) : Out :=
  .next (hostCommand p .sumpQcmd 0 (word (place 16 11 q.val + 2)) (recoverClear q.val) s)
/-- STALE_TIMER_EXPIRY (08_sump R190). -/
def execStaleTimerExpiry (q : Fin 2048) (s : State) : Out := .next (if s.blocksRun then staleExpiry q.val s else s)
/-- LANE_QUEUE_DRAIN (12_lane_link R288). -/
def execLaneQueueDrain (n : Fin 96) (e0 e1 : BeatFound) (s : State) : Out := .next (drainLane n.val e0 e1 s)
/-- PORTAL_ENQUEUE (09_portals R197). -/
def execPortalEnqueue (p : PortalId) (s : State) : Out := .next (portalEnqueue (portalNo p) s)
/-- PORTAL_DELIVER (09_portals R198). -/
def execPortalDeliver (p : PortalId) (s : State) : Out := .next (portalDeliver (portalNo p) s)
/-- ISLAND_CROSSING_TRANSFER (09_portals R213). -/
def execIslandCrossingTransfer (x : CrossingId) (s : State) : Out := .next (crossingTransfer x s)
/-- MULTIBIT_VALUE_LOAD (09_portals R214). -/
def execMultibitValueLoad (x : Fin 1024) (v : BitVec 64) (s : State) : Out := .next (multiLoad x.val v s)
/-- MULTIBIT_VALUE_ACCEPT (09_portals R214). -/
def execMultibitValueAccept (x : Fin 1024) (a b : BitVec 64) (s : State) : Out := .next (multiAccept x.val a b s)
/-- EVENT_CROSSING_ARRIVAL (09_portals R215). -/
def execEventCrossingArrival (c : Fin 5) (code : Fin 384) (s : State) : Out := .next (eventArrival c.val code.val s)
/-- EVENT_CROSSING_DELIVERY (09_portals R215). -/
def execEventCrossingDelivery (c : Fin 5) (code : Fin 384) (s : State) : Out := .next (eventDelivery c.val code.val s)

end Sys2Proof.Machine
end

