-- ==== Sys2Proof/Machine/SelfTest.lean ====
section
/-! DEFINITION. The self-test controller (18_self_test_faults R437 to R448): starting tests, their ends, and runs of every target. -/

namespace Sys2Proof.Machine

/-- The test controller changed. -/
def State.withTest (s : State) (f : SelfTest → SelfTest) : State := { s with test := f s.test }

/-- The pattern count that a test must reach (R437). -/
def testCount (type : Nat) : Nat :=
  match type with
  | 1 => 65536 | 2 => 16384 | 4 => 2 ^ 24 | 5 => 1048576 | _ => 0

/-- The expected signature (R437). -/
def testSig (type : Nat) : Nat :=
  match type with
  | 1 => Config.logicSignature.toNat | 5 => Config.hardSignature.toNat | _ => 0

/-- R445: PASS 1, FAIL 2, INCOMPLETE 3. -/
def testOutcome (type : Nat) (stopped : Bool) (sig count : Nat) : Nat :=
  if stopped || count < testCount type then 3 else if sig = testSig type then 1 else 2

/-- The worse of two outcomes: FAIL, INCOMPLETE, PASS, NOT_RUN (R447). -/
def worseOutcome (a b : Nat) : Nat :=
  if a = 2 ∨ b = 2 then 2 else if a = 3 ∨ b = 3 then 3 else if a = 1 ∨ b = 1 then 1 else 0

/-- The lanes of a bench that a test covers (R442). -/
def benchLanes (t : Tab Word) (b : Nat) : List Nat := ((List.range 4).map (4 * b + ·)).filter fun n => lnRate t n ≠ 0

/-- The registers of a lane that a test of it uses and then restores (R442). -/
def testedRegs : List RegKind :=
  [.lnPmaCtrl, .lnEq, .lnPatCtrl, .lnPatStatus, .lnPrbsBitsLo, .lnPrbsBitsHi, .lnPrbsErrLo, .lnPrbsErrHi, .lnPrbsSymerr,
    .lnPrbsRelock, .lnMarginSamp, .lnMarginErr, .lnBlkErr, .lnFecCorr, .lnFecUncorr, .lnRxDrop, .lnTxUnderrun, .lnRetrains,
    .lnAditCrc, .lnAditReplay, .lnAditProto, .lnLinkOvf]

/-- R442: a lane enters TEST. -/
def laneTest (n : Nat) (s : State) : State :=
  let code := if lnPam4 s.cfg n then 8 else 6
  let s := s.setField .lnPmaCtrl n 4 2 1
  let s := startPattern n code ((s.setField .lnPatCtrl n 0 4 code).setField .lnPatCtrl n 8 4 code)
  lockStart n (unalign n (s.setLaneState n 7))

/-- R442: a lane's settings are restored and it brings up again. -/
def laneTestEnd (saved : List (Nat × Word)) (n : Nat) (s : State) : State :=
  let s := testedRegs.foldl (fun s k =>
    match saved.find? fun e => e.1 = k.addr n with
    | some e => s.setReg k n e.2
    | none => s) s
  let s := if s.isAdit n ∨ lnProto s.cfg n = 0 then s else interruptLaneClient n (laneReset n s)
  bringUp n (startPattern n (s.gen n) s)

/-- A test starts: its target is isolated or taken over (R440, R442, R443). -/
def testStart (r : TestRun) (s : State) : State :=
  let saved := if r.type = 4 then
      (benchLanes s.cfg r.target).flatMap fun n => testedRegs.map fun k => (k.addr n, s.reg k n) else []
  let s := s.withTest fun t => { t with running := t.running ++ [{ r with saved := saved }] }
  if r.type ≤ 3 then setCause r.target .bist s
  else if r.type = 4 then (benchLanes s.cfg r.target).foldl (fun s n => laneTest n s) s
  else
    let s := enterMode .selfTest (leaveMaintenance s)
    let s := (List.range 40).foldl (fun s c => setCause c .bist s) s
    (List.range 96).foldl (fun s n => if s.pmaOn n then s.setPma n 5 true else s) s

/-- How many tests of a type run at once (R444, R448). -/
def State.testLimit (s : State) (type : Nat) : Nat :=
  if type = 4 then 6 else if type = 5 then 1 else if s.test.startup then 4 else s.field .stCtrl 0 0 4

/-- R444: waiting tests start in target order while places are free; tests of another type wait for the running ones. -/
def testFill : Nat → State → State
  | 0, s => s
  | fuel + 1, s =>
    match s.test.todo with
    | [] => s
    | r :: rest =>
      if s.test.running.length < s.testLimit r.type && s.test.running.all fun q => q.type = r.type then
        testFill fuel (testStart r (s.withTest fun t => { t with todo := rest }))
      else s

/-- A run begins with its list of tests. -/
def testRun (type target : Nat) (mailbox : Option Nat) (startup : Bool) (tests : List TestRun) (s : State) : State :=
  testFill 8 (s.withTest fun t =>
    { t with type := type, target := target, running := [], todo := tests, worst := 0, mailbox := mailbox, startup := startup })

/-- The tests of a BIST_RUN (R438). -/
def testTargets (type target : Nat) : List TestRun :=
  if target = 0xFF ∧ type ≤ 4 then
    (List.range (if type = 4 then 24 else 40)).map fun i => { type := type, target := i }
  else [{ type := type, target := target }]

/-- The tests of the start-up self-test in order (R448). -/
def startupTests (t : Tab Word) : List TestRun :=
  [{ type := 5, target := 0 }] ++ ((List.range 40).map fun c => { type := 3, target := c }) ++
    (((List.range 24).filter fun b => refUsed t (b / 2)).map fun b => { type := 4, target := b })

/-- The outcomes of the lanes of a bench: where bits were in error, which lanes had them is not in the bench's count (R442). -/
def laneOutcomes (b outcome : Nat) (s : State) : State :=
  let lanes := benchLanes s.cfg b
  let f := s.takeFree
  let some1 := Config.freeNat f.1 % (2 ^ lanes.length - 1) + 1
  let s := if outcome = 2 then f.2 else s
  let v := (List.range lanes.length).foldl (fun v i =>
    let n := lanes.getD i 0
    let o := if outcome = 2 then (if bitAt i some1 then 2 else 1) else outcome
    v + o * 2 ^ (2 * (n % 4))) 0
  s.setReg .stResLb b (word v)

/-- A test of a running list leaves it: results, report, release of the target (R440, R442, R443, R445, R457). -/
def testFinish (r : TestRun) (outcome sig count : Nat) (s : State) : State :=
  let s := s.withTest fun t =>
    { t with running := t.running.filter fun q => q.type ≠ r.type ∨ q.target ≠ r.target, worst := worseOutcome t.worst outcome }
  let s := match r.type with
    | 1 => s.setField .stResCav r.target 0 2 outcome
    | 2 => s.setField .stResCav r.target 2 2 outcome
    | 4 => laneOutcomes r.target outcome s
    | 5 => s.setReg .stResHard 0 (word outcome)
    | _ => s
  let s := testReport r.type r.target outcome (BitVec.ofNat 64 sig) (word count) s
  let s := flagTest 0 s
  if r.type ≤ 3 then clearCause r.target .bist s
  else if r.type = 4 then (benchLanes s.cfg r.target).foldl (fun s n => laneTestEnd r.saved n s) s
  else (List.range 40).foldl (fun s c => clearCause c .bist s) s

/-- A CAVERN test ends with its two parts (R437, R447): each part's outcome, and the part that the report shows. -/
def cavernFinish (r : TestRun) (logic pocket : Nat × Nat × Nat) (s : State) : State :=
  let s := s.setReg .stResCav r.target (word (logic.1 + 4 * pocket.1))
  let shown := if logic.1 = 1 then pocket else logic
  testFinish { r with type := 3 } (worseOutcome logic.1 pocket.1) shown.2.1 shown.2.2 s

/-- The Pockets of a cavern that hold an uncorrectable word, once for each such row (R441, 06_pockets R123). -/
def State.badPockets (s : State) (c : Nat) : List Nat :=
  s.pockets.rows.filterMap fun e =>
    let pk := e.1 / 1024
    match rowBytes (pocketProt s.cfg pk) e.2.toNat with
    | .uncorrectable => if pk / 112 = c then some pk else none
    | _ => none

/-- The outcome of a POCKET test: a word that it finds uncorrectable fails it (R441, R445). -/
def pocketOutcome (c : Nat) (stopped : Bool) (sig count : Nat) (s : State) : Nat :=
  if testOutcome 2 stopped sig count = 1 ∧ s.badPockets c ≠ [] then 2 else testOutcome 2 stopped sig count

/-- A POCKET test that finds uncorrectable words freezes its cavern (R441, 06_pockets R123). A test that fails on words that the rows do not
show may have found one; which Pocket held it is free. -/
def pocketTested (c outcome : Nat) (s : State) : State :=
  if outcome ≠ 2 then s
  else match s.badPockets c with
    | [] =>
      let (f, s) := s.takeFree
      if Config.freeBit f then pocketUncorr (c * 112 + Config.freeNat f % 112) s else s
    | bad => bad.foldl (fun s pk => pocketUncorr pk s) s

/-- The end of a test that the sender reports: `type` and `target` name a running test, or a part of a running CAVERN test. -/
def testEnds (type target sig count : Nat) (s : State) : State :=
  match s.test.running.find? fun r => r.target = target ∧ (r.type = type ∨ (r.type = 3 ∧ (type = 1 ∨ type = 2))) with
  | none => s
  | some r =>
    if r.type = 3 then
      match r.logic with
      | none =>
        if type = 1 then
          let o := testOutcome 1 r.stopped sig count
          if r.stopped then cavernFinish r (o, sig, count) (3, 0, 0) s
          else s.withTest fun t =>
            { t with running := t.running.map fun q => if q.type = 3 ∧ q.target = target then { q with logic := some (o, sig, count) } else q }
        else s
      | some l =>
        if type = 2 then
          let o := pocketOutcome target r.stopped sig count s
          cavernFinish r l (o, sig, count) (pocketTested target o s)
        else s
    else if r.type = 2 then
      let o := pocketOutcome target r.stopped sig count s
      testFinish r o sig count (pocketTested target o s)
    -- a bench without a lane in use has nothing to test: NOT_RUN (R445)
    else testFinish r (if r.type = 4 ∧ benchLanes s.cfg target = [] then 0 else testOutcome r.type r.stopped sig count) sig count s

/-- A run has no test left. -/
def State.testRunOver (s : State) : Bool := s.test.type ≠ 0 && s.test.running.isEmpty && s.test.todo.isEmpty

/-- The run is over and forgotten. -/
def testClear (s : State) : State :=
  s.withTest fun t => { t with type := 0, target := 0, running := [], todo := [], worst := 0, mailbox := none, startup := false }

/-- R447: the response of BIST_RUN. -/
def testAnswer (s : State) : State :=
  match s.test.mailbox with
  | some m =>
    let o := s.test.worst
    let all := s.test.target = 0xFF
    let w := fun k => if all then 0 else s.reg k 0
    answer m (if o = 1 then 0 else 0x2000 + o) [word o, w .stSigLo, w .stSigHi, w .stCount] 16 s
  | none => s

/-- Every running test ends INCOMPLETE at once, with whatever signature and count it had reached, and the run with them: PROG_N, `REPROG`
(R446). -/
def testAbandon (s : State) : State :=
  let one := fun (s : State) (r : TestRun) =>
    let f := s.takeFree
    let sig := (Config.freeWord f.1).toNat
    let count := Config.freeNat f.1 % (testCount (if r.type = 3 then 1 else r.type))
    if r.type = 3 then
      match r.logic with
      | none => cavernFinish r (3, sig, count) (3, 0, 0) f.2
      | some l => cavernFinish r l (3, sig, count) f.2
    else testFinish r 3 sig count f.2
  let s := s.test.running.foldl one (s.withTest fun t => { t with todo := [] })
  testClear (if s.test.type ≠ 0 then testAnswer s else s)

end Sys2Proof.Machine
end

