-- ==== Sys2Proof/Machine/LoadCore.lean ====
section
/-! DEFINITION. The configuration controller (15_configuration): the image store and its commit records, what a full load resets, headers, records, frames, and the ends of loads of every kind. -/

namespace Sys2Proof.Machine

/-! ### The image store (R350 to R352) -/

/-- The bytes of a slot. -/
def slotSize : Nat := 112 * 2 ^ 20
/-- The byte offset of slot A or B. -/
def slotBase (b : Bool) : Nat := if b then 0x07000000 else 0
/-- The bytes of the library. -/
def librarySize : Nat := 24 * 2 ^ 20

/-- A copy of the commit record. -/
structure Crec where
  seq : Nat
  slot : Bool
  fallback : Bool
  length : Nat
deriving DecidableEq, Repr

/-- Copy 0 or 1 of the commit record, when it is valid (R351, R352). -/
def commitCopy (m : Mem) (i : Nat) : Option Crec :=
  let ws := (List.range 8).map fun k => memWord storeFill m (0x0F800000 + 0x1000 * i + 4 * k)
  let w := fun k => (ws.getD k 0).toNat
  if crc32c (ws.take 7) = ws.getD 7 0 ∧ w 1 < 4 ∧ w 3 = 0 ∧ w 4 = 0 ∧ w 5 = 0 ∧ w 6 = 0 then
    some { seq := w 0, slot := bitAt 0 (w 1), fallback := bitAt 1 (w 1), length := w 2 }
  else none

/-- Sequence number `a` is newer than `b` (R352). -/
def seqNewer (a b : Nat) : Bool := let d := (a + 2 ^ 32 - b) % 2 ^ 32; 1 ≤ d && d < 2 ^ 31

/-- The record in force (R352). -/
def commitRecord (m : Mem) : Option Crec :=
  match commitCopy m 0, commitCopy m 1 with
  | some a, some b => some (if seqNewer b.seq a.seq then b else a)
  | some a, none => some a
  | none, b => b

/-! ### The one-time-programmable memory (R361) -/

/-- The digest of a key, byte 0 in bits [7:0]. -/
def otpDigest (t : Tab Word) (k : Nat) : BitVec 384 :=
  BitVec.ofNat 384 ((List.range 12).foldl (fun n i => n + (tabGet 0 t (12 * k + i)).toNat * 2 ^ (32 * i)) 0)

/-- A key digest has a bit programmed. -/
def keyValid (t : Tab Word) (k : Nat) : Bool := otpDigest t k ≠ 0

/-- `AUTH_REQUIRED`. -/
def authRequired (t : Tab Word) : Bool := (tabGet 0 t 48).getLsbD 8

/-- `CFG_OTP` as it reads (R377). -/
def State.otpReg (s : State) : Word :=
  let t := s.conf.otp
  word (bitNat (authRequired t) * 256 + bitsOf 0 4 (tabGet 0 t 48).toNat * 16 +
    ((List.range 4).map fun k => bitNat (keyValid t k) * 2 ^ k).sum)

/-! ### What is read of an image -/

/-- The words that a load has consumed. -/
def Load.pos (l : Load) : Nat := l.words.length

/-- The store offset of a load's image, where it is read from the store. -/
def Load.storeBase (l : Load) : Option Nat :=
  match l.source with
  | .slot b => some (slotBase b)
  | .library off _ => some (libraryBase + off)
  | _ => none

/-- The next words of the image, when they are there. -/
def loadTake (m : Mem) (n : Nat) (l : Load) : Option (List Word × Load) :=
  match l.storeBase with
  | some b =>
    let p := l.pos
    let ws := (List.range n).map fun i => memWord storeFill m (b + 4 * (p + i))
    some (ws, { l with words := ws.reverse ++ l.words })
  | none =>
    if n ≤ l.buf.length then
      let ws := l.buf.take n
      some (ws, { l with words := ws.reverse ++ l.words, buf := l.buf.drop n })
    else none

/-- A header word. -/
def Load.h (l : Load) (i : Nat) : Nat := (l.hdr.getD i 0).toNat
/-- `HDR.LENGTH` in words. -/
def Load.lenWords (l : Load) : Nat := l.h 3 / 4
/-- The image is in AUTH mode. -/
def Load.auth (l : Load) : Bool := bitsOf 12 2 (l.h 1) = 2
/-- The words of the trailer (R355). -/
def Load.trailerWords (l : Load) : Nat := if l.auth then 24 else 2

/-! ### Registers of the controller -/

/-- `CFG_STATUS.STATE`. -/
def setCfgState (v : Nat) (s : State) : State := s.setField .cfgStatus 0 24 4 v

/-- `CFG_PART` for a partial load, a sealed load or a revert: state and error (R377). -/
def setPart (sealed : Bool) (st err : Nat) (s : State) : State :=
  s.setReg .cfgPart 0 (word (place 24 8 err + place 4 1 (bitNat sealed) + st))

/-- `CFG_PART_REG0` and `CFG_PART_REG1`. -/
def setRegion (region : Nat) (s : State) : State :=
  (s.setReg .cfgPartReg0 0 (word region)).setReg .cfgPartReg1 0 (word (bitsOf 32 8 region))

/-! ### The internal configuration port -/

/-- The port's OUT and IN portals (R368, 09_portals R200). -/
def icpOut : Nat := sitePortal 20 49 1
/-- The IN portal. -/
def icpIn : Nat := sitePortal 20 49 0

/-- A status token (R369): kinds 1 ACCEPTED, 2 VERIFIED, 3 COMMITTED, 4 FAILED. -/
def icpStatus (kind err high : Nat) (s : State) : State :=
  if portalEn s.cfg icpIn then
    s.modPortal icpIn fun v => { v with stage := v.stage ++ [(err + kind * 256 + high % 2 ^ 32 * 2 ^ 32, 3)] }
  else s

/-! ### Failures of loads other than full ones (R368, R372) -/

/-- A load fails with a code; `addr` is the frame at which it failed, if any. -/
def failLoad (l : Load) (err : Nat) (addr : Option Nat) (s : State) : State :=
  let s := s.setReg .cfgErraddr 0 (word (addr.getD 0))
  match l.kind with
  | .sealedImage =>
    let s := flagCfg 6 (setPart true 5 err (s.withConf fun c => { c with load := none }))
    match l.mailbox with
    | some m => answer m (0x1000 + err) [] 0 s
    | none => s
  | _ =>
    let s := s.withConf fun c =>
      if l.phase = .verified then { c with part := none }
      else { c with load := none, discard := l.source = .icp && !l.lastSeen }
    icpStatus 4 err (addr.getD l.frames) (flagCfg 4 (setPart false 5 err s))

/-- The load in progress or the verified partial image that takes in a cavern ends (R27, R374, R375). -/
def endLoadOf (c err : Nat) (s : State) : State :=
  let hit := fun (l : Load) => l.kind ≠ .full && (bitAt c l.region || (l.kind = .sealedImage && l.sealedCav = c))
  let s := match s.conf.load with
    | some l => if hit l then failLoad l err none s else s
    | none => s
  match s.conf.part with
  | some l => if hit l then failLoad l err none s else s
  | none => s

/-! ### The start of a full load (R364, 01_architecture R508) -/

/-- Registers of the always-on domain (16_power R388, R410). -/
def aonAddr (a : Nat) : Bool := (0x30800 ≤ a && a < 0x30830) || (0xE0000 ≤ a && a < 0xF0000)

/-- Registers that only power-on reset resets (18_self_test_faults R454, R457). -/
def porAddr (a : Nat) : Bool := (0x60008 ≤ a && a < 0x60018) || a = 0x60020 || (0x60100 ≤ a && a < 0x60300) || a = 0xF0044

/-- The debouncers of HPD lie in the always-on domain (16_power R388). -/
def hpdAddr (a : Nat) : Bool := match regAt a with | some (k, _) => k = .lbHpd | none => false

/-- What a full load leaves of a register: windows 8 to D are in reset; SYS reset resets every register of its domains; otherwise
`EVT_PEND` and the masks, every control and every statistics counter return to their reset values (00_scope R2, 19_events_counters
R459 R467). -/
def loadReg (sysReset cfgReset : Bool) (e : Nat × Word) : Option (Nat × Word) :=
  let a := e.1
  match regAt a with
  | none => none
  | some (k, _) =>
    let v : Word :=
      if k = .lbHpd then e.2
      else if heldWindow a then k.reset
      else if aonAddr a || porAddr a || k = .cfgLoadcount then e.2
      else if k = .pwrFault then e.2 &&& 0xF0070000
      -- the speed gauges stop with `EN` (05_speed_latency R114)
      else if k = .speedGauge && !sysReset then e.2 &&& 0x4FFF0000
      else if sysReset || (cfgReset && 0x50000 ≤ a && a < 0x60000) || k = .evtPend then k.reset
      else
        let m := k.mask .rw ||| k.mask .rc
        (e.2 &&& ~~~ m) ||| (k.reset &&& m)
    if v = k.reset then none else some (a, v)

/-- The hard blocks are held in reset: their contents and state are cleared (01_architecture R508). -/
def resetBlocks (s : State) : State :=
  { s with
    crushers := Crushers.reset, sump := Sump.reset, portals := [], lanes := [], haul := { s.haul with chans := [] }
    crossings := { toCrusher := [], fromCrusher := [], fromSump := [], sumpHeld := [], multi := []
                   offered := s.crossings.offered.filter fun e => e.1 = 2
                   flight := s.crossings.flight.filter fun e => e.1 = 2, accepted := [] }
    fabric := { cells := [], nodes := [], choices := [], attIn := [], attAck := [] }
    pockets := { rows := [], ports := [], info := [], restoring := [], blocks := [] } }

/-- Every cavern isolated with cause LOAD alone, powered, and used by nothing yet (R364). -/
def loadCaverns (s : State) : State :=
  (List.range 40).foldl (fun s c =>
    let v := s.cav c
    let changes := bitNat (!v.load) + bitNat v.freeze + bitNat v.bist + bitNat v.partialLoad + bitNat v.power
    let s := s.modCav c fun _ => { powered := true }
    if changes = 0 then s else flagIso c s) s

/-- SYS reset (01_architecture R508): counts, timestamp, the Foreman, the event history and the host ports' banks. -/
def sysResetState (s : State) : State :=
  { s with clocks := { sys := 0, phase := 0, micro := 0, stamp := 0, aon := s.clocks.aon, scrub := [] }, foreman := Foreman.reset, ports := []
           haul := { chans := [], asked := 0, used := 0 }, history := { queue := [], ring := [], next := 0 }
           power := { s.power with temps := [], point := .p0, change := none, nextPoint := none } }

/-- Commands of the Foreman whose work the load ends are answered ABORTED (01_architecture R508, R375). -/
def abortWork (s : State) : State :=
  let s := match s.conf.load with
    | some l => match l.kind, l.mailbox with
      | .sealedImage, some m => answerOrStage m stAborted [] 0 s
      | _, _ => s
    | none => s
  let s := s.power.dom.foldl (fun s e => match e.2.mailbox with | some m => answerOrStage m stAborted [] 0 s | none => s) s
  let v := s.master 64
  (s.foreman.mbox.filter fun e => e.2.work = .copy).foldl (fun s e => answerOrStage e.1 stAborted [word (v.count - v.left)] 4 s) s

/-- The source of full images (R349), with the registers of the record in force. -/
def loadSource (s : State) : LoadSource × State :=
  match s.conf.boot.toNat with
  | 0 =>
    match commitRecord s.conf.store with
    | some r =>
      let s := s.setReg .cfgStore 0 (word (4 + 2 * bitNat r.fallback + bitNat r.slot))
      (.slot r.slot, s.setReg .cfgStoreSeq 0 (word r.seq))
    | none => (.nowhere 0x02, (s.setReg .cfgStore 0 0).setReg .cfgStoreSeq 0 0)
  | 1 => (.spi, s)
  | 2 => (.jtag, s)
  | _ => (.nowhere 0x01, s)

/-- The record of a load that begins. -/
def newLoad (kind : LoadKind) (source : LoadSource) : Load :=
  { kind := kind, source := source, phase := .header, words := [], buf := [], hdr := [], frames := 0, region := 0, wrote := 0
    sealedCav := 0, autocommit := false, fellBack := false, lastSeen := false, mailbox := none, cavCrc := [] }

/-- R364: a full load begins. `wake`: by a wake; `sysReset`: with SYS reset; `cfgReset`: the controller's own reset, by PROG_N. -/
def fullLoad (wake sysReset cfgReset : Bool) (s : State) : State :=
  let s := if s.test.type ≠ 0 then testAbandon s else s
  let s := if sysReset then s else abortWork s
  let s := leaveMaintenance s
  let s := { s with regs := s.regs.filterMap (loadReg sysReset cfgReset) }
  let s := if sysReset then sysResetState s else s
  let s := testClear (loadCaverns (resetBlocks { s with cfg := [] }))
  let s := { s with pins := { s.pins with pins := [] }
                    foreman := { s.foreman with gpioVal := [], gpioOe := [], cmdsDone := 0 } }
  -- the load restarts a Foreman that R346 of 14_foreman holds
  let s := if s.foreman.dead then
      s.withForeman fun f => { f with dead := false, restarting := true, restartTimes := [] } else s
  -- SYS reset ends with the Foreman running (R365 step 2)
  let s := if sysReset then s.withForeman fun f => { f with running := true } else s
  let s := s.withPower fun p =>
    { p with seq := .none, wakes := if wake then p.wakes else [], edges := [], lbOff := [], ioOff := [], dom := [], held := false
             progPending := false, retention := false, padHold := [], railsOff := [] }
  let s := (s.setReg .cfgLoadcount 0 (s.reg .cfgLoadcount 0 + 1)).withFresh fun _ => {}
  let src := loadSource s
  let code := match src.1 with | .spi => 1 | .jtag => 2 | _ => 0
  let s := src.2.setReg .cfgStatus 0 (word ((if sysReset then 0 else 2 ^ 24) + code * 32 + s.conf.boot.toNat * 8))
  let s := ((s.setReg .cfgErraddr 0 0).setReg .cfgFrames 0 0).setReg .cfgDesign 0 0
  -- a partial load that was abandoned leaves no error code
  let s := if s.field .cfgPart 0 0 4 = 4 ∨ s.field .cfgPart 0 0 4 = 5 then s else s.setField .cfgPart 0 0 4 0
  let s := s.withConf fun c =>
    { c with load := some (newLoad .full src.1), part := none, discard := false, liveSlot := none, wakeBegun := wake
             started := false, ran := false
             startUs := s.clocks.stamp / 1000 }
  if sysReset then enterMode .powerUp s else enterMode .load s

/-! ### The end of a failing full load (R352, R367) -/

/-- The load of the other slot begins at step 3, once (R352). -/
def fallBack (l : Load) (b : Bool) (s : State) : State :=
  let s := (List.range 40).foldl (fun s c => s.modCav c fun v => { v with used := false, crc := 0 }) s
  let s := { s with cfg := [], pockets := { rows := [], ports := [], info := [], restoring := [], blocks := [] }
                    regs := s.regs.filter fun e => !(heldWindow e.1) || hpdAddr e.1 }
  let s := setCfgState 1 ((s.setField .cfgStatus 0 12 1 1).setReg .cfgFrames 0 0)
  s.withConf fun c => { c with load := some { (newLoad .full (.slot (!b))) with fellBack := true, mailbox := l.mailbox } }

/-- A full load fails. -/
def failFull (l : Load) (err addr : Nat) (s : State) : State :=
  let fail := fun (s : State) =>
    let s := s.withConf fun c => { c with load := none }
    let s := ((setCfgState 8 s).setField .cfgStatus 0 16 8 err).setField .cfgStatus 0 2 1 1
    enterMode .loadFailed (flagCfg 1 (s.setReg .cfgErraddr 0 (word addr)))
  match l.source with
  | .slot b => if !l.fellBack && s.bit .cfgStore 0 1 then fallBack l b s else fail s
  | _ => fail s

/-- A load of any kind fails. -/
def failAny (l : Load) (err : Nat) (addr : Option Nat) (s : State) : State :=
  match l.kind with
  | .full => failFull l err (addr.getD 0) s
  | _ => failLoad l err addr s

/-! ### The header (R357) -/

/-- Caverns that are sealed (00_scope, 01_architecture R11). -/
def sealedCavern (c : Nat) : Bool := c = 0 || c = 7 || c = 32 || c = 39

/-- The bits of a header that R356 marks reserved are zero. -/
def headerReserved (h : Nat → Nat) : Bool :=
  bitsOf 17 15 (h 1) = 0 && h 5 < 256 && (List.range 8).all (fun i => h (8 + i) = 0) && (List.range 23).all (fun i => h (40 + i) = 0)

/-- R357, order 1. -/
def headerBad (source : LoadSource) (ws : List Word) : Bool :=
  let h := fun i => (ws.getD i 0).toNat
  let k := bitsOf 8 4 (h 1)
  let vmode := bitsOf 12 2 (h 1)
  let slot := match source with | .slot _ => true | _ => false
  h 0 ≠ 0x36394C49 || bitsOf 0 8 (h 1) ≠ 1 || crc32c (ws.take 63) ≠ ws.getD 63 0 || !(headerReserved h) || 2 < k ||
    (vmode ≠ 1 && vmode ≠ 2) || (vmode = 1 && (bitsOf 14 2 (h 1) ≠ 0 || (List.range 24).any fun i => h (16 + i) ≠ 0)) ||
    (bitAt 16 (h 1) && k ≠ 0) || h 3 % 8 ≠ 0 || h 3 < 272 || (slot && slotSize < h 3)

/-- The region of a header. -/
def headerRegion (ws : List Word) : Nat := (ws.getD 4 0).toNat + 2 ^ 32 * bitsOf 0 8 (ws.getD 5 0).toNat

/-- R357, order 4, for a kind of load. -/
def regionBad (l : Load) (region : Nat) : Bool :=
  let lib := match l.source with | .library _ _ => l.autocommit | _ => false
  match l.kind with
  | .full => region ≠ 0
  | .partialImage => region = 0 || (List.range 40).any (fun c => bitAt c region && sealedCavern c) || (bitAt 20 region && !lib)
  | .sealedImage => region ≠ 2 ^ l.sealedCav

/-- The bytes of image words (00_scope R4). -/
def wordBytes (ws : List Word) : List Byte := ws.flatMap fun w => bytesOf w.toNat 4
/-- `HDR.KEY`: 96 bytes, X then Y, each most significant byte first (R356). -/
def headerKey (ws : List Word) : List Byte := wordBytes ((List.range 24).map fun i => ws.getD (16 + i) 0)

/-- R357: the first failing check of a header for a load. -/
def headerError (t : Tab Word) (l : Load) (ws : List Word) : Option Nat :=
  let h := fun i => (ws.getD i 0).toNat
  let crc := bitsOf 12 2 (h 1) = 1
  let idx := bitsOf 14 2 (h 1)
  let wanted := match l.kind with | .full => 0 | .partialImage => 1 | .sealedImage => 2
  if headerBad l.source ws then some 0x03
  else if bitsOf 0 28 (h 2) ≠ 0x96409E3 ∨ Config.revision.toNat < bitsOf 28 4 (h 2) then some 0x04
  else if bitsOf 8 4 (h 1) ≠ wanted then some 0x05
  else if regionBad l (headerRegion ws) then some 0x06
  else if crc ∧ (authRequired t ∨ l.kind = .sealedImage) then some 0x07
  else if !crc && !(keyValid t idx && !((tabGet 0 t 48).getLsbD idx) &&
      BitVec.ofNat 384 (natOfBytes (sha384 (headerKey ws))) = otpDigest t idx) then some 0x08
  else match l.source with
    -- a library reference whose length differs from the header's (R368)
    | .library _ len => if h 3 = len then none else some 0x09
    | _ => none

/-- R357, R365 step 3, R370 step 1: the header of the image is read and checked. `CFG_PART_REG0` and `_REG1` show the region of a header
that passes order 1 (R377; log 99). -/
def readHeader (s : State) : State :=
  match s.conf.load with
  | some l =>
    if l.phase ≠ .header then s
    else
      let s := if l.kind = .full ∧ s.power.mode = .powerUp then setCfgState 1 (enterMode .load s) else s
      match l.source with
      | .nowhere err => failFull l err 0 s
      | _ =>
        match loadTake s.conf.store 64 l with
        | none => s
        | some (ws, l) =>
          let s := if l.kind ≠ .full && !(headerBad l.source ws) then setRegion (headerRegion ws) s else s
          match headerError s.conf.otp l ws with
          | some e => failAny l e none s
          | none =>
            let region := headerRegion ws
            let l := { l with phase := .record, hdr := ws, region := region }
            let s := s.withConf fun c => { c with load := some l }
            match l.kind with
            | .full =>
              let s := if l.auth then s else s.withConf fun c => { c with authFrames := false }
              setCfgState 2 s
            | .partialImage => icpStatus 1 0 0 (setPart false 1 0 s)
            | .sealedImage => setPart true 1 0 s
  | none => s

/-! ### Records (R358) -/

/-- R358: a record header is read and checked. -/
def readRecord (s : State) : State :=
  match s.conf.load with
  | some l =>
    if l.phase ≠ .record then s
    else match loadTake s.conf.store 2 l with
      | none => s
      | some (ws, l) =>
        let w := (ws.getD 0 0).toNat
        let a := (ws.getD 1 0).toNat
        let count := bitsOf 0 9 w
        let desc := bitAt 23 w
        let minor := bitsOf 8 8 a
        let body := l.lenWords - l.trailerWords
        let ok :=
          bitsOf 9 14 w = 0 &&
          (if bitsOf 24 8 w = 1 then
            1 ≤ count && count ≤ 256 && l.pos + 128 * count + 2 ≤ body && l.frames + count ≤ l.h 7 &&
            (if desc then count ≤ minor + 1 else minor + count ≤ 256)
           else if bitsOf 24 8 w = 0x0F then count = 0 && a = 0 && l.pos = body && l.frames = l.h 7
           else false)
        if ok then
          let phase := if bitsOf 24 8 w = 1 then LoadPhase.frames a count desc else .trailer
          s.withConf fun c => { c with load := some { l with phase := phase } }
        else failAny l 0x09 none s
  | none => s

/-! ### Frames (R359) -/

/-- What a Pocket's frame does beside its configuration cells: a settings frame clears the rows, a content frame fills them and
is recorded for the restore (06_pockets R131, R134). A content frame that comes without a settings frame to a Pocket that awaits its
restore ends that wait with the other rows zero, and the restore's CRC is formed over the store's bytes as they are then (DESIGN CHOICE,
log 96). `off` is the frame's byte offset in the store, if it is held there. -/
def pocketFrame (cav idx minor : Nat) (ws : List Word) (off : Option Nat) (s : State) : State :=
  let pk := cav * 112 + idx
  let s := { s with pockets := { s.pockets with restoring := s.pockets.restoring.filter (· ≠ pk) } }
  let put := fun (s : State) (m : PMeta) => { s with pockets := { s.pockets with info := tabSet {} s.pockets.info pk m } }
  if minor = 0x12 then put (pocketClear pk s) {}
  else
    let s := pocketContent pk minor ws s
    let old := (tabGet {} s.pockets.info pk).source
    let src := match old, off with
      | .omitted, some o => PSource.store [(minor, o)]
      | .store fr, some o => .store (fr ++ [(minor, o)])
      | _, _ => .stream
    let crc := match src with | .store fr => crc32c (fr.flatMap fun f => storeFrame s.conf.store f.2) | _ => 0
    put s { source := src, crc := crc }

/-- A frame that has passed its checks is written (R359). Contents of a Pocket go into its rows, every other frame into the
configuration cells (codes 40 to 47 are the hard blocks', 01_architecture R13). The first frame of an authenticated image ends the readback of
every frame (R363). -/
def writeFrame (cav col minor : Nat) (ws : List Word) (off : Option Nat) (auth : Bool) (s : State) : State :=
  let s := if cav < 40 ∧ 64 ≤ col then pocketFrame cav (col - 64) minor ws off s else s
  let s := if cav < 40 ∧ 64 ≤ col ∧ minor < 0x12 then s else { s with cfg := putFrame s.cfg cav col minor ws }
  -- a slot table that passes R163 of 07_crushers
  let s := if cav = 42 ∧ minor ≤ 1 then s.setField .crStatus col 1 1 1 else s
  let s := if auth then (s.withConf fun c => { c with authFrames := true }).setField .cfgStatus 0 13 1 0 else s
  let s := s.setReg .cfgFrames 0 (s.reg .cfgFrames 0 + 1)
  if cav < 40 then s.modCav cav fun v => { v with used := true } else s

/-- The error of a frame at an address, for a load (R359, R372, 01_architecture R27). -/
def frameError (l : Load) (a : Nat) (ws : List Word) (s : State) : Option Nat :=
  let cav := bitsOf 26 6 a
  let col := bitsOf 16 10 a
  let minor := bitsOf 8 8 a
  if 48 ≤ cav ∨ a % 256 ≠ 0 then some errBadAddress
  else if l.kind ≠ .full ∧ !(cav < 40 && bitAt cav l.region) then some errOutOfRegion
  else if l.kind ≠ .full ∧ (s.cav cav).power then some errDomainOff
  else checkFrame s.cfg (putFrame s.cfg cav col minor ws) cav col minor

/-- R359: the next frame is read, checked and written. -/
def readFrame (s : State) : State :=
  match s.conf.load with
  | some l =>
    match l.phase with
    | .frames a left desc =>
      match loadTake s.conf.store 128 l with
      | none => s
      | some (ws, l') =>
        match frameError l a ws s with
        | some e => failAny l' e (some a) s
        | none =>
          let cav := bitsOf 26 6 a
          let off := l.storeBase.map fun b => b + 4 * l.pos
          let s := if l.kind = .partialImage then setCause cav .partialLoad s else s
          let next := if left = 1 then LoadPhase.record
            else .frames (if desc then a - 256 else a + 256) (left - 1) desc
          let crcs := if cav < 40 then
              tabSet 0 l'.cavCrc cav (word (crcWords ((tabGet 0 l'.cavCrc cav).toNat ^^^ 0xFFFFFFFF) ws ^^^ 0xFFFFFFFF))
            else l'.cavCrc
          let l' := { l' with phase := next, frames := l'.frames + 1, cavCrc := crcs
                              wrote := if cav < 40 then l'.wrote ||| 2 ^ cav else l'.wrote }
          writeFrame cav (bitsOf 16 10 a) (bitsOf 8 8 a) ws off l.auth (s.withConf fun c => { c with load := some l' })
    | _ => s
  | none => s

/-! ### Verification and what follows it (R360 to R362, R365, R370, R373) -/

/-- R360, R361: the trailer's words against the words before it. -/
def trailerError (l : Load) (body ws : List Word) : Option Nat :=
  if l.auth then
    let key := headerKey l.hdr
    let sig := wordBytes ws
    if ecdsaVerify (natOfBig (key.take 48), natOfBig (key.drop 48)) (natOfBig (sha384 (wordBytes body))) (natOfBig (sig.take 48))
        (natOfBig ((sig.drop 48).take 48)) then none
    else some 0x11
  else if crc32c body = ws.getD 0 0 then none else some 0x10

/-- A verified image's caverns are released with their new contents (R370 step 4, 01_architecture R24). -/
def releaseRegion (region : Nat) (s : State) : State :=
  (List.range 40).foldl (fun s c =>
    if bitAt c region && (s.cav c).partialLoad then clearCause c .partialLoad (clearCause c .freeze s) else s) s

/-- R370 step 4: a partial image commits. -/
def commitPart (l : Load) (s : State) : State :=
  let s := s.withConf fun c => { c with load := none, part := none }
  -- a release of cavern 20 discards the port's status tokens (R371)
  flagCfg 3 (setPart false 4 0 (releaseRegion l.region (icpStatus 3 0 l.frames s)))

end Sys2Proof.Machine
end

