-- ==== Sys2Proof/Machine/Power.lean ====
section
/-! DEFINITION. Power (16_power): domains, operating points, VCCF, faults and FAULT HOLD, mode sequences and wakes. -/

namespace Sys2Proof.Machine

/-! ### Domains (R398, R399; 01_architecture R29, R30; 12_lane_link R304) -/

/-- The code of a domain in the Foreman's commands (R398). -/
def domCode : Domain → Nat
  | .fab c => c.val
  | .lb b => 0x40 + b.val
  | .io b => 0x80 + b.val

/-- A code names a domain that a command may switch: of the 78 of 01_architecture R15, all but AON and SYS. -/
def domNamed (d : Nat) : Bool := d < 40 || (0x40 ≤ d && d < 0x58) || (0x80 ≤ d && d < 0x8C)

/-- A domain's supply is off. -/
def State.domOff (s : State) (d : Nat) : Bool :=
  if d < 40 then !(s.cav d).powered else if d < 0x80 then tabGet false s.power.lbOff (d - 0x40) else s.bankDown (d - 0x80)

/-- The command in progress on a domain. -/
def State.domCmd (s : State) (d : Nat) : Option DomCmd := (s.power.dom.find? fun e => e.1 = d).map (·.2)

/-- The command in progress on a domain begun or replaced. -/
def putDom (d : Nat) (v : DomCmd) (s : State) : State :=
  s.withPower fun p => { p with dom := tabInsert (tabErase p.dom d) d v }

/-- The command in progress on a domain over: the domain's event, and its response (R398). -/
def endDom (d : Nat) (s : State) : State :=
  let m := match s.domCmd d with | some v => v.mailbox | none => none
  let s := flagPwr 2 (s.withPower fun p => { p with dom := tabErase p.dom d })
  match m with
  -- a response that a restart finds committed is posted by its step 4 (14_foreman R345, R346)
  | some m => answerOrStage m 0 [] 0 s
  | none => s

/-- A Crusher client has its source or destination at one of some lanes, or at the fabric portals of a cavern
(07_crushers R165, 12_lane_link R304). -/
def State.clientAt (s : State) (lane : Nat → Bool) (cav : Option Nat) (e k : Nat) : Bool :=
  let fabric := cav = some (16 + e)
  (if k < 96 then lane k else fabric) ||
  [(s.ctxCfg e k 28 2, s.ctxCfg e k 17 11), (s.ctxCfg e k 15 2, s.ctxCfg e k 4 11)].any fun d =>
    (d.1 = 2 && lane d.2) || (d.1 = 3 && fabric)

/-- The active clients of a domain: enabled, not held (07_crushers R165, 12_lane_link R304). -/
def State.domClients (s : State) (d : Nat) : List (Nat × Nat) :=
  let lane := fun n => if d < 40 then laneCav n = d else n / 4 = d - 0x40
  let cav := if d < 40 then some d else none
  (List.range 16).flatMap fun e => ((List.range 128).filter fun k =>
    s.clientEn e k && !(s.clientHeld e k) && s.clientAt lane cav e k).map fun k => (e, k)

/-- The Sump portals of a cavern: eight sites in two directions (09_portals R200). -/
def cavSumpPortals (c : Nat) : List Nat :=
  if 16 ≤ c ∧ c < 32 then (List.range 16).map fun i => sitePortal c (32 + i / 2) (i % 2) else []

/-- The active Sump portals of a cavern (08_sump R192). -/
def State.activePortals (s : State) (c : Nat) : List Nat :=
  (cavSumpPortals c).filter fun p => portalEn s.cfg p && qEn s.cfg (portalBind s.cfg p) && (s.portal p).paused.isNone

/-- A Sump portal that a forced power-down pauses: at once between its bursts, otherwise at the end of the one in progress
(08_sump R192, 01_architecture R30). -/
def pausePortal (d p : Nat) (s : State) : State :=
  s.modPortal p fun v => if v.burst = 0 then { v with paused := some d } else { v with pausing := some d }

/-- A channel is active: FETCH, RUN or WAIT_REQ (10_haulers R237). -/
def Hauler.active (v : Hauler) : Bool := v.st = 1 || v.st = 2 || v.st = 3

/-- The mailbox whose HAUL_COPY is in progress (14_foreman R343). -/
def State.copyMailbox (s : State) : Option Nat := (s.foreman.mbox.find? fun e => e.2.work = .copy).map (·.1)

/-- A HAUL_COPY is over: its response carries the bytes moved. The packet that a stopped copy was pushing is closed, as an error
closes it (14_foreman R341, R343; DEDUCED, log 9). -/
def copyEnd (status : Nat) (s : State) : State :=
  let v := s.master 64
  let moved := word (if v.err = herrLast then v.db else v.count - v.left)
  let s := match targetOf v.dst with
    | .queue q => if status = stAborted ∧ (s.inProgress q .foreman).isSome then interruptProducer q .foreman s else s
    | _ => s
  let m := s.copyMailbox
  let s := s.modMaster 64 fun _ => {}
  match m with
  | some m => answer m status [moved] 4 s
  | none => s

/-- A HAUL_COPY stops at its burst boundary (14_foreman R341, R347). -/
def copyStop (s : State) : State :=
  let v := s.master 64
  if v.active then
    if v.burst.isNone then copyEnd stAborted s else s.modMaster 64 fun v => { v with stop := true }
  else s

/-- A normal power-down of a domain is refused with BUSY (01_architecture R27 R29, 12_lane_link R304, R399). -/
def State.domBusy (s : State) (d : Nat) : Bool :=
  if d < 40 then
    (s.cav d).partialLoad || (List.range 65).any (fun h => (s.master h).active && s.masterIn h d) ||
    !(s.domClients d).isEmpty || !(s.activePortals d).isEmpty
  else if d < 0x80 then !(s.domClients d).isEmpty
  else
    let b := d - 0x80
    (List.range 60).any fun n =>
      match s.pinOwner b n with
      | .foreman | .debug => true
      | .fabric => !(s.isolated (bankCav b))
      | _ => false

/-- A cavern's bursts in progress are over: POWER is set and the gate closes (01_architecture R30 steps 2 and 3). -/
def domSettle (c : Nat) (s : State) : State :=
  match s.domCmd c with
  | some v =>
    if c < 40 && v.waiting && !v.up && !((List.range 65).any fun h =>
        ((s.master h).pause || (h = 64 && (s.master h).stop)) && (s.master h).active && s.masterIn h c) &&
        !((cavSumpPortals c).any fun p => (s.portal p).pausing.isSome) then
      putDom c { v with waiting := false } (setCause c .power s)
    else s
  | none => s

/-- Every cavern whose bursts are over. -/
def domSettleAll (s : State) : State := s.power.dom.foldl (fun s e => domSettle e.1 s) s

/-- A power-down of a domain begins (01_architecture R30, 12_lane_link R304, R399): `forced` pauses what is active. -/
def domDown (d : Nat) (forced : Bool) (mailbox : Option Nat) (s : State) : State :=
  if d < 40 then
    let s := stopTests (fun r => r.covers d) s
    let cmd : DomCmd := { up := false, waiting := forced, mailbox := mailbox }
    if forced then
      let s := endLoadOf d errDomainOff s
      let held := (s.domClients d).map fun c => (clientKey c.1 c.2, d)
      let s := (s.activePortals d).foldl (fun s p => pausePortal d p s) s
      let s := s.withCrushers fun r => { r with held := r.held ++ held }
      let s := if s.masterIn 64 d then copyStop s else s
      domSettle d (putDom d cmd (pauseHaulers d s))
    else putDom d cmd (setCause d .power s)
  else
    let cmd : DomCmd := { up := false, waiting := false, mailbox := mailbox }
    if d < 0x80 then
      let b := d - 0x40
      let s := stopTests (fun r => (r.type = 4 && r.target = b) || r.type = 5) s
      let held := if forced then (s.domClients d).map fun c => (clientKey c.1 c.2, d) else []
      let s := s.withCrushers fun r => { r with held := r.held ++ held }
      let s := (List.range 4).foldl (fun s i => laneOff (4 * b + i) s) s
      putDom d cmd (s.withPower fun p => { p with lbOff := tabSet false p.lbOff b true })
    else putDom d cmd (s.withPower fun p => { p with ioOff := tabSet false p.ioOff (d - 0x80) true })

/-- The rows of a cavern's Pockets in use after a loss of supply: free values (01_architecture R30, 06_pockets R135). -/
def losePockets (c : Nat) (s : State) : State :=
  let lo := c * 112 * 1024
  let f := s.takeFree
  let fresh := ((List.range 112).filter fun i => pocketUsed s.cfg (c * 112 + i)).flatMap fun i =>
    (List.range 1024).filterMap fun r =>
      let k := (c * 112 + i) * 1024 + r
      let v := BitVec.ofNat 72 (Config.freeBeat (f.1 + 1024 * i + r)).toNat
      if v = 0 then none else some (k, v)
  { s with freeCtr := s.freeCtr + 112 * 1024
           pockets := { s.pockets with rows := s.pockets.rows.filter (·.1 < lo) ++ fresh ++
                                               s.pockets.rows.filter (lo + 112 * 1024 ≤ ·.1) } }

/-- DOMAIN_OFF_REPORT (R30 steps 4 and 5, R399). -/
def domOffReport (d : Nat) (s : State) : State :=
  let s := domSettle d s
  match s.domCmd d with
  | some v =>
    if v.up ∨ v.waiting then s
    else if d < 40 then
      let s := losePockets d (wipeInterior d s)
      endDom d (s.modCav d fun v => { v with powered := false, emptied := true, supplyLost := v.supplyLost || v.bist })
    else endDom d s
  | none => s

/-- DOMAIN_ON_REPORT (01_architecture R16 R30, R399, 12_lane_link R304). -/
def domOnReport (d : Nat) (s : State) : State :=
  match s.domCmd d with
  | some v =>
    if !v.up then s
    else
      let s :=
        if d < 40 then
          let s := s.modCav d fun v => { v with powered := true }
          let s := if (s.cav d).used then s else setCause d .partialLoad s
          clearCause d .power s
        else if d < 0x80 then
          let s := s.withPower fun p => { p with lbOff := tabErase p.lbOff (d - 0x40) }
          (List.range 4).foldl (fun s i => laneBack (4 * (d - 0x40) + i) s) s
        else returnPads (d - 0x80) (s.withPower fun p => { p with ioOff := tabErase p.ioOff (d - 0x80) })
      let s := endDom d s
      -- FAULT HOLD was entered while the domain came up (R407)
      if s.power.mode = .faultHold ∧ d < 0x80 then domDown d true none s else s
  | none => s

/-- DOMAIN_RESUME (R239 of 10_haulers, R165 of 07_crushers, R192 of 08_sump). -/
def domResume (d : Nat) (s : State) : State :=
  let s := if d < 40 then (List.range 64).foldl (fun s h =>
    if (s.master h).st = 4 && s.masterIn h d then haulerResume h s else s) s else s
  let s := (cavSumpPortals d).foldl (fun s p =>
    s.modPortal p fun v =>
      { v with paused := if v.paused = some d then none else v.paused, pausing := if v.pausing = some d then none else v.pausing }) s
  s.withCrushers fun r => { r with held := r.held.filter fun h => h.2 ≠ d }

/-! ### SYS operating points and VCCF (R400, R401) -/

/-- A point by its code. -/
def pointOf (n : Nat) : SysPoint := match n with | 0 => .p0 | 1 => .p1 | _ => .p2
/-- The code of a point. -/
def SysPoint.code : SysPoint → Nat
  | .p0 => 0 | .p1 => 1 | .p2 => 2

/-- A request for a point: taken now, or when the change in progress or the sleep ends (R392, R400). -/
def requestPoint (p : SysPoint) (s : State) : State :=
  if s.power.change.isSome || !s.sysRuns then s.withPower fun w => { w with nextPoint := some p }
  else if p = s.power.point then s
  else
    -- raising commands VCCS first, and then the clocks change (R400)
    let raising := decide (p.code < s.power.point.code)
    let s := s.withPower fun w => { w with change := some { target := p, raising := raising } }
    if raising then commandVccs (pointVccs p) s else s

/-- The request that waited is taken (R400). -/
def takePoint (s : State) : State :=
  match s.power.nextPoint with
  | some p => requestPoint p (s.withPower fun w => { w with nextPoint := none })
  | none => s

/-- A write of `PWR_SYS.REQ`; 0b11 leaves it unchanged (R410). -/
def pointWrite (req : Nat) (s : State) : State :=
  if req = 3 then s else requestPoint (pointOf req) (s.setField .pwrSys 0 8 2 req)

/-- SYS_POINT_CHANGE_DONE: the clocks have changed, and of a lowering VCCS has been commanded after them (R400). -/
def pointDone (s : State) : State :=
  match s.power.change with
  | some c =>
    if s.sysRuns then
      let s := if c.raising then s else commandVccs (pointVccs c.target) s
      takePoint (flagPwr 6 (s.withPower fun w => { w with change := none, point := c.target }))
    else s
  | none => s

/-- SYS_RAISE_TIMEOUT: only a raise that waits for VCCS can be abandoned; VCCS is commanded back (R400). -/
def raiseTimeout (s : State) : State :=
  match s.power.change with
  | some c =>
    if c.raising && pmbEn s.cfg && s.sysRuns then
      takePoint (flagPwr 5 (commandVccs (pointVccs s.power.point) (s.withPower fun w => { w with change := none })))
    else s
  | none => s

/-- A write of `SET_MV` (R401). -/
def vccfWrite (mv : Nat) (s : State) : State :=
  if mv < s.field .pwrVccf 0 16 10 ∨ 950 < mv then flagPwr 8 s
  else
    -- in QUIET at a voltage of its own, the value waits for the exit (R381)
    let apart := s.power.mode = .quiet && s.power.vccfCmd ≠ s.field .pwrVccf 0 0 10
    let s := s.setField .pwrVccf 0 0 10 mv
    if apart then s else commandVccf mv s

/-- A write of `QUIET_MV` (R401). -/
def quietMvWrite (mv : Nat) (s : State) : State :=
  if mv ≠ 0 ∧ (mv < 650 ∨ s.field .pwrVccf 0 0 10 < mv) then flagPwr 8 s else s.setField .pwrVccfQ 0 0 10 mv

/-! ### Faults (R403 to R407) -/

/-- The number of a rail (R410). -/
def railNo : Rail5 → Nat
  | .vccf => 0 | .vccs => 1 | .vccl => 2 | .vcclh => 3 | .vcca => 4

/-- `PWR_FAULT.FIRST` and `.RAIL`. -/
def recordFirst (cause rail : Nat) (s : State) : State :=
  s.setReg .pwrFault 0 (word (place 28 4 cause + place 16 3 rail))

/-- R407: FAULT HOLD is entered. -/
def faultHold (cause rail : Nat) (s : State) : State :=
  let hard := s.test.type = 5 && !s.test.startup
  let s := if s.test.type ≠ 0 then testAbandon s else s
  let s := match s.conf.load with
    | some l => if l.kind = .full then s.withConf fun c => { c with load := none } else s
    | none => s
  let s := logFault 0x0E cause (flagPwr 4 (enterMode .faultHold (leaveMaintenance (recordFirst cause rail s))))
  -- the full load that ends a HARD test waits for the causes to clear
  let s := s.withPower fun p => { p with seq := .none, progPending := p.progPending || hard }
  let s := (List.range 40).foldl (fun s d => if s.domOff d || (s.domCmd d).isSome then s else domDown d true none s) s
  let s := (List.range 24).foldl (fun s b =>
    if s.domOff (0x40 + b) || (s.domCmd (0x40 + b)).isSome then s else domDown (0x40 + b) true none s) s
  requestPoint .p2 (s.setField .pwrSys 0 8 2 2)

/-- The modes that R378 lets pass to FAULT HOLD. -/
def Mode.mayFault : Mode → Bool
  | .load | .start | .run | .quiet | .selfTest | .maintenance => true
  | _ => false

/-- The cause that is recorded first among those set. -/
def State.firstCause (s : State) : Nat × Nat :=
  if s.power.thermal then (1, 0)
  else match [0, 2, 3].find? fun r => tabGet false s.power.supply r with
    | some r => (2, r)
    | none => match [0, 2, 3].find? fun r => tabGet false s.power.regFault r with
      | some r => (3, r)
      | none => (0, 0)

/-- A cause that is set takes the device to FAULT HOLD where R378 allows it; in STANDBY the exit begins at once (R392). -/
def faultCheck (first : Nat × Nat) (s : State) : State :=
  if !s.holdCauses || s.power.held then s
  else if s.power.retention then
    match s.power.seq with
    | .entering t w _ => s.withPower fun p => { p with seq := .entering t w true }
    | .none => if s.power.mode = .standby then s.withPower fun p => { p with seq := .leavingStandby } else s
    | _ => s
  else if s.power.mode.mayFault then faultHold first.1 first.2 s
  else s

/-- The offset of copy 1 of the commit record from copy 0 (15_configuration R350). -/
def copyStride : Nat := 0x1000

/-- Bytes being programmed when they cannot finish are undefined (15_configuration R353). Of a commit, the record's first copy
or, that one being done, its second (R354). -/
def jobLost (s : State) : State :=
  match s.conf.job with
  | some j =>
    let f := s.freeCtr
    let bs := (List.range j.bytes.length).map fun i => BitVec.ofNat 8 (Config.freeNat (f + 1 + i))
    let second := j.commit.isSome && Config.freeBit f
    let store := if second then memWrite storeFill (memWrite storeFill s.conf.store j.off j.bytes) (j.off + copyStride) bs
      else memWrite storeFill s.conf.store j.off bs
    { s with freeCtr := f + 1 + j.bytes.length, conf := { s.conf with store := store, job := none } }
  | none => s

/-- A programming that stops whole (14_foreman R341): the bytes so far, or of a commit perhaps the first copy, stand. -/
def jobStopped (s : State) : State :=
  match s.conf.job with
  | some j =>
    let n := Config.freeNat s.freeCtr % (j.bytes.length + 1)
    let bs := if j.commit.isSome then (if Config.freeBit s.freeCtr then j.bytes else []) else j.bytes.take n
    { s with freeCtr := s.freeCtr + 1
             conf := { s.conf with store := memWrite storeFill s.conf.store j.off bs, job := none } }
  | none => s

/-- R405, R406: the device is held as at power-on reset. -/
def holdDevice (cause rail : Nat) (s : State) : State :=
  let s := jobLost (recordFirst cause rail s)
  (s.withConf fun c => { c with load := none, part := none, started := false, ran := false }).withPower fun p =>
    { p with held := true, seq := .none, retention := false, wakes := [], change := none, nextPoint := none, dom := [], waiting := [] }

/-- A rail should be on: not asleep, and not switched off for its own fault. -/
def State.railOn (s : State) (r : Nat) : Bool :=
  s.power.mode ≠ .patrol && s.power.mode ≠ .deepSleep && !(tabGet false s.power.regFault r) &&
  !(r = 0 && s.power.retention) &&
  (match s.power.seq with
   | .entering .patrol _ _ | .entering .deepSleep _ _ | .wakingRails | .pgRetry => false
   | _ => true)

/-- A cause of a rail is set: SUPPLY 2 or REG 3, upon which OPERATION switches the rail off (R406, R407). -/
def railFault (cause r : Nat) (s : State) : State :=
  let s :=
    if cause = 2 then s.withPower fun p => { p with supply := tabSet false p.supply r true }
    else operateRails [r] false (s.withPower fun p => { p with regFault := tabSet false p.regFault r true })
  if s.power.held then s
  else if r = 1 ∨ r = 4 then holdDevice cause r s
  else if s.power.mode = .faultHold then s
  else faultCheck (cause, r) s

/-- The bits of STATUS_WORD that set REG (R403). -/
def statusFault (w : BitVec 16) : Bool := w.getLsbD 5 || w.getLsbD 4 || w.getLsbD 2 || w.getLsbD 11

/-- A failed PMBus transaction (R402, R410). -/
def pmbFail (s : State) : State := flagPwr 5 (countStat .pwrPmbErr 0 (flagPwr 5) s)

/-- What a STATUS_WORD read does (R403). -/
def statusRead (r : Nat) (w : BitVec 16) (s : State) : State :=
  let s := if w.getLsbD 1 then pmbFail s else s
  if statusFault w && s.railOn r then railFault 3 r s else s

/-- The device's supplies and causes let a hold as at power-on reset end (R405, R406, 21_electrical R505). -/
def State.mayRelease (s : State) : Bool :=
  s.power.supply.all (fun e => !e.2) && !(tabGet false s.power.regFault 1) && !(tabGet false s.power.regFault 4)

/-- A cause has cleared: a hold ends in a full load, and FAULT HOLD ends in one that PROG_N has asked for (R405 to R407). -/
def causeCleared (s : State) : State :=
  if s.power.held then (if s.mayRelease then fullLoad false true false s else s)
  else if !s.holdCauses && s.power.progPending && (s.power.mode = .faultHold || s.power.mode.mayFault || s.power.mode = .loadFailed) &&
      !s.power.retention then fullLoad false false true s
  else s

/-- A reading in the unit of its register. The spec says of no reading how it is rounded: one that is no whole number of units gives one
of its two neighbours (log 105). -/
def inUnits (num den : Nat) (s : State) : Nat × State :=
  if num % den = 0 then (num / den, s)
  else
    let (f, s) := s.takeFree
    (num / den + bitNat (Config.freeBit f), s)

/-- READ_VOUT in mV (R402). -/
def readVout (w : BitVec 16) (s : State) : Nat × State := inUnits (w.toNat * 1000) (2 ^ voutShift s.cfg) s

/-- A LINEAR11 reading times `k`: a mantissa of 11 bits and an exponent of 5, both two's complement (PMBus; PRESUMED, log 105). -/
def readLinear11 (k : Nat) (w : BitVec 16) (s : State) : Int × State :=
  let y := (w.extractLsb' 0 11).toInt
  let n := (w.extractLsb' 11 5).toInt
  let r := inUnits (y.natAbs * k * 2 ^ n.toNat) (2 ^ (-n).toNat) s
  (if y < 0 then -(r.1 : Int) else r.1, r.2)

/-- A reading as its register holds it. The spec gives the register no value for a reading outside its range: that value is free
(log 105). -/
def inRange (lo hi : Int) (r : Int × State) : BitVec 16 × State :=
  if lo ≤ r.1 ∧ r.1 ≤ hi then (BitVec.ofInt 16 r.1, r.2)
  else
    let (f, s) := r.2.takeFree
    ((Config.freeWord f).truncate 16, s)

/-- PMBUS_POLL. -/
def pmbusPoll (rail : Rail5) (r : Option RailReading) (s : State) : State :=
  if pmbEn s.cfg && s.sysRuns then
    match r with
    | none => pmbFail s
    | some v =>
      let n := (railNo rail)
      let (mv, s) := readVout v.vout s
      let (volts, s) := inRange 0 65535 (mv, s)
      let (amps, s) := inRange 0 65535 (readLinear11 100 v.iout s)
      let (temp, s) := inRange (-32768) 32767 (readLinear11 8 v.temp s)
      let s := s.setReg .pwrRail n (word (amps.toNat * 65536 + volts.toNat))
      let (act, s) := inRange 0 1023 (mv, s)
      let s := if n = 0 then s.setField .pwrVccfQ 0 16 10 act.toNat else s
      statusRead n v.status (s.withPower fun p => { p with temps := tabSet 0 p.temps n temp })
  else s

/-- The mantissa of the last VOUT_COMMAND to VCCF and VCCS, as the regulators took it (R402). -/
def State.voutCommand (s : State) : BitVec 16 × BitVec 16 :=
  (linear16 (voutShift s.cfg) s.power.vccfCmd, linear16 (voutShift s.cfg) s.power.vccsCmd)

/-- REG_RETRY (R406), and the two reads that clear REG in FAULT HOLD (R407). -/
def regRetry (rail : Rail5) (a b : BitVec 16) (s : State) : State :=
  let r := (railNo rail)
  if tabGet false s.power.regFault r && !(statusFault a) && !(statusFault b) && !(tabGet false s.power.supply r) then
    -- the sequencer has switched a rail of SYS on again for the two reads (R406)
    let s := if s.power.held then operateRails [r] true s else s
    causeCleared (s.withPower fun p => { p with regFault := tabErase p.regFault r })
  else s

/-- TEMP_READ (R404). -/
def tempRead (highest : BitVec 8) (s : State) : State :=
  if s.sysRuns then
    let old := (BitVec.ofNat 8 (s.field .pwrTemp 0 0 8)).toInt
    let warn := (BitVec.ofNat 8 (s.field .pwrTemp 0 16 8)).toInt
    let now := highest.toInt
    let s := s.setField .pwrTemp 0 0 8 highest.toNat
    let s := if old < warn ∧ warn ≤ now then flagPwr 3 s else s
    if s.power.thermal && decide (now ≤ (Config.grade.shut : Int) - 15) then
      causeCleared (s.withPower fun p => { p with thermal := false })
    else s
  else s

/-- THERMAL_TRIP (R404). The comparators work while their supplies are on. -/
def thermalTrip (s : State) : State :=
  if s.power.mode = .patrol ∨ s.power.mode = .deepSleep then s
  else
    let s := s.withPower fun p => { p with thermal := true }
    if s.power.mode = .faultHold then s else faultCheck (1, 0) s

/-- SUPPLY_FAULT (R405, R407). -/
def supplyFault (rail : Rail5) (s : State) : State :=
  let r := (railNo rail)
  if tabGet false s.power.supply r then s
  else if s.railOn r ∨ s.power.held then railFault 2 r s else s

/-- SUPPLY_RECOVER (R405, R407). -/
def supplyRecover (rail : Rail5) (s : State) : State :=
  let r := (railNo rail)
  if tabGet false s.power.supply r then
    causeCleared (s.withPower fun p => { p with supply := tabErase p.supply r })
  else s

/-! ### Mode sequences and wakes (R379 to R392) -/

/-- The bit of a wake source in `AON_WAKE` (R389). -/
def wakeBit : WakeSrc → Nat
  | .patrol _ => 0 | .hpd _ => 1 | .i2c => 2 | .spi => 3 | .alarm => 4 | .signal _ => 5

/-- A source wakes a mode, given its own enables (R389). -/
def State.wakes? (s : State) (m : Mode) : WakeSrc → Bool
  | .patrol n => (m = .standby || m = .patrol) && s.bit .patrolCfg n.val 30 && (s.bit .patrolTouch 0 n.val || s.bit .patrolRel 0 n.val)
  | .hpd b => s.bit .aonWakeHpd 0 b.val
  | .signal n => m = .standby && lnCfg s.cfg n.val 11 1 = 1
  | _ => true

/-- The mode that a wake would leave: the sleep mode shown, or the one being entered. -/
def State.sleepMode (s : State) : Option Mode :=
  match s.power.seq with
  | .entering t _ _ => if t = .standby ∨ t = .patrol ∨ t = .deepSleep then some t else none
  | _ => if s.power.mode = .standby ∨ s.power.mode = .patrol ∨ s.power.mode = .deepSleep then some s.power.mode else none

/-- Every controlled rail, by its number (R410). -/
def allRails : List Nat := [0, 1, 2, 3, 4]

/-- A wake begins to bring the rails back: OPERATION switches them on (R386 step 2). -/
def wakeRails (s : State) : State := operateRails allRails true (s.withPower fun p => { p with seq := .wakingRails })

/-- A wake is latched and the exit begins (R389, R391). -/
def wakeLatch (w : WakeSrc) (s : State) : State :=
  match s.sleepMode with
  | some m =>
    if s.power.held = false ∧ s.bit .aonWakeEn 0 (wakeBit w) ∧ s.wakes? m w then
      let s := s.setBits .aonWake 0 (bitWord (wakeBit w))
      let s := s.withPower fun p => { p with wakes := if p.wakes.contains w then p.wakes else p.wakes ++ [w] }
      match s.power.seq with
      | .entering t _ f =>
        (s.setBits .aonWake 0 (bitWord 7)).withPower fun p => { p with seq := .entering t true f }
      | .none => if m = .standby then s.withPower fun p => { p with seq := .leavingStandby } else wakeRails s
      | _ => s
    else s
  | none => s

/-- The event that a source would have raised while awake (R391). -/
def wakeEvent : WakeSrc → Option Nat
  | .patrol n => some (320 + n.val)
  | .hpd b => some (160 + b.val)
  | .signal n => some (64 + n.val)
  | _ => none

/-- A source's own detector has an edge that waits: its flag, replayed with the lanes, raises the event. -/
def State.edgeOf (s : State) (w : WakeSrc) : Bool :=
  s.power.edges.any fun e => match e, w with
    | .signal n true, .signal m => n = m.val
    | .hpd b _, .hpd c => b = c.val
    | _, _ => false

/-- R391: the latched sources are replayed and `PWR_EVT.WAKE` is set once. -/
def replayWakes (s : State) : State :=
  if s.power.wakes = [] then s
  else
    let ws := s.power.wakes
    flagPwr 1 (raiseAll ((ws.filter fun w => !(s.edgeOf w)).filterMap wakeEvent) (s.withPower fun p => { p with wakes := [] }))

/-- Commands that wait are discarded (R385 step 1). -/
def discardCommands (s : State) : State :=
  s.foreman.order.foldl (fun s m => s.modMbox m fun _ => {}) (s.withForeman fun f => { f with order := [] })

/-- R381, R382, R385: the entry of a mode that SET_MODE has committed; the response is posted before. -/
def modeEntry (target : Mode) (s : State) : State :=
  match target with
  | .run => enterMode .run (leaveMaintenance s)
  | .maintenance =>
    -- DEBUG_MASK reads all ones at each entry (17_pins R434)
    enterMode .maintenance (wakeActivity { s with jtag := { s.jtag with mask := 0xFFF } })
  | _ =>
    let s := if target = .standby then s else discardCommands s
    -- the speed gauges stop (05_speed_latency R111, R114)
    let s := (List.range 40).foldl (fun s c => gaugeStop c s) (sleepPads s)
    let s := if target = .standby then (List.range 96).foldl (fun s n => laneSleep n s) s
      else ((List.range 96).foldl (fun s n => laneOff n s) s).setField .cfgStatus 0 1 1 0
    let s := s.withPower fun p => { p with seq := .entering target false false, retention := true, wakes := [] }
    if target = .standby then commandVccf 550 s else s

/-- STANDBY_RETENTION_REACHED (R382 steps 5 and 6, R391, R392). -/
def standbyReached (s : State) : State :=
  match s.power.seq with
  | .entering .standby woken faulted =>
    let s := enterMode .standby s
    s.withPower fun p => { p with seq := if woken || faulted || p.progPending then .leavingStandby else .none }
  | _ => s

/-- STANDBY_EXIT_VCCF_READY (R383, R384, R389, R391, R392). -/
def standbyExit (s : State) : State :=
  if s.power.seq = .leavingStandby then
    let s := commandVccf (s.field .pwrVccf 0 0 10) (s.withPower fun p => { p with seq := .none, retention := false })
    if s.power.progPending && !s.holdCauses then
      fullLoad false false true (s.withPower fun p => { p with wakes := [] })
    else
      let s := replayEdges (replayWakes (wakePads (enterMode .run s)))
      let s := (List.range 96).foldl (fun s n => laneResume n s) s
      faultCheck s.firstCause (takePoint s)
  else s

/-- The caverns lose their supply with VCCF: their interiors and their Pockets (R385, 06_pockets R135). -/
def loseCaverns (s : State) : State :=
  (List.range 40).foldl (fun s c => (losePockets c (wipeInterior c s)).modCav c fun v => { v with powered := false, emptied := true }) s

/-- PATROL or DEEP SLEEP is reached: the rails are off, and with them what they supply (R385 steps 4 and 5). -/
def sleepReached (m : Mode) (woken : Bool) (s : State) : State :=
  let s := operateRails allRails false (enterMode m (loseCaverns (jobLost s)))
  let s := s.withPower fun p => { p with seq := .none, retention := false }
  if woken || s.power.progPending then wakeRails s else s

/-- SLEEP_RAILS_OFF (R385 step 5, R391, R392). -/
def railsOff (s : State) : State :=
  match s.power.seq with
  | .entering .patrol woken _ => sleepReached .patrol woken s
  | .entering .deepSleep woken _ => sleepReached .deepSleep woken s
  | _ => s

/-- SLEEP_WAKE_RAILS_ON (R386 step 4, R389). -/
def railsOn (s : State) : State :=
  if s.power.seq = .wakingRails then
    if s.power.progPending then fullLoad false true true s else fullLoad true true false s
  else s

/-- WAKE_POWER_GOOD_TIMEOUT (R386). -/
def pgTimeout (s : State) : State :=
  if s.power.seq = .wakingRails then
    operateRails allRails false ((s.setBits .aonWake 0 (bitWord 8)).withPower fun p => { p with seq := .pgRetry })
  else s

/-- WAKE_PGFAIL_RETRY (R386). -/
def pgRetry (s : State) : State :=
  if s.power.seq = .pgRetry then wakeRails s else s

/-- R364, R389, R392, R407: a PROG_N pulse that is taken. -/
def progTaken (s : State) : State :=
  let wait := fun (q : ModeSeq) => s.withPower fun p => { p with progPending := true, seq := q }
  if s.power.held then s
  else match s.power.seq with
    | .none =>
      if s.power.mode = .standby then wait .leavingStandby
      else if s.power.mode = .patrol ∨ s.power.mode = .deepSleep then wakeRails (wait .wakingRails)
      else if s.holdCauses then wait .none
      else fullLoad false false true s
    | q => wait q

/-- The conditions of QUIET that a state shows (R381). -/
def State.quietHolds (s : State) : Bool :=
  s.power.point = .p2 && s.foreman.order.isEmpty && s.sump.moved.isEmpty &&
  s.haul.used ≠ s.clocks.sys + 1 && s.crushers.used ≠ s.clocks.sys + 1 &&
  (List.range 96).all fun n =>
    s.laneState n = 0 || s.laneState n = 1 || (s.bit .lnPmaStatus n 5 && s.bit .lnPmaStatus n 6)

/-- QUIET_ENTRY (R381). That the conditions have held for the dwell is the sender's word. -/
def quietEntry (s : State) : State :=
  if s.power.mode = .run && s.power.seq = .none && s.bit .pwrCtrl 0 8 && s.quietHolds then
    let mv := s.field .pwrVccfQ 0 0 10
    enterMode .quiet (if mv = 0 then s else commandVccf mv s)
  else s

/-- AON_TICKS advanced by one period of the always-on clock (R388, R389). -/
def aonTick (s : State) : State :=
  let v := s.reg .aonTicks 0 + 1
  let s := { s with clocks := { s.clocks with aon := s.clocks.aon + 1 } }.setReg .aonTicks 0 v
  let s := if v = 0 then flagPwr 7 s else s
  if v = s.reg .aonAlarm 0 then wakeLatch .alarm s else s

/-! ### Meanings -/

/-- HAULER_PAUSE_POWER (10_haulers R238). -/
def execHaulerPausePower (h : Fin 64) (s : State) : Out := .next (domSettleAll (haulerPause h.val s))
/-- DOMAIN_OFF_REPORT (R399). -/
def execDomainOffReport (d : Domain) (s : State) : Out := .next (domOffReport (domCode d) s)
/-- DOMAIN_ON_REPORT (R399). -/
def execDomainOnReport (d : Domain) (s : State) : Out := .next (domOnReport (domCode d) s)
/-- QUIET_ENTRY (R381). -/
def execQuietEntry (s : State) : Out := .next (quietEntry s)
/-- QUIET_EXIT (R381). -/
def execQuietExit (s : State) : Out := .next (wakeActivity s)
/-- STANDBY_RETENTION_REACHED (R382). -/
def execStandbyRetentionReached (s : State) : Out := .next (standbyReached s)
/-- WAKE_LATCH (R389). -/
def execWakeLatch (src : WakeSrc) (s : State) : Out := .next (wakeLatch src s)
/-- ALARM_MATCH (R389). -/
def execAlarmMatch (s : State) : Out :=
  .next (if s.reg .aonTicks 0 = s.reg .aonAlarm 0 then wakeLatch .alarm s else s)
/-- SLEEP_RAILS_OFF (R385). -/
def execSleepRailsOff (s : State) : Out := .next (railsOff s)
/-- SLEEP_WAKE_RAILS_ON (R386). -/
def execSleepWakeRailsOn (s : State) : Out := .next (railsOn s)
/-- WAKE_POWER_GOOD_TIMEOUT (R386). -/
def execWakePowerGoodTimeout (s : State) : Out := .next (pgTimeout s)
/-- WAKE_PGFAIL_RETRY (R386). -/
def execWakePgfailRetry (s : State) : Out := .next (pgRetry s)
/-- PAD_RELEASE (R387): a write of `PWR_PADREL`. -/
def execPadRelease (p : HostPort) (banks : BitVec 12) (s : State) : Out :=
  .next (hostCommand p .pwrPadrel 0 (word banks.toNat) (padRelease banks.toNat) s)
/-- SYS_POINT_REQUEST (R400). During STANDBY entry or exit the request is held (R392); the SPI target discards writes then (R390). -/
def execSysPointRequest (p : HostPort) (req : BitVec 2) (s : State) : Out :=
  .next (if s.heldStandby p then pointWrite req.toNat s
    else hostField p .pwrSys 0 (word (place 8 2 req.toNat)) (pointWrite req.toNat) s)
/-- SYS_POINT_CHANGE_DONE (R400). -/
def execSysPointChangeDone (s : State) : Out := .next (pointDone s)
/-- SYS_RAISE_TIMEOUT (R400). -/
def execSysRaiseTimeout (s : State) : Out := .next (raiseTimeout s)
/-- VCCF_SET (R401). -/
def execVccfSet (p : HostPort) (mv : BitVec 10) (s : State) : Out :=
  .next (hostField p .pwrVccf 0 (word mv.toNat) (vccfWrite mv.toNat) s)
/-- VCCF_QUIET_SET (R401). -/
def execVccfQuietSet (p : HostPort) (mv : BitVec 10) (s : State) : Out :=
  .next (hostField p .pwrVccfQ 0 (word mv.toNat) (quietMvWrite mv.toNat) s)
/-- PMBUS_POLL (R403). -/
def execPmbusPoll (rail : Rail5) (r : Option RailReading) (s : State) : Out := .next (pmbusPoll rail r s)
/-- REG_RETRY (R406, R407). -/
def execRegRetry (rail : Rail5) (first second : BitVec 16) (s : State) : Out := .next (regRetry rail first second s)
/-- PMB_ALERT (R403). -/
def execPmbAlert (rail : Rail5) (status : Option (BitVec 16)) (s : State) : Out :=
  .next (if pmbEn s.cfg && s.sysRuns then
      (match status with | some w => statusRead (railNo rail) w s | none => pmbFail s) else s)
/-- TEMP_READ (R404). -/
def execTempRead (highest : BitVec 8) (s : State) : Out := .next (tempRead highest s)
/-- THERMAL_TRIP (R404, R407). -/
def execThermalTrip (s : State) : Out := .next (thermalTrip s)
/-- SUPPLY_FAULT (R405, R407). -/
def execSupplyFault (rail : Rail5) (s : State) : Out := .next (supplyFault rail s)
/-- SUPPLY_RECOVER (R405, R407). -/
def execSupplyRecover (rail : Rail5) (s : State) : Out := .next (supplyRecover rail s)
/-- AON_TICKS_WRAP (R388). -/
def execAonTicksWrap (s : State) : Out := .next (if s.reg .aonTicks 0 = 0xFFFFFFFF then aonTick s else s)
/-- POWER_ON_RESET (15_configuration R364, R365): the straps are sampled and a full load begins. -/
def execPowerOnReset (boot : BitVec 2) (hadr : BitVec 3) (s : State) : Out :=
  .next (if s.power.held && s.mayRelease then
      fullLoad false true true (s.withConf fun c => { c with boot := boot, hadr := hadr }) else s)
/-- VAON_LOSS (R405): a power-on reset. The image store and the one-time-programmable memory keep their bytes, apart from those
being programmed. -/
def execVaonLoss (s : State) : Out :=
  let h := holdDevice 0 0 s
  let f := h.takeFree
  let otp := match h.conf.otpBusy with
    | some (i, w) => tabMod 0 h.conf.otp i (· ||| (w &&& Config.freeWord f.1))
    | none => h.conf.otp
  .next { State.reset with conf := { Conf.reset with store := h.conf.store, otp := otp }
                           freeCtr := f.2.freeCtr, pending := s.pending }

end Sys2Proof.Machine
end

