-- ==== Sys2Proof/Machine/Loader.lean ====
section
/-! DEFINITION. Loads from START to their ends (15_configuration R364 to R375): START and RUN, the internal configuration port, sealed loads and reverts, and the commands of the loader and the self-test ends that it follows. -/

namespace Sys2Proof.Machine

/-! ### START and RUN (R365 steps 8 and 9) -/

/-- The context memory of the image: words 0 to 59 of every client, in order (07_crushers R143, R162). -/
def imageContexts (t : Tab Word) : Tab Word :=
  let lo := cfgKey 42 0 0 0
  t.filterMap fun e =>
    let r := e.1 - lo
    let col := r / 32768
    let minor := r / 128 % 256
    let w := r % 128
    if lo ≤ e.1 && col < 16 && 2 ≤ minor && minor < 66 && w % 64 < 60 then
      some (64 * clientKey col (2 * (minor - 2) + w / 64) + w % 64, e.2)
    else none

/-- A sensor's settings written; a sensor that becomes enabled takes its baseline afresh (16_power R395). -/
def sensorWrite (n : Nat) (v : Word) (s : State) : State :=
  let fresh := v.getLsbD 31 && !(s.bit .patrolCfg n 31)
  let s := s.setReg .patrolCfg n v
  if fresh then { s with patrol := { s.patrol with sensors := tabErase s.patrol.sensors n } } else s

/-- `PATROL_CTRL` written. A change of `EN` ends the period, and the first period after it may begin at once (16_power R393). -/
def patrolControl (v : Word) (s : State) : State :=
  let same := s.bit .patrolCtrl 0 31 = v.getLsbD 31
  let s := s.setReg .patrolCtrl 0 v
  if same then s else { s with patrol := { s.patrol with nextSensor := 24, due := 0 } }

/-- What a full load that no wake began writes into always-on memory (16_power R388). -/
def loadAlwaysOn (s : State) : State :=
  let e := fun i => word (cfgWord s.cfg 46 1 0 i)
  let s := ((s.setReg .aonWakeEn 0 0).setReg .aonWakeHpd 0 0).setReg .aonAlarm 0 0
  let s := patrolControl (e 24) (s.setReg .aonPadpol 0 (e 25))
  let s := (List.range 24).foldl (fun s n => sensorWrite n (e n) s) s
  s.withPower fun p => { p with seqCopy := ((List.range 3).map fun i => (i, word (cfgWord s.cfg 46 0 0 i))).filter (·.2 ≠ 0) }

/-- Lanes that a start-up self-test has failed are held with `DISABLE` (18_self_test_faults R448). -/
def disableFailed (s : State) : State :=
  (List.range 96).foldl (fun s n =>
    if 2 ≤ s.field .stResLb (n / 4) (2 * (n % 4)) 2 then s.setField .lnLinkCtrl n 2 1 1 else s) s

/-- R16, R365 step 8: START begins; the caverns that the image does not use are powered down and isolated with POWER, and parts that
did not pass a start-up self-test are kept out of service (18_self_test_faults R448). The hard blocks leave reset, with the Sump in commit
mode (08_sump R180), and the power settings and always-on registers take their image values (16_power R388, R410). -/
def startBegin (tested : Bool) (s : State) : State :=
  let s := (List.range 40).foldl (fun s c =>
    if (s.cav c).used then
      (if tested && (2 ≤ s.field .stResCav c 0 2 || 2 ≤ s.field .stResCav c 2 2) then
        (setCause c .freeze s).modCav c fun v => { v with fpocket := 0xFF }
       else s)
    else (setCause c .power s).modCav c fun v => { v with powered := false, emptied := true }) s
  let s := if s.conf.wakeBegun then s else loadAlwaysOn s
  let s := s.setField .pwrSys 0 8 2 (pwrs s.cfg 34 2)
  let s := s.setReg .pwrVccf 0 (word (pwrs s.cfg 0 10 * 65536 + pwrs s.cfg 16 10))
  let s := requestPoint (pointOf (pwrs s.cfg 34 2)) (commandVccf (pwrs s.cfg 16 10) s)
  let s := s.withCrushers fun r => { r with ctx := imageContexts s.cfg }
  let s := s.setReg .sumpLowmark 0 (word (cfgBits s.cfg 43 32 0 0 16))
  -- a host write of these fields in the same clock is lost (20_register_map R476)
  let loaded := [RegKind.pwrSys.addr 0, RegKind.pwrVccf.addr 0, RegKind.sumpLowmark.addr 0] ++
    (if s.conf.wakeBegun then [] else
      [RegKind.aonPadpol.addr 0, RegKind.patrolCtrl.addr 0] ++ (List.range 24).map RegKind.patrolCfg.addr)
  let s := loaded.foldl (fun s a => noteWrite imageRank a s) s
  enterMode .start (setCfgState 6 (s.withConf fun c => { c with started := true }))

/-- R365 steps 5 to 7, R370 step 3, R373: the trailer is checked, then the checks at the end of the load are made. -/
def readTrailer (s : State) : State :=
  match s.conf.load with
  | some l =>
    if l.phase ≠ .trailer then s
    else match loadTake s.conf.store l.trailerWords l with
      | none => s
      | some (ws, l') =>
        match trailerError l l.words.reverse ws with
        | some e => failAny l' e none s
        | none =>
          match l.kind with
          | .full =>
            match endChecks s.cfg l.wrote (!l.auth) with
            | some (e, a) => failFull l' e a s
            | none =>
              let s := s.withConf fun c => { c with load := some { l' with phase := .checked } }
              let s := l.cavCrc.foldl (fun s e => s.modCav e.1 fun v => { v with crc := e.2 }) s
              if bitAt 16 (l.h 1) then testRun 5 0 none true (startupTests s.cfg) (setCfgState 5 s)
              else startBegin false s
          | kind =>
            match ((List.range 40).filter fun c => bitAt c l.wrote).findSome? (carryBroken s.cfg) with
            | some a => failLoad l' errBadField (some a) (s.withConf fun c => { c with load := some l' })
            | none =>
              if kind = .sealedImage then
                let s := releaseRegion l.region (s.withConf fun c => { c with load := none })
                let s := flagCfg 5 (setPart true 4 0 s)
                match l.mailbox with
                | some m => answer m 0 [] 0 s
                | none => s
              else
                let l' := { l' with phase := .verified }
                let s := s.withConf fun c => { c with load := none, part := some l' }
                let s := icpStatus 2 0 l'.frames (flagCfg 2 (setPart false 3 0 s))
                if l.autocommit then commitPart l' s else s
  | none => s

/-- What follows a start-up self-test once its run is over (18_self_test_faults R448). -/
def startupTestOver (s : State) : State := startBegin true (testClear s)

/-- LOAD_RUN: START completes and the device enters RUN. -/
def loadRun (s : State) : State :=
  match s.conf.load with
  | some l =>
    if s.power.mode ≠ .start ∨ l.phase ≠ .checked then s
    else
      let live := match l.source with | .slot b => some b | _ => none
      let s := s.withConf fun c => { c with load := none, liveSlot := live, ran := true }
      let s := (List.range 24).foldl (fun s b => s.setField .lbStatus b 0 1 (bitNat (refUsed s.cfg (b / 2)))) s
      -- the caverns are released
      let s := (List.range 40).foldl (fun s c => clearCause c .load s) s
      -- registers of the controller
      let s := setCfgState 7 (s.setField .cfgStatus 0 1 1 1)
      let s := (s.setField .cfgStatus 0 10 2 (bitsOf 12 2 (l.h 1))).setField .cfgStatus 0 8 2 (bitsOf 14 2 (l.h 1))
      let s := s.setField .cfgStatus 0 7 1 (bitNat (live = some true))
      let s := s.setField .cfgStatus 0 13 1 (bitNat !s.conf.authFrames)
      let s := s.setReg .cfgDesign 0 (word (l.h 6))
      let s := s.setReg .cfgTime 0 (word (s.clocks.stamp / 1000 - s.conf.startUs))
      -- RUN
      let s := flagCfg 0 (enterMode .run s)
      let s := if bitAt 16 (l.h 1) then disableFailed s else s
      let s := (List.range 96).foldl (fun s n => if lnRate s.cfg n = 0 then s else laneEnable n s) s
      if s.conf.wakeBegun then replayWakes s else s
  | none => s

/-! ### The internal configuration port (R368 to R370) -/

/-- The rows that take a token of the port. -/
inductive IcpRow where
  | image | library | commit | abort
deriving DecidableEq, Repr

/-- The row that a token's tag names. -/
def icpRow (t : Nat) : IcpRow :=
  if bitAt 2 t then .library else if bitAt 3 t then .commit else if bitAt 4 t then .abort else .image

/-- The token that the port may take: the oldest that has crossed. -/
def State.icpToken (s : State) : Option (Nat × Nat) :=
  if s.blocksRun && portalEn s.cfg icpOut && 0 < (s.portal icpOut).ready then (s.portal icpOut).queue.head? else none

/-- The token taken. -/
def icpTake (s : State) : State :=
  s.modPortal icpOut fun v => { v with queue := v.queue.drop 1, ready := v.ready - 1 }

/-- R368: a tag that no token may carry. -/
def icpMalformed (t : Nat) : Bool :=
  let lib := bitAt 2 t
  bitsOf 6 9 t ≠ 0 || (bitAt 5 t && !lib) || (lib && !(bitAt 0 t && bitAt 1 t)) ||
  1 < bitNat lib + bitNat (bitAt 3 t) + bitNat (bitAt 4 t)

/-- ICP_PROTO. -/
def errIcpProto : Nat := 0x12

/-- A token refused while no load is in progress (R368); the image whose `FIRST` is refused is discarded. -/
def icpRefuse (t : Nat) (s : State) : State :=
  let s := icpStatus 4 errIcpProto 0 s
  if bitAt 0 t && !(bitAt 1 t) then s.withConf fun c => { c with discard := true } else s

/-- The verified load fails at a token out of order. -/
def icpFailVerified (l : Load) (t : Nat) (s : State) : State :=
  let s := failLoad l errIcpProto none s
  if bitAt 0 t && !(bitAt 1 t) then s.withConf fun c => { c with discard := true } else s

/-- The two words of a streamed token enter the load, under the checks of `LAST` and `LENGTH` (R368). -/
def icpWords (l : Load) (d t : Nat) (s : State) : State :=
  let l := { l with buf := l.buf ++ [word d, word (d >>> 32)], lastSeen := bitAt 1 t }
  let ws := l.words.reverse ++ l.buf
  let n := ws.length / 2
  let len := if 4 ≤ ws.length then (ws.getD 3 0).toNat / 8 else 0
  if (bitAt 1 t && n ≠ len) || (272 / 8 ≤ len && len < n) then failLoad l 0x09 none s
  else s.withConf fun c => { c with load := some l }

/-- A new partial load begins; its region is not known before its header. -/
def icpBegin (l : Load) (s : State) : State :=
  (setRegion 0 (s.setReg .cfgFrames 0 0)).withConf fun c => { c with load := some l }

/-- A token while a partial load is in progress. -/
def icpDuring (l : Load) (d t : Nat) (s : State) : State :=
  let streaming := l.source = .icp && !l.lastSeen
  let ended := if bitAt 1 t && !(bitAt 2 t) then { l with lastSeen := true } else l
  if icpMalformed t then failLoad ended errIcpProto none (icpTake s)
  else if bitAt 4 t then failLoad l 0x13 none (icpTake s)
  else if bitAt 3 t then failLoad l errIcpProto none (icpTake s)
  else if bitAt 0 t then
    if streaming then failLoad ended errIcpProto none (icpTake s) else s
  else if streaming then icpWords l d t (icpTake s)
  else failLoad l errIcpProto none (icpTake s)

/-- A token while no load is in progress. -/
def icpIdle (d t : Nat) (s : State) : State :=
  if icpMalformed t || bitAt 3 t || bitAt 4 t || !(bitAt 0 t) then icpRefuse t s
  else if bitAt 2 t then
    let off := d % 2 ^ 32
    let len := d >>> 32
    let l := { (newLoad .partialImage (.library off len)) with autocommit := bitAt 5 t }
    let s := icpBegin l s
    if librarySize < off + len ∨ off % 8 ≠ 0 then failLoad l 0x09 none s else s
  else icpWords (newLoad .partialImage .icp) d t (icpBegin (newLoad .partialImage .icp) s)

/-- R368, R370, R375: the port takes its next token, if it is one of the row's. -/
def icpStep (row : IcpRow) (s : State) : State :=
  match s.icpToken with
  | none => s
  | some (d, t) =>
    if icpRow t ≠ row then s
    else match s.conf.load with
      | some l =>
        if l.kind ≠ .partialImage then s
        else if s.conf.discard then s
        else icpDuring l d t s
      | none =>
        if s.conf.discard then
          let s := icpTake s
          if bitAt 1 t && !(bitAt 2 t) then s.withConf fun c => { c with discard := false } else s
        else match s.conf.part with
          | some l =>
            let s := icpTake s
            if icpMalformed t then icpFailVerified l t s
            else if bitAt 3 t then commitPart l s
            else if bitAt 4 t then failLoad l 0x13 none s
            else icpFailVerified l t s
          | none => icpIdle d t (icpTake s)

/-! ### Sealed loads and reverts (R373, R374) -/

/-- A sealed load begins for a mailbox. -/
def sealedBegin (m cav off len : Nat) (s : State) : State :=
  let l := { (newLoad .sealedImage (.library off len)) with sealedCav := cav, region := 2 ^ cav, mailbox := some m }
  let s := setRegion (2 ^ cav) (s.setReg .cfgFrames 0 0)
  if librarySize < off + len ∨ off % 8 ≠ 0 then failLoad l 0x09 none s
  else if (s.cav cav).power then failLoad l errDomainOff none s
  else (setCause cav .partialLoad s).withConf fun c => { c with load := some l }

/-- The frames of a cavern in an image of the store: address, words, byte offset (R358). `pos` counts words. -/
def imageFrames (m : Mem) (base cav : Nat) : Nat → Nat → List (Nat × List Word × Nat)
  | 0, _ => []
  | fuel + 1, pos =>
    let at? := fun i => memWord storeFill m (base + 4 * i)
    let w := (at? pos).toNat
    let a := (at? (pos + 1)).toNat
    if bitsOf 24 8 w ≠ 1 then []
    else
      let count := bitsOf 0 9 w
      let mine := if bitsOf 26 6 a = cav then
          (List.range count).map fun k =>
            let p := pos + 2 + 128 * k
            (if bitAt 23 w then a - 256 * k else a + 256 * k, (List.range 128).map fun i => at? (p + i), base + 4 * p)
        else []
      mine ++ imageFrames m base cav fuel (pos + 2 + 128 * count)

/-- The frames of a cavern rewritten, with the first that a check refuses. -/
def rewriteFrames (cav : Nat) : List (Nat × List Word × Nat) → State → Option (Nat × Nat) × State
  | [], s => (none, s)
  | (a, ws, off) :: r, s =>
    let col := bitsOf 16 10 a
    let minor := bitsOf 8 8 a
    match checkFrame s.cfg (putFrame s.cfg cav col minor ws) cav col minor with
    | some e => (some (e, a), s)
    | none => rewriteFrames cav r (writeFrame cav col minor ws (some off) false s)

/-- A revert ends: its code, the failing frame address, its event and its response. -/
def revertEnd (m err addr : Nat) (s : State) : State :=
  let s := s.setReg .cfgErraddr 0 (word addr)
  if err = 0 then answer m 0 [] 0 (flagCfg 5 (setPart true 4 0 s))
  else answer m (0x1000 + err) [] 0 (flagCfg 6 (setPart true 5 err s))

/-- R374. -/
def revertCavern (m cav : Nat) (s : State) : State :=
  match s.conf.liveSlot with
  | none => answer m 0x1017 [] 0 s
  | some b =>
    let s := (setRegion (2 ^ cav) (endLoadOf cav 0x13 s)).setReg .cfgFrames 0 0
    let base := slotBase b
    let frames := imageFrames s.conf.store base cav (slotSize / 8) 64
    let crc := frames.foldl (fun c f => crcWords (c ^^^ 0xFFFFFFFF) f.2.1 ^^^ 0xFFFFFFFF) 0
    if word crc ≠ (s.cav cav).crc then revertEnd m 0x10 0 s
    else
      let s := setCause cav .partialLoad s
      match rewriteFrames cav frames s with
      | (some (e, a), s) => revertEnd m e a s
      | (none, s) =>
        match carryBroken s.cfg cav with
        | some a => revertEnd m errBadField a s
        | none => revertEnd m 0 0 (clearCause cav .partialLoad (clearCause cav .freeze s))

/-! ### What begins a full load from outside -/

/-- PROG_N (R364): pulses from 100 ns to 1 us may be taken or not. -/
def progPulse (ns : Nat) (s : State) : State :=
  if ns < 100 then s
  else if 1000 ≤ ns then progTaken s
  else
    let f := s.takeFree
    if Config.freeBit f.1 then progTaken f.2 else f.2

/-- A write of `CFG_CTRL` (R364, 16_power R407). -/
def reprogWrite (key : Nat) (s : State) : State :=
  if key = 0xA5C3 && !s.holdCauses && !s.power.held then fullLoad false false false s else s

/-- A word for the load that the host or JTAG feeds (R349, R377). -/
def streamWord (src : LoadSource) (w : Word) (s : State) : State :=
  match s.conf.load with
  | some l =>
    if l.source = src ∧ (s.field .cfgStatus 0 24 4 = 1 ∨ s.field .cfgStatus 0 24 4 = 2) then
      s.withConf fun c => { c with load := some { l with buf := l.buf ++ [w] } }
    else s
  | none => s

/-- A step of the load in progress, while SYS runs; a cause of FAULT HOLD that was set in POWER-UP acts in LOAD. -/
def loadStep (f : State → State) (s : State) : State :=
  if s.sysRuns then
    let t := f s
    if s.power.mode = .powerUp ∧ t.power.mode = .load then faultCheck t.firstCause t else t
  else s

/-! ### Self-tests that a load follows -/

/-- A test's end (18_self_test_faults R443, R447, R448). -/
def bistTestEnd (type target sig count : Nat) (s : State) : State :=
  let startup := s.test.startup
  let s := testFill 8 (testEnds type target sig count s)
  if s.testRunOver then
    if startup then startupTestOver s
    else if s.test.type = 5 then fullLoad false false false (testClear (testAnswer s))
    else testClear (testAnswer s)
  else s

/-- R448: the bound of step 7 passes. Running and waiting tests end INCOMPLETE, and START begins. -/
def startupTimeout (s : State) : State :=
  if s.test.startup then
    let waiting := s.test.todo
    let s := s.withTest fun t => { t with running := t.running.map fun r => { r with stopped := true }, todo := [] }
    let one := fun (s : State) (r : TestRun) =>
      let f := s.takeFree
      let sig := (Config.freeWord f.1).toNat
      let count := Config.freeNat f.1 % testCount (if r.type = 3 then 1 else r.type)
      if r.type = 3 then cavernFinish r (r.logic.getD (3, sig, count)) (3, 0, 0) f.2 else testFinish r 3 sig count f.2
    let s := s.test.running.foldl one s
    let s := waiting.foldl (fun s r => if r.type = 3 then cavernFinish r (3, 0, 0) (3, 0, 0) s else testFinish r 3 0 0 s) s
    startupTestOver s
  else s

/-! ### Meanings -/

/-- LOAD_HEADER (R357). -/
def execLoadHeader (s : State) : Out := .next (loadStep readHeader s)
/-- LOAD_RECORD (R358). -/
def execLoadRecord (s : State) : Out := .next (loadStep readRecord s)
/-- LOAD_FRAME (R359). -/
def execLoadFrame (s : State) : Out := .next (loadStep readFrame s)
/-- LOAD_TRAILER (R360, R361, R365). -/
def execLoadTrailer (s : State) : Out := .next (loadStep readTrailer s)
/-- LOAD_RUN (R365). -/
def execLoadRun (s : State) : Out := .next (loadStep loadRun s)
/-- PROG_N_PULSE (R364). -/
def execProgNPulse (ns : Nat) (s : State) : Out := .next (progPulse ns s)
/-- CFG_REPROG (R364). -/
def execCfgReprog (p : HostPort) (key : BitVec 16) (s : State) : Out :=
  .next (hostCommand p .cfgCtrl 0 (word (place 16 16 key.toNat + 1)) (reprogWrite key.toNat) s)
/-- CFG_STREAM_WRITE (R349, R377). -/
def execCfgStreamWrite (p : HostPort) (w : Word) (s : State) : Out :=
  .next (hostCommand p .cfgStream 0 w (streamWord .spi w) s)
/-- ICP_IMAGE_TOKEN (R368). -/
def execIcpImageToken (s : State) : Out := .next (icpStep .image s)
/-- ICP_LIB_REFERENCE (R368). -/
def execIcpLibReference (s : State) : Out := .next (icpStep .library s)
/-- ICP_COMMIT (R370). -/
def execIcpCommit (s : State) : Out := .next (icpStep .commit s)
/-- ICP_ABORT (R372). -/
def execIcpAbort (s : State) : Out := .next (icpStep .abort s)
/-- STARTUP_SELF_TEST_TIMEOUT (18_self_test_faults R448). -/
def execStartupSelfTestTimeout (s : State) : Out := .next (startupTimeout s)
/-- BIST_TEST_END (18_self_test_faults R445). -/
def execBistTestEnd (type : Fin 6) (target : BitVec 8) (sig : BitVec 64) (count : Word) (s : State) : Out :=
  .next (bistTestEnd type.val target.toNat sig.toNat count.toNat s)

end Sys2Proof.Machine
end

