-- ==== Sys2Proof/Machine/Mailbox.lean ====
section
/-! DEFINITION. The Foreman's mailboxes (14_foreman R329 to R338, R345 to R348): posts, releases, fabric messages, the checks of a command, the order of service, and restarts. -/

namespace Sys2Proof.Machine

/-! ### The command set (R336) -/

/-- A row of R336: class, whether a fabric mailbox may issue it, and its request's lengths. -/
structure OpRow where
  cls : Nat
  fabric : Bool
  lo : Nat
  hi : Nat
  unit : Nat := 1
deriving DecidableEq, Repr

/-- The opcodes (R336). -/
def opRow (op : Nat) : Option OpRow :=
  match op with
  | 0x0001 => some { cls := 0, fabric := true, lo := 0, hi := 56 }
  | 0x0002 => some { cls := 0, fabric := true, lo := 0, hi := 0 }
  | 0x0003 => some { cls := 0, fabric := true, lo := 4, hi := 4 }
  | 0x0004 => some { cls := 0, fabric := true, lo := 0, hi := 0 }
  | 0x0101 => some { cls := 1, fabric := true, lo := 4, hi := 16, unit := 4 }
  | 0x0102 => some { cls := 1, fabric := true, lo := 12, hi := 48, unit := 12 }
  | 0x0103 => some { cls := 1, fabric := true, lo := 4, hi := 4 }
  | 0x0201 => some { cls := 1, fabric := false, lo := 4, hi := 4 }
  | 0x0202 => some { cls := 1, fabric := false, lo := 4, hi := 4 }
  | 0x0203 => some { cls := 1, fabric := false, lo := 4, hi := 4 }
  | 0x0204 => some { cls := 1, fabric := false, lo := 4, hi := 4 }
  | 0x0301 => some { cls := 1, fabric := true, lo := 4, hi := 4 }
  | 0x0302 => some { cls := 2, fabric := false, lo := 4, hi := 4 }
  | 0x0303 => some { cls := 2, fabric := false, lo := 12, hi := 12 }
  | 0x0304 => some { cls := 2, fabric := false, lo := 12, hi := 12 }
  | 0x0305 => some { cls := 2, fabric := false, lo := 4, hi := 4 }
  | 0x0401 => some { cls := 1, fabric := true, lo := 4, hi := 4 }
  | 0x0402 => some { cls := 1, fabric := true, lo := 4, hi := 4 }
  | 0x0501 => some { cls := 1, fabric := true, lo := 4, hi := 4 }
  | 0x0502 => some { cls := 1, fabric := true, lo := 4, hi := 4 }
  | 0x0503 => some { cls := 1, fabric := true, lo := 4, hi := 4 }
  | 0x0601 => some { cls := 1, fabric := false, lo := 5, hi := 52 }
  | 0x0602 => some { cls := 1, fabric := true, lo := 8, hi := 8 }
  | 0x0603 => some { cls := 2, fabric := false, lo := 12, hi := 12 }
  | 0x0701 => some { cls := 2, fabric := false, lo := 8, hi := 8 }
  | 0x0702 => some { cls := 1, fabric := true, lo := 4, hi := 4 }
  | _ => none

/-- `MSG.OPCODE`. -/
def cmdOp (c : List Word) : Nat := bitsOf 0 16 (c.getD 0 0).toNat
/-- `MSG.CLASS`. -/
def cmdClass (c : List Word) : Nat := bitsOf 8 2 (c.getD 1 0).toNat
/-- `MSG.LEN`. -/
def cmdLen (c : List Word) : Nat := bitsOf 0 8 (c.getD 1 0).toNat
/-- A word of the payload, word 2 of the message first. -/
def cmdArg (c : List Word) (i : Nat) : Nat := (c.getD (2 + i) 0).toNat

/-- An address range lies in the shared half of Foreman RAM (R343). -/
def inShared (a len : Nat) : Bool := 0x30080000 ≤ a && a + len ≤ 0x30100000

/-- A reserved bit of the message is set (R329, R335 order 4): header bits, and the payload's of the opcodes that have any. -/
def cmdReserved (c : List Word) : Bool :=
  let a := cmdArg c 0
  let refs := fun (unit : Nat) => (List.range (cmdLen c / unit)).any fun i => bitsOf 28 4 (cmdArg c (unit / 4 * i)) ≠ 0
  bitsOf 25 7 (c.getD 0 0).toNat ≠ 0 || bitsOf 10 6 (c.getD 1 0).toNat ≠ 0 ||
  (match cmdOp c with
   | 0x0003 => bitsOf 5 27 a ≠ 0
   | 0x0101 => refs 4
   | 0x0102 => refs 12
   | 0x0103 => refs 4
   | 0x0204 => bitsOf 4 27 a ≠ 0
   | 0x0305 => bitsOf 1 7 a ≠ 0 || bitsOf 9 23 a ≠ 0
   | 0x0401 => bitAt 7 a || bitsOf 12 19 a ≠ 0
   | 0x0402 => bitAt 7 a || bitsOf 12 20 a ≠ 0
   | 0x0503 => bitsOf 11 20 a ≠ 0
   | 0x0701 => bitsOf 4 27 a ≠ 0 || bitsOf 8 24 (cmdArg c 1) ≠ 0
   | 0x0702 => bitsOf 16 16 a ≠ 0
   | _ => false)

/-- A payload field lies outside its range (R335 order 5; 16_power R398). -/
def cmdRange (c : List Word) : Bool :=
  let a := cmdArg c 0
  let b := cmdArg c 1
  let d := cmdArg c 2
  match cmdOp c with
  | 0x0003 => bitAt 4 a && 7 < bitsOf 0 4 a
  | 0x0201 => !(domNamed (bitsOf 0 8 a)) || bitsOf 8 23 a ≠ 0
  | 0x0202 => !(domNamed a)
  | 0x0203 => !(domNamed a)
  | 0x0301 => 39 < a
  | 0x0302 => 39 < a
  | 0x0303 => !(sealedCavern a)
  | 0x0304 => d = 0 || 65536 < d || !(inShared b d)
  | 0x0501 => 2047 < a
  | 0x0502 => 16383 < a
  | 0x0601 => !(inShared a (cmdLen c - 4))
  | 0x0602 => b = 0 || 48 < b || !(inShared a b)
  | 0x0603 => d = 0 || 65536 < d
  | _ => false

/-- R335, orders 1 to 5: the status of the first failure, 0 where the command passes. Mailboxes 16 to 23 are the fabric's. -/
def preStatus (m : Nat) (c : List Word) : Nat :=
  match opRow (cmdOp c) with
  | none => stBadOpcode
  | some r =>
    if 16 ≤ m && !r.fabric then stDenied
    else if cmdClass c ≠ r.cls then stBadClass
    else if cmdLen c < r.lo || r.hi < cmdLen c || cmdLen c % r.unit ≠ 0 || cmdReserved c then stBadLength
    else if cmdRange c then stBadParam
    else 0

/-- The class in which a command is served: a failing one as class 0 (R337). -/
def serviceClass (m : Nat) (c : List Word) : Nat :=
  if preStatus m c ≠ 0 then 0 else match opRow (cmdOp c) with | some r => r.cls | none => 0

/-- R509: the commands that need a configuration. -/
def needsConfig (c : List Word) : Bool :=
  match cmdOp c with
  | 0x0102 => (List.range (cmdLen c / 12)).any fun i => bitsOf 12 4 (cmdArg c (3 * i)) ≠ 1
  | 0x0201 => true | 0x0202 => true | 0x0203 => true | 0x0204 => true | 0x0301 => true | 0x0302 => true | 0x0303 => true
  | 0x0401 => true | 0x0402 => true | 0x0501 => true | 0x0502 => true | 0x0503 => true | 0x0603 => true | 0x0701 => true
  | _ => false

/-! ### Order of service (R337) -/

/-- The number of a mailbox. -/
def mailboxNo : Mailbox → Nat
  | .host n => n.val
  | .fabric n => 16 + n.val

/-- The command in a mailbox. -/
def State.cmdOf (s : State) (m : Nat) : List Word := (s.mboxAt m).cmd

/-- A class 1 command waits for something outside the Foreman, and lets later ones pass: a reinitialisation of a cavern under test
(18_self_test_faults R456), or of a client that has a slice in the pipeline (07_crushers R164). -/
def State.cmdWaits (s : State) (m : Nat) : Bool :=
  let c := s.cmdOf m
  let a := cmdArg c 0
  preStatus m c = 0 &&
  ((cmdOp c = 0x0301 && s.test.running.any fun r => r.covers a) ||
   (cmdOp c = 0x0402 && s.sliceInPipe (bitsOf 8 4 a) (bitsOf 0 7 a)))

/-- The mailbox's command is the next that the Foreman serves (R337): no command of a higher class and none of its class posted
before it waits for service, and no class 2 command is at work if it is one. -/
def State.servable (s : State) (m : Nat) : Bool :=
  let cls := fun k => serviceClass k (s.cmdOf k)
  let ready := s.foreman.order.filter fun k => (s.mboxAt k).work = .none && !(s.cmdWaits k)
  s.foreman.running && s.sysRuns && ready.all (fun k => cls m ≤ cls k) &&
  ready.find? (fun k => cls k = cls m) = some m &&
  (cls m ≠ 2 || s.foreman.order.all fun k => match (s.mboxAt k).work with | .none => true | .domain _ => true | _ => false)

/-- One command served: the failures of R335, then R509, then the command's own effect `f`, given its words. `variant` tells apart
the rows of one opcode. -/
def serve (mb : Mailbox) (op : Nat) (variant : List Word → Bool) (f : Nat → List Word → State → State) (s : State) : State :=
  let m := mailboxNo mb
  let c := s.cmdOf m
  if s.servable m then
    let st := preStatus m c
    if st ≠ 0 then answer m st [] 0 s
    else if cmdOp c = op && variant c then
      (if needsConfig c && !s.configured then answer m stState [] 0 s else f m c s)
    else s
  else s

/-- Every command of an opcode. -/
def anyForm (_ : List Word) : Bool := true
/-- Bit 31 of word 2 is clear. -/
def plainForm (c : List Word) : Bool := !(bitAt 31 (cmdArg c 0))
/-- Bit 31 of word 2 is set. -/
def forcedForm (c : List Word) : Bool := bitAt 31 (cmdArg c 0)

/-- Long work begun for a mailbox. -/
def beginWork (m : Nat) (w : Work) (s : State) : State := s.modMbox m fun b => { b with work := w }

/-! ### Posts and releases (R330 to R333) -/

/-- The lowest-numbered free host mailbox (R331). -/
def State.freeMailbox (s : State) : Option Nat :=
  (List.range 16).find? fun m => !(s.mboxAt m).busy && !(s.mboxAt m).done

/-- A command accepted into a mailbox: activity ends QUIET (16_power R381). -/
def acceptCommand (m : Nat) (c : List Word) (s : State) : State :=
  let s := s.modMbox m fun b => { b with busy := true, done := false, cmd := c, staged := none, work := .none }
  wakeActivity (s.withForeman fun f => { f with order := f.order ++ [m] })

/-- A port's bank of `MBX_POSTRES` (R348). -/
def setPostres (p : HostPort) (status seq slot : Nat) (s : State) : State :=
  s.modPort p fun b => { b with postRes := word (status * 65536 + seq * 256 + 128 + slot) }

/-- The place of a port among the posts of one clock (R332). -/
def portRankOf : HostPort → Nat
  | .spi => 0 | .i2c => 1 | .jtag => 2

/-- A post of this clock whose mailbox the Foreman has not begun to serve. -/
def State.unserved (s : State) (m : Nat) : Bool := s.foreman.order.contains m && (s.mboxAt m).work = .none

/-- One post allocated the lowest-numbered free mailbox (R331), or kept for the end of its clock. -/
def allocPost (s : State) (x : HostPort × List Word) : State :=
  let seq := bitsOf 16 8 (x.2.getD 0 0).toNat
  match s.freeMailbox with
  | some m =>
    setPostres x.1 0 seq m
      ((acceptCommand m x.2 s).withForeman fun f => { f with posted := f.posted ++ [(x.1, m)] })
  | none => s.withForeman fun f => { f with waiting := f.waiting ++ [x] }

/-- R332, R347: the posts of one clock are allocated after its releases, and in the order SPI, I2C, JTAG: those that the Foreman has not
begun to serve give their mailboxes back and are allocated anew with `more`. -/
def allocPosts (more : List (HostPort × List Word)) (s : State) : State :=
  let mine := s.foreman.posted.filter fun x => s.unserved x.2
  let all := mine.map (fun x => (x.1, s.cmdOf x.2)) ++ s.foreman.waiting ++ more
  let s := mine.foldl (fun s x => s.modMbox x.2 fun b => { b with busy := false }) s
  let s := s.withForeman fun f =>
    { f with order := f.order.filter (fun m => !(mine.any (·.2 = m))), posted := f.posted.filter (fun x => !(mine.contains x)), waiting := [] }
  ([0, 1, 2].flatMap fun r => all.filter fun x => portRankOf x.1 = r).foldl allocPost s

/-- Posts that have found no mailbox free by the end of their clock, or by the next access on their port, receive MBX_FULL (R331, R347). -/
def refusePosts (mine : HostPort → Bool) (s : State) : State :=
  let out := s.foreman.waiting.filter fun x => mine x.1
  let s := s.withForeman fun f =>
    { f with waiting := f.waiting.filter (fun x => !(mine x.1)), posted := f.posted.filter fun x => !(mine x.1) }
  out.foldl (fun s x =>
    setPostres x.1 2 (bitsOf 16 8 (x.2.getD 0 0).toNat) 0 (flagMbx 2 (countStat .mbxFullCnt 0 (flagMbx 3) s))) s

/-- R330, R331: word 0 of the post buffer is written. -/
def postWrite (p : HostPort) (w0 : Word) (s : State) : State :=
  let s := (refusePosts (· = p) s).modPort p fun b => { b with post := b.post.set 0 w0 }
  if s.foreman.dead then setPostres p 3 (bitsOf 16 8 w0.toNat) 0 s else allocPosts [(p, (s.portBank p).post)] s

/-- A post reaches the block while SYS runs, and from I2C and JTAG also during STANDBY and its entry and exit
(16_power R390, R392). -/
def State.postReaches (s : State) (p : HostPort) : Bool :=
  s.hostAnswers || s.heldStandby p

/-- R333: writes of 1 to bits of `MBX_DONE`; a `DONE` set in this clock stays (20_register_map R476). -/
def releaseMailbox (m : Nat) (s : State) : State :=
  if (s.mboxAt m).done && !(s.freshBits .mbxDone 0).getLsbD m then
    let s := s.modMbox m fun b => { b with busy := false, done := false }
    if s.foreman.waiting.isEmpty then s else allocPosts [] s
  else s

/-! ### Fabric mailboxes (R334) -/

/-- The response to a run of tokens that is no message. -/
def badFrame (m : Nat) (s : State) : State :=
  let s := s.modMbox m fun b => { b with gather := [], discarding := true, cmd := List.replicate 16 0 }
  answer m stBadFrame [] 0 s

/-- The words of eight tokens. -/
def tokenWords (ts : List (Nat × Nat)) : List Word := ts.flatMap fun t => [word t.1, word (t.1 >>> 32)]

/-- Tokens taken until a message is whole or a run breaks; `p` is the mailbox's OUT portal. -/
def takeMessage (m p : Nat) : Nat → State → State
  | 0, s => s
  | fuel + 1, s =>
    let v := s.portal p
    match if v.ready = 0 then [] else v.queue with
    | (d, t) :: rest =>
      let b := s.mboxAt m
      let taken := s.modPortal p fun v => { v with queue := rest, ready := v.ready - 1 }
      if bitAt 0 t && !b.gather.isEmpty then badFrame m s
      else if !(bitAt 0 t) && b.gather.isEmpty then
        (if b.discarding then takeMessage m p fuel taken else badFrame m taken)
      else
        let g := b.gather ++ [(d, t)]
        if bitAt 1 t || g.length = 8 then
          (if bitAt 1 t && g.length = 8 then
            acceptCommand m (tokenWords g) (taken.modMbox m fun b => { b with gather := [], discarding := false })
           else badFrame m taken)
        else takeMessage m p fuel (taken.modMbox m fun b => { b with gather := g, discarding := false })
    | [] => s

/-- R334: a fabric mailbox takes a message once its last response has been transferred. -/
def fabricMessage (k : Nat) (s : State) : State :=
  let m := 16 + k
  let out := sitePortal m 48 1
  let back := sitePortal m 48 0
  if s.foreman.running && s.islandUp out && portalEn s.cfg out && !(s.foreman.order.contains m) &&
      (s.portal back).stage.isEmpty && (s.portal back).queue.isEmpty && (s.attIn (attPortal back)).ph = .idle then
    takeMessage m out ((s.portal out).ready) s
  else s

/-! ### Restarts (R345, R346) -/

/-- Work of commands not yet committed stops; the commands run again (R345 steps 2 and 4). -/
def dropWork (s : State) : State :=
  let s := jobStopped s
  let s := match s.conf.load with
    | some l => if l.kind = .sealedImage then s.withConf fun c => { c with load := none } else s
    | none => s
  let s := if s.test.mailbox.isSome then
      (stopTests (fun _ => true) s).withTest fun t => { t with todo := [], mailbox := none } else s
  let s := s.modMaster 64 fun _ => {}
  s.withForeman fun f =>
    { f with mbox := f.mbox.map fun e => (e.1, match e.2.work with | .domain _ => e.2 | _ => { e.2 with work := .none }) }

/-- The portals of the fabric mailboxes reset with the Foreman (09_portals R210). -/
def resetFabricMailboxes (s : State) : State :=
  (List.range 8).foldl (fun s k =>
    portalReset (sitePortal (16 + k) 48 1) (portalReset (sitePortal (16 + k) 48 0)
      (s.modMbox (16 + k) fun b => { b with gather := [], discarding := false }))) s

/-- R345 steps 1 and 2, R346: a restart begins; `cause` is 1 mismatch, 2 watchdog, 3 RAM, 4 ROM. -/
def foremanRestart (cause : Nat) (s : State) : State :=
  if s.sysRuns && (s.foreman.running || s.foreman.restarting) then
    let now := s.clocks.stamp
    let times := (s.foreman.restartTimes.filter fun t => now < t + 1000000000) ++ [now]
    let s := flagMbx 0 (countStat .fmRestarts 0 (flagMbx 3) s)
    let s := logFault 0x07 cause s
    let s := s.sump.fmQueues.foldl (fun s q => interruptProducer q .foreman s) s
    let s := resetFabricMailboxes (dropWork s)
    let dead := 8 ≤ times.length
    let s := s.withForeman fun f => { f with running := false, restarting := !dead, dead := dead, restartTimes := times }
    domSettleAll (if dead then logFault 0x08 0 (flagMbx 1 s) else s)
  else s

/-- R345 steps 4 and 5: staged responses are posted once, and service resumes. -/
def restartComplete (s : State) : State :=
  if s.foreman.restarting && s.sysRuns then
    let s := s.foreman.order.foldl (fun s m =>
      match (s.mboxAt m).staged with
      | some r => postResponse m r (s.withPower fun p =>
          { p with dom := p.dom.map fun e => (e.1, if e.2.mailbox = some m then { e.2 with mailbox := none } else e.2) })
      | none => s) s
    s.withForeman fun f => { f with restarting := false, running := true }
  else s

/-- A word of Foreman RAM lost to an uncorrectable error: one of the shared half reads as zero from then on (R345 step 3). -/
def loseRamWord (w : Nat) (s : State) : State :=
  if 0x80000 ≤ 8 * w then s.withForeman fun f => { f with ram := memWrite ramFill f.ram (8 * w) (List.replicate 8 0) } else s

/-- LOCKSTEP_MISMATCH: two cores that disagree, or an uncorrectable word of RAM or ROM. Which RAM word is not in the command. A Foreman
that is held in reset compares nothing (R346). -/
def lockstep (cause : Nat) (s : State) : State :=
  if !(s.foreman.running || s.foreman.restarting) || !s.sysRuns then s
  else if cause = 1 then
    let f := s.takeFree
    foremanRestart 3 (loseRamWord (Config.freeNat f.1 % 131072) f.2)
  else foremanRestart (if cause = 0 then 1 else 4) s

/-! ### Load (R344) -/

/-- The end of a window of `LOAD_PCT`. -/
def loadWindow (pct : Nat) (s : State) : State :=
  if s.sysRuns then (s.setField .loadPct 0 0 7 pct).setField .loadPct 0 7 7 (max pct (s.field .loadPct 0 7 7)) else s

/-- The commands not yet answered, by class (R344). -/
def State.classDepth (s : State) (c : Nat) : Nat := (s.foreman.order.filter fun m => serviceClass m (s.cmdOf m) = c).length

/-- `LOAD_PCT` as it reads (R348). -/
def State.loadPctReg (s : State) : Word :=
  word (place 24 5 (s.classDepth 2) + place 19 5 (s.classDepth 1) + place 14 5 (s.classDepth 0) + s.field .loadPct 0 0 14)

/-- `FM_STATUS` as it reads (R348). -/
def State.fmStatusReg (s : State) : Word :=
  word (4 * bitNat s.foreman.dead + 2 * bitNat s.foreman.restarting + bitNat (s.foreman.running && s.sysRuns))

/-- `ISO_STATUS0` and `ISO_STATUS1` (01_architecture R31). -/
def State.isoStatus (s : State) (i : Nat) : Word :=
  word ((List.range (if i = 0 then 32 else 8)).foldl (fun n b => n + bitNat (s.isolated (32 * i + b)) * 2 ^ b) 0)

/-! ### Meanings -/

/-- HOST_MAILBOX_POST (R331). -/
def execHostMailboxPost (p : HostPort) (w0 : Word) (s : State) : Out :=
  .next (if s.postReaches p then postWrite p w0 s else s)
/-- MAILBOX_RELEASE (R333). -/
def execMailboxRelease (p : HostPort) (n : Fin 16) (s : State) : Out :=
  .next (hostCommand p .mbxDone 0 (bitWord n.val) (releaseMailbox n.val) s)
/-- FABRIC_MAILBOX_MESSAGE (R334). -/
def execFabricMailboxMessage (n : Fin 8) (s : State) : Out := .next (fabricMessage n.val s)
/-- LOCKSTEP_MISMATCH (R345). -/
def execLockstepMismatch (cause : Fin 3) (s : State) : Out := .next (lockstep cause.val s)
/-- WATCHDOG_EXPIRY (R345). -/
def execWatchdogExpiry (s : State) : Out := .next (foremanRestart 2 s)
/-- FOREMAN_RESTART_COMPLETE (R345). -/
def execForemanRestartComplete (s : State) : Out := .next (restartComplete s)
/-- LOAD_WINDOW_END (R344). -/
def execLoadWindowEnd (pct : Fin 101) (s : State) : Out := .next (loadWindow pct.val s)
/-- LOAD_PEAK_CLR (R348). -/
def execLoadPeakClr (p : HostPort) (s : State) : Out :=
  .next (hostCommand p .loadPct 0 (bitWord 31) (fun s => s.setField .loadPct 0 7 7 0) s)

end Sys2Proof.Machine
end

