-- ==== Sys2Proof/Machine/Clock.lean ====
section
/-! DEFINITION. One clock of the haul road, which is what the block does when no command waits (01_architecture R14, 16_power R388, 19_events_counters R465). -/

namespace Sys2Proof.Machine

/-- A SYS clock period in sixtieths of a SYSCLK period of 10 ns: 1.000, 1.333 and 2.000 ns (01_architecture R14). -/
def clockShare : SysPoint → Nat
  | .p0 => 6 | .p1 => 8 | .p2 => 12

/-- The device timestamp advances by 10, and wraps from 2^64 - 6 to 0 with EV015 (R465). -/
def stampTick (s : State) : State :=
  let t := s.clocks.stamp
  if 2 ^ 64 - 6 ≤ t then raiseEvent 15 { s with clocks := { s.clocks with stamp := 0, scrub := [] } }
  else { s with clocks := { s.clocks with stamp := t + 10 } }

/-- A SYSCLK period passes: the timestamp, and at every hundredth the stale-queue timers' tick (08_sump R189). -/
def sysclkTick (s : State) : State :=
  let s := (stampTick s).withFresh fun f => { f with period := [] }
  let n := (s.clocks.micro + 1) % 100
  let s := { s with clocks := { s.clocks with micro := n } }
  if n = 0 ∧ s.blocksRun then sumpMicro s else s

/-- The clock count and its share of a SYSCLK period advance. -/
def countClock (s : State) : State :=
  let p := s.clocks.phase + clockShare s.power.point
  let s := { s with clocks := { s.clocks with sys := s.clocks.sys + 1, phase := p % 60 } }
  if 60 ≤ p then sysclkTick s else s

/-- One SYS clock: QUIET ends where a condition of it did, the Sump's commits and frees take hold, pauses that have reached their
boundary let their domains go on, and the always-on clock may tick. -/
def sysTick (s : State) : State :=
  let s := if s.power.mode = .quiet && !s.quietHolds then wakeActivity s else s
  let n := s.clocks.sys
  let s := countClock (if s.blocksRun then sumpClock (serveReads s) else s)
  let s := if Config.aonEdge n then aonTick s else s
  domSettleAll s

/-- The posts of a clock are settled at its end (14_foreman R332, R347). -/
def endPosts (s : State) : State := (refusePosts (fun _ => true) s).withForeman fun f => { f with posted := [] }

/-- One clock: of SYS while it runs; of the always-on domain while SYS is stopped; none under power-on reset. -/
def tick (s : State) : State :=
  let s := (endPosts s).withFresh fun f => { period := f.period }
  if s.sysRuns then sysTick s else if s.power.held && s.mayRelease then s else aonTick s

/-- TIMESTAMP_WRAP (R465): the step from the last value. -/
def execTimestampWrap (s : State) : Out := .next (if s.sysRuns ∧ s.clocks.stamp = 2 ^ 64 - 6 then sysclkTick s else s)

end Sys2Proof.Machine
end

