-- ==== Sys2Proof/Machine/Events.lean ====
section
/-! DEFINITION. The scrubber (18_self_test_faults R449 to R451), fabric-raised events (19_events_counters R460) and the event history (R464). -/

namespace Sys2Proof.Machine

/-! ### Scrub visits -/

/-- The number of a class in `SCRUB_CTRL` and `SCRUB_RATE`. -/
def scrubNo : ScrubClass → Nat
  | .pocket => 0 | .sump => 1 | .foreman => 2 | .crusher => 3

/-- A class's visits are made: it is enabled, and its memory's clock runs. -/
def State.scrubs (s : State) (k : ScrubClass) : Bool :=
  s.sysRuns && s.bit .scrubCtrl 0 (scrubNo k) && (match k with | .sump => s.blocksRun | .crusher => s.blocksRun | _ => true)

/-- The next of `n` things from place `p` on, in a cycle: how far it lies. -/
def nextOf (n p : Nat) (ok : Nat → Bool) : Option Nat := (List.range n).find? fun i => ok ((p + i) % n)

/-- A Pocket that the scrubber visits (06_pockets R136). -/
def State.scrubPocket (s : State) (pk : Nat) : Bool :=
  pocketBits s.cfg (pk / 112) (pk % 112) 29 1 = 1 && !(s.isolated (pk / 112)) && !(s.pockets.restoring.contains pk)

/-- A corrected error of a visit (R450). -/
def scrubCorrected (s : State) : State := flagScrub 0 (countStat .scrubCntCorr 0 (flagScrub 4) s)

/-- An uncorrectable error of a visit (R450); its fault log entry belongs to the fault. -/
def scrubUncorrectable (s : State) : State := flagScrub 1 (countStat .scrubCntUncorr 0 (flagScrub 5) s)

/-- The end of a pass (R452). -/
def scrubPass (wrapped : Bool) (s : State) : State := if wrapped then flagScrub 3 s else s

/-- What a visit finds in a row: an upset that the sender reports, or what the stored row shows. -/
def rowFound (found : EccFound) (row : Nat) : EccFound :=
  if found = .clean then (match eccDecode row with | .good _ => .clean | .corrected _ => .corrected | .uncorrectable => .uncorrectable)
  else found

/-- A visit of a Pocket row (06_pockets R136). -/
def visitPocket (found : EccFound) (s : State) : State :=
  let w := (s.reg .scrubPosPocket 0).toNat
  let at0 := bitsOf 24 6 w * 112 + bitsOf 16 7 w
  match nextOf 4480 at0 s.scrubPocket with
  | none => s
  | some i =>
    let row := (bitsOf 0 10 w + (at0 + i) / 4480) % 1024
    let pk := (at0 + i) % 4480
    let next := (pk + 1) % 4480
    let row' := (row + (pk + 1) / 4480) % 1024
    let s1 := s.setReg .scrubPosPocket 0 (word (place 24 6 (next / 112) + place 16 7 (next % 112) + row'))
    let left := (List.range 4480).any fun q => pk < q && s.scrubPocket q
    let s2 := scrubPass (row = 1023 && !left) s1
    match rowFound found (s.row pk row) with
    | .clean => s2
    | .corrected =>
      let s3 := match eccDecode (s.row pk row) with | .corrected d => s2.setRow pk row (eccEncode d) | _ => s2
      scrubCorrected (countPocketCorr s3)
    | .uncorrectable => pocketUncorr pk (scrubUncorrectable s2)

/-- A visit of a Sump cell with its link and descriptor words (08_sump R168, R173, R191): it waits for an idle turn of the cell's bank.
A word that is uncorrectable in one copy is rewritten from the other. -/
def visitSump (fixed bad : BitVec 36) (s : State) : State :=
  let c := s.field .scrubPosSump 0 0 15
  if s.bankIdle c then
    let s := s.withSump fun u => { u with scrubbed := u.scrubbed ++ [c % 64] }
    let s := scrubPass (c = 32767) (s.setReg .scrubPosSump 0 (word ((c + 1) % 32768)))
    let fixed := fixed &&& ~~~bad
    let s := times (bitCount fixed) scrubCorrected (times (bitCount (fixed.truncate 32)) (fun s => flagSump 4 (countSump .sumpCntCorr 6 s)) s)
    let s := times (bitCount (bad >>> 32)) (fun s => logFault 0x06 c (scrubUncorrectable s)) s
    let cell := bad.truncate 32
    let s := times (bitCount cell) (fun s => logFault 0x05 c (scrubUncorrectable s)) s
    if cell = 0 ∨ (s.scell c).beats.isEmpty then s
    else
      let s := s.modSCell c fun v =>
        { v with err0 := v.err0 ||| cell.truncate 16
                 err1 := if 1 < v.beats.length then v.err1 ||| (cell >>> 16).truncate 16 else v.err1 }
      match (s.scell c).desc with
      | some d => if (s.desc d).vis then s else s.modDesc d fun v => { v with bad := true }
      | none => s
  else s

/-- A visit of a word of Foreman RAM (14_foreman R345). -/
def visitForeman (found : EccFound) (s : State) : State :=
  let w := s.field .scrubPosFm 0 0 17
  let s := scrubPass (w = 131071) (s.setReg .scrubPosFm 0 (word ((w + 1) % 131072)))
  match found with
  | .clean => s
  | .corrected => scrubCorrected s
  | .uncorrectable => foremanRestart 3 (loseRamWord w (scrubUncorrectable s))

/-- A visit of a pair of context words (07_crushers R162). -/
def visitCrusher (found : EccFound) (s : State) : State :=
  let w := (s.reg .scrubPosCr 0).toNat
  match nextOf 16 (bitsOf 16 4 w) (engineEn s.cfg) with
  | none => s
  | some i =>
    let e := (bitsOf 16 4 w + i) % 16
    let at0 := if i = 0 then bitsOf 8 7 w * 32 + bitsOf 0 5 w else 0
    let k := at0 / 32
    let n := at0 + 1
    let e' := if n = 4096 then (e + 1) % 16 else e
    let s1 := s.setReg .scrubPosCr 0 (word (place 16 4 e' + place 8 7 (n % 4096 / 32) + n % 32))
    let s2 := scrubPass (n = 4096 && !((List.range 16).any fun q => e < q && engineEn s.cfg q)) s1
    match found with
    | .clean => s2
    | .corrected => scrubCorrected s2
    | .uncorrectable => haltClient e k (scrubUncorrectable s2)

/-- What a visit finds in a unit of one part. -/
def unitFound (fixed bad : BitVec 36) : EccFound :=
  if bad.getLsbD 0 then .uncorrectable else if fixed.getLsbD 0 then .corrected else .clean

/-- `RATE` of a class. -/
def State.scrubRate (s : State) (k : ScrubClass) : Nat := s.field .scrubRate (scrubNo k) 0 16

/-- A visit of a class has used an interval of (`RATE` + 1) SYSCLK periods of 10 ns (R449); one that found no eligible unit, or waits for
its bank, has not. -/
def nextVisit (k : ScrubClass) (before after : State) : State :=
  let at0 := fun (s : State) =>
    [s.reg .scrubPosPocket 0, s.reg .scrubPosSump 0, s.reg .scrubPosFm 0, s.reg .scrubPosCr 0]
  let due := before.clocks.stamp + 10 * (before.scrubRate k + 1)
  if at0 before = at0 after then after
  else { after with clocks := { after.clocks with scrub := tabSet 0 after.clocks.scrub (scrubNo k) due } }

/-- SCRUB_VISIT. -/
def scrubVisit (k : ScrubClass) (fixed bad : BitVec 36) (s : State) : State :=
  let found := unitFound fixed bad
  if s.scrubs k && tabGet 0 s.clocks.scrub (scrubNo k) ≤ s.clocks.stamp then
    nextVisit k s <|
    match k with
    | .pocket => visitPocket found s
    | .sump => visitSump fixed bad s
    | .foreman => visitForeman found s
    | .crusher => visitCrusher found s
  else s

/-! ### The vote (R451) -/

/-- The twelve registers that are held in three copies. -/
def votedReg (r : Nat) : RegKind × Nat :=
  match r with
  | 0 => (.scrubCtrl, 0) | 1 => (.scrubRate, 0) | 2 => (.scrubRate, 1) | 3 => (.scrubRate, 2) | 4 => (.scrubRate, 3)
  | 5 => (.scrubPosPocket, 0) | 6 => (.scrubPosSump, 0) | 7 => (.scrubPosFm, 0) | 8 => (.scrubPosCr, 0)
  | 9 => (.scrubCntCorr, 0) | 10 => (.scrubCntUncorr, 0) | _ => (.scrubCntVote, 0)

/-- The majority of three copies, bit by bit. -/
def majority (a b c : Word) : Word := (a &&& b) ||| (a &&& c) ||| (b &&& c)

/-- Three copies of a field all differ. -/
def fieldSplit (a b c : Word) (f : Field) : Bool :=
  let g := fun (w : Word) => bitsOf f.lo f.len w.toNat
  g a ≠ g b && g a ≠ g c && g b ≠ g c

/-- The bits in which three copies do not agree. -/
def disagreeing (a b c : Word) : Nat := ((List.range 32).filter fun i => ((a ^^^ b) ||| (a ^^^ c)).getLsbD i).length

/-- Bits of the copies of a register flip, and the vote of the same period puts them right: the three copies agree again
(R451). -/
def voteCorrect (r : Nat) (fa fb fc : Word) (s : State) : State :=
  let k := (votedReg r).1
  let i := (votedReg r).2
  -- a host write of the register in the same SYSCLK period sets all three copies (R456)
  if s.sysRuns && !(s.fresh.period.contains (k.addr i)) then
    let v := s.reg k i
    let a := v ^^^ (fa &&& k.defined)
    let b := v ^^^ (fb &&& k.defined)
    let c := v ^^^ (fc &&& k.defined)
    let split := k.fields.filter (fieldSplit a b c)
    let out := split.foldl (fun w f => putField w f.lo f.len f.reset) (majority a b c)
    let n := disagreeing a b c
    let s := s.setReg k i out
    let s := if split.isEmpty then s else flagScrub 9 s
    if n = 0 then s else logFault 0x0A (4 * r) (flagScrub 2 (countMany .scrubCntVote 0 n (flagScrub 6) s))
  else s

/-! ### Fabric-raised events and the history -/

/-- R460, 09_portals R215: a token on a tapped line is acknowledged and offered to the crossing of class 0. -/
def fabricEvent (k : Nat) (s : State) : State :=
  if s.sysRuns && cfgBits s.cfg 46 2 0 (8 * k + 7) 1 = 1 then
    match s.outToken (attEvent k) with
    | some _ => offerEvent 0 (360 + k) (s.setAttAck (attEvent k) true)
    | none => s
  else s

/-- R464: the Foreman copies the oldest queued raise into the ring. -/
def historyCopy (s : State) : State :=
  if s.foreman.running && s.sysRuns then
    match s.history.queue with
    | (n, t) :: rest =>
      let h := s.history
      { s with history := { queue := rest, next := (h.next + 1) % 2 ^ 16
                            ring := tabSet 0 h.ring (h.next % 64) (h.next * 2 ^ 48 + n * 2 ^ 32 + t) } }
    | [] => s
  else s

/-! ### Meanings -/

/-- SCRUB_VISIT (18_self_test_faults R449). -/
def execScrubVisit (k : ScrubClass) (fixed bad : BitVec 36) (s : State) : Out := .next (scrubVisit k fixed bad s)
/-- SCRUB_VOTE_CORRECT (R451). -/
def execScrubVoteCorrect (r : Fin 12) (fa fb fc : Word) (s : State) : Out := .next (voteCorrect r.val fa fb fc s)
/-- FABRIC_EVENT_TOKEN (19_events_counters R460). -/
def execFabricEventToken (k : Fin 24) (s : State) : Out := .next (fabricEvent k.val s)
/-- EVENT_HISTORY_COPY (19_events_counters R464). -/
def execEventHistoryCopy (s : State) : Out := .next (historyCopy s)

end Sys2Proof.Machine
end

