-- ==== Sys2Proof/Machine/Foreman.lean ====
section
/-! DEFINITION. The Foreman's commands (14_foreman R336 to R343): parameters, domains, modes, caverns, the image store, the Crushers and the Sump, RAM, copies, self-tests and the fault log. -/

namespace Sys2Proof.Machine

/-! ### Parameters (R339, 20_register_map R477 to R479) -/

/-- The highest instance of a parameter that a rule assigns (R477). -/
def paramTop (id : Nat) : Option Nat :=
  match id with
  | 0x1000 => some 0 | 0x1001 => some 0 | 0x1002 => some 0 | 0x1003 => some 0 | 0x1004 => some 0
  | 0x2000 => some 0 | 0x2001 => some 63
  | 0x3000 => some 4
  | 0x4000 => some 719 | 0x4001 => some 11 | 0x4002 => some 11 | 0x4003 => some 11
  | _ => none

/-- A parameter that a SET may name. -/
def paramRw (id : Nat) : Bool := id = 0x1001 || id = 0x4000 || id = 0x4001 || id = 0x4002

/-- The identifier of a reference (R339). -/
def refId (r : Nat) : Nat := bitsOf 0 16 r
/-- The instance of a reference (R339). -/
def refInst (r : Nat) : Nat := bitsOf 16 12 r

/-- A reference names a parameter and an instance of it. -/
def paramKnown (r : Nat) : Bool := match paramTop (refId r) with | some t => refInst r ≤ t | none => false

/-- A free value taken, modulo `n`. -/
def freeMod (n : Nat) (s : State) : Nat × State := (Config.freeNat s.takeFree.1 % n, s.takeFree.2)

/-- The value in force of a parameter (R339, R464, R479, 17_pins R417 R418). The levels of pads and the code of a SECURE or DEBUG owner are
free. -/
def paramGet (id i : Nat) (s : State) : Nat × State :=
  match id with
  | 0x1000 => (Config.firmwareVersion.toNat, s)
  | 0x1001 => (s.foreman.loadWindow, s)
  | 0x1002 => (1024 - haulerSlots s.cfg, s)
  | 0x1003 => (1000, s)
  | 0x1004 => (s.foreman.cmdsDone, s)
  | 0x2000 => (s.history.next, s)
  | 0x2001 => (tabGet 0 s.history.ring i, s)
  | 0x3000 => ((tabGet 0 s.power.temps i).toNat, s)
  | 0x4000 =>
    match s.pinOwner (i / 60) (i % 60) with
    | .none => (0, s) | .fabric => (1, s) | .foreman => (2, s)
    | _ => freeMod (2 ^ 64) s
  | 0x4001 => ((tabGet 0 s.foreman.gpioVal i).toNat, s)
  | 0x4002 => ((tabGet 0 s.foreman.gpioOe i).toNat, s)
  | _ => freeMod (2 ^ 60) s

/-- The status of one entry of a SET, 0 where it passes (R339, 17_pins R417). -/
def setStatus (r v : Nat) (s : State) : Nat :=
  let id := refId r
  let i := refInst r
  if !(paramKnown r) then stNoParam
  else if !(paramRw id) then stReadOnly
  else match id with
    | 0x1001 => if 1 ≤ v ∧ v ≤ 100 then 0 else stBadParam
    | 0x4000 =>
      let b := i / 60
      let n := i % 60
      if !(pinBit s.cfg b n 29) || baseOwner s.cfg b n = .secure then stReadOnly
      else if 2 < v || (v = 1 && !(pinBit s.cfg b n 17) && !(pinBit s.cfg b n 24) && pinMode s.cfg b n = 0) then stBadParam
      else if (s.bank b).debug || s.bankDown b then stState
      else 0
    | _ => if v < 2 ^ 60 then 0 else stBadParam

/-- One entry of a SET takes effect. -/
def paramSet (r v : Nat) (s : State) : State :=
  let i := refInst r
  match refId r with
  | 0x1001 => s.withForeman fun f => { f with loadWindow := v }
  | 0x4000 =>
    let o := if v = 0 then PinOwner.none else if v = 1 then .fabric else .foreman
    switchOwner (i / 60) (i % 60) (fun s => s.modPin (i / 60) (i % 60) fun p => { p with hostOwner := some o }) s
  | 0x4001 => s.withForeman fun f => { f with gpioVal := tabSet 0 f.gpioVal i (BitVec.ofNat 60 v) }
  | 0x4002 => s.withForeman fun f => { f with gpioOe := tabSet 0 f.gpioOe i (BitVec.ofNat 60 v) }
  | _ => s

/-- A 64-bit value as two words, low word first. -/
def twoWords (v : Nat) : List Word := [word v, word (v >>> 32)]

/-- GET (R339). -/
def cmdGet (m : Nat) (c : List Word) (s : State) : State :=
  let n := cmdLen c / 4
  match (List.range n).find? fun i => !(paramKnown (cmdArg c i)) with
  | some i => answer m stNoParam [word i] 4 s
  | none =>
    let r := (List.range n).foldl (fun (a : List Word × State) i =>
      let v := paramGet (refId (cmdArg c i)) (refInst (cmdArg c i)) a.2
      (a.1 ++ [word (cmdArg c i)] ++ twoWords v.1, v.2)) ([], s)
    answer m 0 r.1 (12 * n) r.2

/-- SET (R339): every entry is checked, then all take effect. -/
def cmdSet (m : Nat) (c : List Word) (s : State) : State :=
  let n := cmdLen c / 12
  let val := fun (i : Nat) => cmdArg c (3 * i + 1) + 2 ^ 32 * cmdArg c (3 * i + 2)
  match (List.range n).find? fun i => setStatus (cmdArg c (3 * i)) (val i) s ≠ 0 with
  | some i => answer m (setStatus (cmdArg c (3 * i)) (val i) s) [word i] 4 s
  | none => answer m 0 [] 0 ((List.range n).foldl (fun s i => paramSet (cmdArg c (3 * i)) (val i) s) s)

/-- `PI.WIDTH` (R478): stated for some parameters, otherwise the unit's. -/
def paramWidthOf (id : Nat) : Nat :=
  match id with
  | 0x1004 => 64 | 0x2000 => 16 | 0x2001 => 64 | 0x3000 => 16 | 0x4001 => 60 | 0x4002 => 60 | 0x4003 => 60
  | _ => (Config.paramWidth id).toNat

/-- `PI.EFFECT` (R478): the writable ones take effect at their commit (R344, R417), the others say nothing. -/
def paramEffectOf (id : Nat) : Nat := if id = 0x1001 ∨ id = 0x4000 then 0 else (Config.paramEffect id).toNat

/-- `PI.MIN` and `PI.MAX` (R478). -/
def paramRange (id : Nat) : Nat × Nat :=
  match id with
  | 0x1001 => (1, 100) | 0x1002 => (16, 1024) | 0x1003 => (1000, 1000) | 0x1004 => (0, 2 ^ 64 - 1)
  | 0x2000 => (0, 2 ^ 16 - 1) | 0x4000 => (0, 2) | 0x4001 => (0, 2 ^ 60 - 1) | 0x4002 => (0, 2 ^ 60 - 1)
  | 0x4003 => (0, 2 ^ 60 - 1)
  | _ => ((Config.paramMin id).toNat, (Config.paramMax id).toNat)

/-- PARAM_INFO (R478). -/
def cmdParamInfo (m : Nat) (c : List Word) (s : State) : State :=
  let r := cmdArg c 0
  let id := refId r
  if paramKnown r then
    let top := (paramTop id).getD 0
    let w := place 20 8 (top / 16) + place 16 2 (paramEffectOf id) + place 8 7 (paramWidthOf id) + bitNat (paramRw id)
    answer m 0 ([word w] ++ twoWords (paramRange id).1 ++ twoWords (paramRange id).2) 20 s
  else answer m stNoParam [] 0 s

/-! ### Class 0 -/

/-- PING (R336). -/
def cmdPing (m : Nat) (c : List Word) (s : State) : State := answer m 0 (c.drop 2) (cmdLen c) s

/-- GET_STATUS (R336). -/
def cmdGetStatus (m : Nat) (_ : List Word) (s : State) : State :=
  answer m 0 [word (s.power.mode.code + 65536 * bitsOf 0 16 s.fmStatusReg.toNat), s.isoStatus 0, s.isoStatus 1, s.loadPctReg] 16 s

/-- FW_INFO (R336). -/
def cmdFwInfo (m : Nat) (_ : List Word) (s : State) : State :=
  answer m 0 [Config.firmwareVersion, Config.romVersion, Config.signingKeyIndex] 12 s

/-- A class 2 command that has not committed ends (R341). -/
def abortCommand (t : Nat) (s : State) : State :=
  match (s.mboxAt t).work with
  | .none => answer t stAborted (if cmdOp (s.cmdOf t) = 0x0603 then [0] else []) (if cmdOp (s.cmdOf t) = 0x0603 then 4 else 0) s
  | .storeJob => answer t stAborted [] 0 (jobStopped s)
  | .bist =>
    answer t stAborted [] 0 ((stopTests (fun _ => true) s).withTest fun v => { v with todo := [], mailbox := none })
  | .sealedLoad => answer t stAborted [] 0 (flagCfg 6 (setPart true 5 0x13 (s.withConf fun v => { v with load := none })))
  | .copy => copyStop s
  | .domain _ => s

/-- ABORT (R341). -/
def cmdAbort (m : Nat) (c : List Word) (s : State) : State :=
  let a := cmdArg c 0
  let t := if bitAt 4 a then 16 + bitsOf 0 3 a else bitsOf 0 4 a
  if 16 ≤ m ∧ t ≠ m then answer m stDenied [] 0 s
  else if s.foreman.order.contains t && serviceClass t (s.cmdOf t) = 2 then answer m 0 [] 0 (abortCommand t s)
  else answer m stNotAbortable [] 0 s

/-! ### Domains and modes (16_power R379, R398, R399) -/

/-- A domain command is answered STATE: any load (DEDUCED, log 99: not a verified partial image that awaits its `COMMIT`, whose caverns'
power-downs 01_architecture R27 answers), a mode other than RUN, QUIET and MAINTENANCE, or an earlier command at work on the domain. -/
def State.domRefused (s : State) (d : Nat) : Bool :=
  s.conf.load.isSome || (s.power.mode ≠ .run && s.power.mode ≠ .quiet && s.power.mode ≠ .maintenance) || (s.domCmd d).isSome

/-- The response that a domain command will have is staged at its commit (14_foreman R340). -/
def stageOk (m : Nat) (s : State) : State := s.modMbox m fun b => { b with staged := some (mkResponse b.cmd 0 [] 0) }

/-- DOMAIN_DOWN. -/
def cmdDomainDown (forced : Bool) (m : Nat) (c : List Word) (s : State) : State :=
  let d := bitsOf 0 8 (cmdArg c 0)
  if s.domRefused d then answer m stState [] 0 s
  else if s.domOff d then answer m 0 [] 0 s
  else if !forced && s.domBusy d then answer m stBusy [] 0 s
  else domDown d forced (some m) (stageOk m (beginWork m (.domain d) s))

/-- DOMAIN_UP. -/
def cmdDomainUp (m : Nat) (c : List Word) (s : State) : State :=
  let d := bitsOf 0 8 (cmdArg c 0)
  if s.domRefused d then answer m stState [] 0 s
  else if !(s.domOff d) then answer m 0 [] 0 s
  else putDom d { up := true, waiting := false, mailbox := some m } (stageOk m (beginWork m (.domain d) s))

/-- DOMAIN_RESUME: the channels and the clients that go on. -/
def cmdDomainResume (m : Nat) (c : List Word) (s : State) : State :=
  let d := bitsOf 0 8 (cmdArg c 0)
  if s.domOff d || (s.domCmd d).isSome then answer m stState [] 0 s
  else
    let s' := domResume d s
    let chans := ((List.range 64).filter fun h => (s.master h).st = 4 && (s'.master h).st ≠ 4).length
    let clients := (s.crushers.held.filter fun h => h.2 = d).length
    answer m 0 [word chans, word clients] 8 s'

/-- A Hauler channel, a Crusher client or a Sump portal of the device is active (01_architecture R29). -/
def State.deviceActive (s : State) : Bool :=
  ((List.range 64).any fun h => (s.master h).active) ||
  ((List.range 16).any fun e => (List.range 128).any fun k => s.clientEn e k && !(s.clientHeld e k)) ||
  ((List.range 40).any fun c => !(s.activePortals c).isEmpty)

/-- The mode that SET_MODE names (R379). -/
def modeOf (t : Nat) : Option Mode :=
  match t with
  | 3 => some .run | 5 => some .standby | 6 => some .patrol | 7 => some .deepSleep | 9 => some .maintenance | _ => none

/-- SET_MODE (R379). -/
def cmdSetMode (forced : Bool) (m : Nat) (c : List Word) (s : State) : State :=
  let fromRun := s.power.mode = .run || s.power.mode = .quiet
  match modeOf (bitsOf 0 4 (cmdArg c 0)) with
  | none => answer m stBadParam [] 0 s
  | some t =>
    let deep := t = .patrol || t = .deepSleep
    if forced && !deep then answer m stBadParam [] 0 s
    else if (if t = .run then s.power.mode ≠ .maintenance else !fromRun) then answer m stState [] 0 s
    else if s.loadBusy || !s.power.dom.isEmpty then answer m stState [] 0 s
    else if (deep || t = .standby) && !(pmbEn s.cfg) then answer m stState [] 0 s
    else if deep && !forced && s.deviceActive then answer m stBusy [] 0 s
    else modeEntry t (answer m 0 [] 0 s)

/-! ### Caverns and the image store (15_configuration R353, R354, R373, R374; 01_architecture R506) -/

/-- CAVERN_REINIT (01_architecture R506). -/
def cmdCavernReinit (m : Nat) (c : List Word) (s : State) : State :=
  let k := cmdArg c 0
  if (s.cav k).freeze then answer m 0 [] 0 (clearCause k .freeze s) else answer m stState [] 0 s

/-- CAVERN_REVERT waits for a load in progress (R375). -/
def cmdCavernRevert (m : Nat) (c : List Word) (s : State) : State :=
  if s.conf.load.isSome then s else revertCavern m (cmdArg c 0) s

/-- SEALED_LOAD waits for a load in progress (R373, R375). -/
def cmdSealedLoad (m : Nat) (c : List Word) (s : State) : State :=
  if s.conf.load.isSome then s
  else
    let cav := cmdArg c 0
    let off := cmdArg c 1
    let len := cmdArg c 2
    sealedBegin m cav off len (beginWork m .sealedLoad s)

/-- The range of a STORE_WRITE: 0 where it may be written, else a configuration error code (R353). -/
def storeRange (live : Option Bool) (off len : Nat) : Nat :=
  let touches := fun (b : Bool) => off < slotBase b + slotSize && slotBase b < off + len
  let within := fun (lo size : Nat) => lo ≤ off && off + len ≤ lo + size
  if (match live with | some b => touches b | none => false) then 0x14
  else if within 0 slotSize || within (slotBase true) slotSize || within libraryBase librarySize then 0 else 0x15

/-- The load in progress reads the slot or the library in which a range lies (R353). -/
def State.storeInUse (s : State) (off : Nat) : Bool :=
  match s.conf.load with
  | some l =>
    match l.source with
    | .slot b => slotBase b ≤ off && off < slotBase b + slotSize
    | .library _ _ => libraryBase ≤ off
    | _ => false
  | none => false

/-- STORE_WRITE (R353): the bytes begin to be programmed. -/
def cmdStoreWrite (m : Nat) (c : List Word) (s : State) : State :=
  let off := cmdArg c 0
  let len := cmdArg c 2
  let e := storeRange s.conf.liveSlot off len
  if e ≠ 0 then answer m (0x1000 + e) [] 0 s
  else if s.storeInUse off then answer m stState [] 0 s
  else
    let bs := memRead ramFill s.foreman.ram (cmdArg c 1 - 0x30000000) len
    beginWork m .storeJob (s.withConf fun v => { v with job := some { mailbox := m, off := off, bytes := bs, commit := none } })

/-- R354 step 1: the first check that the image of a slot fails. -/
def slotError (b : Bool) (s : State) : Option Nat :=
  let l := newLoad .full (.slot b)
  let at? := fun i => memWord storeFill s.conf.store (slotBase b + 4 * i)
  let ws := (List.range 64).map at?
  match headerError s.conf.otp l ws with
  | some e => some e
  | none =>
    let l := { l with hdr := ws }
    let n := l.lenWords - l.trailerWords
    trailerError l ((List.range n).map at?) ((List.range l.trailerWords).map fun i => at? (n + i))

/-- A commit record (R351). -/
def commitBytes (seq : Nat) (slot fallback : Bool) (len : Nat) : List Byte :=
  let ws : List Word := [word seq, word (bitNat slot + 2 * bitNat fallback), word len, 0, 0, 0, 0]
  (ws ++ [crc32c ws]).flatMap fun w => bytesOf w.toNat 4

/-- R354 step 3: one more than copy 1's number, or copy 0's where copy 1 is not valid; free where neither is. -/
def seqAfter : Option Crec → Option Crec → State → Nat × State
  | some r, _, s => ((r.seq + 1) % 2 ^ 32, s)
  | none, some r, s => ((r.seq + 1) % 2 ^ 32, s)
  | none, none, s => freeMod (2 ^ 32) s

/-- The sequence number of the next commit record (R354 step 3). -/
def nextSeq (s : State) : Nat × State := seqAfter (commitCopy s.conf.store 1) (commitCopy s.conf.store 0) s

/-- R354 steps 2 and 3: the record of slot `b`, whose image has `len` bytes, begins to be programmed with the number `n`. -/
def commitBegin (m : Nat) (c : List Word) (b : Bool) (len : Nat) (n : Nat × State) : State :=
  let bs := commitBytes n.1 b (bitAt 8 (cmdArg c 0)) len
  beginWork m .storeJob (n.2.withConf fun v =>
    { v with job := some { mailbox := m, off := 0x0F800000, bytes := bs, commit := some n.1 } })

/-- The image of slot `b` has failed a check, or has passed all. -/
def commitAfter (m : Nat) (c : List Word) (b : Bool) : Option Nat → State → State
  | some e, s => answer m (0x1000 + e) [] 0 s
  | none, s => commitBegin m c b (memWord storeFill s.conf.store (slotBase b + 12)).toNat (nextSeq s)

/-- STORE_COMMIT (R354): the image is verified, and its record begins to be programmed. -/
def cmdStoreCommit (m : Nat) (c : List Word) (s : State) : State :=
  let b := bitAt 0 (cmdArg c 0)
  commitAfter m c b (slotError b s) s

/-- STORE_PROGRAMMING_DONE: verified, or failed with STORE_FAIL and the bytes undefined. -/
def storeDone (ok : Bool) (s : State) : State :=
  match s.conf.job with
  | some j =>
    if !s.sysRuns || !s.foreman.running then s
    else if ok then
      let st := memWrite storeFill s.conf.store j.off j.bytes
      let s := s.withConf fun c => { c with job := none, store := st }
      match j.commit with
      | none => answer j.mailbox 0 [] 0 s
      | some n =>
        let s := s.withConf fun c => { c with store := memWrite storeFill c.store (j.off + copyStride) j.bytes }
        answer j.mailbox 0 [word n] 4 (flagCfg 7 s)
    else answer j.mailbox 0x1016 [] 0 (jobLost s)
  | none => s

/-! ### Crushers and the Sump (07_crushers R162 R164, 08_sump) -/

/-- CR_COUNTERS: words 60 to 63 of a context; a clear leaves `HALTED` (R162). -/
def cmdCrCounters (m : Nat) (c : List Word) (s : State) : State :=
  let a := cmdArg c 0
  let e := bitsOf 8 4 a
  let k := bitsOf 0 7 a
  let ws := (List.range 4).map fun i => s.ctx e k (60 + i)
  let s := if bitAt 31 a then
      ((((s.setCtx e k 60 0).setCtx e k 61 0).setCtx e k 62 0).setCtx e k 63 (s.ctx e k 63 &&& bitWord 8)) else s
  answer m 0 ws 16 s

/-- CR_REINIT: of a client that is held (R164, R338). -/
def cmdCrReinit (m : Nat) (c : List Word) (s : State) : State :=
  let a := cmdArg c 0
  let e := bitsOf 8 4 a
  let k := bitsOf 0 7 a
  if s.clientHeld e k then
    let halted := s.clientHalted e k
    let s := (loadContext e k s).withCrushers fun r =>
      { r with pkts := tabErase r.pkts (clientKey e k)
               revived := if halted && !(r.revived.contains (clientKey e k)) then r.revived ++ [clientKey e k] else r.revived }
    answer m 0 [] 0 s
  else answer m stState [] 0 s

/-- Q_FLUSH (08_sump R188). -/
def cmdQFlush (m : Nat) (c : List Word) (s : State) : State := answer m 0 [] 0 (flushQueue (cmdArg c 0) s)

/-- Q_DESC (08_sump R173). -/
def cmdQDesc (m : Nat) (c : List Word) (s : State) : State :=
  let d := descWords (cmdArg c 0) s
  answer m 0 d.1 12 d.2

/-- Q_COUNTERS (14_foreman R336). -/
def cmdQCounters (m : Nat) (c : List Word) (s : State) : State :=
  let q := bitsOf 0 11 (cmdArg c 0)
  let v := s.queue q
  let s := if bitAt 31 (cmdArg c 0) then s.modQueue q fun v => { v with pktsIn := 0, bytesIn := 0, pktsOut := 0, bytesOut := 0 } else s
  answer m 0 (twoWords v.pktsIn ++ twoWords v.bytesIn ++ twoWords v.pktsOut ++ twoWords v.bytesOut) 32 s

/-! ### Memory and copies (R343) -/

/-- RAM_WRITE. -/
def cmdRamWrite (m : Nat) (c : List Word) (s : State) : State :=
  let n := cmdLen c - 4
  let bs := ((c.drop 3).flatMap fun w => bytesOf w.toNat 4).take n
  answer m 0 [] 0 (s.withForeman fun f => { f with ram := memWrite ramFill f.ram (cmdArg c 0 - 0x30000000) bs })

/-- RAM_READ. -/
def cmdRamRead (m : Nat) (c : List Word) (s : State) : State :=
  let n := cmdArg c 1
  let a := cmdArg c 0 - 0x30000000
  answer m 0 ((List.range 12).map fun i => memWord ramFill s.foreman.ram (a + 4 * i)) n s

/-- The descriptor that stands for a HAUL_COPY: 8-bit elements, `BURST` 31, `SKIP` 0, one packet where the target is a queue in
packet mode (R343). -/
def copyDesc (t : Tab Word) (src dst len : Nat) : List Word :=
  let pkt := match targetOf dst with | .queue q => qEn t q && qPkt t q | _ => false
  [word src, word dst, word len, word (7 + 7 * 65536 + bitNat pkt * 2 ^ 30), 0, word (31 * 2 ^ 24), 0, 1]

/-- HAUL_COPY (R343). -/
def cmdHaulCopy (m : Nat) (c : List Word) (s : State) : State :=
  let v : Hauler := { st := 2, desc := copyDesc s.cfg (cmdArg c 0) (cmdArg c 1) (cmdArg c 2), left := cmdArg c 2 }
  if descError s.cfg 64 v ≠ 0 then answer m stBadParam [0] 4 s
  else beginWork m .copy (requestAhead 64 (s.modMaster 64 fun _ => v))

/-- FOREMAN_WHEEL_SLOT: a slot of the Foreman's copy, and the copy's end. One that a stop has met in its last burst ends ABORTED
(14_foreman R341, R347). -/
def foremanSlot (s : State) : State :=
  let s := masterBeat 64 s
  let st := (s.master 64).st
  if s.copyMailbox.isNone then s
  else domSettleAll
    (if st = 6 then copyEnd (if (s.master 64).stop then stAborted else 0) s else if st = 7 then copyEnd stBadParam s else if st = 5 then copyEnd stAborted s else s)

/-! ### Self-tests and the fault log (18_self_test_faults R438, R439, R455) -/

/-- A lane of a bench is UP. -/
def State.benchUp (s : State) (b : Nat) : Bool := (List.range 4).any fun i => s.laneState (4 * b + i) = 5

/-- A restore of a cavern's Pockets is in progress (06_pockets R134). -/
def State.restoringCav (s : State) (c : Nat) : Bool := s.pockets.restoring.any fun pk => pk / 112 = c

/-- R439: the first condition that a BIST_RUN fails, 0 where it passes. -/
def bistStatus (type target : Nat) (forced : Bool) (s : State) : Nat :=
  let all := target = 0xFF && type ≤ 4
  let named := type = 0 || 5 < type || (type ≤ 3 && 39 < target && !all) || (type = 4 && 23 < target && !all) ||
    (type = 5 && target ≠ 0) || (forced && type ≠ 4)
  let on := if all then List.range (if type = 4 then 24 else 40) else [target]
  if named then stBadParam
  else if (s.power.mode ≠ .run && s.power.mode ≠ .quiet && s.power.mode ≠ .maintenance) ||
      (type = 5 && s.power.mode ≠ .maintenance) || s.loadBusy then stState
  else if type ≤ 3 && on.any fun c => (s.cav c).power then stDomainOff
  else if type ≤ 3 && on.any fun c => s.isolated c || s.restoringCav c then stState
  else if type = 4 && !forced && on.any fun b => s.benchUp b then stBusy
  else if type = 5 && s.deviceActive then stBusy
  else 0

/-- BIST_RUN: served once no other test runs (R456). -/
def cmdBistRun (m : Nat) (c : List Word) (s : State) : State :=
  if s.test.type ≠ 0 then s
  else
    let type := bitsOf 0 4 (cmdArg c 0)
    let target := bitsOf 0 8 (cmdArg c 1)
    let e := bistStatus type target (bitAt 31 (cmdArg c 0)) s
    if e ≠ 0 then answer m e [] 0 s
    else testRun type target (some m) false (testTargets type target) (beginWork m .bist s)

/-- FAULT_LOG (R455). -/
def cmdFaultLog (m : Nat) (c : List Word) (s : State) : State :=
  let h := s.flog.entries.length
  let oldest := (s.flog.next + 2 ^ 16 - h) % 2 ^ 16
  let d := (bitsOf 0 16 (cmdArg c 0) + 2 ^ 16 - oldest) % 2 ^ 16
  let es := (if d < h then s.flog.entries.drop d else if 2 ^ 15 ≤ d then s.flog.entries else []).take 7
  answer m 0 (es.flatMap fun e => [e.1, e.2]) (8 * es.length) s

/-! ### Meanings -/

/-- PING (R336). -/
def execPing (m : Mailbox) (s : State) : Out := .next (serve m 0x0001 anyForm cmdPing s)
/-- GET_STATUS (R336). -/
def execGetStatus (m : Mailbox) (s : State) : Out := .next (serve m 0x0002 anyForm cmdGetStatus s)
/-- ABORT (R341). -/
def execAbort (m : Mailbox) (s : State) : Out := .next (serve m 0x0003 anyForm cmdAbort s)
/-- FW_INFO (R336). -/
def execFwInfo (m : Mailbox) (s : State) : Out := .next (serve m 0x0004 anyForm cmdFwInfo s)
/-- GET (R339). -/
def execGet (m : Mailbox) (s : State) : Out := .next (serve m 0x0101 anyForm cmdGet s)
/-- SET (R339). -/
def execSet (m : Mailbox) (s : State) : Out := .next (serve m 0x0102 anyForm cmdSet s)
/-- PARAM_INFO (R339). -/
def execParamInfo (m : Mailbox) (s : State) : Out := .next (serve m 0x0103 anyForm cmdParamInfo s)
/-- DOMAIN_DOWN, normal (16_power R398). -/
def execDomainDown (m : Mailbox) (s : State) : Out := .next (serve m 0x0201 plainForm (cmdDomainDown false) s)
/-- DOMAIN_DOWN, forced (16_power R399). -/
def execDomainDownForced (m : Mailbox) (s : State) : Out := .next (serve m 0x0201 forcedForm (cmdDomainDown true) s)
/-- DOMAIN_UP (16_power R398). -/
def execDomainUp (m : Mailbox) (s : State) : Out := .next (serve m 0x0202 anyForm cmdDomainUp s)
/-- DOMAIN_RESUME (16_power R398). -/
def execDomainResume (m : Mailbox) (s : State) : Out := .next (serve m 0x0203 anyForm cmdDomainResume s)
/-- SET_MODE (16_power R379). -/
def execSetMode (m : Mailbox) (s : State) : Out := .next (serve m 0x0204 plainForm (cmdSetMode false) s)
/-- SET_MODE, forced (16_power R379). -/
def execSetModeForced (m : Mailbox) (s : State) : Out := .next (serve m 0x0204 forcedForm (cmdSetMode true) s)
/-- CAVERN_REINIT (01_architecture R506). -/
def execCavernReinit (m : Mailbox) (s : State) : Out := .next (serve m 0x0301 anyForm cmdCavernReinit s)
/-- CAVERN_REVERT (15_configuration R374). -/
def execCavernRevert (m : Mailbox) (s : State) : Out := .next (serve m 0x0302 anyForm cmdCavernRevert s)
/-- SEALED_LOAD (15_configuration R373). -/
def execSealedLoad (m : Mailbox) (s : State) : Out := .next (serve m 0x0303 anyForm cmdSealedLoad s)
/-- STORE_WRITE (15_configuration R353). -/
def execStoreWrite (m : Mailbox) (s : State) : Out := .next (serve m 0x0304 anyForm cmdStoreWrite s)
/-- STORE_COMMIT (15_configuration R354). -/
def execStoreCommit (m : Mailbox) (s : State) : Out := .next (serve m 0x0305 anyForm cmdStoreCommit s)
/-- CR_COUNTERS (07_crushers R162). -/
def execCrCounters (m : Mailbox) (s : State) : Out := .next (serve m 0x0401 anyForm cmdCrCounters s)
/-- CR_REINIT (07_crushers R162). -/
def execCrReinit (m : Mailbox) (s : State) : Out := .next (serve m 0x0402 anyForm cmdCrReinit s)
/-- Q_FLUSH (08_sump R188). -/
def execQFlush (m : Mailbox) (s : State) : Out := .next (serve m 0x0501 anyForm cmdQFlush s)
/-- Q_DESC (08_sump R173). -/
def execQDesc (m : Mailbox) (s : State) : Out := .next (serve m 0x0502 anyForm cmdQDesc s)
/-- Q_COUNTERS (R336). -/
def execQCounters (m : Mailbox) (s : State) : Out := .next (serve m 0x0503 anyForm cmdQCounters s)
/-- RAM_WRITE (R343). -/
def execRamWrite (m : Mailbox) (s : State) : Out := .next (serve m 0x0601 anyForm cmdRamWrite s)
/-- RAM_READ (R343). -/
def execRamRead (m : Mailbox) (s : State) : Out := .next (serve m 0x0602 anyForm cmdRamRead s)
/-- HAUL_COPY (R343). -/
def execHaulCopy (m : Mailbox) (s : State) : Out := .next (serve m 0x0603 anyForm cmdHaulCopy s)
/-- BIST_RUN (18_self_test_faults R438). -/
def execBistRun (m : Mailbox) (s : State) : Out := .next (serve m 0x0701 plainForm cmdBistRun s)
/-- BIST_RUN of a forced LANE test (18_self_test_faults R438). -/
def execBistRunForcedLane (m : Mailbox) (s : State) : Out := .next (serve m 0x0701 forcedForm cmdBistRun s)
/-- FAULT_LOG (18_self_test_faults R455). -/
def execFaultLog (m : Mailbox) (s : State) : Out := .next (serve m 0x0702 anyForm cmdFaultLog s)
/-- FOREMAN_WHEEL_SLOT (R342). -/
def execForemanWheelSlot (s : State) : Out := .next (foremanSlot s)
/-- STORE_PROGRAMMING_DONE (15_configuration R353, R354). -/
def execStoreProgrammingDone (ok : Bool) (s : State) : Out := .next (storeDone ok s)

end Sys2Proof.Machine
end

