-- ==== Sys2Proof/Machine/Registers.lean ====
section
/-! DEFINITION. Host accesses to the direct registers: what each register reads as, what a write of it does (00_scope R5 R6, 20_register_map R471 to R476), snapshots (19_events_counters R468), and the holds of Crusher clients (07_crushers R164). -/

namespace Sys2Proof.Machine

/-! ### Registers that show other state -/

/-- Bits of a word that a predicate gives. -/
def flagWord (n : Nat) (f : Nat → Bool) : Word := word ((List.range n).foldl (fun m b => m + bitNat (f b) * 2 ^ b) 0)

/-- `PWR_MODE` (16_power R410). -/
def State.pwrModeReg (s : State) : Word := word (256 * s.power.last.code + s.power.mode.code)

/-- `ISO_CAUSE_nn` (01_architecture R32). -/
def State.isoCauseReg (s : State) (c : Nat) : Word :=
  let v := s.cav c
  word (256 * v.fpocket.toNat + 16 * bitNat v.load + 8 * bitNat v.freeze + 4 * bitNat v.bist + 2 * bitNat v.partialLoad + bitNat v.power)

/-- A pending event of group `i` is enabled (19_events_counters R459). -/
def State.groupActive (s : State) (i : Nat) : Bool := s.reg .evtPend i &&& s.reg .evtEn i ≠ 0

/-- EVENT_N is driven low (19_events_counters R459): in PATROL and DEEP SLEEP, and without supplies, it is released. -/
def State.eventLow (s : State) : Bool :=
  !s.power.held && s.power.mode ≠ .patrol && s.power.mode ≠ .deepSleep &&
  s.bit .evtCtrl 0 0 && (List.range 12).any s.groupActive

/-- `EVT_SUM` (19_events_counters R470). -/
def State.evtSumReg (s : State) : Word :=
  let first := (List.range 384).find? fun n => (s.reg .evtPend (n / 32) &&& s.reg .evtEn (n / 32)).getLsbD (n % 32)
  word (place 31 1 (bitNat s.eventLow) + place 16 9 (first.getD 0x1FF) + (flagWord 12 s.groupActive).toNat)

/-- `PWR_SYS`: the request as stored, the point in force, a change in progress (16_power R410). -/
def State.pwrSysReg (s : State) : Word :=
  word (256 * s.field .pwrSys 0 8 2 + 16 * s.power.point.code + bitNat s.power.change.isSome)

/-- `PWR_FAULT`: the first cause as stored, and the causes set now (16_power R410). -/
def State.pwrFaultReg (s : State) : Word :=
  s.reg .pwrFault 0 ||| word (bitNat s.power.thermal + 2 * bitNat ((List.range 5).any (tabGet false s.power.supply)) +
    4 * bitNat ((List.range 5).any (tabGet false s.power.regFault)))

/-- `GL_OWNER_i` (04_routing R101). -/
def State.glOwnerReg (s : State) (i : Nat) : Word :=
  word ((List.range 4).foldl (fun m b =>
    match lineOwner s.cfg ((4 * i + b) / 16) ((4 * i + b) % 16) with
    | some c => m + (128 + c) * 2 ^ (8 * b)
    | none => m) 0)

/-- `CFG_STATUS` (15_configuration R377). -/
def State.cfgStatusReg (s : State) : Word := s.reg .cfgStatus 0 ||| word (bitNat s.loadBusy)

/-- `ST_STATUS` (18_self_test_faults R457). -/
def State.stStatusReg (s : State) : Word :=
  if s.test.type = 0 then 0 else word (2 ^ 31 + place 24 4 s.test.type + place 0 8 s.test.target)

/-- `SUMP_STATUS` (08_sump R193). -/
def State.sumpStatusReg (s : State) : Word :=
  word (place 31 1 (bitNat s.sump.devCommit) + place 16 15 s.freeDescs + place 0 16 s.freeCells)

/-- `HAUL_STATUS` (10_haulers R242). -/
def State.haulStatusReg (s : State) : Word := word (place 16 11 (haulerSlots s.cfg) + place 0 12 s.readsOut)

/-- `CRnn_STATUS` (07_crushers R166). -/
def State.crStatusReg (s : State) (e : Nat) : Word :=
  word (4 * bitNat ((List.range 128).any (s.clientHalted e)) + 2 * bitNat (s.bit .crStatus e 1) + bitNat (s.engineRuns e))

/-- A register as it is stored; a counter that a read clears without its increments of this clock, which are kept for the next read
(20_register_map R476). -/
def State.stored (s : State) (k : RegKind) (i : Nat) : Word :=
  let v := (s.reg k i).toNat
  if k.mask .rc = 0 ∨ v < s.freshCount k i then s.reg k i else word (v - s.freshCount k i)

/-- What a register reads as, without what a read changes. -/
def State.shown (s : State) (p : HostPort) (k : RegKind) (i : Nat) : Word :=
  match k with
  | .pwrMode => s.pwrModeReg
  | .isoStatus0 => s.isoStatus 0
  | .isoStatus1 => s.isoStatus 1
  | .isoCause => s.isoCauseReg i
  | .mbxPost => (s.portBank p).post.getD i 0
  | .mbxPostres => (s.portBank p).postRes
  | .mbxBusy => flagWord 16 fun m => (s.mboxAt m).busy
  | .mbxDone => flagWord 16 fun m => (s.mboxAt m).done
  | .loadPct => s.loadPctReg
  | .fmStatus => s.fmStatusReg
  | .hmbRsp => (s.mboxAt (i / 16)).rsp.getD (i % 16) 0
  | .hmbCmd => (s.mboxAt (i / 16)).cmd.getD (i % 16) 0
  | .evtSum => s.evtSumReg
  | .tsLo => word s.clocks.stamp
  | .tsHi => (s.portBank p).snapTs
  | .pwrSys => s.pwrSysReg
  | .pwrDom0 => flagWord 32 fun c => (s.cav c).powered
  | .pwrDom1 => flagWord 8 fun c => (s.cav (32 + c)).powered
  | .pwrDomLb => flagWord 24 s.benchOn
  | .pwrDomIo => flagWord 12 fun b => !(s.bankDown b)
  | .pwrFault => s.pwrFaultReg
  | .pinBank => s.pinBankReg i
  | .cfgStatus => s.cfgStatusReg
  | .cfgOtp => s.otpReg
  | .glOwner => s.glOwnerReg i
  | .stStatus => s.stStatusReg
  | .lnPrbsBitsHi => tabGet 0 (s.portBank p).snapBits i
  | .lnPrbsErrHi => tabGet 0 (s.portBank p).snapErr i
  | .sumpStatus => s.sumpStatusReg
  | .sumpQstat => s.qstat (s.field .sumpQsel 0 0 11)
  | .haulStatus => s.haulStatusReg
  | .crStatus => s.crStatusReg i
  | .flogStatus => word (place 16 16 s.flog.next + s.flog.entries.length)
  | _ => s.stored k i

/-! ### Reads -/

/-- What a read of a register changes: RC fields clear, a low word fills its port's snapshot, and `SUMP_QSTAT` latches
`SUMP_QSTAT2` (00_scope R5, 19_events_counters R468, 08_sump R195). -/
def readEffect (p : HostPort) (k : RegKind) (i : Nat) (s : State) : State :=
  match k with
  | .tsLo => s.modPort p fun b => { b with snapTs := word (s.clocks.stamp / 2 ^ 32) }
  | .lnPrbsBitsLo => s.modPort p fun b => { b with snapBits := tabSet 0 b.snapBits i (s.reg .lnPrbsBitsHi i) }
  | .lnPrbsErrLo => s.modPort p fun b => { b with snapErr := tabSet 0 b.snapErr i (s.reg .lnPrbsErrHi i) }
  | .sumpQstat => s.setReg .sumpQstat2 0 (s.qstat2 (s.field .sumpQsel 0 0 11))
  | _ => if k.mask .rc = 0 then s else s.setReg k i ((s.reg k i &&& ~~~ k.mask .rc) ||| (s.reg k i - s.stored k i))

/-- A read on a port: the word returned (00_scope R6, 20_register_map R471 R472 R475, 16_power R390), and the state after it. -/
def hostRead (p : HostPort) (addr : Word) (s : State) : State :=
  let a := addr.toNat / 4 * 4
  let s := refusePosts (· = p) s
  let give := fun (v : Word) (s : State) => s.modPort p fun b => { b with hostRead := v }
  match s.reach a with
  | .silent => if p = .spi && !s.power.held then give 0xFFFFFFFF s else holdAccess p addr none s
  | .held => give (match regAt a with | some (k, _) => k.reset | none => 0) s
  | .off => give 0 (noteAccess p 0 a s)
  | .open =>
    match regAt a with
    -- the level at an HPD pin is the board's at the moment of the read (12_lane_link R307)
    | some (.lbHpd, i) =>
      let (f, s) := s.takeFree
      give (s.reg .lbHpd i &&& 1 ||| (if Config.freeBit f then 2 else 0)) s
    | some (k, i) => give (s.shown p k i) (readEffect p k i s)
    | none => give 0 s

/-! ### Holds of Crusher clients (07_crushers R164, 09_portals R210) -/

/-- The portals of a client: the one that feeds it, and those that it feeds. -/
def State.clientPortals (s : State) (e k : Nat) : List Nat :=
  (if 96 ≤ k then [fpiPortal e (k - 96)] else []) ++
  (if s.ctxCfg e k 28 2 = 3 then [fpoPortal e (s.ctxCfg e k 17 11)] else []) ++
  (if s.ctxCfg e k 15 2 = 3 then [fpoPortal e (s.ctxCfg e k 4 11)] else [])

/-- A held client is released; the portals of one that was halted reset. -/
def releaseClient (e k : Nat) (s : State) : State :=
  if s.clientHalted e k || s.crushers.revived.contains (clientKey e k) then
    let s := ((s.clientPortals e k).filter (portalEn s.cfg)).foldl (fun s p => portalReset p s) s
    s.withCrushers fun c => { c with revived := c.revived.erase (clientKey e k) }
  else s

/-- `CRnn_HOLDi`. -/
def holdReg (i : Nat) : RegKind := match i with | 0 => .crHold0 | 1 => .crHold1 | 2 => .crHold2 | _ => .crHold3

/-- A write of `CRnn_HOLDi`. -/
def holdWrite (e i : Nat) (val : Word) (s : State) : State :=
  let gone := s.reg (holdReg i) e &&& ~~~ val
  let s := s.setReg (holdReg i) e val
  (List.range 32).foldl (fun s b => if gone.getLsbD b then releaseClient e (32 * i + b) s else s) s

/-! ### Writes -/

/-- A field of a register takes the bits written. -/
def takeField (k : RegKind) (i lo len : Nat) (val : Word) (s : State) : State := s.setField k i lo len (bitsOf lo len val.toNat)

/-- `PWR_CTRL` (16_power R410): a dwell above 9 leaves its field unchanged. -/
def pwrCtrlWrite (val : Word) (s : State) : State :=
  let s := takeField .pwrCtrl 0 8 1 val s
  if bitsOf 16 4 val.toNat ≤ 9 then takeField .pwrCtrl 0 16 4 val s else s

/-- `SPEED_GAUGE_CTRL` (05_speed_latency R111, R112, R114): window code 0b11 leaves its field unchanged; gauges that stop show no
reading. -/
def gaugeWrite (val : Word) (s : State) : State :=
  let ran := s.bit .speedGaugeCtrl 0 31
  let s := takeField .speedGaugeCtrl 0 0 13 val (takeField .speedGaugeCtrl 0 31 1 val s)
  let s := if bitsOf 16 2 val.toNat = 3 then s else takeField .speedGaugeCtrl 0 16 2 val s
  let s := if ran && !(val.getLsbD 31) then (List.range 40).foldl (fun s c => gaugeStop c s) s else s
  if val.getLsbD 30 then gaugeMaxClear s else s

/-- `AON_PADPOL` (16_power R387): code 0b11 leaves a bank's field unchanged. -/
def padpolWrite (val : Word) (s : State) : State :=
  (List.range 12).foldl (fun s b => if bitsOf (2 * b) 2 val.toNat = 3 then s else takeField .aonPadpol 0 (2 * b) 2 val s) s

/-- `PATROL_CTRL` (16_power R397): a write that breaks R393 or R409 is not taken. -/
def patrolCtrlWrite (val : Word) (s : State) : State :=
  let sensors := (List.range 24).map fun n => (s.reg .patrolCfg n).toNat
  if patrolCtrlLegal val.toNat && (val = 0 || patrolFits val.toNat sensors) then patrolControl val s else s

/-- `PATROL_CFG_s` (16_power R397). -/
def patrolCfgWrite (n : Nat) (val : Word) (s : State) : State :=
  let ctrl := s.reg .patrolCtrl 0
  let sensors := (List.range 24).map fun m => if m = n then val.toNat else (s.reg .patrolCfg m).toNat
  if sensorLegal val.toNat && (ctrl = 0 || patrolFits ctrl.toNat sensors) then sensorWrite n val s else s

/-- `LNnn_PMA_CTRL` (11_lane_electrical R274). -/
def pmaCtrlWrite (n : Nat) (val : Word) (s : State) : State :=
  let s := loopWrite n (bitsOf 4 2 val.toNat) (takeField .lnPmaCtrl n 6 1 val s)
  if val.getLsbD 7 then relockWrite n s else s

/-- `LNnn_PAT_CTRL` (11_lane_electrical R274). -/
def patCtrlWrite (n : Nat) (val : Word) (s : State) : State :=
  let s := takeField .lnPatCtrl n 24 6 val (takeField .lnPatCtrl n 16 1 val s)
  let s := chkWrite n (bitsOf 8 4 val.toNat) (genWrite n (bitsOf 0 4 val.toNat) s)
  let s := if val.getLsbD 31 then patClear n s else s
  if val.getLsbD 30 then inject n s else s

/-- `LNnn_LINK_CTRL` (12_lane_link R306). -/
def linkCtrlWrite (n : Nat) (val : Word) (s : State) : State :=
  let s := if val.getLsbD 2 then disableWrite n s else enableWrite n s
  let s := if val.getLsbD 1 then linkResetWrite n s else s
  if val.getLsbD 0 then retrainWrite n s else s

/-- `HCHnn_CTRL` (10_haulers R241). The spec orders several bits of one write in no way: `START`, `RESUME`, `STOP` (DESIGN CHOICE, log 15). -/
def hchCtrlWrite (h : Nat) (val : Word) (s : State) : State :=
  let s := if val.getLsbD 0 then haulerStart h s else s
  let s := if val.getLsbD 1 then haulerResume h s else s
  if val.getLsbD 2 then haulerStop h s else s

/-- `SUMP_QCMD` (08_sump R195). -/
def qcmdWrite (val : Word) (s : State) : State :=
  let q := bitsOf 16 11 val.toNat
  let s := if val.getLsbD 1 then recoverClear q s else s
  if val.getLsbD 0 then flushQueue q s else s

/-- What a write of a register does: fields of their own first, the rest by access codes (00_scope R5). -/
def writeReg (p : HostPort) (k : RegKind) (i : Nat) (val : Word) (s : State) : State :=
  match k with
  | .mbxPost => if i = 0 then postWrite p val s else s.modPort p fun b => { b with post := b.post.set i val }
  | .mbxDone => (List.range 16).foldl (fun s m => if val.getLsbD m then releaseMailbox m s else s) s
  | .loadPct => if val.getLsbD 31 then s.setField .loadPct 0 7 7 0 else s
  | .pwrCtrl => pwrCtrlWrite val s
  | .pwrSys => pointWrite (bitsOf 8 2 val.toNat) s
  | .pwrVccf => vccfWrite (bitsOf 0 10 val.toNat) s
  | .pwrVccfQ => quietMvWrite (bitsOf 0 10 val.toNat) s
  | .pwrPadrel => padRelease (bitsOf 0 12 val.toNat) s
  | .speedGaugeCtrl => gaugeWrite val s
  | .speedGauge => gaugeOverWrite i val s
  | .aonPadpol => padpolWrite val s
  | .cfgCtrl => if val.getLsbD 0 then reprogWrite (bitsOf 16 16 val.toNat) s else s
  | .cfgStream => streamWord .spi val s
  | .stCtrl => let v := bitsOf 0 4 val.toNat; if 1 ≤ v && v ≤ 8 then s.setField .stCtrl 0 0 4 v else s
  | .lnPmaCtrl => pmaCtrlWrite i val s
  | .lnEq => eqWrite i val s
  | .lnPatCtrl => patCtrlWrite i val s
  | .lnMargin => marginWrite i val s
  | .lnLinkCtrl => linkCtrlWrite i val s
  | .sumpQcmd => qcmdWrite val s
  | .hchCtrl => hchCtrlWrite i val s
  | .crHold0 => holdWrite i 0 val s
  | .crHold1 => holdWrite i 1 val s
  | .crHold2 => holdWrite i 2 val s
  | .crHold3 => holdWrite i 3 val s
  | .patrolCtrl => patrolCtrlWrite val s
  | .patrolCfg => patrolCfgWrite i val s
  | _ => codedWrite k i val s

/-- A write while SYS does not answer: posts to mailboxes are accepted, a request for a SYS point is held, and every other write of the
I2C target or the access port waits for the end of the exit (16_power R390, R392). -/
def sleepingWrite (p : HostPort) (a : Nat) (val : Word) (s : State) : State :=
  if s.heldStandby p then
    match regAt a with
    | some (.mbxPost, i) => writeReg p .mbxPost i val s
    | some (.pwrSys, _) => writeReg p .pwrSys 0 val s
    | _ => holdAccess p (word a) (some val) s
  else s

/-- A write that comes before another writer of the register in this clock leaves the read-write fields as that one has them; its other
bits act (20_register_map R476). The post buffers are each port's own. -/
def State.rankedValue (s : State) (p : HostPort) (k : RegKind) (i : Nat) (val : Word) : Word :=
  if k ≠ .mbxPost && s.outranked (writerRank p) (k.addr i) then (val &&& ~~~ k.mask .rw) ||| (s.reg k i &&& k.mask .rw) else val

/-- A host write of one whole register (20_register_map R471 to R475). -/
def hostWrite (p : HostPort) (addr val : Word) (s : State) : State :=
  let a := addr.toNat / 4 * 4
  match s.reach a with
  | .silent => sleepingWrite p a val s
  | .held => s
  | .off => noteAccess p 0 a s
  | .open =>
    match regAt a with
    | some (k, i) => noteReserved p k i val (writeReg p k i (s.rankedValue p k i val) (noteWrite (writerRank p) (k.addr i) s))
    | none => noteAccess p 1 a s

/-- The accesses that a sleep has held proceed at its end (16_power R390); the access port's has then completed (17_pins R433). -/
def resumeAccesses (s : State) : State :=
  s.power.waiting.foldl (fun s w =>
    let t := match w.2.2 with
      | some v => hostWrite w.1 w.2.1 v s
      | none => hostRead w.1 w.2.1 s
    if w.1 = .jtag then
      { t with jtag := { t.jtag with regaccDone := true
                                     regaccRead := if w.2.2.isNone then (t.portBank .jtag).hostRead else t.jtag.regaccRead } }
    else t) (s.withPower fun p => { p with waiting := [] })

/-! ### Meanings -/

/-- The low register of a wide counter (19_events_counters R468). -/
def lowAddr : WideCounter → Nat
  | .timestamp => RegKind.tsLo.addr 0
  | .prbsBits n => RegKind.lnPrbsBitsLo.addr n.val
  | .prbsErr n => RegKind.lnPrbsErrLo.addr n.val

/-- REGISTER_WRITE (00_scope R5). -/
def execRegisterWrite (p : HostPort) (addr val : Word) (s : State) : Out := .next (hostWrite p addr val s)
/-- RC_READ (00_scope R5). -/
def execRcRead (p : HostPort) (addr : Word) (s : State) : Out := .next (hostRead p addr s)
/-- SNAPSHOT_LOW_READ (19_events_counters R468). -/
def execSnapshotLowRead (p : HostPort) (c : WideCounter) (s : State) : Out := .next (hostRead p (word (lowAddr c)) s)
/-- QSTAT_READ (08_sump R195). -/
def execQstatRead (p : HostPort) (s : State) : Out := .next (hostRead p (word (RegKind.sumpQstat.addr 0)) s)
/-- GAUGE_MAX_CLR (05_speed_latency R112). -/
def execGaugeMaxClr (p : HostPort) (s : State) : Out :=
  .next (hostCommand p .speedGaugeCtrl 0 (s.actWord .speedGaugeCtrl 0 (bitWord 30)) gaugeMaxClear s)
/-- CLIENT_HOLD_WRITE (07_crushers R164). -/
def execClientHoldWrite (p : HostPort) (e : Fin 16) (i : Fin 4) (val : Word) (s : State) : Out :=
  .next (hostField p (holdReg i.val) e.val val (holdWrite e.val i.val val) s)
/-- STANDBY_EXIT_VCCF_READY (16_power R383, R390). -/
def execStandbyExitVccfReady (s : State) : Out :=
  .next (let t := standbyExit s
         if s.power.seq = .leavingStandby then resumeAccesses t else t)

end Sys2Proof.Machine
end

