-- ==== Sys2Proof/Machine/Jtag.lean ====
section
/-! DEFINITION. The test access port (17_pins R431 to R434): its instructions, register accesses, image words, one-time programming, and the debug owner of the banks. -/

namespace Sys2Proof.Machine

/-- The access port changed. -/
def State.withJtag (s : State) (f : Jtag → Jtag) : State := { s with jtag := f s.jtag }

/-- The banks of the mask pass to the debug owner, the others back (R434). -/
def takeBanks (s : State) : State := (List.range 12).foldl (fun s b => setDebug b (s.jtag.mask.getLsbD b) s) s

/-- The debug owner's outputs of the banks that it holds drive their pads (R420 steps 3 and 4). -/
def presentDebug (s : State) : State :=
  (List.range 720).foldl (fun s i => if s.pinOwner (i / 60) (i % 60) = .debug then releaseKeeper (i / 60) (i % 60) s else s) s

/-- An instruction is loaded (R431, R434). One that would take pins acts as BYPASS outside MAINTENANCE, and is marked refused. -/
def loadIr (ir : JtagIr) (s : State) : State :=
  if ir.takesPins then
    if s.power.mode = .maintenance then
      let s := takeBanks (s.withJtag fun j => { j with ir := ir, refused := false })
      -- HIGHZ has no Update-DR of the boundary register to wait for: the outputs are released at once
      if ir = .highz then presentDebug s else s
    else dropDebug (s.withJtag fun j => { j with ir := .bypass, refused := true })
  else dropDebug (s.withJtag fun j => { j with ir := ir, refused := false })

/-- TAP reset selects IDCODE and returns the banks (R431, R434). -/
def tapReset (s : State) : State := dropDebug (s.withJtag fun j => { j with ir := .idcode, refused := false })

/-- REGACC: an Update-DR of its 65 bits (R433). -/
def regacc (w : BitVec 65) (s : State) : State :=
  let s := loadIr .regacc s
  let addr := word (bitsOf 32 32 w.toNat)
  -- an access that a sleep holds has not completed
  let done := s.reach (addr.toNat / 4 * 4) ≠ .silent
  if w.getLsbD 64 then
    (hostWrite .jtag addr (word (bitsOf 0 32 w.toNat)) s).withJtag fun j => { j with regaccDone := done }
  else
    let s := hostRead .jtag addr s
    let v := (s.portBank .jtag).hostRead
    s.withJtag fun j => { j with regaccRead := if done then v else j.regaccRead, regaccDone := done }

/-- CFG_LOAD: an Update-DR delivers one image word as a write of `CFG_STREAM` does, while `SRC` is JTAG (R433). -/
def jtagImageWord (w : Word) (s : State) : State :=
  let s := loadIr .cfgLoad s
  if s.hostAnswers then streamWord .jtag w s else s

/-- The bits of a one-time-programmable word that exist: a digest's, or the revocation bits and `AUTH_REQUIRED` (R433). -/
def otpMask (i : Nat) : Word := if i < 48 then 0xFFFFFFFF else if i = 48 then 0x0000010F else 0

/-- The word being programmed takes its bits: bits cannot be cleared (R433). -/
def otpFinish (s : State) : State :=
  match s.conf.otpBusy with
  | some (i, w) => s.withConf fun c => { c with otp := tabMod 0 c.otp i (· ||| w), otpBusy := none }
  | none => s

/-- OTP_PROG in MAINTENANCE: an Update-DR with the right key begins programming (R433). A word still being programmed is finished
first, within its bound. -/
def otpProg (w : BitVec 64) (s : State) : State :=
  let s := loadIr .otpProg s
  let i := bitsOf 56 8 w.toNat
  if s.power.mode = .maintenance && bitsOf 40 16 w.toNat = 0x5E71 && i ≤ 48 then
    ((otpFinish s).withConf fun c => { c with otpBusy := some (i, word (bitsOf 0 32 w.toNat) &&& otpMask i) }).withJtag fun j =>
      { j with otpIndex := i }
  else s

/-- DEBUG_MASK in MAINTENANCE (R431, R434). -/
def debugMask (m : BitVec 12) (s : State) : State :=
  let s := loadIr .debugMask s
  if s.power.mode = .maintenance then s.withJtag fun j => { j with mask := m } else s

/-- The boundary-scan register is selected (R431). -/
def JtagIr.boundary : JtagIr → Bool
  | .extest | .sample | .extestPulse | .extestTrain => true
  | _ => false

/-- The pins that boundary scan captures: all but those with owner SECURE, whose captures read 0 (R416). -/
def State.scanned (s : State) : BitVec 720 :=
  BitVec.ofNat 720 ((List.range 720).foldl (fun n i => n + bitNat (baseOwner s.cfg (i / 60) (i % 60) ≠ .secure) * 2 ^ i) 0)

/-- A scan of the boundary-scan register: its capture cells hold the pads' levels, and at its Update-DR the cells named take their values;
the debug owner presents (R416, R420). -/
def boundaryUpdate (levels : BitVec 720) (vals : List (Nat × Bool × Bool)) (s : State) : State :=
  if s.jtag.ir.boundary then
    presentDebug (s.withJtag fun j =>
      { j with captured := levels &&& s.scanned
               boundary := vals.foldl (fun t v => tabSet (false, false) t v.1 v.2) j.boundary })
  else s

/-- What Capture-IR loads (R431): 01 in the low bits, MAINTENANCE in bit 2, a refused instruction in bit 3. -/
def State.irCapture (s : State) : BitVec 10 :=
  BitVec.ofNat 10 (1 + 4 * bitNat (s.power.mode = .maintenance) + 8 * bitNat s.jtag.refused)

/-- What Capture-DR loads under REGACC: the last read's data, and in bit 64 whether that access has completed (R433). -/
def State.regaccCapture (s : State) : BitVec 65 :=
  BitVec.ofNat 65 (s.jtag.regaccRead.toNat + bitNat s.jtag.regaccDone * 2 ^ 64)

/-- What Capture-DR loads under OTP_PROG: the word as read back, and in bit 63 whether programming is in progress (R433). -/
def State.otpCapture (s : State) : BitVec 64 :=
  BitVec.ofNat 64 ((tabGet 0 s.conf.otp s.jtag.otpIndex).toNat + bitNat s.conf.otpBusy.isSome * 2 ^ 63)

/-- What Capture-DR loads under IDCODE (R432). -/
def State.idCapture (s : State) : Word := s.reg .idcode 0

/-! ### Meanings -/

/-- TAP_RESET (R431). -/
def execTapReset (s : State) : Out := .next (tapReset s)
/-- EXTEST (R434). -/
def execExtest (s : State) : Out := .next (loadIr .extest s)
/-- IDCODE (R432). -/
def execIdcode (s : State) : Out := .next (loadIr .idcode s)
/-- SAMPLE_PRELOAD (R431). -/
def execSamplePreload (s : State) : Out := .next (loadIr .sample s)
/-- CLAMP (R434). -/
def execClamp (s : State) : Out := .next (loadIr .clamp s)
/-- HIGHZ (R434). -/
def execHighz (s : State) : Out := .next (loadIr .highz s)
/-- EXTEST_PULSE (R434). -/
def execExtestPulse (s : State) : Out := .next (loadIr .extestPulse s)
/-- EXTEST_TRAIN (R434). -/
def execExtestTrain (s : State) : Out := .next (loadIr .extestTrain s)
/-- REGACC (R433). -/
def execRegacc (w : BitVec 65) (s : State) : Out := .next (regacc w s)
/-- CFG_LOAD (R433). -/
def execCfgLoad (w : Word) (s : State) : Out := .next (jtagImageWord w s)
/-- OTP_PROG (R433). -/
def execOtpProg (w : BitVec 64) (s : State) : Out := .next (otpProg w s)
/-- OTP_PROGRAM_DONE (R433). -/
def execOtpProgramDone (s : State) : Out := .next (otpFinish s)
/-- DEBUG_MASK (R434). -/
def execDebugMask (m : BitVec 12) (s : State) : Out := .next (debugMask m s)
/-- BYPASS (R431). -/
def execBypass (s : State) : Out := .next (loadIr .bypass s)
/-- BOUNDARY_SCAN_UPDATE_DR (R420). Operands that name a cell twice, or one that no pin has, say nothing a sender can mean. -/
def execBoundaryScanUpdateDr (scan : BoundaryScan) (s : State) : Out :=
  if Instr.wf (.boundaryScanUpdateDr scan) then .next (boundaryUpdate scan.levels scan.vals s)
  else .fault (.illFormed "BOUNDARY_SCAN_UPDATE_DR")

end Sys2Proof.Machine
end

