-- ==== Sys2Proof/Machine/Patrol.lean ====
section
/-! DEFINITION. Patrol (16_power R393 to R397): periods, samples, baselines, touches and releases. -/

namespace Sys2Proof.Machine

/-- Patrol runs: enabled, outside DEEP SLEEP, its domain not held (R393). -/
def State.patrolRuns (s : State) : Bool := s.bit .patrolCtrl 0 31 && s.power.mode ≠ .deepSleep && !s.power.held

/-- Sensor `n` is touched. -/
def State.touched (s : State) (n : Nat) : Bool := s.bit .patrolCount n 12

/-- A period begins (R393), 32 · `PERIOD` ticks after the last: `PATROL_PERIODS` counts, and touches grow older. -/
def patrolPeriod (s : State) : State :=
  if s.patrolRuns && s.patrol.due ≤ s.clocks.aon then
    let v := s.reg .patrolPeriods 0 + 1
    let s := s.setReg .patrolPeriods 0 v
    let s := if v = 0 then flagPwr 7 s else s
    let sensors := (List.range 24).foldl (fun t n =>
      if s.touched n then tabMod {} t n fun x => { x with length := x.length + 1 } else t) s.patrol.sensors
    { s with patrol := { sensors := sensors, nextSensor := 0, due := s.clocks.aon + 32 * s.field .patrolCtrl 0 0 11 } }
  else s

/-- A sensor's record changed. -/
def modSensor (n : Nat) (f : Sensor → Sensor) (s : State) : State :=
  { s with patrol := { s.patrol with sensors := tabMod {} s.patrol.sensors n f } }

/-- The baseline after a valid sample of count `c`, with `d` of R395 and the sensor's state after R396. -/
def nextBase (b c shift : Nat) (d : Int) (touched : Bool) : Nat :=
  if d < 0 then 16 * c
  else if touched then b
  else (((b : Int) + (((16 * c : Nat) : Int) - b) / (2 ^ shift : Nat)) % 2 ^ 16).toNat

/-- R396: a touch or a release found, with the wake that it is for a sensor whose `WAKE` is 1. -/
def patrolFound (k : RegKind) (n : Fin 24) (s : State) : State :=
  let s := flagPatrol k n.val s
  if s.bit .patrolCfg n.val 30 then wakeLatch (.patrol n) s else s

/-- A valid sample (R394 to R396). -/
def validSample (n : Fin 24) (c : Nat) (s : State) : State :=
  let i := n.val
  let v := tabGet {} s.patrol.sensors i
  let f := fun lo len => s.field .patrolCfg i lo len
  let deb := f 28 2 + 1
  let b := if v.based then s.field .patrolCount i 16 16 else 16 * c
  let d : Int := (b / 16 : Nat) - (c : Nat)
  let was := s.touched i
  let above := if !was && decide ((f 8 8 : Int) ≤ d) then v.above + 1 else 0
  let below := if was && decide (d < (f 8 8 : Int) - f 16 4) then v.below + 1 else 0
  let touch := deb ≤ above
  let release := deb ≤ below
  let now := (was || touch) && !release
  let stuck := now && was && 0 < s.field .patrolCtrl 0 16 8 && 16 * s.field .patrolCtrl 0 16 8 ≤ v.length
  let b' := if !v.based || stuck then 16 * c else nextBase b c (f 25 3) d now
  let s := s.setReg .patrolCount i (word (place 16 16 b' + place 12 1 (bitNat (now && !stuck)) + place 0 12 c))
  let s := modSensor i (fun v =>
    { based := true, above := if touch then 0 else above, below := if release then 0 else below
      length := if now && was && !stuck then v.length else 0 }) s
  let s := if touch then patrolFound .patrolTouch n s else s
  let s := if release then patrolFound .patrolRel n s else s
  if stuck then flagPatrol .patrolStuck i s else s

/-- A sample of a sensor (R393, R394), in the ascending order of its period. -/
def patrolSample (n : Fin 24) (c : Nat) (s : State) : State :=
  let skipped := (List.range n.val).any fun m => s.patrol.nextSensor ≤ m && s.bit .patrolCfg m 31
  if s.patrolRuns && s.bit .patrolCfg n.val 31 && s.patrol.nextSensor ≤ n.val && !skipped then
    let s := { s with patrol := { s.patrol with nextSensor := n.val + 1 } }
    if maxCount (s.field .patrolCtrl 0 24 3) ≤ c ∨ c < 8 then
      flagPatrol .patrolFault n.val (modSensor n.val (fun v => { v with based := false }) s)
    else validSample n c s
  else s

/-- PATROL_PERIOD (R393). -/
def execPatrolPeriod (s : State) : Out := .next (patrolPeriod s)
/-- PATROL_SAMPLE (R394 to R396). -/
def execPatrolSample (n : Fin 24) (count : BitVec 12) (s : State) : Out := .next (patrolSample n count.toNat s)

end Sys2Proof.Machine
end

