-- ==== Sys2Proof/Machine/Pins.lean ====
section
/-! DEFINITION. The user pins: bank supplies, output tokens, the sampling modes, and the pin controller's counters (17_pins R411 to R436). -/

namespace Sys2Proof.Machine

/-- R411: a bank's supply leaves its limits. -/
def bankInvalid (b : Nat) (s : State) : State :=
  if (s.bank b).vmis then s
  else flagPin 0 (s.modBank b fun k => { k with valid := false, vmis := true })

/-- R411, R412: a bank's supply has been within its limits for 1 ms: the strap is sampled and the bank is released. -/
def bankValid (b : Nat) (strap : Bool) (s : State) : State :=
  if (s.bank b).valid then s
  else s.modBank b fun k => { k with valid := true, sampled := true, vmis := false, strap := strap }

/-- R424: the token on a pin's output channel updates the pad and is acknowledged. The gate of an isolated cavern shows the pad no
other token than one that stood there (01_architecture R21, R23). -/
def pinOutput (b n : Nat) (s : State) : State :=
  let a := attPin b n
  if s.pinFabric b n && pinBit s.cfg b n 17 && !(s.bankFloats b) && !(tabGet false s.power.padHold b) &&
      !s.power.retention && s.sysRuns then
    match s.outToken a with
    | some v =>
      let t := releaseKeeper b n (s.modPin b n fun p => { p with fabVal := bitAt 0 v, fabOe := bitAt 1 v })
      -- a token that stood at the gate of an isolated cavern: under HOLD the last output value, under FLOAT the pin floats
      let t := if s.isolated (bankCav b) then (if bitAt 28 (bankCfg s.cfg b) then captureKeeper b n t else s) else t
      gateProgress (t.setAttAck a true)
    | none => s
  else s

/-- A pin may offer a sample now. -/
def State.pinReady (s : State) (b n : Nat) : Bool :=
  s.pinSamples b n && (s.attIn (attPin b n)).ph = .idle && !(s.isolated (bankCav b))

/-- R421: a LEVEL sample is taken. -/
def levelSample (b n : Nat) (level : Bool) (s : State) : State :=
  if pinMode s.cfg b n = 1 && s.pinReady b n then offerSample b n level s else s

/-- `PIN_LOST` (R436). -/
def countPinLost (s : State) : State := countStat .pinLost 0 (flagPin 4) s

/-- R422: a strobe edge finds a pin's queue full. -/
def pinOverrun (b n : Nat) (s : State) : State :=
  let s := if n < 32 then s.setBits .pinOvrL b (bitWord n) else s.setBits .pinOvrH b (bitWord (n - 32))
  flagPin 1 (countPinLost s)

/-- R421, R422: an edge of a strobe pin samples the pins that name it. -/
def strobeEdge (b n : Nat) (rising : Bool) (levels : BitVec 60) (s : State) : State :=
  (List.range 60).foldl (fun s m =>
    if pinSpin s.cfg b m = n && pinMode s.cfg b m = (if rising then 2 else 3) && s.pinSamples b m then
      if 8 ≤ (s.pin b m).queue.length then pinOverrun b m s
      else offerQueued b m (s.modPin b m fun p => { p with queue := p.queue ++ [levels.getLsbD m] })
    else s) s

/-- R423 steps 1 and 4: REQ rises. -/
def reqRise (b n : Nat) (levels : BitVec 60) (s : State) : State :=
  let p := s.pin b n
  let g := groupPins s.cfg b n
  if g.isEmpty || !(s.pinSamples b n) then s
  else if p.ackHigh then flagPin 2 s
  else if p.reqHigh || !(g.all fun m => s.pinReady b m) then s
  else
    let s := s.modPin b n fun p => { p with reqHigh := true, sampled := true }
    g.foldl (fun s m => offerSample b m (levels.getLsbD m) s) s

/-- R423 step 2: every token of the sample has been transferred; the pad raises ACK. -/
def ackRaise (b n : Nat) (s : State) : State :=
  let p := s.pin b n
  if p.sampled && p.reqHigh && !p.ackHigh && s.pinSamples b n &&
      (groupPins s.cfg b n).all fun m => (s.attIn (attPin b m)).ph ≠ .offering then
    s.modPin b n fun p => { p with ackHigh := true }
  else s

/-- R423 steps 3 and 4: REQ falls. -/
def reqFall (b n : Nat) (s : State) : State :=
  let p := s.pin b n
  if (groupPins s.cfg b n).isEmpty || !(s.pinSamples b n) then s
  else if p.ackHigh then settleAck b n (s.modPin b n fun p => { p with reqHigh := false })
  else if p.reqHigh then flagPin 2 s
  else s

/-- The 7-bit address at which the I2C target answers, from the straps (R430). -/
def State.i2cAddress (s : State) : Nat := 0x58 + s.conf.hadr.toNat

/-- The commands of the SPI target (R428). -/
def spiCommands : List Nat := [0x02, 0x0B, 0x38, 0xEB]

/-- R429: an unknown SPI command. -/
def spiUnknown (cmd : Byte) (s : State) : State :=
  if spiCommands.contains cmd.toNat || !s.hostAnswers then s
  else flagPin 3 (countStat .pinHosterr 0 (flagPin 4) s)

/-! ### Meanings -/

/-- BANK_SUPPLY_INVALID (17_pins R411). -/
def execBankSupplyInvalid (b : Fin 12) (s : State) : Out := .next (bankInvalid b.val s)
/-- BANK_SUPPLY_VALID (17_pins R411, R412). -/
def execBankSupplyValid (b : Fin 12) (strap : Bool) (s : State) : Out := .next (bankValid b.val strap s)
/-- PIN_OUTPUT_TOKEN (17_pins R424). -/
def execPinOutputToken (b : Fin 12) (n : Fin 60) (s : State) : Out := .next (pinOutput b.val n.val s)
/-- LEVEL_SAMPLE (17_pins R421). -/
def execLevelSample (b : Fin 12) (n : Fin 60) (l : Bool) (s : State) : Out := .next (levelSample b.val n.val l s)
/-- STROBE_EDGE (17_pins R422). -/
def execStrobeEdge (b : Fin 12) (n : Fin 60) (r : Bool) (l : BitVec 60) (s : State) : Out := .next (strobeEdge b.val n.val r l s)
/-- HANDSHAKE_REQ_RISE (17_pins R423). -/
def execHandshakeReqRise (b : Fin 12) (n : Fin 60) (l : BitVec 60) (s : State) : Out := .next (reqRise b.val n.val l s)
/-- HANDSHAKE_ACK_RAISE (17_pins R423). -/
def execHandshakeAckRaise (b : Fin 12) (n : Fin 60) (s : State) : Out := .next (ackRaise b.val n.val s)
/-- HANDSHAKE_REQ_FALL (17_pins R423). -/
def execHandshakeReqFall (b : Fin 12) (n : Fin 60) (s : State) : Out := .next (reqFall b.val n.val s)
/-- SPI_UNKNOWN_COMMAND (17_pins R429). -/
def execSpiUnknownCommand (cmd : Byte) (s : State) : Out := .next (spiUnknown cmd s)
/-- I2C_SCL_TIMEOUT (17_pins R430): the target drops its transaction, of which nothing is held between commands. -/
def execI2cSclTimeout (s : State) : Out := .next s

end Sys2Proof.Machine
end

