-- ==== Sys2Proof/Machine/Dispatch.lean ====
section
/-! DEFINITION. The dispatch of commands: one arm per row of the table of operations and events. -/

namespace Sys2Proof.Machine

/-- The effect of a command on everything but the queue. -/
def exec (i : Instr) (s : State) : Host.Outcome State Fault Refusal :=
  match i with
  | .registerWrite p addr val => Sys2Proof.Machine.execRegisterWrite p addr val s
  | .rcRead p addr => Sys2Proof.Machine.execRcRead p addr s
  | .snapshotLowRead p c => Sys2Proof.Machine.execSnapshotLowRead p c s
  | .qstatRead p => Sys2Proof.Machine.execQstatRead p s
  | .powerOnReset boot hadr => Sys2Proof.Machine.execPowerOnReset boot hadr s
  | .cellEvaluate c => Sys2Proof.Machine.execCellEvaluate c s
  | .cellReturn c => Sys2Proof.Machine.execCellReturn c s
  | .latchCapture c l => Sys2Proof.Machine.execLatchCapture c l s
  | .latchTokenTransfer c l => Sys2Proof.Machine.execLatchTokenTransfer c l s
  | .latchRelease c l => Sys2Proof.Machine.execLatchRelease c l s
  | .latchInputReopen c l => Sys2Proof.Machine.execLatchInputReopen c l s
  | .ackNodeSwitch n => Sys2Proof.Machine.execAckNodeSwitch n s
  | .choiceGrant c => Sys2Proof.Machine.execChoiceGrant c s
  | .choiceGrantEnd c => Sys2Proof.Machine.execChoiceGrantEnd c s
  | .dualRailFault site => Sys2Proof.Machine.execDualRailFault site s
  | .pocketPortAccess p port => Sys2Proof.Machine.execPocketPortAccess p port s
  | .pocketHaulBlockAccess p block op => Sys2Proof.Machine.execPocketHaulBlockAccess p block op s
  | .pocketRestore => Sys2Proof.Machine.execPocketRestore s
  | .gaugeWindowEnd cav revs => Sys2Proof.Machine.execGaugeWindowEnd cav revs s
  | .gaugeMaxClr p => Sys2Proof.Machine.execGaugeMaxClr p s
  | .crusherSlot e ctx => Sys2Proof.Machine.execCrusherSlot e ctx s
  | .crusherSliceComplete e => Sys2Proof.Machine.execCrusherSliceComplete e s
  | .clientHoldWrite p e hold val => Sys2Proof.Machine.execClientHoldWrite p e hold val s
  | .sumpPush port q o => Sys2Proof.Machine.execSumpPush port q o s
  | .sumpCellCommit port cell => Sys2Proof.Machine.execSumpCellCommit port cell s
  | .sumpPop port q e0 e1 => Sys2Proof.Machine.execSumpPop port q e0 e1 s
  | .sumpFlush p q => Sys2Proof.Machine.execSumpFlush p q s
  | .sumpFlushDone q => Sys2Proof.Machine.execSumpFlushDone q s
  | .sumpRecoverClr p q => Sys2Proof.Machine.execSumpRecoverClr p q s
  | .staleTimerExpiry q => Sys2Proof.Machine.execStaleTimerExpiry q s
  | .laneQueueDrain lane e0 e1 => Sys2Proof.Machine.execLaneQueueDrain lane e0 e1 s
  | .portalEnqueue p => Sys2Proof.Machine.execPortalEnqueue p s
  | .portalDeliver p => Sys2Proof.Machine.execPortalDeliver p s
  | .islandCrossingTransfer x => Sys2Proof.Machine.execIslandCrossingTransfer x s
  | .multibitValueLoad x v => Sys2Proof.Machine.execMultibitValueLoad x v s
  | .multibitValueAccept x s1 s2 => Sys2Proof.Machine.execMultibitValueAccept x s1 s2 s
  | .eventCrossingArrival cls code => Sys2Proof.Machine.execEventCrossingArrival cls code s
  | .haulerStart p h => Sys2Proof.Machine.execHaulerStart p h s
  | .haulerStop p h => Sys2Proof.Machine.execHaulerStop p h s
  | .haulerResume p h => Sys2Proof.Machine.execHaulerResume p h s
  | .descriptorFetch h => Sys2Proof.Machine.execDescriptorFetch h s
  | .burstReadRequest m => Sys2Proof.Machine.execBurstReadRequest m s
  | .targetBeatStaged m => Sys2Proof.Machine.execTargetBeatStaged m s
  | .haulerBeat h => Sys2Proof.Machine.execHaulerBeat h s
  | .haulerPausePower h => Sys2Proof.Machine.execHaulerPausePower h s
  | .txpllLock lane => Sys2Proof.Machine.execTxpllLock lane s
  | .refclkLoss k => Sys2Proof.Machine.execRefclkLoss k s
  | .refclkBack k => Sys2Proof.Machine.execRefclkBack k s
  | .signalDetectRise lane => Sys2Proof.Machine.execSignalDetectRise lane s
  | .signalDetectFall lane => Sys2Proof.Machine.execSignalDetectFall lane s
  | .relock p lane => Sys2Proof.Machine.execRelock p lane s
  | .rxLockDone lane l0 l1 l2 l3 => Sys2Proof.Machine.execRxLockDone lane l0 l1 l2 l3 s
  | .cdrLockLoss lane => Sys2Proof.Machine.execCdrLockLoss lane s
  | .txIdleEntry lane => Sys2Proof.Machine.execTxIdleEntry lane s
  | .txIdleExit lane => Sys2Proof.Machine.execTxIdleExit lane s
  | .rxBurstCheck lane line => Sys2Proof.Machine.execRxBurstCheck lane line s
  | .patternGenSet p lane gen => Sys2Proof.Machine.execPatternGenSet p lane gen s
  | .patternChkSet p lane chk => Sys2Proof.Machine.execPatternChkSet p lane chk s
  | .checkerSync lane => Sys2Proof.Machine.execCheckerSync lane s
  | .checkerSyncLoss lane line => Sys2Proof.Machine.execCheckerSyncLoss lane line s
  | .injOne p lane => Sys2Proof.Machine.execInjOne p lane s
  | .injRateInjection lane => Sys2Proof.Machine.execInjRateInjection lane s
  | .patCounterClear p lane => Sys2Proof.Machine.execPatCounterClear p lane s
  | .marginWrite p lane val => Sys2Proof.Machine.execMarginWrite p lane val s
  | .loopbackChange p lane loop => Sys2Proof.Machine.execLoopbackChange p lane loop s
  | .eqOverrideWrite p lane val => Sys2Proof.Machine.execEqOverrideWrite p lane val s
  | .rxBlock lane line => Sys2Proof.Machine.execRxBlock lane line s
  | .txBlock lane => Sys2Proof.Machine.execTxBlock lane s
  | .blockLock lane => Sys2Proof.Machine.execBlockLock lane s
  | .blockLockLoss lane => Sys2Proof.Machine.execBlockLockLoss lane s
  | .codewordDecode lane line => Sys2Proof.Machine.execCodewordDecode lane line s
  | .trainBlockReceive lane => Sys2Proof.Machine.execTrainBlockReceive lane s
  | .trainComplete lane => Sys2Proof.Machine.execTrainComplete lane s
  | .linkRetrainWrite p lane => Sys2Proof.Machine.execLinkRetrainWrite p lane s
  | .linkResetWrite p lane => Sys2Proof.Machine.execLinkResetWrite p lane s
  | .linkDisable p lane => Sys2Proof.Machine.execLinkDisable p lane s
  | .linkDownTimeout lane => Sys2Proof.Machine.execLinkDownTimeout lane s
  | .downBlockReceive lane => Sys2Proof.Machine.execDownBlockReceive lane s
  | .hpdIn b => Sys2Proof.Machine.execHpdIn b s
  | .hpdOut b => Sys2Proof.Machine.execHpdOut b s
  | .sdModeBurst lane => Sys2Proof.Machine.execSdModeBurst lane s
  | .aditFrameSend lane => Sys2Proof.Machine.execAditFrameSend lane s
  | .aditFrameReceive lane => Sys2Proof.Machine.execAditFrameReceive lane s
  | .ackBlockSend lane => Sys2Proof.Machine.execAckBlockSend lane s
  | .ackReceive lane => Sys2Proof.Machine.execAckReceive lane s
  | .nakReceive lane => Sys2Proof.Machine.execNakReceive lane s
  | .replayTimeout lane => Sys2Proof.Machine.execReplayTimeout lane s
  | .hostMailboxPost p w0 => Sys2Proof.Machine.execHostMailboxPost p w0 s
  | .mailboxRelease p n => Sys2Proof.Machine.execMailboxRelease p n s
  | .fabricMailboxMessage n => Sys2Proof.Machine.execFabricMailboxMessage n s
  | .ping m => Sys2Proof.Machine.execPing m s
  | .getStatus m => Sys2Proof.Machine.execGetStatus m s
  | .abort m => Sys2Proof.Machine.execAbort m s
  | .fwInfo m => Sys2Proof.Machine.execFwInfo m s
  | .get m => Sys2Proof.Machine.execGet m s
  | .set m => Sys2Proof.Machine.execSet m s
  | .paramInfo m => Sys2Proof.Machine.execParamInfo m s
  | .domainDown m => Sys2Proof.Machine.execDomainDown m s
  | .domainDownForced m => Sys2Proof.Machine.execDomainDownForced m s
  | .domainUp m => Sys2Proof.Machine.execDomainUp m s
  | .domainResume m => Sys2Proof.Machine.execDomainResume m s
  | .domainOffReport d => Sys2Proof.Machine.execDomainOffReport d s
  | .domainOnReport d => Sys2Proof.Machine.execDomainOnReport d s
  | .setMode m => Sys2Proof.Machine.execSetMode m s
  | .setModeForced m => Sys2Proof.Machine.execSetModeForced m s
  | .cavernReinit m => Sys2Proof.Machine.execCavernReinit m s
  | .cavernRevert m => Sys2Proof.Machine.execCavernRevert m s
  | .sealedLoad m => Sys2Proof.Machine.execSealedLoad m s
  | .storeWrite m => Sys2Proof.Machine.execStoreWrite m s
  | .storeCommit m => Sys2Proof.Machine.execStoreCommit m s
  | .crCounters m => Sys2Proof.Machine.execCrCounters m s
  | .crReinit m => Sys2Proof.Machine.execCrReinit m s
  | .qFlush m => Sys2Proof.Machine.execQFlush m s
  | .qDesc m => Sys2Proof.Machine.execQDesc m s
  | .qCounters m => Sys2Proof.Machine.execQCounters m s
  | .ramWrite m => Sys2Proof.Machine.execRamWrite m s
  | .ramRead m => Sys2Proof.Machine.execRamRead m s
  | .haulCopy m => Sys2Proof.Machine.execHaulCopy m s
  | .bistRun m => Sys2Proof.Machine.execBistRun m s
  | .bistRunForcedLane m => Sys2Proof.Machine.execBistRunForcedLane m s
  | .faultLog m => Sys2Proof.Machine.execFaultLog m s
  | .lockstepMismatch cause => Sys2Proof.Machine.execLockstepMismatch cause s
  | .watchdogExpiry => Sys2Proof.Machine.execWatchdogExpiry s
  | .foremanRestartComplete => Sys2Proof.Machine.execForemanRestartComplete s
  | .loadWindowEnd pct => Sys2Proof.Machine.execLoadWindowEnd pct s
  | .loadPeakClr p => Sys2Proof.Machine.execLoadPeakClr p s
  | .progNPulse ns => Sys2Proof.Machine.execProgNPulse ns s
  | .cfgReprog p key => Sys2Proof.Machine.execCfgReprog p key s
  | .cfgStreamWrite p w => Sys2Proof.Machine.execCfgStreamWrite p w s
  | .loadHeader => Sys2Proof.Machine.execLoadHeader s
  | .loadRecord => Sys2Proof.Machine.execLoadRecord s
  | .loadFrame => Sys2Proof.Machine.execLoadFrame s
  | .loadTrailer => Sys2Proof.Machine.execLoadTrailer s
  | .loadRun => Sys2Proof.Machine.execLoadRun s
  | .icpImageToken => Sys2Proof.Machine.execIcpImageToken s
  | .icpLibReference => Sys2Proof.Machine.execIcpLibReference s
  | .icpCommit => Sys2Proof.Machine.execIcpCommit s
  | .icpAbort => Sys2Proof.Machine.execIcpAbort s
  | .quietEntry => Sys2Proof.Machine.execQuietEntry s
  | .quietExit => Sys2Proof.Machine.execQuietExit s
  | .standbyRetentionReached => Sys2Proof.Machine.execStandbyRetentionReached s
  | .wakeLatch src => Sys2Proof.Machine.execWakeLatch src s
  | .alarmMatch => Sys2Proof.Machine.execAlarmMatch s
  | .standbyExitVccfReady => Sys2Proof.Machine.execStandbyExitVccfReady s
  | .sleepRailsOff => Sys2Proof.Machine.execSleepRailsOff s
  | .sleepWakeRailsOn => Sys2Proof.Machine.execSleepWakeRailsOn s
  | .wakePgfailRetry => Sys2Proof.Machine.execWakePgfailRetry s
  | .padRelease p banks => Sys2Proof.Machine.execPadRelease p banks s
  | .patrolPeriod => Sys2Proof.Machine.execPatrolPeriod s
  | .patrolSample n count => Sys2Proof.Machine.execPatrolSample n count s
  | .sysPointRequest p req => Sys2Proof.Machine.execSysPointRequest p req s
  | .sysPointChangeDone => Sys2Proof.Machine.execSysPointChangeDone s
  | .sysRaiseTimeout => Sys2Proof.Machine.execSysRaiseTimeout s
  | .vccfSet p mv => Sys2Proof.Machine.execVccfSet p mv s
  | .vccfQuietSet p mv => Sys2Proof.Machine.execVccfQuietSet p mv s
  | .pmbusPoll rail r => Sys2Proof.Machine.execPmbusPoll rail r s
  | .regRetry rail first second => Sys2Proof.Machine.execRegRetry rail first second s
  | .pmbAlert rail status => Sys2Proof.Machine.execPmbAlert rail status s
  | .tempRead highest => Sys2Proof.Machine.execTempRead highest s
  | .thermalTrip => Sys2Proof.Machine.execThermalTrip s
  | .supplyFault rail => Sys2Proof.Machine.execSupplyFault rail s
  | .supplyRecover rail => Sys2Proof.Machine.execSupplyRecover rail s
  | .aonTicksWrap => Sys2Proof.Machine.execAonTicksWrap s
  | .timestampWrap => Sys2Proof.Machine.execTimestampWrap s
  | .bankSupplyInvalid b => Sys2Proof.Machine.execBankSupplyInvalid b s
  | .bankSupplyValid b strap => Sys2Proof.Machine.execBankSupplyValid b strap s
  | .pinOutputToken b n => Sys2Proof.Machine.execPinOutputToken b n s
  | .levelSample b n level => Sys2Proof.Machine.execLevelSample b n level s
  | .strobeEdge b n rising levels => Sys2Proof.Machine.execStrobeEdge b n rising levels s
  | .handshakeReqRise b n levels => Sys2Proof.Machine.execHandshakeReqRise b n levels s
  | .handshakeAckRaise b n => Sys2Proof.Machine.execHandshakeAckRaise b n s
  | .handshakeReqFall b n => Sys2Proof.Machine.execHandshakeReqFall b n s
  | .spiUnknownCommand cmd => Sys2Proof.Machine.execSpiUnknownCommand cmd s
  | .i2cSclTimeout => Sys2Proof.Machine.execI2cSclTimeout s
  | .tapReset => Sys2Proof.Machine.execTapReset s
  | .extest => Sys2Proof.Machine.execExtest s
  | .idcode => Sys2Proof.Machine.execIdcode s
  | .samplePreload => Sys2Proof.Machine.execSamplePreload s
  | .clamp => Sys2Proof.Machine.execClamp s
  | .highz => Sys2Proof.Machine.execHighz s
  | .extestPulse => Sys2Proof.Machine.execExtestPulse s
  | .extestTrain => Sys2Proof.Machine.execExtestTrain s
  | .regacc w => Sys2Proof.Machine.execRegacc w s
  | .cfgLoad w => Sys2Proof.Machine.execCfgLoad w s
  | .otpProg w => Sys2Proof.Machine.execOtpProg w s
  | .otpProgramDone => Sys2Proof.Machine.execOtpProgramDone s
  | .debugMask m => Sys2Proof.Machine.execDebugMask m s
  | .bypass => Sys2Proof.Machine.execBypass s
  | .bistTestEnd type target sig count => Sys2Proof.Machine.execBistTestEnd type target sig count s
  | .scrubVisit cls fixed bad => Sys2Proof.Machine.execScrubVisit cls fixed bad s
  | .scrubVoteCorrect r fa fb fc => Sys2Proof.Machine.execScrubVoteCorrect r fa fb fc s
  | .fabricEventToken k => Sys2Proof.Machine.execFabricEventToken k s
  | .eventHistoryCopy => Sys2Proof.Machine.execEventHistoryCopy s
  | .wakePowerGoodTimeout => Sys2Proof.Machine.execWakePowerGoodTimeout s
  | .startupSelfTestTimeout => Sys2Proof.Machine.execStartupSelfTestTimeout s
  | .foremanWheelSlot => Sys2Proof.Machine.execForemanWheelSlot s
  | .eventCrossingDelivery cls code => Sys2Proof.Machine.execEventCrossingDelivery cls code s
  | .storeProgrammingDone ok => Sys2Proof.Machine.execStoreProgrammingDone ok s
  | .boundaryScanUpdateDr scan => Sys2Proof.Machine.execBoundaryScanUpdateDr scan s
  | .vaonLoss => Sys2Proof.Machine.execVaonLoss s

end Sys2Proof.Machine
end

