-- ==== Sys2Proof/Safety.lean ====
section
/-! DEFINITION. What counts as a safe step and a sound state: the block goes on, its memories are in canonical form, its clock
counts and logs stay within what the spec gives them, and one-time-programmable bits stay programmed. -/

namespace Sys2Proof

open Sys2Proof.Machine

/-- A step that answers a next state. -/
def goesOn (o : Host.Outcome State Fault Refusal) : Bool :=
  match o with
  | .next _ => true
  | _ => false

/-- The Foreman's RAM, the image store, the one-time-programmable memory and the Pockets' rows are in their canonical form:
addresses strictly rising, no entry equal to what an unlisted address reads as. -/
def MemoriesCanonical (s : State) : Prop :=
  memWf ramFill s.foreman.ram = true ∧ memWf storeFill s.conf.store = true ∧ tabWf 0 s.conf.otp = true ∧
    tabWf 0 s.pockets.rows = true

/-- The timestamp is a 64-bit multiple of 10 (19_events_counters R465), and the share of a SYSCLK period that has passed is less
than a whole one. -/
def ClocksSound (s : State) : Prop :=
  s.clocks.stamp % 10 = 0 ∧ s.clocks.stamp < 2 ^ 64 ∧ s.clocks.phase < 60

/-- The fault log holds 64 entries at most (18_self_test_faults R454), and the Foreman's event queue 32 (19_events_counters R464). -/
def LogsBounded (s : State) : Prop := s.flog.entries.length ≤ 64 ∧ s.history.queue.length ≤ 32

/-- Every bit of the one-time-programmable memory that is programmed in `s` is programmed in `t`. -/
def OtpKept (s t : State) : Prop := ∀ i, tabGet 0 t.conf.otp i &&& tabGet 0 s.conf.otp i = tabGet 0 s.conf.otp i

/-- A state without its registers and without what has met them in the clock that runs: the parts that a write of a register may change.
Two states agree here when nothing else differs. -/
def besideRegs (s : State) : State := { s with regs := [], fresh := {} }

/-- A state without its registers, what has met them in this clock, its Foreman's event queue, and the events that wait at the crossings
between clock domains: the parts that setting flags and raising events may change. -/
def besideFlags (s : State) : State :=
  besideRegs { s with history := { s.history with queue := [] }, crossings := { s.crossings with offered := [] } }

/-- The fault log holds an entry of this time with this first word, after every entry but those of the same time with a larger code
(18_self_test_faults R454, R456). -/
def Logged (w : Word) (s t : State) : Prop :=
  ∃ i, i < 64 ∧ t.flog.entries[i]? = some (w, word s.clocks.stamp) ∧
    ∀ e ∈ t.flog.entries.drop (i + 1), e.2 = word s.clocks.stamp ∧ bitsOf 24 8 w.toNat < bitsOf 24 8 e.1.toNat

/-- The addresses of the registers that raising an event may write: `EVT_PEND`, `EVT_MERGED` and `EVT_OVF`
(19_events_counters R459, R462, R463). -/
def eventRegister (a : Nat) : Bool := (decide (0x20000 ≤ a) && decide (a < 0x20030)) || a == 0x200C8 || a == 0x200CC

/-- Every stored register beside the addresses in `written` and the registers that raising an event may write is the same. -/
def RegsKept (written : List Nat) (s t : State) : Prop :=
  ∀ a d, a ∉ written → eventRegister a = false → tabGet d t.regs a = tabGet d s.regs a

/-- What is stored stays: the configuration cells in force, the image store, the one-time-programmable memory, the Foreman's RAM and
the Pockets' rows. -/
def StoredKept (s t : State) : Prop :=
  t.cfg = s.cfg ∧ t.conf.store = s.conf.store ∧ t.conf.otp = s.conf.otp ∧ t.foreman.ram = s.foreman.ram ∧
    t.pockets.rows = s.pockets.rows

/-- Every attachment of the fabric but `a` stands as it did, and so do cells, acknowledge nodes and choice elements. -/
def OthersAttached (a : Nat) (s t : State) : Prop :=
  t.fabric.cells = s.fabric.cells ∧ t.fabric.nodes = s.fabric.nodes ∧ t.fabric.choices = s.fabric.choices ∧
    ∀ b, b ≠ a → t.attIn b = s.attIn b ∧ tabGet false t.fabric.attAck b = tabGet false s.fabric.attAck b

/-- A Pocket's handshake port can take a command (06_pockets R123, R126): its cavern's interior moves, the port is on and not blocked,
its last response token is transferred, and the Pocket awaits no restore. -/
def PortReady (s : State) (cav idx port : Nat) : Prop :=
  s.interiorLive cav = true ∧ pocketWidthCode s.cfg cav idx port ≠ 0 ∧
    (tabGet {} s.pockets.ports ((cav * 112 + idx) * 2 + port)).blocked = false ∧
    (s.attIn (attPocket cav idx port)).ph = .idle ∧ s.pockets.restoring.contains (cav * 112 + idx) = false

/-- A cavern frozen (01_architecture R28, 02_token_contract R54): the cause FREEZE is set, the source is recorded where it was not
frozen already, the fault log holds an entry of the code, no other cavern's causes change, and what is stored and every block
that a freeze does not act on stay as they are. -/
def FrozenBy (c fpocket code : Nat) (s t : State) : Prop :=
  (t.cav c).freeze = true ∧ ((s.cav c).freeze = false → (t.cav c).fpocket = BitVec.ofNat 8 fpocket) ∧
    (∃ inst, inst < 2 ^ 24 ∧ Logged (word (place 24 8 code + inst)) s t) ∧
    (∀ d, d ≠ c → t.cav d = s.cav d) ∧ StoredKept s t ∧
    besideFlags { t with cavs := s.cavs, pins := s.pins, sump := s.sump, flog := s.flog, test := s.test, fabric := s.fabric,
                         pockets := s.pockets } = besideFlags s ∧
    t.fabric.nodes = s.fabric.nodes ∧ t.fabric.choices = s.fabric.choices

/-- The registers that the Sump's checks and ends of packets may write: `SUMP_EVT`, its counters and `SUMP_OVF` (08_sump R193,
R194). -/
def sumpRegisters : List Nat :=
  [RegKind.sumpEvt.addr 0, RegKind.sumpCntFull.addr 0, RegKind.sumpCntNodesc.addr 0, RegKind.sumpCntRewind.addr 0,
    RegKind.sumpCntTrunc.addr 0, RegKind.sumpCntFlushed.addr 0, RegKind.sumpCntStale.addr 0, RegKind.sumpCntCorr.addr 0,
    RegKind.sumpCntUncorr.addr 0, RegKind.sumpCntSeqerr.addr 0, RegKind.sumpCntEmpty.addr 0, RegKind.sumpOvf.addr 0]

/-- A statistics counter advances by one and saturates at all ones (19_events_counters R467). -/
def CountedOne (k : RegKind) (i : Nat) (s t : State) : Prop :=
  (t.reg k i).toNat = min ((s.reg k i).toNat + 1) (2 ^ 32 - 1)

/-- A statistics counter advances by `n` and saturates at all ones (19_events_counters R467). -/
def CountedMany (k : RegKind) (i n : Nat) (s t : State) : Prop :=
  (t.reg k i).toNat = min ((s.reg k i).toNat + n) (2 ^ 32 - 1)

/-- Of the portals, only places in bursts and pauses that wait for their ends have changed (08_sump R192). -/
def BurstsOnly (s t : State) : Prop :=
  ∀ p, t.portal p = { s.portal p with
    burst := (t.portal p).burst, pausing := (t.portal p).pausing, paused := (t.portal p).paused }

/-- Every queue of the Sump but `q` is as it was. -/
def OtherQueues (q : Nat) (s t : State) : Prop := ∀ r, r ≠ q → t.queue r = s.queue r

/-- A cell that a push accepted: the head of the free list, holding that beat, counted against its queue's quota from here
(08_sump R178). -/
def TookCell (port q c : Nat) (b : SumpBeat) (d : Option Nat) (full : Bool) (s t : State) : Prop :=
  (s.sump.freshCell < 32768 → c = s.sump.freshCell ∧ t.sump.freshCell = s.sump.freshCell + 1) ∧
    (32768 ≤ s.sump.freshCell → s.sump.freeCells = c :: t.sump.freeCells) ∧
    t.scell c = { beats := [b], queue := q, port := port, desc := d, full := full } ∧
    (t.queue q).held = (s.queue q).held + 1 ∧ ∀ e, e ≠ c → t.scell e = s.scell e

/-- A pop of a queue from a port, for who takes its beats (08_sump R184, R191): of a disabled queue, or from a port that may not pop, or
one that finds no cell to read, one not-valid beat, counted in `SUMP_CNT_EMPTY`, and the queue does not change; `PEND` is 1 only where an
enabled queue holds a cell. Otherwise the oldest committed cell of a stream queue, or the next cell of the head visible packet, leaves its
queue and is given back at the end of the clock, its beats with `ERR` where the error logic finds an uncorrectable group, each group
counted; popping the last cell of a packet frees its descriptor. What is popped waits for the cell's bank (R168). -/
def PopsAt (port q : Nat) (e0 e1 : BeatFound) (dest : PopTo) (s t : State) : Prop :=
  let may := qEn s.cfg q = true ∧ qMayPop s.cfg q port = true
  let gets := fun (c : Option Nat) (bs : List SumpBeat) =>
    t.sump.reads = s.sump.reads ++ [{ port := port, cell := c, beats := bs, dest := dest }]
  let nothing := fun (pend : Bool) =>
    gets none [notValidBeat pend] ∧ CountedOne .sumpCntEmpty 0 s t ∧ t.queue q = s.queue q ∧ t.sump.gone = s.sump.gone
  let head := fun (c : Nat) => (s.scell c).err0 ||| e0.bad
  let second := fun (c : Nat) => if 1 < (s.scell c).beats.length then (s.scell c).err1 ||| e1.bad else 0
  (¬ may → nothing false) ∧
  (may → (qPkt s.cfg q = true ∧ (s.queue q).vis = []) ∨ (qPkt s.cfg q = false ∧ (s.queue q).stream = []) →
    nothing (s.holdsCell q)) ∧
  (∀ c rest, may → qPkt s.cfg q = false → (s.queue q).stream = c :: rest →
    ((s.scell c).committed = false → nothing (s.holdsCell q)) ∧
    ((s.scell c).committed = true →
      gets (some c) (popBeats (s.scell c).beats (head c ≠ 0) false none) ∧
      (t.queue q).stream = rest ∧ t.sump.gone = s.sump.gone ++ [c] ∧ (t.queue q).timer = 0 ∧
      (t.queue q).bytesOut = min ((s.queue q).bytesOut + ((s.scell c).beats.map SumpBeat.bytes).sum) (2 ^ 64 - 1) ∧
      CountedMany .sumpCntCorr 0 (bitCount (e0.corrected &&& ~~~ head c)) s t ∧ CountedMany .sumpCntUncorr 0 (bitCount (head c)) s t)) ∧
  (∀ d more c rest, may → qPkt s.cfg q = true → (s.queue q).vis = d :: more → (s.desc d).cells = c :: rest →
    ((s.scell c).committed = false → nothing (s.holdsCell q)) ∧
    ((s.scell c).committed = true →
      gets (some c) (popBeats (s.scell c).beats (head c ≠ 0) (second c ≠ 0) (some (s.desc d))) ∧
      c ∈ t.sump.gone ∧ (t.desc d).cells = (if (s.scell c).beats.any SumpBeat.eop then [] else rest) ∧ (t.queue q).timer = 0 ∧
      ((s.scell c).beats.any SumpBeat.eop = true → d ∉ (t.queue (s.desc d).queue).vis ∧ d ∈ t.sump.goneDescs) ∧
      CountedMany .sumpCntUncorr 0 (bitCount (head c) + bitCount (second c)) s t)) ∧
  (∀ d more, may → qPkt s.cfg q = true → (s.queue q).vis = d :: more → (s.desc d).cells = [] →
    ((s.desc d).trunc = false → nothing (s.holdsCell q)) ∧
    ((s.desc d).trunc = true →
      gets none [{ data := 0, tag := sumpTag false false true true (s.desc d).mark false false false true 0 }] ∧ d ∈ t.sump.goneDescs)) ∧
  t.sump.moved = s.sump.moved ++ [(port, true, q)] ∧
  t.sump.cells = s.sump.cells ∧ RegsKept (RegKind.scrubEvt.addr 0 :: RegKind.flogLostCnt.addr 0 :: sumpRegisters) s t ∧
  besideFlags { t with sump := s.sump, flog := s.flog } = besideFlags s

/-- A master of the haul road moved on, and nothing else: the other masters stand, and of the registers only that channel's own change
(10_haulers R241). Master 64, the Foreman, has none. -/
def MasterOnly (m : Nat) (s t : State) : Prop :=
  (∀ k, k ≠ m → t.master k = s.master k) ∧
    RegsKept (if m < 64 then [RegKind.hchStatus, .hchCur, .hchLeft, .hchErraddr, .hchTag, .hchRetry, .hchEvt].map fun k => k.addr m
      else []) s t ∧
    besideFlags { t with haul := s.haul } = besideFlags s

/-- A slot of a transfer of sequential elements into the shared RAM (10_haulers R222, R227): with a whole destination beat in hand, the
staged source beat, if there is one and the beat wants it, taken first, its bytes and no others are written, and the master moves on past
them. -/
def MovesBeat (m : Nat) (s : State) (o : Out) : Prop :=
  let v := s.master m
  let v0 := match v.staged with | b :: _ => if v.wants then takeSeq v b false else v | [] => v
  let nb := v.beatEnd v.db
  let v1 := convert (8 * (nb - v.db)) 1024 v0
  ∀ off e, s.slotFree m = true → v.st = 2 → v.burst = some e → v.stop = false → v.failed = none → v.ixm = 0 → v.pkt = false → v.popsSource = false →
    (targetOf v.dst).memory = true → targetOf (v.dst + v.db) = .ram off → nb < v.extent →
    (∀ b rest, v.staged = b :: rest → b.nv = false ∧ b.code = 0 ∧ b.kind = .seq ∧ b.err = false ∧ b.bad = false ∧ b.eop = false) →
    8 * (nb - v.db) ≤ v1.outLen →
    ∃ t, o = .next t ∧
      t.foreman.ram = memWrite ramFill s.foreman.ram off (bytesOf (v1.out % 2 ^ (8 * (nb - v.db))) (nb - v.db)) ∧
      (t.master m).db = nb ∧ (t.master m).sb = v0.sb ∧ (t.master m).left = v.count - v.movedAt nb ∧
      t.haul.used = s.clocks.sys + 1 ∧ MasterOnly m { s with foreman := { s.foreman with ram := t.foreman.ram } } t

/-- An access on a port that had no effect is recorded in `GSTAT` and, unless a port that comes later in the order of one clock has done so
in this clock, in `GSTAT_ADDR` (20_register_map R474, R476); nothing else changes. -/
def AccessNoted (p : HostPort) (b a : Nat) (s t : State) : Prop :=
  t.reg .gstat 0 = s.reg .gstat 0 ||| bitWord b ∧
    t.reg .gstatAddr 0 = (if s.outranked (writerRank p) (RegKind.gstatAddr.addr 0) then s.reg .gstatAddr 0 else word a) ∧
    (∀ x d, x ≠ RegKind.gstat.addr 0 → x ≠ RegKind.gstatAddr.addr 0 → tabGet d t.regs x = tabGet d s.regs x) ∧
    besideRegs t = besideRegs s

/-- What a host write to a register does where it does not reach it (20_register_map R474, R475, 16_power R390): to a lane whose bench is
off it sets `GSTAT.ACC_OFF` with the address, unless a port later in the order of R476 has set it in this clock; in STANDBY the I2C target
and the access port hold one write each until the exit; and otherwise it does nothing. -/
def WriteTurnedAway (p : HostPort) (k : RegKind) (i : Nat) (val : Word) (s : State) (o : Out) : Prop :=
  (s.reach (k.addr i) = .off → ∃ t, o = .next t ∧ AccessNoted p 0 (k.addr i) s t) ∧
  (s.reach (k.addr i) = .silent → s.heldStandby p = true → (s.power.waiting.all fun w => decide (w.1 ≠ p)) = true →
    o = .next { s with power := { s.power with waiting := s.power.waiting ++ [(p, word (k.addr i), some val)] } }) ∧
  (s.reach (k.addr i) = .silent → s.heldStandby p = false ∨ (s.power.waiting.any fun w => decide (w.1 = p)) = true → o = .next s) ∧
  (s.reach (k.addr i) = .held → o = .next s)

/-- What a host command does that gives read-write fields of a register their values, where it does not take them: what `WriteTurnedAway`
says, and where a port that comes later in the order of one clock has written the register in this clock, only a reserved bit of it is
recorded (20_register_map R474, R476). -/
def FieldTurnedAway (p : HostPort) (k : RegKind) (i : Nat) (val : Word) (s : State) (o : Out) : Prop :=
  let late := s.reach (k.addr i) = .open ∧ s.outranked (writerRank p) (k.addr i) = true
  WriteTurnedAway p k i val s o ∧ (late → val &&& ~~~ k.writable i = 0 → o = .next s) ∧
    (late → val &&& ~~~ k.writable i ≠ 0 → ∃ t, o = .next t ∧ AccessNoted p 1 (k.addr i) s t)

/-- A host command that gives fields of a register their values takes them. -/
def FieldTaken (p : HostPort) (k : RegKind) (i : Nat) (s : State) : Prop :=
  s.reach (k.addr i) = .open ∧ s.outranked (writerRank p) (k.addr i) = false

/-- One lane and the registers named changed, and nothing else: the lane's own registers of the kinds `own`, and those at `more`. -/
def LaneOnly (n : Nat) (own : List RegKind) (more : List Nat) (s t : State) : Prop :=
  (∀ k, k ≠ n → t.lane k = s.lane k) ∧ RegsKept (own.map (fun k => k.addr n) ++ more) s t ∧
    besideFlags { t with lanes := s.lanes } = besideFlags s

/-- Line symbols sent by a lane (11_lane_electrical R253, R272): the filter's outputs are those of the transmit entry in force, or nominal
in near serial loopback; each needs the symbol after it, so that the last waits. -/
def LineSent (n : Nat) (syms : List Nat) (s t : State) : Prop :=
  let l := (s.lane n).tx.tail ++ syms.map (levelOf (lnPam4 s.cfg n))
  let tap := fun (lo len : Nat) => (beqBits s.cfg (s.field .lnEq n 10 6) lo len : Int)
  (t.lane n).tx.line = syms ∧ (t.lane n).tx.tail = l.drop (l.length - 2) ∧
    (t.lane n).tx.fir = (if s.loop n = 1 then firOut 0 64 0 l else firOut (tap 0 5) (tap 5 6) (tap 11 5) l)

/-- A training burst sent (11_lane_electrical R247, R264): nothing else of the transmitter changes, and the precoder starts afresh. -/
def BurstSent (n : Nat) (s t : State) : Prop :=
  LineSent n ((burstSymbols (lnPam4 s.cfg n)).map (invertSymbol (lnPam4 s.cfg n) (lnCfg s.cfg n 17 1 = 1))) s t ∧
    (t.lane n).tx = { (s.lane n).tx with
      bursts := (s.lane n).tx.bursts + 1, pre := 0
      line := (t.lane n).tx.line, tail := (t.lane n).tx.tail, fir := (t.lane n).tx.fir }

/-- The receiver of a lane has begun a lock (11_lane_electrical R256, R260, R268): nothing is locked, the checker searches, and the
transmitter's equaliser entry is in force; where the receiver hears something, its entry too, and receive idle has ended. -/
def LockBegun (n : Nat) (s t : State) : Prop :=
  let r := (t.lane n).rx
  let entry := fun (ov im : Nat) => if s.bit .lnEq n 0 then s.field .lnEq n ov 6 else lnCfg s.cfg n im 6
  t.ready n = false ∧ t.bit .lnPmaStatus n 2 = false ∧ t.bit .lnPmaStatus n 3 = false ∧ t.bit .lnPatStatus n 0 = false ∧
    r.locking = true ∧ r.heard = s.hears n ∧ r.chk = 0 ∧ r.chkRun = 0 ∧ r.chkErr = 0 ∧
    t.field .lnEq n 10 6 = entry 26 26 ∧
    (s.hears n = true → r.lost = false ∧ t.bit .lnPmaStatus n 6 = false ∧ t.field .lnEq n 4 6 = entry 20 20) ∧
    (s.hears n = false → r.lost = (s.lane n).rx.lost ∧ t.bit .lnPmaStatus n 6 = s.bit .lnPmaStatus n 6 ∧
      t.field .lnEq n 4 6 = s.field .lnEq n 4 6)

/-- The registers of a lane that a lock, a retrain or a change of the link state may write. -/
def linkRegisters : List RegKind :=
  [.lnPmaStatus, .lnPmaEvt, .lnPatStatus, .lnEq, .lnLinkStatus, .lnLinkEvt, .lnLinkOvf, .lnRetrains, .lnTxUnderrun]

/-- One lane changed, with what it feeds: its portals and crossings empty, the packet of its Crusher client closes (12_lane_link R295,
08_sump R183). No other lane, no other portal and nothing stored changes. -/
def LaneFed (n : Nat) (own : List RegKind) (s t : State) : Prop :=
  (∀ k, k ≠ n → t.lane k = s.lane k) ∧
    (∀ p, p ≠ lanePortal n 0 → p ≠ lanePortal n 1 → t.portal p = s.portal p) ∧ StoredKept s t ∧
    RegsKept (own.map (fun k => k.addr n) ++ [RegKind.adEvt.addr (n / 4), RegKind.portalDisc.addr 0, RegKind.xcOvr.addr 0,
      RegKind.scrubEvt.addr 0, RegKind.flogLostCnt.addr 0] ++ sumpRegisters) s t ∧
    besideFlags { t with lanes := s.lanes, portals := s.portals, fabric := s.fabric, crossings := s.crossings, sump := s.sump,
                         flog := s.flog } = besideFlags s

/-- A retrain has started (12_lane_link R292): the link is in LOCK with `RETRAINING`, the event is flagged and counted, and the
receiver is locking. -/
def Retrained (n : Nat) (s t : State) : Prop :=
  t.laneState n = 2 ∧ t.bit .lnLinkStatus n 8 = true ∧ t.bit .lnLinkEvt n 2 = true ∧ CountedOne .lnRetrains n s t ∧
    (t.lane n).rx.locking = true

/-- A cause has dropped the receiver (12_lane_link R292): a lane that is UP or in TRAIN retrains, one on its way up starts again at
LOCK, and any other only locks. -/
def Dropped (n : Nat) (s t : State) : Prop :=
  t.ready n = false ∧ (t.lane n).rx.locking = true ∧
    (s.laneState n = 4 ∨ s.laneState n = 5 → Retrained n s t) ∧
    (s.laneState n = 2 ∨ s.laneState n = 3 ∨ s.laneState n = 6 → t.laneState n = 2) ∧
    (s.laneState n = 0 ∨ s.laneState n = 1 ∨ s.laneState n = 7 → t.laneState n = s.laneState n) ∧
    (s.laneState n ≠ 4 → s.laneState n ≠ 5 → LaneOnly n linkRegisters [] s t) ∧ LaneFed n linkRegisters s t

/-- A response posted (14_foreman R333, R334, R340): the command leaves the order of service and is counted, its mailbox holds the
response, a host's shows `DONE` and raises EV016 where the command asks for it, and a fabric mailbox is free while its eight tokens go
to its portal. Every other mailbox is as it was. -/
def Posted (m : Nat) (rsp : List Word) (s t : State) : Prop :=
  t.foreman.order = s.foreman.order.filter (fun k => decide (k ≠ m)) ∧
    t.foreman.cmdsDone = (if 2 ^ 64 - 1 ≤ s.foreman.cmdsDone then s.foreman.cmdsDone else s.foreman.cmdsDone + 1) ∧
    (t.mboxAt m).rsp = rsp ∧ (t.mboxAt m).cmd = (s.mboxAt m).cmd ∧ (t.mboxAt m).staged = none ∧ (t.mboxAt m).work = .none ∧
    (m < 16 → (t.mboxAt m).done = true ∧ (t.mboxAt m).busy = (s.mboxAt m).busy ∧
      ((((s.mboxAt m).cmd.getD 0 0).getLsbD 24) = true → t.bit .evtPend 0 16 = true)) ∧
    (16 ≤ m → (t.mboxAt m).busy = false ∧ (t.mboxAt m).done = false) ∧ ∀ k, k ≠ m → t.mboxAt k = s.mboxAt k

/-- A command answered with a status and a payload, and nothing else done: of the Foreman only the mailbox, the order of service and
`FM_CMDS_DONE` change, and only a fabric mailbox's portal takes tokens. -/
def Answered (m status : Nat) (payload : List Word) (len : Nat) (s t : State) : Prop :=
  Posted m (mkResponse (s.cmdOf m) status payload len) s t ∧
    { t.foreman with mbox := s.foreman.mbox, order := s.foreman.order, cmdsDone := s.foreman.cmdsDone } = s.foreman ∧
    (m < 16 → t.portals = s.portals) ∧ (∀ p, p ≠ sitePortal m 48 0 → t.portal p = s.portal p) ∧ RegsKept [] s t ∧
    besideFlags { t with foreman := s.foreman, portals := s.portals } = besideFlags s

/-- The command in a mailbox is the next that the Foreman serves, it passes the checks of orders 1 to 5, and RUN has been reached where it needs it
(14_foreman R335, R337, R509). -/
def Served (mb : Mailbox) (op : Nat) (s : State) : Prop :=
  let c := s.cmdOf (mailboxNo mb)
  s.servable (mailboxNo mb) = true ∧ preStatus (mailboxNo mb) c = 0 ∧ cmdOp c = op ∧ (needsConfig c = false ∨ s.configured = true)

/-- The commands of the Foreman's mailboxes: the row, its opcode, and whether it is the row of the commands with bit 31 of their first
word clear or set, where an opcode has two rows (14_foreman R336). -/
def foremanRows (mb : Mailbox) : List (Instr × Nat × (List Word → Bool)) :=
  [(.ping mb, 0x0001, anyForm), (.getStatus mb, 0x0002, anyForm), (.abort mb, 0x0003, anyForm), (.fwInfo mb, 0x0004, anyForm),
   (.get mb, 0x0101, anyForm), (.set mb, 0x0102, anyForm), (.paramInfo mb, 0x0103, anyForm), (.domainDown mb, 0x0201, plainForm),
   (.domainDownForced mb, 0x0201, forcedForm), (.domainUp mb, 0x0202, anyForm), (.domainResume mb, 0x0203, anyForm),
   (.setMode mb, 0x0204, plainForm), (.setModeForced mb, 0x0204, forcedForm), (.cavernReinit mb, 0x0301, anyForm),
   (.cavernRevert mb, 0x0302, anyForm), (.sealedLoad mb, 0x0303, anyForm), (.storeWrite mb, 0x0304, anyForm),
   (.storeCommit mb, 0x0305, anyForm), (.crCounters mb, 0x0401, anyForm), (.crReinit mb, 0x0402, anyForm),
   (.qFlush mb, 0x0501, anyForm), (.qDesc mb, 0x0502, anyForm), (.qCounters mb, 0x0503, anyForm), (.ramWrite mb, 0x0601, anyForm),
   (.ramRead mb, 0x0602, anyForm), (.haulCopy mb, 0x0603, anyForm), (.bistRun mb, 0x0701, plainForm),
   (.bistRunForcedLane mb, 0x0701, forcedForm), (.faultLog mb, 0x0702, anyForm)]

/-- The Foreman has begun a restart (14_foreman R345, R346): it counts, flags and logs it, stops serving, forgets the work of commands
not yet committed, and is dead at the eighth restart within 10 s. The commands posted and the staged responses stay. -/
def RestartBegun (cause : Nat) (s t : State) : Prop :=
  let times := (s.foreman.restartTimes.filter fun x => decide (s.clocks.stamp < x + 1000000000)) ++ [s.clocks.stamp]
  let dead := decide (8 ≤ times.length)
  t.foreman.running = false ∧ t.foreman.restarting = !dead ∧ t.foreman.dead = dead ∧ t.foreman.restartTimes = times ∧
    CountedOne .fmRestarts 0 s t ∧ t.bit .mbxEvt 0 0 = true ∧ (dead = true → t.bit .mbxEvt 0 1 = true) ∧
    Logged (word (if dead then 0x08000000 else 0x07000000 + cause)) s t ∧
    t.foreman.order = s.foreman.order ∧ t.foreman.cmdsDone = s.foreman.cmdsDone ∧ t.conf.job = none ∧ t.master 64 = {} ∧
    (∀ m, (t.mboxAt m).cmd = (s.mboxAt m).cmd ∧ (t.mboxAt m).staged = (s.mboxAt m).staged ∧
      (t.mboxAt m).busy = (s.mboxAt m).busy ∧ (t.mboxAt m).done = (s.mboxAt m).done ∧ (t.mboxAt m).rsp = (s.mboxAt m).rsp) ∧
    t.cfg = s.cfg ∧ t.conf.otp = s.conf.otp ∧ t.lanes = s.lanes ∧ t.ports = s.ports ∧ t.pockets.rows = s.pockets.rows ∧
    (∀ m, m ≠ 64 → t.master m = s.master m)

/-- A full load has begun (15_configuration R364; 01_architecture R508; 00_scope R2): the load of the source that the boot straps name
awaits its header, the configuration is empty, every cavern is isolated with LOAD alone, the hard blocks are cleared, their registers
and every control read their reset values, and the device is in LOAD, or, where SYS has been reset, in POWER-UP with its clocks at
zero and its Foreman running. The image store, the one-time-programmable memory and Patrol are as they were. -/
def FullLoadBegun (wake sysReset cfgReset : Bool) (s t : State) : Prop :=
  (∃ l, t.conf.load = some l ∧ l = newLoad .full (loadSource s).1) ∧ t.conf.part = none ∧ t.conf.discard = false ∧
    t.conf.liveSlot = none ∧ t.conf.started = false ∧ t.conf.ran = false ∧ t.conf.wakeBegun = wake ∧ t.conf.boot = s.conf.boot ∧ t.conf.hadr = s.conf.hadr ∧
    t.conf.store = s.conf.store ∧ t.conf.otp = s.conf.otp ∧ t.patrol = s.patrol ∧
    t.power.mode = (if sysReset then .powerUp else .load) ∧ t.power.seq = .none ∧ t.power.held = false ∧
    t.power.retention = false ∧ t.power.progPending = false ∧ t.power.wakes = (if wake then s.power.wakes else []) ∧
    t.power.dom = [] ∧ t.power.lbOff = [] ∧ t.power.ioOff = [] ∧ t.power.railsOff = [] ∧ t.power.edges = [] ∧
    t.field .cfgStatus 0 24 4 = (if sysReset then 0 else 1) ∧ t.field .cfgStatus 0 3 2 = s.conf.boot.toNat ∧
    t.reg .cfgErraddr 0 = 0 ∧ t.reg .cfgFrames 0 = 0 ∧ t.reg .cfgDesign 0 = 0 ∧
    (cfgReset = true ∨ sysReset = true → t.reg .cfgEvt 0 = 0 ∧ t.reg .cfgPart 0 = 0) ∧
    t.cfg = [] ∧ (∀ c, c < 40 → t.cav c = { powered := true }) ∧ t.fabric.cells = [] ∧ t.fabric.nodes = [] ∧ t.fabric.choices = [] ∧
    t.fabric.attIn = [] ∧ t.fabric.attAck = [] ∧ t.pockets.rows = [] ∧ t.pockets.restoring = [] ∧ t.crushers = Crushers.reset ∧
    t.sump = Sump.reset ∧ t.portals = [] ∧ t.lanes = [] ∧ t.haul.chans = [] ∧ t.pins.pins = [] ∧ t.test.type = 0 ∧
    t.foreman.dead = false ∧ t.foreman.cmdsDone = 0 ∧
    (∀ a d, heldWindow a = true → hpdAddr a = false → tabGet d t.regs a = d) ∧
    (∀ b, b < 24 → t.reg .lbHpd b = s.reg .lbHpd b) ∧
    (∀ k i, regAt (k.addr i) = some (k, i) → aonAddr (k.addr i) = false → porAddr (k.addr i) = false →
      t.reg k i &&& k.mask .rw = k.reset &&& k.mask .rw) ∧
    (sysReset = true → t.clocks = { sys := 0, phase := 0, micro := 0, stamp := 0, aon := s.clocks.aon, scrub := [] } ∧ t.ports = [] ∧ t.foreman.mbox = [] ∧ t.foreman.order = [] ∧
      t.foreman.ram = [] ∧ t.foreman.running = true ∧ t.history = { queue := [], ring := [], next := 0 }) ∧
    (sysReset = false → t.clocks = s.clocks ∧ t.ports = s.ports ∧ t.foreman.ram = s.foreman.ram ∧
      t.foreman.running = s.foreman.running)

/-- What a PROG_N pulse that is taken does (15_configuration R364, 16_power R389, R392, R407): a full load with the controller reset,
which waits while the device sleeps, enters or leaves a sleep mode, or a cause of FAULT HOLD is set. -/
def ProgTaken (s t : State) : Prop :=
  let waits := fun (q : ModeSeq) => t = { s with power := { s.power with progPending := true, seq := q } }
  (s.power.held = true → t = s) ∧
    (s.power.held = false →
      (s.power.seq ≠ .none → waits s.power.seq) ∧
      (s.power.seq = .none → s.power.mode = .standby → waits .leavingStandby) ∧
      (s.power.seq = .none → s.power.mode = .patrol ∨ s.power.mode = .deepSleep →
        t = { s with power := { s.power with progPending := true, seq := .wakingRails, railsOff := t.power.railsOff } } ∧
          ∀ r, r < 5 → tabGet false t.power.railsOff r = false) ∧
      (s.power.seq = .none → s.power.mode ≠ .standby → s.power.mode ≠ .patrol → s.power.mode ≠ .deepSleep →
        (s.holdCauses = true → waits .none) ∧ (s.holdCauses = false → FullLoadBegun false false true s t)))

/-- A load fails with a code at a frame address, 0 where it fails at none (15_configuration R352, R367, R372, R373). A full load of one
slot begins again from the other, once, where the commit record allows it; otherwise the device is in LOAD FAILED. A partial load
leaves its caverns isolated and reports over the port; a sealed load answers its command. -/
def LoadFailed (l : Load) (err : Nat) (addr : Option Nat) (s t : State) : Prop :=
  let other := fun (b : Bool) => l.source = .slot b ∧ l.fellBack = false ∧ s.bit .cfgStore 0 1 = true
  (l.kind = .full → ∀ b, other b →
      t.conf = { s.conf with load := some { (newLoad .full (.slot (!b))) with fellBack := true, mailbox := l.mailbox } } ∧
      t.cfg = [] ∧ t.pockets.rows = [] ∧ t.power = s.power ∧ t.field .cfgStatus 0 24 4 = 1 ∧ t.bit .cfgStatus 0 12 = true ∧
      t.reg .cfgFrames 0 = 0 ∧ (∀ c, c < 40 → t.cav c = { s.cav c with used := false, crc := 0 }) ∧
      (∀ a d, heldWindow a = true → hpdAddr a = false → tabGet d t.regs a = d)) ∧
    (l.kind = .full → (∀ b, ¬ other b) →
      t.conf = { s.conf with load := none } ∧ t.power.mode = .loadFailed ∧
      t.power = { s.power with mode := .loadFailed, last := t.power.last } ∧
      t.field .cfgStatus 0 24 4 = 8 ∧ t.field .cfgStatus 0 16 8 = err % 256 ∧ t.bit .cfgStatus 0 2 = true ∧
      t.reg .cfgErraddr 0 = word (addr.getD 0) ∧ t.bit .cfgEvt 0 1 = true ∧
      RegsKept [RegKind.cfgErraddr.addr 0, RegKind.cfgStatus.addr 0, RegKind.cfgEvt.addr 0, RegKind.pwrEvt.addr 0] s t ∧
      besideFlags { t with conf := s.conf, power := s.power } = besideFlags s) ∧
    (l.kind = .partialImage →
      t.conf = (if l.phase = .verified then { s.conf with part := none }
        else { s.conf with load := none, discard := l.source = .icp && !l.lastSeen }) ∧
      t.reg .cfgPart 0 = word (place 24 8 err + 5) ∧ t.reg .cfgErraddr 0 = word (addr.getD 0) ∧ t.bit .cfgEvt 0 4 = true ∧
      (portalEn s.cfg icpIn = true → (t.portal icpIn).stage = (s.portal icpIn).stage ++
        [(err + 0x400 + addr.getD l.frames % 2 ^ 32 * 2 ^ 32, 3)]) ∧
      (∀ p, p ≠ icpIn → t.portal p = s.portal p) ∧
      RegsKept [RegKind.cfgErraddr.addr 0, RegKind.cfgPart.addr 0, RegKind.cfgEvt.addr 0] s t ∧
      besideFlags { t with conf := s.conf, portals := s.portals } = besideFlags s) ∧
    (l.kind = .sealedImage →
      t.conf = { s.conf with load := none } ∧ t.reg .cfgPart 0 = word (place 24 8 err + 21) ∧
      t.reg .cfgErraddr 0 = word (addr.getD 0) ∧ t.bit .cfgEvt 0 6 = true ∧
      (∀ m, l.mailbox = some m → Posted m (mkResponse (s.cmdOf m) (0x1000 + err) [] 0) s t) ∧
      RegsKept [RegKind.cfgErraddr.addr 0, RegKind.cfgPart.addr 0, RegKind.cfgEvt.addr 0] s t ∧
      besideFlags { t with conf := s.conf, portals := s.portals, foreman := s.foreman } = besideFlags s)

/-- A verified partial image is committed (15_configuration R370 step 4): its caverns that a load holds are released, out of FREEZE too,
the others keep their causes, and `CFG_PART`, `CFG_EVT` and the port report it; a release of cavern 20 discards what waits at the port
(R371). -/
def PartCommitted (l : Load) (s t : State) : Prop :=
  t.conf.load = none ∧ t.conf.part = none ∧ t.reg .cfgPart 0 = 4 ∧ t.bit .cfgEvt 0 3 = true ∧ t.cfg = s.cfg ∧
    (∀ c, c < 40 → bitAt c l.region = true → (s.cav c).partialLoad = true →
      (t.cav c).partialLoad = false ∧ (t.cav c).freeze = false) ∧
    (∀ c, c < 40 → bitAt c l.region = false ∨ (s.cav c).partialLoad = false → t.cav c = s.cav c) ∧
    (portalEn s.cfg icpIn = true → bitAt 20 l.region = false ∨ (s.cav 20).partialLoad = false →
      (t.portal icpIn).stage.getLast? = some (0x300 + l.frames % 2 ^ 32 * 2 ^ 32, 3)) ∧
    (bitAt 20 l.region = true → (s.cav 20).partialLoad = true → (t.portal icpIn).stage = [])

/-- The device has passed to a mode (16_power R378, R410). -/
def EnteredMode (m : Mode) (s t : State) : Prop :=
  t.power.mode = m ∧ (s.power.mode ≠ m → t.power.last = s.power.mode ∧ t.bit .pwrEvt 0 0 = true) ∧
    (s.power.mode = m → t.power.last = s.power.last)

/-- FAULT HOLD has been entered for a cause and a rail (16_power R407): the cause is recorded and logged, a full load and every
self-test end, each FAB and LB domain is off or going off, and SYS is requested at P2. -/
def FaultHeld (cause rail : Nat) (s t : State) : Prop :=
  EnteredMode .faultHold s t ∧ t.power.seq = .none ∧ t.test.type = 0 ∧
    t.reg .pwrFault 0 = word (place 28 4 cause + place 16 3 rail) ∧ t.bit .pwrEvt 0 4 = true ∧
    Logged (word (0x0E000000 + cause)) s t ∧
    (∀ l, s.conf.load = some l → l.kind = .full → t.conf.load = none) ∧
    (∀ d, d < 40 ∨ (0x40 ≤ d ∧ d < 0x58) → t.domOff d = true ∨ (t.domCmd d).isSome = true) ∧
    t.field .pwrSys 0 8 2 = 2 ∧ (t.power.point = .p2 ∨ t.power.change.isSome = true ∨ t.power.nextPoint = some .p2) ∧
    t.cfg = s.cfg ∧ t.conf.store = s.conf.store ∧ t.conf.otp = s.conf.otp ∧ t.power.thermal = s.power.thermal ∧
    t.power.supply = s.power.supply ∧ t.power.regFault = s.power.regFault

/-- What a set cause of FAULT HOLD does (16_power R378, R392, R407): FAULT HOLD from the modes that may pass to it; in STANDBY, at its entry
and at its exit it only lets the exit begin; in the others it is recorded and nothing more. -/
def FaultTaken (cause rail : Nat) (s t : State) : Prop :=
  (s.holdCauses = false ∨ s.power.held = true → t = s) ∧
    (s.holdCauses = true → s.power.held = false →
      (s.power.retention = true →
        (∀ m w f, s.power.seq = .entering m w f → t = { s with power := { s.power with seq := .entering m w true } }) ∧
        (s.power.seq = .none → s.power.mode = .standby → t = { s with power := { s.power with seq := .leavingStandby } }) ∧
        (s.power.seq = .none → s.power.mode ≠ .standby → t = s) ∧
        ((∀ m w f, s.power.seq ≠ .entering m w f) → s.power.seq ≠ .none → t = s)) ∧
      (s.power.retention = false → s.power.mode.mayFault = true → FaultHeld cause rail s t) ∧
      (s.power.retention = false → s.power.mode.mayFault = false → t = s))

/-- The device is held as at power-on reset (16_power R405, R406): every load ends, sequences and domain commands with them; bytes being
programmed into the image store are undefined (15_configuration R353). -/
def HeldInReset (cause rail : Nat) (s t : State) : Prop :=
  t.power = { s.power with held := true, seq := .none, retention := false, wakes := [], change := none,
                            nextPoint := none, dom := [], waiting := [] } ∧
    t.reg .pwrFault 0 = word (place 28 4 cause + place 16 3 rail) ∧ RegsKept [RegKind.pwrFault.addr 0] s t ∧
    t.conf = { s.conf with load := none, part := none, job := none, store := t.conf.store, started := false, ran := false } ∧
    (s.conf.job = none → t.conf.store = s.conf.store) ∧
    besideRegs { t with power := s.power, conf := s.conf, freeCtr := s.freeCtr } = besideRegs s

/-- What the cause SUPPLY (2) or REG (3) of a rail does when it is set (16_power R405 to R407): VCCS and VCCA hold the whole device, the
others take it to FAULT HOLD. OPERATION switches a rail of REG off. -/
def RailFaulted (cause r : Nat) (s t : State) : Prop :=
  let p := if cause = 2 then { s.power with supply := tabSet false s.power.supply r true }
    else { s.power with regFault := tabSet false s.power.regFault r true, railsOff := tabSet false s.power.railsOff r true }
  let u := { s with power := p }
  (s.power.held = true → t = u) ∧
    (s.power.held = false → r = 1 ∨ r = 4 → HeldInReset cause r u t) ∧
    (s.power.held = false → r ≠ 1 → r ≠ 4 → s.power.mode = .faultHold → t = u) ∧
    (s.power.held = false → r ≠ 1 → r ≠ 4 → s.power.mode ≠ .faultHold → FaultTaken cause r u t)

/-- What happens when a cause has cleared (16_power R405 to R407): a hold as at power-on reset ends in a full load once no supply keeps
it; FAULT HOLD ends in a full load that PROG_N has asked for, once no cause is left. -/
def CauseCleared (s t : State) : Prop :=
  let waits := s.power.progPending = true ∧ s.holdCauses = false ∧ s.power.retention = false ∧
    (s.power.mode = .faultHold ∨ s.power.mode.mayFault = true ∨ s.power.mode = .loadFailed)
  (s.power.held = true → s.mayRelease = true → FullLoadBegun false true false s t) ∧
    (s.power.held = true → s.mayRelease = false → t = s) ∧
    (s.power.held = false → waits → FullLoadBegun false false true s t) ∧ (s.power.held = false → ¬ waits → t = s)

/-- A PMBus transaction has failed (16_power R402, R410). -/
def PmbFailed (s t : State) : Prop :=
  CountedOne .pwrPmbErr 0 s t ∧ t.bit .pwrEvt 0 5 = true ∧ RegsKept [RegKind.pwrPmbErr.addr 0, RegKind.pwrEvt.addr 0] s t ∧
    besideFlags t = besideFlags s

/-- What a STATUS_WORD does that has been read for a rail (16_power R403). -/
def StatusActs (r : Nat) (w : BitVec 16) (s t : State) : Prop :=
  ∃ u, (w.getLsbD 1 = true → PmbFailed s u) ∧ (w.getLsbD 1 = false → u = s) ∧
    (statusFault w = true → u.railOn r = true → RailFaulted 3 r u t) ∧ (statusFault w = false ∨ u.railOn r = false → t = u)

/-- A reading in whole units: the quotient, or, where it is not whole, either whole number beside it (the spec states no rounding; log 105). -/
def NearestOf (num den x : Nat) : Prop := x = num / den ∨ (num % den ≠ 0 ∧ x = num / den + 1)

/-- A LINEAR11 reading in units of 1/`k`: the mantissa's 11 bits times 2 to the power of the 5 bits above (PRESUMED, log 105). -/
def Linear11Reads (k : Nat) (w : BitVec 16) (x : Int) : Prop :=
  let y := (w.extractLsb' 0 11).toInt
  let n := (w.extractLsb' 11 5).toInt
  NearestOf (y.natAbs * k * 2 ^ n.toNat) (2 ^ (-n).toNat) x.natAbs ∧ (x < 0 → y < 0) ∧ (0 < x → 0 < y)

/-- A domain's command has ended (16_power R398, R399): the event, and the response of the command that waits, which a Foreman held in reset
keeps in its staging copy (14_foreman R345, R346). -/
def DomainReported (d : Nat) (v : DomCmd) (s t : State) : Prop :=
  t.domCmd d = none ∧ (∀ e, e ≠ d → t.domCmd e = s.domCmd e) ∧ t.bit .pwrEvt 0 2 = true ∧
    (∀ m, v.mailbox = some m →
      (s.foreman.running = true → (t.mboxAt m).rsp = mkResponse (s.cmdOf m) 0 [] 0 ∧ t.foreman.order.contains m = false) ∧
      (s.foreman.running = false → (t.mboxAt m).staged = some (mkResponse (s.cmdOf m) 0 [] 0) ∧ t.foreman.order = s.foreman.order)) ∧
    t.cfg = s.cfg ∧ t.conf = s.conf ∧ t.power.mode = s.power.mode

/-- The request of a SYS operating point stands (16_power R392, R400): it waits while a change is in progress or SYS sleeps, and else a
change begins unless the point is in force. A raise commands VCCS first. -/
def PointRequested (p : SysPoint) (s : State) (w : Power) : Prop :=
  (s.power.change.isSome = true ∨ s.sysRuns = false → w = { s.power with nextPoint := some p }) ∧
    (s.power.change = none → s.sysRuns = true → p = s.power.point → w = s.power) ∧
    (s.power.change = none → s.sysRuns = true → p ≠ s.power.point →
      w = { s.power with
        change := some { target := p, raising := decide (p.code < s.power.point.code) }
        vccsCmd := if p.code < s.power.point.code ∧ pmbEn s.cfg then pointVccs p else s.power.vccsCmd })

/-- Every pin but pin `n` of bank `b` is as it was, and so is what the banks hold. -/
def OtherPins (b n : Nat) (s t : State) : Prop :=
  (∀ k, k ≠ 60 * b + n → tabGet {} t.pins.pins k = tabGet {} s.pins.pins k) ∧ t.pins.banks = s.pins.banks

/-- An instruction of the test access port is loaded that gives no bank to the debug owner (17_pins R431, R434): every bank is back with
its owners, and nothing else is touched. -/
def IrLoaded (ir : JtagIr) (s t : State) : Prop :=
  t.jtag = { s.jtag with ir := ir, refused := false } ∧ (∀ b, b < 12 → (t.bank b).debug = false) ∧
    ((∀ b, b < 12 → (s.bank b).debug = false) → t.pins = s.pins) ∧ { t with jtag := s.jtag, pins := s.pins } = s

/-- The word of the one-time-programmable memory that was being programmed has taken its bits (17_pins R433). -/
def OtpFinished (s t : State) : Prop :=
  (s.conf.otpBusy = none → t = s) ∧
    (∀ i w, s.conf.otpBusy = some (i, w) →
      (∀ k, tabGet 0 t.conf.otp k = if k = i then tabGet 0 s.conf.otp k ||| w else tabGet 0 s.conf.otp k) ∧
      t.conf = { s.conf with otp := t.conf.otp, otpBusy := none } ∧ { t with conf := s.conf } = s)
end Sys2Proof
end

