-- ==== Sys2Proof/Certificates/Slice0/Obligations.lean ====
section
/-! DEFINITION. The statements about the block that the provers are asked to prove, family by family of its commands. -/

open Sys2Proof Sys2Proof.Machine

/-! ### The block as a whole -/

/-- A step with a command at the front of the queue is that command's effect on the state with the rest of the queue. -/
def Obligations.StepTakesFrontCommand : Prop :=
  ∀ (c : Instr) (s : State), step { s with pending := c :: s.pending } = exec c s

/-- A step on an empty queue is one clock (the model's choice, log entry 1). While SYS runs, the SYS clock count advances, and the
device timestamp advances by 10 at every SYSCLK period, of which a SYS clock takes 6, 8 or 12 sixtieths by the operating point
(01_architecture R14), and wraps from 2^64 - 6 to 0 (19_events_counters R465). While SYS does not run, neither count moves, and the step is
one tick of the always-on clock, but under a power-on reset that may end. -/
def Obligations.IdleStepIsOneClock : Prop :=
  ∀ s : State, s.pending = [] → s.clocks.stamp % 10 = 0 → s.clocks.stamp < 2 ^ 64 →
    ∃ t, step s = .next t ∧ t.pending = [] ∧
      (s.sysRuns = false → t.clocks =
        { s.clocks with aon := if s.power.held = true ∧ s.mayRelease = true then s.clocks.aon else s.clocks.aon + 1 }) ∧
      (s.sysRuns = true →
        let p := s.clocks.phase + clockShare s.power.point
        t.clocks.sys = s.clocks.sys + 1 ∧ t.clocks.phase = p % 60 ∧
        t.clocks.stamp = if p < 60 then s.clocks.stamp else if s.clocks.stamp = 2 ^ 64 - 6 then 0 else s.clocks.stamp + 10)

/-- Every command whose operands do not contradict each other is taken, in every state: no command is refused and none ends in a
fault. A boundary-scan update that names a cell twice, or a cell beyond the 720, is the one ill-formed command and ends in the fault
of that name (log entry 4). -/
def Obligations.EveryCommandIsTaken : Prop :=
  ∀ (c : Instr) (s : State),
    (c.wf = true → ∃ t, exec c s = .next t) ∧
    (c.wf = false → exec c s = .fault (.illFormed "BOUNDARY_SCAN_UPDATE_DR"))

/-- No command changes the queue of waiting commands. -/
def Obligations.CommandsKeepTheQueue : Prop :=
  ∀ (c : Instr) (s t : State), exec c s = .next t → t.pending = s.pending

/-- Every step, from any state, keeps the four memories in their canonical form. -/
def Obligations.StepKeepsMemoriesCanonical : Prop :=
  ∀ s t : State, MemoriesCanonical s → step s = .next t → MemoriesCanonical t

/-- Every step, from any state, keeps the device timestamp a 64-bit multiple of 10 (19_events_counters R465) and the passed share of
a SYSCLK period less than a whole one. -/
def Obligations.StepKeepsClocksSound : Prop :=
  ∀ s t : State, ClocksSound s → step s = .next t → ClocksSound t

/-- Every step, from any state, keeps the fault log within its 64 entries (18_self_test_faults R454) and the Foreman's event queue
within its 32 raises (19_events_counters R464). -/
def Obligations.StepKeepsLogsBounded : Prop :=
  ∀ s t : State, LogsBounded s → step s = .next t → LogsBounded t

/-- No step clears a bit of the one-time-programmable memory, whatever the command and whatever the state (15_configuration R361,
17_pins R433). -/
def Obligations.StepKeepsProgrammedBits : Prop :=
  ∀ s t : State, step s = .next t → OtpKept s t

/-- The device held at power-on reset: every register reads its reset value, every cavern is isolated with cause LOAD alone
(01_architecture R31, R32) and unpowered, the mode is POWER-UP (16_power R378), the timestamp is 0 (19_events_counters R465), no
mailbox is in use, nothing is loaded, no command waits; and the state is sound. -/
def Obligations.ResetState : Prop :=
  (∀ k i, State.reset.reg k i = k.reset) ∧
  (∀ c, (State.reset.cav c).isolated = true ∧ (State.reset.cav c).load = true ∧ (State.reset.cav c).freeze = false ∧
    (State.reset.cav c).bist = false ∧ (State.reset.cav c).partialLoad = false ∧ (State.reset.cav c).power = false ∧
    (State.reset.cav c).powered = false) ∧
  State.reset.power.mode = .powerUp ∧ State.reset.clocks.stamp = 0 ∧
  (∀ m, (State.reset.mboxAt m).busy = false ∧ (State.reset.mboxAt m).done = false) ∧
  State.reset.conf.load = none ∧ State.reset.pending = [] ∧
  MemoriesCanonical State.reset ∧ ClocksSound State.reset ∧ LogsBounded State.reset

/-! ### Host accesses to registers -/

/-- REGISTER_WRITE of a register without write rules of its own, reached on any port: each field acts as its access code states
(00_scope R5). RW bits take the value written, unless a port that comes later in the order of one clock has written the register in this
clock (20_register_map R476); W1C bits written 1 clear, unless hardware has set them in this clock (R476); RO, RC and reserved bits stay,
and the bits of reserved events ignore the write (19_events_counters R470). A write that sets a reserved bit also sets `GSTAT.ACC_RSV` and
leaves its address in `GSTAT_ADDR` (20_register_map R474). A write of `EVT_PEND` takes the merges of the raises that it meets out of
`EVT_MERGED` (19_events_counters R466). Nothing else changes. -/
def Obligations.RegisterWriteActsByAccessCodes : Prop :=
  ∀ (p : HostPort) (addr val : Word) (k : RegKind) (i : Nat) (s : State),
    regAt (addr.toNat / 4 * 4) = some (k, i) → s.reach (addr.toNat / 4 * 4) = .open →
    k ∉ [RegKind.mbxPost, .mbxDone, .loadPct, .pwrCtrl, .pwrSys, .pwrVccf, .pwrVccfQ, .pwrPadrel, .speedGaugeCtrl, .speedGauge,
      .aonPadpol, .cfgCtrl, .cfgStream, .stCtrl, .lnPmaCtrl, .lnEq, .lnPatCtrl, .lnMargin, .lnLinkCtrl, .sumpQcmd, .hchCtrl, .crHold0,
      .crHold1, .crHold2, .crHold3, .patrolCtrl, .patrolCfg] →
    let taken := val &&& k.writable i
    ∃ t, exec (.registerWrite p addr val) s = .next t ∧
      ((k = .gstat → val &&& ~~~ k.writable i = 0) → ∀ b, (t.reg k i).getLsbD b =
        if (k.mask .rw).getLsbD b then
          (if s.outranked (writerRank p) (k.addr i) then (s.reg k i &&& k.writable i).getLsbD b else taken.getLsbD b)
        else if (k.mask .w1c).getLsbD b then (s.reg k i).getLsbD b && !(taken.getLsbD b && !(s.freshBits k i).getLsbD b)
        else (s.reg k i).getLsbD b) ∧
      (k = .evtPend → (t.reg .evtMerged 0).toNat ≤ (s.reg .evtMerged 0).toNat ∧
        (s.fresh.merged = [] → t.reg .evtMerged 0 = s.reg .evtMerged 0)) ∧
      (∀ a d, a ≠ k.addr i → ¬ (k = .evtPend ∧ a = RegKind.evtMerged.addr 0) →
        val &&& ~~~ k.writable i = 0 ∨ (a ≠ RegKind.gstat.addr 0 ∧ a ≠ RegKind.gstatAddr.addr 0) →
        tabGet d t.regs a = tabGet d s.regs a) ∧
      (val &&& ~~~ k.writable i ≠ 0 →
        (k ≠ .gstat → t.reg .gstat 0 = s.reg .gstat 0 ||| 2) ∧ (t.reg .gstat 0).getLsbD 1 = true ∧
        (s.outranked (writerRank p) (RegKind.gstatAddr.addr 0) = false → t.reg .gstatAddr 0 = word (k.addr i))) ∧
      besideRegs t = besideRegs s

/-- REGISTER_WRITE of the settings that refuse values: `PWR_CTRL.QDWELL` keeps its value where the code written is above 9
(16_power R410), `ST_CTRL` where it is not 1 to 8 (18_self_test_faults R457), a bank's `AON_PADPOL` field where it is 0b11
(16_power R387). Every other field of the write is taken, where no port that comes later in the order of one clock has written the register
in this clock; such a one's value stands (20_register_map R476). -/
def Obligations.RegisterWriteKeepsRefusedSettings : Prop :=
  ∀ (p : HostPort) (written : Word) (s : State), s.sysRuns = true →
    let later := fun (k : RegKind) => s.outranked (writerRank p) (k.addr 0)
    (∃ t, exec (.registerWrite p (word (RegKind.pwrCtrl.addr 0)) written) s = .next t ∧
      let val := if later .pwrCtrl then s.reg .pwrCtrl 0 else written
      t.field .pwrCtrl 0 8 1 = bitsOf 8 1 val.toNat ∧
      t.field .pwrCtrl 0 16 4 = (if bitsOf 16 4 val.toNat ≤ 9 then bitsOf 16 4 val.toNat else s.field .pwrCtrl 0 16 4) ∧
      besideRegs t = besideRegs s) ∧
    (∃ t, exec (.registerWrite p (word (RegKind.stCtrl.addr 0)) written) s = .next t ∧
      let val := if later .stCtrl then s.reg .stCtrl 0 else written
      t.field .stCtrl 0 0 4 =
        (if 1 ≤ bitsOf 0 4 val.toNat ∧ bitsOf 0 4 val.toNat ≤ 8 then bitsOf 0 4 val.toNat else s.field .stCtrl 0 0 4) ∧
      besideRegs t = besideRegs s) ∧
    (∃ t, exec (.registerWrite p (word (RegKind.aonPadpol.addr 0)) written) s = .next t ∧
      let val := if later .aonPadpol then s.reg .aonPadpol 0 else written
      (∀ b, b < 12 → t.field .aonPadpol 0 (2 * b) 2 =
        (if bitsOf (2 * b) 2 val.toNat = 3 then s.field .aonPadpol 0 (2 * b) 2 else bitsOf (2 * b) 2 val.toNat)) ∧
      besideRegs t = besideRegs s)

/-- RC_READ of any register that is reached and has no read effect of its own: the port is given the register's value, and the
register's RC fields, and no other bits, clear (00_scope R5). A register with an RC field gives its stored value; what a counter has
advanced by in this clock is neither given nor lost, but kept for the next read (20_register_map R476). The debounced state of a bench's
HPD pin is given with the level at the pin, which is the board's (12_lane_link R307). A post on the port that has found no mailbox is
refused first (14_foreman R331). Nothing else changes. -/
def Obligations.ReadReturnsAndClears : Prop :=
  ∀ (p : HostPort) (addr : Word) (k : RegKind) (i : Nat) (s0 : State),
    regAt (addr.toNat / 4 * 4) = some (k, i) → s0.reach (addr.toNat / 4 * 4) = .open →
    k ∉ [RegKind.tsLo, .lnPrbsBitsLo, .lnPrbsErrLo, .sumpQstat] →
    let s := refusePosts (fun q => decide (q = p)) s0
    ∃ t, exec (.rcRead p addr) s0 = .next t ∧
      (k ≠ .lbHpd → (t.portBank p).hostRead = s.shown p k i) ∧
      (k = .lbHpd → (t.portBank p).hostRead &&& ~~~ 2 = s.reg k i &&& 1) ∧
      (k.mask .rc ≠ 0 → s.freshCount k i = 0 → (t.portBank p).hostRead = s.reg k i ∧ t.reg k i = s.reg k i &&& ~~~ k.mask .rc) ∧
      (k.mask .rc = 0xFFFFFFFF → s.freshCount k i ≤ (s.reg k i).toNat →
        ((t.portBank p).hostRead).toNat + s.freshCount k i = (s.reg k i).toNat ∧ (t.reg k i).toNat = s.freshCount k i) ∧
      (k.mask .rc = 0 → t.reg k i = s.reg k i) ∧
      (∀ a d, a ≠ k.addr i → tabGet d t.regs a = tabGet d s.regs a) ∧
      (∀ q, q ≠ p → t.portBank q = s.portBank q) ∧
      t.portBank p = { s.portBank p with hostRead := (t.portBank p).hostRead } ∧
      { t with regs := s.regs, ports := s.ports, freeCtr := s.freeCtr } = s ∧ (k ≠ .lbHpd → t.freeCtr = s.freeCtr)

/-- REGISTER_WRITE and RC_READ where no register answers (00_scope R6; 20_register_map R474, R475; 16_power R390). A write to a block
held in reset is discarded and sets no flag; to a lane whose bench is off it is discarded and recorded with `GSTAT.ACC_OFF`; to a
reserved address it is recorded with `GSTAT.ACC_RSV`. A reserved address reads zero, a register of a block held in reset reads its
reset value, and a lane whose bench is off reads zero and is recorded. While SYS sleeps the SPI port alone is given a word, all ones; the
I2C target and the access port hold an access of STANDBY, its entry or its exit until the exit, one each (that of the access port is the
model's choice, log entry 104), posts and requests of an operating point apart. -/
def Obligations.AccessWithoutRegister : Prop :=
  ∀ (p : HostPort) (addr val : Word) (s : State),
    let a := addr.toNat / 4 * 4
    let u := refusePosts (fun q => decide (q = p)) s
    let holds := s.heldStandby p && !(s.power.waiting.any fun w => decide (w.1 = p))
    (s.reach a = .held → exec (.registerWrite p addr val) s = .next s) ∧
    (s.reach a = .off → ∃ t, exec (.registerWrite p addr val) s = .next t ∧ AccessNoted p 0 a s t) ∧
    (s.reach a = .open → regAt a = none → ∃ t, exec (.registerWrite p addr val) s = .next t ∧ AccessNoted p 1 a s t) ∧
    (s.reach a = .silent → (∀ i, regAt a ≠ some (.mbxPost, i) ∧ regAt a ≠ some (.pwrSys, i)) → exec (.registerWrite p addr val) s =
      .next (if holds then { s with power := { s.power with waiting := s.power.waiting ++ [(p, word a, some val)] } } else s)) ∧
    (s.reach a = .open → regAt a = none → exec (.rcRead p addr) s = .next (u.modPort p fun b => { b with hostRead := 0 })) ∧
    (∀ k i, s.reach a = .held → regAt a = some (k, i) →
      exec (.rcRead p addr) s = .next (u.modPort p fun b => { b with hostRead := k.reset })) ∧
    (s.reach a = .off →
      ∃ t, exec (.rcRead p addr) s = .next (t.modPort p fun b => { b with hostRead := 0 }) ∧ AccessNoted p 0 a u t) ∧
    (s.sysRuns = false → p = .spi → s.power.held = false →
      exec (.rcRead p addr) s = .next (u.modPort p fun b => { b with hostRead := 0xFFFFFFFF })) ∧
    (s.sysRuns = false → p ≠ .spi ∨ s.power.held = true → exec (.rcRead p addr) s =
      .next (if holds then { u with power := { u.power with waiting := u.power.waiting ++ [(p, addr, none)] } } else u))

/-- SNAPSHOT_LOW_READ: the low register's bits [31:0] go to the port, and the remaining bits of the counter, of the same instant, into
that port's snapshot, which a later read of the high register on that port shows (19_events_counters R468). QSTAT_READ: the selected
queue's depth and cells, with `SUMP_QSTAT2` latched from the same clock (08_sump R195). A post on the port that has found no mailbox is
refused first (14_foreman R331). Nothing else changes. -/
def Obligations.SnapshotReads : Prop :=
  ∀ (p : HostPort) (s0 : State),
    let s := refusePosts (fun q => decide (q = p)) s0
    (s.sysRuns = true →
      ∃ t, exec (.snapshotLowRead p .timestamp) s0 = .next t ∧
        t.portBank p = { s.portBank p with hostRead := word s.clocks.stamp, snapTs := word (s.clocks.stamp / 2 ^ 32) } ∧
        t.shown p .tsHi 0 = word (s.clocks.stamp / 2 ^ 32) ∧ (∀ q, q ≠ p → t.portBank q = s.portBank q) ∧
        { t with ports := s.ports } = s) ∧
    (∀ n : Fin 96, s.reach (RegKind.lnPrbsBitsLo.addr n.val) = .open →
      ∃ t, exec (.snapshotLowRead p (.prbsBits n)) s0 = .next t ∧ (t.portBank p).hostRead = s.stored .lnPrbsBitsLo n.val ∧
        t.shown p .lnPrbsBitsHi n.val = s.reg .lnPrbsBitsHi n.val ∧
        (∀ m, m ≠ n.val → t.shown p .lnPrbsBitsHi m = s.shown p .lnPrbsBitsHi m) ∧
        (∀ q, q ≠ p → t.portBank q = s.portBank q) ∧
        t.portBank p = { s.portBank p with hostRead := (t.portBank p).hostRead, snapBits := (t.portBank p).snapBits } ∧
        { t with ports := s.ports } = s) ∧
    (∀ n : Fin 96, s.reach (RegKind.lnPrbsErrLo.addr n.val) = .open →
      ∃ t, exec (.snapshotLowRead p (.prbsErr n)) s0 = .next t ∧ (t.portBank p).hostRead = s.stored .lnPrbsErrLo n.val ∧
        t.shown p .lnPrbsErrHi n.val = s.reg .lnPrbsErrHi n.val ∧
        (∀ m, m ≠ n.val → t.shown p .lnPrbsErrHi m = s.shown p .lnPrbsErrHi m) ∧
        (∀ q, q ≠ p → t.portBank q = s.portBank q) ∧
        t.portBank p = { s.portBank p with hostRead := (t.portBank p).hostRead, snapErr := (t.portBank p).snapErr } ∧
        { t with ports := s.ports } = s) ∧
    (s.reach (RegKind.sumpQstat.addr 0) = .open →
      ∃ t, exec (.qstatRead p) s0 = .next t ∧ t.portBank p = { s.portBank p with hostRead := s.qstat (s.field .sumpQsel 0 0 11) } ∧
        t.reg .sumpQstat2 0 = s.qstat2 (s.field .sumpQsel 0 0 11) ∧ (∀ q, q ≠ p → t.portBank q = s.portBank q) ∧
        (∀ a d, a ≠ RegKind.sumpQstat2.addr 0 → tabGet d t.regs a = tabGet d s.regs a) ∧
        { t with regs := s.regs, ports := s.ports } = s)

/-! ### Pockets and speed gauges -/

/-- POCKET_PORT_ACCESS: a ready port takes the command token on its channel (06_pockets R126). The acknowledge rises. A write, on a
port that may write and whose response is not the old value, changes the bits of its word in its row and no other row, and offers the
value written where `WRSP` is 0b01 and nothing where it is 0b00. Every other command reads: the word is offered, a write with `WRSP`
0b10 having then changed the row; a corrected word counts. A word with an uncorrectable error (06_pockets R123) is neither offered nor
written, the port takes no further command, and the cavern is frozen with the Pocket's index. A port that is not ready, or has no
token, changes nothing. Any access ends QUIET (16_power R381). -/
def Obligations.PocketPortAccess : Prop :=
  ∀ (id : PocketId) (port : PocketPort) (s : State),
    let cav := id.cav.val
    let i := id.idx.val
    let pk := cav * 112 + i
    let p := match port with | .a => 0 | .b => 1
    let att := attPocket cav i p
    let prot := pocketProt s.cfg pk
    (¬ (PortReady s cav i p ∧ (s.outToken att).isSome = true) → exec (.pocketPortAccess id port) s = .next s) ∧
    ∀ tok, PortReady s cav i p → s.outToken att = some tok →
      let w := wordPlace (pocketWidthCode s.cfg cav i p) (bitsOf 1 16 tok)
      let isWrite := bitAt 0 tok && !decide (pocketBits s.cfg cav i (13 + p) 1 = 1)
      let wrsp := pocketBits s.cfg cav i (9 + 2 * p) 2
      let written := BitVec.ofNat 72 (writeWord prot (s.row pk w.1) w.2.1 w.2.2 (tok >>> 17))
      ∃ t, exec (.pocketPortAccess id port) s = .next t ∧
        tabGet false t.fabric.attAck att = true ∧
        (s.power.mode = .quiet → t.power.mode = .run) ∧
        (∀ r, r ≠ pk * 1024 + w.1 → tabGet 0 t.pockets.rows r = tabGet 0 s.pockets.rows r) ∧
        (isWrite = true → wrsp ≠ 2 →
          tabGet 0 t.pockets.rows (pk * 1024 + w.1) = written ∧
          t.attIn att = (if wrsp = 1 then { val := tok >>> 17, ph := .offering } else s.attIn att)) ∧
        (isWrite = false ∨ wrsp = 2 → ∀ d,
          (readWord prot (s.row pk w.1) w.2.1 w.2.2 = .good d ∨ readWord prot (s.row pk w.1) w.2.1 w.2.2 = .corrected d) →
          tabGet 0 t.pockets.rows (pk * 1024 + w.1) =
            (if isWrite then written else tabGet 0 s.pockets.rows (pk * 1024 + w.1)) ∧
          t.attIn att = { val := d, ph := .offering } ∧
          (readWord prot (s.row pk w.1) w.2.1 w.2.2 = .corrected d → s.reg .pocketCntCorr 0 ≠ 0xFFFFFFFF →
            t.reg .pocketCntCorr 0 = s.reg .pocketCntCorr 0 + 1)) ∧
        (readWord prot (s.row pk w.1) w.2.1 w.2.2 ≠ .uncorrectable ∨ (isWrite = true ∧ wrsp ≠ 2) → s.power.mode ≠ .quiet →
          OthersAttached att s t ∧
          RegsKept [RegKind.pocketCntCorr.addr 0, RegKind.pocketEvt.addr 0] s t ∧
          besideFlags { t with fabric := s.fabric, pockets := { t.pockets with rows := s.pockets.rows } } = besideFlags s) ∧
        (isWrite = false ∨ wrsp = 2 → readWord prot (s.row pk w.1) w.2.1 w.2.2 = .uncorrectable →
          t.pockets.rows = s.pockets.rows ∧ t.attIn att = s.attIn att ∧
          (tabGet {} t.pockets.ports (pk * 2 + p)).blocked = true ∧ (t.cav cav).freeze = true ∧
          ((s.cav cav).freeze = false → (t.cav cav).fpocket = BitVec.ofNat 8 i) ∧ StoredKept s t)

/-- POCKET_HAUL_BLOCK_ACCESS: one whole 128-byte block through port B completes while SYS runs (06_pockets R129, R130). A Pocket whose port
B is not on the haul road answers NOPORT (code 4), an isolated cavern ISOLATED (code 7, target code 1); a Pocket that awaits its restore
lets the access wait; a write of a Pocket that takes none answers READ_ONLY (target code 2). A read whose rows are free of uncorrectable
errors answers their bytes under each protection; with one, the answer is the error (target code 3) and the cavern is frozen (R123). A
write changes the enabled bytes of its sixteen rows alone, and none of them where a row that it must read first is uncorrectable. -/
def Obligations.PocketBlockAccess : Prop :=
  ∀ (id : PocketId) (blk : Fin 64) (op : BlockOp) (s : State),
    let c := id.cav.val
    let pk := c * 112 + id.idx.val
    let prot := pocketProt s.cfg pk
    let row := fun (j : Nat) => s.row pk (16 * blk.val + j)
    let on := pocketBits s.cfg c id.idx.val 6 1 = 1
    (s.sysRuns = false → exec (.pocketHaulBlockAccess id blk op) s = .next s) ∧
    (s.sysRuns = true → ∃ t, exec (.pocketHaulBlockAccess id blk op) s = .next t ∧
      let res := tabGet {} t.pockets.blocks pk
      (∀ r, r / 16 ≠ pk * 64 + blk.val → tabGet 0 t.pockets.rows r = tabGet 0 s.pockets.rows r) ∧
      (¬ on → res = { err := 4 } ∧ t.pockets.rows = s.pockets.rows) ∧
      (on → s.isolated c = true → res = { err := 7, terr := 1 } ∧ t.pockets.rows = s.pockets.rows) ∧
      (on → s.isolated c = false → s.pockets.restoring.contains pk = true → t = s) ∧
      (on → s.isolated c = false → s.pockets.restoring.contains pk = false →
        (op = .read → t.pockets.rows = s.pockets.rows) ∧
        (op = .read → (∀ j, j < 16 → rowBytes prot (row j) ≠ .uncorrectable) →
          res = { data := (List.range 16).foldr (fun j n => (rowBytes prot (row j)).bytes + 2 ^ 64 * n) 0 }) ∧
        (op = .read → (∃ j, j < 16 ∧ rowBytes prot (row j) = .uncorrectable) →
          res = { err := 7, terr := 3 } ∧ (t.cav c).freeze = true ∧
          ((s.cav c).freeze = false → (t.cav c).fpocket = BitVec.ofNat 8 id.idx.val)) ∧
        (∀ data en, op = .write data en → pocketBits s.cfg c id.idx.val 14 1 = 1 →
          res = { err := 7, terr := 2 } ∧ t.pockets.rows = s.pockets.rows) ∧
        (∀ data en, op = .write data en → pocketBits s.cfg c id.idx.val 14 1 = 0 →
          let e := fun (j : Nat) => bitsOf (8 * j) 8 en.toNat
          let partly := fun (j : Nat) => prot = 2 ∧ e j ≠ 0 ∧ e j ≠ 255
          ((∃ j, j < 16 ∧ partly j ∧ eccDecode (row j) = .uncorrectable) →
            res = { err := 7, terr := 3 } ∧ t.pockets.rows = s.pockets.rows ∧ (t.cav c).freeze = true) ∧
          ((∀ j, j < 16 → partly j → eccDecode (row j) ≠ .uncorrectable) →
            res = {} ∧ ∀ j, j < 16 → tabGet 0 t.pockets.rows (pk * 1024 + 16 * blk.val + j) =
              (if e j = 0 then tabGet 0 s.pockets.rows (pk * 1024 + 16 * blk.val + j)
               else BitVec.ofNat 72 (rowWrite prot (row j)
                (mergeBytes (rowBytes prot (row j)).bytes (bitsOf (64 * j) 64 data.toNat) (e j)) (e j)))))) ∧
      (∀ q, q ≠ pk → tabGet {} t.pockets.blocks q = tabGet {} s.pockets.blocks q) ∧
      t.cfg = s.cfg ∧ t.conf = s.conf ∧ t.foreman = s.foreman ∧ t.lanes = s.lanes ∧ t.haul = s.haul ∧ t.power = s.power)

/-- POCKET_RESTORE: the first Pocket that awaits a restore, while the image store is free, completes it: the Pocket is cleared, the frames
of its initial contents are read again from the store and fill its rows as at its load, and they are checked against their CRC
(06_pockets R134): where they agree nothing else changes, where they do not its cavern is frozen with source 0xFF. No other Pocket's row
changes. With none waiting, or the store taken by a load, nothing changes. -/
def Obligations.PocketRestore : Prop :=
  ∀ s : State,
    (s.pockets.restoring = [] ∨ s.storeLoading = true ∨ s.loading = true → exec .pocketRestore s = .next s) ∧
    ∀ pk rest, s.pockets.restoring = pk :: rest → s.storeLoading = false → s.loading = false →
      let frames := match (tabGet {} s.pockets.info pk).source with | .store fr => fr | _ => []
      let crc := crc32c (frames.flatMap fun f => storeFrame s.conf.store f.2)
      let filled := frames.foldl (fun u f => pocketContent pk f.1 (storeFrame s.conf.store f.2) u) (pocketClear pk s)
      ∃ t, exec .pocketRestore s = .next t ∧ t.pockets.restoring = rest ∧
        (∀ r, r / 1024 ≠ pk → tabGet 0 t.pockets.rows r = tabGet 0 s.pockets.rows r) ∧
        (∀ r, r / 1024 = pk → tabGet 0 t.pockets.rows r = tabGet 0 filled.pockets.rows r) ∧
        (frames = [] → ∀ r, r / 1024 = pk → tabGet 0 t.pockets.rows r = 0) ∧
        (crc = (tabGet {} s.pockets.info pk).crc →
          { t with pockets := { t.pockets with rows := s.pockets.rows } } = { s with pockets := { s.pockets with restoring := rest } }) ∧
        (crc ≠ (tabGet {} s.pockets.info pk).crc →
          (t.cav (pk / 112)).freeze = true ∧
          ((s.cav (pk / 112)).freeze = false → (t.cav (pk / 112)).fpocket = 0xFF) ∧
          Logged (word (0x0C000000 + pk / 112 * 256 + pk % 112)) s t)

/-- GAUGE_WINDOW_END: a running gauge writes `STAGE_PS` = W/(32 N) picoseconds rounded to the nearest with halves up (all ones where it
does not fit, and for a window of no revolution, which is the model's choice, log entry 95), the larger of it and `MAX_PS`, and `VALID`,
and sets `OVER` where the comparison is on and the reading exceeds `THR_PS`; `OVER` passing from 0 to 1 raises EV012 (05_speed_latency
R114). A gauge that does not run writes nothing. GAUGE_MAX_CLR clears `MAX_PS` of every gauge (05_speed_latency R112) but to a reading
that has ended in the same SYSCLK period, which stands (R114), and nothing else. LOAD_WINDOW_END writes `PCT` and raises `PEAK` to it;
LOAD_PEAK_CLR clears `PEAK` (14_foreman R344, R348). -/
def Obligations.GaugesAndLoadWindow : Prop :=
  (∀ (c : Fin 40) (n : Nat) (s : State),
    (s.gaugeRuns c.val = false → exec (.gaugeWindowEnd c n) s = .next s) ∧
    (s.gaugeRuns c.val = true →
      let ps := if n = 0 then 0xFFF else min 0xFFF ((gaugeWindow (s.field .speedGaugeCtrl 0 16 2) + 16 * n) / (32 * n))
      let above := s.bit .speedGaugeCtrl 0 12 && decide (s.field .speedGaugeCtrl 0 0 12 < ps)
      ∃ t, exec (.gaugeWindowEnd c n) s = .next t ∧
        t.field .speedGauge c.val 0 12 = ps ∧ t.field .speedGauge c.val 16 12 = max ps (s.field .speedGauge c.val 16 12) ∧
        t.bit .speedGauge c.val 31 = true ∧ t.bit .speedGauge c.val 30 = (s.bit .speedGauge c.val 30 || above) ∧
        t.cav c.val = { s.cav c.val with gaugeAt := s.clocks.stamp + 1, gaugeOver := if above then s.clocks.stamp + 1 else (s.cav c.val).gaugeOver } ∧
        (∀ d, d ≠ c.val → t.cav d = s.cav d) ∧
        (above = true → s.bit .speedGauge c.val 30 = false → t.bit .evtPend 0 12 = true) ∧
        (above = false ∨ s.bit .speedGauge c.val 30 = true → ∀ a d, a ≠ RegKind.speedGauge.addr c.val → tabGet d t.regs a = tabGet d s.regs a) ∧
        RegsKept [RegKind.speedGauge.addr c.val] s t ∧ besideFlags { t with cavs := s.cavs } = besideFlags s)) ∧
  (∀ (p : HostPort) (s : State), s.sysRuns = true →
    (∃ t, exec (.gaugeMaxClr p) s = .next t ∧
      (∀ c, c < 40 → t.field .speedGauge c 0 12 = s.field .speedGauge c 0 12 ∧ t.field .speedGauge c 30 2 = s.field .speedGauge c 30 2 ∧
        t.field .speedGauge c 16 12 = (if (s.cav c).gaugeAt = s.clocks.stamp + 1 then s.field .speedGauge c 0 12 else 0)) ∧
      (∀ a d, (∀ c, c < 40 → a ≠ RegKind.speedGauge.addr c) → tabGet d t.regs a = tabGet d s.regs a) ∧ { t with regs := s.regs } = s) ∧
    (∀ pct : Fin 101, ∃ t, exec (.loadWindowEnd pct) s = .next t ∧ t.field .loadPct 0 0 7 = pct.val ∧
      t.field .loadPct 0 7 7 = max pct.val (s.field .loadPct 0 7 7) ∧
      (∀ a d, a ≠ RegKind.loadPct.addr 0 → tabGet d t.regs a = tabGet d s.regs a) ∧ { t with regs := s.regs } = s) ∧
    (∃ t, exec (.loadPeakClr p) s = .next t ∧ t.field .loadPct 0 0 7 = s.field .loadPct 0 0 7 ∧ t.field .loadPct 0 7 7 = 0 ∧
      (∀ a d, a ≠ RegKind.loadPct.addr 0 → tabGet d t.regs a = tabGet d s.regs a) ∧ { t with regs := s.regs } = s))

/-! ### Cells, latches, acknowledge nodes and choice elements -/

/-- CELL_EVALUATE: a cell of a live cavern in TABLE, SPLIT or CARRY mode whose outputs are EMPTY, and whose awaited inputs, at least
one, are all valid, drives what its table gives (03_cells R56, R58, R60, R61, R64): in TABLE mode F; in SPLIT mode A and B; in CARRY
mode, with P the first table bit and G the second, S = P XOR C and the carry C where P is 1 and G where P is 0. With an awaited input
not valid it drives nothing (R64), and an illegal code freezes its cavern and it does not evaluate (R67). Nothing else changes. CELL_RETURN: a cell returns its outputs to EMPTY only once every used input, every non-constant carry in, and for a carry cell
every input of its chain, is EMPTY (03_cells R63, R65); the forwarded token of a choice element returns once its granted input is
EMPTY (R77, R78). Until then, and in every other mode, nothing changes. -/
def Obligations.CellHalfCycles : Prop :=
  (∀ (id : CellId) (s : State),
      let cav := id.cav.val
      let x := id.x.val
      let y := id.y.val
      let k := id.k.val
      let cc := cellCfg s.cfg cav x y k
      let ins := s.usedIn cav x y k cc
      let cin := s.carryIn cav x y k cc
      let rails := ins.map (·.2) ++ cin.toList
      let c := s.cell cav x y k
      let i := tableIndex ins
      let f := bitAt i cc.table
      let g := bitAt (32 + i) cc.table
      let ci := carryBit cc cin
      (s.interiorLive cav = false ∨ cc.mode = 0 ∨ 3 < cc.mode → exec (.cellEvaluate id) s = .next s) ∧
      (s.interiorLive cav = true → 1 ≤ cc.mode → cc.mode ≤ 3 →
        (Rail.illegal ∈ rails → ∃ t, exec (.cellEvaluate id) s = .next t ∧ FrozenBy cav 0xFF 0x03 s t ∧ t.cell cav x y k = c) ∧
        (Rail.illegal ∉ rails → (rails.any fun r => !r.valid) = true ∨ rails = [] ∨ c.quiet = false →
          exec (.cellEvaluate id) s = .next s) ∧
        (rails.all Rail.valid = true → rails ≠ [] → c.quiet = true →
          (cc.mode = 1 → exec (.cellEvaluate id) s =
            .next (s.setCell cav x y k { c with src0 := Rail.ofBool f, src1 := .empty, carry := .empty })) ∧
          (cc.mode = 2 → exec (.cellEvaluate id) s =
            .next (s.setCell cav x y k { c with src0 := Rail.ofBool f, src1 := Rail.ofBool g, carry := .empty })) ∧
          (cc.mode = 3 → exec (.cellEvaluate id) s =
            .next (s.setCell cav x y k { c with src0 := Rail.ofBool (f != ci), src1 := Rail.ofBool (if f then ci else g),
                                                carry := Rail.ofBool (if f then ci else g) }))))) ∧
  (∀ (id : CellId) (s : State),
      let cav := id.cav.val
      let x := id.x.val
      let y := id.y.val
      let k := id.k.val
      let cc := cellCfg s.cfg cav x y k
      let rails := (s.usedIn cav x y k cc).map (·.2) ++ (s.carryIn cav x y k cc).toList
      let c := s.cell cav x y k
      let chain := s.chainEmptyDown cav x 800 y k = true ∧ s.chainEmptyUp cav x 800 y k = true
      let grant := (tabGet {} s.fabric.choices (chamberKey cav x y)).grant
      (s.interiorLive cav = false ∨ cc.mode = 0 ∨ 4 < cc.mode → exec (.cellReturn id) s = .next s) ∧
      (s.interiorLive cav = true → 1 ≤ cc.mode → cc.mode ≤ 3 →
        ((∃ r ∈ rails, r ≠ .empty) ∨ (cc.mode = 3 ∧ ¬ chain) → exec (.cellReturn id) s = .next s) ∧
        ((∀ r ∈ rails, r = .empty) → (cc.mode = 3 → chain) →
          exec (.cellReturn id) s = .next (s.setCell cav x y k { c with src0 := .empty, src1 := .empty, carry := .empty }))) ∧
      (s.interiorLive cav = true → cc.mode = 4 →
        (grant = none → exec (.cellReturn id) s = .next s) ∧
        (grant = some .a → exec (.cellReturn id) s =
          .next (if s.cellIn cav x y k 0 = .empty then s.setCell cav x y k { c with src0 := .empty } else s)) ∧
        (grant = some .b → exec (.cellReturn id) s =
          .next (if s.cellIn cav x y k 1 = .empty then s.setCell cav x y k { c with src1 := .empty } else s))))

/-- LATCH_CAPTURE: a latch in use captures exactly when its output side is VACANT, its input side OPEN and its input valid; it then
holds that value and closes its input (03_cells R68, R69, R70), which ends QUIET where its cavern is not isolated (16_power R381). No other condition causes a capture
(R70), and an illegal code freezes the cavern, its token withheld (02_token_contract R54). -/
def Obligations.LatchCapture : Prop :=
  ∀ (id : CellId) (l : LatchNo) (s : State),
    let cav := id.cav.val
    let c := s.cell cav id.x.val id.y.val id.k.val
    let d := s.latchIn id l
    let on := s.interiorLive cav = true ∧ (cellCfg s.cfg cav id.x.val id.y.val id.k.val).latchOn l = true
    let moved := s.setCell cav id.x.val id.y.val id.k.val (c.putLatch l (.hold (decide (d = .v1))) .closing)
    (on → d = .illegal → ∃ t, exec (.latchCapture id l) s = .next t ∧ FrozenBy cav 0xFF 0x02 s t ∧
      t.cell cav id.x.val id.y.val id.k.val = c) ∧
    (on → (c.latch l).1 = .vacant → (c.latch l).2 = .isOpen → d.valid = true →
      ∃ t, exec (.latchCapture id l) s = .next t ∧ t.fabric = moved.fabric ∧
        (s.power.mode ≠ .quiet ∨ s.isolated cav = true → t = moved) ∧
        (s.power.mode = .quiet → s.isolated cav = false → t.power.mode = .run) ∧
        besideFlags { t with fabric := s.fabric, power := s.power } = besideFlags s) ∧
    (¬ on ∨ (d ≠ .illegal ∧ ((c.latch l).1 ≠ .vacant ∨ (c.latch l).2 ≠ .isOpen ∨ d.valid = false)) →
      exec (.latchCapture id l) s = .next s)

/-- LATCH_TOKEN_TRANSFER, LATCH_RELEASE and LATCH_INPUT_REOPEN: the three other moves of a latch in use, each on its own side
(03_cells R68, R69). A held token leaves when the consumers' acknowledge is high; RETURN passes to VACANT when it is low, and a valid input
that waits at an open input side is captured in the same step (R71); CLOSING passes to OPEN when the latch's input is EMPTY. In every other state of the latch nothing changes. A latch holds its stored value,
unchanged, from capture until the acknowledge rises, and it captures no new value while its output side is holding or in RETURN, nor
while its input side is CLOSING, whatever its input carries (R71). -/
def Obligations.LatchMoves : Prop :=
  ∀ (id : CellId) (l : LatchNo) (s : State),
    let cav := id.cav.val
    let c := s.cell cav id.x.val id.y.val id.k.val
    let on := s.interiorLive cav = true ∧ (cellCfg s.cfg cav id.x.val id.y.val id.k.val).latchOn l = true
    let put := fun (o : LatchOut) (i : LatchIn) => s.setCell cav id.x.val id.y.val id.k.val (c.putLatch l o i)
    (∀ v, on → (c.latch l).1 = .hold v → s.latchAck id l = true →
      exec (.latchTokenTransfer id l) s = .next (put .returning (c.latch l).2)) ∧
    (¬ on ∨ (∀ v, (c.latch l).1 ≠ .hold v) ∨ s.latchAck id l = false → exec (.latchTokenTransfer id l) s = .next s) ∧
    (on → (c.latch l).1 = .returning → s.latchAck id l = false → (c.latch l).2 = .closing ∨ (s.latchIn id l).valid = false →
      exec (.latchRelease id l) s = .next (put .vacant (c.latch l).2)) ∧
    (on → (c.latch l).1 = .returning → s.latchAck id l = false → (c.latch l).2 = .isOpen → (s.latchIn id l).valid = true →
      ∃ t, exec (.latchRelease id l) s = .next t ∧ t.fabric = (put (.hold (decide (s.latchIn id l = .v1))) .closing).fabric ∧
        (s.power.mode ≠ .quiet ∨ s.isolated cav = true → { t with fabric := s.fabric } = s) ∧
        (s.power.mode = .quiet → s.isolated cav = false → t.power.mode = .run)) ∧
    (¬ on ∨ (c.latch l).1 ≠ .returning ∨ s.latchAck id l = true → exec (.latchRelease id l) s = .next s) ∧
    (on → (c.latch l).2 = .closing → s.latchIn id l = .empty →
      exec (.latchInputReopen id l) s = .next (put (c.latch l).1 .isOpen)) ∧
    (¬ on ∨ (c.latch l).2 ≠ .closing ∨ s.latchIn id l ≠ .empty → exec (.latchInputReopen id l) s = .next s) ∧
    ((c.latch l).1 ≠ .vacant ∨ (c.latch l).2 ≠ .isOpen →
      ∃ t, exec (.latchCapture id l) s = .next t ∧ t.cell cav id.x.val id.y.val id.k.val = c)

/-- ACK_NODE_SWITCH: a node of an interior that is not held takes the level that its enabled inputs agree on, keeps its level where
they disagree, and is low with none enabled (04_routing R91, R96), once attachments whose channels are EMPTY have lowered their
acknowledges (02_token_contract R35). A global node that rises takes the token that each attachment it acknowledges offers, and one
that falls lets the attachment offer again (04_routing R97); a token withheld at the gate stays (02_token_contract R54). No other node, and no cell, latch or choice element, changes. CHOICE_GRANT and CHOICE_GRANT_END: with no grant in progress, one pending request is granted and its token forwarded, value
unchanged, to that side's output (03_cells R77, R79); of two, the one that is owed the next grant, and with none owed either of them (a
free value decides, log entry 8). While a grant is in progress nothing is granted (R78). A grant ends once the granted input and output
have completed their return phases, and a request then pending on the other side is owed the next grant (02_token_contract R46). -/
def Obligations.AckAndChoice : Prop :=
  (∀ (n : NodeId) (s : State),
      (s.nodeLive n = false → exec (.ackNodeSwitch n) s = .next s) ∧
      (s.nodeLive n = true →
        let ins := (lowerAcks s).nodeInputs n
        ∃ t, exec (.ackNodeSwitch n) s = .next t ∧
          (ins = [] → t.node (nodeKey n) = false) ∧
          (ins ≠ [] → (∀ b ∈ ins, b = true) → t.node (nodeKey n) = true) ∧
          ((∀ b ∈ ins, b = false) → t.node (nodeKey n) = false) ∧
          (true ∈ ins → false ∈ ins → t.node (nodeKey n) = s.node (nodeKey n)) ∧
          (∀ k, k ≠ nodeKey n → k < 5000000 → t.node k = s.node k) ∧
          (∀ cav i a, n = .gn cav i → attCav a = cav.val → attNode s.cfg a = i.val → t.node (nodeKey n) ≠ s.node (nodeKey n) →
            ((s.attIn a).withheld = true → t.attIn a = s.attIn a) ∧
            ((s.attIn a).withheld = false → t.node (nodeKey n) = true → (s.attIn a).ph = .offering →
              t.attIn a = { s.attIn a with ph := .returning }) ∧
            ((s.attIn a).withheld = false → t.node (nodeKey n) = false → (s.attIn a).ph = .returning → (t.attIn a).ph ≠ .returning)) ∧
          t.fabric.cells = s.fabric.cells ∧ t.fabric.choices = s.fabric.choices ∧
          { t with fabric := s.fabric, cavs := s.cavs, pins := s.pins } = s)) ∧
  (∀ (c : ChamberId) (s : State),
      let v := s.cell c.cav.val c.x.val c.y.val 15
      let ch := s.choice c
      let granted := fun (side : ChoiceSide) (t : State) =>
        t.choice c = { grant := some side, owed := none } ∧
        t.cell c.cav.val c.x.val c.y.val 15 =
          (match side with | .a => { v with src0 := s.request c .a } | .b => { v with src1 := s.request c .b }) ∧
        (∀ k, k ≠ cellKey c.cav.val c.x.val c.y.val 15 → tabGet {} t.fabric.cells k = tabGet {} s.fabric.cells k) ∧
        (∀ k, k ≠ chamberKey c.cav.val c.x.val c.y.val → tabGet {} t.fabric.choices k = tabGet {} s.fabric.choices k) ∧
        { t with fabric := { t.fabric with cells := s.fabric.cells, choices := s.fabric.choices }, freeCtr := s.freeCtr } = s
      (s.choiceOn c = false ∨ ch.grant.isSome = true → exec (.choiceGrant c) s = .next s) ∧
      (s.choiceOn c = true → ch.grant = none →
        (s.request c .a ≠ .illegal → s.request c .b ≠ .illegal →
          (∀ side other, (side = .a ∧ other = .b) ∨ (side = .b ∧ other = .a) →
            (s.request c side).valid = true → (s.request c other).valid = false →
            ∃ t, exec (.choiceGrant c) s = .next t ∧ granted side t ∧ t.freeCtr = s.freeCtr) ∧
          ((s.request c .a).valid = true → (s.request c .b).valid = true →
            ∃ side t, exec (.choiceGrant c) s = .next t ∧ granted side t ∧ (∀ w, ch.owed = some w → side = w)) ∧
          ((s.request c .a).valid = false → (s.request c .b).valid = false → exec (.choiceGrant c) s = .next s)) ∧
        (s.request c .a = .illegal ∨ s.request c .b = .illegal →
          ∃ t, exec (.choiceGrant c) s = .next t ∧ FrozenBy c.cav.val 0xFF 0x03 s t)) ∧
      (∀ side other, (side = .a ∧ other = .b) ∨ (side = .b ∧ other = .a) → s.choiceOn c = true → ch.grant = some side →
        exec (.choiceGrantEnd c) s = .next (if s.request c side = .empty ∧ s.grantDone c side = true then
          s.setChoice c { grant := none, owed := if (s.request c other).valid then some other else none } else s)) ∧
      (s.choiceOn c = false ∨ ch.grant = none → exec (.choiceGrantEnd c) s = .next s))

/-- DUAL_RAIL_FAULT: a latch in use of a live cavern that finds a bit with both rails high withholds its token, and the cavern is frozen; a
cell in OFF mode raises none (03_cells R59). A boundary gate that finds a bit into its cavern illegal freezes that cavern and withholds the
bit's token: an output's channel no longer passes the gate, and an attachment's token stays offered (02_token_contract R54). A cavern
under a self-test raises none (18_self_test_faults R441), and one whose interior does not move has none. -/
def Obligations.DualRailFault : Prop :=
  ∀ s : State,
    (∀ (id : CellId) (l : LatchNo),
      let cav := id.cav.val
      let cc := cellCfg s.cfg cav id.x.val id.y.val id.k.val
      let c := s.cell cav id.x.val id.y.val id.k.val
      let raises := s.interiorLive cav = true ∧ (s.cav cav).bist = false ∧ cc.mode ≠ 0 ∧ cc.latchOn l = true
      (raises → ∃ t, exec (.dualRailFault (.latch id l)) s = .next t ∧ FrozenBy cav 0xFF 0x02 s t ∧
        t.cell cav id.x.val id.y.val id.k.val = c.putLatch l .withheld (c.latch l).2) ∧
      (¬ raises → exec (.dualRailFault (.latch id l)) s = .next s)) ∧
    (∀ (into : Fin 40) (bit : GateBit),
      let raises := (s.cav into.val).bist = false ∧ s.interiorLive into.val = true ∧ gateBitOf s.cfg into.val bit = true
      (raises → ∃ t, exec (.dualRailFault (.gate into bit)) s = .next t ∧ FrozenBy into.val 0xFF 0x02 s t ∧
        (∀ c y1, bit = .out c y1 → t.fabric = s.fabric ∧
          ∀ e ∈ (t.cav into.val).pass, sameChannel s.cfg (outKey c.cav.val c.x.val c.y.val (16 * bitNat y1 + c.k.val)) e.1 = false) ∧
        (∀ c j a m, bit = .edge c j → edgeIn s.cfg c.cav.val c.x.val c.y.val j.val = some (a, m) →
          t.attIn a = (if (s.attIn a).ph = .offering then { s.attIn a with withheld := true } else s.attIn a) ∧
          ∀ b, b ≠ a → t.attIn b = s.attIn b)) ∧
      (¬ raises → exec (.dualRailFault (.gate into bit)) s = .next s))

/-! ### Crushers -/

/-- CRUSHER_SLOT: a running engine takes its next owned slot (07_crushers R142, R145). A client that is not ready, or for whose slice a Sump
destination has no room to reserve (08_sump R179), idles the slice and counts in `CRnn_IDLE`, which saturates (19_events_counters R467). A
ready client has the beats of its slice taken from its input into the engine's pipeline with the timestamp of the slice's first cycle and
the destinations at which it holds room. With an uncorrectable word in its context (R162) it is halted as well: its slices offer nothing
more, `HALTED` and `CRnn_EVT` bit 2 are set, and the fault log takes an entry. An engine that does not run, or owns no slot, changes
nothing. -/
def Obligations.CrusherSlot : Prop :=
  ∀ (e : Fin 16) (found : EccFound) (s : State),
    (s.engineRuns e.val = false → exec (.crusherSlot e found) s = .next s) ∧
    (nextSlot s.cfg e.val 512 (tabGet 0 s.crushers.pos e.val) = none → exec (.crusherSlot e found) s = .next s) ∧
    ∀ n, s.engineRuns e.val = true → nextSlot s.cfg e.val 512 (tabGet 0 s.crushers.pos e.val) = some n →
      let k := bitsOf 0 7 (slotEntry s.cfg e.val n)
      let reserved := fun (b : List CBeat × Bool × List (Nat × Nat)) =>
        reserveAll e.val k (b.2.1 || s.beginPiped e.val k || !(s.clientState e.val k).started) b.2.2 s
      let idle := fun (t : State) =>
        (s.reg .crIdle e.val ≠ 0xFFFFFFFF → t.reg .crIdle e.val = s.reg .crIdle e.val + 1) ∧
        (s.reg .crIdle e.val = 0xFFFFFFFF → t.reg .crIdle e.val = 0xFFFFFFFF) ∧
        t.crushers = { s.crushers with pos := t.crushers.pos } ∧ t.portals = s.portals ∧ t.lanes = s.lanes ∧ StoredKept s t
      ∃ t, exec (.crusherSlot e found) s = .next t ∧
        tabGet 0 t.crushers.pos e.val = (n + 1) % 512 ∧ (∀ j, j ≠ e.val → tabGet 0 t.crushers.pos j = tabGet 0 s.crushers.pos j) ∧
        (s.readyBeats e.val k = none → idle t ∧
          RegsKept [RegKind.crIdle.addr e.val, RegKind.crEvt.addr e.val] s t ∧
          besideFlags { t with crushers := s.crushers } = besideFlags s) ∧
        (∀ b, s.readyBeats e.val k = some b →
          ((b.2.2.all fun d => decide (d.1 ≠ 1)) = true → (reserved b).1 = true ∧ (reserved b).2 = s) ∧
          ((reserved b).1 = false → idle t ∧ t.sump.resv = s.sump.resv) ∧
          ((reserved b).1 = true → found ≠ .uncorrectable →
            tabGet [] t.crushers.pipe e.val = tabGet [] s.crushers.pipe e.val ++
              [{ client := k, beats := b.1, stamp := s.clocks.stamp, begins := b.2.1, dests := b.2.2 }] ∧
            (∀ j, j ≠ e.val → tabGet [] t.crushers.pipe j = tabGet [] s.crushers.pipe j) ∧
            t.crushers.inbuf = (if k < 96 then tabMod [] s.crushers.inbuf k (·.drop b.1.length) else s.crushers.inbuf) ∧
            (96 ≤ k → t.portal (fpiPortal e.val (k - 96)) =
              let v := s.portal (fpiPortal e.val (k - 96))
              let w := (((s.clientInput e.val k).take b.1.length).map (·.2)).sum
              { v with queue := v.queue.drop w, ready := v.ready - w }) ∧
            (∀ p, k < 96 ∨ p ≠ fpiPortal e.val (k - 96) → t.portal p = s.portal p) ∧
            t.sump.resv = (reserved b).2.sump.resv ∧
            t.crushers = { s.crushers with pos := t.crushers.pos, pipe := t.crushers.pipe, inbuf := t.crushers.inbuf
                                           anew := s.crushers.anew.filter fun x => decide (x ≠ clientKey e.val k), used := s.clocks.sys + 1 } ∧
            RegsKept sumpRegisters s t ∧
            besideFlags { t with crushers := s.crushers, portals := s.portals, sump := s.sump } = besideFlags s) ∧
          ((reserved b).1 = true → found = .uncorrectable →
            t.clientHalted e.val k = true ∧ (∀ sl ∈ tabGet [] t.crushers.pipe e.val, sl.client ≠ k) ∧
            (t.reg .crEvt e.val).getLsbD 2 = true ∧ Logged (word (0x04000000 + (256 * e.val + k))) s t ∧
            (∀ j w, j ≠ clientKey e.val k → w < 64 →
              tabGet 0 t.crushers.ctx (64 * j + w) = tabGet 0 s.crushers.ctx (64 * j + w)) ∧
            StoredKept s t ∧
            besideFlags { t with crushers := s.crushers, portals := s.portals, flog := s.flog, sump := s.sump
                                 crossings := { t.crossings with fromCrusher := s.crossings.fromCrusher } } = besideFlags s))

/-- CRUSHER_SLICE_COMPLETE: the oldest slice of an engine leaves the pipeline; its client's program runs on it in order
(07_crushers R144, R149), the state words are written back, the counters of errors, saturations and drops advance and saturate
(R147), and the output beats go to the destination of the packet (R148): a lane's crossing or a fabric output's portal. A packet that
MATCH drops offers nothing (R158). The state words of every other client are left as they were. With no slice in the pipeline nothing
changes. -/
def Obligations.CrusherSliceComplete : Prop :=
  ∀ (e : Fin 16) (s : State),
    (tabGet [] s.crushers.pipe e.val = [] → exec (.crusherSliceComplete e) s = .next s) ∧
    ∀ sl rest, s.sysRuns = true → tabGet [] s.crushers.pipe e.val = sl :: rest →
      let k := sl.client
      let token := !(s.clientPkt e.val k)
      let r0 := sliceRun token (s.clientState e.val k) ((List.range 32).map fun i => s.ctx e.val k (28 + i)) s.freeCtr sl
      let r := if r0.pkt.drop then r0 else runProgram (s.ctx e.val k) (List.range 8) r0
      let out := if r.pkt.drop then [] else outBeats r
      let d := if r.pkt.alt then (s.ctxCfg e.val k 15 2, s.ctxCfg e.val k 4 11) else (s.ctxCfg e.val k 28 2, s.ctxCfg e.val k 17 11)
      ∃ t, exec (.crusherSliceComplete e) s = .next t ∧
        tabGet [] t.crushers.pipe e.val = rest ∧ (∀ j, j ≠ e.val → tabGet [] t.crushers.pipe j = tabGet [] s.crushers.pipe j) ∧
        (∀ i, i < 32 → t.ctx e.val k (28 + i) = r.st.getD i 0) ∧
        (t.ctx e.val k 60).toNat = min ((s.ctx e.val k 60).toNat + r.errs) (2 ^ 32 - 1) ∧
        (t.ctx e.val k 61).toNat = min ((s.ctx e.val k 61).toNat + r.sats) (2 ^ 32 - 1) ∧
        (t.ctx e.val k 62).toNat = min ((s.ctx e.val k 62).toNat + r.drops) (2 ^ 32 - 1) ∧
        (r.errs ≠ 0 → (t.reg .crEvt e.val).getLsbD 0 = true) ∧ (r.sats ≠ 0 → (t.reg .crEvt e.val).getLsbD 1 = true) ∧
        (∀ w, w < 28 → t.ctx e.val k w = s.ctx e.val k w) ∧
        (∀ j w, j ≠ clientKey e.val k → w < 64 → tabGet 0 t.crushers.ctx (64 * j + w) = tabGet 0 s.crushers.ctx (64 * j + w)) ∧
        (d.1 = 2 → tabGet [] t.crossings.fromCrusher d.2 = tabGet [] s.crossings.fromCrusher d.2 ++ out) ∧
        (d.1 = 3 → (t.portal (fpoPortal e.val d.2)).stage =
          (s.portal (fpoPortal e.val d.2)).stage ++ out.flatMap (fpoWords (portalWidth s.cfg (fpoPortal e.val d.2)))) ∧
        (∀ x, d.1 ≠ 2 ∨ x ≠ d.2 → tabGet [] t.crossings.fromCrusher x = tabGet [] s.crossings.fromCrusher x) ∧
        (∀ p, d.1 ≠ 3 ∨ p ≠ fpoPortal e.val d.2 → t.portal p = s.portal p) ∧
        t.crushers = { s.crushers with pipe := t.crushers.pipe, ctx := t.crushers.ctx, pkts := t.crushers.pkts } ∧
        RegsKept [RegKind.crEvt.addr e.val] s t ∧
        besideFlags { t with crushers := s.crushers, portals := s.portals, sump := s.sump, freeCtr := s.freeCtr
                             crossings := { t.crossings with fromCrusher := s.crossings.fromCrusher } } = besideFlags s

/-- CLIENT_HOLD_WRITE completes wherever the register is reached, and no port that comes later in the order of one clock has written it in
this clock (20_register_map R476): `CRnn_HOLDi` takes the value written (07_crushers R164). A client that it releases after a halt, or
after a reinitialisation that followed one, has the portals that feed it and that it feeds reset (09_portals R210, R211): their queues
empty, the next token marked `RST`. With no bit going from 1 to 0, the register alone changes. -/
def Obligations.ClientHoldWrite : Prop :=
  ∀ (p : HostPort) (e : Fin 16) (hold : Fin 4) (val : Word) (s : State),
    let k := holdReg hold.val
    let old := s.reg k e.val
    let client := fun (b : Nat) => 32 * hold.val + b
    (s.reach (k.addr e.val) = .open → s.outranked (writerRank p) (k.addr e.val) = false →
      ∃ t, exec (.clientHoldWrite p e hold val) s = .next t ∧ t.reg k e.val = val ∧
        (old &&& ~~~ val = 0 → (∀ a d, a ≠ k.addr e.val → tabGet d t.regs a = tabGet d s.regs a) ∧ besideRegs t = besideRegs s) ∧
        (∀ b q, b < 32 → old.getLsbD b = true → val.getLsbD b = false →
          s.clientHalted e.val (client b) = true ∨ s.crushers.revived.contains (clientKey e.val (client b)) = true →
          q ∈ s.clientPortals e.val (client b) → portalEn s.cfg q = true → (t.portal q).queue = [] ∧ (t.portal q).rst = true) ∧
        (∀ q, (∀ b, b < 32 → old.getLsbD b = true → val.getLsbD b = false → q ∉ s.clientPortals e.val (client b)) →
          t.portal q = s.portal q) ∧
        t.crushers = { s.crushers with revived := t.crushers.revived } ∧
        RegsKept [k.addr e.val, RegKind.portalDisc.addr 0, RegKind.xcOvr.addr 0] s t ∧
        besideFlags { t with crushers := s.crushers, portals := s.portals, sump := { t.sump with reads := s.sump.reads } } =
          besideFlags s) ∧
    (s.reach (k.addr e.val) = .open → s.outranked (writerRank p) (k.addr e.val) = true → exec (.clientHoldWrite p e hold val) s = .next s) ∧
    WriteTurnedAway p k e.val val s (exec (.clientHoldWrite p e hold val) s)

/-! ### The Sump -/

/-- SUMP_PUSH, refused: the checks of an attempt in their order (08_sump R178), for a beat in stream mode or a `SOP` beat, offered by a
producer that the port serves and that holds no reservation. DISABLED and NOT_OWNER count nothing; NODESC and FULL count one each. A
refused beat is not taken: no queue, cell, descriptor or free list changes. SUMP_PUSH, accepted: a beat that passes the checks takes the cell at the head of the free list (08_sump R178). In stream mode the
cell is complete and joins the queue's cells at their end. In packet mode a `SOP` beat of a producer with no packet in progress takes a
descriptor and opens a packet, which an `EOP` in the same beat ends; a bad one is then rewound and counted (R182). No other queue
changes. SUMP_PUSH of the beat that a Crusher port or the portal of the port 2 entry holds: it is offered with its own producer, leaves
the held beats when it is taken and stays when it is refused. A port that has moved a beat in this clock or whose eight waiting cells are
full, a producer that another port serves, and a port with nothing held for the queue change nothing but the portal's burst, which ends
(08_sump R169, R171, R178, R192). -/
def Obligations.SumpPush : Prop :=
  (∀ (port : Fin 4) (q : Fin 2048) (p : Producer) (b : SumpBeat) (s : State),
      let sop := qPkt s.cfg q.val && b.stored.sop
      let full := (qQuota s.cfg q.val ≠ 0 ∧ qQuota s.cfg q.val ≤ s.quotaCells q.val) ∨ s.freeCells = 0
      s.blocksRun = true → s.portTakes port.val q.val false = true → s.producerFits port.val q.val p = true →
      s.resvOf p q.val = none → (qPkt s.cfg q.val = false ∨ b.stored.sop = true) →
      (qEn s.cfg q.val = false ∨ qMayPush s.cfg q.val port.val = false ∨ (sop = true ∧ s.freeDescs = 0) ∨ full) →
      ∃ t, exec (.sumpPush port q (.given p b)) s = .next t ∧
        tabGet 0 t.sump.result port.val =
          (if qEn s.cfg q.val = false then 1 else if qMayPush s.cfg q.val port.val = false then 2
           else if sop = true ∧ s.freeDescs = 0 then 3 else 4) ∧
        (tabGet 0 t.sump.result port.val = 3 → CountedOne .sumpCntNodesc 0 s t) ∧
        (tabGet 0 t.sump.result port.val = 4 → CountedOne .sumpCntFull 0 s t) ∧
        (tabGet 0 t.sump.result port.val ≤ 2 → t.regs = s.regs) ∧
        t.sump = { s.sump with result := t.sump.result, moved := t.sump.moved } ∧
        RegsKept [RegKind.sumpEvt.addr 0, RegKind.sumpCntNodesc.addr 0, RegKind.sumpCntFull.addr 0, RegKind.sumpOvf.addr 0] s t ∧
        besideFlags { t with sump := s.sump } = besideFlags s) ∧
  (∀ (port : Fin 4) (q : Fin 2048) (p : Producer) (b : SumpBeat) (s : State),
      s.blocksRun = true → s.portTakes port.val q.val false = true → s.producerFits port.val q.val p = true →
      s.resvOf p q.val = none → qEn s.cfg q.val = true → qMayPush s.cfg q.val port.val = true →
      (qQuota s.cfg q.val = 0 ∨ s.quotaCells q.val < qQuota s.cfg q.val) → s.freeCells ≠ 0 →
      (qPkt s.cfg q.val = false → ∃ c t, exec (.sumpPush port q (.given p b)) s = .next t ∧
        tabGet 0 t.sump.result port.val = 0 ∧ TookCell port.val q.val c b.stored none true s t ∧
        (t.queue q.val).stream = (s.queue q.val).stream ++ [c] ∧
        (t.queue q.val).bytesIn = min ((s.queue q.val).bytesIn + b.stored.bytes) (2 ^ 64 - 1) ∧
        OtherQueues q.val s t ∧ t.sump.descs = s.sump.descs ∧ RegsKept sumpRegisters s t ∧
        besideFlags { t with sump := s.sump, portals := s.portals } = besideFlags s ∧ BurstsOnly s t) ∧
      (qPkt s.cfg q.val = true → b.stored.sop = true → s.freeDescs ≠ 0 → s.inProgress q.val p = none →
        ∃ c d t, exec (.sumpPush port q (.given p b)) s = .next t ∧
          tabGet 0 t.sump.result port.val = 0 ∧
          (s.sump.freshDesc < 16384 → d = s.sump.freshDesc) ∧ (16384 ≤ s.sump.freshDesc → s.sump.freeDescs = d :: t.sump.freeDescs) ∧
          TookCell port.val q.val c b.stored (some d) b.stored.eop s t ∧
          (b.stored.eop = false → (t.queue q.val).opens = (s.queue q.val).opens ++ [d] ∧ (p, d) ∈ (t.queue q.val).prog ∧
            (t.desc d).cells = [c] ∧ (t.desc d).used = true ∧ (t.desc d).len = 128) ∧
          (b.stored.eop = true → b.stored.bad = false → b.stored.err = false →
            (t.queue q.val).opens = (s.queue q.val).opens ++ [d] ∧ (∀ e, (e, d) ∉ (t.queue q.val).prog) ∧ (t.desc d).cells = [c] ∧
            (t.queue q.val).pktsIn = min ((s.queue q.val).pktsIn + 1) (2 ^ 64 - 1)) ∧
          (b.stored.eop = true → b.stored.bad = true ∨ b.stored.err = true →
            CountedOne .sumpCntRewind 0 s t ∧ d ∉ (t.queue q.val).opens ∧ c ∈ t.sump.gone ∧ d ∈ t.sump.goneDescs) ∧
          OtherQueues q.val s t ∧ RegsKept sumpRegisters s t ∧ besideFlags { t with sump := s.sump, portals := s.portals } = besideFlags s ∧ BurstsOnly s t)) ∧
  (∀ (port : Fin 4) (q : Fin 2048) (s : State),
      (∀ o, s.blocksRun = false ∨ s.portTakes port.val q.val false = false → exec (.sumpPush port q o) s = .next s) ∧
      (∀ p b, s.producerFits port.val q.val p = false → exec (.sumpPush port q (.given p b)) s = .next s) ∧
      (port.val < 2 → (∀ o ∈ s.sump.offers, o.port ≠ port.val ∨ o.queue ≠ q.val) →
        exec (.sumpPush port q .held) s = .next s) ∧
      (∀ x, s.blocksRun = true → s.portTakes port.val q.val false = true → port.val < 2 →
        s.sump.offers.find? (fun x => x.port = port.val ∧ x.queue = q.val) = some x →
        ∃ t, exec (.sumpPush port q .held) s = .next t ∧
          (tabGet 0 t.sump.result port.val = 0 → t.sump.offers = s.sump.offers.erase x) ∧
          (tabGet 0 t.sump.result port.val ≠ 0 → t.sump.offers = s.sump.offers) ∧
          (pushBeat port.val q.val x.producer x.beat (usePort port.val q.val false s)).1.code = tabGet 0 t.sump.result port.val ∧
          (∀ r, r ≠ q.val → (t.queue r).stream = (s.queue r).stream ∧ (t.queue r).held = (s.queue r).held) ∧
          RegsKept sumpRegisters s t ∧ besideFlags { t with sump := s.sump } = besideFlags s) ∧
      (port.val = 3 → exec (.sumpPush port q .held) s = .next s) ∧
      (s.blocksRun = true → s.portTakes port.val q.val false = true → port.val = 2 →
        let e := s.port2Now
        let k := bitsOf 0 7 e
        let p := spPortal k 1
        let pr : Producer := .portal (Fin.ofNat 16 (k / 8)) (Fin.ofNat 54 (32 + k % 8))
        let serves := bitAt 15 e = true ∧ bitAt 14 e = true ∧ bitAt 13 e = false ∧ portalEn s.cfg p = true ∧ portalBind s.cfg p = q.val ∧
          (s.portal p).paused = none
        (¬ serves → exec (.sumpPush port q .held) s = .next s) ∧
        (serves → ∃ t, exec (.sumpPush port q .held) s = .next t ∧
          (∀ n, n ≠ p → t.portal n = s.portal n) ∧
          ((s.portal p).beats = [] → t.sump = s.sump ∧ (t.portal p).burst = 0 ∧ (t.portal p).pausing = none ∧
            (t.portal p).paused = (s.portal p).pausing) ∧
          (∀ b n rest, (s.portal p).beats = (b, n) :: rest →
            (pushBeat 2 q.val pr b (usePort 2 q.val false s)).1.code = tabGet 0 t.sump.result 2 ∧
            (t.portal p).beats = (if tabGet 0 t.sump.result 2 = 0 then rest else (s.portal p).beats) ∧
            (b.eop = true → tabGet 0 t.sump.result 2 = 0 → (t.portal p).burst = 0)) ∧
          (t.portal p).queue = (s.portal p).queue ∧
          RegsKept sumpRegisters s t ∧ besideFlags { t with sump := s.sump, portals := s.portals } = besideFlags s)))

/-- SUMP_POP completes at ports 2 and 3, which pop for the attachment that they serve in the clock (08_sump R169, R184): port 3 for the
master of its slot that has asked for the queue; port 2 for the portal of its pop entry, or the lane, whose pop is LANE_QUEUE_DRAIN. What
a pop does is `PopsAt`. A portal that holds a cell's second beat moves it without a pop (09_portals R205); one without room for a whole
cell ends its burst. Ports 0 and 1 only push; a port that has moved a beat in this clock, and one whose attachment is another, change
nothing. -/
def Obligations.SumpPop : Prop :=
  ∀ (port : Fin 4) (q : Fin 2048) (e0 e1 : BeatFound) (s : State),
    let free := s.blocksRun = true ∧ s.portTakes port.val q.val true = true
    let e := s.port2Now
    let k := bitsOf 0 7 e
    (¬ free ∨ port.val < 2 → exec (.sumpPop port q e0 e1) s = .next s) ∧
    (free → port.val = 3 →
      let m := slotOwner s.cfg s.clocks.sys
      let v := s.master m
      (v.popping = true → targetOf v.src = .queue q.val → ∃ t, exec (.sumpPop port q e0 e1) s = .next t ∧
        let u := s.modMaster m fun v => { v with popping := false }
        MasterOnly m s u ∧ u.sump = s.sump ∧ t.master m = { v with popping := false } ∧ t.haul = u.haul ∧ t.portals = s.portals ∧
        PopsAt 3 q.val e0 e1 (.master m q.val) u t) ∧
      (v.popping = false ∨ targetOf v.src ≠ .queue q.val → exec (.sumpPop port q e0 e1) s = .next s)) ∧
    (free → port.val = 2 →
      let p := spPortal k 0
      let v := s.portal p
      let w := portalWidth s.cfg p
      let serves := bitAt 15 e = true ∧ bitAt 14 e = false ∧ bitAt 13 e = false ∧ portalEn s.cfg p = true ∧
        portalBind s.cfg p = q.val ∧ v.paused = none ∧ s.reading (.portal p) = false
      (bitAt 15 e = false ∨ bitAt 14 e = true → exec (.sumpPop port q e0 e1) s = .next s) ∧
      (∀ n : Fin 96, bitAt 15 e = true → bitAt 14 e = false → bitAt 13 e = true → n.val = k →
        exec (.sumpPop port q e0 e1) s = (if lnTxq s.cfg k = q.val then exec (.laneQueueDrain n e0 e1) s else .next s)) ∧
      (bitAt 13 e = false → ¬ serves → exec (.sumpPop port q e0 e1) s = .next s) ∧
      (serves → v.held = [] → v.queue.length + v.stage.length + 2048 / w ≤ portalDepth s.cfg p →
        ∃ t, exec (.sumpPop port q e0 e1) s = .next t ∧ t.portal p = { v with burst := v.burst + 1 } ∧
          (∀ n, n ≠ p → t.portal n = s.portal n) ∧ PopsAt 2 q.val e0 e1 (.portal p) { s with portals := t.portals } t) ∧
      (serves → v.held = [] → portalDepth s.cfg p < v.queue.length + v.stage.length + 2048 / w →
        exec (.sumpPop port q e0 e1) s =
          .next (s.modPortal p fun v => { v with burst := 0, pausing := none, paused := v.pausing })) ∧
      (∀ b more, serves → v.held = b :: more → ∃ t, exec (.sumpPop port q e0 e1) s = .next t ∧
        (t.portal p).stage = v.stage ++ beatTokens w b ∧ (t.portal p).held = more ∧ (t.portal p).queue = v.queue ∧
        (∀ n, n ≠ p → t.portal n = s.portal n) ∧
        { t with portals := s.portals, sump := s.sump } = s ∧ t.sump = { s.sump with moved := s.sump.moved ++ [(2, true, q.val)] }))

/-- SUMP_CELL_COMMIT: a complete cell is written to its bank in a clock in which its port owns the bank and writes no other cell
(08_sump R168, R169, R178), and is committed at the clock's end; in any other clock, and for a cell that is not complete or already
committed, nothing changes. SUMP_FLUSH is taken at the end of its clock (R187): of a queue in packet mode, every packet that no consumer
has begun, and every open one, is to be discarded, and `FLUSH_BUSY` is set; in stream mode every committed cell; a flush written while one
is in progress is ignored (08_sump R188). SUMP_FLUSH_DONE makes the discards that are left, clears `FLUSH_BUSY` and sets
`SUMP_EVT.FLUSH_DONE`. SUMP_RECOVER_CLR clears `RECOVER` (08_sump R183). Neither write changes another queue. STALE_TIMER_EXPIRY is taken
at the end of its clock too: a queue whose timer has run out has its bit in `SUMP_STALE_i` and `SUMP_EVT.STALE_ANY` set and one counted in
`SUMP_CNT_STALE`, whether or not the bit was set (08_sump R189, R190). The open packet whose `SOP` came first then becomes visible with
`STALE` in cut-through service, and is closed as bad and rewound in commit mode. A timer that has not run out changes nothing. -/
def Obligations.SumpQueueUpkeep : Prop :=
  ((∀ (port : Fin 4) (c : Fin 32768) (s : State),
      let v := s.scell c.val
      let due := s.blocksRun = true ∧ v.full = true ∧ v.committed = false ∧ v.port = port.val ∧
        bankPort c.val s.clocks.sys = port.val ∧ (∀ d ∈ s.sump.doneCells, (s.scell d).port ≠ port.val) ∧ c.val ∉ s.sump.gone ∧
        c.val % 64 ∉ s.sump.scrubbed
      (due → ∃ t, exec (.sumpCellCommit port c) s = .next t ∧ t.sump.doneCells = s.sump.doneCells ++ [c.val] ∧
        (s.sump.doneCells = [] → s.sump.expiring = [] → s.sump.flushes = [] → s.sump.gone = [] → (∀ r, (s.queue r).flushing = false) →
          (∀ d, v.desc = some d → (s.desc d).bad = false) → ((sumpClock t).scell c.val).committed = true) ∧
        { t with sump := { t.sump with doneCells := s.sump.doneCells } } = s) ∧
      (¬ due → exec (.sumpCellCommit port c) s = .next s)) ∧
    (∀ (p : HostPort) (q : Fin 2048) (s : State),
      (s.reach (RegKind.sumpQcmd.addr 0) = .open →
        exec (.sumpFlush p q) s = .next (if (s.queue q.val).flushing = true ∨ q.val ∈ s.sump.flushes then s
          else { s with sump := { s.sump with flushes := s.sump.flushes ++ [q.val] } }) ∧
        ∃ t, exec (.sumpRecoverClr p q) s = .next t ∧ t.queue q.val = { s.queue q.val with recover := false } ∧ OtherQueues q.val s t ∧
          { t with sump := { s.sump with queues := t.sump.queues } } = t ∧ { t with sump := s.sump } = s) ∧
      WriteTurnedAway p .sumpQcmd 0 (word (place 16 11 q.val + 1)) s (exec (.sumpFlush p q) s) ∧
      WriteTurnedAway p .sumpQcmd 0 (word (place 16 11 q.val + 2)) s (exec (.sumpRecoverClr p q) s) ∧
      (let t := beginFlush q.val s
       (t.queue q.val).flushing = true ∧
        (qPkt s.cfg q.val = true → (t.queue q.val).opens = [] ∧
          (t.queue q.val).doomed = (s.queue q.val).opens ++ (s.queue q.val).vis.filter fun d => !(s.desc d).begun) ∧
        (qPkt s.cfg q.val = false → (t.queue q.val).doomed = (s.queue q.val).stream.filter fun c => (s.scell c).committed) ∧
        OtherQueues q.val s t ∧ { t with sump := s.sump } = s ∧
        (s.sump.flushes = [q.val] → s.sump.expiring = [] → s.sump.doneCells = [] →
          ((sumpClock s).queue q.val).flushing = true ∧ (qPkt s.cfg q.val = true → ((sumpClock s).queue q.val).opens = [])))) ∧
    (∀ (q : Fin 2048) (s : State), s.blocksRun = true →
      ((s.queue q.val).flushing = false → exec (.sumpFlushDone q) s = .next s) ∧
      ((s.queue q.val).flushing = true →
        ∃ t, exec (.sumpFlushDone q) s = .next t ∧ (t.queue q.val).flushing = false ∧ (t.queue q.val).doomed = [] ∧
          (t.reg .sumpEvt 0).getLsbD 7 = true ∧
          (qPkt s.cfg q.val = false → ∀ c ∈ (s.queue q.val).doomed, c ∉ (t.queue q.val).stream) ∧
          RegsKept sumpRegisters s t ∧ besideFlags { t with sump := s.sump } = besideFlags s))) ∧
  (∀ (q : Fin 2048) (s : State), s.blocksRun = true →
      (s.staleDue q.val = false → exec (.staleTimerExpiry q) s = .next s) ∧
      (s.staleDue q.val = true →
        exec (.staleTimerExpiry q) s = .next (if q.val ∈ s.sump.expiring then s
          else { s with sump := { s.sump with expiring := s.sump.expiring ++ [q.val] } }) ∧
        (let t := expire q.val s
         (t.reg .sumpStale (q.val / 32)).getLsbD (q.val % 32) = true ∧ (t.reg .sumpEvt 0).getLsbD 10 = true ∧
          CountedOne .sumpCntStale 0 s t ∧ (t.queue q.val).timer = 0 ∧
          (∀ d rest, qPkt s.cfg q.val = true → (s.queue q.val).opens = d :: rest → s.commitMode q.val = false →
            d ∈ t.sump.release ∧ t.sump.descs = s.sump.descs) ∧
          (∀ d rest, qPkt s.cfg q.val = true → (s.queue q.val).opens = d :: rest → s.commitMode q.val = true →
            (s.desc d).vis = false → (s.desc d).queue = q.val →
            d ∉ (t.queue q.val).opens ∧ d ∈ t.sump.goneDescs ∧ CountedOne .sumpCntRewind 0 s t) ∧
          RegsKept (RegKind.sumpStale.addr (q.val / 32) :: sumpRegisters) s t ∧
          besideFlags { t with sump := s.sump } = besideFlags s)))

/-! ### Portals and crossings -/

/-- PORTAL_ENQUEUE: the side that feeds a portal writes one word at the end of its queue while the queue has room (09_portals R197).
Into an OUT portal goes the token that the fabric presents, whose acknowledge rises; into the IN portal of a site the next word that the
island has ready; into the IN portal of an ADIT lane the oldest token of the link's receive buffer, whose departure is due to be
acknowledged (12_lane_link R300); into that of another lane the block at the head of its receive buffer, which on a portal of 128 bits
waits for a second block of its frame (R284, R286, R287; which words carry one block is the model's choice, log entry 102). A portal that
is off, whose island is held, or that is full, takes nothing. -/
def Obligations.PortalEnqueue : Prop :=
  ∀ (id : PortalId) (s : State),
    let p := portalNo id
    let v := s.portal p
    let open' := portalEn s.cfg p = true ∧ s.islandUp p = true ∧ v.queue.length < portalDepth s.cfg p
    (¬ open' → exec (.portalEnqueue id) s = .next s) ∧
    (open' → p % 2 = 1 → s.power.retention = true ∨ s.outToken (attPortal p) = none → exec (.portalEnqueue id) s = .next s) ∧
    (∀ tok, open' → p % 2 = 1 → s.power.retention = false → s.outToken (attPortal p) = some tok →
      ∃ t, exec (.portalEnqueue id) s = .next t ∧
        t.portal p = { v with queue := v.queue ++ [(tok % 2 ^ portalWidth s.cfg p, tok / 2 ^ portalWidth s.cfg p % 2 ^ 15)] } ∧
        tabGet false t.fabric.attAck (attPortal p) = true ∧ OthersAttached (attPortal p) s t ∧ t.fabric.attIn = s.fabric.attIn ∧
        (∀ q, q ≠ p → t.portal q = s.portal q) ∧ (∀ c, t.cav c = { s.cav c with pass := (t.cav c).pass, owed := (t.cav c).owed }) ∧
        { t with portals := s.portals, fabric := s.fabric, cavs := s.cavs } = s) ∧
    (∀ w rest, open' → p % 2 = 0 → 192 ≤ p → v.stage = w :: rest →
      ∃ t, exec (.portalEnqueue id) s = .next t ∧ t.portal p = { v with queue := v.queue ++ [w], stage := rest } ∧
        (∀ q, q ≠ p → t.portal q = s.portal q) ∧ { t with portals := s.portals } = s) ∧
    (open' → p % 2 = 0 → 192 ≤ p → v.stage = [] → exec (.portalEnqueue id) s = .next s) ∧
    (∀ w rest, open' → p % 2 = 0 → p < 192 → s.isAdit (p / 2) = true → (s.lane (p / 2)).adit.rxTokens = w :: rest →
      ∃ t, exec (.portalEnqueue id) s = .next t ∧ t.portal p = { v with queue := v.queue ++ [w] } ∧
        t.lane (p / 2) = { s.lane (p / 2) with adit := { (s.lane (p / 2)).adit with rxTokens := rest, ackDue := true } } ∧
        (∀ m, m ≠ p / 2 → t.lane m = s.lane m) ∧ (∀ q, q ≠ p → t.portal q = s.portal q) ∧
        RegsKept [RegKind.lnAditSeq.addr (p / 2), RegKind.lnAditRx.addr (p / 2), RegKind.lnAditCred.addr (p / 2)] s t ∧
        { t with portals := s.portals, lanes := s.lanes, regs := s.regs } = s) ∧
    (open' → p % 2 = 0 → p < 192 →
      (if s.isAdit (p / 2) = true then (s.lane (p / 2)).adit.rxTokens = [] else (s.lane (p / 2)).rx.buf = []) →
      exec (.portalEnqueue id) s = .next s) ∧
    (∀ a rest, open' → p % 2 = 0 → p < 192 → s.isAdit (p / 2) = false → (s.lane (p / 2)).rx.buf = a :: rest →
      let raw := decide (lnProto s.cfg (p / 2) = 1)
      let wide := decide (portalWidth s.cfg p = 128)
      let takes := fun (w : Nat × Nat) (buf : List RxBlk) => ∃ t, exec (.portalEnqueue id) s = .next t ∧
        t.portal p = { v with queue := v.queue ++ [w] } ∧
        t.lane (p / 2) = { s.lane (p / 2) with rx := { (s.lane (p / 2)).rx with buf := buf } } ∧
        (∀ m, m ≠ p / 2 → t.lane m = s.lane m) ∧ (∀ q, q ≠ p → t.portal q = s.portal q) ∧
        { t with portals := s.portals, lanes := s.lanes } = s
      let alone := takes (a.payload, bitNat (!raw && a.isTerm) + 2 * bitNat wide + 4 * bitNat (!raw && a.ctrl) + 16 * bitNat a.gap +
        32 * bitNat (!raw && a.err)) rest
      (wide = false ∨ raw = true ∨ a.isTerm = true → alone) ∧
      (wide = true → raw = false → a.isTerm = false → rest = [] → exec (.portalEnqueue id) s = .next s) ∧
      (∀ b others, wide = true → raw = false → a.isTerm = false → rest = b :: others →
        (b.gap = true → alone) ∧
        (b.gap = false →
          takes (a.payload + 2 ^ 64 * b.payload, bitNat b.isTerm + 4 * bitNat a.ctrl + 8 * bitNat b.ctrl + 16 * bitNat a.gap +
            32 * bitNat a.err + 64 * bitNat b.err) others)))

/-- PORTAL_DELIVER: the oldest word of an IN portal's queue is offered to the fabric, its tag carrying `RST` on the first after a reset,
once the last has been transferred (09_portals R198, R202, R211). A word of a Sump push portal is taken into the beat being gathered
(R203). A word of any other OUT portal becomes one that its island may read, a lane's first word of a frame only once `TXSTART` words, or
the whole frame, have crossed (R207). In every other case nothing changes. -/
def Obligations.PortalDeliver : Prop :=
  ∀ (id : PortalId) (s : State),
    let p := portalNo id
    let v := s.portal p
    let open' := portalEn s.cfg p = true ∧ s.islandUp p = true
    let push := 192 ≤ p ∧ 32 ≤ (p - 192) % 108 / 2 ∧ (p - 192) % 108 / 2 < 40
    let f := frameWords (v.queue.drop v.ready)
    let goes := v.ready < v.queue.length ∧ (v.begun = true ∨ (if p < 192 then portalTxstart s.cfg p else 0) ≤ f.1 ∨ f.2 = true)
    (¬ open' ∨ v.queue = [] → exec (.portalDeliver id) s = .next s) ∧
    (∀ d tag rest, open' → p % 2 = 0 → v.queue = (d, tag) :: rest →
      (s.fabricUp p = true → (s.attIn (attPortal p)).ph = .idle →
        ∃ t, exec (.portalDeliver id) s = .next t ∧ t.portal p = { v with queue := rest, rst := false } ∧
          t.attIn (attPortal p) =
            { val := d + 2 ^ portalWidth s.cfg p * (tag % 2 ^ 15 + 2 ^ 15 * bitNat v.rst), ph := .offering } ∧
          OthersAttached (attPortal p) s t ∧ t.fabric.attAck = s.fabric.attAck ∧
          (∀ q, q ≠ p → t.portal q = s.portal q) ∧ { t with portals := s.portals, fabric := s.fabric } = s) ∧
      (s.fabricUp p = false ∨ (s.attIn (attPortal p)).ph ≠ .idle → exec (.portalDeliver id) s = .next s)) ∧
    (∀ d tag rest, open' → p % 2 = 1 → push → v.queue = (d, tag) :: rest →
      exec (.portalDeliver id) s = .next (if v.beats = [] ∧ v.paused = none then
        gatherToken p d tag (s.modPortal p fun v => { v with queue := rest }) else s)) ∧
    (open' → p % 2 = 1 → ¬ push → goes →
      exec (.portalDeliver id) s = .next (s.modPortal p fun v =>
        { v with ready := v.ready + 1, begun := !(match v.queue[v.ready]? with | some w => bitAt 0 w.2 | none => false) })) ∧
    (open' → p % 2 = 1 → ¬ push → ¬ goes → exec (.portalDeliver id) s = .next s)

/-- ISLAND_CROSSING_TRANSFER: the oldest beat of a crossing enters its destination, in order, while that has room (09_portals R213): a
Crusher's input buffer of 32 beats, or the transmitter of a lane that is UP, where its blocks join those that wait. Otherwise the beat
stays. The beat that ends a halted client's packet enters the crossing once it has room. -/
def Obligations.IslandCrossingTransfer : Prop :=
  ∀ (l : Fin 96) (s : State),
    let n := l.val
    (∀ x, s.blocksRun = false → exec (.islandCrossingTransfer x) s = .next s) ∧
    (∀ b rest, s.blocksRun = true → tabGet [] s.crossings.toCrusher n = b :: rest → (tabGet [] s.crushers.inbuf n).length < 32 →
      ∃ t, exec (.islandCrossingTransfer (.toCrusher l)) s = .next t ∧
        tabGet [] t.crushers.inbuf n = tabGet [] s.crushers.inbuf n ++ [b] ∧ rest <+: tabGet [] t.crossings.toCrusher n ∧
        (∀ m, m ≠ n → tabGet [] t.crossings.toCrusher m = tabGet [] s.crossings.toCrusher m ∧ t.lane m = s.lane m ∧
          tabGet [] t.crushers.inbuf m = tabGet [] s.crushers.inbuf m) ∧
        (t.lane n).tx = (s.lane n).tx ∧ (t.lane n).adit = (s.lane n).adit ∧
        { t with crushers := { t.crushers with inbuf := s.crushers.inbuf }, lanes := s.lanes
                 crossings := { t.crossings with toCrusher := s.crossings.toCrusher } } = s) ∧
    (32 ≤ (tabGet [] s.crushers.inbuf n).length ∨ tabGet [] s.crossings.toCrusher n = [] →
      exec (.islandCrossingTransfer (.toCrusher l)) s = .next s) ∧
    (∀ b rest, s.blocksRun = true → tabGet [] s.crossings.fromCrusher n = b :: rest → s.laneOn n = true → s.laneState n = 5 →
      (s.lane n).tx.out.length + 6 ≤ 64 →
      ∃ t, exec (.islandCrossingTransfer (.fromCrusher l)) s = .next t ∧ rest <+: tabGet [] t.crossings.fromCrusher n ∧
        ((s.crushers.stops.all fun x => decide (x.1 ≠ n)) = true → tabGet [] t.crossings.fromCrusher n = rest) ∧
        (s.lane n).tx.out <+: (t.lane n).tx.out ∧ (t.lane n).rx = (s.lane n).rx ∧ (t.lane n).adit = (s.lane n).adit ∧
        (∀ m, m ≠ n → t.lane m = s.lane m ∧ tabGet [] t.crossings.fromCrusher m = tabGet [] s.crossings.fromCrusher m) ∧
        { t with lanes := s.lanes, freeCtr := s.freeCtr, crushers := { t.crushers with stops := s.crushers.stops }
                 crossings := { t.crossings with fromCrusher := s.crossings.fromCrusher } } = s) ∧
    (∀ b rest, s.blocksRun = true → tabGet [] s.crossings.fromSump n = b :: rest → s.laneOn n = true → s.laneState n = 5 →
      (s.lane n).tx.out.length + 18 ≤ 64 →
      ∃ t, exec (.islandCrossingTransfer (.fromSump l)) s = .next t ∧ tabGet [] t.crossings.fromSump n = rest ∧
        (s.lane n).tx.out <+: (t.lane n).tx.out ∧ (t.lane n).rx = (s.lane n).rx ∧ (t.lane n).adit = (s.lane n).adit ∧
        (b.nv = true → (s.lane n).tx.opened = true →
          (t.lane n).tx.out = (s.lane n).tx.out ++ [{ ctrl := true, payload := errorPayload, last := true }] ∧
          (t.lane n).tx.skip = true ∧ CountedOne .lnTxUnderrun n s t) ∧
        (b.nv = true → (s.lane n).tx.opened = false → t.lanes = s.lanes) ∧
        (∀ m, m ≠ n → t.lane m = s.lane m ∧ tabGet [] t.crossings.fromSump m = tabGet [] s.crossings.fromSump m) ∧
        StoredKept s t ∧ besideFlags { t with lanes := s.lanes, freeCtr := s.freeCtr
                                              crossings := { t.crossings with fromSump := s.crossings.fromSump } } = besideFlags s) ∧
    (s.laneOn n = false ∨ s.laneState n ≠ 5 →
      exec (.islandCrossingTransfer (.fromCrusher l)) s = .next s ∧ exec (.islandCrossingTransfer (.fromSump l)) s = .next s)

/-- MULTIBIT_VALUE_LOAD: a source loads its holding register no sooner than 4 clocks after the last load; a value that comes sooner waits at
the source, a later one in its place, and is loaded then. MULTIBIT_VALUE_ACCEPT: where two samples agree the holding register's value is
taken; a pair that disagrees is tried again, and a third leaves the destination with its old value, counts in `XC_FAIL`, raises EV014
and is logged (09_portals R214, R216). -/
def Obligations.MultibitCrossing : Prop :=
  ∀ (x : Fin 1024) (v a b : BitVec 64) (s : State), s.sysRuns = true →
    let m0 := s.multi x.val
    let m := match m0.next with
      | some w => if m0.loadedAt + 3 ≤ s.clocks.sys then
          { m0 with held := w, waiting := true, misses := 0, loadedAt := m0.loadedAt + 4, next := none } else m0
      | none => m0
    ((m.loadedAt = 0 ∨ m.loadedAt + 3 ≤ s.clocks.sys) →
      exec (.multibitValueLoad x v) s =
        .next (s.setMulti x.val { m with held := v, waiting := true, misses := 0, loadedAt := s.clocks.sys + 1, next := none })) ∧
    (m.loadedAt ≠ 0 → s.clocks.sys < m.loadedAt + 3 → exec (.multibitValueLoad x v) s = .next (s.setMulti x.val { m with next := some v })) ∧
    (m.waiting = false → exec (.multibitValueAccept x a b) s = .next s) ∧
    (m.waiting = true → a = b →
      exec (.multibitValueAccept x a b) s = .next (s.setMulti x.val { m with waiting := false, misses := 0, seen := m.held })) ∧
    (m.waiting = true → a ≠ b → m.misses < 2 →
      exec (.multibitValueAccept x a b) s = .next (s.setMulti x.val { m with misses := m.misses + 1 })) ∧
    (m.waiting = true → a ≠ b → 2 ≤ m.misses →
      ∃ t, exec (.multibitValueAccept x a b) s = .next t ∧ (t.multi x.val).seen = m.seen ∧ (t.multi x.val).waiting = false ∧
        (∀ y, y ≠ x.val → t.multi y = s.multi y) ∧ CountedOne .xcFail 0 s t ∧ t.bit .evtPend 0 14 = true ∧
        Logged (word (0x0B000000 + x.val)) s t ∧
        RegsKept [RegKind.xcFail.addr 0, RegKind.xcOvr.addr 0, RegKind.scrubEvt.addr 0, RegKind.flogLostCnt.addr 0] s t ∧
        besideFlags { t with crossings := { t.crossings with multi := s.crossings.multi }, flog := s.flog } = besideFlags s)

/-- EVENT_CROSSING_ARRIVAL: an event is accepted where no other of its class was accepted in the last 3 destination clocks, and is
otherwise lost, with the class's bit in `XC_OVR` set and one counted in `XC_LOST` (09_portals R215, R216). EVENT_CROSSING_DELIVERY: an
accepted event leaves the crossing, and one of classes 0 to 2 is then pending in `EVT_PEND`. One that was not accepted is not
delivered. -/
def Obligations.EventCrossing : Prop :=
  ∀ (cls : Fin 5) (code : Fin 384) (s : State), s.sysRuns = true →
    let last := tabGet 0 s.crossings.accepted cls.val
    let now := s.crossingClock cls.val
    ((last = 0 ∨ last + 2 ≤ now) →
      ∃ t, exec (.eventCrossingArrival cls code) s = .next t ∧
        t.crossings.flight = s.crossings.flight ++ [(cls.val, code.val)] ∧ tabGet 0 t.crossings.accepted cls.val = now + 1 ∧
        (∀ k, k ≠ cls.val → tabGet 0 t.crossings.accepted k = tabGet 0 s.crossings.accepted k) ∧
        t.crossings.offered = s.crossings.offered.erase (cls.val, code.val) ∧
        { t with crossings := { t.crossings with offered := s.crossings.offered, accepted := s.crossings.accepted
                                                 flight := s.crossings.flight } } = s) ∧
    (last ≠ 0 → now < last + 2 →
      ∃ t, exec (.eventCrossingArrival cls code) s = .next t ∧ t.crossings.flight = s.crossings.flight ∧
        t.bit .xcOvr 0 cls.val = true ∧ CountedOne .xcLost 0 s t ∧
        RegsKept [RegKind.xcOvr.addr 0, RegKind.xcLost.addr 0] s t ∧ besideFlags t = besideFlags s) ∧
    ((cls.val, code.val) ∉ s.crossings.flight → exec (.eventCrossingDelivery cls code) s = .next s) ∧
    ((cls.val, code.val) ∈ s.crossings.flight →
      ∃ t, exec (.eventCrossingDelivery cls code) s = .next t ∧ t.crossings.flight = s.crossings.flight.erase (cls.val, code.val) ∧
        (cls.val ≤ 2 → t.bit .evtPend (code.val / 32) (code.val % 32) = true) ∧
        (3 ≤ cls.val → t.regs = s.regs) ∧ RegsKept [] s t ∧
        besideFlags { t with crossings := { t.crossings with flight := s.crossings.flight } } = besideFlags s)

/-- LANE_QUEUE_DRAIN: at the port 2 entry that names a STREAM lane that is UP, with room before its transmitter, the lane pops its
queue (12_lane_link R288); one that is not UP pops to discard the rest of the packet in which it was cut. What the pop does is `PopsAt`;
when its bank is read, its first beat enters the crossing to the transmitter and its second waits, for an entry carries one beat, so that
the second beat of a cell takes the lane's next entry (08_sump R168, R169, 09_portals R205). An entry that does not name the lane, a queue
that the lane does not drain, and a lane that is not UP and is discarding nothing change nothing. -/
def Obligations.LaneQueueDrain : Prop :=
  ∀ (lane : Fin 96) (e0 e1 : BeatFound) (s : State),
    let n := lane.val
    let q := lnTxq s.cfg n
    let e := s.port2Now
    let named := bitAt 15 e = true ∧ bitAt 14 e = false ∧ bitAt 13 e = true ∧ bitsOf 0 7 e = n
    let may := s.blocksRun = true ∧ s.portTakes 2 q true = true ∧ lnTxqEn s.cfg n = true ∧ s.benchOn (n / 4) = true ∧
      s.reading (.lane n) = false
    let xs := tabGet [] s.crossings.fromSump n
    let room := s.laneState n = 5 ∧ xs.length + 2 ≤ 8 ∧ (s.lane n).tx.out.length + 16 * xs.length + 32 ≤ 64
    let goes := room ∨ (s.laneState n ≠ 5 ∧ (s.lane n).tx.skip = true ∧ (s.lane n).tx.draining = true)
    (¬ named ∨ ¬ may ∨ ¬ goes → exec (.laneQueueDrain lane e0 e1) s = .next s) ∧
    (∀ b rest, named → may → goes → tabGet [] s.crossings.sumpHeld n = b :: rest →
      ∃ t, exec (.laneQueueDrain lane e0 e1) s = .next t ∧ tabGet [] t.crossings.sumpHeld n = rest ∧
        tabGet [] t.crossings.fromSump n = xs ++ [b] ∧ t.sump = { s.sump with moved := s.sump.moved ++ [(2, true, q)] } ∧
        (∀ m, m ≠ n → tabGet [] t.crossings.fromSump m = tabGet [] s.crossings.fromSump m) ∧
        { t with sump := s.sump
                 crossings := { t.crossings with fromSump := s.crossings.fromSump, sumpHeld := s.crossings.sumpHeld } } = s) ∧
    (named → may → goes → tabGet [] s.crossings.sumpHeld n = [] →
      ∃ t, exec (.laneQueueDrain lane e0 e1) s = .next t ∧ PopsAt 2 q e0 e1 (.lane n) s t) ∧
    (∀ r : SRead, r.dest = .lane n → r ∈ s.sump.reads → r.beats.any SumpBeat.nv = false → r.beats ≠ [] →
      let t := giveRead r s
      t.sump.reads = s.sump.reads.erase r ∧ tabGet [] t.sump.got r.port = r.beats ∧
        (s.laneState n = 5 → tabGet [] t.crossings.fromSump n = xs ++ r.beats.take 1 ∧ tabGet [] t.crossings.sumpHeld n = r.beats.drop 1) ∧
        (s.laneState n ≠ 5 → t.crossings = s.crossings) ∧
        ((t.lane n).tx.draining = true ↔ (∀ b, r.beats.getLast? = some b → b.eop = false)) ∧
        (∀ m, m ≠ n → tabGet [] t.crossings.fromSump m = tabGet [] s.crossings.fromSump m ∧ t.lane m = s.lane m) ∧
        (t.lane n).rx = (s.lane n).rx ∧ (t.lane n).adit = (s.lane n).adit)

/-! ### Haulers -/

/-- HAULER_START, HAULER_STOP, HAULER_RESUME: START takes a channel that is idle, done, stopped or in error to FETCH at `HCHnn_DESC`
(10_haulers R225), whose descriptor it asks for; STOP takes effect at the burst boundary, which is at once where no burst is in progress (R236); RESUME lets a stopped
channel go on, and a paused one whose caverns are powered (R239). A command that the channel's state does not take sets `CMD_REJ` and
nothing else (R240). -/
def Obligations.HaulerControls : Prop :=
  ∀ (p : HostPort) (h : Fin 64) (s : State),
    let v := s.master h.val
    let ctrl := RegKind.hchCtrl.addr h.val
    let idle := v.st = 0 ∨ v.st = 5 ∨ v.st = 6 ∨ v.st = 7
    let moving := v.st = 1 ∨ v.st = 2 ∨ v.st = 3
    let held := v.st = 5 ∨ (v.st = 4 ∧ ∀ c ∈ v.places, (s.cav c).power = false)
    let refused := fun (i : Instr) => ∃ t, exec i s = .next t ∧ t.haul = s.haul ∧ t.bit .hchEvt h.val 4 = true ∧ MasterOnly h.val s t
    WriteTurnedAway p .hchCtrl h.val (bitWord 0) s (exec (.haulerStart p h) s) ∧
    WriteTurnedAway p .hchCtrl h.val (bitWord 2) s (exec (.haulerStop p h) s) ∧
    WriteTurnedAway p .hchCtrl h.val (bitWord 1) s (exec (.haulerResume p h) s) ∧
    (s.reach ctrl = .open →
      (idle → ∃ t, exec (.haulerStart p h) s = .next t ∧
        t.master h.val = { st := 1, cur := (s.reg .hchDesc h.val).toNat, left := v.left
                           waiting := [{ kind := .desc, addr := (s.reg .hchDesc h.val).toNat, stage := 1, left := 1 }] } ∧
        t.field .hchStatus h.val 0 4 = 1 ∧ t.reg .hchCur h.val = s.reg .hchDesc h.val ∧ MasterOnly h.val s t) ∧
      (¬ idle → refused (.haulerStart p h)) ∧
      (moving → v.burst.isSome = true ∨ v.pause = true →
        ∃ t, exec (.haulerStop p h) s = .next t ∧ t.master h.val = { v with stop := true } ∧ MasterOnly h.val s t) ∧
      (moving → v.burst = none → v.pause = false →
        ∃ t, exec (.haulerStop p h) s = .next t ∧ t.master h.val = { v.cancelReads with st := 5 } ∧
          t.field .hchStatus h.val 0 4 = 5 ∧ t.bit .hchEvt h.val 3 = true ∧ MasterOnly h.val s t) ∧
      (¬ moving → refused (.haulerStop p h)) ∧
      (held → ∃ t, exec (.haulerResume p h) s = .next t ∧
        { t.master h.val with waiting := [], ahead := false, elems := 0 } =
          { v with st := if v.desc = [] then 1 else 2, stop := false, pause := false, waiting := [], ahead := false, elems := 0 } ∧
        MasterOnly h.val s t) ∧
      (¬ held → refused (.haulerResume p h)))

/-- DESCRIPTOR_FETCH: in its own usable slot a channel in FETCH takes the descriptor that it has asked for, or retries while it is not
staged (10_haulers R225); with a descriptor that passes R224 it runs, with one that does not, or with none to read, it halts with the
error's code and raises `ERR` (R234). BURST_READ_REQUEST: in its turn of the request path a master places its oldest waiting read, within
32 of its own and 2,048 in all (R220). TARGET_BEAT_STAGED: the next beat of the oldest read that still has one joins those staged, where a
Pocket's portal has room for its blocks (R220, 06_pockets R129). -/
def Obligations.HaulerReads : Prop :=
  (∀ (h : Fin 64) (s : State),
    let v := s.master h.val
    let on := s.slotFree h.val = true ∧ v.st = 1 ∧ v.pause = false
    let halted := fun (e terr left : Nat) => ∃ t, exec (.descriptorFetch h) s = .next t ∧ (t.master h.val).st = 7 ∧
      (t.master h.val).err = e ∧ (t.master h.val).terr = terr ∧ (t.master h.val).left = left ∧
      t.reg .hchErraddr h.val = word v.cur ∧ t.bit .hchEvt h.val 1 = true ∧ t.haul.used = s.clocks.sys + 1 ∧ MasterOnly h.val s t
    (¬ on → exec (.descriptorFetch h) s = .next s) ∧
    (on → v.staged = [] → ∃ t, exec (.descriptorFetch h) s = .next t ∧
      t.master h.val = (if v.waiting = [] ∧ v.opened = [] then
        { v with waiting := [{ kind := .desc, addr := v.cur, stage := 1, left := 1 }] } else v) ∧
      CountedOne .hchRetry h.val s t ∧ t.haul.used = s.clocks.sys + 1 ∧ MasterOnly h.val s t) ∧
    (∀ b rest, on → v.staged = b :: rest → b.code ≠ 0 → halted herrFetch b.terr 0) ∧
    (∀ b rest, on → v.staged = b :: rest → b.code = 0 →
      let n : Hauler := { cur := v.cur, desc := (List.range 8).map fun i => word (b.data >>> (32 * i)), st := 2, skip := v.skip }
      (descError s.cfg h.val n ≠ 0 → halted (descError s.cfg h.val n) 0 n.count) ∧
      (descError s.cfg h.val n = 0 → ∃ t, exec (.descriptorFetch h) s = .next t ∧
        { t.master h.val with waiting := [], ahead := false } = { n with left := n.count } ∧
        t.haul.used = s.clocks.sys + 1 ∧ MasterOnly h.val s t))) ∧
  (∀ (m : Fin 65) (s : State),
    let v := s.master m.val
    let may := s.blocksRun = true ∧ s.clocks.sys % 65 = m.val ∧ s.haul.asked ≠ s.clocks.sys + 1 ∧ v.opened.length < 32 ∧ s.readsOut < 2048
    (¬ may ∨ v.waiting = [] → exec (.burstReadRequest m) s = .next s) ∧
    (∀ r rest, may → v.waiting = r :: rest → ∃ t, exec (.burstReadRequest m) s = .next t ∧
      t.master m.val = { v with waiting := rest, opened := v.opened ++ [r] } ∧
      t.haul.asked = s.clocks.sys + 1 ∧ t.haul.used = s.haul.used ∧ MasterOnly m.val s t) ∧
    (s.blocksRun = false ∨ v.opened.findIdx? (fun r => decide (0 < r.stage)) = none → exec (.targetBeatStaged m) s = .next s) ∧
    (∀ i r, s.blocksRun = true → v.opened.findIdx? (fun r => decide (0 < r.stage)) = some i → v.opened[i]? = some r →
      let q := stageOne m.val r s
      (s.stageRoom r = false → exec (.targetBeatStaged m) s = .next s) ∧
      (s.stageRoom r = true → q.1 = none → exec (.targetBeatStaged m) s = .next q.2) ∧
      (∀ b, s.stageRoom r = true → q.1 = some b → ∃ t, exec (.targetBeatStaged m) s = .next t ∧
        (t.master m.val).staged = v.staged ++ [b] ∧
        ((∀ k, targetOf r.addr ≠ .portal k) → (t.master m.val).opened =
          v.opened.set i { r with stage := r.stage - 1, addr := r.addr - r.addr % 128 + 128 }) ∧
        { t.master m.val with staged := v.staged, opened := v.opened } = v ∧
        t.haul.used = s.haul.used ∧ MasterOnly m.val q.2 t) ∧
      (∀ off, r.kind = .seq → targetOf r.addr = .ram off →
        q = (some { data := natOfBytes (memRead ramFill s.foreman.ram (off - off % 128) 128) >>> (8 * (off % 128))
                    bytes := 128 - off % 128, addr := r.addr }, s)) ∧
      (∀ off, r.kind = .desc → targetOf r.addr = .ram off → off % 128 ≤ 96 →
        q = (some { data := natOfBytes (memRead ramFill s.foreman.ram off 32), bytes := 32, kind := .desc, addr := r.addr }, s)) ∧
      (r.kind = .desc → (∀ off, targetOf r.addr ≠ .ram off) →
        (∀ pk off, targetOf r.addr = .pocket pk off → pocketBits s.cfg (pk / 112) (pk % 112) 6 1 = 0) →
        q = (some { data := 0, bytes := 0, kind := .desc, code := herrFetch, addr := r.addr }, s))))

/-- HAULER_BEAT: a channel in RUN or WAIT_REQ uses the slot it owns (10_haulers R222): between bursts it counts down `SKIP` and waits for
its pacing request (R230, R232); in a burst it moves a source and a destination beat, ends the descriptor at its last byte (R226), or,
with nothing to move, counts a retry. HAULER_PAUSE_POWER: a channel that a forced power-down pauses enters PAUSED_POWER at its burst
boundary and raises `PAUSED` (R238). -/
def Obligations.HaulerBeats : Prop :=
  ∀ (h : Fin 64) (s : State),
    let v := s.master h.val
    let on := s.slotFree h.val = true ∧ (v.st = 2 ∨ v.st = 3)
    let nb := v.beatEnd v.db
    let v1 := convert (8 * (nb - v.db)) 1024 v
    (¬ on → exec (.haulerBeat h) s = .next s) ∧
    (on → v.burst = none → v.pause = true → exec (.haulerBeat h) s = .next (useSlot s)) ∧
    (on → v.burst = none → v.pause = false → 0 < v.skip → ∃ t, exec (.haulerBeat h) s = .next t ∧
      (t.master h.val).skip = v.skip - 1 ∧
      { t.master h.val with skip := v.skip, waiting := v.waiting, ahead := v.ahead, elems := v.elems } = v ∧ MasterOnly h.val s t) ∧
    (on → v.burst = none → v.pause = false → v.skip = 0 → s.paced v = false →
      ∃ t, exec (.haulerBeat h) s = .next t ∧ t.master h.val = { v with st := 3 } ∧ MasterOnly h.val s t) ∧
    MovesBeat h.val s (exec (.haulerBeat h) s) ∧
    (∀ off e, on → v.st = 2 → v.burst = some e → v.ixm = 0 → v.pkt = false → v.popsSource = false → v.staged = [] →
      v.failed = none → v.stopErr = none → (targetOf v.dst).memory = true → targetOf (v.dst + v.db) = .ram off → v.db < v.extent → v.extent ≤ nb →
      8 * (nb - v.db) ≤ v1.outLen ∨ v1.conv = v1.total →
      ∃ t, exec (.haulerBeat h) s = .next t ∧
        t.foreman.ram = memWrite ramFill s.foreman.ram off (bytesOf (v1.out % 2 ^ (8 * (nb - v.db))) (nb - v.db)) ∧
        (t.master h.val).st = (if v.hd 7 0 1 = 1 then 6 else if v.stop && !v.pause then 5 else 1) ∧
        (v.hd 7 0 1 = 0 → (t.master h.val).cur = 32 * v.hd 7 5 27) ∧ (t.master h.val).left = v.count - v.total ∧
        t.reg .hchTag h.val = v.desc.getD 6 0 ∧ (v.hd 5 29 1 = 1 → t.bit .hchEvt h.val 0 = true) ∧
        MasterOnly h.val { s with foreman := { s.foreman with ram := t.foreman.ram } } t) ∧
    (on → v.st = 2 → v.burst.isSome = true → v.ixm = 0 → v.popsSource = false → v.staged = [] → v.failed = none → v.db < v.extent →
      v1.outLen < 8 * (nb - v.db) → v1.conv ≠ v1.total →
      ∃ t, exec (.haulerBeat h) s = .next t ∧ t.master h.val = v1 ∧ CountedOne .hchRetry h.val s t ∧ MasterOnly h.val s t) ∧
    (∃ t, exec (.haulerPausePower h) s = .next t ∧
      (v.pause = true → v.burst = none → v.st = 1 ∨ v.st = 2 ∨ v.st = 3 →
        t.master h.val = { v.cancelReads with st := 4, pause := false, stop := false } ∧
        t.bit .hchEvt h.val 2 = true) ∧
      (v.pause = false ∨ v.burst.isSome = true ∨ ¬ (v.st = 1 ∨ v.st = 2 ∨ v.st = 3) → t.haul = s.haul) ∧
      (s.power.dom = [] → MasterOnly h.val s t) ∧ (∀ k, k ≠ h.val → t.master k = s.master k) ∧ StoredKept s t)

/-! ### Lanes: clocks, locks, electrical idle and test machinery -/

/-- TXPLL_LOCK completes for an enabled lane whose reference clock is valid: its transmit PLL is locked, it leaves electrical idle with a
training burst where nobody asks for it, starts the receiver's lock and goes on (11_lane_electrical R244, R263, 12_lane_link R291).
REFCLK_LOSS and REFCLK_BACK complete for a reference clock that is used: both its benches lose or regain it; on its loss their lanes idle
and return to LOCK, and a test of them stops (R245). RELOCK: a written 1 starts an enabled lane's lock (R260). -/
def Obligations.LaneClocks : Prop :=
  (∀ (l : Fin 96) (s : State),
    let n := l.val
    let on := s.laneOn n = true ∧ s.refOk n = true ∧ s.bit .lnPmaStatus n 0 = false
    (¬ on → exec (.txpllLock l) s = .next s) ∧
    (on → ∃ t, exec (.txpllLock l) s = .next t ∧ t.bit .lnPmaStatus n 0 = true ∧
      (s.idleAsked n = true → t.bit .lnPmaStatus n 5 = s.bit .lnPmaStatus n 5 ∧ (t.lane n).tx = (s.lane n).tx) ∧
      (s.idleAsked n = false → t.bit .lnPmaStatus n 5 = false ∧ BurstSent n s t) ∧
      ((s.lane n).rx.locking = true ∨ s.ready n = true ∨ s.laneState n = 1 → (t.lane n).rx = (s.lane n).rx) ∧
      ((s.lane n).rx.locking = false → s.ready n = false → s.laneState n ≠ 1 → LockBegun n s t) ∧
      (s.laneState n = 2 → s.ready n = true → 3 ≤ t.laneState n ∧ t.laneState n ≤ 5 ∧ (lnProto s.cfg n = 1 → t.laneState n = 5)) ∧
      (s.laneState n ≠ 3 → s.laneState n ≠ 2 ∨ s.ready n = false → t.laneState n = s.laneState n) ∧
      LaneOnly n [.lnPmaStatus, .lnPatStatus, .lnEq, .lnLinkStatus, .lnLinkEvt] [RegKind.adEvt.addr (n / 4)] s t)) ∧
  (∀ (k : Fin 12) (s : State),
    let used := refUsed s.cfg k.val = true
    let has := s.bit .lbStatus (2 * k.val) 0
    (¬ used ∨ has = false → exec (.refclkLoss k) s = .next s) ∧
    (used → has = true → ∃ t, exec (.refclkLoss k) s = .next t ∧
      (∀ b, b / 2 = k.val → t.bit .lbStatus b 0 = false ∧ t.bit .lbEvt b 0 = true) ∧
      (∀ n, n / 8 = k.val → s.pmaOn n = true →
        t.bit .lnPmaStatus n 0 = false ∧ t.bit .lnPmaStatus n 5 = true ∧ t.ready n = false ∧ (t.lane n).rx.locking = false ∧
        (t.lane n).tx = { (s.lane n).tx with tail := [0] } ∧
        (2 ≤ s.laneState n → s.laneState n ≤ 6 → t.laneState n = 2 ∧ t.bit .lnLinkStatus n 9 = false ∧ t.bit .lnLinkStatus n 10 = false)) ∧
      (∀ n, n / 8 ≠ k.val ∨ s.pmaOn n = false → t.lane n = s.lane n ∧
        (n < 96 → t.reg .lnPmaStatus n = s.reg .lnPmaStatus n ∧ t.reg .lnLinkStatus n = s.reg .lnLinkStatus n)) ∧
      t.test = (stopTests (fun r => r.type = 4 && r.target / 2 = k.val) s).test ∧
      besideFlags { t with lanes := s.lanes, test := s.test } = besideFlags s) ∧
    (¬ used ∨ has = true ∨ s.sysRuns = false ∨ s.configured = false → exec (.refclkBack k) s = .next s) ∧
    (used → has = false → s.sysRuns = true → s.configured = true → ∃ t, exec (.refclkBack k) s = .next t ∧
      (∀ b, b / 2 = k.val → t.bit .lbStatus b 0 = true ∧ t.bit .lbEvt b 1 = true) ∧
      RegsKept ([2 * k.val, 2 * k.val + 1].flatMap fun b => [RegKind.lbStatus.addr b, RegKind.lbEvt.addr b]) s t ∧
      besideFlags t = besideFlags s)) ∧
  (∀ (p : HostPort) (l : Fin 96) (s : State),
    let n := l.val
    let near := s.reach (RegKind.lnPmaCtrl.addr n) = .open
    WriteTurnedAway p .lnPmaCtrl n (s.actWord .lnPmaCtrl n (word (2 ^ 7))) s (exec (.relock p l) s) ∧
    (near → s.laneOn n = false → exec (.relock p l) s = .next s) ∧
    (near → s.laneOn n = true → ∃ t, exec (.relock p l) s = .next t ∧ LockBegun n s t ∧
      (t.lane n).tx = (s.lane n).tx ∧ (t.lane n).adit = (s.lane n).adit ∧
      LaneOnly n [.lnPmaStatus, .lnPatStatus, .lnEq] [] s t))

/-- SIGNAL_DETECT_RISE and SIGNAL_DETECT_FALL complete where `SD` is not there already: it follows the detector, with its events where
`SD_EN` is 1, at once or, while SYS is stopped, at the end of the sleep; its fall puts the receiver into receive idle, a lock in progress
completing first, and on a lane that is UP or in TRAIN starts a retrain and is logged (11_lane_electrical R259, R265, R273, 12_lane_link
R292). RX_LOCK_DONE completes a lock that hears something, or repeats the level search (R260, R261). CDR_LOCK_LOSS: a lock lost while READY
(R262). TX_IDLE_ENTRY, TX_IDLE_EXIT: electrical idle (R263). RX_BURST_CHECK: the training burst that ends receive idle, by fewer than 8
symbol errors (R265). EQ_OVERRIDE_WRITE: an override that names entries not defined for the rate clears `OVR` and is otherwise not taken
(R256). -/
def Obligations.LaneReceiver : Prop :=
  ∀ (l : Fin 96) (s : State),
    let n := l.val
    let seen := lnRate s.cfg n ≠ 0 ∧ s.benchOn (n / 4) = true ∧ s.configured = true
    let later := fun (v : Bool) => { s.setField .lnPmaStatus n 1 1 (bitNat v) with
      power := { s.power with edges := s.power.edges ++ [.signal n v] } }
    let under := (s.lane n).rx.locking = true ∧ (s.lane n).rx.heard = true
    let idleEntered := fun (t : State) => t.bit .lnPmaStatus n 6 = true ∧ t.ready n = false
    (¬ (seen ∧ s.signal n = false) → exec (.signalDetectRise l) s = .next s) ∧
    (seen → s.signal n = false → s.sysRuns = false → exec (.signalDetectRise l) s = .next (later true)) ∧
    (seen → s.signal n = false → s.sysRuns = true → ∃ t, exec (.signalDetectRise l) s = .next t ∧ t.signal n = true ∧
      (lnCfg s.cfg n 11 1 = 1 → t.bit .lnPmaEvt n 0 = true) ∧
      (s.laneOn n = true → s.laneState n ≠ 1 → s.refOk n = true →
        t.bit .lnPmaStatus n 6 = false ∧ (t.lane n).rx.lost = false ∧ (t.lane n).rx.locking = true ∧ (t.lane n).rx.heard = true) ∧
      (s.laneOn n = true → s.laneState n = 1 → lnHpMode s.cfg n = 2 → lnProto s.cfg n ≠ 0 → s.gen n = 0 →
        t.laneState n = 2 ∧ (t.lane n).rx.locking = true ∧ t.bit .lnPmaStatus n 6 = false) ∧
      LaneOnly n [.lnPmaStatus, .lnPmaEvt, .lnPatStatus, .lnEq, .lnLinkStatus] [] s t) ∧
    (¬ (seen ∧ s.signal n = true) → exec (.signalDetectFall l) s = .next s) ∧
    (seen → s.signal n = true → s.sysRuns = false → exec (.signalDetectFall l) s = .next (later false)) ∧
    (seen → s.signal n = true → s.sysRuns = true → ∃ t, exec (.signalDetectFall l) s = .next t ∧ t.signal n = false ∧
      (lnCfg s.cfg n 11 1 = 1 → t.bit .lnPmaEvt n 1 = true) ∧
      (s.laneState n ≠ 4 → s.laneState n ≠ 5 → (t.lane n).rx = { (s.lane n).rx with lost := true } ∧
        (¬ under → idleEntered t) ∧ (under → t.ready n = s.ready n ∧ t.bit .lnPmaStatus n 6 = s.bit .lnPmaStatus n 6) ∧
        LaneOnly n [.lnPmaStatus, .lnPmaEvt] [] s t) ∧
      (s.laneState n = 4 ∨ s.laneState n = 5 → Retrained n s t ∧ t.ready n = false ∧ Logged (word (0x09000000 + n)) s t ∧
        (s.loop n ≠ 1 → (t.lane n).rx.lost = true ∧ (¬ under → t.bit .lnPmaStatus n 6 = true))) ∧
      LaneFed n linkRegisters s t) ∧
    (∀ l0 l1 l2 l3 : BitVec 8,
      let on := s.laneOn n = true ∧ under ∧ s.refOk n = true
      let passes := lnPam4 s.cfg n = false ∨ levelsPass l0 l1 l2 l3 = true
      let idles := s.hears n = false ∨ s.linkIdle n = true
      (¬ on → exec (.rxLockDone l l0 l1 l2 l3) s = .next s) ∧
      (on → ∃ t, exec (.rxLockDone l l0 l1 l2 l3) s = .next t ∧ t.bit .lnPmaStatus n 2 = true ∧
        (lnPam4 s.cfg n = false → t.reg .lnLevels n = word (l3.toNat * 2 ^ 24 + l0.toNat)) ∧
        (lnPam4 s.cfg n = true →
          t.reg .lnLevels n = word (l3.toNat * 2 ^ 24 + l2.toNat * 2 ^ 16 + l1.toNat * 2 ^ 8 + l0.toNat)) ∧
        (passes → (t.lane n).tx = (s.lane n).tx ∧ (t.lane n).rx = { (s.lane n).rx with locking := false }) ∧
        (passes → ¬ idles → t.ready n = true) ∧
        (passes → idles → idleEntered t ∧ t.laneState n = s.laneState n) ∧
        (lnPam4 s.cfg n = true → levelsPass l0 l1 l2 l3 = true → t.bit .lnPmaStatus n 3 = true) ∧
        (lnPam4 s.cfg n = true → levelsPass l0 l1 l2 l3 = false → t.bit .lnPmaEvt n 3 = true ∧ t.lanes = s.lanes ∧
          t.laneState n = s.laneState n) ∧
        LaneOnly n [.lnPmaStatus, .lnLevels, .lnPmaEvt, .lnLinkStatus, .lnLinkEvt] [RegKind.adEvt.addr (n / 4)] s t)) ∧
    (s.pmaOn n = false ∨ s.ready n = false → exec (.cdrLockLoss l) s = .next s) ∧
    (s.pmaOn n = true → s.ready n = true → ∃ t, exec (.cdrLockLoss l) s = .next t ∧ t.bit .lnPmaStatus n 2 = false ∧
      t.bit .lnPmaEvt n 2 = true ∧ Dropped n s t) ∧
    (let on := s.pmaOn n = true ∧ s.idleAsked n = true ∧ s.bit .lnPmaStatus n 5 = false
     (¬ on → exec (.txIdleEntry l) s = .next s) ∧
     (on → ∃ t, exec (.txIdleEntry l) s = .next t ∧ t.bit .lnPmaStatus n 5 = true ∧
       t.lane n = { s.lane n with tx := { (s.lane n).tx with tail := [0] } } ∧
       (s.linkIdle n = true → ¬ under → idleEntered t) ∧
       (s.linkIdle n = false ∨ under → t.ready n = s.ready n ∧ t.bit .lnPmaStatus n 6 = s.bit .lnPmaStatus n 6) ∧
       LaneOnly n [.lnPmaStatus] [] s t)) ∧
    (let on := s.laneOn n = true ∧ s.idleAsked n = false ∧ s.bit .lnPmaStatus n 5 = true ∧ s.bit .lnPmaStatus n 0 = true
     (¬ on → exec (.txIdleExit l) s = .next s) ∧
     (on → ∃ t, exec (.txIdleExit l) s = .next t ∧ t.bit .lnPmaStatus n 5 = false ∧ BurstSent n s t ∧
       (t.lane n).rx = (s.lane n).rx ∧ (t.lane n).adit = (s.lane n).adit ∧ LaneOnly n [.lnPmaStatus] [] s t)) ∧
    (∀ line : List RxSample,
      let on := s.laneOn n = true ∧ s.bit .lnPmaStatus n 6 = true ∧ s.signal n = true ∧ (s.lane n).rx.lost = false ∧
        (s.lane n).rx.locking = false
      let pam := lnPam4 s.cfg n
      let d := decideLine n line s
      let few := burstErrors pam (d.1.map (invertSymbol pam (lnCfg s.cfg n 18 1 = 1))) < 8
      LaneOnly n [.lnMarginSamp, .lnMarginErr, .lnPatStatus, .lnPmaEvt] [] s d.2 ∧
      (¬ on → exec (.rxBurstCheck l line) s = .next s) ∧
      (on → few → ∃ t, exec (.rxBurstCheck l line) s = .next t ∧ t.bit .lnPmaStatus n 6 = false ∧ t.ready n = true ∧
        (t.lane n).tx = (s.lane n).tx ∧ (t.lane n).rx = { (d.2.lane n).rx with pre := 0 } ∧
        LaneOnly n [.lnPmaStatus, .lnLinkStatus, .lnLinkEvt] [RegKind.adEvt.addr (n / 4)] d.2 t) ∧
      (on → ¬ few → ∃ t, exec (.rxBurstCheck l line) s = .next t ∧ t.bit .lnPmaStatus n 6 = false ∧ t.bit .lnPmaEvt n 4 = true ∧
        (t.lane n).rx.pre = 0 ∧ Dropped n d.2 t)) ∧
    (∀ (p : HostPort) (v : Word),
      let fits := beqFits s.cfg n (bitsOf 26 6 v.toNat) = true ∧ beqFits s.cfg n (bitsOf 20 6 v.toNat) = true
      FieldTurnedAway p .lnEq n v s (exec (.eqOverrideWrite p l v) s) ∧
      (FieldTaken p .lnEq n s → ∃ t, exec (.eqOverrideWrite p l v) s = .next t ∧
        t.field .lnEq n 4 12 = s.field .lnEq n 4 12 ∧
        (fits → t.field .lnEq n 26 6 = bitsOf 26 6 v.toNat ∧ t.field .lnEq n 20 6 = bitsOf 20 6 v.toNat ∧
          t.bit .lnEq n 0 = v.getLsbD 0) ∧
        (¬ fits → t.field .lnEq n 20 12 = s.field .lnEq n 20 12 ∧ t.bit .lnEq n 0 = false) ∧
        RegsKept [RegKind.lnEq.addr n, RegKind.gstat.addr 0, RegKind.gstatAddr.addr 0] s t ∧ besideRegs t = besideRegs s))

/-- PATTERN_GEN_SET completes for a pattern that the rate allows: it is taken, and begins afresh where the code changes; the link of a lane
that begins one goes down, and the lane whose pattern ends brings up (11_lane_electrical R266, R267, 12_lane_link R305). PATTERN_CHK_SET,
CHECKER_SYNC, CHECKER_SYNC_LOSS: the checker searches anew, synchronises at the place that it has found, and returns to search at 64 errors
within 1,024 bits, those of the UI that CHECKER_SYNC_LOSS carries among them; synchronised, it counts bits and errors (R268, R270). INJ_ONE, INJ_RATE_INJECTION: one symbol is inverted (R269).
PAT_COUNTER_CLEAR (R270), MARGIN_WRITE, and the margin slicer at a decision (R254, R261, R271); LOOPBACK_CHANGE (R272). -/
def Obligations.LanePatterns : Prop :=
  ∀ (p : HostPort) (l : Fin 96) (s : State),
    let n := l.val
    let near := s.reach (RegKind.lnPatCtrl.addr n) = .open
    let sets := FieldTaken p .lnPatCtrl n s
    let injects := s.laneOn n = true ∧ (s.gen n ≠ 0 ∨ s.bit .lnPatCtrl n 29 = true)
    let injected := s.modTx n fun t => { t with inject := true }
    let long := fun (s : State) (lo hi : RegKind) => (s.reg lo n).toNat + 2 ^ 32 * (s.reg hi n).toNat
    let searches := fun (t : State) =>
      t.bit .lnPatStatus n 0 = false ∧ (t.lane n).rx = { (s.lane n).rx with chk := 0, chkRun := 0, chkErr := 0 }
    (∀ g : BitVec 4,
      FieldTurnedAway p .lnPatCtrl n (putField (s.actWord .lnPatCtrl n 0) 0 4 g.toNat) s (exec (.patternGenSet p l g) s) ∧
      (sets → patternAllowed s.cfg n g.toNat = false →
        ∃ t, exec (.patternGenSet p l g) s = .next t ∧ t.regs = s.regs ∧ besideRegs t = besideRegs s) ∧
      (sets → patternAllowed s.cfg n g.toNat = true → ∃ t, exec (.patternGenSet p l g) s = .next t ∧ t.gen n = g.toNat ∧
        (s.gen n = g.toNat → (t.lane n).tx.gen = (s.lane n).tx.gen) ∧
        (∀ len taps, s.gen n ≠ g.toNat → prbsTaps g.toNat = some (len, taps) → 0 < (t.lane n).tx.gen ∧ (t.lane n).tx.gen < 2 ^ len) ∧
        (s.gen n ≠ g.toNat → prbsTaps g.toNat = none → (t.lane n).tx.gen = 0) ∧
        (s.laneOn n = true → lnProto s.cfg n ≠ 0 → s.gen n = 0 → g ≠ 0 →
          t.laneState n = 7 ∧ t.bit .lnLinkStatus n 8 = false ∧ t.bit .lnLinkStatus n 12 = true ∧
          (s.isAdit n = true → (t.lane n).tx.out = [])) ∧
        (s.laneOn n = true → lnProto s.cfg n ≠ 0 → s.gen n ≠ 0 → g = 0 → (t.lane n).tx.inject = false ∧
          (t.laneState n = 1 ∨ t.laneState n = 2) ∧ (lnHpMode s.cfg n = 0 → t.laneState n = 2 ∧ (t.lane n).rx.locking = true)) ∧
        (s.laneOn n = false ∨ lnProto s.cfg n = 0 ∨ (s.gen n = 0 ↔ g = 0) →
          t.lane n = { s.lane n with tx := { (s.lane n).tx with gen := (t.lane n).tx.gen } } ∧ t.laneState n = s.laneState n) ∧
        LaneOnly n [.lnPatCtrl, .lnPmaStatus, .lnPatStatus, .lnEq, .lnLinkStatus, .lnLinkEvt] [RegKind.adEvt.addr (n / 4)] s
          { t with freeCtr := s.freeCtr })) ∧
    (∀ c : BitVec 4,
      let taken := patternAllowed s.cfg n c.toNat = true ∧ s.field .lnPatCtrl n 8 4 ≠ c.toNat
      FieldTurnedAway p .lnPatCtrl n (putField (s.actWord .lnPatCtrl n 0) 8 4 c.toNat) s (exec (.patternChkSet p l c) s) ∧
      (sets → ¬ taken → ∃ t, exec (.patternChkSet p l c) s = .next t ∧ t.regs = s.regs ∧ besideRegs t = besideRegs s) ∧
      (sets → taken → ∃ t, exec (.patternChkSet p l c) s = .next t ∧ t.field .lnPatCtrl n 8 4 = c.toNat ∧
        t.gen n = s.gen n ∧ searches t ∧ (t.lane n).tx = (s.lane n).tx ∧ (t.lane n).adit = (s.lane n).adit ∧
        LaneOnly n [.lnPatCtrl, .lnPatStatus] [] s t)) ∧
    (let on := s.pmaOn n = true ∧ s.ready n = true ∧ s.chkCode n ≠ 0 ∧ s.chkLock n = false
     (¬ on ∨ s.checkerReady n = none → exec (.checkerSync l) s = .next s) ∧
     (∀ len taps, prbsTaps (s.chkCode n) = some (len, taps) → s.checkerReady n =
       if 128 ≤ (s.lane n).rx.chkRun then some ((s.lane n).rx.chk % 2 ^ len) else none) ∧
     (∀ g, on → s.checkerReady n = some g → ∃ t, exec (.checkerSync l) s = .next t ∧ t.chkLock n = true ∧
       t.lane n = { s.lane n with rx := { (s.lane n).rx with chk := g, chkErr := 0 } } ∧ LaneOnly n [.lnPatStatus] [] s t)) ∧
    (∀ line : List RxSample,
      let h := rxBlock n line s
      let lost := h.pmaOn n = true ∧ h.chkLock n = true ∧ 64 ≤ onesOf 1024 (h.lane n).rx.chkErr
      (¬ lost → exec (.checkerSyncLoss l line) s = .next h) ∧
      (lost → ∃ t, exec (.checkerSyncLoss l line) s = .next t ∧ t.bit .lnPatStatus n 0 = false ∧
        (t.lane n).rx = { (h.lane n).rx with chk := 0, chkRun := 0, chkErr := 0 } ∧ t.bit .lnPmaEvt n 5 = true ∧
        CountedOne .lnPrbsRelock n h t ∧ (t.lane n).tx = (h.lane n).tx ∧
        LaneOnly n [.lnPatStatus, .lnPrbsRelock, .lnPmaEvt] [] h t)) ∧
    ((∀ b : Bool, s.pmaOn n = true → s.chkLock n = true → onesOf 1024 (s.lane n).rx.chkErr < 64 →
       let e := patternNext (s.chkCode n) (s.patUser n) (s.lane n).rx.chk
       let bad := e.1 != b
       let q := checkBit n b s
       q.1 = bad ∧ (q.2.lane n).rx.chk = e.2 ∧
         long q.2 .lnPrbsBitsLo .lnPrbsBitsHi = min (long s .lnPrbsBitsLo .lnPrbsBitsHi + 1) (2 ^ 48 - 1) ∧
         long q.2 .lnPrbsErrLo .lnPrbsErrHi =
           (if bad then min (long s .lnPrbsErrLo .lnPrbsErrHi + 1) (2 ^ 48 - 1) else long s .lnPrbsErrLo .lnPrbsErrHi) ∧
         LaneOnly n [.lnPatStatus, .lnPmaEvt, .lnPrbsBitsLo, .lnPrbsBitsHi, .lnPrbsErrLo, .lnPrbsErrHi] [] s q.2)) ∧
    WriteTurnedAway p .lnPatCtrl n (s.actWord .lnPatCtrl n (word (2 ^ 30))) s (exec (.injOne p l) s) ∧
    (near → injects → exec (.injOne p l) s = .next injected) ∧
    (near → ¬ injects → exec (.injOne p l) s = .next s) ∧
    (injects → s.field .lnPatCtrl n 24 5 ≠ 0 → exec (.injRateInjection l) s = .next injected) ∧
    (¬ injects ∨ s.field .lnPatCtrl n 24 5 = 0 → exec (.injRateInjection l) s = .next s) ∧
    WriteTurnedAway p .lnPatCtrl n (s.actWord .lnPatCtrl n (word (2 ^ 31))) s (exec (.patCounterClear p l) s) ∧
    (near →
      let cleared := [RegKind.lnPrbsBitsLo, .lnPrbsBitsHi, .lnPrbsErrLo, .lnPrbsErrHi, .lnPrbsSymerr, .lnPrbsRelock, .lnMarginSamp,
        .lnMarginErr]
      ∃ t, exec (.patCounterClear p l) s = .next t ∧ (∀ k ∈ cleared, t.reg k n = 0) ∧
        t.reg .lnPatStatus n = s.reg .lnPatStatus n &&& 1 ∧
        RegsKept ((.lnPatStatus :: cleared).map fun k => k.addr n) s t ∧ besideRegs t = besideRegs s) ∧
    (∀ v : Word,
      let ph := bitsOf 0 7 v.toNat
      let vo := bitsOf 8 7 v.toNat
      let eye := bitsOf 16 2 v.toNat
      FieldTurnedAway p .lnMargin n v s (exec (.marginWrite p l v) s) ∧
      (FieldTaken p .lnMargin n s → ∃ t, exec (.marginWrite p l v) s = .next t ∧
        t.bit .lnMargin n 31 = v.getLsbD 31 ∧
        t.field .lnMargin n 0 7 = (if ph ≤ 32 ∨ 96 ≤ ph then ph else s.field .lnMargin n 0 7) ∧
        t.field .lnMargin n 8 7 = (if vo = 64 then s.field .lnMargin n 8 7 else vo) ∧
        t.field .lnMargin n 16 2 = (if eye = 3 then s.field .lnMargin n 16 2 else eye) ∧
        (t.reg .lnMargin n ≠ s.reg .lnMargin n → t.reg .lnMarginSamp n = 0 ∧ t.reg .lnMarginErr n = 0) ∧
        (t.reg .lnMargin n = s.reg .lnMargin n → t.reg .lnMarginSamp n = s.reg .lnMarginSamp n ∧
          t.reg .lnMarginErr n = s.reg .lnMarginErr n) ∧
        RegsKept [RegKind.lnMargin.addr n, RegKind.lnMarginSamp.addr n, RegKind.lnMarginErr.addr n, RegKind.gstat.addr 0,
          RegKind.gstatAddr.addr 0] s t ∧ besideRegs t = besideRegs s)) ∧
    (∀ u : RxSample,
      let x := u.data - s.dfe n (s.lane n).rx.past
      let q := decideUi n u s
      let due := s.bit .lnMargin n 31 = true ∧ (s.lane n).rx.ui = 0
      q.1 = ((s.thresholds n).filter fun h => decide (h < x)).length ∧
        (q.2.lane n).rx = { (s.lane n).rx with past := (q.1 :: (s.lane n).rx.past).take 6, ui := ((s.lane n).rx.ui + 1) % 16 } ∧
        (due → CountedOne .lnMarginSamp n s q.2) ∧
        (due → s.field .lnMargin n 0 7 = 0 → s.field .lnMargin n 8 7 = 0 → q.2.reg .lnMarginErr n = s.reg .lnMarginErr n) ∧
        (¬ due → q.2.regs = s.regs)) ∧
    (∀ c : BitVec 2,
      let now := s.loop n
      FieldTurnedAway p .lnPmaCtrl n (putField (s.actWord .lnPmaCtrl n 0) 4 2 c.toNat) s (exec (.loopbackChange p l c) s) ∧
      (FieldTaken p .lnPmaCtrl n s → c = 3 ∨ now = c.toNat →
        ∃ t, exec (.loopbackChange p l c) s = .next t ∧ t.regs = s.regs ∧ besideRegs t = besideRegs s) ∧
      (FieldTaken p .lnPmaCtrl n s → c ≠ 3 → now ≠ c.toNat →
        ∃ t, exec (.loopbackChange p l c) s = .next t ∧ t.loop n = c.toNat ∧
          (s.laneOn n = true → (t.lane n).rx.locking = true ∧ t.ready n = false ∧
            (t.lane n).rx.heard = (s.signal n || decide (c = 1)) ∧
            t.laneState n = (if 2 ≤ s.laneState n ∧ s.laneState n ≤ 6 then 2 else s.laneState n)) ∧
          (s.laneOn n = false → t.regs = (s.setField .lnPmaCtrl n 4 2 c.toNat).regs ∧ t.lanes = s.lanes) ∧
          LaneOnly n [.lnPmaCtrl, .lnPmaStatus, .lnPatStatus, .lnEq, .lnLinkStatus] [] s t))

/-! ### Lanes: blocks, the link and the Adit service -/

/-- RX_BLOCK completes for a receiver that is READY: the UI of the stretch are decided in order and heard, sent on too in far parallel
loopback (11_lane_electrical R246 to R248, R272). On a RAW lane 64 bits are a word (12_lane_link R287); on the others, at the place locked,
the 66 bits are a block, which is descrambled and checked: an invalid one counts, FILL is deleted, and the rest is delivered to the lane's
IN portal, its Crusher client or its Adit link (R280, R284, R286, R301). TX_BLOCK completes for a transmitter that drives: it sends 64 bits
of the pattern; or FILL where it has nothing to send, or 2,048 blocks after the last; TRAIN where it trains; otherwise the next block that
waits; through mapping, precoder and polarity to the line (R281, R291, R303; 11_lane_electrical R267). BLOCK_LOCK: 64 valid headers at one
place; BLOCK_LOCK_LOSS: 16 invalid of 64; CODEWORD_DECODE, which hears the UI it carries first: RS decoding, lock at three good codewords, loss at three uncorrectable ones
(R280, R283, R292). -/
def Obligations.LaneBlocks : Prop :=
  ∀ (l : Fin 96) (s : State),
    let n := l.val
    let proto := lnProto s.cfg n
    let r := (s.lane n).rx
    let x := (s.lane n).tx
    let a := (s.lane n).adit
    (∀ line : List RxSample,
      let on := s.pmaOn n = true ∧ s.ready n = true ∧ s.loop n ≠ 1
      let d := decideLine n line s
      (¬ on → exec (.rxBlock l line) s = .next s) ∧
      (on → s.loop n ≠ 2 → exec (.rxBlock l line) s = .next (hear n d.1 d.2)) ∧
      (on → s.loop n = 2 → ∃ u, exec (.rxBlock l line) s = .next (hear n d.1 u) ∧ LineSent n d.1 d.2 u ∧
        (u.lane n).rx = (d.2.lane n).rx ∧ LaneOnly n [] [] d.2 u)) ∧
    (∀ d : Nat,
      let bit := decide (invertSymbol false (lnCfg s.cfg n 18 1 = 1) d = 1)
      let on := s.laneOn n = true ∧ s.ready n = true ∧ lnPam4 s.cfg n = false ∧ s.chkCode n = 0
      let pre := invertSymbol false (lnCfg s.cfg n 18 1 = 1) d
      let bits := r.bits ++ [bit]
      let blk := blockOf (bits.drop (r.bits.length - 65))
      (on → proto = 1 → s.laneState n = 5 → r.bits.length < 63 →
        (hear n [d] s).lane n = { s.lane n with rx := { r with pre := pre, bits := bits } } ∧ LaneOnly n [] [] s (hear n [d] s)) ∧
      (on → proto = 1 → s.laneState n = 5 → r.bits.length = 63 →
        ∃ u, hear n [d] s = storePortal n { ctrl := false, payload := natOfBits bits, err := false, gap := false } u ∧
          u.lane n = { s.lane n with rx := { r with pre := pre, bits := [] } } ∧ LaneOnly n [] [] s u) ∧
      (∀ q, on → 2 ≤ proto → lnFec s.cfg n = false → r.align = some q → onesOf 64 r.inval < 16 → 65 ≤ r.bits.length →
        r.bits.length ≤ 66 → (r.phase + 1) % 66 = q →
        ∃ u, hear n [d] s = pcsBlock n false blk u ∧ LaneOnly n [] [] s u ∧
          u.lane n = { s.lane n with rx := { r with
            pre := pre, bits := bits.drop (r.bits.length - 65), phase := q
            inval := (2 * r.inval + bitNat (decide (blk.hdr ≠ 1 ∧ blk.hdr ≠ 2))) % 2 ^ 64 } })) ∧
    (∀ b : RxBlk,
      let t := storePortal n b s
      (r.buf.length < 64 → (t.lane n).rx = { r with buf := r.buf ++ [{ b with gap := r.gap }], gap := false } ∧ t.regs = s.regs) ∧
      (64 ≤ r.buf.length → (t.lane n).rx = { r with gap := true } ∧ CountedOne .lnRxDrop n s t ∧ t.bit .lnLinkEvt n 7 = true) ∧
      (t.lane n).tx = x ∧ (t.lane n).adit = a ∧ LaneOnly n [.lnRxDrop, .lnLinkEvt, .lnLinkOvf] [] s t) ∧
    (∀ (b : Block66) (lost : Bool), 2 ≤ proto →
      let d := scrambleWord true r.scr b.bits.toNat
      let ctrl := b.hdr = 2
      let valid := (b.hdr = 1 ∨ ctrl) ∧ (ctrl → typeDefined (decide (proto = 3)) d.2 = true)
      let t := pcsBlock n lost b s
      (t.lane n).rx.scr = d.1 ∧ (t.lane n).tx = x ∧
        (¬ valid → lost = false → CountedOne .lnBlkErr n s t) ∧
        (valid ∨ lost = true → t.reg .lnBlkErr n = s.reg .lnBlkErr n) ∧
        (valid → lost = false → ctrl → d.2 = fillPayload → (t.lane n).rx = { r with scr := d.1 } ∧ (t.lane n).adit = a ∧ t.regs = s.regs) ∧
        (valid → lost = false → ¬ (ctrl ∧ d.2 = fillPayload) → proto = 2 → s.laneState n = 5 → lnRxCr s.cfg n = false → r.buf.length < 64 →
          (t.lane n).rx.buf = r.buf ++ [{ ctrl := decide ctrl, payload := d.2, err := false, gap := r.gap }]) ∧
        (¬ valid ∨ lost = true → proto = 2 → s.laneState n = 5 → lnRxCr s.cfg n = false → r.buf.length < 64 →
          (t.lane n).rx.buf = r.buf ++ [{ ctrl := decide ctrl, payload := d.2, err := true, gap := r.gap }]) ∧
        (valid → lost = false → proto = 3 → ¬ ctrl → ∀ ps, a.frame = some ps → (t.lane n).adit = { a with frame := some (ps ++ [d.2]) }) ∧
        (valid → lost = false → proto = 3 → ctrl → d.2 % 256 = 0x2D → (t.lane n).adit.inbox = a.inbox ++ [.train d.2]) ∧
        (∀ k, k ≠ n → tabGet [] t.crossings.toCrusher k = tabGet [] s.crossings.toCrusher k) ∧
        LaneOnly n [.lnBlkErr, .lnRxDrop, .lnAditProto, .lnLinkEvt, .lnLinkOvf] []
          { s with crossings := { s.crossings with toCrusher := t.crossings.toCrusher } } t) ∧
    (let on := s.laneOn n = true ∧ s.bit .lnPmaStatus n 0 = true ∧ s.bit .lnPmaStatus n 5 = false ∧ s.loop n ≠ 2
     let data := on ∧ s.gen n = 0 ∧ proto ≠ 0
     let up := s.laneState n = 5
     let v := s.portal (lanePortal n 1)
     let due := x.inFrame = false ∧ 2048 ≤ x.sinceFill
     let takes := txFromPortal s.cfg n = true ∧ v.ready ≠ 0
     let trains := proto = 3 ∧ s.laneState n ≠ 5 ∧ s.laneState n ≠ 1 ∧ s.laneState n ≠ 0
     let hot := x.inject && s.bit .lnPatCtrl n 29
     let puts := fun (t : State) (pre hot : Bool) (bits : List Bool) =>
       let y := lineSymbols n pre hot bits s
       LineSent n y.1 s t ∧ (t.lane n).tx.pre = y.2 ∧ (t.lane n).tx.inject = (x.inject && !hot)
     let sent := fun (t : State) (ctrl : Bool) (payload : Nat) =>
       let w := scrambleWord false x.scr payload
       let b : Block66 := { hdr := if ctrl then 2 else 1, bits := BitVec.ofNat 64 w.2 }
       (t.lane n).tx.scr = w.1 ∧ (t.lane n).tx.sent = some b ∧
         (lnFec s.cfg n = false → puts t (lnTxPre s.cfg n) hot (blockBits b)) ∧
         (lnFec s.cfg n = true → x.cw.length < 79 → (t.lane n).tx.cw = x.cw ++ [b] ∧ (t.lane n).tx.line = x.line) ∧
         (lnFec s.cfg n = true → 79 ≤ x.cw.length → (t.lane n).tx.cw = [] ∧
           puts t (lnTxPre s.cfg n) hot (codewordBits (x.cw ++ [b])))
     (¬ on ∨ (s.gen n = 0 ∧ proto = 0) → exec (.txBlock l) s = .next s) ∧
     (on → s.gen n ≠ 0 → s.loop n ≠ 1 → ∃ t, exec (.txBlock l) s = .next t ∧
       (let g := patternBits (s.gen n) (s.patUser n) 64 x.gen
        (t.lane n).tx.gen = g.2 ∧ puts t (lnTxPre s.cfg n && s.bit .lnPatCtrl n 16) x.inject g.1) ∧
       (t.lane n).rx = r ∧ (t.lane n).adit = a ∧ LaneOnly n [] [] s t) ∧
     (on → s.gen n ≠ 0 ∨ (proto ≠ 0 ∧ lnFec s.cfg n = false) → s.loop n = 1 →
       ∃ u, exec (.txBlock l) s = .next (hear n (u.lane n).tx.line u) ∧ (u.lane n).rx = r ∧
         LaneOnly n [.lnTxUnderrun, .lnLinkEvt, .lnLinkOvf] [] { s with portals := u.portals } u) ∧
     (data → s.loop n ≠ 1 → ∃ t, exec (.txBlock l) s = .next t ∧ (t.lane n).rx = r ∧ (t.lane n).tx.sent.isSome = true ∧
       (proto = 1 → x.out = [] → ¬ up ∨ v.ready = 0 →
         puts t (lnTxPre s.cfg n) hot (bitsLsb 64 (clockWord (lnPam4 s.cfg n)))) ∧
       (proto = 2 → ¬ up ∨ (¬ takes ∧ (due ∨ (x.out = [] ∧ x.inFrame = false))) → sent t true fillPayload ∧ (t.lane n).tx.sinceFill = 0) ∧
       (proto = 3 → due ∨ (x.out = [] ∧ ¬ trains) → sent t true fillPayload ∧ (t.lane n).tx.sinceFill = 0) ∧
       (trains → ¬ due → x.out = [] →
         let ok := s.laneState n = 4 ∨ s.laneState n = 6
         sent t true (trainPayload n (decide ok) s) ∧ (t.lane n).adit.oks = (if ok then a.oks + 1 else a.oks)) ∧
       (∀ b rest, 2 ≤ proto → (proto = 2 → up ∧ ¬ takes) → ¬ due → x.out = b :: rest →
         sent t b.ctrl b.payload ∧ (t.lane n).tx.out = rest ∧ (t.lane n).tx.inFrame = !b.last) ∧
       (proto = 2 → up → ¬ takes → x.out = [] → x.inFrame = true →
         sent t true errorPayload ∧ (t.lane n).tx.skip = true ∧ CountedOne .lnTxUnderrun n s t) ∧
       (∀ d g rest, proto = 1 → up → x.out = [] → v.ready ≠ 0 → v.queue = (d, g) :: rest →
         (t.lane n).tx.sent = some { hdr := 1, bits := BitVec.ofNat 64 (d % 2 ^ 64) } ∧
         puts t (lnTxPre s.cfg n) hot (bitsLsb 64 (d % 2 ^ 64)) ∧
         t.portal (lanePortal n 1) = { v with queue := rest, ready := v.ready - 1 }) ∧
       (∀ p, p ≠ lanePortal n 1 → t.portal p = s.portal p) ∧
       LaneOnly n [.lnTxUnderrun, .lnLinkEvt, .lnLinkOvf] [] { s with portals := t.portals } t)) ∧
    (let on := s.laneOn n = true ∧ s.ready n = true ∧ 2 ≤ proto ∧ r.align = none ∧ (lnFec s.cfg n = false ∨ s.bit .lnLinkStatus n 10 = true)
     let steps := s.laneState n = 3 ∨ (s.laneState n = 2 ∧ s.bit .lnPmaStatus n 0 = true)
     (s.lockPlace n = none ↔ ∀ e ∈ r.runs, e.2 < 64) ∧
     (¬ on ∨ s.lockPlace n = none → exec (.blockLock l) s = .next s) ∧
     (∀ q, on → s.lockPlace n = some q → ∃ t, exec (.blockLock l) s = .next t ∧ t.bit .lnLinkStatus n 9 = true ∧
       (t.lane n).rx = { r with align := some q, inval := 0, runs := [] } ∧ (t.lane n).tx = x ∧
       (steps → t.laneState n = if proto = 3 then 4 else 5) ∧ (¬ steps → t.laneState n = s.laneState n) ∧
       LaneOnly n [.lnLinkStatus, .lnLinkEvt] [] s t)) ∧
    (let on := s.pmaOn n = true ∧ r.align.isSome = true ∧ 16 ≤ onesOf 64 r.inval
     (¬ on → exec (.blockLockLoss l) s = .next s) ∧
     (on → ∃ t, exec (.blockLockLoss l) s = .next t ∧ t.bit .lnLinkStatus n 9 = false ∧ (t.lane n).rx.align = none ∧ Dropped n s t)) ∧
    (∀ line : List RxSample,
     let decoded := exec (.codewordDecode l line) s
     let s := rxBlock n line s
     let r := (s.lane n).rx
     let due := s.laneOn n = true ∧ s.ready n = true ∧ lnFec s.cfg n = true ∧ s.codewordDue n = true
     let syms := groupsOf 10 544 r.cw
     (¬ due → decoded = .next s) ∧
     (∀ at0 fixed k, due → r.cwAlign = some at0 → rsDecode syms = some (fixed, k) →
       ∃ u, decoded = .next (codewordDeliver n false fixed u) ∧ CountedMany .lnFecCorr n k s u ∧
         u.lane n = { s.lane n with rx := { r with cwTried := true, cwBad := 0 } } ∧
         LaneOnly n [.lnFecCorr, .lnLinkEvt, .lnLinkOvf] [] s u) ∧
     (∀ at0, due → r.cwAlign = some at0 → rsDecode syms = none → r.cwBad < 2 →
       ∃ u, decoded = .next (codewordDeliver n true syms u) ∧ CountedOne .lnFecUncorr n s u ∧
         u.lane n = { s.lane n with rx := { r with cwTried := true, cwBad := r.cwBad + 1 } } ∧
         LaneOnly n [.lnFecUncorr, .lnLinkEvt, .lnLinkOvf] [] s u) ∧
     (∀ at0, due → r.cwAlign = some at0 → rsDecode syms = none → 2 ≤ r.cwBad →
       ∃ t, decoded = .next t ∧ CountedOne .lnFecUncorr n s t ∧ t.bit .lnLinkStatus n 10 = false ∧
         t.ready n = false ∧ (t.lane n).rx.locking = true ∧ (t.lane n).rx.cwAlign = none ∧ StoredKept s t ∧
         ∀ k, k ≠ n → t.lane k = s.lane k) ∧
     (∀ c, due → r.cwAlign = none → rsDecode syms = some c →
       let good := tabGet 0 r.cwRuns r.cwPhase + 1
       ∃ t, decoded = .next t ∧
         (good < 3 → t.lane n = { s.lane n with rx := { r with cwTried := true, cwRuns := tabSet 0 r.cwRuns r.cwPhase good } } ∧
           LaneOnly n [] [] s t) ∧
         (3 ≤ good → t.bit .lnLinkStatus n 10 = true ∧
           (t.lane n).rx = { r with cwTried := true, cwAlign := some r.cwPhase, cwRuns := [], cwBad := 0 } ∧
           LaneOnly n [.lnLinkStatus, .lnLinkEvt] [RegKind.adEvt.addr (n / 4)] s t)) ∧
     (due → r.cwAlign = none → rsDecode syms = none → ∃ t, decoded = .next t ∧
       t.lane n = { s.lane n with rx := { r with cwTried := true, cwRuns := tabErase r.cwRuns r.cwPhase } } ∧ LaneOnly n [] [] s t))

/-- The link's bring-up and its ends (12_lane_link R290 to R296, R303 to R305). TRAIN_BLOCK_RECEIVE completes for an ADIT lane that has
heard TRAIN: it compares the block; TRAIN_COMPLETE, after eight matches and eight blocks sent: it ends the exchange in UP, after a link
reset where the lanes cannot resume; LINK_RETRAIN_WRITE, LINK_RESET_WRITE and LINK_DISABLE are the host's; LINK_DOWN_TIMEOUT and
DOWN_BLOCK_RECEIVE declare link-down; HPD_IN and HPD_OUT change the debounced state and begin and end bring-up on the bench's lanes in HPD
mode, at the end of a sleep where SYS is stopped; SD_MODE_BURST is a waiting lane's training burst. -/
def Obligations.LinkBringUp : Prop :=
  (∀ (l : Fin 96) (s : State),
    let n := l.val
    let a := (s.lane n).adit
    let adit := s.laneOn n = true ∧ s.isAdit n = true
    let st := s.laneState n
    let train := fun (m : LinkMsg) => match m with | .train _ => true | _ => false
    let down := fun (m : LinkMsg) => match m with | .down => true | _ => false
    (¬ adit ∨ ¬ (4 ≤ st ∧ st ≤ 6) ∨ a.inbox.find? train = none → exec (.trainBlockReceive l) s = .next s) ∧
    (∀ p, adit → a.inbox.find? train = some (.train p) →
      let rest := { a with inbox := a.inbox.erase (.train p) }
      (trainMatches n p s = true → st = 4 ∨ st = 6 → ∃ t, exec (.trainBlockReceive l) s = .next t ∧ t.laneState n = 4 ∧
        (t.lane n).adit = { rest with matched := if bitAt 12 p then a.matched + 1 else 0, farEpoch := bitsOf 16 8 p
                                      farRxNext := bitsOf 24 12 p } ∧ LaneOnly n [.lnLinkStatus] [] s t) ∧
      (trainMatches n p s = true → st = 5 → ∃ t, exec (.trainBlockReceive l) s = .next t ∧
        t.laneState n = (if bitAt 12 p then 5 else 4) ∧
        (t.lane n).adit = (if bitAt 12 p then rest else { rest with matched := 0, oks := 0 }) ∧ LaneOnly n [.lnLinkStatus] [] s t) ∧
      (trainMatches n p s = false → st = 4 ∨ st = 6 → ∃ t, exec (.trainBlockReceive l) s = .next t ∧ t.laneState n = 6 ∧
        (st = 4 → t.bit .lnLinkEvt n 3 = true) ∧ (t.lane n).adit = { rest with matched := 0 } ∧
        LaneOnly n [.lnLinkStatus, .lnLinkEvt] [] s t) ∧
      (trainMatches n p s = false → st = 5 → exec (.trainBlockReceive l) s = .next (s.modAdit n fun _ => rest))) ∧
    (let done := adit ∧ st = 4 ∧ 8 ≤ a.matched ∧ 8 ≤ a.oks
     let resumes := a.kept = true ∧ a.farEpoch = s.epoch n ∧ seqDist a.txAck a.farRxNext ≤ seqDist a.txAck a.txNext
     (¬ done → exec (.trainComplete l) s = .next s) ∧
     (done → ∃ t, exec (.trainComplete l) s = .next t ∧ t.laneState n = 5 ∧ t.bit .lnLinkStatus n 8 = false ∧
       t.bit .lnLinkStatus n 12 = false ∧ t.bit .lnLinkEvt n 0 = true ∧ (t.lane n).adit.kept = true ∧
       (resumes → t.epoch n = s.epoch n ∧ seqDist (t.lane n).adit.txAck a.farRxNext = 0 ∧ (t.lane n).adit.txNext = a.txNext ∧
         (t.lane n).adit.tokens = a.tokens.drop (seqDist a.txAck a.farRxNext) ∧ (t.lane n).adit.rxNext = a.rxNext) ∧
       (¬ resumes → t.epoch n = (s.epoch n + a.farEpoch + 1) % 256 ∧ (t.lane n).adit.txAck = 0 ∧ (t.lane n).adit.txNext = 0 ∧
         (t.lane n).adit.tokens = [] ∧ (t.lane n).adit.rxNext = 0 ∧ (t.lane n).adit.rxTokens = [] ∧
         (t.lane n).adit.credits = 256 ∧ t.bit .lnLinkEvt n 4 = true) ∧
       LaneFed n (linkRegisters ++ [.lnAditReplay, .lnAditSeq, .lnAditRx, .lnAditCred]) s t)) ∧
    (let late := s.laneOn n = true ∧ 2 ≤ lnProto s.cfg n ∧ (st = 2 ∨ st = 3 ∨ st = 4 ∨ st = 6)
     let waits := lnHpMode s.cfg n = 2 ∧ s.signal n = false
     (¬ late → exec (.linkDownTimeout l) s = .next s) ∧
     (late → ∃ t, exec (.linkDownTimeout l) s = .next t ∧ t.bit .lnLinkStatus n 12 = true ∧
       (s.bit .lnLinkStatus n 12 = false → t.bit .lnLinkEvt n 1 = true) ∧
       (waits → t.laneState n = 1 ∧ t.bit .lnLinkStatus n 8 = false ∧ t.ready n = false ∧ (t.lane n).rx.locking = false) ∧
       (¬ waits → t.laneState n = st ∧ (t.lane n).rx = (s.lane n).rx) ∧
       (t.lane n).tx = (if s.isAdit n = true then { (s.lane n).tx with out := [], inFrame := false } else (s.lane n).tx) ∧
       LaneOnly n [.lnLinkStatus, .lnLinkEvt, .lnPmaStatus] [RegKind.adEvt.addr (n / 4)] s t)) ∧
    (let hears := adit ∧ 4 ≤ st ∧ st ≤ 6 ∧ (a.inbox.find? down).isSome = true
     (¬ hears → exec (.downBlockReceive l) s = .next s) ∧
     (hears → ∃ t, exec (.downBlockReceive l) s = .next t ∧ t.bit .lnLinkStatus n 12 = true ∧
       t.laneState n = (if st = 5 then 4 else st) ∧
       (t.lane n).adit = { a with inbox := a.inbox.erase .down, matched := 0, oks := 0 } ∧ (t.lane n).tx.out = [] ∧
       LaneOnly n [.lnLinkStatus, .lnLinkEvt] [RegKind.adEvt.addr (n / 4)] s t)) ∧
    (let waits := s.laneOn n = true ∧ st = 1 ∧ lnHpMode s.cfg n = 2 ∧ s.bit .lnPmaStatus n 0 = true
     (¬ waits → exec (.sdModeBurst l) s = .next s) ∧
     (waits → ∃ t, exec (.sdModeBurst l) s = .next t ∧ BurstSent n s t ∧ (t.lane n).rx = (s.lane n).rx ∧
       (t.lane n).adit = (s.lane n).adit ∧ LaneOnly n [] [] s t)) ∧
    (∀ p : HostPort,
      let near := s.reach (RegKind.lnLinkCtrl.addr n) = .open
      WriteTurnedAway p .lnLinkCtrl n (s.actWord .lnLinkCtrl n (word 1)) s (exec (.linkRetrainWrite p l) s) ∧
      WriteTurnedAway p .lnLinkCtrl n (s.actWord .lnLinkCtrl n (word 2)) s (exec (.linkResetWrite p l) s) ∧
      FieldTurnedAway p .lnLinkCtrl n 4 s (exec (.linkDisable p l) s) ∧
      (near → s.laneOn n = true → s.bit .lnLinkStatus n 8 = false → st = 4 ∨ st = 5 →
        ∃ t, exec (.linkRetrainWrite p l) s = .next t ∧ Retrained n s t ∧ LaneFed n linkRegisters s t) ∧
      (near → s.laneOn n = true → s.bit .lnLinkStatus n 8 = true → 2 ≤ st → st ≤ 6 →
        ∃ t, exec (.linkRetrainWrite p l) s = .next t ∧ t.laneState n = 2 ∧ (t.lane n).rx.locking = true ∧
          t.reg .lnRetrains n = s.reg .lnRetrains n ∧ LaneOnly n linkRegisters [] s t) ∧
      (near → s.laneOn n = false ∨ (s.bit .lnLinkStatus n 8 = false ∧ st ≠ 4 ∧ st ≠ 5) ∨
          (s.bit .lnLinkStatus n 8 = true ∧ ¬ (2 ≤ st ∧ st ≤ 6)) → exec (.linkRetrainWrite p l) s = .next s) ∧
      (near → s.isAdit n = false → exec (.linkResetWrite p l) s = .next s) ∧
      (near → s.isAdit n = true → ∃ t, exec (.linkResetWrite p l) s = .next t ∧ t.epoch n = (s.epoch n + 1) % 256 ∧
        t.field .lnLinkStatus n 0 24 = s.field .lnLinkStatus n 0 24 ∧
        RegsKept [RegKind.lnLinkStatus.addr n] s t ∧ besideRegs t = besideRegs s) ∧
      (FieldTaken p .lnLinkCtrl n s → s.bit .lnLinkCtrl n 2 = true →
        ∃ t, exec (.linkDisable p l) s = .next t ∧ t.regs = s.regs ∧ besideRegs t = besideRegs s) ∧
      (FieldTaken p .lnLinkCtrl n s → s.bit .lnLinkCtrl n 2 = false → ∃ t, exec (.linkDisable p l) s = .next t ∧
        t.bit .lnLinkCtrl n 2 = true ∧ t.laneState n = 0 ∧ t.ready n = false ∧ (t.lane n).rx.locking = false ∧
        t.bit .lnLinkStatus n 8 = false ∧ (s.laneOn n = true → lnProto s.cfg n ≠ 0 → t.bit .lnLinkStatus n 12 = true) ∧
        (s.pmaOn n = true → (t.lane n).tx.out = [] ∧ (t.lane n).rx.buf = [] ∧
          (t.portal (lanePortal n 0)).queue = [] ∧ (t.portal (lanePortal n 1)).queue = []) ∧
        LaneFed n (.lnLinkCtrl :: linkRegisters) s t))) ∧
  (∀ (b : Fin 24) (s : State),
    let has := s.bit .lbHpd b.val 0
    let awake := s.configured = true ∧ s.sysRuns = true
    let shows := fun (v : Bool) => s.setField .lbHpd b.val 0 1 (bitNat v)
    let later := fun (v : Bool) => { shows v with power := { s.power with edges := s.power.edges ++ [.hpd b.val v] } }
    let begins := fun (n : Nat) => n / 4 = b.val ∧ s.laneOn n = true ∧ lnHpMode s.cfg n = 1 ∧ s.laneState n = 1
    let ends := fun (n : Nat) => n / 4 = b.val ∧ s.laneOn n = true ∧ lnProto s.cfg n ≠ 0 ∧ lnHpMode s.cfg n = 1 ∧
      2 ≤ s.laneState n ∧ s.laneState n ≤ 6
    (has = true → exec (.hpdIn b) s = .next s) ∧
    (has = false → s.configured = false → exec (.hpdIn b) s = .next (shows true)) ∧
    (has = false → s.configured = true → s.sysRuns = false → exec (.hpdIn b) s = .next (later true)) ∧
    (has = false → awake → ∃ t, exec (.hpdIn b) s = .next t ∧ t.bit .lbHpd b.val 0 = true ∧ t.bit .lbEvt b.val 8 = true ∧
      (∀ n, begins n → lnProto s.cfg n ≠ 0 → s.gen n = 0 → t.laneState n = 2 ∧ (t.lane n).rx.locking = true) ∧
      (∀ n, ¬ begins n → t.lane n = s.lane n ∧ (n < 96 → t.reg .lnLinkStatus n = s.reg .lnLinkStatus n)) ∧
      besideFlags { t with lanes := s.lanes } = besideFlags s) ∧
    (has = false → exec (.hpdOut b) s = .next s) ∧
    (has = true → s.configured = false → exec (.hpdOut b) s = .next (shows false)) ∧
    (has = true → s.configured = true → s.sysRuns = false → exec (.hpdOut b) s = .next (later false)) ∧
    (has = true → awake → ∃ t, exec (.hpdOut b) s = .next t ∧ t.bit .lbHpd b.val 0 = false ∧ t.bit .lbEvt b.val 9 = true ∧
      (∀ n, ends n → t.laneState n = 1 ∧ t.bit .lnLinkStatus n 12 = true ∧ t.bit .lnLinkStatus n 8 = false ∧ t.ready n = false) ∧
      (∀ n, ¬ ends n → t.lane n = s.lane n ∧ (n < 96 → t.reg .lnLinkStatus n = s.reg .lnLinkStatus n)) ∧
      besideFlags { t with lanes := s.lanes } = besideFlags s))

/-- The Adit link (12_lane_link R297 to R302). ADIT_FRAME_SEND: with nothing else to send, a replay's tokens, or up to eight new ones
within the credits, go out as a frame (R298 to R300). ADIT_FRAME_RECEIVE: the frame in order is taken, what was received before is
not taken twice, and a frame that is bad, early or beyond the credits is answered by NAK, once (R301). ACK_BLOCK_SEND reports counts
that changed (R300). ACK_RECEIVE and NAK_RECEIVE move `TXACK` within its window, and a NAK replays from there; REPLAY_TIMEOUT replays
from `TXACK`; the fourth replay without an advance starts a retrain (R302). On a lane that is not an ADIT lane that is UP all do
nothing. -/
def Obligations.AditLink : Prop :=
  ∀ (l : Fin 96) (s : State),
    let n := l.val
    let a := (s.lane n).adit
    let x := (s.lane n).tx
    let v := s.portal (lanePortal n 1)
    let up := s.laneOn n = true ∧ s.isAdit n = true ∧ s.laneState n = 5
    let counts : List RegKind := [.lnAditSeq, .lnAditRx, .lnAditCred]
    let nak := 0x4B + place 8 12 a.rxNext + place 20 12 a.credSeq
    let frame := fun (m : LinkMsg) => match m with | .frame _ _ _ => true | _ => false
    let ack := fun (m : LinkMsg) => match m with | .ack _ _ => true | _ => false
    let back := fun (m : LinkMsg) => match m with | .nak _ _ => true | _ => false
    (¬ up → exec (.aditFrameSend l) s = .next s ∧ exec (.aditFrameReceive l) s = .next s ∧ exec (.ackBlockSend l) s = .next s ∧
      exec (.ackReceive l) s = .next s ∧ exec (.nakReceive l) s = .next s ∧ exec (.replayTimeout l) s = .next s) ∧
    (up → x.out ≠ [] → exec (.aditFrameSend l) s = .next s) ∧
    (up → x.out = [] → a.resend = none →
      let c := min 8 (min v.ready a.credits)
      (c = 0 → exec (.aditFrameSend l) s = .next s) ∧
      (c ≠ 0 → ∃ t, exec (.aditFrameSend l) s = .next t ∧
        (t.lane n).tx.out = frameBlocks (aditUnits s.cfg n) a.txNext (v.queue.take c) a.rxNext
          (((a.rxNext + 4096 - a.rxTokens.length) % 4096)) ∧
        (t.lane n).adit = { a with tokens := a.tokens ++ v.queue.take c, txNext := (a.txNext + c) % 4096, ackDue := false } ∧
        t.portal (lanePortal n 1) = { v with queue := v.queue.drop c, ready := v.ready - c } ∧
        (∀ p, p ≠ lanePortal n 1 → t.portal p = s.portal p) ∧ (t.lane n).rx = (s.lane n).rx ∧
        LaneOnly n counts [] { s with portals := t.portals } t)) ∧
    (∀ k, up → x.out = [] → a.resend = some k →
      let toks := (a.tokens.drop (seqDist a.txAck k)).take 8
      ∃ t, exec (.aditFrameSend l) s = .next t ∧
        (toks = [] → (t.lane n).tx = x ∧ (t.lane n).adit = { a with resend := none }) ∧
        (toks ≠ [] → (t.lane n).tx.out = frameBlocks (aditUnits s.cfg n) k toks a.rxNext a.credSeq ∧
          (t.lane n).adit.tokens = a.tokens ∧ (t.lane n).adit.txNext = a.txNext ∧
          (t.lane n).adit.resend = (if (k + toks.length) % 4096 = a.txNext then none else some ((k + toks.length) % 4096))) ∧
        LaneOnly n [] [] s t) ∧
    (up → a.inbox.find? frame = none → exec (.aditFrameReceive l) s = .next s) ∧
    (∀ seq toks bad, up → a.inbox.find? frame = some (.frame seq toks bad) →
      let before := seqDist seq a.rxNext
      let fresh := toks.drop before
      let good := bad = false ∧ before < toks.length ∧ a.rxTokens.length + fresh.length ≤ 256
      let again := bad = false ∧ toks.length ≤ before ∧ before < 2048
      let left := { a with inbox := a.inbox.erase (.frame seq toks bad) }
      ∃ t, exec (.aditFrameReceive l) s = .next t ∧
        (good → (t.lane n).adit = { left with rxTokens := a.rxTokens ++ fresh, rxNext := (a.rxNext + fresh.length) % 4096
                                              ackDue := true, nakAge := none } ∧ (t.lane n).tx = x) ∧
        (again → (t.lane n).adit = { left with ackDue := true } ∧ (t.lane n).tx = x) ∧
        (¬ good → ¬ again →
          (t.lane n).adit = { left with nakAge := if a.nakAge.isSome then a.nakAge else some 0 } ∧
          (t.lane n).tx.out = (if a.nakAge.isSome then x.out else x.out ++ [{ ctrl := true, payload := nak, last := true }])) ∧
        (bad = true → CountedOne .lnAditCrc n s t) ∧
        (bad = false → before < toks.length → 256 < a.rxTokens.length + fresh.length → CountedOne .lnAditProto n s t) ∧
        (t.lane n).rx = (s.lane n).rx ∧
        LaneOnly n (counts ++ [.lnAditCrc, .lnAditProto, .lnLinkOvf, .lnLinkEvt]) [] s t) ∧
    (up → a.ackDue = false → exec (.ackBlockSend l) s = .next s) ∧
    (up → a.ackDue = true → ∃ t, exec (.ackBlockSend l) s = .next t ∧
      (t.lane n).tx.out = x.out ++ [{ ctrl := true, payload := 0x66 + place 8 12 a.rxNext + place 20 12 a.credSeq, last := true }] ∧
      (t.lane n).adit = { a with ackDue := false } ∧ (t.lane n).rx = (s.lane n).rx ∧ LaneOnly n [] [] s t) ∧
    (up → a.inbox.find? ack = none → exec (.ackReceive l) s = .next s) ∧
    (∀ k c, up → a.inbox.find? ack = some (.ack k c) →
      let inside := seqDist a.txAck k ≤ seqDist a.txAck a.txNext
      ∃ t, exec (.ackReceive l) s = .next t ∧ (inside → seqDist (t.lane n).adit.txAck k = 0) ∧ (¬ inside → (t.lane n).adit.txAck = a.txAck) ∧
        (t.lane n).adit.tokens = (if inside then a.tokens.drop (seqDist a.txAck k) else a.tokens) ∧
        (t.lane n).adit.farCred = (if seqDist c a.txNext ≤ 256 then c else a.farCred) ∧
        (t.lane n).adit.inbox = a.inbox.erase (.ack k c) ∧ (t.lane n).adit.txNext = a.txNext ∧
        (t.lane n).tx = x ∧ (t.lane n).rx = (s.lane n).rx ∧ LaneOnly n counts [] s t) ∧
    (up → a.inbox.find? back = none → exec (.nakReceive l) s = .next s) ∧
    (∀ k c, up → a.inbox.find? back = some (.nak k c) →
      let inside := seqDist a.txAck k ≤ seqDist a.txAck a.txNext
      (¬ inside → ∃ t, exec (.nakReceive l) s = .next t ∧
        t.lane n = { s.lane n with adit := { a with inbox := a.inbox.erase (.nak k c) } } ∧ LaneOnly n [] [] s t) ∧
      (inside → ∃ t, exec (.nakReceive l) s = .next t ∧ seqDist (t.lane n).adit.txAck k = 0 ∧
        (t.lane n).adit.tokens = a.tokens.drop (seqDist a.txAck k) ∧ (t.lane n).adit.txNext = a.txNext ∧
        (k ≠ a.txNext → (t.lane n).adit.resend = some k ∧ CountedOne .lnAditReplay n s t) ∧
        (k ≠ a.txNext → k = a.txAck → 3 ≤ a.replays → Retrained n s t ∧ t.bit .lnLinkEvt n 5 = true) ∧
        (k = a.txNext ∨ seqDist a.txAck k ≠ 0 ∨ a.replays < 3 → t.laneState n = 5) ∧
        LaneFed n (linkRegisters ++ .lnAditReplay :: counts) s t)) ∧
    (up → a.tokens = [] ∨ a.txAck = a.txNext → exec (.replayTimeout l) s = .next s) ∧
    (up → a.tokens ≠ [] → a.txAck ≠ a.txNext → ∃ t, exec (.replayTimeout l) s = .next t ∧
      (t.lane n).adit.resend = some a.txAck ∧ (t.lane n).adit.tokens = a.tokens ∧ CountedOne .lnAditReplay n s t ∧
      (a.replays < 3 → (t.lane n).adit.replays = a.replays + 1 ∧ t.laneState n = 5) ∧
      (3 ≤ a.replays → (t.lane n).adit.replays = 0 ∧ Retrained n s t ∧ t.bit .lnLinkEvt n 5 = true) ∧
      LaneFed n (linkRegisters ++ [.lnAditReplay]) s t)

/-! ### Mailboxes and the Foreman's service -/

/-- HOST_MAILBOX_POST completes while the post reaches the block: the write of post word 0 gives the buffer to the lowest free host
mailbox and reports its slot, or reports that the Foreman is dead; a post that finds all full waits for the end of its clock, in which a
release still makes room, and then is told so, which counts (14_foreman R330, R331, R347); of one clock's posts SPI's come first, then
I2C's, then JTAG's (R332); a command accepted ends QUIET (16_power R381). MAILBOX_RELEASE frees a mailbox that shows `DONE` (R333).
FABRIC_MAILBOX_MESSAGE: eight tokens from FIRST to LAST are a command, and a run that does not begin with FIRST is answered BAD_FRAME and
discarded (R334). -/
def Obligations.MailboxPosts : Prop :=
  ∀ s : State,
    (∀ (p : HostPort) (w0 : Word),
      let bank := s.portBank p
      let buf := bank.post.set 0 w0
      let seq := bitsOf 16 8 w0.toNat
      let alone := s.foreman.posted = [] ∧ s.foreman.waiting = []
      let live := s.postReaches p = true ∧ s.foreman.dead = false
      (s.postReaches p = false → exec (.hostMailboxPost p w0) s = .next s) ∧
      (s.postReaches p = true → s.foreman.dead = true → alone → ∃ t, exec (.hostMailboxPost p w0) s = .next t ∧ (t.portBank p).post = buf ∧
        (t.portBank p).postRes = word (3 * 65536 + seq * 256 + 128) ∧ (∀ q, q ≠ p → t.portBank q = s.portBank q) ∧
        { t with ports := s.ports } = s) ∧
      (live → ∃ t, exec (.hostMailboxPost p w0) s = .next t ∧ (t.portBank p).post = buf ∧
        ((∃ m, (t.mboxAt m).cmd = buf ∧ (t.mboxAt m).busy = true ∧ m ∈ t.foreman.order ∧ (p, m) ∈ t.foreman.posted) ∨
          (p, buf) ∈ t.foreman.waiting) ∧
        (alone → s.freeMailbox = none → t.foreman = { s.foreman with waiting := [(p, buf)] } ∧
          { t with foreman := s.foreman, ports := s.ports } = s) ∧
        (∀ m, alone → s.freeMailbox = some m →
          (t.portBank p).postRes = word (seq * 256 + 128 + m) ∧ t.foreman.order = s.foreman.order ++ [m] ∧
          t.mboxAt m = { s.mboxAt m with busy := true, done := false, cmd := buf, staged := none, work := .none } ∧
          (∀ k, k ≠ m → t.mboxAt k = s.mboxAt k) ∧ (s.power.mode = .quiet → t.power.mode = .run) ∧
          t.foreman = { s.foreman with mbox := t.foreman.mbox, order := t.foreman.order, posted := [(p, m)] }) ∧
        (∀ q k, q ≠ p → portRankOf p < portRankOf q → s.foreman.waiting = [] → s.foreman.posted = [(q, k)] → s.unserved k = true → k < 16 →
          (s.mboxAt k).done = false →
          let m := ((List.range 16).find? fun x => decide (x = k) || (!(s.mboxAt x).busy && !(s.mboxAt x).done)).getD 0
          (t.portBank p).postRes = word (seq * 256 + 128 + m) ∧ (t.mboxAt m).cmd = buf) ∧
        (alone → (∀ q, q ≠ p → t.portBank q = s.portBank q) ∧ (s.power.mode ≠ .quiet → t.power = s.power) ∧
          RegsKept [RegKind.pwrEvt.addr 0] s t ∧
          besideFlags { t with foreman := s.foreman, ports := s.ports, power := s.power } = besideFlags s)) ∧
      (∀ post, s.foreman.waiting = [(p, post)] →
        let t := refusePosts (fun _ => true) s
        (t.portBank p).postRes = word (2 * 65536 + bitsOf 16 8 (post.getD 0 0).toNat * 256 + 128) ∧ CountedOne .mbxFullCnt 0 s t ∧
        t.bit .mbxEvt 0 2 = true ∧ t.foreman = { s.foreman with waiting := [], posted := [] } ∧
        RegsKept [RegKind.mbxFullCnt.addr 0, RegKind.mbxEvt.addr 0] s t ∧
        besideFlags { t with foreman := s.foreman, ports := s.ports } = besideFlags s)) ∧
    (∀ (p : HostPort) (m : Fin 16),
      let near := s.reach (RegKind.mbxDone.addr 0) = .open
      let free := near ∧ (s.mboxAt m.val).done = true ∧ (s.freshBits .mbxDone 0).getLsbD m.val = false
      WriteTurnedAway p .mbxDone 0 (bitWord m.val) s (exec (.mailboxRelease p m) s) ∧
      (near → ¬ free → exec (.mailboxRelease p m) s = .next s) ∧
      (free → s.foreman.waiting = [] → ∃ t, exec (.mailboxRelease p m) s = .next t ∧
        t.mboxAt m.val = { s.mboxAt m.val with busy := false, done := false } ∧ (∀ k, k ≠ m.val → t.mboxAt k = s.mboxAt k) ∧
        { t with foreman := { t.foreman with mbox := s.foreman.mbox } } = s) ∧
      (∀ q post, free → s.foreman.waiting = [(q, post)] → s.foreman.posted = [] → s.freeMailbox = none →
        ∃ t, exec (.mailboxRelease p m) s = .next t ∧
          t.mboxAt m.val = { s.mboxAt m.val with busy := true, done := false, cmd := post, staged := none, work := .none } ∧
          (t.portBank q).postRes = word (bitsOf 16 8 (post.getD 0 0).toNat * 256 + 128 + m.val) ∧ t.foreman.waiting = [] ∧
          t.foreman.order = s.foreman.order ++ [m.val])) ∧
    (∀ k : Fin 8,
      let m := 16 + k.val
      let p := sitePortal m 48 1
      let q := sitePortal m 48 0
      let v := s.portal p
      let open' := s.foreman.running = true ∧ s.islandUp p = true ∧ portalEn s.cfg p = true ∧ s.foreman.order.contains m = false ∧
        (s.portal q).stage = [] ∧ (s.portal q).queue = [] ∧ (s.attIn (attPortal q)).ph = .idle
      (¬ open' ∨ v.ready = 0 ∨ v.queue = [] → exec (.fabricMailboxMessage k) s = .next s) ∧
      (∀ toks rest, open' → v.queue = toks ++ rest → toks.length = 8 → 8 ≤ v.ready → (s.mboxAt m).gather = [] →
        (toks.map fun t => bitAt 0 t.2) = true :: List.replicate 7 false →
        (toks.map fun t => bitAt 1 t.2) = List.replicate 7 false ++ [true] →
        ∃ t, exec (.fabricMailboxMessage k) s = .next t ∧ t.portal p = { v with queue := rest, ready := v.ready - 8 } ∧
          t.mboxAt m = { s.mboxAt m with busy := true, done := false, cmd := tokenWords toks, staged := none, work := .none, gather := []
                                         discarding := false } ∧
          t.foreman.order = s.foreman.order ++ [m] ∧ (s.power.mode = .quiet → t.power.mode = .run) ∧
          (∀ n, n ≠ m → t.mboxAt n = s.mboxAt n) ∧ (∀ n, n ≠ p → t.portal n = s.portal n) ∧
          { t.foreman with mbox := s.foreman.mbox, order := s.foreman.order } = s.foreman ∧
          (s.power.mode ≠ .quiet → { t with foreman := s.foreman, portals := s.portals } = s)) ∧
      (∀ d g rest, open' → v.queue = (d, g) :: rest → v.ready ≠ 0 → (s.mboxAt m).gather = [] → (s.mboxAt m).discarding = false →
        bitAt 0 g = false →
        ∃ t, exec (.fabricMailboxMessage k) s = .next t ∧ t.portal p = { v with queue := rest, ready := v.ready - 1 } ∧
          Posted m (mkResponse (List.replicate 16 0) stBadFrame [] 0) (s.modMbox m fun b => { b with cmd := List.replicate 16 0 }) t ∧
          (t.mboxAt m).discarding = true ∧ (∀ n, n ≠ p → n ≠ q → t.portal n = s.portal n)))

/-- LOCKSTEP_MISMATCH, WATCHDOG_EXPIRY complete where the Foreman runs or restarts: it restarts (14_foreman R345, R346); an uncorrectable
word of its RAM is lost. FOREMAN_RESTART_COMPLETE, at the end of a restart: the staged responses of committed commands are posted, the other commands wait for service
again, and it runs (R345). -/
def Obligations.ForemanRestarts : Prop :=
  ∀ s : State,
    let live := s.sysRuns = true ∧ (s.foreman.running = true ∨ s.foreman.restarting = true)
    (¬ live → exec .watchdogExpiry s = .next s ∧ ∀ c, exec (.lockstepMismatch c) s = .next s) ∧
    (live → (∃ t, exec .watchdogExpiry s = .next t ∧ RestartBegun 2 s t ∧ t.foreman.ram = s.foreman.ram) ∧
      (∃ t, exec (.lockstepMismatch 0) s = .next t ∧ RestartBegun 1 s t ∧ t.foreman.ram = s.foreman.ram) ∧
      (∃ t, exec (.lockstepMismatch 2) s = .next t ∧ RestartBegun 4 s t ∧ t.foreman.ram = s.foreman.ram)) ∧
    (live → ∃ t, exec (.lockstepMismatch 1) s = .next t ∧ RestartBegun 3 s t ∧
      ∃ w, w < 131072 ∧ t.foreman.ram =
        (if 0x80000 ≤ 8 * w then memWrite ramFill s.foreman.ram (8 * w) (List.replicate 8 0) else s.foreman.ram)) ∧
    (s.foreman.restarting = false ∨ s.sysRuns = false → exec .foremanRestartComplete s = .next s) ∧
    (s.foreman.restarting = true → s.sysRuns = true → ∃ t, exec .foremanRestartComplete s = .next t ∧
      t.foreman.running = true ∧ t.foreman.restarting = false ∧
      t.foreman.order = s.foreman.order.filter (fun m => (s.mboxAt m).staged.isNone) ∧
      (∀ m r, m ∈ s.foreman.order → (s.mboxAt m).staged = some r → (t.mboxAt m).rsp = r ∧ (t.mboxAt m).staged = none ∧
        (m < 16 → (t.mboxAt m).done = true)) ∧
      (∀ m, (s.mboxAt m).staged = none ∨ m ∉ s.foreman.order → t.mboxAt m = s.mboxAt m) ∧ RegsKept [] s t ∧ StoredKept s t ∧
      besideFlags { t with foreman := s.foreman, portals := s.portals, power := s.power } = besideFlags s)

/-- Every command of the mailboxes: a row serves the command that is next, answers the first check that it fails (14_foreman R335), or
STATE to one that needs a configuration before RUN has been reached (R509), and leaves a command of another opcode to its own row (R337).
FOREMAN_WHEEL_SLOT moves a beat of a HAUL_COPY and answers at its end (R342, R343). STORE_PROGRAMMING_DONE: the bytes stand in the
image store, of a commit in both copies of the record, or the programming has failed (15_configuration R353, R354). -/
def Obligations.ForemanService : Prop :=
  (∀ (mb : Mailbox) (s : State) (i : Instr) (op : Nat) (form : List Word → Bool), (i, op, form) ∈ foremanRows mb →
    let m := mailboxNo mb
    let c := s.cmdOf m
    (s.servable m = false → exec i s = .next s) ∧
    (s.servable m = true → preStatus m c ≠ 0 → ∃ t, exec i s = .next t ∧ Answered m (preStatus m c) [] 0 s t) ∧
    (s.servable m = true → preStatus m c = 0 → ¬ (cmdOp c = op ∧ form c = true) → exec i s = .next s) ∧
    (s.servable m = true → preStatus m c = 0 → cmdOp c = op → form c = true → needsConfig c = true → s.configured = false →
      ∃ t, exec i s = .next t ∧ Answered m stState [] 0 s t)) ∧
  (∀ s : State,
    let v := s.master 64
    let over' := if v.st = 6 then (if v.stop = true then stAborted else 0) else if v.st = 7 then stBadParam else stAborted
    (s.slotFree 64 = false → s.copyMailbox = none ∨ (v.st ≤ 4 ∧ s.power.dom = []) → exec .foremanWheelSlot s = .next s) ∧
    (s.power.dom = [] → MovesBeat 64 s (exec .foremanWheelSlot s)) ∧
    (∀ m, s.slotFree 64 = false → s.power.dom = [] → s.copyMailbox = some m → v.st = 5 ∨ v.st = 6 ∨ v.st = 7 →
      (∀ q, targetOf v.dst ≠ .queue q) → v.err ≠ herrLast →
      ∃ t, exec .foremanWheelSlot s = .next t ∧
        Answered m over' [word (v.count - v.left)] 4 (s.modMaster 64 fun _ => {}) t)) ∧
  (∀ (ok : Bool) (s : State),
    (s.conf.job = none ∨ s.sysRuns = false ∨ s.foreman.running = false → exec (.storeProgrammingDone ok) s = .next s) ∧
    (∀ j, s.conf.job = some j → s.sysRuns = true → s.foreman.running = true →
      let one := memWrite storeFill s.conf.store j.off j.bytes
      (ok = true → j.commit = none → ∃ t, exec (.storeProgrammingDone ok) s = .next t ∧
        Answered j.mailbox 0 [] 0 { s with conf := { s.conf with job := none, store := one } } t) ∧
      (∀ n, ok = true → j.commit = some n → ∃ t, exec (.storeProgrammingDone ok) s = .next t ∧
        t.conf = { s.conf with job := none, store := memWrite storeFill one (j.off + 0x1000) j.bytes } ∧
        t.bit .cfgEvt 0 7 = true ∧ Posted j.mailbox (mkResponse (s.cmdOf j.mailbox) 0 [word n] 4) s t ∧
        RegsKept [RegKind.cfgEvt.addr 0] s t) ∧
      (ok = false → ∃ t, exec (.storeProgrammingDone ok) s = .next t ∧ t.conf.job = none ∧
        (∀ a, (a < j.off ∨ j.off + j.bytes.length ≤ a) → (a < j.off + 0x1000 ∨ j.off + 0x1000 + j.bytes.length ≤ a) →
          tabGet storeFill t.conf.store a = tabGet storeFill s.conf.store a) ∧
        Posted j.mailbox (mkResponse (s.cmdOf j.mailbox) 0x1016 [] 0) s t ∧ RegsKept [] s t)))

/-! ### The Foreman's commands -/

/-- The commands that read (14_foreman R336): PING, GET_STATUS, FW_INFO, GET and PARAM_INFO (R339, 20_register_map R478), CR_COUNTERS
(07_crushers R162), Q_DESC (08_sump R173), Q_COUNTERS, RAM_READ (R343) and FAULT_LOG (18_self_test_faults R455). Each answers OK with
its payload, or the status stated, and beside a clear that it asks for changes nothing. A parameter's value that the spec leaves open
is free. -/
def Obligations.ForemanReads : Prop :=
  ∀ (mb : Mailbox) (s : State),
    let m := mailboxNo mb
    let c := s.cmdOf m
    let a := cmdArg c 0
    let e := bitsOf 8 4 a
    let k := bitsOf 0 7 a
    (Served mb 0x0001 s → ∃ t, exec (.ping mb) s = .next t ∧ Answered m 0 (c.drop 2) (cmdLen c) s t) ∧
    (Served mb 0x0002 s → ∃ t, exec (.getStatus mb) s = .next t ∧
      Answered m 0 [word (s.power.mode.code + 65536 * bitsOf 0 16 s.fmStatusReg.toNat), s.isoStatus 0, s.isoStatus 1, s.loadPctReg] 16 s t) ∧
    (Served mb 0x0004 s → ∃ t, exec (.fwInfo mb) s = .next t ∧
      Answered m 0 [Config.firmwareVersion, Config.romVersion, Config.signingKeyIndex] 12 s t) ∧
    (let n := cmdLen c / 4
     let ref := fun (i : Nat) => cmdArg c i
     (∀ i, Served mb 0x0101 s → (List.range n).find? (fun i => !(paramKnown (ref i))) = some i →
       ∃ t, exec (.get mb) s = .next t ∧ Answered m stNoParam [word i] 4 s t) ∧
     (Served mb 0x0101 s → (∀ i, i < n → paramKnown (ref i) = true) → ∃ (vals : List Nat) (t : State), vals.length = n ∧
       (∀ i, i < n → (paramGet (refId (ref i)) (refInst (ref i)) s).2 = s →
         vals.getD i 0 = (paramGet (refId (ref i)) (refInst (ref i)) s).1) ∧
       exec (.get mb) s = .next t ∧
       Answered m 0 ((List.range n).flatMap fun i => [word (ref i), word (vals.getD i 0), word (vals.getD i 0 >>> 32)]) (12 * n)
         { s with freeCtr := t.freeCtr } t)) ∧
    (Served mb 0x0103 s → ∃ t, exec (.paramInfo mb) s = .next t ∧
      (paramKnown a = false → Answered m stNoParam [] 0 s t) ∧
      (paramKnown a = true →
        let r := paramRange (refId a)
        let w := place 20 8 ((paramTop (refId a)).getD 0 / 16) + place 16 2 (paramEffectOf (refId a)) +
          place 8 7 (paramWidthOf (refId a)) + bitNat (paramRw (refId a))
        Answered m 0 [word w, word r.1, word (r.1 >>> 32), word r.2, word (r.2 >>> 32)] 20 s t)) ∧
    (Served mb 0x0401 s → ∃ t, exec (.crCounters mb) s = .next t ∧
      (bitAt 31 a = false → Answered m 0 [s.ctx e k 60, s.ctx e k 61, s.ctx e k 62, s.ctx e k 63] 16 s t) ∧
      (bitAt 31 a = true → t.ctx e k 60 = 0 ∧ t.ctx e k 61 = 0 ∧ t.ctx e k 62 = 0 ∧ t.ctx e k 63 = s.ctx e k 63 &&& 0x100 ∧
        (∀ x, (∀ w, 60 ≤ w → w < 64 → x ≠ 64 * clientKey e k + w) →
          tabGet 0 t.crushers.ctx x = tabGet 0 s.crushers.ctx x) ∧
        Answered m 0 [s.ctx e k 60, s.ctx e k 61, s.ctx e k 62, s.ctx e k 63] 16
          { s with crushers := { s.crushers with ctx := t.crushers.ctx } } t)) ∧
    (Served mb 0x0502 s → ∃ t, exec (.qDesc mb) s = .next t ∧
      ((s.desc a).used = false → Answered m 0 [0, 0, 0] 12 s t) ∧
      Answered m 0 (descWords a s).1 12 { s with freeCtr := t.freeCtr } t) ∧
    (let q := bitsOf 0 11 a
     let v := s.queue q
     Served mb 0x0503 s → ∃ t, exec (.qCounters mb) s = .next t ∧
       t.queue q = (if bitAt 31 a then { v with pktsIn := 0, bytesIn := 0, pktsOut := 0, bytesOut := 0 } else v) ∧
       OtherQueues q s t ∧
       Answered m 0 [word v.pktsIn, word (v.pktsIn >>> 32), word v.bytesIn, word (v.bytesIn >>> 32), word v.pktsOut,
         word (v.pktsOut >>> 32), word v.bytesOut, word (v.bytesOut >>> 32)] 32
         { s with sump := { s.sump with queues := t.sump.queues } } t) ∧
    (Served mb 0x0602 s → ∃ t, exec (.ramRead mb) s = .next t ∧
      Answered m 0 ((List.range 12).map fun i => memWord ramFill s.foreman.ram (a - 0x30000000 + 4 * i)) (cmdArg c 1) s t) ∧
    (let h := s.flog.entries.length
     let first := (s.flog.next + 2 ^ 16 - h) % 2 ^ 16
     let d := (bitsOf 0 16 a + 2 ^ 16 - first) % 2 ^ 16
     let es := (if d < h then s.flog.entries.drop d else if 2 ^ 15 ≤ d then s.flog.entries else []).take 7
     Served mb 0x0702 s → ∃ t, exec (.faultLog mb) s = .next t ∧
       Answered m 0 (es.flatMap fun e => [e.1, e.2]) (8 * es.length) s t)

/-- The commands that change something at once (14_foreman R336): SET applies all its entries or none (R339), RAM_WRITE (R343), ABORT ends
a class 2 command that has not committed (R341), CAVERN_REINIT clears FREEZE (01_architecture R506), CR_REINIT rewrites a held client's
context (07_crushers R162, R164), Q_FLUSH (08_sump R188), DOMAIN_RESUME (16_power R398). -/
def Obligations.ForemanWrites : Prop :=
  ∀ (mb : Mailbox) (s : State),
    let m := mailboxNo mb
    let c := s.cmdOf m
    let a := cmdArg c 0
    (let n := cmdLen c / 12
     let val := fun (i : Nat) => cmdArg c (3 * i + 1) + 2 ^ 32 * cmdArg c (3 * i + 2)
     let st := fun (i : Nat) => setStatus (cmdArg c (3 * i)) (val i) s
     (∀ i, Served mb 0x0102 s → (List.range n).find? (fun i => decide (st i ≠ 0)) = some i →
       ∃ t, exec (.set mb) s = .next t ∧ Answered m (st i) [word i] 4 s t) ∧
     (Served mb 0x0102 s → (∀ i, i < n → st i = 0) → ∃ t, exec (.set mb) s = .next t ∧
       Answered m 0 [] 0 ((List.range n).foldl (fun s i => paramSet (cmdArg c (3 * i)) (val i) s) s) t) ∧
     (Served mb 0x0102 s → n = 1 → a = 0x1001 → 1 ≤ val 0 → val 0 ≤ 100 → ∃ t, exec (.set mb) s = .next t ∧
       Answered m 0 [] 0 { s with foreman := { s.foreman with loadWindow := val 0 } } t)) ∧
    (let bs := ((c.drop 3).flatMap fun w => bytesOf w.toNat 4).take (cmdLen c - 4)
     Served mb 0x0601 s → ∃ t, exec (.ramWrite mb) s = .next t ∧ Answered m 0 [] 0
       { s with foreman := { s.foreman with ram := memWrite ramFill s.foreman.ram (a - 0x30000000) bs } } t) ∧
    (let k := if bitAt 4 a then 16 + bitsOf 0 3 a else bitsOf 0 4 a
     let mine := m < 16 ∨ k = m
     let ends := s.foreman.order.contains k = true ∧ serviceClass k (s.cmdOf k) = 2
     (Served mb 0x0003 s → ¬ mine → ∃ t, exec (.abort mb) s = .next t ∧ Answered m stDenied [] 0 s t) ∧
     (Served mb 0x0003 s → mine → ¬ ends → ∃ t, exec (.abort mb) s = .next t ∧ Answered m stNotAbortable [] 0 s t) ∧
     (Served mb 0x0003 s → mine → ends → (s.mboxAt k).work = .none → ∃ u t, exec (.abort mb) s = .next t ∧
       Answered k stAborted (if cmdOp (s.cmdOf k) = 0x0603 then [0] else []) (if cmdOp (s.cmdOf k) = 0x0603 then 4 else 0) s u ∧
       Answered m 0 [] 0 u t) ∧
     (Served mb 0x0003 s → mine → ends → (s.mboxAt k).work = .bist → k ≠ m → ∃ t, exec (.abort mb) s = .next t ∧
       t.test = { (stopTests (fun _ => true) s).test with todo := [], mailbox := none } ∧ t.foreman.order.contains k = false ∧
       (t.mboxAt k).rsp = mkResponse (s.cmdOf k) stAborted [] 0 ∧ (t.mboxAt m).rsp = mkResponse c 0 [] 0)) ∧
    ((Served mb 0x0301 s → (s.cav a).freeze = false → ∃ t, exec (.cavernReinit mb) s = .next t ∧ Answered m stState [] 0 s t) ∧
     (Served mb 0x0301 s → (s.cav a).freeze = true → ∃ t, exec (.cavernReinit mb) s = .next t ∧
       Posted m (mkResponse c 0 [] 0) s t ∧ (t.cav a).freeze = false ∧ (∀ d, d ≠ a → t.cav d = s.cav d) ∧
       (a < 32 → t.bit .isoEvt0 0 a = true) ∧ (32 ≤ a → t.bit .isoEvt1 0 (a - 32) = true) ∧ t.cfg = s.cfg ∧
       (let v := s.cav a
        ((v.load || v.bist || v.partialLoad || v.power) = true → t.fabric = s.fabric ∧ t.pockets = s.pockets) ∧
        ((v.load || v.bist || v.partialLoad || v.power) = false → t.isolated a = false ∧
          (∀ r, r / 1024 / 112 = a → tabGet 0 t.pockets.rows r = 0) ∧
          (∀ r, r / 1024 / 112 ≠ a → tabGet 0 t.pockets.rows r = tabGet 0 s.pockets.rows r))))) ∧
    (let e := bitsOf 8 4 a
     let k := bitsOf 0 7 a
     (Served mb 0x0402 s → s.clientHeld e k = false → ∃ t, exec (.crReinit mb) s = .next t ∧ Answered m stState [] 0 s t) ∧
     (Served mb 0x0402 s → s.clientHeld e k = true → ∃ t, exec (.crReinit mb) s = .next t ∧
       (∀ w, w < 60 → t.ctx e k w = ctxImage s.cfg e k w) ∧ (∀ w, 60 ≤ w → w < 64 → t.ctx e k w = 0) ∧
       (∀ x, x / 64 ≠ clientKey e k → tabGet 0 t.crushers.ctx x = tabGet 0 s.crushers.ctx x) ∧
       t.crushers.pkts = tabErase s.crushers.pkts (clientKey e k) ∧ Answered m 0 [] 0 { s with crushers := t.crushers } t)) ∧
    (Served mb 0x0501 s → ∃ t, exec (.qFlush mb) s = .next t ∧ Answered m 0 [] 0 (flushQueue a s) t) ∧
    (let d := bitsOf 0 8 a
     let u := domResume d s
     let goes := fun (h : Nat) => d < 40 ∧ h < 64 ∧ (s.master h).st = 4 ∧ s.masterIn h d = true ∧
       ∀ x ∈ (s.master h).places, ∀ y, targetCav x = some y → (s.cav y).power = false
     (Served mb 0x0203 s → s.domOff d = true ∨ (s.domCmd d).isSome = true →
       ∃ t, exec (.domainResume mb) s = .next t ∧ Answered m stState [] 0 s t) ∧
     (Served mb 0x0203 s → s.domOff d = false → s.domCmd d = none → ∃ t chans, exec (.domainResume mb) s = .next t ∧
       Answered m 0 [word chans, word (s.crushers.held.filter fun h => decide (h.2 = d)).length] 8 u t ∧
       t.crushers.held = s.crushers.held.filter (fun h => decide (h.2 ≠ d)) ∧
       (∀ h, goes h → (t.master h).st = if (s.master h).desc = [] then 1 else 2) ∧
       (∀ h, (s.master h).st ≠ 4 → t.master h = s.master h)))

/-- The commands that begin longer work (14_foreman R336, R340). DOMAIN_DOWN and DOMAIN_UP (16_power R398, R399), of which the response
waits for the domain's report; SET_MODE (16_power R379); CAVERN_REVERT and SEALED_LOAD (15_configuration R373, R374), which wait for a
load in progress (R375); STORE_WRITE and STORE_COMMIT (R353, R354); HAUL_COPY (R343); BIST_RUN (18_self_test_faults R438, R439). What
fails its conditions is answered with their status, and nothing is done. -/
def Obligations.ForemanWork : Prop :=
  ∀ (mb : Mailbox) (s : State),
    let m := mailboxNo mb
    let c := s.cmdOf m
    let a := cmdArg c 0
    let begun := fun (w : Work) (t : State) => (t.mboxAt m).work = w ∧ (∀ k, k ≠ m → t.mboxAt k = s.mboxAt k) ∧
      t.foreman.order = s.foreman.order
    (let d := bitsOf 0 8 a
     ∀ (i : Instr) (forced : Bool), (i, forced) ∈ [(Instr.domainDown mb, false), (.domainDownForced mb, true)] →
       Served mb 0x0201 s → forcedForm c = forced →
       (s.domRefused d = true → ∃ t, exec i s = .next t ∧ Answered m stState [] 0 s t) ∧
       (s.domRefused d = false → s.domOff d = true → ∃ t, exec i s = .next t ∧ Answered m 0 [] 0 s t) ∧
       (s.domRefused d = false → s.domOff d = false → forced = false → s.domBusy d = true →
         ∃ t, exec i s = .next t ∧ Answered m stBusy [] 0 s t) ∧
       (s.domRefused d = false → s.domOff d = false → forced = true ∨ s.domBusy d = false → ∃ t, exec i s = .next t ∧
         (∃ w, t.domCmd d = some w ∧ w.up = false ∧ w.mailbox = some m) ∧
         (d < 40 → forced = false → (t.cav d).power = true) ∧ (0x40 ≤ d → d < 0x80 → tabGet false t.power.lbOff (d - 0x40) = true) ∧
         (0x80 ≤ d → tabGet false t.power.ioOff (d - 0x80) = true) ∧
         (forced = false ∨ s.masterIn 64 d = false → s.conf.part = none → begun (.domain d) t ∧
           (t.mboxAt m).staged = some (mkResponse c 0 [] 0)) ∧ StoredKept s t)) ∧
    (let d := bitsOf 0 8 a
     (Served mb 0x0202 s → s.domRefused d = true → ∃ t, exec (.domainUp mb) s = .next t ∧ Answered m stState [] 0 s t) ∧
     (Served mb 0x0202 s → s.domRefused d = false → s.domOff d = false →
       ∃ t, exec (.domainUp mb) s = .next t ∧ Answered m 0 [] 0 s t) ∧
     (Served mb 0x0202 s → s.domRefused d = false → s.domOff d = true → ∃ t, exec (.domainUp mb) s = .next t ∧
       t.domCmd d = some { up := true, waiting := false, mailbox := some m } ∧ begun (.domain d) t ∧
       (t.mboxAt m).staged = some (mkResponse c 0 [] 0) ∧
       { t with foreman := s.foreman, power := { t.power with dom := s.power.dom } } = s)) ∧
    (∀ (i : Instr) (forced : Bool), (i, forced) ∈ [(Instr.setMode mb, false), (.setModeForced mb, true)] →
       Served mb 0x0204 s → forcedForm c = forced →
       let deep := fun (g : Mode) => g = .patrol ∨ g = .deepSleep
       let status := match modeOf (bitsOf 0 4 a) with
         | none => stBadParam
         | some g =>
           if forced = true ∧ ¬ deep g then stBadParam
           else if g = .run ∧ s.power.mode ≠ .maintenance then stState
           else if g ≠ .run ∧ s.power.mode ≠ .run ∧ s.power.mode ≠ .quiet then stState
           else if s.loadBusy = true ∨ s.power.dom ≠ [] then stState
           else if (deep g ∨ g = .standby) ∧ pmbEn s.cfg = false then stState
           else if deep g ∧ forced = false ∧ s.deviceActive = true then stBusy
           else 0
       (status ≠ 0 → ∃ t, exec i s = .next t ∧ Answered m status [] 0 s t) ∧
       (∀ g, status = 0 → modeOf (bitsOf 0 4 a) = some g → ∃ t, exec i s = .next t ∧
         (t.mboxAt m).rsp = mkResponse c 0 [] 0 ∧ StoredKept s t ∧
         (g = .run ∨ g = .maintenance → t.power.mode = g ∧ Posted m (mkResponse c 0 [] 0) s t ∧
           (g = .maintenance → t.jtag.mask = 0xFFF)) ∧
         (g = .standby ∨ deep g → t.power.seq = .entering g false false ∧ t.power.retention = true ∧ t.power.mode = s.power.mode ∧
           t.sysRuns = false) ∧
         (g = .standby → Posted m (mkResponse c 0 [] 0) s t) ∧ (deep g → t.foreman.order = []))) ∧
    (let u := (setRegion (2 ^ a) (endLoadOf a 0x13 s)).setReg .cfgFrames 0 0
     let ends := fun (err addr : Nat) => ∃ t, exec (.cavernRevert mb) s = .next t ∧ t.reg .cfgErraddr 0 = word addr ∧
       Posted m (mkResponse c (if err = 0 then 0 else 0x1000 + err) [] 0) u t ∧
       t.field .cfgPart 0 0 4 = (if err = 0 then 4 else 5) ∧ t.field .cfgPart 0 24 8 = err ∧
       (err = 0 → t.bit .cfgEvt 0 5 = true ∧ (t.cav a).freeze = false ∧ (t.cav a).partialLoad = false) ∧
       (err ≠ 0 → t.bit .cfgEvt 0 6 = true)
     (Served mb 0x0302 s → s.conf.load.isSome = true → exec (.cavernRevert mb) s = .next s) ∧
     (Served mb 0x0302 s → s.conf.load = none → s.conf.liveSlot = none →
       ∃ t, exec (.cavernRevert mb) s = .next t ∧ Answered m 0x1017 [] 0 s t) ∧
     (∀ b, Served mb 0x0302 s → s.conf.load = none → s.conf.liveSlot = some b →
       let frames := imageFrames s.conf.store (slotBase b) a (slotSize / 8) 64
       let crc := frames.foldl (fun c f => crcWords (c ^^^ 0xFFFFFFFF) f.2.1 ^^^ 0xFFFFFFFF) 0
       let r := rewriteFrames a frames (setCause a .partialLoad u)
       (word crc ≠ (u.cav a).crc → ends 0x10 0) ∧
       (∀ e x, word crc = (u.cav a).crc → r.1 = some (e, x) → 0 < e → e < 256 → ends e x) ∧
       (∀ x, word crc = (u.cav a).crc → r.1 = none → carryBroken r.2.cfg a = some x → ends errBadField x) ∧
       (word crc = (u.cav a).crc → r.1 = none → carryBroken r.2.cfg a = none → ends 0 0))) ∧
    (let off := cmdArg c 1
     let len := cmdArg c 2
     let fails := fun (err : Nat) => ∃ t, exec (.sealedLoad mb) s = .next t ∧ t.conf.load = none ∧
       Posted m (mkResponse c (0x1000 + err) [] 0) s t ∧ t.bit .cfgEvt 0 6 = true ∧ t.reg .cfgFrames 0 = 0
     (Served mb 0x0303 s → s.conf.load.isSome = true → exec (.sealedLoad mb) s = .next s) ∧
     (Served mb 0x0303 s → s.conf.load = none → librarySize < off + len ∨ off % 8 ≠ 0 → fails 0x09) ∧
     (Served mb 0x0303 s → s.conf.load = none → off + len ≤ librarySize → off % 8 = 0 → (s.cav a).power = true → fails errDomainOff) ∧
     (Served mb 0x0303 s → s.conf.load = none → off + len ≤ librarySize → off % 8 = 0 → (s.cav a).power = false →
       ∃ t, exec (.sealedLoad mb) s = .next t ∧ begun .sealedLoad t ∧ (t.cav a).partialLoad = true ∧
         t.conf = { s.conf with load := some { (newLoad .sealedImage (.library off len)) with
           sealedCav := a, region := 2 ^ a, mailbox := some m } } ∧ t.cfg = s.cfg)) ∧
    (let off := cmdArg c 0
     let len := cmdArg c 2
     let e := storeRange s.conf.liveSlot off len
     Served mb 0x0304 s → ∃ t, exec (.storeWrite mb) s = .next t ∧
       (e ≠ 0 → Answered m (0x1000 + e) [] 0 s t) ∧ (e = 0 → s.storeInUse off = true → Answered m stState [] 0 s t) ∧
       (let bs := memRead ramFill s.foreman.ram (cmdArg c 1 - 0x30000000) len
        e = 0 → s.storeInUse off = false → begun .storeJob t ∧ { t with foreman := s.foreman } =
          { s with conf := { s.conf with job := some { mailbox := m, off := off, bytes := bs, commit := none } } })) ∧
    (let b := bitAt 0 a
     (∀ e, Served mb 0x0305 s → slotError b s = some e →
       ∃ t, exec (.storeCommit mb) s = .next t ∧ Answered m (0x1000 + e) [] 0 s t) ∧
     (Served mb 0x0305 s → slotError b s = none → ∃ t n, exec (.storeCommit mb) s = .next t ∧ begun .storeJob t ∧
       (∀ r, commitCopy s.conf.store 1 = some r → n = (r.seq + 1) % 2 ^ 32) ∧
       (∀ r, commitCopy s.conf.store 1 = none → commitCopy s.conf.store 0 = some r → n = (r.seq + 1) % 2 ^ 32) ∧
       (let bs := commitBytes n b (bitAt 8 a) (memWord storeFill s.conf.store (slotBase b + 12)).toNat
        t.conf = { s.conf with job := some { mailbox := m, off := 0x0F800000, bytes := bs, commit := some n } }) ∧
       { t with foreman := s.foreman, conf := s.conf, freeCtr := s.freeCtr } = s)) ∧
    (let v : Hauler := { st := 2, desc := copyDesc s.cfg a (cmdArg c 1) (cmdArg c 2), left := cmdArg c 2 }
     Served mb 0x0603 s → ∃ t, exec (.haulCopy mb) s = .next t ∧
       (descError s.cfg 64 v ≠ 0 → Answered m stBadParam [0] 4 s t) ∧
       (descError s.cfg 64 v = 0 → begun .copy t ∧ { t.master 64 with waiting := [], ahead := false } = v ∧
         (∀ k, k ≠ 64 → t.master k = s.master k) ∧ { t with foreman := s.foreman, haul := s.haul } = s)) ∧
    (∀ (i : Instr) (forced : Bool), (i, forced) ∈ [(Instr.bistRun mb, false), (.bistRunForcedLane mb, true)] →
       Served mb 0x0701 s → forcedForm c = forced →
       let type := bitsOf 0 4 a
       let target := bitsOf 0 8 (cmdArg c 1)
       let e := bistStatus type target forced s
       (s.test.type ≠ 0 → exec i s = .next s) ∧
       (s.test.type = 0 → e ≠ 0 → ∃ t, exec i s = .next t ∧ Answered m e [] 0 s t) ∧
       (s.test.type = 0 → e = 0 → ∃ t, exec i s = .next t ∧ begun .bist t ∧ t.test.type = type ∧ t.test.target = target ∧
         t.test.mailbox = some m ∧ t.test.running.length + t.test.todo.length = (testTargets type target).length ∧
         (type ≤ 3 → target ≠ 0xFF → 0 < s.field .stCtrl 0 0 4 → (t.cav target).bist = true) ∧ StoredKept s t))

/-! ### Loads -/

/-- What begins a full load from outside (15_configuration R364): power-on reset, which samples the straps, PROG_N, of which pulses from
100 ns to 1 us may be taken or not (a free choice), and a write of the key to `CFG_CTRL`. A loss of the always-on supply is a power-on reset
(16_power R405): the whole block as reset leaves it, but for the image store and the one-time-programmable memory, of which only what
was being programmed may change. A write of `CFG_STREAM` delivers a word to a load that reads from the host (R349, R377). -/
def Obligations.LoadStarts : Prop :=
  ∀ s : State,
    (∀ boot hadr, let r := { s with conf := { s.conf with boot := boot, hadr := hadr } }
      (s.power.held = true → s.mayRelease = true →
        ∃ t, exec (.powerOnReset boot hadr) s = .next t ∧ FullLoadBegun false true true r t) ∧
      (s.power.held = false ∨ s.mayRelease = false → exec (.powerOnReset boot hadr) s = .next s)) ∧
    (∀ ns, let r := { s with freeCtr := s.freeCtr + 1 }
      (ns < 100 → exec (.progNPulse ns) s = .next s) ∧
      (1000 ≤ ns → ∃ t, exec (.progNPulse ns) s = .next t ∧ ProgTaken s t) ∧
      (100 ≤ ns → ns < 1000 → ∃ t, exec (.progNPulse ns) s = .next t ∧ (t = r ∨ ProgTaken r t))) ∧
    (∀ p key,
      WriteTurnedAway p .cfgCtrl 0 (word (place 16 16 key.toNat + 1)) s (exec (.cfgReprog p key) s) ∧
      (s.sysRuns = true → key = 0xA5C3 → s.holdCauses = false → s.power.held = false →
        ∃ t, exec (.cfgReprog p key) s = .next t ∧ FullLoadBegun false false false s t) ∧
      (s.sysRuns = true → key ≠ 0xA5C3 ∨ s.holdCauses = true ∨ s.power.held = true → exec (.cfgReprog p key) s = .next s)) ∧
    (∀ p w, WriteTurnedAway p .cfgStream 0 w s (exec (.cfgStreamWrite p w) s) ∧
      (∀ l, s.sysRuns = true → s.conf.load = some l → l.source = .spi → s.field .cfgStatus 0 24 4 = 1 ∨ s.field .cfgStatus 0 24 4 = 2 →
        exec (.cfgStreamWrite p w) s = .next { s with conf := { s.conf with load := some { l with buf := l.buf ++ [w] } } }) ∧
      (s.sysRuns = true → s.conf.load = none ∨ (∃ l, s.conf.load = some l ∧ l.source ≠ .spi) ∨
          (s.field .cfgStatus 0 24 4 ≠ 1 ∧ s.field .cfgStatus 0 24 4 ≠ 2) →
        exec (.cfgStreamWrite p w) s = .next s)) ∧
    (∃ store otp n, exec .vaonLoss s = .next { State.reset with conf := { Conf.reset with store := store, otp := otp }, freeCtr := n,
                                                                 pending := s.pending } ∧
      (s.conf.job = none → store = s.conf.store) ∧
      (∀ j a, s.conf.job = some j → (j.off ≤ a → j.off + j.bytes.length ≤ a) →
        (j.commit ≠ none → j.off + copyStride ≤ a → j.off + copyStride + j.bytes.length ≤ a) →
        tabGet storeFill store a = tabGet storeFill s.conf.store a) ∧
      (s.conf.otpBusy = none → otp = s.conf.otp) ∧
      (∀ i w, s.conf.otpBusy = some (i, w) → (∀ k, k ≠ i → tabGet 0 otp k = tabGet 0 s.conf.otp k) ∧
        ∃ part, tabGet 0 otp i = tabGet 0 s.conf.otp i ||| (w &&& part)))

/-- The steps of a load of any kind (15_configuration R357 to R362, R365, R370, R373): the header, a record, a frame, the trailer with the
checks at the end, after which START begins or a start-up self-test, and RUN. Each takes the next words of the image and checks them; the first check that fails ends the load with its
code. Without the words, or where the load stands elsewhere, nothing changes but that POWER-UP passes to LOAD at the header. -/
def Obligations.Loads : Prop :=
  ∀ (s : State),
    (s.sysRuns = false → ∀ i ∈ [Instr.loadHeader, .loadRecord, .loadFrame, .loadTrailer, .loadRun], exec i s = .next s) ∧
    (s.sysRuns = true →
    let at? := fun (p : Load → Prop) => ∃ l, s.conf.load = some l ∧ p l
    (¬ at? (fun l => l.phase = .header) → exec .loadHeader s = .next s) ∧
    (¬ at? (fun l => l.phase = .record) → exec .loadRecord s = .next s) ∧
    (¬ at? (fun l => ∃ a n d, l.phase = .frames a n d) → exec .loadFrame s = .next s) ∧
    (¬ at? (fun l => l.phase = .trailer) → exec .loadTrailer s = .next s) ∧
    (s.power.mode ≠ .start ∨ ¬ at? (fun l => l.phase = .checked) → exec .loadRun s = .next s) ∧
    ∀ l, s.conf.load = some l →
    (l.phase = .header → (s.power.mode = .powerUp → s.holdCauses = false) →
      let u := if l.kind = .full ∧ s.power.mode = .powerUp then setCfgState 1 (enterMode .load s) else s
      (∀ e, l.source = .nowhere e → l.kind = .full → ∃ t, exec .loadHeader s = .next t ∧ LoadFailed l e (some 0) u t) ∧
      ((∀ e, l.source ≠ .nowhere e) →
        (loadTake s.conf.store 64 l = none → exec .loadHeader s = .next u) ∧
        (∀ ws l' e, loadTake s.conf.store 64 l = some (ws, l') → headerError s.conf.otp l' ws = some e →
          ∃ t, exec .loadHeader s = .next t ∧
            LoadFailed l' e none (if l.kind ≠ .full ∧ headerBad l'.source ws = false then setRegion (headerRegion ws) u else u) t) ∧
        (∀ ws l', loadTake s.conf.store 64 l = some (ws, l') → headerError s.conf.otp l' ws = none →
          ∃ t, exec .loadHeader s = .next t ∧
            t.conf.load = some { l' with phase := .record, hdr := ws, region := headerRegion ws } ∧
            (l.kind = .full → t.field .cfgStatus 0 24 4 = 2) ∧
            (l.kind ≠ .full → t.reg .cfgPart 0 = word (1 + if l.kind = .sealedImage then 16 else 0) ∧
              t.reg .cfgPartReg0 0 = word (headerRegion ws) ∧ t.reg .cfgPartReg1 0 = word (bitsOf 32 8 (headerRegion ws))) ∧
            (l.kind = .partialImage → portalEn s.cfg icpIn = true →
              (t.portal icpIn).stage = (s.portal icpIn).stage ++ [(0x100, 3)]) ∧ StoredKept s t ∧ t.cavs = s.cavs))) ∧
    (l.phase = .record →
      (loadTake s.conf.store 2 l = none → exec .loadRecord s = .next s) ∧
      ∀ w0 w1 l', loadTake s.conf.store 2 l = some ([w0, w1], l') →
        let count := bitsOf 0 9 w0.toNat
        let minor := bitsOf 8 8 w1.toNat
        let desc := bitAt 23 w0.toNat
        let body := l'.lenWords - l'.trailerWords
        let frames := bitsOf 24 8 w0.toNat = 1 ∧ bitsOf 9 14 w0.toNat = 0 ∧ 1 ≤ count ∧ count ≤ 256 ∧
          l'.pos + 128 * count + 2 ≤ body ∧ l'.frames + count ≤ l'.h 7 ∧
          (if desc = true then count ≤ minor + 1 else minor + count ≤ 256)
        let last := bitsOf 24 8 w0.toNat = 0x0F ∧ bitsOf 9 14 w0.toNat = 0 ∧ count = 0 ∧ w1 = 0 ∧ l'.pos = body ∧ l'.frames = l'.h 7
        (frames → exec .loadRecord s =
          .next { s with conf := { s.conf with load := some { l' with phase := .frames w1.toNat count desc } } }) ∧
        (last → exec .loadRecord s = .next { s with conf := { s.conf with load := some { l' with phase := .trailer } } }) ∧
        (¬ frames → ¬ last → ∃ t, exec .loadRecord s = .next t ∧ LoadFailed l' 0x09 none s t)) ∧
    (∀ a left desc, l.phase = .frames a left desc →
      (loadTake s.conf.store 128 l = none → exec .loadFrame s = .next s) ∧
      ∀ ws l', loadTake s.conf.store 128 l = some (ws, l') →
        (∀ e, frameError l a ws s = some e → ∃ t, exec .loadFrame s = .next t ∧ LoadFailed l' e (some a) s t) ∧
        (frameError l a ws s = none →
          let cav := bitsOf 26 6 a
          let col := bitsOf 16 10 a
          let minor := bitsOf 8 8 a
          let content := cav < 40 ∧ 64 ≤ col ∧ minor < 0x12
          ∃ t crcs, exec .loadFrame s = .next t ∧
            t.conf.load = some { l' with phase := if left = 1 then .record else .frames (if desc = true then a - 256 else a + 256) (left - 1) desc,
                                         frames := l'.frames + 1, cavCrc := crcs,
                                         wrote := if cav < 40 then l'.wrote ||| 2 ^ cav else l'.wrote } ∧
            (∀ c, c ≠ cav ∨ 40 ≤ cav → tabGet 0 crcs c = tabGet 0 l'.cavCrc c) ∧
            (cav < 40 → tabGet 0 crcs cav =
              word (crcWords ((tabGet 0 l'.cavCrc cav).toNat ^^^ 0xFFFFFFFF) ws ^^^ 0xFFFFFFFF)) ∧
            t.reg .cfgFrames 0 = s.reg .cfgFrames 0 + 1 ∧
            (¬ content → t.cfg = putFrame s.cfg cav col minor ws) ∧
            (content → t.cfg = s.cfg ∧ t.pockets.rows = (pocketContent (cav * 112 + (col - 64)) minor ws s).pockets.rows) ∧
            (cav < 40 → 64 ≤ col → minor = 0x12 → ∀ r, r / 1024 = cav * 112 + (col - 64) → tabGet 0 t.pockets.rows r = 0) ∧
            (cav < 40 → (t.cav cav).used = true) ∧ (l.kind = .partialImage → (t.cav cav).partialLoad = true) ∧
            (l.auth = true → t.conf.authFrames = true) ∧ t.conf.store = s.conf.store ∧ t.conf.otp = s.conf.otp ∧
            ∀ c, c ≠ cav → t.cav c = s.cav c)) ∧
    (l.phase = .trailer →
      (loadTake s.conf.store l.trailerWords l = none → exec .loadTrailer s = .next s) ∧
      ∀ ws l', loadTake s.conf.store l.trailerWords l = some (ws, l') →
        let broken := ((List.range 40).filter fun c => bitAt c l.wrote).findSome? (carryBroken s.cfg)
        (∀ e, trailerError l l.words.reverse ws = some e → ∃ t, exec .loadTrailer s = .next t ∧ LoadFailed l' e none s t) ∧
        (trailerError l l.words.reverse ws = none →
          (∀ e a, l.kind = .full → endChecks s.cfg l.wrote (!l.auth) = some (e, a) →
            ∃ t, exec .loadTrailer s = .next t ∧ LoadFailed l' e (some a) s t) ∧
          (l.kind = .full → endChecks s.cfg l.wrote (!l.auth) = none → ∃ t, exec .loadTrailer s = .next t ∧
            t.conf.load = some { l' with phase := .checked } ∧ { t.conf with load := s.conf.load, started := s.conf.started } = s.conf ∧
            t.cfg = s.cfg ∧
            (bitAt 16 (l.h 1) = true → t.field .cfgStatus 0 24 4 = 5 ∧ t.test.startup = true ∧ t.test.type = 5 ∧
              t.power.mode = .selfTest ∧ t.conf.started = s.conf.started) ∧
            (bitAt 16 (l.h 1) = false → t.field .cfgStatus 0 24 4 = 6 ∧ t.power.mode = .start ∧ t.conf.started = true ∧
              (∀ c, c < 40 → (s.cav c).used = false → (t.cav c).power = true ∧ (t.cav c).powered = false ∧ (t.cav c).emptied = true) ∧
              t.field .pwrSys 0 8 2 = pwrs s.cfg 34 2 ∧ t.field .pwrVccf 0 0 10 = pwrs s.cfg 16 10 ∧
              t.field .pwrVccf 0 16 10 = pwrs s.cfg 0 10 ∧ t.reg .sumpLowmark 0 = word (cfgBits s.cfg 43 32 0 0 16) ∧
              (s.conf.wakeBegun = false → t.reg .aonWakeEn 0 = 0 ∧ t.reg .aonWakeHpd 0 = 0 ∧ t.reg .aonAlarm 0 = 0 ∧
                t.reg .aonPadpol 0 = word (cfgWord s.cfg 46 1 0 25) ∧ t.reg .patrolCtrl 0 = word (cfgWord s.cfg 46 1 0 24) ∧
                ∀ n, n < 24 → t.reg .patrolCfg n = word (cfgWord s.cfg 46 1 0 n)) ∧
              (s.conf.wakeBegun = true → t.patrol = s.patrol) ∧
              (∀ e k w, w < 60 → e < 16 → k < 128 → t.ctx e k w = ctxImage s.cfg e k w))) ∧
          (∀ a, l.kind ≠ .full → broken = some a → ∃ t, exec .loadTrailer s = .next t ∧
            LoadFailed l' errBadField (some a) { s with conf := { s.conf with load := some l' } } t) ∧
          (l.kind = .partialImage → broken = none → ∃ t, exec .loadTrailer s = .next t ∧ t.cfg = s.cfg ∧ t.bit .cfgEvt 0 2 = true ∧
            (l.autocommit = false → t.conf.load = none ∧ t.conf.part = some { l' with phase := .verified } ∧ t.reg .cfgPart 0 = 3 ∧
              t.cavs = s.cavs ∧ (portalEn s.cfg icpIn = true →
                (t.portal icpIn).stage = (s.portal icpIn).stage ++ [(0x200 + l'.frames % 2 ^ 32 * 2 ^ 32, 3)])) ∧
            (l.autocommit = true → PartCommitted l' s t)) ∧
          (l.kind = .sealedImage → broken = none → ∃ t, exec .loadTrailer s = .next t ∧ t.conf.load = none ∧
            t.reg .cfgPart 0 = 20 ∧ t.bit .cfgEvt 0 5 = true ∧ t.cfg = s.cfg ∧
            (∀ c, c < 40 → bitAt c l.region = true → (s.cav c).partialLoad = true →
              (t.cav c).partialLoad = false ∧ (t.cav c).freeze = false) ∧
            ∀ m, l.mailbox = some m → (t.mboxAt m).rsp = mkResponse (s.cmdOf m) 0 [] 0))) ∧
    (l.phase = .checked → s.power.mode = .start → ∃ t, exec .loadRun s = .next t ∧ t.conf.load = none ∧ t.power.mode = .run ∧
      t.cfg = s.cfg ∧ t.field .cfgStatus 0 24 4 = 7 ∧ t.bit .cfgStatus 0 1 = true ∧ t.reg .cfgDesign 0 = word (l.h 6) ∧
      t.bit .cfgEvt 0 0 = true ∧ (∀ c, c < 40 → (t.cav c).load = false) ∧
      t.conf.liveSlot = (match l.source with | .slot b => some b | _ => none) ∧ t.conf.ran = true ∧
      (∀ b, b < 24 → t.bit .lbStatus b 0 = refUsed s.cfg (b / 2)) ∧
      (s.conf.wakeBegun = true → s.power.wakes ≠ [] → t.bit .pwrEvt 0 1 = true)))

/-- The internal configuration port (15_configuration R368 to R370, R372, R375): a row takes the oldest token that has crossed if it is one of its
own. An image's tokens begin a partial load, of which the region is not known yet, and feed it; a library reference begins one from the store; COMMIT releases the caverns of a
verified image; ABORT ends it. A token that R368 forbids fails the load, or is refused where there is none; the rest of an image whose
load has failed is discarded up to `LAST`; a token that begins an image waits while a load does not read the port. -/
def Obligations.PortLoads : Prop :=
  ∀ (s : State) (i : Instr) (row : IcpRow), (i, row) ∈ [(Instr.icpImageToken, IcpRow.image), (.icpLibReference, .library),
      (.icpCommit, .commit), (.icpAbort, .abort)] →
    (s.icpToken = none → exec i s = .next s) ∧
    ∀ d t, s.icpToken = some (d, t) →
      let first := bitAt 0 t = true
      let last := bitAt 1 t = true ∧ bitAt 2 t = false
      let u := icpTake s
      let begun := fun (s : State) => setRegion 0 (s.setReg .cfgFrames 0 0)
      (icpRow t ≠ row → exec i s = .next s) ∧
      (icpRow t = row →
        (s.conf.load.isSome = true → s.conf.discard = true → exec i s = .next s) ∧
        (∀ l, s.conf.load = some l → s.conf.discard = false → l.kind ≠ .partialImage → exec i s = .next s) ∧
        (∀ l, s.conf.load = some l → s.conf.discard = false → l.kind = .partialImage →
          let ended := if bitAt 1 t && !(bitAt 2 t) then { l with lastSeen := true } else l
          let streaming := l.source = .icp ∧ l.lastSeen = false
          let next := { l with buf := l.buf ++ [word d, word (d >>> 32)], lastSeen := bitAt 1 t }
          let ws := next.words.reverse ++ next.buf
          let len := if 4 ≤ ws.length then (ws.getD 3 0).toNat / 8 else 0
          let misfit := (last ∧ ws.length / 2 ≠ len) ∨ (34 ≤ len ∧ len < ws.length / 2)
          (icpMalformed t = true → ∃ r, exec i s = .next r ∧ LoadFailed ended 0x12 none u r) ∧
          (icpMalformed t = false → row = .abort → ∃ r, exec i s = .next r ∧ LoadFailed l 0x13 none u r) ∧
          (icpMalformed t = false → row = .commit → ∃ r, exec i s = .next r ∧ LoadFailed l 0x12 none u r) ∧
          (icpMalformed t = false → row = .image ∨ row = .library → first → streaming →
            ∃ r, exec i s = .next r ∧ LoadFailed ended 0x12 none u r) ∧
          (icpMalformed t = false → row = .image ∨ row = .library → first → ¬ streaming → exec i s = .next s) ∧
          (icpMalformed t = false → row = .image → ¬ first → ¬ streaming →
            ∃ r, exec i s = .next r ∧ LoadFailed l 0x12 none u r) ∧
          (icpMalformed t = false → row = .image → ¬ first → streaming → misfit →
            ∃ r, exec i s = .next r ∧ LoadFailed next 0x09 none u r) ∧
          (icpMalformed t = false → row = .image → ¬ first → streaming → ¬ misfit →
            exec i s = .next { u with conf := { s.conf with load := some next } })) ∧
        (s.conf.load = none → s.conf.discard = true →
          (last → exec i s = .next { u with conf := { s.conf with discard := false } }) ∧ (¬ last → exec i s = .next u)) ∧
        (∀ l, s.conf.load = none → s.conf.discard = false → s.conf.part = some l → l.kind = .partialImage → l.phase = .verified →
          (icpMalformed t = false → row = .commit → ∃ r, exec i s = .next r ∧ PartCommitted l u r) ∧
          (icpMalformed t = false → row = .abort → ∃ r, exec i s = .next r ∧ LoadFailed l 0x13 none u r) ∧
          (icpMalformed t = true ∨ row = .image ∨ row = .library → ∃ r, exec i s = .next r ∧
            LoadFailed l 0x12 none u { r with conf := { r.conf with discard := false } } ∧
            r.conf.discard = (bitAt 0 t && !(bitAt 1 t)))) ∧
        (s.conf.load = none → s.conf.discard = false → s.conf.part = none →
          (icpMalformed t = true ∨ row = .commit ∨ row = .abort ∨ ¬ first → ∃ r, exec i s = .next r ∧
            r.conf = { s.conf with discard := bitAt 0 t && !(bitAt 1 t) } ∧
            (portalEn s.cfg icpIn = true → (r.portal icpIn).stage = (s.portal icpIn).stage ++ [(0x412, 3)]) ∧
            { r with conf := s.conf, portals := s.portals } = s) ∧
          (icpMalformed t = false → row = .library → first →
            let off := d % 2 ^ 32
            let len := d >>> 32
            let l := { (newLoad .partialImage (.library off len)) with autocommit := bitAt 5 t }
            (librarySize < off + len ∨ off % 8 ≠ 0 → ∃ r, exec i s = .next r ∧ LoadFailed l 0x09 none (begun u) r) ∧
            (off + len ≤ librarySize → off % 8 = 0 →
              exec i s = .next { begun u with conf := { s.conf with load := some l } })) ∧
          (icpMalformed t = false → row = .image → first → bitAt 1 t = false → exec i s = .next { begun u with
            conf := { s.conf with load := some { (newLoad .partialImage .icp) with buf := [word d, word (d >>> 32)] } } }) ∧
          (icpMalformed t = false → row = .image → first → bitAt 1 t = true → ∃ r, exec i s = .next r ∧
            LoadFailed { (newLoad .partialImage .icp) with lastSeen := true } 0x09 none (begun u) r)))

/-! ### Modes, wakes and supplies -/

/-- The modes of operation beside those that SET_MODE enters (16_power R381 to R392): QUIET's entry and exit, the steps of STANDBY, the wakes
and what its exit does (the sources that woke raise their events, what the detectors have seen reaches its flags, and the accesses that
waited are made), the sleep modes, of which the rails take the caverns' contents with them, the always-on tick counter, and the release
of pads held by HOLD_SW. -/
def Obligations.PowerModes : Prop :=
  ∀ s : State,
    let quietMv := s.field .pwrVccfQ 0 0 10
    let railsAre := fun (t : State) (off : Bool) => ∀ r, r < 5 → tabGet false t.power.railsOff r = off
    let onlyMode := fun (t : State) => RegsKept [RegKind.pwrEvt.addr 0] s t ∧ besideFlags { t with power := s.power } = besideFlags s
    (let may := s.power.mode = .run ∧ s.power.seq = .none ∧ s.bit .pwrCtrl 0 8 = true ∧ s.quietHolds = true
     (may → ∃ t, exec .quietEntry s = .next t ∧ EnteredMode .quiet s t ∧
        t.power.vccfCmd = (if quietMv ≠ 0 ∧ pmbEn s.cfg = true then quietMv else s.power.vccfCmd) ∧ onlyMode t) ∧
     (¬ may → exec .quietEntry s = .next s)) ∧
    (s.power.mode = .quiet → ∃ t, exec .quietExit s = .next t ∧ EnteredMode .run s t ∧
      t.power.vccfCmd = (if pmbEn s.cfg = true then s.field .pwrVccf 0 0 10 else s.power.vccfCmd) ∧ onlyMode t) ∧
    (s.power.mode ≠ .quiet → exec .quietExit s = .next s) ∧
    (∀ w f, s.power.seq = .entering .standby w f → ∃ t, exec .standbyRetentionReached s = .next t ∧ EnteredMode .standby s t ∧
      t.power.seq = (if w = true ∨ f = true ∨ s.power.progPending = true then .leavingStandby else .none) ∧ onlyMode t) ∧
    ((∀ w f, s.power.seq ≠ .entering .standby w f) → exec .standbyRetentionReached s = .next s) ∧
    (∀ src,
      let may := fun (m : Mode) => s.sleepMode = some m ∧ s.power.held = false ∧ s.bit .aonWakeEn 0 (wakeBit src) = true ∧
        s.wakes? m src = true
      let wakes := if s.power.wakes.contains src then s.power.wakes else s.power.wakes ++ [src]
      ((∀ m, ¬ may m) → exec (.wakeLatch src) s = .next s) ∧
      (∀ m, may m → ∃ t, exec (.wakeLatch src) s = .next t ∧ RegsKept [RegKind.aonWake.addr 0] s t ∧
        { t with power := s.power, regs := s.regs, fresh := s.fresh } = s ∧
        (∀ n w f, s.power.seq = .entering n w f → t.power = { s.power with wakes := wakes, seq := .entering n true f } ∧
          t.reg .aonWake 0 = s.reg .aonWake 0 ||| bitWord (wakeBit src) ||| bitWord 7) ∧
        ((∀ n w f, s.power.seq ≠ .entering n w f) → t.reg .aonWake 0 = s.reg .aonWake 0 ||| bitWord (wakeBit src) ∧
          t.power = { s.power with
            wakes := wakes, railsOff := t.power.railsOff
            seq := if s.power.seq ≠ .none then s.power.seq else if m = .standby then .leavingStandby else .wakingRails } ∧
          (s.power.seq ≠ .none ∨ m = .standby → t.power.railsOff = s.power.railsOff) ∧
          (s.power.seq = .none → m ≠ .standby → railsAre t false)))) ∧
    (s.reg .aonTicks 0 = s.reg .aonAlarm 0 → ∃ t, exec .alarmMatch s = .next t ∧ exec (.wakeLatch .alarm) s = .next t) ∧
    (s.reg .aonTicks 0 ≠ s.reg .aonAlarm 0 → exec .alarmMatch s = .next s) ∧
    (s.reg .aonTicks 0 = 0xFFFFFFFF → ∃ u t, exec .aonTicksWrap s = .next t ∧ u.reg .aonTicks 0 = 0 ∧ u.bit .pwrEvt 0 7 = true ∧
      RegsKept [RegKind.aonTicks.addr 0, RegKind.pwrEvt.addr 0] s u ∧
      besideFlags u = besideFlags { s with clocks := { s.clocks with aon := s.clocks.aon + 1 } } ∧
      (s.reg .aonAlarm 0 ≠ 0 → t = u) ∧ (s.reg .aonAlarm 0 = 0 → exec (.wakeLatch .alarm) u = .next t)) ∧
    (s.reg .aonTicks 0 ≠ 0xFFFFFFFF → exec .aonTicksWrap s = .next s) ∧
    (s.power.seq = .leavingStandby → ∃ u, exec .standbyExitVccfReady s = .next (resumeAccesses u) ∧
      (s.power.waiting = [] → exec .standbyExitVccfReady s = .next u) ∧ u.power.waiting = s.power.waiting ∧
      (s.power.progPending = true → s.holdCauses = false → FullLoadBegun false false true s u) ∧
      (s.power.progPending = false → s.holdCauses = false → EnteredMode .run s u ∧ u.power.seq = .none ∧ u.power.retention = false ∧
        u.power.wakes = [] ∧ u.power.edges = [] ∧
        u.power.vccfCmd = (if pmbEn s.cfg = true then s.field .pwrVccf 0 0 10 else s.power.vccfCmd) ∧
        (s.power.wakes ≠ [] → u.bit .pwrEvt 0 1 = true) ∧
        (∀ w n, w ∈ s.power.wakes → s.edgeOf w = false → wakeEvent w = some n → u.bit .evtPend (n / 32) (n % 32) = true) ∧
        (∀ n rise, n < 96 → SleepEdge.signal n rise ∈ s.power.edges → lnCfg s.cfg n 11 1 = 1 →
          u.bit .lnPmaEvt n (if rise then 0 else 1) = true) ∧
        (∀ b rise, b < 24 → SleepEdge.hpd b rise ∈ s.power.edges → u.bit .lbEvt b (if rise then 8 else 9) = true) ∧
        StoredKept s u ∧ u.cavs = s.cavs) ∧
      (s.holdCauses = true → s.power.held = false → u.power.mode = .faultHold ∧ u.power.last = .run ∧ u.power.retention = false ∧
        u.reg .pwrFault 0 = word (place 28 4 s.firstCause.1 + place 16 3 s.firstCause.2) ∧ u.power.wakes = [])) ∧
    (s.power.seq ≠ .leavingStandby → exec .standbyExitVccfReady s = .next s) ∧
    (∀ m w f, s.power.seq = .entering m w f → m = .patrol ∨ m = .deepSleep → ∃ t, exec .sleepRailsOff s = .next t ∧
      EnteredMode m s t ∧ t.power.seq = (if w = true ∨ s.power.progPending = true then .wakingRails else .none) ∧
      t.power.retention = false ∧ railsAre t (!(w || s.power.progPending)) ∧
      (∀ c, c < 40 → t.cav c = { s.cav c with powered := false, emptied := true }) ∧ (∀ e ∈ t.fabric.cells, 40 ≤ e.1 / 40000) ∧
      (∀ r, r / 1024 < 4480 → pocketUsed s.cfg (r / 1024) = false → tabGet 0 t.pockets.rows r = 0) ∧ t.conf.job = none ∧ (s.conf.job = none → t.conf = s.conf) ∧
      (∀ j a, s.conf.job = some j → (j.off ≤ a → j.off + j.bytes.length ≤ a) →
        (j.commit ≠ none → j.off + copyStride ≤ a → j.off + copyStride + j.bytes.length ≤ a) →
        tabGet storeFill t.conf.store a = tabGet storeFill s.conf.store a) ∧
      RegsKept [RegKind.pwrEvt.addr 0] s t ∧
      besideFlags { t with power := s.power, conf := s.conf, freeCtr := s.freeCtr, cavs := s.cavs, fabric := s.fabric,
                           pockets := s.pockets } = besideFlags s) ∧
    ((∀ w f, s.power.seq ≠ .entering .patrol w f ∧ s.power.seq ≠ .entering .deepSleep w f) → exec .sleepRailsOff s = .next s) ∧
    (s.power.seq = .wakingRails →
      (s.power.progPending = true → ∃ t, exec .sleepWakeRailsOn s = .next t ∧ FullLoadBegun false true true s t) ∧
      (s.power.progPending = false → ∃ t, exec .sleepWakeRailsOn s = .next t ∧ FullLoadBegun true true false s t) ∧
      (∃ t, exec .wakePowerGoodTimeout s = .next t ∧ t.power = { s.power with seq := .pgRetry, railsOff := t.power.railsOff } ∧
        railsAre t true ∧ t.reg .aonWake 0 = s.reg .aonWake 0 ||| bitWord 8 ∧ RegsKept [RegKind.aonWake.addr 0] s t ∧
        { t with power := s.power, regs := s.regs, fresh := s.fresh } = s)) ∧
    (s.power.seq ≠ .wakingRails → exec .sleepWakeRailsOn s = .next s ∧ exec .wakePowerGoodTimeout s = .next s) ∧
    (s.power.seq = .pgRetry → ∃ t, exec .wakePgfailRetry s = .next t ∧ railsAre t false ∧
      t = { s with power := { s.power with seq := .wakingRails, railsOff := t.power.railsOff } }) ∧
    (s.power.seq ≠ .pgRetry → exec .wakePgfailRetry s = .next s) ∧
    (∀ p (banks : BitVec 12),
      let freed := fun (b : Nat) => banks.getLsbD b = true ∧ tabGet false s.power.padHold b = true
      let presents := fun (b n : Nat) => s.pinOwner b n = .none ∨ s.pinOwner b n = .foreman ∨
        ((s.pinOwner b n = .fabric ∨ s.pinOwner b n = .secure) ∧ pinBit s.cfg b n 24 = true ∧ s.isolated (bankCav b) = false)
      WriteTurnedAway p .pwrPadrel 0 (word banks.toNat) s (exec (.padRelease p banks) s) ∧
      (s.sysRuns = true → ∃ t, exec (.padRelease p banks) s = .next t ∧
        (∀ b, b < 12 → tabGet false t.power.padHold b = (tabGet false s.power.padHold b && !(banks.getLsbD b))) ∧
        (∀ b n, b < 12 → n < 60 → freed b → presents b n → t.pin b n = { s.pin b n with keeper := false, val := false, oe := false }) ∧
        (∀ b n, b < 12 → n < 60 → ¬ freed b ∨ ¬ presents b n → t.pin b n = s.pin b n) ∧
        { t with power := s.power, pins := s.pins } = s ∧ t.power = { s.power with padHold := t.power.padHold } ∧
        t.pins.banks = s.pins.banks))

/-- Operating points, VCCF, the regulators, temperature, supplies and domains (16_power R398 to R407): requests and ends of changes of a SYS
point (R392, R400); writes of `SET_MV` and `QUIET_MV` (R401); what the regulators answer, in LINEAR16 and LINEAR11 as log 105 has it (R402,
R403, R406); the temperature and its
comparators (R404); supplies that fail and return (R405, R407); and the reports of a domain that is off or on (R398, R399). -/
def Obligations.PowerSupplies : Prop :=
  ∀ s : State,
    let ended := fun (t : State) => RegsKept [RegKind.pwrEvt.addr 0] s t ∧ besideFlags { t with power := s.power } = besideFlags s
    let setMv := s.field .pwrVccf 0 0 10
    (∀ p (req : BitVec 2), let heard := s.heldStandby p = true ∨ FieldTaken p .pwrSys 0 s
      (s.heldStandby p = false → FieldTurnedAway p .pwrSys 0 (word (place 8 2 req.toNat)) s (exec (.sysPointRequest p req) s)) ∧
      (heard → req = 3 → ∃ t, exec (.sysPointRequest p req) s = .next t ∧ t.regs = s.regs ∧ besideRegs t = besideRegs s) ∧
      (heard → req ≠ 3 → ∃ t, exec (.sysPointRequest p req) s = .next t ∧ t.field .pwrSys 0 8 2 = req.toNat ∧
        RegsKept [RegKind.pwrSys.addr 0] s t ∧ PointRequested (pointOf req.toNat) s t.power ∧
        besideRegs { t with power := s.power } = besideRegs s)) ∧
    (∀ c, s.power.change = some c → s.sysRuns = true →
      (let u := { s with power := { s.power with
         change := none, point := c.target
         vccsCmd := if c.raising = false ∧ pmbEn s.cfg = true then pointVccs c.target else s.power.vccsCmd } }
       let v := { s with power := { u.power with nextPoint := none } }
       ∃ t, exec .sysPointChangeDone s = .next t ∧ t.bit .pwrEvt 0 6 = true ∧ ended t ∧
        (s.power.nextPoint = none → t.power = u.power) ∧ (∀ p, s.power.nextPoint = some p → PointRequested p v t.power)) ∧
      (c.raising = true → pmbEn s.cfg = true →
        let u := { s with power := { s.power with change := none, vccsCmd := pointVccs s.power.point } }
        let v := { s with power := { u.power with nextPoint := none } }
        ∃ t, exec .sysRaiseTimeout s = .next t ∧ t.bit .pwrEvt 0 5 = true ∧ ended t ∧
          (s.power.nextPoint = none → t.power = u.power) ∧ (∀ p, s.power.nextPoint = some p → PointRequested p v t.power)) ∧
      (c.raising = false ∨ pmbEn s.cfg = false → exec .sysRaiseTimeout s = .next s)) ∧
    (s.power.change = none ∨ s.sysRuns = false → exec .sysPointChangeDone s = .next s ∧ exec .sysRaiseTimeout s = .next s) ∧
    (∀ p (mv : BitVec 10),
      let low := mv.toNat < s.field .pwrVccf 0 16 10 ∨ 950 < mv.toNat
      let lowQ := mv ≠ 0 ∧ (mv.toNat < 650 ∨ setMv < mv.toNat)
      let apart := s.power.mode = .quiet ∧ s.power.vccfCmd ≠ setMv
      FieldTurnedAway p .pwrVccf 0 (word mv.toNat) s (exec (.vccfSet p mv) s) ∧
      FieldTurnedAway p .pwrVccfQ 0 (word mv.toNat) s (exec (.vccfQuietSet p mv) s) ∧
      (FieldTaken p .pwrVccf 0 s → low → ∃ t, exec (.vccfSet p mv) s = .next t ∧ t.bit .pwrEvt 0 8 = true ∧
        RegsKept [RegKind.pwrEvt.addr 0] s t ∧ besideFlags t = besideFlags s) ∧
      (FieldTaken p .pwrVccf 0 s → ¬ low → ∃ t, exec (.vccfSet p mv) s = .next t ∧ t.field .pwrVccf 0 0 10 = mv.toNat ∧
        t.field .pwrVccf 0 16 10 = s.field .pwrVccf 0 16 10 ∧ RegsKept [RegKind.pwrVccf.addr 0] s t ∧
        t.power = { s.power with vccfCmd := if pmbEn s.cfg = false ∨ apart then s.power.vccfCmd else mv.toNat } ∧
        besideRegs { t with power := s.power } = besideRegs s) ∧
      (FieldTaken p .pwrVccfQ 0 s → lowQ → ∃ t, exec (.vccfQuietSet p mv) s = .next t ∧ t.bit .pwrEvt 0 8 = true ∧
        RegsKept [RegKind.pwrEvt.addr 0] s t ∧ besideFlags t = besideFlags s) ∧
      (FieldTaken p .pwrVccfQ 0 s → ¬ lowQ → ∃ t, exec (.vccfQuietSet p mv) s = .next t ∧ t.field .pwrVccfQ 0 0 10 = mv.toNat ∧
        RegsKept [RegKind.pwrVccfQ.addr 0] s t ∧ besideRegs t = besideRegs s)) ∧
    (∀ rail, let r := railNo rail
      let polls := pmbEn s.cfg = true ∧ s.sysRuns = true
      (∀ v, ¬ polls → exec (.pmbusPoll rail v) s = .next s) ∧ (∀ v, ¬ polls → exec (.pmbAlert rail v) s = .next s) ∧
      (polls → (∃ t, exec (.pmbusPoll rail none) s = .next t ∧ PmbFailed s t) ∧
        ∃ t, exec (.pmbAlert rail none) s = .next t ∧ PmbFailed s t) ∧
      (∀ v, polls → ∃ (u t : State) (mv : Nat) (amps temp : Int), exec (.pmbusPoll rail (some v)) s = .next t ∧
        NearestOf (v.vout.toNat * 1000) (2 ^ voutShift s.cfg) mv ∧ Linear11Reads 100 v.iout amps ∧ Linear11Reads 8 v.temp temp ∧
        (mv < 65536 → u.field .pwrRail r 0 16 = mv) ∧ (0 ≤ amps → amps < 65536 → u.field .pwrRail r 16 16 = amps.toNat) ∧
        (r = 0 → mv < 1024 → u.field .pwrVccfQ 0 16 10 = mv) ∧
        (-32768 ≤ temp → temp < 32768 → tabGet 0 u.power.temps r = BitVec.ofInt 16 temp) ∧
        (∀ q, q ≠ r → tabGet 0 u.power.temps q = tabGet 0 s.power.temps q) ∧
        RegsKept (RegKind.pwrRail.addr r :: if r = 0 then [RegKind.pwrVccfQ.addr 0] else []) s u ∧
        u.power = { s.power with temps := u.power.temps } ∧
        { u with power := s.power, regs := s.regs, freeCtr := s.freeCtr } = s ∧ StatusActs r v.status u t) ∧
      (∀ w, polls → ∃ t, exec (.pmbAlert rail (some w)) s = .next t ∧ StatusActs r w s t) ∧
      (∀ a b, let good := tabGet false s.power.regFault r = true ∧ statusFault a = false ∧ statusFault b = false ∧
          tabGet false s.power.supply r = false
        (¬ good → exec (.regRetry rail a b) s = .next s) ∧
        (good → ∃ t, exec (.regRetry rail a b) s = .next t ∧
          CauseCleared { s with power := { s.power with
            regFault := tabErase s.power.regFault r
            railsOff := if s.power.held then tabErase s.power.railsOff r else s.power.railsOff } } t)) ∧
      (tabGet false s.power.supply r = true → exec (.supplyFault rail) s = .next s) ∧
      (tabGet false s.power.supply r = false → s.railOn r = false → s.power.held = false → exec (.supplyFault rail) s = .next s) ∧
      (tabGet false s.power.supply r = false → s.railOn r = true ∨ s.power.held = true →
        ∃ t, exec (.supplyFault rail) s = .next t ∧ RailFaulted 2 r s t) ∧
      (tabGet false s.power.supply r = false → exec (.supplyRecover rail) s = .next s) ∧
      (tabGet false s.power.supply r = true → ∃ t, exec (.supplyRecover rail) s = .next t ∧
        CauseCleared { s with power := { s.power with supply := tabErase s.power.supply r } } t)) ∧
    (∀ now : BitVec 8,
      let old := BitVec.ofNat 8 (s.field .pwrTemp 0 0 8)
      let warn := BitVec.ofNat 8 (s.field .pwrTemp 0 16 8)
      let cool := s.power.thermal = true ∧ now.toInt ≤ (Config.grade.shut : Int) - 15
      (s.sysRuns = false → exec (.tempRead now) s = .next s) ∧
      (s.sysRuns = true → ∃ u t, exec (.tempRead now) s = .next t ∧ u.field .pwrTemp 0 0 8 = now.toNat ∧
        (old.toInt < warn.toInt → warn.toInt ≤ now.toInt → u.bit .pwrEvt 0 3 = true) ∧
        RegsKept [RegKind.pwrTemp.addr 0, RegKind.pwrEvt.addr 0] s u ∧ besideFlags u = besideFlags s ∧
        (¬ cool → t = u) ∧ (cool → CauseCleared { u with power := { u.power with thermal := false } } t))) ∧
    (s.power.mode = .patrol ∨ s.power.mode = .deepSleep → exec .thermalTrip s = .next s) ∧
    (s.power.mode ≠ .patrol → s.power.mode ≠ .deepSleep →
      let u := { s with power := { s.power with thermal := true } }
      (s.power.mode = .faultHold → exec .thermalTrip s = .next u) ∧
      (s.power.mode ≠ .faultHold → ∃ t, exec .thermalTrip s = .next t ∧ FaultTaken 1 0 u t)) ∧
    (∀ d, let c := domCode d
      let u := domSettle c s
      (u.domCmd c = none → exec (.domainOffReport d) s = .next u) ∧
      (∀ v, u.domCmd c = some v → v.up = true ∨ v.waiting = true → exec (.domainOffReport d) s = .next u) ∧
      (∀ v, u.domCmd c = some v → v.up = false → v.waiting = false → ∃ t, exec (.domainOffReport d) s = .next t ∧
        DomainReported c v u t ∧ RegsKept [RegKind.pwrEvt.addr 0] u t ∧
        (c < 40 → t.cav c = { u.cav c with powered := false, emptied := true, supplyLost := (u.cav c).supplyLost || (u.cav c).bist } ∧
          (∀ e, e ≠ c → t.cav e = u.cav e) ∧
          ∀ r, r / 1024 / 112 ≠ c → tabGet 0 t.pockets.rows r = tabGet 0 u.pockets.rows r) ∧
        (40 ≤ c → t.cavs = u.cavs ∧ t.pockets = u.pockets ∧ t.power.lbOff = u.power.lbOff ∧ t.power.ioOff = u.power.ioOff)) ∧
      (s.domCmd c = none → exec (.domainOnReport d) s = .next s) ∧
      (∀ v, s.domCmd c = some v → v.up = false → exec (.domainOnReport d) s = .next s) ∧
      (∀ v, s.domCmd c = some v → v.up = true → s.power.mode ≠ .faultHold → ∃ t, exec (.domainOnReport d) s = .next t ∧
        DomainReported c v s t ∧
        (c < 40 → (t.cav c).powered = true ∧ (t.cav c).power = false ∧
          (t.cav c).partialLoad = ((s.cav c).partialLoad || !(s.cav c).used) ∧ ∀ e, e ≠ c → t.cav e = s.cav e) ∧
        (0x40 ≤ c → c < 0x80 → tabGet false t.power.lbOff (c - 0x40) = false) ∧
        (0x80 ≤ c → tabGet false t.power.ioOff (c - 0x80) = false)) ∧
      (∀ v, s.domCmd c = some v → v.up = true → s.power.mode = .faultHold → c < 0x80 → ∃ t w, exec (.domainOnReport d) s = .next t ∧
        t.domCmd c = some w ∧ w.up = false ∧ t.bit .pwrEvt 0 2 = true))

/-! ### Pins and the test access port -/

/-- The user pins (17_pins R411, R412, R421 to R424, R429, R430): a bank's supply, with which its strap is sampled, the token that an output channel presents, of an isolated cavern one that stood
at its gate (01_architecture R21, R23), the samples that
the four input modes take, and what the host interfaces do with an unknown command and a clock held low. -/
def Obligations.UserPins : Prop :=
  ∀ (s : State),
    (∀ b : Fin 12,
      let others := fun (t : State) => (∀ k, k ≠ b.val → t.bank k = s.bank k) ∧ t.pins.pins = s.pins.pins
      ((s.bank b).vmis = true → exec (.bankSupplyInvalid b) s = .next s) ∧
      ((s.bank b).vmis = false → ∃ t, exec (.bankSupplyInvalid b) s = .next t ∧
        t.bank b = { s.bank b with valid := false, vmis := true } ∧ (∀ n, t.padDrive b n = (false, false)) ∧
        t.bit .pinEvt 0 0 = true ∧ others t ∧ RegsKept [RegKind.pinEvt.addr 0] s t ∧
        besideFlags { t with pins := s.pins } = besideFlags s) ∧
      ∀ strap, ((s.bank b).valid = true → exec (.bankSupplyValid b strap) s = .next s) ∧
        ((s.bank b).valid = false → ∃ t, exec (.bankSupplyValid b strap) s = .next t ∧
          t.bank b = { s.bank b with valid := true, sampled := true, vmis := false, strap := strap } ∧ others t ∧ { t with pins := s.pins } = s)) ∧
    (∀ (b : Fin 12) (n : Fin 60),
      let a := attPin b n
      let pin := s.pin b n
      let g := groupPins s.cfg b n
      let takes := s.pinFabric b n = true ∧ pinBit s.cfg b n 17 = true ∧ s.bankFloats b = false ∧
        tabGet false s.power.padHold b = false ∧ s.power.retention = false ∧ s.sysRuns = true
      let gate := s.isolated (bankCav b)
      let hold := bitAt 28 (bankCfg s.cfg b)
      (∀ v, takes → s.outToken a = some v → ∃ t, exec (.pinOutputToken b n) s = .next t ∧
        (gate = false → t.pin b n = { pin with fabVal := bitAt 0 v, fabOe := bitAt 1 v, keeper := false, val := false, oe := false }) ∧
        (gate = true → hold = true → t.pin b n = { pin with
          fabVal := bitAt 0 v, fabOe := bitAt 1 v, keeper := true, val := (t.pin b n).val, oe := (t.pin b n).oe }) ∧
        (gate = true → hold = false → t.pins = s.pins) ∧
        tabGet false t.fabric.attAck a = true ∧ OtherPins b n s t ∧ OthersAttached a s t ∧ t.attIn a = s.attIn a ∧
        (gate = false ∨ hold = true → pinBit s.cfg b n 24 = false → pinBit s.cfg b n 28 = false → pinBit s.cfg b n 16 = false →
          t.padDrive b n = (bitAt 0 v && bitAt 1 v, bitAt 1 v)) ∧
        (∀ c, t.cav c = { s.cav c with pass := (t.cav c).pass, owed := (t.cav c).owed }) ∧
        { t with pins := s.pins, fabric := s.fabric, cavs := s.cavs } = s) ∧
      (¬ takes ∨ s.outToken a = none → exec (.pinOutputToken b n) s = .next s) ∧
      (∀ level, let may := pinMode s.cfg b n = 1 ∧ s.pinReady b n = true
        (¬ may → exec (.levelSample b n level) s = .next s) ∧
        (may → ∃ t, exec (.levelSample b n level) s = .next t ∧ t.attIn a = { val := bitNat level, ph := .offering } ∧
          OthersAttached a s t ∧ tabGet false t.fabric.attAck a = tabGet false s.fabric.attAck a ∧ { t with fabric := s.fabric } = s)) ∧
      (∀ rising (levels : BitVec 60),
        let named := fun (m : Nat) => pinSpin s.cfg b m = n.val ∧ pinMode s.cfg b m = (if rising = true then 2 else 3) ∧
          s.pinSamples b m = true
        let full := fun (m : Nat) => named m ∧ 8 ≤ (s.pin b m).queue.length
        ∃ t, exec (.strobeEdge b n rising levels) s = .next t ∧
          (∀ m, m < 60 → ¬ named m ∨ full m → t.pin b m = s.pin b m ∧ t.attIn (attPin b m) = s.attIn (attPin b m)) ∧
          (∀ m x rest, m < 60 → named m → ¬ full m → (s.pin b m).queue ++ [levels.getLsbD m] = x :: rest →
            let free := (s.attIn (attPin b m)).ph = .idle ∧ s.isolated (bankCav b) = false
            t.pin b m = { s.pin b m with queue := if free then rest else x :: rest } ∧
            t.attIn (attPin b m) = (if free then { val := bitNat x, ph := .offering } else s.attIn (attPin b m))) ∧
          (∀ m, m < 32 → (t.bit .pinOvrL b m = true ↔ s.bit .pinOvrL b m = true ∨ full m)) ∧
          (∀ m, 32 ≤ m → m < 60 → (t.bit .pinOvrH b (m - 32) = true ↔ s.bit .pinOvrH b (m - 32) = true ∨ full m)) ∧
          (∀ m, m < 60 → full m → t.bit .pinEvt 0 1 = true) ∧
          (∀ k, k / 60 ≠ b.val → tabGet {} t.pins.pins k = tabGet {} s.pins.pins k) ∧ t.pins.banks = s.pins.banks ∧
          t.fabric = { s.fabric with attIn := t.fabric.attIn } ∧
          RegsKept [RegKind.pinOvrL.addr b, RegKind.pinOvrH.addr b, RegKind.pinEvt.addr 0, RegKind.pinLost.addr 0] s t ∧
          besideFlags { t with pins := s.pins, fabric := s.fabric } = besideFlags s) ∧
      (∀ levels : BitVec 60,
        (g = [] ∨ s.pinSamples b n = false → exec (.handshakeReqRise b n levels) s = .next s) ∧
        (g ≠ [] → s.pinSamples b n = true →
          (pin.ackHigh = true → ∃ t, exec (.handshakeReqRise b n levels) s = .next t ∧ t.bit .pinEvt 0 2 = true ∧
            RegsKept [RegKind.pinEvt.addr 0] s t ∧ besideFlags t = besideFlags s) ∧
          (pin.ackHigh = false → pin.reqHigh = true ∨ (∃ m ∈ g, s.pinReady b m = false) →
            exec (.handshakeReqRise b n levels) s = .next s) ∧
          (pin.ackHigh = false → pin.reqHigh = false → (∀ m ∈ g, s.pinReady b m = true) →
            ∃ t, exec (.handshakeReqRise b n levels) s = .next t ∧ t.pin b n = { pin with reqHigh := true, sampled := true } ∧
              (∀ m ∈ g, t.attIn (attPin b m) = { val := bitNat (levels.getLsbD m), ph := .offering }) ∧
              (∀ x, (∀ m ∈ g, x ≠ attPin b m) → t.attIn x = s.attIn x) ∧ OtherPins b n s t ∧
              t.fabric = { s.fabric with attIn := t.fabric.attIn } ∧ { t with pins := s.pins, fabric := s.fabric } = s))) ∧
      (let may := pin.sampled = true ∧ pin.reqHigh = true ∧ pin.ackHigh = false ∧ s.pinSamples b n = true ∧
         ∀ m ∈ g, (s.attIn (attPin b m)).ph ≠ .offering
       (¬ may → exec (.handshakeAckRaise b n) s = .next s) ∧
       (may → ∃ t, exec (.handshakeAckRaise b n) s = .next t ∧ t.pin b n = { pin with ackHigh := true } ∧ OtherPins b n s t ∧
         { t with pins := s.pins } = s)) ∧
      (let hears := g ≠ [] ∧ s.pinSamples b n = true
       (¬ hears ∨ (pin.ackHigh = false ∧ pin.reqHigh = false) → exec (.handshakeReqFall b n) s = .next s) ∧
       (hears → pin.ackHigh = true → ∃ t, exec (.handshakeReqFall b n) s = .next t ∧
         ((∀ m ∈ g, (s.attIn (attPin b m)).ph = .idle) →
           t.pin b n = { pin with reqHigh := false, ackHigh := false, sampled := false }) ∧
         ((∃ m ∈ g, (s.attIn (attPin b m)).ph ≠ .idle) → t.pin b n = { pin with reqHigh := false }) ∧ OtherPins b n s t ∧
         { t with pins := s.pins } = s) ∧
       (hears → pin.ackHigh = false → pin.reqHigh = true → ∃ t, exec (.handshakeReqFall b n) s = .next t ∧
         t.bit .pinEvt 0 2 = true ∧ RegsKept [RegKind.pinEvt.addr 0] s t ∧ besideFlags t = besideFlags s))) ∧
    (∀ cmd : Byte, let known := cmd = 0x02 ∨ cmd = 0x0B ∨ cmd = 0x38 ∨ cmd = 0xEB
      (known ∨ s.sysRuns = false → exec (.spiUnknownCommand cmd) s = .next s) ∧
      (¬ known → s.sysRuns = true → ∃ t, exec (.spiUnknownCommand cmd) s = .next t ∧ t.bit .pinEvt 0 3 = true ∧
        CountedOne .pinHosterr 0 s t ∧ RegsKept [RegKind.pinEvt.addr 0, RegKind.pinHosterr.addr 0] s t ∧
        besideFlags t = besideFlags s)) ∧
    exec .i2cSclTimeout s = .next s

/-- The test access port (17_pins R431 to R434): its instructions, of which those that take pins act as BYPASS and set the refused mark
outside MAINTENANCE, which the next Capture-IR shows; register accesses and image words through it; one-time programming, in which no bit clears; the mask of the banks
that the debug owner takes; and scans of the boundary register, which capture the pads' levels but those of SECURE pins (R416) and update
it, refused only where their operands contradict each other. -/
def Obligations.TestAccess : Prop :=
  ∀ (s : State),
    (∀ i ir, (i, ir) ∈ [(Instr.tapReset, JtagIr.idcode), (.idcode, .idcode), (.samplePreload, .sample), (.bypass, .bypass)] →
      ∃ t, exec i s = .next t ∧ IrLoaded ir s t) ∧
    (∀ i ir, (i, ir) ∈ [(Instr.extest, JtagIr.extest), (.clamp, .clamp), (.highz, .highz), (.extestPulse, .extestPulse),
        (.extestTrain, .extestTrain)] →
      (s.power.mode = .maintenance → ∃ t, exec i s = .next t ∧ t.jtag = { s.jtag with ir := ir, refused := false } ∧
        (∀ b, b < 12 → (t.bank b).debug = s.jtag.mask.getLsbD b) ∧ t.irCapture = 5 ∧
        (∀ b n, b < 12 → n < 60 → s.jtag.mask.getLsbD b = true → baseOwner s.cfg b n ≠ .secure → t.pinOwner b n = .debug) ∧
        (ir = .highz → ∀ b n, b < 12 → n < 60 → t.pinOwner b n = .debug →
          (t.pin b n).keeper = false ∧ t.padDrive b n = (false, false)) ∧
        { t with jtag := s.jtag, pins := s.pins } = s) ∧
      (s.power.mode ≠ .maintenance → ∃ t, exec i s = .next t ∧ t.jtag = { s.jtag with ir := .bypass, refused := true } ∧
        (∀ b, b < 12 → (t.bank b).debug = false) ∧ t.irCapture = 9 ∧ { t with jtag := s.jtag, pins := s.pins } = s)) ∧
    (∀ w : BitVec 65, ∃ u, IrLoaded .regacc s u ∧
      let addr := word (bitsOf 32 32 w.toNat)
      let done := decide (u.reach (addr.toNat / 4 * 4) ≠ .silent)
      (w.getLsbD 64 = true → ∃ r, exec (.registerWrite .jtag addr (word (bitsOf 0 32 w.toNat))) u = .next r ∧
        exec (.regacc w) s = .next { r with jtag := { r.jtag with regaccDone := done } }) ∧
      (w.getLsbD 64 = false → ∃ r, exec (.rcRead .jtag addr) u = .next r ∧
        exec (.regacc w) s = .next { r with jtag := { r.jtag with
          regaccRead := if done = true then (r.portBank .jtag).hostRead else r.jtag.regaccRead, regaccDone := done } })) ∧
    (∀ w, ∃ u, IrLoaded .cfgLoad s u ∧
      let open? := fun (l : Load) => s.sysRuns = true ∧ s.conf.load = some l ∧ l.source = .jtag ∧
        (s.field .cfgStatus 0 24 4 = 1 ∨ s.field .cfgStatus 0 24 4 = 2)
      (∀ l, open? l → exec (.cfgLoad w) s =
        .next { u with conf := { s.conf with load := some { l with buf := l.buf ++ [w] } } }) ∧
      ((∀ l, ¬ open? l) → exec (.cfgLoad w) s = .next u)) ∧
    (∀ w : BitVec 64, ∃ u, IrLoaded .otpProg s u ∧
      let i := bitsOf 56 8 w.toNat
      let may := s.power.mode = .maintenance ∧ bitsOf 40 16 w.toNat = 0x5E71 ∧ i ≤ 48
      (may → ∃ v, OtpFinished u v ∧ exec (.otpProg w) s =
        .next { v with
          conf := { v.conf with otpBusy := some (i, word (bitsOf 0 32 w.toNat) &&& if i < 48 then 0xFFFFFFFF else 0x10F) }
          jtag := { v.jtag with otpIndex := i } }) ∧
      (¬ may → exec (.otpProg w) s = .next u)) ∧
    (∃ t, exec .otpProgramDone s = .next t ∧ OtpFinished s t ∧ OtpKept s t) ∧
    (∀ m : BitVec 12, ∃ u, IrLoaded .debugMask s u ∧ exec (.debugMask m) s =
      .next (if s.power.mode = .maintenance then { u with jtag := { u.jtag with mask := m } } else u)) ∧
    (∀ (levels : BitVec 720) (vals : List (Nat × Bool × Bool)),
      let scan : BoundaryScan := { levels := levels, vals := vals }
      let sound := (vals.map (·.1)).Nodup ∧ ∀ v ∈ vals, v.1 < 720
      (¬ sound → exec (.boundaryScanUpdateDr scan) s = .fault (.illFormed "BOUNDARY_SCAN_UPDATE_DR")) ∧
      (sound → s.jtag.ir.boundary = false → exec (.boundaryScanUpdateDr scan) s = .next s) ∧
      (sound → s.jtag.ir.boundary = true → ∃ t, exec (.boundaryScanUpdateDr scan) s = .next t ∧
        (∀ v ∈ vals, tabGet (false, false) t.jtag.boundary v.1 = v.2) ∧
        (∀ k, (∀ v ∈ vals, v.1 ≠ k) → tabGet (false, false) t.jtag.boundary k = tabGet (false, false) s.jtag.boundary k) ∧
        (∀ b n, b < 12 → n < 60 →
          t.jtag.captured.getLsbD (60 * b + n) = (levels.getLsbD (60 * b + n) && decide (baseOwner s.cfg b n ≠ .secure))) ∧
        t.jtag = { s.jtag with boundary := t.jtag.boundary, captured := t.jtag.captured } ∧
        (∀ b n, b < 12 → n < 60 → t.pin b n = if s.pinOwner b n = .debug then
          { s.pin b n with keeper := false, val := false, oe := false } else s.pin b n) ∧
        t.pins.banks = s.pins.banks ∧ { t with jtag := s.jtag, pins := s.pins } = s))

/-! ### Patrol, the scrubber, events and self-tests -/

/-- Patrol (16_power R393 to R396): a period, once 32 · `PERIOD` ticks have passed since the last, counts, begins the order of samples anew and ages touches; a sample in its turn either is
faulty, or moves the baseline and finds touches, releases and stuck sensors, and what it finds of a sensor with `WAKE` set wakes the
device. -/
def Obligations.PatrolSamples : Prop :=
  ∀ (s : State),
    (s.patrolRuns = false ∨ s.clocks.aon < s.patrol.due → exec .patrolPeriod s = .next s) ∧
    (s.patrolRuns = true → s.patrol.due ≤ s.clocks.aon → ∃ t, exec .patrolPeriod s = .next t ∧ t.reg .patrolPeriods 0 = s.reg .patrolPeriods 0 + 1 ∧
      (t.reg .patrolPeriods 0 = 0 → t.bit .pwrEvt 0 7 = true) ∧ t.patrol.nextSensor = 0 ∧
      t.patrol.due = s.clocks.aon + 32 * s.field .patrolCtrl 0 0 11 ∧
      (∀ n, let v := tabGet {} s.patrol.sensors n
        tabGet {} t.patrol.sensors n = if n < 24 ∧ s.touched n = true then { v with length := v.length + 1 } else v) ∧
      RegsKept [RegKind.patrolPeriods.addr 0, RegKind.pwrEvt.addr 0] s t ∧
      besideFlags { t with patrol := s.patrol } = besideFlags s) ∧
    (∀ (n : Fin 24) (c : BitVec 12),
      let v := tabGet {} s.patrol.sensors n.val
      let due := s.patrolRuns = true ∧ s.bit .patrolCfg n.val 31 = true ∧ s.patrol.nextSensor ≤ n.val ∧
        ∀ m, m < n.val → s.patrol.nextSensor ≤ m → s.bit .patrolCfg m 31 = false
      let faulty := maxCount (s.field .patrolCtrl 0 24 3) ≤ c.toNat ∨ c.toNat < 8
      (¬ due → exec (.patrolSample n c) s = .next s) ∧
      (due → faulty → ∃ t, exec (.patrolSample n c) s = .next t ∧ t.bit .patrolFault 0 n.val = true ∧
        t.patrol.nextSensor = n.val + 1 ∧ tabGet {} t.patrol.sensors n.val = { v with based := false } ∧
        (∀ m, m ≠ n.val → tabGet {} t.patrol.sensors m = tabGet {} s.patrol.sensors m) ∧
        RegsKept [RegKind.patrolFault.addr 0] s t ∧ besideFlags { t with patrol := s.patrol } = besideFlags s) ∧
      (due → ¬ faulty →
        let th : Int := s.field .patrolCfg n.val 8 8
        let hyst : Int := s.field .patrolCfg n.val 16 4
        let shift := s.field .patrolCfg n.val 25 3
        let times := s.field .patrolCfg n.val 28 2 + 1
        let limit := 16 * s.field .patrolCtrl 0 16 8
        let base := s.field .patrolCount n.val 16 16
        let d : Int := if v.based = true then (base / 16 : Nat) - (c.toNat : Int) else 0
        let was := s.touched n.val = true
        let touch := ¬ was ∧ th ≤ d ∧ times ≤ v.above + 1
        let release := was ∧ d < th - hyst ∧ times ≤ v.below + 1
        let now := (was ∨ touch) ∧ ¬ release
        let stuck := was ∧ ¬ release ∧ 0 < limit ∧ limit ≤ v.length
        ∃ u t, exec (.patrolSample n c) s = .next t ∧ u.field .patrolCount n.val 0 12 = c.toNat ∧
          (u.touched n.val = true ↔ now ∧ ¬ stuck) ∧
          (v.based = false ∨ stuck ∨ d < 0 → u.field .patrolCount n.val 16 16 = 16 * c.toNat) ∧
          (v.based = true → ¬ stuck → 0 ≤ d → now → u.field .patrolCount n.val 16 16 = base) ∧
          (v.based = true → ¬ stuck → 0 ≤ d → ¬ now → u.field .patrolCount n.val 16 16 =
            (((base : Int) + (((16 * c.toNat : Nat) : Int) - base) / (2 ^ shift : Nat)) % 2 ^ 16).toNat) ∧
          (u.bit .patrolTouch 0 n.val = true ↔ s.bit .patrolTouch 0 n.val = true ∨ touch) ∧
          (u.bit .patrolRel 0 n.val = true ↔ s.bit .patrolRel 0 n.val = true ∨ release) ∧
          (u.bit .patrolStuck 0 n.val = true ↔ s.bit .patrolStuck 0 n.val = true ∨ stuck) ∧
          u.patrol.nextSensor = n.val + 1 ∧ (tabGet {} u.patrol.sensors n.val).based = true ∧
          (∀ m, m ≠ n.val → tabGet {} u.patrol.sensors m = tabGet {} s.patrol.sensors m) ∧
          RegsKept [RegKind.patrolCount.addr n.val, RegKind.patrolTouch.addr 0, RegKind.patrolRel.addr 0,
            RegKind.patrolStuck.addr 0] s u ∧ besideFlags { u with patrol := s.patrol } = besideFlags s ∧
          (s.bit .patrolCfg n.val 30 = false ∨ (¬ touch ∧ ¬ release) → t = u) ∧
          (s.bit .patrolCfg n.val 30 = true → touch ∨ release → exec (.wakeLatch (.patrol n)) u = .next t)))

/-- The scrubber and the vote (18_self_test_faults R449 to R452): a visit moves its class's position on by one unit, and acts on what it
finds as an access of the unit would; the next comes an interval of `RATE` + 1 SYSCLK periods later. A visit of a Sump cell waits for an
idle turn of its bank and counts every group and word. The twelve registers held in three copies take the majority of each bit, or a
field's reset value where its three copies all differ, but for one that a host has written in this SYSCLK period (R456). Beside it a
fabric-raised event (19_events_counters R460), the Foreman's copy of the oldest queued event into its history (R464), and the wrap of the
timestamp (R465). -/
def Obligations.ScrubbingAndEvents : Prop :=
  ∀ (s : State),
    (∀ (k : ScrubClass) (fixed bad : BitVec 36),
      let acts := s.scrubs k = true ∧ tabGet 0 s.clocks.scrub (scrubNo k) ≤ s.clocks.stamp
      let pos := match k with
        | .pocket => RegKind.scrubPosPocket | .sump => .scrubPosSump | .foreman => .scrubPosFm | .crusher => .scrubPosCr
      let found := unitFound fixed bad
      let rest := fun (t : State) => { t with clocks := s.clocks }
      let quiet := fun (t : State) => RegsKept [pos.addr 0, RegKind.scrubEvt.addr 0] s t ∧ besideFlags (rest t) = besideFlags s
      let corrected := fun (t : State) => CountedOne .scrubCntCorr 0 s t ∧ t.bit .scrubEvt 0 0 = true ∧
        besideFlags { rest t with pockets := s.pockets } = besideFlags s
      let lost := fun (t : State) => CountedOne .scrubCntUncorr 0 s t ∧ t.bit .scrubEvt 0 1 = true
      (¬ acts → exec (.scrubVisit k fixed bad) s = .next s) ∧
      (acts → ∃ t, exec (.scrubVisit k fixed bad) s = .next t ∧ t.clocks = { s.clocks with scrub := t.clocks.scrub } ∧
        (t.reg pos 0 ≠ s.reg pos 0 → tabGet 0 t.clocks.scrub (scrubNo k) = s.clocks.stamp + 10 * (s.scrubRate k + 1)) ∧
        (t.reg pos 0 = s.reg pos 0 → t.clocks.scrub = s.clocks.scrub) ∧
        (∀ j, j ≠ scrubNo k → tabGet 0 t.clocks.scrub j = tabGet 0 s.clocks.scrub j)) ∧
      (acts → k = .pocket →
        let w := (s.reg .scrubPosPocket 0).toNat
        let at0 := bitsOf 24 6 w * 112 + bitsOf 16 7 w
        (nextOf 4480 at0 s.scrubPocket = none → exec (.scrubVisit k fixed bad) s = .next s) ∧
        ∀ i, nextOf 4480 at0 s.scrubPocket = some i →
          let pk := (at0 + i) % 4480
          let row := (bitsOf 0 10 w + (at0 + i) / 4480) % 1024
          let next := (pk + 1) % 4480
          let f := rowFound found (s.row pk row)
          ∃ t, exec (.scrubVisit k fixed bad) s = .next t ∧
            t.reg .scrubPosPocket 0 = word (place 24 6 (next / 112) + place 16 7 (next % 112) + (row + (pk + 1) / 4480) % 1024) ∧
            (f = .clean → quiet t) ∧
            (f = .corrected → corrected t ∧ CountedOne .pocketCntCorr 0 s t ∧
              (∀ x, eccDecode (s.row pk row) = .corrected x → t.row pk row = eccEncode x % 2 ^ 72) ∧
              (∀ r, r ≠ pk * 1024 + row → tabGet 0 t.pockets.rows r = tabGet 0 s.pockets.rows r)) ∧
            (f = .uncorrectable → lost t ∧ CountedOne .pocketCntUncorr 0 s t ∧ FrozenBy (pk / 112) (pk % 112) 0x01 s (rest t))) ∧
      (acts → k = .sump →
        let c := s.field .scrubPosSump 0 0 15
        let good := fixed &&& ~~~ bad
        let groups := bad.truncate 32
        let v := s.scell c
        (s.bankIdle c = false → exec (.scrubVisit k fixed bad) s = .next s) ∧
        (s.bankIdle c = true → ∃ t, exec (.scrubVisit k fixed bad) s = .next t ∧ t.reg .scrubPosSump 0 = word ((c + 1) % 32768) ∧
          (c = 32767 → t.bit .scrubEvt 0 3 = true) ∧ t.sump.scrubbed = s.sump.scrubbed ++ [c % 64] ∧
          CountedMany .scrubCntCorr 0 (bitCount good) s t ∧ CountedMany .scrubCntUncorr 0 (bitCount bad) s t ∧
          CountedMany .sumpCntCorr 0 (bitCount (good.truncate 32)) s t ∧ (good ≠ 0 → t.bit .scrubEvt 0 0 = true) ∧
          (bad ≠ 0 → t.bit .scrubEvt 0 1 = true) ∧ (good.truncate 32 ≠ (0 : BitVec 32) → t.bit .sumpEvt 0 4 = true) ∧
          (bad >>> 32 ≠ 0 → Logged (word (0x06000000 + c)) s t) ∧ (groups ≠ 0 → Logged (word (0x05000000 + c)) s t) ∧
          t.scell c = { v with
            err0 := if v.beats = [] then v.err0 else v.err0 ||| groups.truncate 16
            err1 := if 1 < v.beats.length then v.err1 ||| (groups >>> 16).truncate 16 else v.err1 } ∧
          (∀ d, d ≠ c → t.scell d = s.scell d) ∧
          (∀ d, t.desc d = if groups ≠ 0 ∧ v.beats ≠ [] ∧ v.desc = some d ∧ (s.desc d).vis = false then { s.desc d with bad := true }
            else s.desc d) ∧
          RegsKept [RegKind.scrubPosSump.addr 0, RegKind.scrubEvt.addr 0, RegKind.scrubCntCorr.addr 0, RegKind.scrubCntUncorr.addr 0,
            RegKind.sumpEvt.addr 0, RegKind.sumpCntCorr.addr 0, RegKind.sumpOvf.addr 0, RegKind.flogLostCnt.addr 0] s t ∧
          besideFlags { rest t with sump := s.sump, flog := s.flog } = besideFlags s)) ∧
      (acts → k = .foreman →
        let w := s.field .scrubPosFm 0 0 17
        ∃ t, exec (.scrubVisit k fixed bad) s = .next t ∧ t.reg .scrubPosFm 0 = word ((w + 1) % 131072) ∧
          (w = 131071 → t.bit .scrubEvt 0 3 = true) ∧ (found = .clean → quiet t) ∧
          (found = .corrected → corrected t) ∧
          (found = .uncorrectable → lost t ∧
            t.foreman.ram = (if 0x80000 ≤ 8 * w then memWrite ramFill s.foreman.ram (8 * w) (List.replicate 8 0) else s.foreman.ram) ∧
            (s.foreman.running = true ∨ s.foreman.restarting = true → RestartBegun 3 s t))) ∧
      (acts → k = .crusher →
        let w := (s.reg .scrubPosCr 0).toNat
        let e0 := bitsOf 16 4 w
        (nextOf 16 e0 (engineEn s.cfg) = none → exec (.scrubVisit k fixed bad) s = .next s) ∧
        ∀ i, nextOf 16 e0 (engineEn s.cfg) = some i →
          let e := (e0 + i) % 16
          let pair := if i = 0 then bitsOf 8 7 w * 32 + bitsOf 0 5 w else 0
          let next := (pair + 1) % 4096
          ∃ t, exec (.scrubVisit k fixed bad) s = .next t ∧
            t.reg .scrubPosCr 0 = word (place 16 4 (if pair = 4095 then (e + 1) % 16 else e) + place 8 7 (next / 32) + next % 32) ∧
            (found = .clean → quiet t) ∧ (found = .corrected → corrected t) ∧
            (found = .uncorrectable → lost t ∧ Logged (word (0x04000000 + 256 * e + pair / 32)) s t ∧ t.bit .crEvt e 2 = true ∧
              t.ctx e (pair / 32) 63 = s.ctx e (pair / 32) 63 ||| bitWord 8 ∧
              ∀ x, x ≠ 64 * clientKey e (pair / 32) + 63 → tabGet 0 t.crushers.ctx x = tabGet 0 s.crushers.ctx x))) ∧
    (∀ (r : Fin 12) (fa fb fc : Word),
      let k := (votedReg r.val).1
      let i := (votedReg r.val).2
      let v := s.reg k i
      let a := v ^^^ (fa &&& k.defined)
      let b := v ^^^ (fb &&& k.defined)
      let c := v ^^^ (fc &&& k.defined)
      let n := disagreeing a b c
      let written := s.fresh.period.contains (k.addr i) = true
      (s.sysRuns = false ∨ written → exec (.scrubVoteCorrect r fa fb fc) s = .next s) ∧
      (s.sysRuns = true → ¬ written → ∃ t, exec (.scrubVoteCorrect r fa fb fc) s = .next t ∧
        (r.val ≠ 11 → ∀ f ∈ k.fields, t.field k i f.lo f.len =
          if fieldSplit a b c f = true then f.reset else bitsOf f.lo f.len (majority a b c).toNat) ∧
        ((∃ f ∈ k.fields, fieldSplit a b c f = true) → t.bit .scrubEvt 0 9 = true) ∧
        (n = 0 → RegsKept [k.addr i] s t ∧ { t with regs := s.regs } = s) ∧
        (n ≠ 0 → t.bit .scrubEvt 0 2 = true ∧ Logged (word (0x0A000000 + 4 * r.val)) s t ∧
          (r.val ≠ 11 → (t.reg .scrubCntVote 0).toNat = min ((s.reg .scrubCntVote 0).toNat + n) (2 ^ 32 - 1)) ∧
          RegsKept [k.addr i, RegKind.scrubCntVote.addr 0, RegKind.scrubEvt.addr 0, RegKind.flogLostCnt.addr 0] s t ∧
          besideFlags { t with flog := s.flog } = besideFlags s))) ∧
    (∀ k : Fin 24,
      let on := s.sysRuns = true ∧ cfgBits s.cfg 46 2 0 (8 * k.val + 7) 1 = 1
      (¬ on ∨ s.outToken (attEvent k.val) = none → exec (.fabricEventToken k) s = .next s) ∧
      (∀ v, on → s.outToken (attEvent k.val) = some v → ∃ t, exec (.fabricEventToken k) s = .next t ∧
        t.crossings = { s.crossings with offered := s.crossings.offered ++ [(0, 360 + k.val)] } ∧
        tabGet false t.fabric.attAck (attEvent k.val) = true ∧ OthersAttached (attEvent k.val) s t ∧
        { t with crossings := s.crossings, fabric := s.fabric } = s)) ∧
    (∀ n x rest, s.foreman.running = true → s.sysRuns = true → s.history.queue = (n, x) :: rest →
      ∃ t, exec .eventHistoryCopy s = .next t ∧ t.history.queue = rest ∧ t.history.next = (s.history.next + 1) % 2 ^ 16 ∧
        tabGet 0 t.history.ring (s.history.next % 64) = s.history.next * 2 ^ 48 + n * 2 ^ 32 + x ∧
        (∀ j, j ≠ s.history.next % 64 → tabGet 0 t.history.ring j = tabGet 0 s.history.ring j) ∧ { t with history := s.history } = s) ∧
    (s.foreman.running = false ∨ s.sysRuns = false ∨ s.history.queue = [] → exec .eventHistoryCopy s = .next s) ∧
    (s.sysRuns = true → s.clocks.stamp = 2 ^ 64 - 6 →
      let n := (s.clocks.micro + 1) % 100
      ∃ u, exec .timestampWrap s = .next (if n = 0 ∧ s.blocksRun = true then sumpMicro u else u) ∧
        u.clocks = { s.clocks with stamp := 0, scrub := [], micro := n } ∧ u.bit .evtPend 0 15 = true ∧ RegsKept [] s u ∧
        besideFlags { u with clocks := s.clocks } = besideFlags s) ∧
    (s.sysRuns = false ∨ s.clocks.stamp ≠ 2 ^ 64 - 6 → exec .timestampWrap s = .next s)

/-- The ends of self-tests (18_self_test_faults R437 to R448): a test that ends leaves its outcome, its signature and its count, is reported,
and is logged unless it passed; a LANE test of a bench without a lane in use was not run (R445), and a POCKET test fails on a word that
it finds uncorrectable, which counts and freezes the cavern (R441). The parts of a CAVERN test end one after the other; a run without a
test left is answered with its worst outcome. A start-up self-test that has not ended in its bound ends there, and START begins. -/
def Obligations.SelfTestEnds : Prop :=
  ∀ (s : State),
    (∀ (type : Fin 6) (target : BitVec 8) (sig : BitVec 64) (count : Word),
      let found := s.test.running.find? fun r => r.target = target.toNat ∧ (r.type = type.val ∨ (r.type = 3 ∧ (type.val = 1 ∨ type.val = 2)))
      let reported := fun (shown o : Nat) (sg n : Nat) (t : State) =>
        t.reg .stSigLo 0 = word (sg % 2 ^ 64) ∧ t.reg .stSigHi 0 = word ((sg % 2 ^ 64) >>> 32) ∧ t.reg .stCount 0 = word n ∧
        t.reg .stLast 0 = word (place 16 8 target.toNat + place 8 4 shown + o) ∧ t.bit .stEvt 0 0 = true ∧
        (o = 2 → t.bit .stEvt 0 1 = true) ∧ (o = 3 → t.bit .stEvt 0 2 = true) ∧
        (o = 2 ∨ o = 3 → Logged (word (0x0D000000 + shown * 256 + target.toNat)) s t)
      let ends := fun (r : TestRun) => if r.type = 2 then pocketOutcome target.toNat r.stopped sig.toNat count.toNat s
        else if r.type = 4 ∧ benchLanes s.cfg target.toNat = [] then 0 else testOutcome r.type r.stopped sig.toNat count.toNat
      let froze := fun (o : Nat) (t : State) => o = 2 → s.badPockets target.toNat ≠ [] →
        (t.cav target.toNat).freeze = true ∧ CountedMany .pocketCntUncorr 0 (s.badPockets target.toNat).length s t
      (found = none → s.test.todo = [] → s.test.running ≠ [] → exec (.bistTestEnd type target sig count) s = .next s) ∧
      (∀ r, found = some r → r.type = 1 ∨ r.type = 2 ∨ r.type = 4 ∨ (r.type = 5 ∧ s.test.startup = true) → target.toNat < 40 →
        s.test.type ≠ 5 ∨ s.test.startup = true →
        let o := ends r
        ∃ t, exec (.bistTestEnd type target sig count) s = .next t ∧ reported r.type o sig.toNat count.toNat t ∧
          (r.type = 2 → froze o t) ∧ (r.type = 1 → t.field .stResCav target.toNat 0 2 = o) ∧ (r.type = 2 → t.field .stResCav target.toNat 2 2 = o) ∧
          (r.type = 5 → t.reg .stResHard 0 = word o) ∧ t.cfg = s.cfg) ∧
      (∀ r, found = some r → r.type = 5 → s.test.type = 5 → s.test.startup = false → s.test.todo = [] → s.test.running = [r] →
        ∃ t, exec (.bistTestEnd type target sig count) s = .next t ∧ FullLoadBegun false false false s t ∧
          t.reg .stResHard 0 = word (testOutcome 5 r.stopped sig.toNat count.toNat)) ∧
      (∀ r, found = some r → r.type = 3 → s.test.todo = [] → target.toNat < 40 → s.test.type ≠ 5 ∨ s.test.startup = true →
        (r.logic = none → type.val ≠ 1 → exec (.bistTestEnd type target sig count) s = .next s) ∧
        (r.logic = none → type.val = 1 → r.stopped = false → ∃ t, exec (.bistTestEnd type target sig count) s = .next t ∧
          t.test.running = (s.test.running.map fun q => if q.type = 3 ∧ q.target = target.toNat then
            { q with logic := some (testOutcome 1 false sig.toNat count.toNat, sig.toNat, count.toNat) } else q) ∧
          { t with test := s.test } = s) ∧
        (r.logic = none → type.val = 1 → r.stopped = true → ∃ t, exec (.bistTestEnd type target sig count) s = .next t ∧
          t.reg .stResCav target.toNat = word (3 + 4 * 3) ∧ reported 3 3 sig.toNat count.toNat t) ∧
        (∀ l, r.logic = some l → type.val ≠ 2 → exec (.bistTestEnd type target sig count) s = .next s) ∧
        (∀ l, r.logic = some l → type.val = 2 →
          let o := pocketOutcome target.toNat r.stopped sig.toNat count.toNat s
          let shown := if l.1 = 1 then (o, sig.toNat, count.toNat) else l
          ∃ t, exec (.bistTestEnd type target sig count) s = .next t ∧ t.reg .stResCav target.toNat = word (l.1 + 4 * o) ∧
            reported 3 (worseOutcome l.1 o) shown.2.1 shown.2.2 t ∧ froze o t)) ∧
      (∀ r m, found = some r → r.type = 1 ∨ r.type = 2 ∨ r.type = 4 → s.test.todo = [] → s.test.running = [r] → s.test.startup = false →
        s.test.type ≠ 0 → s.test.type ≠ 5 → target.toNat < 40 → s.test.mailbox = some m →
        let w := worseOutcome s.test.worst (ends r)
        let x := fun (v : Word) => if s.test.target = 0xFF then 0 else v
        ∃ t, exec (.bistTestEnd type target sig count) s = .next t ∧ t.test.type = 0 ∧ t.test.running = [] ∧ t.test.mailbox = none ∧
          (t.mboxAt m).rsp = mkResponse (s.cmdOf m) (if w = 1 then 0 else 0x2000 + w)
            [word w, x (word sig.toNat), x (word (sig.toNat >>> 32)), x count] 16)) ∧
    (s.test.startup = false → exec .startupSelfTestTimeout s = .next s) ∧
    (s.test.startup = true → ∃ t, exec .startupSelfTestTimeout s = .next t ∧ t.test.type = 0 ∧ t.test.running = [] ∧ t.test.todo = [] ∧
      t.power.mode = .start ∧ t.field .cfgStatus 0 24 4 = 6 ∧ t.conf.started = true ∧
      ((∀ r ∈ s.test.todo, (r.type = 3 ∧ r.target < 40) ∨ (r.type = 4 ∧ r.target < 24)) →
        ∀ r, r ∈ s.test.todo → r.type = 3 → t.reg .stResCav r.target = word 15) ∧
      (∀ c, c < 40 → (s.cav c).used = false → (t.cav c).power = true ∧ (t.cav c).powered = false ∧ (t.cav c).emptied = true) ∧
      (∀ c, c < 40 → (s.cav c).used = true → 2 ≤ t.field .stResCav c 0 2 ∨ 2 ≤ t.field .stResCav c 2 2 →
        (t.cav c).freeze = true ∧ (t.cav c).fpocket = 0xFF))
end

