-- ==== Sys2Proof/Laws/Tables.lean ====
section
/-! SUPPORT. Laws of sparse tables and byte memories: what a read answers after a write, and that every write keeps the canonical form. -/

namespace Sys2Proof.Machine

variable {α : Type}

@[simp] theorem tabGet_nil (d : α) (j : Nat) : tabGet d [] j = d := rfl

@[simp] theorem tabGet_cons (d : α) (e : Nat × α) (t : Tab α) (j : Nat) :
    tabGet d (e :: t) j = if e.1 = j then e.2 else tabGet d t j := rfl

/-- The keys of a table rise strictly, as a proposition. -/
theorem tabSorted_iff (t : Tab α) : tabSorted t = true ↔ t.Pairwise fun a b => a.1 < b.1 := by
  induction t with
  | nil => simp [tabSorted]
  | cons e r ih =>
    cases r with
    | nil => simp [tabSorted]
    | cons f r =>
      simp only [tabSorted, Bool.and_eq_true, decide_eq_true_eq, ih, List.pairwise_cons, List.mem_cons, forall_eq_or_imp]
      constructor
      · rintro ⟨h, hf, hr⟩
        exact ⟨⟨h, fun a ha => lt_trans h (hf a ha)⟩, hf, hr⟩
      · rintro ⟨⟨h, -⟩, hf, hr⟩
        exact ⟨h, hf, hr⟩

/-- The canonical form as a proposition. -/
theorem tabWf_iff [DecidableEq α] (d : α) (t : Tab α) :
    tabWf d t = true ↔ (t.Pairwise fun a b => a.1 < b.1) ∧ ∀ e ∈ t, e.2 ≠ d := by
  simp [tabWf, tabSorted_iff]

@[simp] theorem tabWf_nil [DecidableEq α] (d : α) : tabWf d [] = true := rfl

theorem mem_tabInsert (t : Tab α) (k : Nat) (v : α) (e : Nat × α) :
    e ∈ tabInsert t k v ↔ e = (k, v) ∨ e ∈ t := by
  induction t with
  | nil => simp [tabInsert]
  | cons f r ih =>
    obtain ⟨j, w⟩ := f
    simp only [tabInsert]
    split
    · simp
    · simp only [List.mem_cons, ih]
      tauto

theorem tabInsert_pairwise (t : Tab α) (k : Nat) (v : α) (ht : t.Pairwise fun a b => a.1 < b.1)
    (hk : ∀ e ∈ t, e.1 ≠ k) : (tabInsert t k v).Pairwise fun a b => a.1 < b.1 := by
  induction t with
  | nil => simp [tabInsert]
  | cons f r ih =>
    obtain ⟨j, w⟩ := f
    rw [List.pairwise_cons] at ht
    simp only [tabInsert]
    split
    · rename_i hlt
      refine List.pairwise_cons.2 ⟨?_, List.pairwise_cons.2 ht⟩
      intro a ha
      rcases List.mem_cons.1 ha with rfl | ha
      · exact hlt
      · exact lt_trans hlt (ht.1 a ha)
    · rename_i hlt
      refine List.pairwise_cons.2 ⟨?_, ih ht.2 fun e he => hk e (List.mem_cons_of_mem _ he)⟩
      intro a ha
      rcases (mem_tabInsert r k v a).1 ha with rfl | ha
      · have := hk (j, w) List.mem_cons_self
        simp only at this ⊢
        omega
      · exact ht.1 a ha

theorem tabErase_pairwise (t : Tab α) (k : Nat) (ht : t.Pairwise fun a b => a.1 < b.1) :
    (tabErase t k).Pairwise fun a b => a.1 < b.1 := ht.sublist List.filter_sublist

theorem mem_tabErase (t : Tab α) (k : Nat) (e : Nat × α) : e ∈ tabErase t k ↔ e ∈ t ∧ e.1 ≠ k := by
  simp [tabErase]

/-- Every write keeps the canonical form of a table. -/
theorem tabSet_wf [DecidableEq α] (d : α) (t : Tab α) (k : Nat) (v : α) (ht : tabWf d t = true) :
    tabWf d (tabSet d t k v) = true := by
  rw [tabWf_iff] at ht ⊢
  unfold tabSet
  split
  · exact ⟨tabErase_pairwise t k ht.1, fun e he => ht.2 e ((mem_tabErase t k e).1 he).1⟩
  · rename_i hv
    refine ⟨tabInsert_pairwise _ k v (tabErase_pairwise t k ht.1) fun e he => ((mem_tabErase t k e).1 he).2, ?_⟩
    intro e he
    rcases (mem_tabInsert _ k v e).1 he with rfl | he
    · exact hv
    · exact ht.2 e ((mem_tabErase t k e).1 he).1

/-- A change of one key's value keeps the canonical form of a table. -/
theorem tabMod_wf [DecidableEq α] (d : α) (t : Tab α) (k : Nat) (f : α → α) (ht : tabWf d t = true) :
    tabWf d (tabMod d t k f) = true := tabSet_wf d t k _ ht

/-- Entries left out by their key keep the canonical form. -/
theorem tabFilter_wf [DecidableEq α] (d : α) (t : Tab α) (p : Nat × α → Bool) (ht : tabWf d t = true) :
    tabWf d (t.filter p) = true := by
  rw [tabWf_iff] at ht ⊢
  exact ⟨ht.1.sublist List.filter_sublist, fun e he => ht.2 e (List.mem_of_mem_filter he)⟩

theorem tabGet_tabErase (d : α) (t : Tab α) (k j : Nat) :
    tabGet d (tabErase t k) j = if k = j then d else tabGet d t j := by
  induction t with
  | nil => simp [tabErase]
  | cons e r ih =>
    simp only [tabErase, List.filter_cons] at ih ⊢
    by_cases h : e.1 = k <;> by_cases hj : k = j <;> by_cases he : e.1 = j <;> simp_all

theorem tabGet_tabInsert (d : α) (t : Tab α) (k j : Nat) (v : α) (hk : ∀ e ∈ t, e.1 ≠ k) :
    tabGet d (tabInsert t k v) j = if k = j then v else tabGet d t j := by
  induction t with
  | nil => simp [tabInsert]
  | cons e r ih =>
    obtain ⟨i, w⟩ := e
    have hr := ih fun e he => hk e (List.mem_cons_of_mem _ he)
    have hi : i ≠ k := hk (i, w) List.mem_cons_self
    simp only [tabInsert]
    split
    · simp
    · simp only [tabGet_cons, hr]
      by_cases h : i = j
      · subst h
        simp [Ne.symm hi]
      · simp [h]

/-- A read after a write: the value written at its key, every other key as before. -/
@[simp] theorem tabGet_tabSet [DecidableEq α] (d : α) (t : Tab α) (k j : Nat) (v : α) :
    tabGet d (tabSet d t k v) j = if k = j then v else tabGet d t j := by
  unfold tabSet
  split
  · rename_i hv
    rw [tabGet_tabErase, hv]
  · rw [tabGet_tabInsert _ _ _ _ _ fun e he => ((mem_tabErase t k e).1 he).2, tabGet_tabErase]
    by_cases h : k = j <;> simp [h]

@[simp] theorem tabGet_tabMod [DecidableEq α] (d : α) (t : Tab α) (k j : Nat) (f : α → α) :
    tabGet d (tabMod d t k f) j = if k = j then f (tabGet d t k) else tabGet d t j := by
  simp [tabMod]

/-- A range of keys replaced by fresh entries in order keeps the canonical form. -/
theorem tabWf_splice [DecidableEq α] (d : α) (t fresh : Tab α) (lo hi : Nat) (ht : tabWf d t = true)
    (hf : fresh.Pairwise fun a b => a.1 < b.1) (hd : ∀ e ∈ fresh, e.2 ≠ d) (hr : ∀ e ∈ fresh, lo ≤ e.1 ∧ e.1 < hi)
    (hl : lo ≤ hi) :
    tabWf d (t.filter (fun e => e.1 < lo) ++ fresh ++ t.filter (fun e => hi ≤ e.1)) = true := by
  rw [tabWf_iff] at ht ⊢
  refine ⟨?_, ?_⟩
  · rw [List.pairwise_append, List.pairwise_append]
    refine ⟨⟨ht.1.sublist List.filter_sublist, hf, ?_⟩, ht.1.sublist List.filter_sublist, ?_⟩
    · intro a ha b hb
      have := (hr b hb).1
      have := List.of_mem_filter ha
      simp only [decide_eq_true_eq] at this
      omega
    · intro a ha b hb
      have h1 := List.of_mem_filter hb
      simp only [decide_eq_true_eq] at h1
      rcases List.mem_append.1 ha with ha | ha
      · have h2 := List.of_mem_filter ha
        simp only [decide_eq_true_eq] at h2
        omega
      · have := (hr a ha).2
        omega
  · intro e he
    rcases List.mem_append.1 he with he | he
    · rcases List.mem_append.1 he with he | he
      · exact ht.2 e (List.mem_of_mem_filter he)
      · exact hd e he
    · exact ht.2 e (List.mem_of_mem_filter he)

/-- Every write of bytes keeps the canonical form of a memory. -/
theorem memWrite_wf (fill : Byte) (m : Mem) (a : Nat) (bs : List Byte) (hm : memWf fill m = true) :
    memWf fill (memWrite fill m a bs) = true := by
  induction bs generalizing m a with
  | nil => exact hm
  | cons b r ih => exact ih _ _ (tabSet_wf fill m a b hm)

/-- A read of one byte after a write of bytes at rising addresses. -/
@[simp] theorem tabGet_memWrite (fill : Byte) (m : Mem) (a : Nat) (bs : List Byte) (j : Nat) :
    tabGet fill (memWrite fill m a bs) j = if a ≤ j ∧ j < a + bs.length then bs.getD (j - a) fill else tabGet fill m j := by
  induction bs generalizing m a with
  | nil =>
    simp [memWrite]
  | cons b r ih =>
    simp only [memWrite, ih, tabGet_tabSet, List.length_cons]
    by_cases h1 : a = j
    · subst h1
      have h3 : a ≤ a ∧ a < a + (r.length + 1) := by omega
      simp [h3]
    · by_cases h2 : a ≤ j ∧ j < a + (r.length + 1)
      · have h3 : a + 1 ≤ j ∧ j < a + 1 + r.length := by omega
        have h4 : j - a = (j - (a + 1)) + 1 := by omega
        rw [if_pos h3, if_pos h2, h4, List.getD_cons_succ]
      · have h3 : ¬ (a + 1 ≤ j ∧ j < a + 1 + r.length) := by omega
        rw [if_neg h3, if_neg h1, if_neg h2]

end Sys2Proof.Machine
end

