-- ==== Sys2Proof/Laws/State.lean ====
section
/-! SUPPORT. The small lemmas of the state's updates: one for each field of the state and each update, true by rfl, and what a register
reads after a write. -/

namespace Sys2Proof.Machine

variable (s : State)

@[simp] theorem State.withFabric_clocks (f : Fabric → Fabric) : (s.withFabric f).clocks = s.clocks := rfl
@[simp] theorem State.withFabric_regs (f : Fabric → Fabric) : (s.withFabric f).regs = s.regs := rfl
@[simp] theorem State.withFabric_ports (f : Fabric → Fabric) : (s.withFabric f).ports = s.ports := rfl
@[simp] theorem State.withFabric_cavs (f : Fabric → Fabric) : (s.withFabric f).cavs = s.cavs := rfl
@[simp] theorem State.withFabric_cfg (f : Fabric → Fabric) : (s.withFabric f).cfg = s.cfg := rfl
@[simp] theorem State.withFabric_conf (f : Fabric → Fabric) : (s.withFabric f).conf = s.conf := rfl
@[simp] theorem State.withFabric_fabric (f : Fabric → Fabric) : (s.withFabric f).fabric = f s.fabric := rfl
@[simp] theorem State.withFabric_pockets (f : Fabric → Fabric) : (s.withFabric f).pockets = s.pockets := rfl
@[simp] theorem State.withFabric_crushers (f : Fabric → Fabric) : (s.withFabric f).crushers = s.crushers := rfl
@[simp] theorem State.withFabric_sump (f : Fabric → Fabric) : (s.withFabric f).sump = s.sump := rfl
@[simp] theorem State.withFabric_portals (f : Fabric → Fabric) : (s.withFabric f).portals = s.portals := rfl
@[simp] theorem State.withFabric_crossings (f : Fabric → Fabric) : (s.withFabric f).crossings = s.crossings := rfl
@[simp] theorem State.withFabric_haul (f : Fabric → Fabric) : (s.withFabric f).haul = s.haul := rfl
@[simp] theorem State.withFabric_lanes (f : Fabric → Fabric) : (s.withFabric f).lanes = s.lanes := rfl
@[simp] theorem State.withFabric_foreman (f : Fabric → Fabric) : (s.withFabric f).foreman = s.foreman := rfl
@[simp] theorem State.withFabric_history (f : Fabric → Fabric) : (s.withFabric f).history = s.history := rfl
@[simp] theorem State.withFabric_flog (f : Fabric → Fabric) : (s.withFabric f).flog = s.flog := rfl
@[simp] theorem State.withFabric_power (f : Fabric → Fabric) : (s.withFabric f).power = s.power := rfl
@[simp] theorem State.withFabric_patrol (f : Fabric → Fabric) : (s.withFabric f).patrol = s.patrol := rfl
@[simp] theorem State.withFabric_pins (f : Fabric → Fabric) : (s.withFabric f).pins = s.pins := rfl
@[simp] theorem State.withFabric_jtag (f : Fabric → Fabric) : (s.withFabric f).jtag = s.jtag := rfl
@[simp] theorem State.withFabric_test (f : Fabric → Fabric) : (s.withFabric f).test = s.test := rfl
@[simp] theorem State.withFabric_fresh (f : Fabric → Fabric) : (s.withFabric f).fresh = s.fresh := rfl
@[simp] theorem State.withFabric_freeCtr (f : Fabric → Fabric) : (s.withFabric f).freeCtr = s.freeCtr := rfl
@[simp] theorem State.withFabric_pending (f : Fabric → Fabric) : (s.withFabric f).pending = s.pending := rfl

@[simp] theorem State.modCav_clocks (c : Nat) (f : Cavern → Cavern) : (s.modCav c f).clocks = s.clocks := rfl
@[simp] theorem State.modCav_regs (c : Nat) (f : Cavern → Cavern) : (s.modCav c f).regs = s.regs := rfl
@[simp] theorem State.modCav_ports (c : Nat) (f : Cavern → Cavern) : (s.modCav c f).ports = s.ports := rfl
@[simp] theorem State.modCav_cavs (c : Nat) (f : Cavern → Cavern) : (s.modCav c f).cavs = tabMod {} s.cavs c f := rfl
@[simp] theorem State.modCav_cfg (c : Nat) (f : Cavern → Cavern) : (s.modCav c f).cfg = s.cfg := rfl
@[simp] theorem State.modCav_conf (c : Nat) (f : Cavern → Cavern) : (s.modCav c f).conf = s.conf := rfl
@[simp] theorem State.modCav_fabric (c : Nat) (f : Cavern → Cavern) : (s.modCav c f).fabric = s.fabric := rfl
@[simp] theorem State.modCav_pockets (c : Nat) (f : Cavern → Cavern) : (s.modCav c f).pockets = s.pockets := rfl
@[simp] theorem State.modCav_crushers (c : Nat) (f : Cavern → Cavern) : (s.modCav c f).crushers = s.crushers := rfl
@[simp] theorem State.modCav_sump (c : Nat) (f : Cavern → Cavern) : (s.modCav c f).sump = s.sump := rfl
@[simp] theorem State.modCav_portals (c : Nat) (f : Cavern → Cavern) : (s.modCav c f).portals = s.portals := rfl
@[simp] theorem State.modCav_crossings (c : Nat) (f : Cavern → Cavern) : (s.modCav c f).crossings = s.crossings := rfl
@[simp] theorem State.modCav_haul (c : Nat) (f : Cavern → Cavern) : (s.modCav c f).haul = s.haul := rfl
@[simp] theorem State.modCav_lanes (c : Nat) (f : Cavern → Cavern) : (s.modCav c f).lanes = s.lanes := rfl
@[simp] theorem State.modCav_foreman (c : Nat) (f : Cavern → Cavern) : (s.modCav c f).foreman = s.foreman := rfl
@[simp] theorem State.modCav_history (c : Nat) (f : Cavern → Cavern) : (s.modCav c f).history = s.history := rfl
@[simp] theorem State.modCav_flog (c : Nat) (f : Cavern → Cavern) : (s.modCav c f).flog = s.flog := rfl
@[simp] theorem State.modCav_power (c : Nat) (f : Cavern → Cavern) : (s.modCav c f).power = s.power := rfl
@[simp] theorem State.modCav_patrol (c : Nat) (f : Cavern → Cavern) : (s.modCav c f).patrol = s.patrol := rfl
@[simp] theorem State.modCav_pins (c : Nat) (f : Cavern → Cavern) : (s.modCav c f).pins = s.pins := rfl
@[simp] theorem State.modCav_jtag (c : Nat) (f : Cavern → Cavern) : (s.modCav c f).jtag = s.jtag := rfl
@[simp] theorem State.modCav_test (c : Nat) (f : Cavern → Cavern) : (s.modCav c f).test = s.test := rfl
@[simp] theorem State.modCav_fresh (c : Nat) (f : Cavern → Cavern) : (s.modCav c f).fresh = s.fresh := rfl
@[simp] theorem State.modCav_freeCtr (c : Nat) (f : Cavern → Cavern) : (s.modCav c f).freeCtr = s.freeCtr := rfl
@[simp] theorem State.modCav_pending (c : Nat) (f : Cavern → Cavern) : (s.modCav c f).pending = s.pending := rfl

@[simp] theorem State.withPower_clocks (f : Power → Power) : (s.withPower f).clocks = s.clocks := rfl
@[simp] theorem State.withPower_regs (f : Power → Power) : (s.withPower f).regs = s.regs := rfl
@[simp] theorem State.withPower_ports (f : Power → Power) : (s.withPower f).ports = s.ports := rfl
@[simp] theorem State.withPower_cavs (f : Power → Power) : (s.withPower f).cavs = s.cavs := rfl
@[simp] theorem State.withPower_cfg (f : Power → Power) : (s.withPower f).cfg = s.cfg := rfl
@[simp] theorem State.withPower_conf (f : Power → Power) : (s.withPower f).conf = s.conf := rfl
@[simp] theorem State.withPower_fabric (f : Power → Power) : (s.withPower f).fabric = s.fabric := rfl
@[simp] theorem State.withPower_pockets (f : Power → Power) : (s.withPower f).pockets = s.pockets := rfl
@[simp] theorem State.withPower_crushers (f : Power → Power) : (s.withPower f).crushers = s.crushers := rfl
@[simp] theorem State.withPower_sump (f : Power → Power) : (s.withPower f).sump = s.sump := rfl
@[simp] theorem State.withPower_portals (f : Power → Power) : (s.withPower f).portals = s.portals := rfl
@[simp] theorem State.withPower_crossings (f : Power → Power) : (s.withPower f).crossings = s.crossings := rfl
@[simp] theorem State.withPower_haul (f : Power → Power) : (s.withPower f).haul = s.haul := rfl
@[simp] theorem State.withPower_lanes (f : Power → Power) : (s.withPower f).lanes = s.lanes := rfl
@[simp] theorem State.withPower_foreman (f : Power → Power) : (s.withPower f).foreman = s.foreman := rfl
@[simp] theorem State.withPower_history (f : Power → Power) : (s.withPower f).history = s.history := rfl
@[simp] theorem State.withPower_flog (f : Power → Power) : (s.withPower f).flog = s.flog := rfl
@[simp] theorem State.withPower_power (f : Power → Power) : (s.withPower f).power = f s.power := rfl
@[simp] theorem State.withPower_patrol (f : Power → Power) : (s.withPower f).patrol = s.patrol := rfl
@[simp] theorem State.withPower_pins (f : Power → Power) : (s.withPower f).pins = s.pins := rfl
@[simp] theorem State.withPower_jtag (f : Power → Power) : (s.withPower f).jtag = s.jtag := rfl
@[simp] theorem State.withPower_test (f : Power → Power) : (s.withPower f).test = s.test := rfl
@[simp] theorem State.withPower_fresh (f : Power → Power) : (s.withPower f).fresh = s.fresh := rfl
@[simp] theorem State.withPower_freeCtr (f : Power → Power) : (s.withPower f).freeCtr = s.freeCtr := rfl
@[simp] theorem State.withPower_pending (f : Power → Power) : (s.withPower f).pending = s.pending := rfl

@[simp] theorem State.withConf_clocks (f : Conf → Conf) : (s.withConf f).clocks = s.clocks := rfl
@[simp] theorem State.withConf_regs (f : Conf → Conf) : (s.withConf f).regs = s.regs := rfl
@[simp] theorem State.withConf_ports (f : Conf → Conf) : (s.withConf f).ports = s.ports := rfl
@[simp] theorem State.withConf_cavs (f : Conf → Conf) : (s.withConf f).cavs = s.cavs := rfl
@[simp] theorem State.withConf_cfg (f : Conf → Conf) : (s.withConf f).cfg = s.cfg := rfl
@[simp] theorem State.withConf_conf (f : Conf → Conf) : (s.withConf f).conf = f s.conf := rfl
@[simp] theorem State.withConf_fabric (f : Conf → Conf) : (s.withConf f).fabric = s.fabric := rfl
@[simp] theorem State.withConf_pockets (f : Conf → Conf) : (s.withConf f).pockets = s.pockets := rfl
@[simp] theorem State.withConf_crushers (f : Conf → Conf) : (s.withConf f).crushers = s.crushers := rfl
@[simp] theorem State.withConf_sump (f : Conf → Conf) : (s.withConf f).sump = s.sump := rfl
@[simp] theorem State.withConf_portals (f : Conf → Conf) : (s.withConf f).portals = s.portals := rfl
@[simp] theorem State.withConf_crossings (f : Conf → Conf) : (s.withConf f).crossings = s.crossings := rfl
@[simp] theorem State.withConf_haul (f : Conf → Conf) : (s.withConf f).haul = s.haul := rfl
@[simp] theorem State.withConf_lanes (f : Conf → Conf) : (s.withConf f).lanes = s.lanes := rfl
@[simp] theorem State.withConf_foreman (f : Conf → Conf) : (s.withConf f).foreman = s.foreman := rfl
@[simp] theorem State.withConf_history (f : Conf → Conf) : (s.withConf f).history = s.history := rfl
@[simp] theorem State.withConf_flog (f : Conf → Conf) : (s.withConf f).flog = s.flog := rfl
@[simp] theorem State.withConf_power (f : Conf → Conf) : (s.withConf f).power = s.power := rfl
@[simp] theorem State.withConf_patrol (f : Conf → Conf) : (s.withConf f).patrol = s.patrol := rfl
@[simp] theorem State.withConf_pins (f : Conf → Conf) : (s.withConf f).pins = s.pins := rfl
@[simp] theorem State.withConf_jtag (f : Conf → Conf) : (s.withConf f).jtag = s.jtag := rfl
@[simp] theorem State.withConf_test (f : Conf → Conf) : (s.withConf f).test = s.test := rfl
@[simp] theorem State.withConf_fresh (f : Conf → Conf) : (s.withConf f).fresh = s.fresh := rfl
@[simp] theorem State.withConf_freeCtr (f : Conf → Conf) : (s.withConf f).freeCtr = s.freeCtr := rfl
@[simp] theorem State.withConf_pending (f : Conf → Conf) : (s.withConf f).pending = s.pending := rfl

@[simp] theorem State.withForeman_clocks (f : Foreman → Foreman) : (s.withForeman f).clocks = s.clocks := rfl
@[simp] theorem State.withForeman_regs (f : Foreman → Foreman) : (s.withForeman f).regs = s.regs := rfl
@[simp] theorem State.withForeman_ports (f : Foreman → Foreman) : (s.withForeman f).ports = s.ports := rfl
@[simp] theorem State.withForeman_cavs (f : Foreman → Foreman) : (s.withForeman f).cavs = s.cavs := rfl
@[simp] theorem State.withForeman_cfg (f : Foreman → Foreman) : (s.withForeman f).cfg = s.cfg := rfl
@[simp] theorem State.withForeman_conf (f : Foreman → Foreman) : (s.withForeman f).conf = s.conf := rfl
@[simp] theorem State.withForeman_fabric (f : Foreman → Foreman) : (s.withForeman f).fabric = s.fabric := rfl
@[simp] theorem State.withForeman_pockets (f : Foreman → Foreman) : (s.withForeman f).pockets = s.pockets := rfl
@[simp] theorem State.withForeman_crushers (f : Foreman → Foreman) : (s.withForeman f).crushers = s.crushers := rfl
@[simp] theorem State.withForeman_sump (f : Foreman → Foreman) : (s.withForeman f).sump = s.sump := rfl
@[simp] theorem State.withForeman_portals (f : Foreman → Foreman) : (s.withForeman f).portals = s.portals := rfl
@[simp] theorem State.withForeman_crossings (f : Foreman → Foreman) : (s.withForeman f).crossings = s.crossings := rfl
@[simp] theorem State.withForeman_haul (f : Foreman → Foreman) : (s.withForeman f).haul = s.haul := rfl
@[simp] theorem State.withForeman_lanes (f : Foreman → Foreman) : (s.withForeman f).lanes = s.lanes := rfl
@[simp] theorem State.withForeman_foreman (f : Foreman → Foreman) : (s.withForeman f).foreman = f s.foreman := rfl
@[simp] theorem State.withForeman_history (f : Foreman → Foreman) : (s.withForeman f).history = s.history := rfl
@[simp] theorem State.withForeman_flog (f : Foreman → Foreman) : (s.withForeman f).flog = s.flog := rfl
@[simp] theorem State.withForeman_power (f : Foreman → Foreman) : (s.withForeman f).power = s.power := rfl
@[simp] theorem State.withForeman_patrol (f : Foreman → Foreman) : (s.withForeman f).patrol = s.patrol := rfl
@[simp] theorem State.withForeman_pins (f : Foreman → Foreman) : (s.withForeman f).pins = s.pins := rfl
@[simp] theorem State.withForeman_jtag (f : Foreman → Foreman) : (s.withForeman f).jtag = s.jtag := rfl
@[simp] theorem State.withForeman_test (f : Foreman → Foreman) : (s.withForeman f).test = s.test := rfl
@[simp] theorem State.withForeman_fresh (f : Foreman → Foreman) : (s.withForeman f).fresh = s.fresh := rfl
@[simp] theorem State.withForeman_freeCtr (f : Foreman → Foreman) : (s.withForeman f).freeCtr = s.freeCtr := rfl
@[simp] theorem State.withForeman_pending (f : Foreman → Foreman) : (s.withForeman f).pending = s.pending := rfl

@[simp] theorem State.modMbox_clocks (m : Nat) (f : Mbox → Mbox) : (s.modMbox m f).clocks = s.clocks := rfl
@[simp] theorem State.modMbox_regs (m : Nat) (f : Mbox → Mbox) : (s.modMbox m f).regs = s.regs := rfl
@[simp] theorem State.modMbox_ports (m : Nat) (f : Mbox → Mbox) : (s.modMbox m f).ports = s.ports := rfl
@[simp] theorem State.modMbox_cavs (m : Nat) (f : Mbox → Mbox) : (s.modMbox m f).cavs = s.cavs := rfl
@[simp] theorem State.modMbox_cfg (m : Nat) (f : Mbox → Mbox) : (s.modMbox m f).cfg = s.cfg := rfl
@[simp] theorem State.modMbox_conf (m : Nat) (f : Mbox → Mbox) : (s.modMbox m f).conf = s.conf := rfl
@[simp] theorem State.modMbox_fabric (m : Nat) (f : Mbox → Mbox) : (s.modMbox m f).fabric = s.fabric := rfl
@[simp] theorem State.modMbox_pockets (m : Nat) (f : Mbox → Mbox) : (s.modMbox m f).pockets = s.pockets := rfl
@[simp] theorem State.modMbox_crushers (m : Nat) (f : Mbox → Mbox) : (s.modMbox m f).crushers = s.crushers := rfl
@[simp] theorem State.modMbox_sump (m : Nat) (f : Mbox → Mbox) : (s.modMbox m f).sump = s.sump := rfl
@[simp] theorem State.modMbox_portals (m : Nat) (f : Mbox → Mbox) : (s.modMbox m f).portals = s.portals := rfl
@[simp] theorem State.modMbox_crossings (m : Nat) (f : Mbox → Mbox) : (s.modMbox m f).crossings = s.crossings := rfl
@[simp] theorem State.modMbox_haul (m : Nat) (f : Mbox → Mbox) : (s.modMbox m f).haul = s.haul := rfl
@[simp] theorem State.modMbox_lanes (m : Nat) (f : Mbox → Mbox) : (s.modMbox m f).lanes = s.lanes := rfl
@[simp] theorem State.modMbox_foreman (m : Nat) (f : Mbox → Mbox) : (s.modMbox m f).foreman = { s.foreman with mbox := tabMod {} s.foreman.mbox m f } := rfl
@[simp] theorem State.modMbox_history (m : Nat) (f : Mbox → Mbox) : (s.modMbox m f).history = s.history := rfl
@[simp] theorem State.modMbox_flog (m : Nat) (f : Mbox → Mbox) : (s.modMbox m f).flog = s.flog := rfl
@[simp] theorem State.modMbox_power (m : Nat) (f : Mbox → Mbox) : (s.modMbox m f).power = s.power := rfl
@[simp] theorem State.modMbox_patrol (m : Nat) (f : Mbox → Mbox) : (s.modMbox m f).patrol = s.patrol := rfl
@[simp] theorem State.modMbox_pins (m : Nat) (f : Mbox → Mbox) : (s.modMbox m f).pins = s.pins := rfl
@[simp] theorem State.modMbox_jtag (m : Nat) (f : Mbox → Mbox) : (s.modMbox m f).jtag = s.jtag := rfl
@[simp] theorem State.modMbox_test (m : Nat) (f : Mbox → Mbox) : (s.modMbox m f).test = s.test := rfl
@[simp] theorem State.modMbox_fresh (m : Nat) (f : Mbox → Mbox) : (s.modMbox m f).fresh = s.fresh := rfl
@[simp] theorem State.modMbox_freeCtr (m : Nat) (f : Mbox → Mbox) : (s.modMbox m f).freeCtr = s.freeCtr := rfl
@[simp] theorem State.modMbox_pending (m : Nat) (f : Mbox → Mbox) : (s.modMbox m f).pending = s.pending := rfl

@[simp] theorem State.modPortal_clocks (p : Nat) (f : Portal → Portal) : (s.modPortal p f).clocks = s.clocks := rfl
@[simp] theorem State.modPortal_regs (p : Nat) (f : Portal → Portal) : (s.modPortal p f).regs = s.regs := rfl
@[simp] theorem State.modPortal_ports (p : Nat) (f : Portal → Portal) : (s.modPortal p f).ports = s.ports := rfl
@[simp] theorem State.modPortal_cavs (p : Nat) (f : Portal → Portal) : (s.modPortal p f).cavs = s.cavs := rfl
@[simp] theorem State.modPortal_cfg (p : Nat) (f : Portal → Portal) : (s.modPortal p f).cfg = s.cfg := rfl
@[simp] theorem State.modPortal_conf (p : Nat) (f : Portal → Portal) : (s.modPortal p f).conf = s.conf := rfl
@[simp] theorem State.modPortal_fabric (p : Nat) (f : Portal → Portal) : (s.modPortal p f).fabric = s.fabric := rfl
@[simp] theorem State.modPortal_pockets (p : Nat) (f : Portal → Portal) : (s.modPortal p f).pockets = s.pockets := rfl
@[simp] theorem State.modPortal_crushers (p : Nat) (f : Portal → Portal) : (s.modPortal p f).crushers = s.crushers := rfl
@[simp] theorem State.modPortal_sump (p : Nat) (f : Portal → Portal) : (s.modPortal p f).sump = s.sump := rfl
@[simp] theorem State.modPortal_portals (p : Nat) (f : Portal → Portal) : (s.modPortal p f).portals = tabMod {} s.portals p f := rfl
@[simp] theorem State.modPortal_crossings (p : Nat) (f : Portal → Portal) : (s.modPortal p f).crossings = s.crossings := rfl
@[simp] theorem State.modPortal_haul (p : Nat) (f : Portal → Portal) : (s.modPortal p f).haul = s.haul := rfl
@[simp] theorem State.modPortal_lanes (p : Nat) (f : Portal → Portal) : (s.modPortal p f).lanes = s.lanes := rfl
@[simp] theorem State.modPortal_foreman (p : Nat) (f : Portal → Portal) : (s.modPortal p f).foreman = s.foreman := rfl
@[simp] theorem State.modPortal_history (p : Nat) (f : Portal → Portal) : (s.modPortal p f).history = s.history := rfl
@[simp] theorem State.modPortal_flog (p : Nat) (f : Portal → Portal) : (s.modPortal p f).flog = s.flog := rfl
@[simp] theorem State.modPortal_power (p : Nat) (f : Portal → Portal) : (s.modPortal p f).power = s.power := rfl
@[simp] theorem State.modPortal_patrol (p : Nat) (f : Portal → Portal) : (s.modPortal p f).patrol = s.patrol := rfl
@[simp] theorem State.modPortal_pins (p : Nat) (f : Portal → Portal) : (s.modPortal p f).pins = s.pins := rfl
@[simp] theorem State.modPortal_jtag (p : Nat) (f : Portal → Portal) : (s.modPortal p f).jtag = s.jtag := rfl
@[simp] theorem State.modPortal_test (p : Nat) (f : Portal → Portal) : (s.modPortal p f).test = s.test := rfl
@[simp] theorem State.modPortal_fresh (p : Nat) (f : Portal → Portal) : (s.modPortal p f).fresh = s.fresh := rfl
@[simp] theorem State.modPortal_freeCtr (p : Nat) (f : Portal → Portal) : (s.modPortal p f).freeCtr = s.freeCtr := rfl
@[simp] theorem State.modPortal_pending (p : Nat) (f : Portal → Portal) : (s.modPortal p f).pending = s.pending := rfl

@[simp] theorem State.modPort_clocks (p : HostPort) (f : PortBank → PortBank) : (s.modPort p f).clocks = s.clocks := rfl
@[simp] theorem State.modPort_regs (p : HostPort) (f : PortBank → PortBank) : (s.modPort p f).regs = s.regs := rfl
@[simp] theorem State.modPort_cavs (p : HostPort) (f : PortBank → PortBank) : (s.modPort p f).cavs = s.cavs := rfl
@[simp] theorem State.modPort_cfg (p : HostPort) (f : PortBank → PortBank) : (s.modPort p f).cfg = s.cfg := rfl
@[simp] theorem State.modPort_conf (p : HostPort) (f : PortBank → PortBank) : (s.modPort p f).conf = s.conf := rfl
@[simp] theorem State.modPort_fabric (p : HostPort) (f : PortBank → PortBank) : (s.modPort p f).fabric = s.fabric := rfl
@[simp] theorem State.modPort_pockets (p : HostPort) (f : PortBank → PortBank) : (s.modPort p f).pockets = s.pockets := rfl
@[simp] theorem State.modPort_crushers (p : HostPort) (f : PortBank → PortBank) : (s.modPort p f).crushers = s.crushers := rfl
@[simp] theorem State.modPort_sump (p : HostPort) (f : PortBank → PortBank) : (s.modPort p f).sump = s.sump := rfl
@[simp] theorem State.modPort_portals (p : HostPort) (f : PortBank → PortBank) : (s.modPort p f).portals = s.portals := rfl
@[simp] theorem State.modPort_crossings (p : HostPort) (f : PortBank → PortBank) : (s.modPort p f).crossings = s.crossings := rfl
@[simp] theorem State.modPort_haul (p : HostPort) (f : PortBank → PortBank) : (s.modPort p f).haul = s.haul := rfl
@[simp] theorem State.modPort_lanes (p : HostPort) (f : PortBank → PortBank) : (s.modPort p f).lanes = s.lanes := rfl
@[simp] theorem State.modPort_foreman (p : HostPort) (f : PortBank → PortBank) : (s.modPort p f).foreman = s.foreman := rfl
@[simp] theorem State.modPort_history (p : HostPort) (f : PortBank → PortBank) : (s.modPort p f).history = s.history := rfl
@[simp] theorem State.modPort_flog (p : HostPort) (f : PortBank → PortBank) : (s.modPort p f).flog = s.flog := rfl
@[simp] theorem State.modPort_power (p : HostPort) (f : PortBank → PortBank) : (s.modPort p f).power = s.power := rfl
@[simp] theorem State.modPort_patrol (p : HostPort) (f : PortBank → PortBank) : (s.modPort p f).patrol = s.patrol := rfl
@[simp] theorem State.modPort_pins (p : HostPort) (f : PortBank → PortBank) : (s.modPort p f).pins = s.pins := rfl
@[simp] theorem State.modPort_jtag (p : HostPort) (f : PortBank → PortBank) : (s.modPort p f).jtag = s.jtag := rfl
@[simp] theorem State.modPort_test (p : HostPort) (f : PortBank → PortBank) : (s.modPort p f).test = s.test := rfl
@[simp] theorem State.modPort_fresh (p : HostPort) (f : PortBank → PortBank) : (s.modPort p f).fresh = s.fresh := rfl
@[simp] theorem State.modPort_freeCtr (p : HostPort) (f : PortBank → PortBank) : (s.modPort p f).freeCtr = s.freeCtr := rfl
@[simp] theorem State.modPort_pending (p : HostPort) (f : PortBank → PortBank) : (s.modPort p f).pending = s.pending := rfl

@[simp] theorem State.setAttIn_clocks (a : Nat) (v : InAtt) : (s.setAttIn a v).clocks = s.clocks := rfl
@[simp] theorem State.setAttIn_regs (a : Nat) (v : InAtt) : (s.setAttIn a v).regs = s.regs := rfl
@[simp] theorem State.setAttIn_ports (a : Nat) (v : InAtt) : (s.setAttIn a v).ports = s.ports := rfl
@[simp] theorem State.setAttIn_cavs (a : Nat) (v : InAtt) : (s.setAttIn a v).cavs = s.cavs := rfl
@[simp] theorem State.setAttIn_cfg (a : Nat) (v : InAtt) : (s.setAttIn a v).cfg = s.cfg := rfl
@[simp] theorem State.setAttIn_conf (a : Nat) (v : InAtt) : (s.setAttIn a v).conf = s.conf := rfl
@[simp] theorem State.setAttIn_fabric (a : Nat) (v : InAtt) : (s.setAttIn a v).fabric = { s.fabric with attIn := tabSet {} s.fabric.attIn a v } := rfl
@[simp] theorem State.setAttIn_pockets (a : Nat) (v : InAtt) : (s.setAttIn a v).pockets = s.pockets := rfl
@[simp] theorem State.setAttIn_crushers (a : Nat) (v : InAtt) : (s.setAttIn a v).crushers = s.crushers := rfl
@[simp] theorem State.setAttIn_sump (a : Nat) (v : InAtt) : (s.setAttIn a v).sump = s.sump := rfl
@[simp] theorem State.setAttIn_portals (a : Nat) (v : InAtt) : (s.setAttIn a v).portals = s.portals := rfl
@[simp] theorem State.setAttIn_crossings (a : Nat) (v : InAtt) : (s.setAttIn a v).crossings = s.crossings := rfl
@[simp] theorem State.setAttIn_haul (a : Nat) (v : InAtt) : (s.setAttIn a v).haul = s.haul := rfl
@[simp] theorem State.setAttIn_lanes (a : Nat) (v : InAtt) : (s.setAttIn a v).lanes = s.lanes := rfl
@[simp] theorem State.setAttIn_foreman (a : Nat) (v : InAtt) : (s.setAttIn a v).foreman = s.foreman := rfl
@[simp] theorem State.setAttIn_history (a : Nat) (v : InAtt) : (s.setAttIn a v).history = s.history := rfl
@[simp] theorem State.setAttIn_flog (a : Nat) (v : InAtt) : (s.setAttIn a v).flog = s.flog := rfl
@[simp] theorem State.setAttIn_power (a : Nat) (v : InAtt) : (s.setAttIn a v).power = s.power := rfl
@[simp] theorem State.setAttIn_patrol (a : Nat) (v : InAtt) : (s.setAttIn a v).patrol = s.patrol := rfl
@[simp] theorem State.setAttIn_pins (a : Nat) (v : InAtt) : (s.setAttIn a v).pins = s.pins := rfl
@[simp] theorem State.setAttIn_jtag (a : Nat) (v : InAtt) : (s.setAttIn a v).jtag = s.jtag := rfl
@[simp] theorem State.setAttIn_test (a : Nat) (v : InAtt) : (s.setAttIn a v).test = s.test := rfl
@[simp] theorem State.setAttIn_fresh (a : Nat) (v : InAtt) : (s.setAttIn a v).fresh = s.fresh := rfl
@[simp] theorem State.setAttIn_freeCtr (a : Nat) (v : InAtt) : (s.setAttIn a v).freeCtr = s.freeCtr := rfl
@[simp] theorem State.setAttIn_pending (a : Nat) (v : InAtt) : (s.setAttIn a v).pending = s.pending := rfl

@[simp] theorem State.setAttAck_clocks (a : Nat) (b : Bool) : (s.setAttAck a b).clocks = s.clocks := rfl
@[simp] theorem State.setAttAck_regs (a : Nat) (b : Bool) : (s.setAttAck a b).regs = s.regs := rfl
@[simp] theorem State.setAttAck_ports (a : Nat) (b : Bool) : (s.setAttAck a b).ports = s.ports := rfl
@[simp] theorem State.setAttAck_cavs (a : Nat) (b : Bool) : (s.setAttAck a b).cavs = s.cavs := rfl
@[simp] theorem State.setAttAck_cfg (a : Nat) (b : Bool) : (s.setAttAck a b).cfg = s.cfg := rfl
@[simp] theorem State.setAttAck_conf (a : Nat) (b : Bool) : (s.setAttAck a b).conf = s.conf := rfl
@[simp] theorem State.setAttAck_fabric (a : Nat) (b : Bool) : (s.setAttAck a b).fabric = { s.fabric with attAck := tabSet false s.fabric.attAck a b } := rfl
@[simp] theorem State.setAttAck_pockets (a : Nat) (b : Bool) : (s.setAttAck a b).pockets = s.pockets := rfl
@[simp] theorem State.setAttAck_crushers (a : Nat) (b : Bool) : (s.setAttAck a b).crushers = s.crushers := rfl
@[simp] theorem State.setAttAck_sump (a : Nat) (b : Bool) : (s.setAttAck a b).sump = s.sump := rfl
@[simp] theorem State.setAttAck_portals (a : Nat) (b : Bool) : (s.setAttAck a b).portals = s.portals := rfl
@[simp] theorem State.setAttAck_crossings (a : Nat) (b : Bool) : (s.setAttAck a b).crossings = s.crossings := rfl
@[simp] theorem State.setAttAck_haul (a : Nat) (b : Bool) : (s.setAttAck a b).haul = s.haul := rfl
@[simp] theorem State.setAttAck_lanes (a : Nat) (b : Bool) : (s.setAttAck a b).lanes = s.lanes := rfl
@[simp] theorem State.setAttAck_foreman (a : Nat) (b : Bool) : (s.setAttAck a b).foreman = s.foreman := rfl
@[simp] theorem State.setAttAck_history (a : Nat) (b : Bool) : (s.setAttAck a b).history = s.history := rfl
@[simp] theorem State.setAttAck_flog (a : Nat) (b : Bool) : (s.setAttAck a b).flog = s.flog := rfl
@[simp] theorem State.setAttAck_power (a : Nat) (b : Bool) : (s.setAttAck a b).power = s.power := rfl
@[simp] theorem State.setAttAck_patrol (a : Nat) (b : Bool) : (s.setAttAck a b).patrol = s.patrol := rfl
@[simp] theorem State.setAttAck_pins (a : Nat) (b : Bool) : (s.setAttAck a b).pins = s.pins := rfl
@[simp] theorem State.setAttAck_jtag (a : Nat) (b : Bool) : (s.setAttAck a b).jtag = s.jtag := rfl
@[simp] theorem State.setAttAck_test (a : Nat) (b : Bool) : (s.setAttAck a b).test = s.test := rfl
@[simp] theorem State.setAttAck_fresh (a : Nat) (b : Bool) : (s.setAttAck a b).fresh = s.fresh := rfl
@[simp] theorem State.setAttAck_freeCtr (a : Nat) (b : Bool) : (s.setAttAck a b).freeCtr = s.freeCtr := rfl
@[simp] theorem State.setAttAck_pending (a : Nat) (b : Bool) : (s.setAttAck a b).pending = s.pending := rfl

@[simp] theorem State.modPin_clocks (b n : Nat) (f : Pin → Pin) : (s.modPin b n f).clocks = s.clocks := rfl
@[simp] theorem State.modPin_regs (b n : Nat) (f : Pin → Pin) : (s.modPin b n f).regs = s.regs := rfl
@[simp] theorem State.modPin_ports (b n : Nat) (f : Pin → Pin) : (s.modPin b n f).ports = s.ports := rfl
@[simp] theorem State.modPin_cavs (b n : Nat) (f : Pin → Pin) : (s.modPin b n f).cavs = s.cavs := rfl
@[simp] theorem State.modPin_cfg (b n : Nat) (f : Pin → Pin) : (s.modPin b n f).cfg = s.cfg := rfl
@[simp] theorem State.modPin_conf (b n : Nat) (f : Pin → Pin) : (s.modPin b n f).conf = s.conf := rfl
@[simp] theorem State.modPin_fabric (b n : Nat) (f : Pin → Pin) : (s.modPin b n f).fabric = s.fabric := rfl
@[simp] theorem State.modPin_pockets (b n : Nat) (f : Pin → Pin) : (s.modPin b n f).pockets = s.pockets := rfl
@[simp] theorem State.modPin_crushers (b n : Nat) (f : Pin → Pin) : (s.modPin b n f).crushers = s.crushers := rfl
@[simp] theorem State.modPin_sump (b n : Nat) (f : Pin → Pin) : (s.modPin b n f).sump = s.sump := rfl
@[simp] theorem State.modPin_portals (b n : Nat) (f : Pin → Pin) : (s.modPin b n f).portals = s.portals := rfl
@[simp] theorem State.modPin_crossings (b n : Nat) (f : Pin → Pin) : (s.modPin b n f).crossings = s.crossings := rfl
@[simp] theorem State.modPin_haul (b n : Nat) (f : Pin → Pin) : (s.modPin b n f).haul = s.haul := rfl
@[simp] theorem State.modPin_lanes (b n : Nat) (f : Pin → Pin) : (s.modPin b n f).lanes = s.lanes := rfl
@[simp] theorem State.modPin_foreman (b n : Nat) (f : Pin → Pin) : (s.modPin b n f).foreman = s.foreman := rfl
@[simp] theorem State.modPin_history (b n : Nat) (f : Pin → Pin) : (s.modPin b n f).history = s.history := rfl
@[simp] theorem State.modPin_flog (b n : Nat) (f : Pin → Pin) : (s.modPin b n f).flog = s.flog := rfl
@[simp] theorem State.modPin_power (b n : Nat) (f : Pin → Pin) : (s.modPin b n f).power = s.power := rfl
@[simp] theorem State.modPin_patrol (b n : Nat) (f : Pin → Pin) : (s.modPin b n f).patrol = s.patrol := rfl
@[simp] theorem State.modPin_pins (b n : Nat) (f : Pin → Pin) : (s.modPin b n f).pins = { s.pins with pins := tabMod {} s.pins.pins (60 * b + n) f } := rfl
@[simp] theorem State.modPin_jtag (b n : Nat) (f : Pin → Pin) : (s.modPin b n f).jtag = s.jtag := rfl
@[simp] theorem State.modPin_test (b n : Nat) (f : Pin → Pin) : (s.modPin b n f).test = s.test := rfl
@[simp] theorem State.modPin_fresh (b n : Nat) (f : Pin → Pin) : (s.modPin b n f).fresh = s.fresh := rfl
@[simp] theorem State.modPin_freeCtr (b n : Nat) (f : Pin → Pin) : (s.modPin b n f).freeCtr = s.freeCtr := rfl
@[simp] theorem State.modPin_pending (b n : Nat) (f : Pin → Pin) : (s.modPin b n f).pending = s.pending := rfl

@[simp] theorem State.modBank_clocks (b : Nat) (f : Bank → Bank) : (s.modBank b f).clocks = s.clocks := rfl
@[simp] theorem State.modBank_regs (b : Nat) (f : Bank → Bank) : (s.modBank b f).regs = s.regs := rfl
@[simp] theorem State.modBank_ports (b : Nat) (f : Bank → Bank) : (s.modBank b f).ports = s.ports := rfl
@[simp] theorem State.modBank_cavs (b : Nat) (f : Bank → Bank) : (s.modBank b f).cavs = s.cavs := rfl
@[simp] theorem State.modBank_cfg (b : Nat) (f : Bank → Bank) : (s.modBank b f).cfg = s.cfg := rfl
@[simp] theorem State.modBank_conf (b : Nat) (f : Bank → Bank) : (s.modBank b f).conf = s.conf := rfl
@[simp] theorem State.modBank_fabric (b : Nat) (f : Bank → Bank) : (s.modBank b f).fabric = s.fabric := rfl
@[simp] theorem State.modBank_pockets (b : Nat) (f : Bank → Bank) : (s.modBank b f).pockets = s.pockets := rfl
@[simp] theorem State.modBank_crushers (b : Nat) (f : Bank → Bank) : (s.modBank b f).crushers = s.crushers := rfl
@[simp] theorem State.modBank_sump (b : Nat) (f : Bank → Bank) : (s.modBank b f).sump = s.sump := rfl
@[simp] theorem State.modBank_portals (b : Nat) (f : Bank → Bank) : (s.modBank b f).portals = s.portals := rfl
@[simp] theorem State.modBank_crossings (b : Nat) (f : Bank → Bank) : (s.modBank b f).crossings = s.crossings := rfl
@[simp] theorem State.modBank_haul (b : Nat) (f : Bank → Bank) : (s.modBank b f).haul = s.haul := rfl
@[simp] theorem State.modBank_lanes (b : Nat) (f : Bank → Bank) : (s.modBank b f).lanes = s.lanes := rfl
@[simp] theorem State.modBank_foreman (b : Nat) (f : Bank → Bank) : (s.modBank b f).foreman = s.foreman := rfl
@[simp] theorem State.modBank_history (b : Nat) (f : Bank → Bank) : (s.modBank b f).history = s.history := rfl
@[simp] theorem State.modBank_flog (b : Nat) (f : Bank → Bank) : (s.modBank b f).flog = s.flog := rfl
@[simp] theorem State.modBank_power (b : Nat) (f : Bank → Bank) : (s.modBank b f).power = s.power := rfl
@[simp] theorem State.modBank_patrol (b : Nat) (f : Bank → Bank) : (s.modBank b f).patrol = s.patrol := rfl
@[simp] theorem State.modBank_pins (b : Nat) (f : Bank → Bank) : (s.modBank b f).pins = { s.pins with banks := tabMod {} s.pins.banks b f } := rfl
@[simp] theorem State.modBank_jtag (b : Nat) (f : Bank → Bank) : (s.modBank b f).jtag = s.jtag := rfl
@[simp] theorem State.modBank_test (b : Nat) (f : Bank → Bank) : (s.modBank b f).test = s.test := rfl
@[simp] theorem State.modBank_fresh (b : Nat) (f : Bank → Bank) : (s.modBank b f).fresh = s.fresh := rfl
@[simp] theorem State.modBank_freeCtr (b : Nat) (f : Bank → Bank) : (s.modBank b f).freeCtr = s.freeCtr := rfl
@[simp] theorem State.modBank_pending (b : Nat) (f : Bank → Bank) : (s.modBank b f).pending = s.pending := rfl

@[simp] theorem State.setReg_clocks (k : RegKind) (i : Nat) (v : Word) : (s.setReg k i v).clocks = s.clocks := rfl
@[simp] theorem State.setReg_ports (k : RegKind) (i : Nat) (v : Word) : (s.setReg k i v).ports = s.ports := rfl
@[simp] theorem State.setReg_cavs (k : RegKind) (i : Nat) (v : Word) : (s.setReg k i v).cavs = s.cavs := rfl
@[simp] theorem State.setReg_cfg (k : RegKind) (i : Nat) (v : Word) : (s.setReg k i v).cfg = s.cfg := rfl
@[simp] theorem State.setReg_conf (k : RegKind) (i : Nat) (v : Word) : (s.setReg k i v).conf = s.conf := rfl
@[simp] theorem State.setReg_fabric (k : RegKind) (i : Nat) (v : Word) : (s.setReg k i v).fabric = s.fabric := rfl
@[simp] theorem State.setReg_pockets (k : RegKind) (i : Nat) (v : Word) : (s.setReg k i v).pockets = s.pockets := rfl
@[simp] theorem State.setReg_crushers (k : RegKind) (i : Nat) (v : Word) : (s.setReg k i v).crushers = s.crushers := rfl
@[simp] theorem State.setReg_sump (k : RegKind) (i : Nat) (v : Word) : (s.setReg k i v).sump = s.sump := rfl
@[simp] theorem State.setReg_portals (k : RegKind) (i : Nat) (v : Word) : (s.setReg k i v).portals = s.portals := rfl
@[simp] theorem State.setReg_crossings (k : RegKind) (i : Nat) (v : Word) : (s.setReg k i v).crossings = s.crossings := rfl
@[simp] theorem State.setReg_haul (k : RegKind) (i : Nat) (v : Word) : (s.setReg k i v).haul = s.haul := rfl
@[simp] theorem State.setReg_lanes (k : RegKind) (i : Nat) (v : Word) : (s.setReg k i v).lanes = s.lanes := rfl
@[simp] theorem State.setReg_foreman (k : RegKind) (i : Nat) (v : Word) : (s.setReg k i v).foreman = s.foreman := rfl
@[simp] theorem State.setReg_history (k : RegKind) (i : Nat) (v : Word) : (s.setReg k i v).history = s.history := rfl
@[simp] theorem State.setReg_flog (k : RegKind) (i : Nat) (v : Word) : (s.setReg k i v).flog = s.flog := rfl
@[simp] theorem State.setReg_power (k : RegKind) (i : Nat) (v : Word) : (s.setReg k i v).power = s.power := rfl
@[simp] theorem State.setReg_patrol (k : RegKind) (i : Nat) (v : Word) : (s.setReg k i v).patrol = s.patrol := rfl
@[simp] theorem State.setReg_pins (k : RegKind) (i : Nat) (v : Word) : (s.setReg k i v).pins = s.pins := rfl
@[simp] theorem State.setReg_jtag (k : RegKind) (i : Nat) (v : Word) : (s.setReg k i v).jtag = s.jtag := rfl
@[simp] theorem State.setReg_test (k : RegKind) (i : Nat) (v : Word) : (s.setReg k i v).test = s.test := rfl
@[simp] theorem State.setReg_fresh (k : RegKind) (i : Nat) (v : Word) : (s.setReg k i v).fresh = s.fresh := rfl
@[simp] theorem State.setReg_freeCtr (k : RegKind) (i : Nat) (v : Word) : (s.setReg k i v).freeCtr = s.freeCtr := rfl
@[simp] theorem State.setReg_pending (k : RegKind) (i : Nat) (v : Word) : (s.setReg k i v).pending = s.pending := rfl

@[simp] theorem State.setField_clocks (k : RegKind) (i lo len v : Nat) : (s.setField k i lo len v).clocks = s.clocks := rfl
@[simp] theorem State.setField_ports (k : RegKind) (i lo len v : Nat) : (s.setField k i lo len v).ports = s.ports := rfl
@[simp] theorem State.setField_cavs (k : RegKind) (i lo len v : Nat) : (s.setField k i lo len v).cavs = s.cavs := rfl
@[simp] theorem State.setField_cfg (k : RegKind) (i lo len v : Nat) : (s.setField k i lo len v).cfg = s.cfg := rfl
@[simp] theorem State.setField_conf (k : RegKind) (i lo len v : Nat) : (s.setField k i lo len v).conf = s.conf := rfl
@[simp] theorem State.setField_fabric (k : RegKind) (i lo len v : Nat) : (s.setField k i lo len v).fabric = s.fabric := rfl
@[simp] theorem State.setField_pockets (k : RegKind) (i lo len v : Nat) : (s.setField k i lo len v).pockets = s.pockets := rfl
@[simp] theorem State.setField_crushers (k : RegKind) (i lo len v : Nat) : (s.setField k i lo len v).crushers = s.crushers := rfl
@[simp] theorem State.setField_sump (k : RegKind) (i lo len v : Nat) : (s.setField k i lo len v).sump = s.sump := rfl
@[simp] theorem State.setField_portals (k : RegKind) (i lo len v : Nat) : (s.setField k i lo len v).portals = s.portals := rfl
@[simp] theorem State.setField_crossings (k : RegKind) (i lo len v : Nat) : (s.setField k i lo len v).crossings = s.crossings := rfl
@[simp] theorem State.setField_haul (k : RegKind) (i lo len v : Nat) : (s.setField k i lo len v).haul = s.haul := rfl
@[simp] theorem State.setField_lanes (k : RegKind) (i lo len v : Nat) : (s.setField k i lo len v).lanes = s.lanes := rfl
@[simp] theorem State.setField_foreman (k : RegKind) (i lo len v : Nat) : (s.setField k i lo len v).foreman = s.foreman := rfl
@[simp] theorem State.setField_history (k : RegKind) (i lo len v : Nat) : (s.setField k i lo len v).history = s.history := rfl
@[simp] theorem State.setField_flog (k : RegKind) (i lo len v : Nat) : (s.setField k i lo len v).flog = s.flog := rfl
@[simp] theorem State.setField_power (k : RegKind) (i lo len v : Nat) : (s.setField k i lo len v).power = s.power := rfl
@[simp] theorem State.setField_patrol (k : RegKind) (i lo len v : Nat) : (s.setField k i lo len v).patrol = s.patrol := rfl
@[simp] theorem State.setField_pins (k : RegKind) (i lo len v : Nat) : (s.setField k i lo len v).pins = s.pins := rfl
@[simp] theorem State.setField_jtag (k : RegKind) (i lo len v : Nat) : (s.setField k i lo len v).jtag = s.jtag := rfl
@[simp] theorem State.setField_test (k : RegKind) (i lo len v : Nat) : (s.setField k i lo len v).test = s.test := rfl
@[simp] theorem State.setField_fresh (k : RegKind) (i lo len v : Nat) : (s.setField k i lo len v).fresh = s.fresh := rfl
@[simp] theorem State.setField_freeCtr (k : RegKind) (i lo len v : Nat) : (s.setField k i lo len v).freeCtr = s.freeCtr := rfl
@[simp] theorem State.setField_pending (k : RegKind) (i lo len v : Nat) : (s.setField k i lo len v).pending = s.pending := rfl

@[simp] theorem State.withSump_clocks (f : Sump → Sump) : (s.withSump f).clocks = s.clocks := rfl
@[simp] theorem State.withSump_regs (f : Sump → Sump) : (s.withSump f).regs = s.regs := rfl
@[simp] theorem State.withSump_ports (f : Sump → Sump) : (s.withSump f).ports = s.ports := rfl
@[simp] theorem State.withSump_cavs (f : Sump → Sump) : (s.withSump f).cavs = s.cavs := rfl
@[simp] theorem State.withSump_cfg (f : Sump → Sump) : (s.withSump f).cfg = s.cfg := rfl
@[simp] theorem State.withSump_conf (f : Sump → Sump) : (s.withSump f).conf = s.conf := rfl
@[simp] theorem State.withSump_fabric (f : Sump → Sump) : (s.withSump f).fabric = s.fabric := rfl
@[simp] theorem State.withSump_pockets (f : Sump → Sump) : (s.withSump f).pockets = s.pockets := rfl
@[simp] theorem State.withSump_crushers (f : Sump → Sump) : (s.withSump f).crushers = s.crushers := rfl
@[simp] theorem State.withSump_sump (f : Sump → Sump) : (s.withSump f).sump = f s.sump := rfl
@[simp] theorem State.withSump_portals (f : Sump → Sump) : (s.withSump f).portals = s.portals := rfl
@[simp] theorem State.withSump_crossings (f : Sump → Sump) : (s.withSump f).crossings = s.crossings := rfl
@[simp] theorem State.withSump_haul (f : Sump → Sump) : (s.withSump f).haul = s.haul := rfl
@[simp] theorem State.withSump_lanes (f : Sump → Sump) : (s.withSump f).lanes = s.lanes := rfl
@[simp] theorem State.withSump_foreman (f : Sump → Sump) : (s.withSump f).foreman = s.foreman := rfl
@[simp] theorem State.withSump_history (f : Sump → Sump) : (s.withSump f).history = s.history := rfl
@[simp] theorem State.withSump_flog (f : Sump → Sump) : (s.withSump f).flog = s.flog := rfl
@[simp] theorem State.withSump_power (f : Sump → Sump) : (s.withSump f).power = s.power := rfl
@[simp] theorem State.withSump_patrol (f : Sump → Sump) : (s.withSump f).patrol = s.patrol := rfl
@[simp] theorem State.withSump_pins (f : Sump → Sump) : (s.withSump f).pins = s.pins := rfl
@[simp] theorem State.withSump_jtag (f : Sump → Sump) : (s.withSump f).jtag = s.jtag := rfl
@[simp] theorem State.withSump_test (f : Sump → Sump) : (s.withSump f).test = s.test := rfl
@[simp] theorem State.withSump_fresh (f : Sump → Sump) : (s.withSump f).fresh = s.fresh := rfl
@[simp] theorem State.withSump_freeCtr (f : Sump → Sump) : (s.withSump f).freeCtr = s.freeCtr := rfl
@[simp] theorem State.withSump_pending (f : Sump → Sump) : (s.withSump f).pending = s.pending := rfl

@[simp] theorem State.modQueue_clocks (q : Nat) (f : SQueue → SQueue) : (s.modQueue q f).clocks = s.clocks := rfl
@[simp] theorem State.modQueue_regs (q : Nat) (f : SQueue → SQueue) : (s.modQueue q f).regs = s.regs := rfl
@[simp] theorem State.modQueue_ports (q : Nat) (f : SQueue → SQueue) : (s.modQueue q f).ports = s.ports := rfl
@[simp] theorem State.modQueue_cavs (q : Nat) (f : SQueue → SQueue) : (s.modQueue q f).cavs = s.cavs := rfl
@[simp] theorem State.modQueue_cfg (q : Nat) (f : SQueue → SQueue) : (s.modQueue q f).cfg = s.cfg := rfl
@[simp] theorem State.modQueue_conf (q : Nat) (f : SQueue → SQueue) : (s.modQueue q f).conf = s.conf := rfl
@[simp] theorem State.modQueue_fabric (q : Nat) (f : SQueue → SQueue) : (s.modQueue q f).fabric = s.fabric := rfl
@[simp] theorem State.modQueue_pockets (q : Nat) (f : SQueue → SQueue) : (s.modQueue q f).pockets = s.pockets := rfl
@[simp] theorem State.modQueue_crushers (q : Nat) (f : SQueue → SQueue) : (s.modQueue q f).crushers = s.crushers := rfl
@[simp] theorem State.modQueue_portals (q : Nat) (f : SQueue → SQueue) : (s.modQueue q f).portals = s.portals := rfl
@[simp] theorem State.modQueue_crossings (q : Nat) (f : SQueue → SQueue) : (s.modQueue q f).crossings = s.crossings := rfl
@[simp] theorem State.modQueue_haul (q : Nat) (f : SQueue → SQueue) : (s.modQueue q f).haul = s.haul := rfl
@[simp] theorem State.modQueue_lanes (q : Nat) (f : SQueue → SQueue) : (s.modQueue q f).lanes = s.lanes := rfl
@[simp] theorem State.modQueue_foreman (q : Nat) (f : SQueue → SQueue) : (s.modQueue q f).foreman = s.foreman := rfl
@[simp] theorem State.modQueue_history (q : Nat) (f : SQueue → SQueue) : (s.modQueue q f).history = s.history := rfl
@[simp] theorem State.modQueue_flog (q : Nat) (f : SQueue → SQueue) : (s.modQueue q f).flog = s.flog := rfl
@[simp] theorem State.modQueue_power (q : Nat) (f : SQueue → SQueue) : (s.modQueue q f).power = s.power := rfl
@[simp] theorem State.modQueue_patrol (q : Nat) (f : SQueue → SQueue) : (s.modQueue q f).patrol = s.patrol := rfl
@[simp] theorem State.modQueue_pins (q : Nat) (f : SQueue → SQueue) : (s.modQueue q f).pins = s.pins := rfl
@[simp] theorem State.modQueue_jtag (q : Nat) (f : SQueue → SQueue) : (s.modQueue q f).jtag = s.jtag := rfl
@[simp] theorem State.modQueue_test (q : Nat) (f : SQueue → SQueue) : (s.modQueue q f).test = s.test := rfl
@[simp] theorem State.modQueue_fresh (q : Nat) (f : SQueue → SQueue) : (s.modQueue q f).fresh = s.fresh := rfl
@[simp] theorem State.modQueue_freeCtr (q : Nat) (f : SQueue → SQueue) : (s.modQueue q f).freeCtr = s.freeCtr := rfl
@[simp] theorem State.modQueue_pending (q : Nat) (f : SQueue → SQueue) : (s.modQueue q f).pending = s.pending := rfl

@[simp] theorem State.modDesc_clocks (d : Nat) (f : SDesc → SDesc) : (s.modDesc d f).clocks = s.clocks := rfl
@[simp] theorem State.modDesc_regs (d : Nat) (f : SDesc → SDesc) : (s.modDesc d f).regs = s.regs := rfl
@[simp] theorem State.modDesc_ports (d : Nat) (f : SDesc → SDesc) : (s.modDesc d f).ports = s.ports := rfl
@[simp] theorem State.modDesc_cavs (d : Nat) (f : SDesc → SDesc) : (s.modDesc d f).cavs = s.cavs := rfl
@[simp] theorem State.modDesc_cfg (d : Nat) (f : SDesc → SDesc) : (s.modDesc d f).cfg = s.cfg := rfl
@[simp] theorem State.modDesc_conf (d : Nat) (f : SDesc → SDesc) : (s.modDesc d f).conf = s.conf := rfl
@[simp] theorem State.modDesc_fabric (d : Nat) (f : SDesc → SDesc) : (s.modDesc d f).fabric = s.fabric := rfl
@[simp] theorem State.modDesc_pockets (d : Nat) (f : SDesc → SDesc) : (s.modDesc d f).pockets = s.pockets := rfl
@[simp] theorem State.modDesc_crushers (d : Nat) (f : SDesc → SDesc) : (s.modDesc d f).crushers = s.crushers := rfl
@[simp] theorem State.modDesc_portals (d : Nat) (f : SDesc → SDesc) : (s.modDesc d f).portals = s.portals := rfl
@[simp] theorem State.modDesc_crossings (d : Nat) (f : SDesc → SDesc) : (s.modDesc d f).crossings = s.crossings := rfl
@[simp] theorem State.modDesc_haul (d : Nat) (f : SDesc → SDesc) : (s.modDesc d f).haul = s.haul := rfl
@[simp] theorem State.modDesc_lanes (d : Nat) (f : SDesc → SDesc) : (s.modDesc d f).lanes = s.lanes := rfl
@[simp] theorem State.modDesc_foreman (d : Nat) (f : SDesc → SDesc) : (s.modDesc d f).foreman = s.foreman := rfl
@[simp] theorem State.modDesc_history (d : Nat) (f : SDesc → SDesc) : (s.modDesc d f).history = s.history := rfl
@[simp] theorem State.modDesc_flog (d : Nat) (f : SDesc → SDesc) : (s.modDesc d f).flog = s.flog := rfl
@[simp] theorem State.modDesc_power (d : Nat) (f : SDesc → SDesc) : (s.modDesc d f).power = s.power := rfl
@[simp] theorem State.modDesc_patrol (d : Nat) (f : SDesc → SDesc) : (s.modDesc d f).patrol = s.patrol := rfl
@[simp] theorem State.modDesc_pins (d : Nat) (f : SDesc → SDesc) : (s.modDesc d f).pins = s.pins := rfl
@[simp] theorem State.modDesc_jtag (d : Nat) (f : SDesc → SDesc) : (s.modDesc d f).jtag = s.jtag := rfl
@[simp] theorem State.modDesc_test (d : Nat) (f : SDesc → SDesc) : (s.modDesc d f).test = s.test := rfl
@[simp] theorem State.modDesc_fresh (d : Nat) (f : SDesc → SDesc) : (s.modDesc d f).fresh = s.fresh := rfl
@[simp] theorem State.modDesc_freeCtr (d : Nat) (f : SDesc → SDesc) : (s.modDesc d f).freeCtr = s.freeCtr := rfl
@[simp] theorem State.modDesc_pending (d : Nat) (f : SDesc → SDesc) : (s.modDesc d f).pending = s.pending := rfl

@[simp] theorem State.modSCell_clocks (c : Nat) (f : SCell → SCell) : (s.modSCell c f).clocks = s.clocks := rfl
@[simp] theorem State.modSCell_regs (c : Nat) (f : SCell → SCell) : (s.modSCell c f).regs = s.regs := rfl
@[simp] theorem State.modSCell_ports (c : Nat) (f : SCell → SCell) : (s.modSCell c f).ports = s.ports := rfl
@[simp] theorem State.modSCell_cavs (c : Nat) (f : SCell → SCell) : (s.modSCell c f).cavs = s.cavs := rfl
@[simp] theorem State.modSCell_cfg (c : Nat) (f : SCell → SCell) : (s.modSCell c f).cfg = s.cfg := rfl
@[simp] theorem State.modSCell_conf (c : Nat) (f : SCell → SCell) : (s.modSCell c f).conf = s.conf := rfl
@[simp] theorem State.modSCell_fabric (c : Nat) (f : SCell → SCell) : (s.modSCell c f).fabric = s.fabric := rfl
@[simp] theorem State.modSCell_pockets (c : Nat) (f : SCell → SCell) : (s.modSCell c f).pockets = s.pockets := rfl
@[simp] theorem State.modSCell_crushers (c : Nat) (f : SCell → SCell) : (s.modSCell c f).crushers = s.crushers := rfl
@[simp] theorem State.modSCell_portals (c : Nat) (f : SCell → SCell) : (s.modSCell c f).portals = s.portals := rfl
@[simp] theorem State.modSCell_crossings (c : Nat) (f : SCell → SCell) : (s.modSCell c f).crossings = s.crossings := rfl
@[simp] theorem State.modSCell_haul (c : Nat) (f : SCell → SCell) : (s.modSCell c f).haul = s.haul := rfl
@[simp] theorem State.modSCell_lanes (c : Nat) (f : SCell → SCell) : (s.modSCell c f).lanes = s.lanes := rfl
@[simp] theorem State.modSCell_foreman (c : Nat) (f : SCell → SCell) : (s.modSCell c f).foreman = s.foreman := rfl
@[simp] theorem State.modSCell_history (c : Nat) (f : SCell → SCell) : (s.modSCell c f).history = s.history := rfl
@[simp] theorem State.modSCell_flog (c : Nat) (f : SCell → SCell) : (s.modSCell c f).flog = s.flog := rfl
@[simp] theorem State.modSCell_power (c : Nat) (f : SCell → SCell) : (s.modSCell c f).power = s.power := rfl
@[simp] theorem State.modSCell_patrol (c : Nat) (f : SCell → SCell) : (s.modSCell c f).patrol = s.patrol := rfl
@[simp] theorem State.modSCell_pins (c : Nat) (f : SCell → SCell) : (s.modSCell c f).pins = s.pins := rfl
@[simp] theorem State.modSCell_jtag (c : Nat) (f : SCell → SCell) : (s.modSCell c f).jtag = s.jtag := rfl
@[simp] theorem State.modSCell_test (c : Nat) (f : SCell → SCell) : (s.modSCell c f).test = s.test := rfl
@[simp] theorem State.modSCell_fresh (c : Nat) (f : SCell → SCell) : (s.modSCell c f).fresh = s.fresh := rfl
@[simp] theorem State.modSCell_freeCtr (c : Nat) (f : SCell → SCell) : (s.modSCell c f).freeCtr = s.freeCtr := rfl
@[simp] theorem State.modSCell_pending (c : Nat) (f : SCell → SCell) : (s.modSCell c f).pending = s.pending := rfl

@[simp] theorem State.withCrushers_clocks (f : Crushers → Crushers) : (s.withCrushers f).clocks = s.clocks := rfl
@[simp] theorem State.withCrushers_regs (f : Crushers → Crushers) : (s.withCrushers f).regs = s.regs := rfl
@[simp] theorem State.withCrushers_ports (f : Crushers → Crushers) : (s.withCrushers f).ports = s.ports := rfl
@[simp] theorem State.withCrushers_cavs (f : Crushers → Crushers) : (s.withCrushers f).cavs = s.cavs := rfl
@[simp] theorem State.withCrushers_cfg (f : Crushers → Crushers) : (s.withCrushers f).cfg = s.cfg := rfl
@[simp] theorem State.withCrushers_conf (f : Crushers → Crushers) : (s.withCrushers f).conf = s.conf := rfl
@[simp] theorem State.withCrushers_fabric (f : Crushers → Crushers) : (s.withCrushers f).fabric = s.fabric := rfl
@[simp] theorem State.withCrushers_pockets (f : Crushers → Crushers) : (s.withCrushers f).pockets = s.pockets := rfl
@[simp] theorem State.withCrushers_crushers (f : Crushers → Crushers) : (s.withCrushers f).crushers = f s.crushers := rfl
@[simp] theorem State.withCrushers_sump (f : Crushers → Crushers) : (s.withCrushers f).sump = s.sump := rfl
@[simp] theorem State.withCrushers_portals (f : Crushers → Crushers) : (s.withCrushers f).portals = s.portals := rfl
@[simp] theorem State.withCrushers_crossings (f : Crushers → Crushers) : (s.withCrushers f).crossings = s.crossings := rfl
@[simp] theorem State.withCrushers_haul (f : Crushers → Crushers) : (s.withCrushers f).haul = s.haul := rfl
@[simp] theorem State.withCrushers_lanes (f : Crushers → Crushers) : (s.withCrushers f).lanes = s.lanes := rfl
@[simp] theorem State.withCrushers_foreman (f : Crushers → Crushers) : (s.withCrushers f).foreman = s.foreman := rfl
@[simp] theorem State.withCrushers_history (f : Crushers → Crushers) : (s.withCrushers f).history = s.history := rfl
@[simp] theorem State.withCrushers_flog (f : Crushers → Crushers) : (s.withCrushers f).flog = s.flog := rfl
@[simp] theorem State.withCrushers_power (f : Crushers → Crushers) : (s.withCrushers f).power = s.power := rfl
@[simp] theorem State.withCrushers_patrol (f : Crushers → Crushers) : (s.withCrushers f).patrol = s.patrol := rfl
@[simp] theorem State.withCrushers_pins (f : Crushers → Crushers) : (s.withCrushers f).pins = s.pins := rfl
@[simp] theorem State.withCrushers_jtag (f : Crushers → Crushers) : (s.withCrushers f).jtag = s.jtag := rfl
@[simp] theorem State.withCrushers_test (f : Crushers → Crushers) : (s.withCrushers f).test = s.test := rfl
@[simp] theorem State.withCrushers_fresh (f : Crushers → Crushers) : (s.withCrushers f).fresh = s.fresh := rfl
@[simp] theorem State.withCrushers_freeCtr (f : Crushers → Crushers) : (s.withCrushers f).freeCtr = s.freeCtr := rfl
@[simp] theorem State.withCrushers_pending (f : Crushers → Crushers) : (s.withCrushers f).pending = s.pending := rfl

@[simp] theorem State.modLane_clocks (n : Nat) (f : Lane → Lane) : (s.modLane n f).clocks = s.clocks := rfl
@[simp] theorem State.modLane_regs (n : Nat) (f : Lane → Lane) : (s.modLane n f).regs = s.regs := rfl
@[simp] theorem State.modLane_ports (n : Nat) (f : Lane → Lane) : (s.modLane n f).ports = s.ports := rfl
@[simp] theorem State.modLane_cavs (n : Nat) (f : Lane → Lane) : (s.modLane n f).cavs = s.cavs := rfl
@[simp] theorem State.modLane_cfg (n : Nat) (f : Lane → Lane) : (s.modLane n f).cfg = s.cfg := rfl
@[simp] theorem State.modLane_conf (n : Nat) (f : Lane → Lane) : (s.modLane n f).conf = s.conf := rfl
@[simp] theorem State.modLane_fabric (n : Nat) (f : Lane → Lane) : (s.modLane n f).fabric = s.fabric := rfl
@[simp] theorem State.modLane_pockets (n : Nat) (f : Lane → Lane) : (s.modLane n f).pockets = s.pockets := rfl
@[simp] theorem State.modLane_crushers (n : Nat) (f : Lane → Lane) : (s.modLane n f).crushers = s.crushers := rfl
@[simp] theorem State.modLane_sump (n : Nat) (f : Lane → Lane) : (s.modLane n f).sump = s.sump := rfl
@[simp] theorem State.modLane_portals (n : Nat) (f : Lane → Lane) : (s.modLane n f).portals = s.portals := rfl
@[simp] theorem State.modLane_crossings (n : Nat) (f : Lane → Lane) : (s.modLane n f).crossings = s.crossings := rfl
@[simp] theorem State.modLane_haul (n : Nat) (f : Lane → Lane) : (s.modLane n f).haul = s.haul := rfl
@[simp] theorem State.modLane_lanes (n : Nat) (f : Lane → Lane) : (s.modLane n f).lanes = tabMod {} s.lanes n f := rfl
@[simp] theorem State.modLane_foreman (n : Nat) (f : Lane → Lane) : (s.modLane n f).foreman = s.foreman := rfl
@[simp] theorem State.modLane_history (n : Nat) (f : Lane → Lane) : (s.modLane n f).history = s.history := rfl
@[simp] theorem State.modLane_flog (n : Nat) (f : Lane → Lane) : (s.modLane n f).flog = s.flog := rfl
@[simp] theorem State.modLane_power (n : Nat) (f : Lane → Lane) : (s.modLane n f).power = s.power := rfl
@[simp] theorem State.modLane_patrol (n : Nat) (f : Lane → Lane) : (s.modLane n f).patrol = s.patrol := rfl
@[simp] theorem State.modLane_pins (n : Nat) (f : Lane → Lane) : (s.modLane n f).pins = s.pins := rfl
@[simp] theorem State.modLane_jtag (n : Nat) (f : Lane → Lane) : (s.modLane n f).jtag = s.jtag := rfl
@[simp] theorem State.modLane_test (n : Nat) (f : Lane → Lane) : (s.modLane n f).test = s.test := rfl
@[simp] theorem State.modLane_fresh (n : Nat) (f : Lane → Lane) : (s.modLane n f).fresh = s.fresh := rfl
@[simp] theorem State.modLane_freeCtr (n : Nat) (f : Lane → Lane) : (s.modLane n f).freeCtr = s.freeCtr := rfl
@[simp] theorem State.modLane_pending (n : Nat) (f : Lane → Lane) : (s.modLane n f).pending = s.pending := rfl

@[simp] theorem State.modTx_clocks (n : Nat) (f : LaneTx → LaneTx) : (s.modTx n f).clocks = s.clocks := rfl
@[simp] theorem State.modTx_regs (n : Nat) (f : LaneTx → LaneTx) : (s.modTx n f).regs = s.regs := rfl
@[simp] theorem State.modTx_ports (n : Nat) (f : LaneTx → LaneTx) : (s.modTx n f).ports = s.ports := rfl
@[simp] theorem State.modTx_cavs (n : Nat) (f : LaneTx → LaneTx) : (s.modTx n f).cavs = s.cavs := rfl
@[simp] theorem State.modTx_cfg (n : Nat) (f : LaneTx → LaneTx) : (s.modTx n f).cfg = s.cfg := rfl
@[simp] theorem State.modTx_conf (n : Nat) (f : LaneTx → LaneTx) : (s.modTx n f).conf = s.conf := rfl
@[simp] theorem State.modTx_fabric (n : Nat) (f : LaneTx → LaneTx) : (s.modTx n f).fabric = s.fabric := rfl
@[simp] theorem State.modTx_pockets (n : Nat) (f : LaneTx → LaneTx) : (s.modTx n f).pockets = s.pockets := rfl
@[simp] theorem State.modTx_crushers (n : Nat) (f : LaneTx → LaneTx) : (s.modTx n f).crushers = s.crushers := rfl
@[simp] theorem State.modTx_sump (n : Nat) (f : LaneTx → LaneTx) : (s.modTx n f).sump = s.sump := rfl
@[simp] theorem State.modTx_portals (n : Nat) (f : LaneTx → LaneTx) : (s.modTx n f).portals = s.portals := rfl
@[simp] theorem State.modTx_crossings (n : Nat) (f : LaneTx → LaneTx) : (s.modTx n f).crossings = s.crossings := rfl
@[simp] theorem State.modTx_haul (n : Nat) (f : LaneTx → LaneTx) : (s.modTx n f).haul = s.haul := rfl
@[simp] theorem State.modTx_foreman (n : Nat) (f : LaneTx → LaneTx) : (s.modTx n f).foreman = s.foreman := rfl
@[simp] theorem State.modTx_history (n : Nat) (f : LaneTx → LaneTx) : (s.modTx n f).history = s.history := rfl
@[simp] theorem State.modTx_flog (n : Nat) (f : LaneTx → LaneTx) : (s.modTx n f).flog = s.flog := rfl
@[simp] theorem State.modTx_power (n : Nat) (f : LaneTx → LaneTx) : (s.modTx n f).power = s.power := rfl
@[simp] theorem State.modTx_patrol (n : Nat) (f : LaneTx → LaneTx) : (s.modTx n f).patrol = s.patrol := rfl
@[simp] theorem State.modTx_pins (n : Nat) (f : LaneTx → LaneTx) : (s.modTx n f).pins = s.pins := rfl
@[simp] theorem State.modTx_jtag (n : Nat) (f : LaneTx → LaneTx) : (s.modTx n f).jtag = s.jtag := rfl
@[simp] theorem State.modTx_test (n : Nat) (f : LaneTx → LaneTx) : (s.modTx n f).test = s.test := rfl
@[simp] theorem State.modTx_fresh (n : Nat) (f : LaneTx → LaneTx) : (s.modTx n f).fresh = s.fresh := rfl
@[simp] theorem State.modTx_freeCtr (n : Nat) (f : LaneTx → LaneTx) : (s.modTx n f).freeCtr = s.freeCtr := rfl
@[simp] theorem State.modTx_pending (n : Nat) (f : LaneTx → LaneTx) : (s.modTx n f).pending = s.pending := rfl

@[simp] theorem State.modRx_clocks (n : Nat) (f : LaneRx → LaneRx) : (s.modRx n f).clocks = s.clocks := rfl
@[simp] theorem State.modRx_regs (n : Nat) (f : LaneRx → LaneRx) : (s.modRx n f).regs = s.regs := rfl
@[simp] theorem State.modRx_ports (n : Nat) (f : LaneRx → LaneRx) : (s.modRx n f).ports = s.ports := rfl
@[simp] theorem State.modRx_cavs (n : Nat) (f : LaneRx → LaneRx) : (s.modRx n f).cavs = s.cavs := rfl
@[simp] theorem State.modRx_cfg (n : Nat) (f : LaneRx → LaneRx) : (s.modRx n f).cfg = s.cfg := rfl
@[simp] theorem State.modRx_conf (n : Nat) (f : LaneRx → LaneRx) : (s.modRx n f).conf = s.conf := rfl
@[simp] theorem State.modRx_fabric (n : Nat) (f : LaneRx → LaneRx) : (s.modRx n f).fabric = s.fabric := rfl
@[simp] theorem State.modRx_pockets (n : Nat) (f : LaneRx → LaneRx) : (s.modRx n f).pockets = s.pockets := rfl
@[simp] theorem State.modRx_crushers (n : Nat) (f : LaneRx → LaneRx) : (s.modRx n f).crushers = s.crushers := rfl
@[simp] theorem State.modRx_sump (n : Nat) (f : LaneRx → LaneRx) : (s.modRx n f).sump = s.sump := rfl
@[simp] theorem State.modRx_portals (n : Nat) (f : LaneRx → LaneRx) : (s.modRx n f).portals = s.portals := rfl
@[simp] theorem State.modRx_crossings (n : Nat) (f : LaneRx → LaneRx) : (s.modRx n f).crossings = s.crossings := rfl
@[simp] theorem State.modRx_haul (n : Nat) (f : LaneRx → LaneRx) : (s.modRx n f).haul = s.haul := rfl
@[simp] theorem State.modRx_foreman (n : Nat) (f : LaneRx → LaneRx) : (s.modRx n f).foreman = s.foreman := rfl
@[simp] theorem State.modRx_history (n : Nat) (f : LaneRx → LaneRx) : (s.modRx n f).history = s.history := rfl
@[simp] theorem State.modRx_flog (n : Nat) (f : LaneRx → LaneRx) : (s.modRx n f).flog = s.flog := rfl
@[simp] theorem State.modRx_power (n : Nat) (f : LaneRx → LaneRx) : (s.modRx n f).power = s.power := rfl
@[simp] theorem State.modRx_patrol (n : Nat) (f : LaneRx → LaneRx) : (s.modRx n f).patrol = s.patrol := rfl
@[simp] theorem State.modRx_pins (n : Nat) (f : LaneRx → LaneRx) : (s.modRx n f).pins = s.pins := rfl
@[simp] theorem State.modRx_jtag (n : Nat) (f : LaneRx → LaneRx) : (s.modRx n f).jtag = s.jtag := rfl
@[simp] theorem State.modRx_test (n : Nat) (f : LaneRx → LaneRx) : (s.modRx n f).test = s.test := rfl
@[simp] theorem State.modRx_fresh (n : Nat) (f : LaneRx → LaneRx) : (s.modRx n f).fresh = s.fresh := rfl
@[simp] theorem State.modRx_freeCtr (n : Nat) (f : LaneRx → LaneRx) : (s.modRx n f).freeCtr = s.freeCtr := rfl
@[simp] theorem State.modRx_pending (n : Nat) (f : LaneRx → LaneRx) : (s.modRx n f).pending = s.pending := rfl

@[simp] theorem State.modAdit_clocks (n : Nat) (f : Adit → Adit) : (s.modAdit n f).clocks = s.clocks := rfl
@[simp] theorem State.modAdit_regs (n : Nat) (f : Adit → Adit) : (s.modAdit n f).regs = s.regs := rfl
@[simp] theorem State.modAdit_ports (n : Nat) (f : Adit → Adit) : (s.modAdit n f).ports = s.ports := rfl
@[simp] theorem State.modAdit_cavs (n : Nat) (f : Adit → Adit) : (s.modAdit n f).cavs = s.cavs := rfl
@[simp] theorem State.modAdit_cfg (n : Nat) (f : Adit → Adit) : (s.modAdit n f).cfg = s.cfg := rfl
@[simp] theorem State.modAdit_conf (n : Nat) (f : Adit → Adit) : (s.modAdit n f).conf = s.conf := rfl
@[simp] theorem State.modAdit_fabric (n : Nat) (f : Adit → Adit) : (s.modAdit n f).fabric = s.fabric := rfl
@[simp] theorem State.modAdit_pockets (n : Nat) (f : Adit → Adit) : (s.modAdit n f).pockets = s.pockets := rfl
@[simp] theorem State.modAdit_crushers (n : Nat) (f : Adit → Adit) : (s.modAdit n f).crushers = s.crushers := rfl
@[simp] theorem State.modAdit_sump (n : Nat) (f : Adit → Adit) : (s.modAdit n f).sump = s.sump := rfl
@[simp] theorem State.modAdit_portals (n : Nat) (f : Adit → Adit) : (s.modAdit n f).portals = s.portals := rfl
@[simp] theorem State.modAdit_crossings (n : Nat) (f : Adit → Adit) : (s.modAdit n f).crossings = s.crossings := rfl
@[simp] theorem State.modAdit_haul (n : Nat) (f : Adit → Adit) : (s.modAdit n f).haul = s.haul := rfl
@[simp] theorem State.modAdit_foreman (n : Nat) (f : Adit → Adit) : (s.modAdit n f).foreman = s.foreman := rfl
@[simp] theorem State.modAdit_history (n : Nat) (f : Adit → Adit) : (s.modAdit n f).history = s.history := rfl
@[simp] theorem State.modAdit_flog (n : Nat) (f : Adit → Adit) : (s.modAdit n f).flog = s.flog := rfl
@[simp] theorem State.modAdit_power (n : Nat) (f : Adit → Adit) : (s.modAdit n f).power = s.power := rfl
@[simp] theorem State.modAdit_patrol (n : Nat) (f : Adit → Adit) : (s.modAdit n f).patrol = s.patrol := rfl
@[simp] theorem State.modAdit_pins (n : Nat) (f : Adit → Adit) : (s.modAdit n f).pins = s.pins := rfl
@[simp] theorem State.modAdit_jtag (n : Nat) (f : Adit → Adit) : (s.modAdit n f).jtag = s.jtag := rfl
@[simp] theorem State.modAdit_test (n : Nat) (f : Adit → Adit) : (s.modAdit n f).test = s.test := rfl
@[simp] theorem State.modAdit_fresh (n : Nat) (f : Adit → Adit) : (s.modAdit n f).fresh = s.fresh := rfl
@[simp] theorem State.modAdit_freeCtr (n : Nat) (f : Adit → Adit) : (s.modAdit n f).freeCtr = s.freeCtr := rfl
@[simp] theorem State.modAdit_pending (n : Nat) (f : Adit → Adit) : (s.modAdit n f).pending = s.pending := rfl

@[simp] theorem State.setRow_clocks (pk r v : Nat) : (s.setRow pk r v).clocks = s.clocks := rfl
@[simp] theorem State.setRow_regs (pk r v : Nat) : (s.setRow pk r v).regs = s.regs := rfl
@[simp] theorem State.setRow_ports (pk r v : Nat) : (s.setRow pk r v).ports = s.ports := rfl
@[simp] theorem State.setRow_cavs (pk r v : Nat) : (s.setRow pk r v).cavs = s.cavs := rfl
@[simp] theorem State.setRow_cfg (pk r v : Nat) : (s.setRow pk r v).cfg = s.cfg := rfl
@[simp] theorem State.setRow_conf (pk r v : Nat) : (s.setRow pk r v).conf = s.conf := rfl
@[simp] theorem State.setRow_fabric (pk r v : Nat) : (s.setRow pk r v).fabric = s.fabric := rfl
@[simp] theorem State.setRow_crushers (pk r v : Nat) : (s.setRow pk r v).crushers = s.crushers := rfl
@[simp] theorem State.setRow_sump (pk r v : Nat) : (s.setRow pk r v).sump = s.sump := rfl
@[simp] theorem State.setRow_portals (pk r v : Nat) : (s.setRow pk r v).portals = s.portals := rfl
@[simp] theorem State.setRow_crossings (pk r v : Nat) : (s.setRow pk r v).crossings = s.crossings := rfl
@[simp] theorem State.setRow_haul (pk r v : Nat) : (s.setRow pk r v).haul = s.haul := rfl
@[simp] theorem State.setRow_lanes (pk r v : Nat) : (s.setRow pk r v).lanes = s.lanes := rfl
@[simp] theorem State.setRow_foreman (pk r v : Nat) : (s.setRow pk r v).foreman = s.foreman := rfl
@[simp] theorem State.setRow_history (pk r v : Nat) : (s.setRow pk r v).history = s.history := rfl
@[simp] theorem State.setRow_flog (pk r v : Nat) : (s.setRow pk r v).flog = s.flog := rfl
@[simp] theorem State.setRow_power (pk r v : Nat) : (s.setRow pk r v).power = s.power := rfl
@[simp] theorem State.setRow_patrol (pk r v : Nat) : (s.setRow pk r v).patrol = s.patrol := rfl
@[simp] theorem State.setRow_pins (pk r v : Nat) : (s.setRow pk r v).pins = s.pins := rfl
@[simp] theorem State.setRow_jtag (pk r v : Nat) : (s.setRow pk r v).jtag = s.jtag := rfl
@[simp] theorem State.setRow_test (pk r v : Nat) : (s.setRow pk r v).test = s.test := rfl
@[simp] theorem State.setRow_fresh (pk r v : Nat) : (s.setRow pk r v).fresh = s.fresh := rfl
@[simp] theorem State.setRow_freeCtr (pk r v : Nat) : (s.setRow pk r v).freeCtr = s.freeCtr := rfl
@[simp] theorem State.setRow_pending (pk r v : Nat) : (s.setRow pk r v).pending = s.pending := rfl

@[simp] theorem State.setMulti_clocks (x : Nat) (v : MultiBit) : (s.setMulti x v).clocks = s.clocks := rfl
@[simp] theorem State.setMulti_regs (x : Nat) (v : MultiBit) : (s.setMulti x v).regs = s.regs := rfl
@[simp] theorem State.setMulti_ports (x : Nat) (v : MultiBit) : (s.setMulti x v).ports = s.ports := rfl
@[simp] theorem State.setMulti_cavs (x : Nat) (v : MultiBit) : (s.setMulti x v).cavs = s.cavs := rfl
@[simp] theorem State.setMulti_cfg (x : Nat) (v : MultiBit) : (s.setMulti x v).cfg = s.cfg := rfl
@[simp] theorem State.setMulti_conf (x : Nat) (v : MultiBit) : (s.setMulti x v).conf = s.conf := rfl
@[simp] theorem State.setMulti_fabric (x : Nat) (v : MultiBit) : (s.setMulti x v).fabric = s.fabric := rfl
@[simp] theorem State.setMulti_pockets (x : Nat) (v : MultiBit) : (s.setMulti x v).pockets = s.pockets := rfl
@[simp] theorem State.setMulti_crushers (x : Nat) (v : MultiBit) : (s.setMulti x v).crushers = s.crushers := rfl
@[simp] theorem State.setMulti_sump (x : Nat) (v : MultiBit) : (s.setMulti x v).sump = s.sump := rfl
@[simp] theorem State.setMulti_portals (x : Nat) (v : MultiBit) : (s.setMulti x v).portals = s.portals := rfl
@[simp] theorem State.setMulti_haul (x : Nat) (v : MultiBit) : (s.setMulti x v).haul = s.haul := rfl
@[simp] theorem State.setMulti_lanes (x : Nat) (v : MultiBit) : (s.setMulti x v).lanes = s.lanes := rfl
@[simp] theorem State.setMulti_foreman (x : Nat) (v : MultiBit) : (s.setMulti x v).foreman = s.foreman := rfl
@[simp] theorem State.setMulti_history (x : Nat) (v : MultiBit) : (s.setMulti x v).history = s.history := rfl
@[simp] theorem State.setMulti_flog (x : Nat) (v : MultiBit) : (s.setMulti x v).flog = s.flog := rfl
@[simp] theorem State.setMulti_power (x : Nat) (v : MultiBit) : (s.setMulti x v).power = s.power := rfl
@[simp] theorem State.setMulti_patrol (x : Nat) (v : MultiBit) : (s.setMulti x v).patrol = s.patrol := rfl
@[simp] theorem State.setMulti_pins (x : Nat) (v : MultiBit) : (s.setMulti x v).pins = s.pins := rfl
@[simp] theorem State.setMulti_jtag (x : Nat) (v : MultiBit) : (s.setMulti x v).jtag = s.jtag := rfl
@[simp] theorem State.setMulti_test (x : Nat) (v : MultiBit) : (s.setMulti x v).test = s.test := rfl
@[simp] theorem State.setMulti_fresh (x : Nat) (v : MultiBit) : (s.setMulti x v).fresh = s.fresh := rfl
@[simp] theorem State.setMulti_freeCtr (x : Nat) (v : MultiBit) : (s.setMulti x v).freeCtr = s.freeCtr := rfl
@[simp] theorem State.setMulti_pending (x : Nat) (v : MultiBit) : (s.setMulti x v).pending = s.pending := rfl

@[simp] theorem State.withTest_clocks (f : SelfTest → SelfTest) : (s.withTest f).clocks = s.clocks := rfl
@[simp] theorem State.withTest_regs (f : SelfTest → SelfTest) : (s.withTest f).regs = s.regs := rfl
@[simp] theorem State.withTest_ports (f : SelfTest → SelfTest) : (s.withTest f).ports = s.ports := rfl
@[simp] theorem State.withTest_cavs (f : SelfTest → SelfTest) : (s.withTest f).cavs = s.cavs := rfl
@[simp] theorem State.withTest_cfg (f : SelfTest → SelfTest) : (s.withTest f).cfg = s.cfg := rfl
@[simp] theorem State.withTest_conf (f : SelfTest → SelfTest) : (s.withTest f).conf = s.conf := rfl
@[simp] theorem State.withTest_fabric (f : SelfTest → SelfTest) : (s.withTest f).fabric = s.fabric := rfl
@[simp] theorem State.withTest_pockets (f : SelfTest → SelfTest) : (s.withTest f).pockets = s.pockets := rfl
@[simp] theorem State.withTest_crushers (f : SelfTest → SelfTest) : (s.withTest f).crushers = s.crushers := rfl
@[simp] theorem State.withTest_sump (f : SelfTest → SelfTest) : (s.withTest f).sump = s.sump := rfl
@[simp] theorem State.withTest_portals (f : SelfTest → SelfTest) : (s.withTest f).portals = s.portals := rfl
@[simp] theorem State.withTest_crossings (f : SelfTest → SelfTest) : (s.withTest f).crossings = s.crossings := rfl
@[simp] theorem State.withTest_haul (f : SelfTest → SelfTest) : (s.withTest f).haul = s.haul := rfl
@[simp] theorem State.withTest_lanes (f : SelfTest → SelfTest) : (s.withTest f).lanes = s.lanes := rfl
@[simp] theorem State.withTest_foreman (f : SelfTest → SelfTest) : (s.withTest f).foreman = s.foreman := rfl
@[simp] theorem State.withTest_history (f : SelfTest → SelfTest) : (s.withTest f).history = s.history := rfl
@[simp] theorem State.withTest_flog (f : SelfTest → SelfTest) : (s.withTest f).flog = s.flog := rfl
@[simp] theorem State.withTest_power (f : SelfTest → SelfTest) : (s.withTest f).power = s.power := rfl
@[simp] theorem State.withTest_patrol (f : SelfTest → SelfTest) : (s.withTest f).patrol = s.patrol := rfl
@[simp] theorem State.withTest_pins (f : SelfTest → SelfTest) : (s.withTest f).pins = s.pins := rfl
@[simp] theorem State.withTest_jtag (f : SelfTest → SelfTest) : (s.withTest f).jtag = s.jtag := rfl
@[simp] theorem State.withTest_test (f : SelfTest → SelfTest) : (s.withTest f).test = f s.test := rfl
@[simp] theorem State.withTest_fresh (f : SelfTest → SelfTest) : (s.withTest f).fresh = s.fresh := rfl
@[simp] theorem State.withTest_freeCtr (f : SelfTest → SelfTest) : (s.withTest f).freeCtr = s.freeCtr := rfl
@[simp] theorem State.withTest_pending (f : SelfTest → SelfTest) : (s.withTest f).pending = s.pending := rfl

@[simp] theorem State.withFresh_clocks (f : Fresh → Fresh) : (s.withFresh f).clocks = s.clocks := rfl
@[simp] theorem State.withFresh_regs (f : Fresh → Fresh) : (s.withFresh f).regs = s.regs := rfl
@[simp] theorem State.withFresh_ports (f : Fresh → Fresh) : (s.withFresh f).ports = s.ports := rfl
@[simp] theorem State.withFresh_cavs (f : Fresh → Fresh) : (s.withFresh f).cavs = s.cavs := rfl
@[simp] theorem State.withFresh_cfg (f : Fresh → Fresh) : (s.withFresh f).cfg = s.cfg := rfl
@[simp] theorem State.withFresh_conf (f : Fresh → Fresh) : (s.withFresh f).conf = s.conf := rfl
@[simp] theorem State.withFresh_fabric (f : Fresh → Fresh) : (s.withFresh f).fabric = s.fabric := rfl
@[simp] theorem State.withFresh_pockets (f : Fresh → Fresh) : (s.withFresh f).pockets = s.pockets := rfl
@[simp] theorem State.withFresh_crushers (f : Fresh → Fresh) : (s.withFresh f).crushers = s.crushers := rfl
@[simp] theorem State.withFresh_sump (f : Fresh → Fresh) : (s.withFresh f).sump = s.sump := rfl
@[simp] theorem State.withFresh_portals (f : Fresh → Fresh) : (s.withFresh f).portals = s.portals := rfl
@[simp] theorem State.withFresh_crossings (f : Fresh → Fresh) : (s.withFresh f).crossings = s.crossings := rfl
@[simp] theorem State.withFresh_haul (f : Fresh → Fresh) : (s.withFresh f).haul = s.haul := rfl
@[simp] theorem State.withFresh_lanes (f : Fresh → Fresh) : (s.withFresh f).lanes = s.lanes := rfl
@[simp] theorem State.withFresh_foreman (f : Fresh → Fresh) : (s.withFresh f).foreman = s.foreman := rfl
@[simp] theorem State.withFresh_history (f : Fresh → Fresh) : (s.withFresh f).history = s.history := rfl
@[simp] theorem State.withFresh_flog (f : Fresh → Fresh) : (s.withFresh f).flog = s.flog := rfl
@[simp] theorem State.withFresh_power (f : Fresh → Fresh) : (s.withFresh f).power = s.power := rfl
@[simp] theorem State.withFresh_patrol (f : Fresh → Fresh) : (s.withFresh f).patrol = s.patrol := rfl
@[simp] theorem State.withFresh_pins (f : Fresh → Fresh) : (s.withFresh f).pins = s.pins := rfl
@[simp] theorem State.withFresh_jtag (f : Fresh → Fresh) : (s.withFresh f).jtag = s.jtag := rfl
@[simp] theorem State.withFresh_test (f : Fresh → Fresh) : (s.withFresh f).test = s.test := rfl
@[simp] theorem State.withFresh_fresh (f : Fresh → Fresh) : (s.withFresh f).fresh = f s.fresh := rfl
@[simp] theorem State.withFresh_freeCtr (f : Fresh → Fresh) : (s.withFresh f).freeCtr = s.freeCtr := rfl
@[simp] theorem State.withFresh_pending (f : Fresh → Fresh) : (s.withFresh f).pending = s.pending := rfl

@[simp] theorem State.setBits_clocks (k : RegKind) (i : Nat) (bits : Word) : (s.setBits k i bits).clocks = s.clocks := rfl
@[simp] theorem State.setBits_ports (k : RegKind) (i : Nat) (bits : Word) : (s.setBits k i bits).ports = s.ports := rfl
@[simp] theorem State.setBits_cavs (k : RegKind) (i : Nat) (bits : Word) : (s.setBits k i bits).cavs = s.cavs := rfl
@[simp] theorem State.setBits_cfg (k : RegKind) (i : Nat) (bits : Word) : (s.setBits k i bits).cfg = s.cfg := rfl
@[simp] theorem State.setBits_conf (k : RegKind) (i : Nat) (bits : Word) : (s.setBits k i bits).conf = s.conf := rfl
@[simp] theorem State.setBits_fabric (k : RegKind) (i : Nat) (bits : Word) : (s.setBits k i bits).fabric = s.fabric := rfl
@[simp] theorem State.setBits_pockets (k : RegKind) (i : Nat) (bits : Word) : (s.setBits k i bits).pockets = s.pockets := rfl
@[simp] theorem State.setBits_crushers (k : RegKind) (i : Nat) (bits : Word) : (s.setBits k i bits).crushers = s.crushers := rfl
@[simp] theorem State.setBits_sump (k : RegKind) (i : Nat) (bits : Word) : (s.setBits k i bits).sump = s.sump := rfl
@[simp] theorem State.setBits_portals (k : RegKind) (i : Nat) (bits : Word) : (s.setBits k i bits).portals = s.portals := rfl
@[simp] theorem State.setBits_crossings (k : RegKind) (i : Nat) (bits : Word) : (s.setBits k i bits).crossings = s.crossings := rfl
@[simp] theorem State.setBits_haul (k : RegKind) (i : Nat) (bits : Word) : (s.setBits k i bits).haul = s.haul := rfl
@[simp] theorem State.setBits_lanes (k : RegKind) (i : Nat) (bits : Word) : (s.setBits k i bits).lanes = s.lanes := rfl
@[simp] theorem State.setBits_foreman (k : RegKind) (i : Nat) (bits : Word) : (s.setBits k i bits).foreman = s.foreman := rfl
@[simp] theorem State.setBits_history (k : RegKind) (i : Nat) (bits : Word) : (s.setBits k i bits).history = s.history := rfl
@[simp] theorem State.setBits_flog (k : RegKind) (i : Nat) (bits : Word) : (s.setBits k i bits).flog = s.flog := rfl
@[simp] theorem State.setBits_power (k : RegKind) (i : Nat) (bits : Word) : (s.setBits k i bits).power = s.power := rfl
@[simp] theorem State.setBits_patrol (k : RegKind) (i : Nat) (bits : Word) : (s.setBits k i bits).patrol = s.patrol := rfl
@[simp] theorem State.setBits_pins (k : RegKind) (i : Nat) (bits : Word) : (s.setBits k i bits).pins = s.pins := rfl
@[simp] theorem State.setBits_jtag (k : RegKind) (i : Nat) (bits : Word) : (s.setBits k i bits).jtag = s.jtag := rfl
@[simp] theorem State.setBits_test (k : RegKind) (i : Nat) (bits : Word) : (s.setBits k i bits).test = s.test := rfl
@[simp] theorem State.setBits_freeCtr (k : RegKind) (i : Nat) (bits : Word) : (s.setBits k i bits).freeCtr = s.freeCtr := rfl
@[simp] theorem State.setBits_pending (k : RegKind) (i : Nat) (bits : Word) : (s.setBits k i bits).pending = s.pending := rfl

@[simp] theorem State.setCount_clocks (k : RegKind) (i n : Nat) (v : Word) : (s.setCount k i n v).clocks = s.clocks := rfl
@[simp] theorem State.setCount_ports (k : RegKind) (i n : Nat) (v : Word) : (s.setCount k i n v).ports = s.ports := rfl
@[simp] theorem State.setCount_cavs (k : RegKind) (i n : Nat) (v : Word) : (s.setCount k i n v).cavs = s.cavs := rfl
@[simp] theorem State.setCount_cfg (k : RegKind) (i n : Nat) (v : Word) : (s.setCount k i n v).cfg = s.cfg := rfl
@[simp] theorem State.setCount_conf (k : RegKind) (i n : Nat) (v : Word) : (s.setCount k i n v).conf = s.conf := rfl
@[simp] theorem State.setCount_fabric (k : RegKind) (i n : Nat) (v : Word) : (s.setCount k i n v).fabric = s.fabric := rfl
@[simp] theorem State.setCount_pockets (k : RegKind) (i n : Nat) (v : Word) : (s.setCount k i n v).pockets = s.pockets := rfl
@[simp] theorem State.setCount_crushers (k : RegKind) (i n : Nat) (v : Word) : (s.setCount k i n v).crushers = s.crushers := rfl
@[simp] theorem State.setCount_sump (k : RegKind) (i n : Nat) (v : Word) : (s.setCount k i n v).sump = s.sump := rfl
@[simp] theorem State.setCount_portals (k : RegKind) (i n : Nat) (v : Word) : (s.setCount k i n v).portals = s.portals := rfl
@[simp] theorem State.setCount_crossings (k : RegKind) (i n : Nat) (v : Word) : (s.setCount k i n v).crossings = s.crossings := rfl
@[simp] theorem State.setCount_haul (k : RegKind) (i n : Nat) (v : Word) : (s.setCount k i n v).haul = s.haul := rfl
@[simp] theorem State.setCount_lanes (k : RegKind) (i n : Nat) (v : Word) : (s.setCount k i n v).lanes = s.lanes := rfl
@[simp] theorem State.setCount_foreman (k : RegKind) (i n : Nat) (v : Word) : (s.setCount k i n v).foreman = s.foreman := rfl
@[simp] theorem State.setCount_history (k : RegKind) (i n : Nat) (v : Word) : (s.setCount k i n v).history = s.history := rfl
@[simp] theorem State.setCount_flog (k : RegKind) (i n : Nat) (v : Word) : (s.setCount k i n v).flog = s.flog := rfl
@[simp] theorem State.setCount_power (k : RegKind) (i n : Nat) (v : Word) : (s.setCount k i n v).power = s.power := rfl
@[simp] theorem State.setCount_patrol (k : RegKind) (i n : Nat) (v : Word) : (s.setCount k i n v).patrol = s.patrol := rfl
@[simp] theorem State.setCount_pins (k : RegKind) (i n : Nat) (v : Word) : (s.setCount k i n v).pins = s.pins := rfl
@[simp] theorem State.setCount_jtag (k : RegKind) (i n : Nat) (v : Word) : (s.setCount k i n v).jtag = s.jtag := rfl
@[simp] theorem State.setCount_test (k : RegKind) (i n : Nat) (v : Word) : (s.setCount k i n v).test = s.test := rfl
@[simp] theorem State.setCount_freeCtr (k : RegKind) (i n : Nat) (v : Word) : (s.setCount k i n v).freeCtr = s.freeCtr := rfl
@[simp] theorem State.setCount_pending (k : RegKind) (i n : Nat) (v : Word) : (s.setCount k i n v).pending = s.pending := rfl

@[simp] theorem State.setCtx_clocks (e k w : Nat) (v : Word) : (s.setCtx e k w v).clocks = s.clocks := rfl
@[simp] theorem State.setCtx_regs (e k w : Nat) (v : Word) : (s.setCtx e k w v).regs = s.regs := rfl
@[simp] theorem State.setCtx_ports (e k w : Nat) (v : Word) : (s.setCtx e k w v).ports = s.ports := rfl
@[simp] theorem State.setCtx_cavs (e k w : Nat) (v : Word) : (s.setCtx e k w v).cavs = s.cavs := rfl
@[simp] theorem State.setCtx_cfg (e k w : Nat) (v : Word) : (s.setCtx e k w v).cfg = s.cfg := rfl
@[simp] theorem State.setCtx_conf (e k w : Nat) (v : Word) : (s.setCtx e k w v).conf = s.conf := rfl
@[simp] theorem State.setCtx_fabric (e k w : Nat) (v : Word) : (s.setCtx e k w v).fabric = s.fabric := rfl
@[simp] theorem State.setCtx_pockets (e k w : Nat) (v : Word) : (s.setCtx e k w v).pockets = s.pockets := rfl
@[simp] theorem State.setCtx_crushers (e k w : Nat) (v : Word) : (s.setCtx e k w v).crushers = { s.crushers with ctx := tabSet 0 s.crushers.ctx (64 * clientKey e k + w) v } := rfl
@[simp] theorem State.setCtx_sump (e k w : Nat) (v : Word) : (s.setCtx e k w v).sump = s.sump := rfl
@[simp] theorem State.setCtx_portals (e k w : Nat) (v : Word) : (s.setCtx e k w v).portals = s.portals := rfl
@[simp] theorem State.setCtx_crossings (e k w : Nat) (v : Word) : (s.setCtx e k w v).crossings = s.crossings := rfl
@[simp] theorem State.setCtx_haul (e k w : Nat) (v : Word) : (s.setCtx e k w v).haul = s.haul := rfl
@[simp] theorem State.setCtx_lanes (e k w : Nat) (v : Word) : (s.setCtx e k w v).lanes = s.lanes := rfl
@[simp] theorem State.setCtx_foreman (e k w : Nat) (v : Word) : (s.setCtx e k w v).foreman = s.foreman := rfl
@[simp] theorem State.setCtx_history (e k w : Nat) (v : Word) : (s.setCtx e k w v).history = s.history := rfl
@[simp] theorem State.setCtx_flog (e k w : Nat) (v : Word) : (s.setCtx e k w v).flog = s.flog := rfl
@[simp] theorem State.setCtx_power (e k w : Nat) (v : Word) : (s.setCtx e k w v).power = s.power := rfl
@[simp] theorem State.setCtx_patrol (e k w : Nat) (v : Word) : (s.setCtx e k w v).patrol = s.patrol := rfl
@[simp] theorem State.setCtx_pins (e k w : Nat) (v : Word) : (s.setCtx e k w v).pins = s.pins := rfl
@[simp] theorem State.setCtx_jtag (e k w : Nat) (v : Word) : (s.setCtx e k w v).jtag = s.jtag := rfl
@[simp] theorem State.setCtx_test (e k w : Nat) (v : Word) : (s.setCtx e k w v).test = s.test := rfl
@[simp] theorem State.setCtx_fresh (e k w : Nat) (v : Word) : (s.setCtx e k w v).fresh = s.fresh := rfl
@[simp] theorem State.setCtx_freeCtr (e k w : Nat) (v : Word) : (s.setCtx e k w v).freeCtr = s.freeCtr := rfl
@[simp] theorem State.setCtx_pending (e k w : Nat) (v : Word) : (s.setCtx e k w v).pending = s.pending := rfl

@[simp] theorem State.setCell_clocks (cav x y k : Nat) (v : Cell) : (s.setCell cav x y k v).clocks = s.clocks := rfl
@[simp] theorem State.setCell_regs (cav x y k : Nat) (v : Cell) : (s.setCell cav x y k v).regs = s.regs := rfl
@[simp] theorem State.setCell_ports (cav x y k : Nat) (v : Cell) : (s.setCell cav x y k v).ports = s.ports := rfl
@[simp] theorem State.setCell_cavs (cav x y k : Nat) (v : Cell) : (s.setCell cav x y k v).cavs = s.cavs := rfl
@[simp] theorem State.setCell_cfg (cav x y k : Nat) (v : Cell) : (s.setCell cav x y k v).cfg = s.cfg := rfl
@[simp] theorem State.setCell_conf (cav x y k : Nat) (v : Cell) : (s.setCell cav x y k v).conf = s.conf := rfl
@[simp] theorem State.setCell_fabric (cav x y k : Nat) (v : Cell) : (s.setCell cav x y k v).fabric = { s.fabric with cells := tabSet {} s.fabric.cells (cellKey cav x y k) v } := rfl
@[simp] theorem State.setCell_pockets (cav x y k : Nat) (v : Cell) : (s.setCell cav x y k v).pockets = s.pockets := rfl
@[simp] theorem State.setCell_crushers (cav x y k : Nat) (v : Cell) : (s.setCell cav x y k v).crushers = s.crushers := rfl
@[simp] theorem State.setCell_sump (cav x y k : Nat) (v : Cell) : (s.setCell cav x y k v).sump = s.sump := rfl
@[simp] theorem State.setCell_portals (cav x y k : Nat) (v : Cell) : (s.setCell cav x y k v).portals = s.portals := rfl
@[simp] theorem State.setCell_crossings (cav x y k : Nat) (v : Cell) : (s.setCell cav x y k v).crossings = s.crossings := rfl
@[simp] theorem State.setCell_haul (cav x y k : Nat) (v : Cell) : (s.setCell cav x y k v).haul = s.haul := rfl
@[simp] theorem State.setCell_lanes (cav x y k : Nat) (v : Cell) : (s.setCell cav x y k v).lanes = s.lanes := rfl
@[simp] theorem State.setCell_foreman (cav x y k : Nat) (v : Cell) : (s.setCell cav x y k v).foreman = s.foreman := rfl
@[simp] theorem State.setCell_history (cav x y k : Nat) (v : Cell) : (s.setCell cav x y k v).history = s.history := rfl
@[simp] theorem State.setCell_flog (cav x y k : Nat) (v : Cell) : (s.setCell cav x y k v).flog = s.flog := rfl
@[simp] theorem State.setCell_power (cav x y k : Nat) (v : Cell) : (s.setCell cav x y k v).power = s.power := rfl
@[simp] theorem State.setCell_patrol (cav x y k : Nat) (v : Cell) : (s.setCell cav x y k v).patrol = s.patrol := rfl
@[simp] theorem State.setCell_pins (cav x y k : Nat) (v : Cell) : (s.setCell cav x y k v).pins = s.pins := rfl
@[simp] theorem State.setCell_jtag (cav x y k : Nat) (v : Cell) : (s.setCell cav x y k v).jtag = s.jtag := rfl
@[simp] theorem State.setCell_test (cav x y k : Nat) (v : Cell) : (s.setCell cav x y k v).test = s.test := rfl
@[simp] theorem State.setCell_fresh (cav x y k : Nat) (v : Cell) : (s.setCell cav x y k v).fresh = s.fresh := rfl
@[simp] theorem State.setCell_freeCtr (cav x y k : Nat) (v : Cell) : (s.setCell cav x y k v).freeCtr = s.freeCtr := rfl
@[simp] theorem State.setCell_pending (cav x y k : Nat) (v : Cell) : (s.setCell cav x y k v).pending = s.pending := rfl

@[simp] theorem State.setChoice_clocks (c : ChamberId) (v : Choice) : (s.setChoice c v).clocks = s.clocks := rfl
@[simp] theorem State.setChoice_regs (c : ChamberId) (v : Choice) : (s.setChoice c v).regs = s.regs := rfl
@[simp] theorem State.setChoice_ports (c : ChamberId) (v : Choice) : (s.setChoice c v).ports = s.ports := rfl
@[simp] theorem State.setChoice_cavs (c : ChamberId) (v : Choice) : (s.setChoice c v).cavs = s.cavs := rfl
@[simp] theorem State.setChoice_cfg (c : ChamberId) (v : Choice) : (s.setChoice c v).cfg = s.cfg := rfl
@[simp] theorem State.setChoice_conf (c : ChamberId) (v : Choice) : (s.setChoice c v).conf = s.conf := rfl
@[simp] theorem State.setChoice_fabric (c : ChamberId) (v : Choice) : (s.setChoice c v).fabric = { s.fabric with choices := tabSet {} s.fabric.choices (chamberKey c.cav.val c.x.val c.y.val) v } := rfl
@[simp] theorem State.setChoice_pockets (c : ChamberId) (v : Choice) : (s.setChoice c v).pockets = s.pockets := rfl
@[simp] theorem State.setChoice_crushers (c : ChamberId) (v : Choice) : (s.setChoice c v).crushers = s.crushers := rfl
@[simp] theorem State.setChoice_sump (c : ChamberId) (v : Choice) : (s.setChoice c v).sump = s.sump := rfl
@[simp] theorem State.setChoice_portals (c : ChamberId) (v : Choice) : (s.setChoice c v).portals = s.portals := rfl
@[simp] theorem State.setChoice_crossings (c : ChamberId) (v : Choice) : (s.setChoice c v).crossings = s.crossings := rfl
@[simp] theorem State.setChoice_haul (c : ChamberId) (v : Choice) : (s.setChoice c v).haul = s.haul := rfl
@[simp] theorem State.setChoice_lanes (c : ChamberId) (v : Choice) : (s.setChoice c v).lanes = s.lanes := rfl
@[simp] theorem State.setChoice_foreman (c : ChamberId) (v : Choice) : (s.setChoice c v).foreman = s.foreman := rfl
@[simp] theorem State.setChoice_history (c : ChamberId) (v : Choice) : (s.setChoice c v).history = s.history := rfl
@[simp] theorem State.setChoice_flog (c : ChamberId) (v : Choice) : (s.setChoice c v).flog = s.flog := rfl
@[simp] theorem State.setChoice_power (c : ChamberId) (v : Choice) : (s.setChoice c v).power = s.power := rfl
@[simp] theorem State.setChoice_patrol (c : ChamberId) (v : Choice) : (s.setChoice c v).patrol = s.patrol := rfl
@[simp] theorem State.setChoice_pins (c : ChamberId) (v : Choice) : (s.setChoice c v).pins = s.pins := rfl
@[simp] theorem State.setChoice_jtag (c : ChamberId) (v : Choice) : (s.setChoice c v).jtag = s.jtag := rfl
@[simp] theorem State.setChoice_test (c : ChamberId) (v : Choice) : (s.setChoice c v).test = s.test := rfl
@[simp] theorem State.setChoice_fresh (c : ChamberId) (v : Choice) : (s.setChoice c v).fresh = s.fresh := rfl
@[simp] theorem State.setChoice_freeCtr (c : ChamberId) (v : Choice) : (s.setChoice c v).freeCtr = s.freeCtr := rfl
@[simp] theorem State.setChoice_pending (c : ChamberId) (v : Choice) : (s.setChoice c v).pending = s.pending := rfl

@[simp] theorem State.withJtag_clocks (f : Jtag → Jtag) : (s.withJtag f).clocks = s.clocks := rfl
@[simp] theorem State.withJtag_regs (f : Jtag → Jtag) : (s.withJtag f).regs = s.regs := rfl
@[simp] theorem State.withJtag_ports (f : Jtag → Jtag) : (s.withJtag f).ports = s.ports := rfl
@[simp] theorem State.withJtag_cavs (f : Jtag → Jtag) : (s.withJtag f).cavs = s.cavs := rfl
@[simp] theorem State.withJtag_cfg (f : Jtag → Jtag) : (s.withJtag f).cfg = s.cfg := rfl
@[simp] theorem State.withJtag_conf (f : Jtag → Jtag) : (s.withJtag f).conf = s.conf := rfl
@[simp] theorem State.withJtag_fabric (f : Jtag → Jtag) : (s.withJtag f).fabric = s.fabric := rfl
@[simp] theorem State.withJtag_pockets (f : Jtag → Jtag) : (s.withJtag f).pockets = s.pockets := rfl
@[simp] theorem State.withJtag_crushers (f : Jtag → Jtag) : (s.withJtag f).crushers = s.crushers := rfl
@[simp] theorem State.withJtag_sump (f : Jtag → Jtag) : (s.withJtag f).sump = s.sump := rfl
@[simp] theorem State.withJtag_portals (f : Jtag → Jtag) : (s.withJtag f).portals = s.portals := rfl
@[simp] theorem State.withJtag_crossings (f : Jtag → Jtag) : (s.withJtag f).crossings = s.crossings := rfl
@[simp] theorem State.withJtag_haul (f : Jtag → Jtag) : (s.withJtag f).haul = s.haul := rfl
@[simp] theorem State.withJtag_lanes (f : Jtag → Jtag) : (s.withJtag f).lanes = s.lanes := rfl
@[simp] theorem State.withJtag_foreman (f : Jtag → Jtag) : (s.withJtag f).foreman = s.foreman := rfl
@[simp] theorem State.withJtag_history (f : Jtag → Jtag) : (s.withJtag f).history = s.history := rfl
@[simp] theorem State.withJtag_flog (f : Jtag → Jtag) : (s.withJtag f).flog = s.flog := rfl
@[simp] theorem State.withJtag_power (f : Jtag → Jtag) : (s.withJtag f).power = s.power := rfl
@[simp] theorem State.withJtag_patrol (f : Jtag → Jtag) : (s.withJtag f).patrol = s.patrol := rfl
@[simp] theorem State.withJtag_pins (f : Jtag → Jtag) : (s.withJtag f).pins = s.pins := rfl
@[simp] theorem State.withJtag_jtag (f : Jtag → Jtag) : (s.withJtag f).jtag = f s.jtag := rfl
@[simp] theorem State.withJtag_test (f : Jtag → Jtag) : (s.withJtag f).test = s.test := rfl
@[simp] theorem State.withJtag_fresh (f : Jtag → Jtag) : (s.withJtag f).fresh = s.fresh := rfl
@[simp] theorem State.withJtag_freeCtr (f : Jtag → Jtag) : (s.withJtag f).freeCtr = s.freeCtr := rfl
@[simp] theorem State.withJtag_pending (f : Jtag → Jtag) : (s.withJtag f).pending = s.pending := rfl

/-! ### Masters of the haul road: beside the master, only its channel's own registers change -/

@[simp] theorem State.modMaster_clocks (m : Nat) (f : Hauler → Hauler) : (s.modMaster m f).clocks = s.clocks := by
  unfold State.modMaster showHauler
  split <;> rfl

@[simp] theorem State.modMaster_ports (m : Nat) (f : Hauler → Hauler) : (s.modMaster m f).ports = s.ports := by
  unfold State.modMaster showHauler
  split <;> rfl

@[simp] theorem State.modMaster_cavs (m : Nat) (f : Hauler → Hauler) : (s.modMaster m f).cavs = s.cavs := by
  unfold State.modMaster showHauler
  split <;> rfl

@[simp] theorem State.modMaster_cfg (m : Nat) (f : Hauler → Hauler) : (s.modMaster m f).cfg = s.cfg := by
  unfold State.modMaster showHauler
  split <;> rfl

@[simp] theorem State.modMaster_conf (m : Nat) (f : Hauler → Hauler) : (s.modMaster m f).conf = s.conf := by
  unfold State.modMaster showHauler
  split <;> rfl

@[simp] theorem State.modMaster_fabric (m : Nat) (f : Hauler → Hauler) : (s.modMaster m f).fabric = s.fabric := by
  unfold State.modMaster showHauler
  split <;> rfl

@[simp] theorem State.modMaster_pockets (m : Nat) (f : Hauler → Hauler) : (s.modMaster m f).pockets = s.pockets := by
  unfold State.modMaster showHauler
  split <;> rfl

@[simp] theorem State.modMaster_crushers (m : Nat) (f : Hauler → Hauler) : (s.modMaster m f).crushers = s.crushers := by
  unfold State.modMaster showHauler
  split <;> rfl

@[simp] theorem State.modMaster_sump (m : Nat) (f : Hauler → Hauler) : (s.modMaster m f).sump = s.sump := by
  unfold State.modMaster showHauler
  split <;> rfl

@[simp] theorem State.modMaster_portals (m : Nat) (f : Hauler → Hauler) : (s.modMaster m f).portals = s.portals := by
  unfold State.modMaster showHauler
  split <;> rfl

@[simp] theorem State.modMaster_crossings (m : Nat) (f : Hauler → Hauler) : (s.modMaster m f).crossings = s.crossings := by
  unfold State.modMaster showHauler
  split <;> rfl

@[simp] theorem State.modMaster_haul (m : Nat) (f : Hauler → Hauler) : (s.modMaster m f).haul = { s.haul with chans := tabMod {} s.haul.chans m f } := by
  unfold State.modMaster showHauler
  split <;> rfl

@[simp] theorem State.modMaster_lanes (m : Nat) (f : Hauler → Hauler) : (s.modMaster m f).lanes = s.lanes := by
  unfold State.modMaster showHauler
  split <;> rfl

@[simp] theorem State.modMaster_foreman (m : Nat) (f : Hauler → Hauler) : (s.modMaster m f).foreman = s.foreman := by
  unfold State.modMaster showHauler
  split <;> rfl

@[simp] theorem State.modMaster_history (m : Nat) (f : Hauler → Hauler) : (s.modMaster m f).history = s.history := by
  unfold State.modMaster showHauler
  split <;> rfl

@[simp] theorem State.modMaster_flog (m : Nat) (f : Hauler → Hauler) : (s.modMaster m f).flog = s.flog := by
  unfold State.modMaster showHauler
  split <;> rfl

@[simp] theorem State.modMaster_power (m : Nat) (f : Hauler → Hauler) : (s.modMaster m f).power = s.power := by
  unfold State.modMaster showHauler
  split <;> rfl

@[simp] theorem State.modMaster_patrol (m : Nat) (f : Hauler → Hauler) : (s.modMaster m f).patrol = s.patrol := by
  unfold State.modMaster showHauler
  split <;> rfl

@[simp] theorem State.modMaster_pins (m : Nat) (f : Hauler → Hauler) : (s.modMaster m f).pins = s.pins := by
  unfold State.modMaster showHauler
  split <;> rfl

@[simp] theorem State.modMaster_jtag (m : Nat) (f : Hauler → Hauler) : (s.modMaster m f).jtag = s.jtag := by
  unfold State.modMaster showHauler
  split <;> rfl

@[simp] theorem State.modMaster_test (m : Nat) (f : Hauler → Hauler) : (s.modMaster m f).test = s.test := by
  unfold State.modMaster showHauler
  split <;> rfl

@[simp] theorem State.modMaster_fresh (m : Nat) (f : Hauler → Hauler) : (s.modMaster m f).fresh = s.fresh := by
  unfold State.modMaster showHauler
  split <;> rfl

@[simp] theorem State.modMaster_freeCtr (m : Nat) (f : Hauler → Hauler) : (s.modMaster m f).freeCtr = s.freeCtr := by
  unfold State.modMaster showHauler
  split <;> rfl

@[simp] theorem State.modMaster_pending (m : Nat) (f : Hauler → Hauler) : (s.modMaster m f).pending = s.pending := by
  unfold State.modMaster showHauler
  split <;> rfl

/-! ### Registers -/

theorem tabGet_tabErase_ne {α : Type} (d : α) (t : Tab α) {k j : Nat} (h : k ≠ j) : tabGet d (tabErase t k) j = tabGet d t j := by
  rw [tabGet_tabErase, if_neg h]

theorem tabGet_tabInsert_ne {α : Type} (d : α) (t : Tab α) {k j : Nat} (v : α) (h : k ≠ j) :
    tabGet d (tabInsert t k v) j = tabGet d t j := by
  induction t with
  | nil => simp [tabInsert, h]
  | cons e r ih =>
    obtain ⟨i, w⟩ := e
    simp only [tabInsert]
    split
    · simp [h]
    · simp [ih]

/-- A write at one key leaves every other key alone, whatever an unlisted key reads as. -/
theorem tabGet_tabSet_ne {α : Type} [DecidableEq α] (d e : α) (t : Tab α) {k j : Nat} (v : α) (h : k ≠ j) :
    tabGet d (tabSet e t k v) j = tabGet d t j := by
  unfold tabSet
  split
  · exact tabGet_tabErase_ne d t h
  · rw [tabGet_tabInsert_ne d _ v h, tabGet_tabErase_ne d t h]

/-- A register reads what was written to it. -/
@[simp] theorem State.setReg_reg (k : RegKind) (i : Nat) (v : Word) : (s.setReg k i v).reg k i = v := by
  simp [State.reg, State.setReg]

/-- A write of one register leaves a register at another address alone. -/
theorem State.setReg_reg_ne {k k' : RegKind} {i i' : Nat} (v : Word) (h : k.addr i ≠ k'.addr i') :
    (s.setReg k i v).reg k' i' = s.reg k' i' := tabGet_tabSet_ne _ _ _ _ h

/-- Bits that hardware sets are set. -/
@[simp] theorem State.setBits_reg (k : RegKind) (i : Nat) (bits : Word) : (s.setBits k i bits).reg k i = s.reg k i ||| bits :=
  State.setReg_reg s k i _

/-- A counter that hardware advances reads its new value. -/
@[simp] theorem State.setCount_reg (k : RegKind) (i n : Nat) (v : Word) : (s.setCount k i n v).reg k i = v := State.setReg_reg s k i v

/-- A field write writes the word with the field replaced. -/
@[simp] theorem State.setField_reg (k : RegKind) (i lo len v : Nat) :
    (s.setField k i lo len v).reg k i = putField (s.reg k i) lo len v := State.setReg_reg s k i _

/-- A field write of one register leaves a register at another address alone. -/
theorem State.setField_reg_ne {k k' : RegKind} {i i' : Nat} (lo len v : Nat) (h : k.addr i ≠ k'.addr i') :
    (s.setField k i lo len v).reg k' i' = s.reg k' i' := State.setReg_reg_ne s _ h

end Sys2Proof.Machine
end

