-- ==== Sys2Proof/Laws/Flags.lean ====
section
/-! SUPPORT. What raising an event, setting flags and counting can do: the parts of the state they touch, and the registers they leave
alone. -/

namespace Sys2Proof

open Sys2Proof.Machine

variable (s : State)

/-! ### Registers kept -/

theorem RegsKept.refl (l : List Nat) : RegsKept l s s := fun _ _ _ _ => rfl

theorem RegsKept.trans {l : List Nat} {s t u : State} (h : RegsKept l s t) (g : RegsKept l t u) : RegsKept l s u :=
  fun a d ha he => (g a d ha he).trans (h a d ha he)

theorem RegsKept.mono {l m : List Nat} {s t : State} (h : RegsKept l s t) (hl : ∀ a ∈ l, a ∈ m ∨ eventRegister a = true) :
    RegsKept m s t := fun a d ha he => h a d (fun hm => (hl a hm).elim ha fun e => by simp [e] at he) he

/-- A register whose address is not among those written reads the same. -/
theorem RegsKept.reg {l : List Nat} {s t : State} (h : RegsKept l s t) {k : RegKind} {i : Nat} (ha : k.addr i ∉ l)
    (he : eventRegister (k.addr i) = false) : t.reg k i = s.reg k i := h _ _ ha he

/-- Updates beside the registers keep them. -/
theorem RegsKept.same {l : List Nat} {s t u : State} (h : RegsKept l s t) (e : u.regs = t.regs) : RegsKept l s u :=
  fun a d ha he => by rw [e, h a d ha he]

theorem RegsKept.ite {l : List Nat} {a b : State} {c : Prop} [Decidable c] (ha : RegsKept l s a) (hb : RegsKept l s b) :
    RegsKept l s (if c then a else b) := by
  split <;> assumption

end Sys2Proof

namespace Sys2Proof.Machine

variable (s : State)

theorem setReg_kept (k : RegKind) (i : Nat) (v : Word) : RegsKept [k.addr i] s (s.setReg k i v) := fun a d ha _ =>
  tabGet_tabSet_ne _ _ _ _ fun e => ha (by simp [e])

theorem setField_kept (k : RegKind) (i lo len v : Nat) : RegsKept [k.addr i] s (s.setField k i lo len v) := setReg_kept s k i _

theorem withFresh_kept (l : List Nat) (f : Fresh → Fresh) : RegsKept l s (s.withFresh f) := .same (.refl s l) rfl

theorem setBits_kept (k : RegKind) (i : Nat) (bits : Word) : RegsKept [k.addr i] s (s.setBits k i bits) :=
  (setReg_kept s k i _).trans (withFresh_kept _ _ _)

theorem setCount_kept (k : RegKind) (i n : Nat) (v : Word) : RegsKept [k.addr i] s (s.setCount k i n v) :=
  (setReg_kept s k i v).trans (withFresh_kept _ _ _)

/-- A register of the event controller may be written wherever raising an event may. -/
theorem kept_of_event {l : List Nat} {k : RegKind} {i : Nat} {s t : State} (h : RegsKept [k.addr i] s t)
    (he : eventRegister (k.addr i) = true) : RegsKept l s t := h.mono fun a ha => .inr (by simp_all)

/-! ### Raising events -/

@[simp] theorem setReg_besideFlags (k : RegKind) (i : Nat) (v : Word) : besideFlags (s.setReg k i v) = besideFlags s := rfl

@[simp] theorem setField_besideFlags (k : RegKind) (i lo len v : Nat) : besideFlags (s.setField k i lo len v) = besideFlags s := rfl

@[simp] theorem withFresh_besideFlags (f : Fresh → Fresh) : besideFlags (s.withFresh f) = besideFlags s := rfl

@[simp] theorem setBits_besideFlags (k : RegKind) (i : Nat) (bits : Word) : besideFlags (s.setBits k i bits) = besideFlags s := rfl

@[simp] theorem setCount_besideFlags (k : RegKind) (i n : Nat) (v : Word) : besideFlags (s.setCount k i n v) = besideFlags s := rfl

@[simp] theorem setEvtOvf_besideFlags (b : Nat) : besideFlags (setEvtOvf s b) = besideFlags s := rfl

theorem setEvtOvf_kept (l : List Nat) (b : Nat) : RegsKept l s (setEvtOvf s b) := kept_of_event (setBits_kept s _ _ _) rfl

/-- One raise changes only registers, what has met them in this clock, and the Foreman's event queue. -/
@[simp] theorem raiseOnce_besideFlags (n : Nat) : besideFlags (raiseOnce n s) = besideFlags s := by
  unfold raiseOnce
  extract_lets i b v m s1 s2
  have h1 : besideFlags s1 = besideFlags s := by
    unfold s1 m
    split
    · split
      · rfl
      · split <;> simp
    · rfl
  have h2 : besideFlags s2 = besideFlags s := (setBits_besideFlags s1 _ _ _).trans h1
  split
  · split
    · exact h2
    · exact (setEvtOvf_besideFlags s2 4).trans h2
  · exact h2

/-- One raise writes no register beside the event controller's. -/
theorem raiseOnce_kept (l : List Nat) {n : Nat} (hn : n < 384) : RegsKept l s (raiseOnce n s) := by
  have hp : eventRegister (RegKind.evtPend.addr (n / 32)) = true := by
    show eventRegister (0x20000 + n / 32 * 4) = true
    simp only [eventRegister, Bool.or_eq_true, Bool.and_eq_true, decide_eq_true_eq]
    left; left
    omega
  unfold raiseOnce
  extract_lets i b v m s1 s2
  have h1 : RegsKept l s s1 := by
    unfold s1
    split
    · split
      · exact .refl s l
      · have hm : RegsKept l s m := (kept_of_event (setCount_kept s _ _ _ _) rfl).trans (withFresh_kept _ _ _)
        exact RegsKept.ite s (hm.trans (setEvtOvf_kept _ l _)) hm
    · exact .refl s l
  have h2 : RegsKept l s s2 := h1.trans (kept_of_event (setBits_kept _ _ _ _) hp)
  split
  · split
    · exact .same h2 rfl
    · exact h2.trans (setEvtOvf_kept _ l _)
  · exact h2

/-- Raising an event changes only registers and the Foreman's event queue. -/
@[simp] theorem raiseEvent_besideFlags (n : Nat) : besideFlags (raiseEvent n s) = besideFlags s := by
  unfold raiseEvent
  dsimp only
  split <;> simp

/-- Raising an event writes no register beside the event controller's. -/
theorem raiseEvent_kept (l : List Nat) {n : Nat} (hn : n < 384) : RegsKept l s (raiseEvent n s) := by
  have h := raiseOnce_kept s l hn
  exact RegsKept.ite s (h.trans (raiseOnce_kept _ l (by decide))) h

/-- Events raised in order change only registers and the Foreman's event queue. -/
@[simp] theorem raiseAll_besideFlags (ns : List Nat) : besideFlags (raiseAll ns s) = besideFlags s := by
  unfold raiseAll
  induction ns generalizing s with
  | nil => rfl
  | cons n ns ih => rw [List.foldl_cons, ih, raiseEvent_besideFlags]

theorem raiseAll_kept (l : List Nat) {ns : List Nat} (hn : ∀ n ∈ ns, n < 384) : RegsKept l s (raiseAll ns s) := by
  unfold raiseAll
  induction ns generalizing s with
  | nil => exact .refl s l
  | cons n ns ih =>
    exact (raiseEvent_kept s l (hn n List.mem_cons_self)).trans (ih _ fun m hm => hn m (List.mem_cons_of_mem _ hm))

@[simp] theorem evtOverflow_besideFlags (b : Nat) : besideFlags (evtOverflow b s) = besideFlags s := by
  unfold evtOverflow
  split <;> simp

theorem evtOverflow_kept (l : List Nat) (b : Nat) : RegsKept l s (evtOverflow b s) :=
  RegsKept.ite s (setEvtOvf_kept s l b) ((setEvtOvf_kept s l b).trans (raiseEvent_kept _ l (by decide)))

@[simp] theorem offerEvent_besideFlags (cls n : Nat) : besideFlags (offerEvent cls n s) = besideFlags s := rfl

/-! ### Flags -/

/-- Setting flags changes only registers, the Foreman's event queue, and what waits at the event crossings. -/
@[simp] theorem setFlags_besideFlags (k en : RegKind) (i : Nat) (how : Raising) (bits : Word) :
    besideFlags (setFlags k en i how bits s) = besideFlags s := by
  unfold setFlags
  cases how <;> dsimp only <;> (try split) <;> simp

/-- The events that a way of raising names exist. -/
def Raising.named : Raising → Prop
  | .perBit first => first + 32 ≤ 384
  | .perReg ev => ev < 384
  | .crossing _ _ => True

/-- Raising after the flags are written: nothing but the event controller's registers. -/
theorem setFlags_after {k en : RegKind} {i : Nat} {how : Raising} (bits : Word) (l : List Nat) (hw : how.named) :
    RegsKept l (s.setBits k i bits) (setFlags k en i how bits s) := by
  unfold setFlags
  dsimp only
  cases how with
  | perBit first =>
    refine raiseAll_kept _ l fun n hn => ?_
    obtain ⟨b, hb, hn⟩ := List.mem_filterMap.1 hn
    have hw : first + 32 ≤ 384 := hw
    rw [List.mem_range] at hb
    split at hn
    · simp only [Option.some.injEq] at hn
      omega
    · simp at hn
  | perReg ev => exact RegsKept.ite _ (.refl _ l) (raiseEvent_kept _ l hw)
  | crossing cls ev => exact RegsKept.ite _ (.refl _ l) (.same (.refl _ l) rfl)

/-- Setting flags sets them in their register. -/
theorem setFlags_self {k en : RegKind} {i : Nat} {how : Raising} (bits : Word) (hw : how.named)
    (h : eventRegister (k.addr i) = false) : (setFlags k en i how bits s).reg k i = s.reg k i ||| bits :=
  ((setFlags_after s bits [] hw).reg (by simp) h).trans (State.setBits_reg s k i bits)

/-- Setting flags writes no other register beside the event controller's. -/
theorem setFlags_kept {k en : RegKind} {i : Nat} {how : Raising} (bits : Word) (hw : how.named) :
    RegsKept [k.addr i] s (setFlags k en i how bits s) := (setBits_kept s k i bits).trans (setFlags_after s bits _ hw)

/-! ### Counters -/

/-- A statistics counter below its greatest value counts one. -/
theorem countStat_self {k : RegKind} {i : Nat} {report : State → State} (h : s.reg k i ≠ 0xFFFFFFFF)
    (hr : ∀ t, (report t).reg k i = t.reg k i) : (countStat k i report s).reg k i = s.reg k i + 1 := by
  unfold countStat
  dsimp only
  rw [if_neg h]
  split <;> simp [hr]

/-- A statistics counter at its greatest value stays there. -/
theorem countStat_full {k : RegKind} {i : Nat} {report : State → State} (h : s.reg k i = 0xFFFFFFFF) :
    countStat k i report s = s := if_pos h

/-- Counting writes the counter and what its report writes. -/
theorem countStat_kept {k : RegKind} {i : Nat} {report : State → State} {l : List Nat} (hk : k.addr i ∈ l)
    (hr : ∀ t, RegsKept l t (report t)) : RegsKept l s (countStat k i report s) := by
  have h : RegsKept l s (s.setCount k i 1 (s.reg k i + 1)) := (setCount_kept s k i 1 _).mono fun a ha => .inl (by simp_all)
  exact RegsKept.ite s (.refl s l) (RegsKept.ite s (h.trans (hr _)) h)

theorem countStat_besideFlags {k : RegKind} {i : Nat} {report : State → State} (hr : ∀ t, besideFlags (report t) = besideFlags t) :
    besideFlags (countStat k i report s) = besideFlags s := by
  unfold countStat
  dsimp only
  repeat' split
  all_goals simp [hr]

/-! ### Fields -/

theorem bitAnd_shift (a b lo len : Nat) (h : b < 2 ^ len) : (a ||| b <<< lo) >>> lo % 2 ^ len = (a >>> lo % 2 ^ len) ||| b := by
  apply Nat.eq_of_testBit_eq
  intro j
  simp only [Nat.testBit_mod_two_pow, Nat.testBit_shiftRight, Nat.testBit_or, Nat.testBit_shiftLeft]
  by_cases hj : j < len
  · simp [hj]
  · have : b.testBit j = false := Nat.testBit_lt_two_pow (h.trans_le (Nat.pow_le_pow_right (by decide) (by omega)))
    simp [hj, this]

/-- A field that hardware writes holds the value written, cut to its width. -/
theorem putField_field (w : Word) {lo len : Nat} (v : Nat) (h : lo + len ≤ 32) :
    bitsOf lo len (putField w lo len v).toNat = v % 2 ^ len := by
  have hv : v % 2 ^ len < 2 ^ len := Nat.mod_lt _ (by positivity)
  have hp : (v % 2 ^ len) <<< lo < 2 ^ 32 := by
    rw [Nat.shiftLeft_eq]
    calc v % 2 ^ len * 2 ^ lo < 2 ^ len * 2 ^ lo := Nat.mul_lt_mul_of_pos_right hv (by positivity)
      _ = 2 ^ (lo + len) := by rw [pow_add, mul_comm]
      _ ≤ 2 ^ 32 := Nat.pow_le_pow_right (by decide) h
  have hz : (w &&& ~~~ (word (place lo len (2 ^ len - 1)))).toNat >>> lo % 2 ^ len = 0 := by
    apply Nat.eq_of_testBit_eq
    intro j
    simp only [Nat.testBit_mod_two_pow, Nat.testBit_shiftRight, Nat.zero_testBit, Bool.and_eq_false_iff, decide_eq_false_iff_not]
    by_cases hj : j < len
    · right
      have h1 : lo + j < 32 := by omega
      rw [BitVec.testBit_toNat, BitVec.getLsbD_and, BitVec.getLsbD_not]
      have : (word (place lo len (2 ^ len - 1))).getLsbD (lo + j) = true := by
        unfold word place
        rw [BitVec.getLsbD_ofNat, Nat.testBit_shiftLeft, Nat.testBit_mod_two_pow, Nat.testBit_two_pow_sub_one]
        simp [h1, hj]
      simp [this]
    · exact .inl hj
  unfold bitsOf putField
  rw [BitVec.toNat_or]
  have hw : (word (place lo len v)).toNat = (v % 2 ^ len) <<< lo := by
    unfold word place
    rw [BitVec.toNat_ofNat, Nat.mod_eq_of_lt hp]
  rw [hw, bitAnd_shift _ _ _ _ hv, hz, Nat.zero_or]

/-- A field that hardware writes reads back. -/
theorem State.setField_field (k : RegKind) (i : Nat) {lo len : Nat} (v : Nat) (h : lo + len ≤ 32) :
    (s.setField k i lo len v).field k i lo len = v % 2 ^ len := by
  unfold State.field
  rw [State.setField_reg, putField_field _ _ h]

end Sys2Proof.Machine
end

