-- ==== Sys2Proof/Laws/Keeps.lean ====
section
/-! SUPPORT. What every operation of the block keeps, said once as a relation between the state before and the state after: the queue of
commands, programmed bits of the one-time-programmable memory, the canonical form of the memories, the clocks' bounds, the
logs' bounds. Operations compose by it. -/

namespace Sys2Proof.Machine

/-- The parts of a state that the kept properties speak of. -/
structure Kept where
  pending : List Instr
  otp : Tab Word
  store : Mem
  ram : Mem
  rows : Tab (BitVec 72)
  stamp : Nat
  phase : Nat
  entries : List (Word × Word)
  queue : List (Nat × Nat)

/-- The kept parts of a state. -/
def State.kept (s : State) : Kept :=
  ⟨s.pending, s.conf.otp, s.conf.store, s.foreman.ram, s.pockets.rows, s.clocks.stamp, s.clocks.phase, s.flog.entries, s.history.queue⟩

/-- The relation on the kept parts. -/
structure KeptFrom (a b : Kept) : Prop where
  pending : b.pending = a.pending
  otp : ∀ i, tabGet 0 b.otp i &&& tabGet 0 a.otp i = tabGet 0 a.otp i
  otpWf : tabWf 0 a.otp = true → tabWf 0 b.otp = true
  store : memWf storeFill a.store = true → memWf storeFill b.store = true
  ram : memWf ramFill a.ram = true → memWf ramFill b.ram = true
  rows : tabWf 0 a.rows = true → tabWf 0 b.rows = true
  clocks : a.stamp % 10 = 0 ∧ a.stamp < 2 ^ 64 ∧ a.phase < 60 → b.stamp % 10 = 0 ∧ b.stamp < 2 ^ 64 ∧ b.phase < 60
  entries : a.entries.length ≤ 64 → b.entries.length ≤ 64
  queue : a.queue.length ≤ 32 → b.queue.length ≤ 32

/-- From `r` to `s` the block has kept what every operation keeps. -/
def Keeps (r s : State) : Prop := KeptFrom r.kept s.kept

theorem Keeps.refl (s : State) : Keeps s s :=
  ⟨rfl, fun i => by simp, id, id, id, id, id, id, id⟩

theorem Keeps.trans {r s t : State} (h : Keeps r s) (g : Keeps s t) : Keeps r t :=
  ⟨g.pending.trans h.pending,
   fun i => by
    have h1 := h.otp i
    have h2 := g.otp i
    rw [← h1, ← BitVec.and_assoc, h2],
   g.otpWf ∘ h.otpWf, g.store ∘ h.store, g.ram ∘ h.ram, g.rows ∘ h.rows, g.clocks ∘ h.clocks, g.entries ∘ h.entries,
   g.queue ∘ h.queue⟩

/-- An update that leaves the kept parts alone. -/
theorem Keeps.same {r s t : State} (h : Keeps r s) (e : t.kept = s.kept) : Keeps r t := by
  unfold Keeps at *
  rw [e]
  exact h

theorem Keeps.ite {r a b : State} {c : Prop} [Decidable c] (ha : Keeps r a) (hb : Keeps r b) :
    Keeps r (if c then a else b) := by
  split <;> assumption

theorem Keeps.iteSnd {β : Type} {r : State} {a b : β × State} {c : Prop} [Decidable c] (ha : Keeps r a.2) (hb : Keeps r b.2) :
    Keeps r (if c then a else b).2 := by
  split <;> assumption

theorem Keeps.mkSnd {β : Type} {r t : State} {b : β} (h : Keeps r t) : Keeps r (b, t).2 := h

theorem Keeps.ofPair {β : Type} {r t : State} {x : β × State} {b : β} (e : x = (b, t)) (h : Keeps r x.2) : Keeps r t := by
  rw [e] at h
  exact h

theorem State.withConf_same {r s : State} (f : Conf → Conf) (hs : (f s.conf).store = s.conf.store)
    (ho : (f s.conf).otp = s.conf.otp) (h : Keeps r s) : Keeps r (s.withConf f) :=
  h.same (by simp [State.kept, State.withConf, hs, ho])

theorem State.withForeman_same {r s : State} (f : Foreman → Foreman) (hs : (f s.foreman).ram = s.foreman.ram)
    (h : Keeps r s) : Keeps r (s.withForeman f) :=
  h.same (by simp [State.kept, State.withForeman, hs])

/-- A write of the Pockets' rows that keeps their canonical form. -/
theorem Keeps.setRows {r s t : State} (h : Keeps r s) (e : t.kept = { s.kept with rows := t.pockets.rows })
    (g : tabWf 0 s.pockets.rows = true → tabWf 0 t.pockets.rows = true) : Keeps r t := by
  unfold Keeps
  rw [e]
  exact { h with rows := fun v => g (h.rows v) }

/-- A write of the Foreman's RAM that keeps its canonical form. -/
theorem Keeps.setRam {r s t : State} (h : Keeps r s) (e : t.kept = { s.kept with ram := t.foreman.ram })
    (g : memWf ramFill s.foreman.ram = true → memWf ramFill t.foreman.ram = true) : Keeps r t := by
  unfold Keeps
  rw [e]
  exact { h with ram := fun v => g (h.ram v) }

/-- A write of the image store that keeps its canonical form. -/
theorem Keeps.setStore {r s t : State} (h : Keeps r s) (e : t.kept = { s.kept with store := t.conf.store })
    (g : memWf storeFill s.conf.store = true → memWf storeFill t.conf.store = true) : Keeps r t := by
  unfold Keeps
  rw [e]
  exact { h with store := fun v => g (h.store v) }

/-- Bits of a word of the one-time-programmable memory programmed. -/
theorem Keeps.orOtp {r s t : State} (h : Keeps r s) (i : Nat) (v : Word)
    (e : t.kept = { s.kept with otp := tabMod 0 s.conf.otp i (· ||| v) }) : Keeps r t := by
  unfold Keeps
  rw [e]
  have hs : Keeps s t := by
    unfold Keeps
    rw [e]
    refine { Keeps.refl s with otp := fun j => ?_, otpWf := fun g => tabMod_wf 0 s.conf.otp i (· ||| v) g }
    simp only [tabGet_tabMod, State.kept]
    split
    · rename_i hj
      subst hj
      ext k
      simp only [BitVec.getElem_and, BitVec.getElem_or]
      cases (tabGet 0 s.conf.otp i)[k] <;> simp
    · exact BitVec.and_self
  have ht := h.trans hs
  unfold Keeps at ht
  rw [e] at ht
  exact ht

/-- Clock counts that keep their bounds. -/
theorem Keeps.setClocks {r s t : State} (h : Keeps r s)
    (e : t.kept = { s.kept with stamp := t.clocks.stamp, phase := t.clocks.phase })
    (g : ClocksSound s → ClocksSound t) : Keeps r t := by
  unfold Keeps
  rw [e]
  exact { h with clocks := fun w => g (h.clocks w) }

/-- A write of the fault log that keeps its bound. -/
theorem Keeps.setLog {r s t : State} (h : Keeps r s) (e : t.kept = { s.kept with entries := t.flog.entries })
    (g : s.flog.entries.length ≤ 64 → t.flog.entries.length ≤ 64) : Keeps r t := by
  unfold Keeps
  rw [e]
  exact { h with entries := fun w => g (h.entries w) }

/-- A write of the Foreman's event queue that keeps its bound. -/
theorem Keeps.setQueue {r s t : State} (h : Keeps r s) (e : t.kept = { s.kept with queue := t.history.queue })
    (g : s.history.queue.length ≤ 32 → t.history.queue.length ≤ 32) : Keeps r t := by
  unfold Keeps
  rw [e]
  exact { h with queue := fun w => g (h.queue w) }

/-- A fold that carries a result beside the state. -/
theorem Keeps.foldlSnd {β γ : Type} {r : State} (l : List β) (g : γ × State → β → γ × State)
    (hg : ∀ a x, Keeps r a.2 → Keeps r (g a x).2) {a : γ × State} (h : Keeps r a.2) : Keeps r (l.foldl g a).2 := by
  induction l generalizing a with
  | nil => exact h
  | cons x l ih => exact ih (hg a x h)

/-- A fold of keeping operations keeps. -/
theorem Keeps.foldl {β : Type} {r : State} (l : List β) (g : State → β → State)
    (hg : ∀ s x, Keeps r s → Keeps r (g s x)) {s : State} (h : Keeps r s) : Keeps r (l.foldl g s) := by
  induction l generalizing s with
  | nil => exact h
  | cons x l ih => exact ih (hg s x h)

end Sys2Proof.Machine
end

