-- ==== Sys2Proof/Laws/KeepsShared.lean ====
section
/-! SUPPORT. What the shared flag, register and mailbox operations keep: one lemma for each operation, cited in place of unfolding it. -/

namespace Sys2Proof.Machine

theorem State.setReg_keeps {r : State} {s : State} (a0) (a1) (a2) (h : Keeps r s) : Keeps r (State.setReg s a0 a1 a2) :=
  h.same rfl

theorem State.setField_keeps {r : State} {s : State} (a0) (a1) (a2) (a3) (a4) (h : Keeps r s) : Keeps r (State.setField s a0
    a1 a2 a3 a4) :=
  h.same rfl

theorem State.takeFree_keeps {r : State} {s : State} (h : Keeps r s) : Keeps r (State.takeFree s).2 :=
  h.same rfl

theorem State.withFresh_keeps {r : State} {s : State} (a0) (h : Keeps r s) : Keeps r (State.withFresh s a0) :=
  h.same rfl

theorem State.setBits_keeps {r : State} {s : State} (a0) (a1) (a2) (h : Keeps r s) : Keeps r (State.setBits s a0 a1 a2) :=
  h.same rfl

theorem State.setCount_keeps {r : State} {s : State} (a0) (a1) (a2) (a3) (h : Keeps r s) : Keeps r (State.setCount s a0 a1 a2
    a3) :=
  h.same rfl

theorem setEvtOvf_keeps {r : State} {s : State} (a0) (h : Keeps r s) : Keeps r (setEvtOvf s a0) :=
  h.same rfl

theorem raiseOnce_keeps {r : State} (a0) {s : State} (h : Keeps r s) : Keeps r (raiseOnce a0 s) := by
  unfold raiseOnce
  extract_lets v0 v1 v2 m v4 v5
  have km : Keeps r m := State.withFresh_keeps _ (State.setCount_keeps _ _ _ _ h)
  have k4 : Keeps r v4 := Keeps.ite (Keeps.ite h (Keeps.ite (setEvtOvf_keeps _ km) km)) h
  have k5 : Keeps r v5 := State.setBits_keeps _ _ _ k4
  clear_value v5
  refine Keeps.ite ?_ k5
  split
  · rename_i hl
    refine Keeps.setQueue k5 rfl fun _ => ?_
    simp only [List.length_append, List.length_singleton]
    omega
  · exact setEvtOvf_keeps _ k5

theorem raiseEvent_keeps {r : State} (a0) {s : State} (h : Keeps r s) : Keeps r (raiseEvent a0 s) := by
  unfold raiseEvent
  extract_lets v4_0
  have k5 : Keeps r v4_0 := raiseOnce_keeps _ h
  clear_value v4_0
  exact Keeps.ite (raiseOnce_keeps _ k5) k5

theorem raiseAll_keeps {r : State} (a0) {s : State} (h : Keeps r s) : Keeps r (raiseAll a0 s) := by
  unfold raiseAll
  exact Keeps.foldl _ _ (fun s4 x4 h4 => (raiseEvent_keeps _ h4)) h

theorem evtOverflow_keeps {r : State} (a0) {s : State} (h : Keeps r s) : Keeps r (evtOverflow a0 s) := by
  unfold evtOverflow
  extract_lets v4_0
  have k5 : Keeps r v4_0 := setEvtOvf_keeps _ h
  clear_value v4_0
  exact Keeps.ite k5 (raiseEvent_keeps _ k5)

theorem offerEvent_keeps {r : State} (a0) (a1) {s : State} (h : Keeps r s) : Keeps r (offerEvent a0 a1 s) :=
  h.same rfl

theorem setFlags_keeps {r : State} (a0) (a1) (a2) (a3) (a4) {s : State} (h : Keeps r s) : Keeps r (setFlags a0 a1 a2 a3 a4 s)
    := by
  unfold setFlags
  extract_lets v8_0 v8_1 v8_2
  have k11 : Keeps r v8_2 := State.setBits_keeps _ _ _ h
  clear_value v8_2
  split
  · exact raiseAll_keeps _ k11
  · exact Keeps.ite k11 (raiseEvent_keeps _ k11)
  · exact Keeps.ite k11 (offerEvent_keeps _ _ k11)

theorem flagPwr_keeps {r : State} (a0) {s : State} (h : Keeps r s) : Keeps r (flagPwr a0 s) := by
  unfold flagPwr
  exact setFlags_keeps _ _ _ _ _ h

theorem flagCfg_keeps {r : State} (a0) {s : State} (h : Keeps r s) : Keeps r (flagCfg a0 s) := by
  unfold flagCfg
  exact setFlags_keeps _ _ _ _ _ h

theorem flagTest_keeps {r : State} (a0) {s : State} (h : Keeps r s) : Keeps r (flagTest a0 s) := by
  unfold flagTest
  exact setFlags_keeps _ _ _ _ _ h

theorem flagSump_keeps {r : State} (a0) {s : State} (h : Keeps r s) : Keeps r (flagSump a0 s) := by
  unfold flagSump
  exact setFlags_keeps _ _ _ _ _ h

theorem flagScrub_keeps {r : State} (a0) {s : State} (h : Keeps r s) : Keeps r (flagScrub a0 s) := by
  unfold flagScrub
  exact setFlags_keeps _ _ _ _ _ h

theorem flagMbx_keeps {r : State} (a0) {s : State} (h : Keeps r s) : Keeps r (flagMbx a0 s) := by
  unfold flagMbx
  exact setFlags_keeps _ _ _ _ _ h

theorem flagPin_keeps {r : State} (a0) {s : State} (h : Keeps r s) : Keeps r (flagPin a0 s) := by
  unfold flagPin
  exact setFlags_keeps _ _ _ _ _ h

theorem flagHauler_keeps {r : State} (a0) (a1) {s : State} (h : Keeps r s) : Keeps r (flagHauler a0 a1 s) := by
  unfold flagHauler
  exact setFlags_keeps _ _ _ _ _ h

theorem flagCrusher_keeps {r : State} (a0) (a1) {s : State} (h : Keeps r s) : Keeps r (flagCrusher a0 a1 s) := by
  unfold flagCrusher
  exact setFlags_keeps _ _ _ _ _ h

theorem flagPma_keeps {r : State} (a0) (a1) {s : State} (h : Keeps r s) : Keeps r (flagPma a0 a1 s) := by
  unfold flagPma
  exact setFlags_keeps _ _ _ _ _ h

theorem flagLink_keeps {r : State} (a0) (a1) {s : State} (h : Keeps r s) : Keeps r (flagLink a0 a1 s) := by
  unfold flagLink
  exact setFlags_keeps _ _ _ _ _ h

theorem flagBench_keeps {r : State} (a0) (a1) {s : State} (h : Keeps r s) : Keeps r (flagBench a0 a1 s) := by
  unfold flagBench
  exact setFlags_keeps _ _ _ _ _ h

theorem flagAdit_keeps {r : State} (a0) (a1) {s : State} (h : Keeps r s) : Keeps r (flagAdit a0 a1 s) := by
  unfold flagAdit
  exact setFlags_keeps _ _ _ _ _ h

theorem flagIso_keeps {r : State} (a0) {s : State} (h : Keeps r s) : Keeps r (flagIso a0 s) := by
  unfold flagIso
  exact Keeps.ite (setFlags_keeps _ _ _ _ _ h) (setFlags_keeps _ _ _ _ _ h)

theorem flagPocket_keeps {r : State} (a0) {s : State} (h : Keeps r s) : Keeps r (flagPocket a0 s) := by
  unfold flagPocket
  exact setFlags_keeps _ _ _ _ _ h

theorem flagXc_keeps {r : State} (a0) {s : State} (h : Keeps r s) : Keeps r (flagXc a0 s) := by
  unfold flagXc
  extract_lets v4_0
  have k5 : Keeps r v4_0 := State.setBits_keeps _ _ _ h
  clear_value v4_0
  exact Keeps.ite k5 (raiseEvent_keeps _ k5)

theorem flagStale_keeps {r : State} (a0) {s : State} (h : Keeps r s) : Keeps r (flagStale a0 s) := by
  unfold flagStale
  extract_lets v4_0 v4_1 v4_2
  have k7 : Keeps r v4_2 := State.setBits_keeps _ _ _ h
  clear_value v4_2
  exact Keeps.ite k7 (raiseEvent_keeps _ k7)

theorem flagPatrol_keeps {r : State} (a0) (a1) {s : State} (h : Keeps r s) : Keeps r (flagPatrol a0 a1 s) := by
  unfold flagPatrol
  exact setFlags_keeps _ _ _ _ _ h

theorem countStat_keeps {r : State} (a0) (a1) (a2) {s : State} (f2 : ∀ s, Keeps r s → Keeps r (a2 s)) (h : Keeps r s) : Keeps
    r (countStat a0 a1 a2 s) := by
  unfold countStat
  extract_lets v7_0 v7_1
  have k9 : Keeps r v7_1 := State.setCount_keeps _ _ _ _ h
  clear_value v7_1
  exact Keeps.ite h (Keeps.ite (f2 _ k9) k9)

theorem countMany_keeps {r : State} (a0) (a1) (a2) (a3) {s : State} (f3 : ∀ s, Keeps r s → Keeps r (a3 s)) (h : Keeps r s) :
    Keeps r (countMany a0 a1 a2 a3 s) := by
  unfold countMany
  extract_lets v8_0 v8_1 v8_2
  have k11 : Keeps r v8_2 := State.setCount_keeps _ _ _ _ h
  clear_value v8_2
  exact Keeps.ite (f3 _ k11) k11

theorem linkOverflow_keeps {r : State} (a0) (a1) {s : State} (h : Keeps r s) : Keeps r (linkOverflow a0 a1 s) := by
  unfold linkOverflow
  exact flagLink_keeps _ _ (State.setBits_keeps _ _ _ h)

theorem countLink_keeps {r : State} (a0) (a1) (a2) {s : State} (h : Keeps r s) : Keeps r (countLink a0 a1 a2 s) := by
  unfold countLink
  exact countStat_keeps _ _ _ (fun s6 h6 => linkOverflow_keeps _ _ h6) h

theorem countXcLost_keeps {r : State} {s : State} (h : Keeps r s) : Keeps r (countXcLost s) := by
  unfold countXcLost
  exact countStat_keeps _ _ _ (fun s3 h3 => flagXc_keeps _ h3) h

theorem countXcFail_keeps {r : State} {s : State} (h : Keeps r s) : Keeps r (countXcFail s) := by
  unfold countXcFail
  exact countStat_keeps _ _ _ (fun s3 h3 => flagXc_keeps _ h3) h

theorem countPortalDisc_keeps {r : State} (a0) {s : State} (h : Keeps r s) : Keeps r (countPortalDisc a0 s) := by
  unfold countPortalDisc
  exact countMany_keeps _ _ _ _ (fun s4 h4 => flagXc_keeps _ h4) h

theorem countPocketCorr_keeps {r : State} {s : State} (h : Keeps r s) : Keeps r (countPocketCorr s) := by
  unfold countPocketCorr
  exact flagPocket_keeps _ (countStat_keeps _ _ _ (fun s3 h3 => flagPocket_keeps _ h3) h)

theorem countPocketUncorr_keeps {r : State} {s : State} (h : Keeps r s) : Keeps r (countPocketUncorr s) := by
  unfold countPocketUncorr
  exact flagPocket_keeps _ (countStat_keeps _ _ _ (fun s3 h3 => flagPocket_keeps _ h3) h)

theorem logFault_keeps {r : State} (a0) (a1) {s : State} (h : Keeps r s) : Keeps r (logFault a0 a1 s) := by
  have hp : ∀ e l, (placeFault e l).length = l.length + 1 := fun e l => by
    induction l with
    | nil => rfl
    | cons x l ih =>
      unfold placeFault
      split
      · simp [ih]
      · rfl
  unfold logFault
  extract_lets e full held t u
  have kt : Keeps r t := by
    refine Keeps.setLog (s := s) h rfl fun g => ?_
    show (placeFault e held.reverse).reverse.length ≤ 64
    rw [List.length_reverse, hp, List.length_reverse]
    unfold held full
    split
    · simp only [List.length_drop]
      omega
    · omega
  clear_value t
  have ku : Keeps r u := flagScrub_keeps _ kt
  exact Keeps.ite (countStat_keeps _ _ _ (fun s hs => evtOverflow_keeps _ hs) (flagScrub_keeps _ ku)) ku

theorem State.withFabric_keeps {r : State} {s : State} (a0) (h : Keeps r s) : Keeps r (State.withFabric s a0) :=
  h.same rfl

theorem State.modCav_keeps {r : State} {s : State} (a0) (a1) (h : Keeps r s) : Keeps r (State.modCav s a0 a1) :=
  h.same rfl

theorem State.withPower_keeps {r : State} {s : State} (a0) (h : Keeps r s) : Keeps r (State.withPower s a0) :=
  h.same rfl

theorem State.modMbox_keeps {r : State} {s : State} (a0) (a1) (h : Keeps r s) : Keeps r (State.modMbox s a0 a1) :=
  h.same rfl

theorem State.modPortal_keeps {r : State} {s : State} (a0) (a1) (h : Keeps r s) : Keeps r (State.modPortal s a0 a1) :=
  h.same rfl

theorem State.modPort_keeps {r : State} {s : State} (a0) (a1) (h : Keeps r s) : Keeps r (State.modPort s a0 a1) :=
  h.same rfl

theorem State.setAttIn_keeps {r : State} {s : State} (a0) (a1) (h : Keeps r s) : Keeps r (State.setAttIn s a0 a1) :=
  h.same rfl

theorem State.setAttAck_keeps {r : State} {s : State} (a0) (a1) (h : Keeps r s) : Keeps r (State.setAttAck s a0 a1) :=
  h.same rfl

theorem State.modPin_keeps {r : State} {s : State} (a0) (a1) (a2) (h : Keeps r s) : Keeps r (State.modPin s a0 a1 a2) :=
  h.same rfl

theorem State.modBank_keeps {r : State} {s : State} (a0) (a1) (h : Keeps r s) : Keeps r (State.modBank s a0 a1) :=
  h.same rfl

theorem portalReset_keeps {r : State} (a0) {s : State} (h : Keeps r s) : Keeps r (portalReset a0 s) := by
  unfold portalReset
  extract_lets v4_0 v4_1 v4_2 v4_3 v4_4
  have k9 : Keeps r v4_3 := Keeps.same h rfl
  clear_value v4_3
  have k10 : Keeps r v4_4 := State.modPortal_keeps _ _ k9
  clear_value v4_4
  exact Keeps.ite k10 (countPortalDisc_keeps _ k10)

theorem postResponse_keeps {r : State} (a0) (a1) {s : State} (h : Keeps r s) : Keeps r (postResponse a0 a1 s) := by
  unfold postResponse
  extract_lets v5_0 v5_1 v5_2 v5_3 v5_4 v5_5 v5_6 v5_7 v5_8
  have k14 : Keeps r v5_1 := State.withForeman_same _ rfl h
  clear_value v5_1
  have k15 : Keeps r v5_2 := State.withForeman_same _ rfl k14
  clear_value v5_2
  have k16 : Keeps r v5_3 := Keeps.ite k14 (Keeps.ite (evtOverflow_keeps _ k15) k15)
  clear_value v5_3
  have k17 : Keeps r v5_4 := State.modMbox_keeps _ _ k16
  clear_value v5_4
  have k18 : Keeps r v5_5 := State.withFresh_keeps _ k17
  clear_value v5_5
  have k19 : Keeps r v5_8 := State.modMbox_keeps _ _ k16
  clear_value v5_8
  exact Keeps.ite (Keeps.ite (raiseEvent_keeps _ k18) k18) (Keeps.ite (State.modPortal_keeps _ _ k19) k19)

theorem answerOrStage_keeps {r : State} (a0) (a1) (a2) (a3) {s : State} (h : Keeps r s) : Keeps r (answerOrStage a0 a1 a2 a3
    s) := by
  unfold answerOrStage
  exact Keeps.ite (postResponse_keeps _ _ h) (State.modMbox_keeps _ _ h)

theorem answer_keeps {r : State} (a0) (a1) (a2) (a3) {s : State} (h : Keeps r s) : Keeps r (answer a0 a1 a2 a3 s) := by
  unfold answer
  exact postResponse_keeps _ _ h

theorem stopTests_keeps {r : State} (a0) {s : State} (h : Keeps r s) : Keeps r (stopTests a0 s) :=
  h.same rfl

theorem enterMode_keeps {r : State} (a0) {s : State} (h : Keeps r s) : Keeps r (enterMode a0 s) := by
  unfold enterMode
  exact Keeps.ite h (flagPwr_keeps _ (State.withPower_keeps _ h))

theorem commandVccf_keeps {r : State} (a0) {s : State} (h : Keeps r s) : Keeps r (commandVccf a0 s) := by
  unfold commandVccf
  exact Keeps.ite (State.withPower_keeps _ h) h

theorem commandVccs_keeps {r : State} (a0) {s : State} (h : Keeps r s) : Keeps r (commandVccs a0 s) := by
  unfold commandVccs
  exact Keeps.ite (State.withPower_keeps _ h) h

theorem operateRails_keeps {r : State} (a0) (a1) {s : State} (h : Keeps r s) : Keeps r (operateRails a0 a1 s) :=
  h.same rfl

theorem wakeActivity_keeps {r : State} {s : State} (h : Keeps r s) : Keeps r (wakeActivity s) := by
  unfold wakeActivity
  exact Keeps.ite (enterMode_keeps _ (commandVccf_keeps _ h)) h

theorem noteWrite_keeps {r : State} (a0) (a1) {s : State} (h : Keeps r s) : Keeps r (noteWrite a0 a1 s) :=
  h.same rfl

theorem noteAccess_keeps {r : State} (a0) (a1) (a2) {s : State} (h : Keeps r s) : Keeps r (noteAccess a0 a1 a2 s) := by
  unfold noteAccess
  extract_lets v6_0 v6_1
  have k8 : Keeps r v6_0 := State.setBits_keeps _ _ _ h
  clear_value v6_0
  exact Keeps.ite k8 (noteWrite_keeps _ _ (State.setReg_keeps _ _ _ k8))

theorem uncountMerged_keeps {r : State} (a0) (a1) {s : State} (h : Keeps r s) : Keeps r (uncountMerged a0 a1 s) := by
  unfold uncountMerged
  extract_lets v5_0 v5_1
  exact Keeps.ite h (State.withFresh_keeps _ (State.setReg_keeps _ _ _ h))

theorem codedWrite_keeps {r : State} (a0) (a1) (a2) {s : State} (h : Keeps r s) : Keeps r (codedWrite a0 a1 a2 s) := by
  unfold codedWrite
  extract_lets v6_0 v6_1 v6_2
  have k9 : Keeps r v6_2 := State.setReg_keeps _ _ _ h
  clear_value v6_2
  split
  · exact State.withFresh_keeps _ k9
  · exact uncountMerged_keeps _ _ k9
  · exact k9

theorem noteReserved_keeps {r : State} (a0) (a1) (a2) (a3) {s : State} (h : Keeps r s) : Keeps r (noteReserved a0 a1 a2 a3 s)
    := by
  unfold noteReserved
  exact Keeps.ite h (noteAccess_keeps _ _ _ h)

theorem holdAccess_keeps {r : State} (a0) (a1) (a2) {s : State} (h : Keeps r s) : Keeps r (holdAccess a0 a1 a2 s) := by
  unfold holdAccess
  exact Keeps.ite (State.withPower_keeps _ h) h

theorem hostCommand_keeps {r : State} (a0) (a1) (a2) (a3) (a4) {s : State} (f4 : ∀ s, Keeps r s → Keeps r (a4 s)) (h : Keeps r
    s) : Keeps r (hostCommand a0 a1 a2 a3 a4 s) := by
  unfold hostCommand
  split
  · exact f4 _ h
  · exact noteAccess_keeps _ _ _ h
  · exact holdAccess_keeps _ _ _ h
  · exact h

theorem hostField_keeps {r : State} (a0) (a1) (a2) (a3) (a4) {s : State} (f4 : ∀ s, Keeps r s → Keeps r (a4 s)) (h : Keeps r
    s) : Keeps r (hostField a0 a1 a2 a3 a4 s) := by
  unfold hostField
  exact hostCommand_keeps _ _ _ _ _ (fun s9 h9 => Keeps.ite (noteReserved_keeps _ _ _ _ h9) (f4 _ (noteWrite_keeps _ _ h9))) h

end Sys2Proof.Machine
end

