-- ==== Sys2Proof/Laws/KeepsStreams.lean ====
section
/-! SUPPORT. What the Sump and the Crushers keep: one lemma for each operation, cited in place of unfolding it. -/

namespace Sys2Proof.Machine

theorem State.withSump_keeps {r : State} {s : State} (a0) (h : Keeps r s) : Keeps r (State.withSump s a0) :=
  h.same rfl

theorem State.modQueue_keeps {r : State} {s : State} (a0) (a1) (h : Keeps r s) : Keeps r (State.modQueue s a0 a1) :=
  h.same rfl

theorem State.modDesc_keeps {r : State} {s : State} (a0) (a1) (h : Keeps r s) : Keeps r (State.modDesc s a0 a1) :=
  h.same rfl

theorem State.modSCell_keeps {r : State} {s : State} (a0) (a1) (h : Keeps r s) : Keeps r (State.modSCell s a0 a1) :=
  h.same rfl

theorem countSump_keeps {r : State} (a0) (a1) {s : State} (h : Keeps r s) : Keeps r (countSump a0 a1 s) := by
  unfold countSump
  exact countStat_keeps _ _ _ (fun s5 h5 => flagSump_keeps _ (State.setBits_keeps _ _ _ h5)) h

theorem countIn_keeps {r : State} (a0) (a1) (a2) {s : State} (h : Keeps r s) : Keeps r (countIn a0 a1 a2 s) := by
  unfold countIn
  extract_lets v6_0 v6_1 v6_2
  have k9 : Keeps r v6_1 := State.modQueue_keeps _ _ h
  clear_value v6_1
  exact Keeps.ite (evtOverflow_keeps _ k9) k9

theorem countOut_keeps {r : State} (a0) (a1) (a2) {s : State} (h : Keeps r s) : Keeps r (countOut a0 a1 a2 s) := by
  unfold countOut
  extract_lets v6_0 v6_1 v6_2
  have k9 : Keeps r v6_1 := State.modQueue_keeps _ _ h
  clear_value v6_1
  exact Keeps.ite (evtOverflow_keeps _ k9) k9

theorem watchLevels_keeps {r : State} (a0) {s : State} (h : Keeps r s) : Keeps r (watchLevels a0 s) := by
  unfold watchLevels
  extract_lets v4_0 v4_1 v4_2
  have k7 : Keeps r v4_1 := Keeps.ite (flagSump_keeps _ h) h
  clear_value v4_1
  have k8 : Keeps r v4_2 := Keeps.ite (flagSump_keeps _ k7) k7
  clear_value v4_2
  exact Keeps.ite (flagSump_keeps _ k8) k8

theorem takeCell_keeps {r : State} {s : State} (h : Keeps r s) : Keeps r (takeCell s).2 := by
  unfold takeCell
  refine Keeps.iteSnd (Keeps.mkSnd (State.withSump_keeps _ h)) ?_
  split
  · exact Keeps.mkSnd (State.withSump_keeps _ h)
  · exact Keeps.mkSnd h

theorem takeDesc_keeps {r : State} {s : State} (h : Keeps r s) : Keeps r (takeDesc s).2 := by
  unfold takeDesc
  refine Keeps.iteSnd (Keeps.mkSnd (State.withSump_keeps _ h)) ?_
  split
  · exact Keeps.mkSnd (State.withSump_keeps _ h)
  · exact Keeps.mkSnd h

theorem newCell_keeps {r : State} (a0) (a1) (a2) (a3) (a4) {s : State} (h : Keeps r s) : Keeps r (newCell a0 a1 a2 a3 a4 s).2
    := by
  unfold newCell
  extract_lets v8_0
  have k9 : Keeps r v8_0 := Keeps.ite h (State.modQueue_keeps _ _ h)
  clear_value v8_0
  split
  rename_i _ _ m16_2 m16_3
  have k16 : Keeps r m16_2 := Keeps.ofPair m16_3 (takeCell_keeps k9)
  extract_lets v17_0
  have k18 : Keeps r v17_0 := State.modSCell_keeps _ _ k16
  clear_value v17_0
  exact Keeps.mkSnd (State.modQueue_keeps _ _ k18)

theorem dropPacket_keeps {r : State} (a0) {s : State} (h : Keeps r s) : Keeps r (dropPacket a0 s) :=
  h.same rfl

theorem rewind_keeps {r : State} (a0) {s : State} (h : Keeps r s) : Keeps r (rewind a0 s) := by
  unfold rewind
  exact flagSump_keeps _ (countSump_keeps _ _ (dropPacket_keeps _ h))

theorem closeDesc_keeps {r : State} (a0) (a1) (a2) {s : State} (h : Keeps r s) : Keeps r (closeDesc a0 a1 a2 s) := by
  unfold closeDesc
  extract_lets v6_0 v6_1 v6_2 v6_3
  have k10 : Keeps r v6_0 := State.modQueue_keeps _ _ h
  clear_value v6_0
  have k11 : Keeps r v6_2 := State.modDesc_keeps _ _ k10
  clear_value v6_2
  have k12 : Keeps r v6_3 := by
    unfold v6_3
    split
    · exact State.modSCell_keeps _ _ k11
    · exact k11
  clear_value v6_3
  exact Keeps.ite (flagSump_keeps _ (countSump_keeps _ _ k12)) (rewind_keeps _ k10)

theorem closePacket_keeps {r : State} (a0) (a1) {s : State} (h : Keeps r s) : Keeps r (closePacket a0 a1 s) := by
  unfold closePacket
  split
  · exact h
  · exact closeDesc_keeps _ _ _ h

theorem interruptProducer_keeps {r : State} (a0) (a1) {s : State} (h : Keeps r s) : Keeps r (interruptProducer a0 a1 s) := by
  unfold interruptProducer
  extract_lets v5_0 v5_1 v5_2
  have k8 : Keeps r v5_0 := State.modQueue_keeps _ _ h
  clear_value v5_0
  have k9 : Keeps r v5_1 := Keeps.foldl _ _ (fun s9 x9 h9 => (State.modDesc_keeps _ _ h9)) k8
  clear_value v5_1
  have k10 : Keeps r v5_2 := Keeps.foldl _ _ (fun s10 x10 h10 => (State.modDesc_keeps _ _ h10)) k9
  clear_value v5_2
  exact closePacket_keeps _ _ k10

theorem seqError_keeps {r : State} {s : State} (h : Keeps r s) : Keeps r (seqError s) := by
  unfold seqError
  exact flagSump_keeps _ (countSump_keeps _ _ h)

theorem pushCheck_keeps {r : State} (a0) (a1) (a2) (a3) (a4) {s : State} (h : Keeps r s) : Keeps r (pushCheck a0 a1 a2 a3 a4
    s).2 := by
  unfold pushCheck
  exact Keeps.iteSnd (Keeps.mkSnd h) (Keeps.iteSnd (Keeps.mkSnd h) (Keeps.iteSnd (Keeps.mkSnd (countSump_keeps _ _ h))
    (Keeps.iteSnd (Keeps.mkSnd (countSump_keeps _ _ h)) (Keeps.mkSnd h))))

theorem dropResv_keeps {r : State} (a0) {s : State} (h : Keeps r s) : Keeps r (dropResv a0 s) :=
  h.same rfl

theorem packetBeat_keeps {r : State} (a0) (a1) (a2) (a3) {s : State} (h : Keeps r s) : Keeps r (packetBeat a0 a1 a2 a3 s) :=
    by
  unfold packetBeat
  extract_lets v7_0 v7_1 v7_2
  have k10 : Keeps r v7_0 := State.modDesc_keeps _ _ h
  clear_value v7_0
  have k11 : Keeps r v7_1 := countIn_keeps _ _ _ k10
  clear_value v7_1
  have k12 : Keeps r v7_2 := State.modQueue_keeps _ _ k11
  clear_value v7_2
  exact Keeps.ite (Keeps.ite (rewind_keeps _ k12) k12) k11

theorem packetCell_keeps {r : State} (a0) (a1) (a2) (a3) (a4) {s : State} (h : Keeps r s) : Keeps r (packetCell a0 a1 a2 a3 a4
    s) := by
  unfold packetCell
  split
  rename_i _ _ m14_2 m14_3
  have k14 : Keeps r m14_2 := Keeps.ofPair m14_3 (newCell_keeps _ _ _ _ _ h)
  extract_lets v15_0
  have k16 : Keeps r v15_0 := State.modDesc_keeps _ _ k14
  clear_value v15_0
  exact packetBeat_keeps _ _ _ _ k16

theorem packetFill_keeps {r : State} (a0) (a1) (a2) (a3) (a4) {s : State} (h : Keeps r s) : Keeps r (packetFill a0 a1 a2 a3 a4
    s) := by
  unfold packetFill
  exact packetBeat_keeps _ _ _ _ (State.modSCell_keeps _ _ h)

theorem pushBeat_keeps {r : State} (a0) (a1) (a2) (a3) {s : State} (h : Keeps r s) : Keeps r (pushBeat a0 a1 a2 a3 s).2 := by
  unfold pushBeat
  extract_lets v7_0 v7_1 v7_2 v7_3 v7_4 v7_5 v7_6
  have k14 : Keeps r v7_1 := h
  clear_value v7_1
  have k15 : ∀ s, Keeps r s → Keeps r (v7_5 s) := by
    intro s16 h16
    unfold v7_5
    clear_value v7_6
    clear_value v7_5
    clear_value v7_4
    clear_value v7_3
    clear_value v7_2
    clear_value v7_0
    split
    · exact dropResv_keeps _ h16
    · exact h16
  clear_value v7_5
  have k16 : Keeps r v7_6 := closePacket_keeps _ _ (seqError_keeps h)
  clear_value v7_6
  refine Keeps.iteSnd ?_ ?_
  · split
    · rename_i _ m22_1 m22_2
      have k22 : Keeps r m22_1 := Keeps.ofPair m22_2 (pushCheck_keeps _ _ _ _ _ h)
      split
      rename_i _ _ m29_2 m29_3
      have k29 : Keeps r m29_2 := Keeps.ofPair m29_3 (newCell_keeps _ _ _ _ _ (k15 _ k22))
      extract_lets v30_0
      have k31 : Keeps r v30_0 := State.modQueue_keeps _ _ k29
      clear_value v30_0
      exact Keeps.mkSnd (watchLevels_keeps _ (countIn_keeps _ _ _ k31))
    · exact pushCheck_keeps _ _ _ _ _ h
  · refine Keeps.iteSnd ?_ ?_
    · split
      · rename_i _ m22_1 m22_2
        have k22 : Keeps r m22_1 := Keeps.ofPair m22_2 (pushCheck_keeps _ _ _ _ _ h)
        extract_lets v23_0
        have k24 : Keeps r v23_0 := Keeps.ite (closePacket_keeps _ _ (seqError_keeps k22)) k22
        clear_value v23_0
        split
        rename_i _ m31_1 m31_2 m31_3
        have k31 : Keeps r m31_2 := Keeps.ofPair m31_3 (takeDesc_keeps (k15 _ k24))
        extract_lets v32_0 v32_1
        have k34 : Keeps r v32_0 := State.modDesc_keeps _ _ k31
        clear_value v32_0
        have k35 : Keeps r v32_1 := State.modQueue_keeps _ _ k34
        clear_value v32_1
        exact Keeps.mkSnd (watchLevels_keeps _ (packetCell_keeps _ _ _ _ _ k35))
      · exact pushCheck_keeps _ _ _ _ _ h
    · split
      · exact Keeps.iteSnd (Keeps.mkSnd (Keeps.ite (State.modQueue_keeps _ _ h) h)) (Keeps.mkSnd (seqError_keeps h))
      · split
        · exact Keeps.mkSnd (packetFill_keeps _ _ _ _ _ h)
        · refine Keeps.iteSnd (Keeps.mkSnd (Keeps.ite (State.modQueue_keeps _ _ k16) k16)) ?_
          split
          · rename_i _ m31_1 m31_2
            have k31 : Keeps r m31_1 := Keeps.ofPair m31_2 (pushCheck_keeps _ _ _ _ _ h)
            exact Keeps.mkSnd (watchLevels_keeps _ (packetCell_keeps _ _ _ _ _ (k15 _ k31)))
          · exact pushCheck_keeps _ _ _ _ _ h

theorem reserve_keeps {r : State} (a0) (a1) (a2) (a3) {s : State} (h : Keeps r s) : Keeps r (reserve a0 a1 a2 a3 s).2 := by
  unfold reserve
  split
  · rename_i _ m12_1 m12_2
    have k12 : Keeps r m12_1 := Keeps.ofPair m12_2 (pushCheck_keeps _ _ _ _ _ h)
    exact Keeps.mkSnd (watchLevels_keeps _ (State.withSump_keeps _ k12))
  · rename_i _ _ m14_2 _ m14_4
    have k14 : Keeps r m14_2 := Keeps.ofPair m14_4 (pushCheck_keeps _ _ _ _ _ h)
    exact Keeps.mkSnd k14

theorem commitCell_keeps {r : State} (a0) (a1) {s : State} (h : Keeps r s) : Keeps r (commitCell a0 a1 s) := by
  unfold commitCell
  extract_lets v5_0
  exact Keeps.ite (State.withSump_keeps _ h) h

theorem times_keeps {r : State} (a0) (a1) {s : State} (f1 : ∀ s, Keeps r s → Keeps r (a1 s)) (h : Keeps r s) : Keeps r (times
    a0 a1 s) := by
  induction a0 generalizing s with
  | zero => exact h
  | succ n ih => exact ih (f1 _ h)

theorem popErrors_keeps {r : State} (a0) (a1) (a2) {s : State} (h : Keeps r s) : Keeps r (popErrors a0 a1 a2 s) := by
  unfold popErrors
  extract_lets v6_0
  have k7 : Keeps r v6_0 := times_keeps _ _ (fun s7 h7 => flagSump_keeps _ (countSump_keeps _ _ h7)) h
  clear_value v6_0
  exact times_keeps _ _ (fun s8 h8 => logFault_keeps _ _ (flagSump_keeps _ (countSump_keeps _ _ h8))) k7

theorem popNothing_keeps {r : State} (a0) {s : State} (h : Keeps r s) : Keeps r (popNothing a0 s).2 := by
  unfold popNothing
  exact Keeps.mkSnd (countSump_keeps _ _ h)

theorem popQueue_keeps {r : State} (a0) (a1) (a2) (a3) {s : State} (h : Keeps r s) : Keeps r (popQueue a0 a1 a2 a3 s).2 := by
  unfold popQueue
  refine Keeps.iteSnd (popNothing_keeps _ h) ?_
  refine Keeps.iteSnd ?_ ?_
  · split
    · exact popNothing_keeps _ h
    · extract_lets v13_0 v13_1
      split
      · exact Keeps.iteSnd (Keeps.mkSnd (countOut_keeps _ _ _ (dropPacket_keeps _ h))) (popNothing_keeps _ h)
      · extract_lets v21_0 v21_1 v21_2 v21_3 v21_4 v21_5 v21_6 v21_7 v21_8 v21_9 v21_10
        have k32 : Keeps r v21_3 := popErrors_keeps _ _ _ h
        clear_value v21_3
        have k33 : Keeps r v21_4 := Keeps.ite (popErrors_keeps _ _ _ k32) k32
        clear_value v21_4
        have k34 : Keeps r v21_6 := State.modDesc_keeps _ _ k33
        clear_value v21_6
        have k35 : Keeps r v21_7 := State.withSump_keeps _ k34
        clear_value v21_7
        have k36 : Keeps r v21_8 := State.modQueue_keeps _ _ k35
        clear_value v21_8
        have k37 : Keeps r v21_10 := countOut_keeps _ _ _ k36
        clear_value v21_10
        exact Keeps.iteSnd (Keeps.mkSnd (Keeps.ite (dropPacket_keeps _ k37) k37)) (popNothing_keeps _ h)
  · split
    · exact popNothing_keeps _ h
    · extract_lets v13_0 v13_1 v13_2 v13_3 v13_4
      have k18 : Keeps r v13_2 := popErrors_keeps _ _ _ h
      clear_value v13_2
      have k19 : Keeps r v13_3 := State.withSump_keeps _ k18
      clear_value v13_3
      have k20 : Keeps r v13_4 := State.modQueue_keeps _ _ k19
      clear_value v13_4
      exact Keeps.iteSnd (Keeps.mkSnd (countOut_keeps _ _ _ k20)) (popNothing_keeps _ h)

theorem flushQueue_keeps {r : State} (a0) {s : State} (h : Keeps r s) : Keeps r (flushQueue a0 s) := by
  unfold flushQueue
  exact Keeps.ite h (State.withSump_keeps _ h)

theorem beginFlush_keeps {r : State} (a0) {s : State} (h : Keeps r s) : Keeps r (beginFlush a0 s) := by
  unfold beginFlush
  extract_lets v4_0 v4_1 v4_2
  have k7 : Keeps r v4_2 := State.withSump_keeps _ h
  clear_value v4_2
  exact Keeps.ite (State.modQueue_keeps _ _ k7) (State.modQueue_keeps _ _ h)

theorem discardOne_keeps {r : State} (a0) {s : State} (h : Keeps r s) : Keeps r (discardOne a0 s) := by
  unfold discardOne
  split
  · exact h
  · extract_lets v10_0 v10_1 v10_2
    have k13 : Keeps r v10_0 := State.modQueue_keeps _ _ h
    clear_value v10_0
    have k14 : Keeps r v10_1 := State.modQueue_keeps _ _ k13
    clear_value v10_1
    have k15 : Keeps r v10_2 := State.modQueue_keeps _ _ k13
    clear_value v10_2
    exact Keeps.ite (Keeps.ite k13 (countSump_keeps _ _ (dropPacket_keeps _ k14))) (countSump_keeps _ _
      (State.withSump_keeps _ k15))

theorem discardAll_keeps {r : State} (a0) {s : State} (h : Keeps r s) : Keeps r (discardAll a0 s) := by
  unfold discardAll
  exact Keeps.foldl _ _ (fun s4 x4 h4 => (discardOne_keeps _ h4)) h

theorem flushDone_keeps {r : State} (a0) {s : State} (h : Keeps r s) : Keeps r (flushDone a0 s) := by
  unfold flushDone
  exact Keeps.ite (flagSump_keeps _ (State.modQueue_keeps _ _ (discardAll_keeps _ h))) h

theorem recoverClear_keeps {r : State} (a0) {s : State} (h : Keeps r s) : Keeps r (recoverClear a0 s) :=
  h.same rfl

theorem staleExpiry_keeps {r : State} (a0) {s : State} (h : Keeps r s) : Keeps r (staleExpiry a0 s) := by
  unfold staleExpiry
  exact Keeps.ite (State.withSump_keeps _ h) h

theorem expire_keeps {r : State} (a0) {s : State} (h : Keeps r s) : Keeps r (expire a0 s) := by
  unfold expire
  extract_lets v4_0
  have k5 : Keeps r v4_0 := flagSump_keeps _ (countSump_keeps _ _ (flagStale_keeps _ (State.modQueue_keeps _ _ h)))
  clear_value v4_0
  refine Keeps.ite ?_ h
  split
  · refine Keeps.ite ?_ (State.withSump_keeps _ k5)
    split
    · exact closeDesc_keeps _ _ _ k5
    · exact rewind_keeps _ k5
  · exact k5

theorem applyCommit_keeps {r : State} (a0) {s : State} (h : Keeps r s) : Keeps r (applyCommit a0 s) := by
  unfold applyCommit
  extract_lets v4_0 v4_1
  have k6 : Keeps r v4_0 := State.modSCell_keeps _ _ h
  clear_value v4_0
  split
  · exact k6
  · extract_lets v12_0
    have k13 : Keeps r v12_0 := State.modDesc_keeps _ _ k6
    clear_value v12_0
    exact Keeps.ite (Keeps.ite (Keeps.ite k13 (rewind_keeps _ k13)) (Keeps.ite (recoverClear_keeps _ k13) k13)) k6

theorem makeVisible_keeps {r : State} (a0) {s : State} (h : Keeps r s) : Keeps r (makeVisible a0 s) :=
  h.same rfl

theorem freeGone_keeps {r : State} {s : State} (h : Keeps r s) : Keeps r (freeGone s) := by
  unfold freeGone
  extract_lets v3_0 v3_1
  have k5 : Keeps r v3_1 := Keeps.foldl _ _ (fun s5 x5 h5 => (State.modQueue_keeps _ _ h5)) h
  clear_value v3_1
  exact State.withSump_keeps _ k5

theorem sumpClock_keeps {r : State} {s : State} (h : Keeps r s) : Keeps r (sumpClock s) := by
  unfold sumpClock
  extract_lets v3_0 v3_1 v3_2 v3_3 v3_4 v3_5 v3_6 v3_7 v3_8 v3_9 v3_10
  have k14 : Keeps r v3_0 := State.withSump_keeps _ (Keeps.foldl _ _ (fun s14 x14 h14 => (expire_keeps _ h14)) h)
  clear_value v3_0
  have k15 : Keeps r v3_1 := State.withSump_keeps _ (Keeps.foldl _ _ (fun s15 x15 h15 => (applyCommit_keeps _ h15)) k14)
  clear_value v3_1
  have k16 : Keeps r v3_2 := State.withSump_keeps _ (Keeps.foldl _ _ (fun s16 x16 h16 => (beginFlush_keeps _ h16)) k15)
  clear_value v3_2
  have k17 : Keeps r v3_3 := Keeps.foldl _ _ (fun s17 x17 h17 => (Keeps.foldl _ _ (fun s20 x20 h20 => (Keeps.ite
    (makeVisible_keeps _ h20) h20)) h17)) k16
  clear_value v3_3
  have k18 : Keeps r v3_4 := Keeps.foldl _ _ (fun s18 x18 h18 => (Keeps.ite (makeVisible_keeps _ (State.modDesc_keeps _ _
    h18)) h18)) k17
  clear_value v3_4
  have k19 : Keeps r v3_5 := State.withSump_keeps _ k18
  clear_value v3_5
  have k20 : Keeps r v3_6 := Keeps.foldl _ _ (fun s20 x20 h20 => (Keeps.ite (discardOne_keeps _ h20) h20)) k19
  clear_value v3_6
  have k21 : Keeps r v3_7 := freeGone_keeps k20
  clear_value v3_7
  have k22 : Keeps r v3_10 := State.withSump_keeps _ k21
  clear_value v3_10
  exact Keeps.ite (flagSump_keeps _ k22) k22

theorem sumpMicro_keeps {r : State} {s : State} (h : Keeps r s) : Keeps r (sumpMicro s) := by
  unfold sumpMicro
  exact Keeps.foldl _ _ (fun s3 x3 h3 => (Keeps.ite (State.modQueue_keeps _ _ h3) h3)) h

theorem usePort_keeps {r : State} (a0) (a1) (a2) {s : State} (h : Keeps r s) : Keeps r (usePort a0 a1 a2 s) :=
  h.same rfl

theorem portPush_keeps {r : State} (a0) (a1) (a2) (a3) {s : State} (h : Keeps r s) : Keeps r (portPush a0 a1 a2 a3 s).2 := by
  unfold portPush
  split
  rename_i _ _ m13_2 m13_3
  have k13 : Keeps r m13_2 := Keeps.ofPair m13_3 (pushBeat_keeps _ _ _ _ (usePort_keeps _ _ _ h))
  exact Keeps.mkSnd (State.withSump_keeps _ k13)

theorem portPop_keeps {r : State} (a0) (a1) (a2) (a3) (a4) {s : State} (h : Keeps r s) : Keeps r (portPop a0 a1 a2 a3 a4 s) :=
    by
  unfold portPop
  split
  rename_i _ _ m14_2 m14_3
  have k14 : Keeps r m14_2 := Keeps.ofPair m14_3 (popQueue_keeps _ _ _ _ (usePort_keeps _ _ _ h))
  exact State.withSump_keeps _ k14

theorem descWords_keeps {r : State} (a0) {s : State} (h : Keeps r s) : Keeps r (descWords a0 s).2 := by
  unfold descWords
  extract_lets v4_0
  refine Keeps.iteSnd ?_ (Keeps.mkSnd h)
  split
  rename_i _ _ m11_2 m11_3
  have k11 : Keeps r m11_2 := Keeps.ofPair m11_3 (State.takeFree_keeps h)
  split
  rename_i _ _ m18_2 m18_3
  have k18 : Keeps r m18_2 := by
    refine Keeps.ofPair m18_3 ?_
    split
    · exact Keeps.mkSnd h
    · exact Keeps.mkSnd k11
  extract_lets v19_0
  exact Keeps.mkSnd k18

theorem State.withCrushers_keeps {r : State} {s : State} (a0) (h : Keeps r s) : Keeps r (State.withCrushers s a0) :=
  h.same rfl

theorem State.setCtx_keeps {r : State} {s : State} (a0) (a1) (a2) (a3) (h : Keeps r s) : Keeps r (State.setCtx s a0 a1 a2 a3)
    :=
  h.same rfl

theorem countCtx_keeps {r : State} (a0) (a1) (a2) (a3) {s : State} (h : Keeps r s) : Keeps r (countCtx a0 a1 a2 a3 s) := by
  unfold countCtx
  extract_lets v7_0 v7_1 v7_2
  have k10 : Keeps r v7_2 := State.setCtx_keeps _ _ _ _ h
  clear_value v7_2
  exact Keeps.ite (flagCrusher_keeps _ _ (State.setCtx_keeps _ _ _ _ k10)) k10

theorem deliverBeats_keeps {r : State} (a0) (a1) (a2) (a3) (a4) {s : State} (h : Keeps r s) : Keeps r (deliverBeats a0 a1 a2
    a3 a4 s) := by
  unfold deliverBeats
  split
  · extract_lets v12_0 v12_1 v12_2
    refine Keeps.ite ?_ (State.withSump_keeps _ h)
    split
    · exact dropResv_keeps _ h
    · exact h
  · extract_lets v12_0
    exact Keeps.same h rfl
  · extract_lets v12_0
    exact State.modPortal_keeps _ _ h
  · exact h

theorem interruptClient_keeps {r : State} (a0) (a1) {s : State} (h : Keeps r s) : Keeps r (interruptClient a0 a1 s) := by
  unfold interruptClient
  extract_lets v5_0
  exact Keeps.ite (interruptProducer_keeps _ _ h) h

theorem stopBeat_keeps {r : State} (a0) (a1) {s : State} (h : Keeps r s) : Keeps r (stopBeat a0 a1 s) := by
  unfold stopBeat
  extract_lets v5_0
  exact Keeps.ite (Keeps.same h rfl) (State.withCrushers_keeps _ h)

theorem admitStop_keeps {r : State} (a0) {s : State} (h : Keeps r s) : Keeps r (admitStop a0 s) := by
  unfold admitStop
  split
  · extract_lets v9_0 v9_1
    have k11 : Keeps r v9_0 := State.withCrushers_keeps _ h
    clear_value v9_0
    exact Keeps.ite (Keeps.same k11 rfl) h
  · exact h

theorem dropClient_keeps {r : State} (a0) {s : State} (h : Keeps r s) : Keeps r (dropClient a0 s) :=
  h.same rfl

theorem haltClient_keeps {r : State} (a0) (a1) {s : State} (h : Keeps r s) : Keeps r (haltClient a0 a1 s) := by
  unfold haltClient
  extract_lets v5_0 v5_1 v5_2 v5_3 v5_4 v5_5
  have k11 : Keeps r v5_2 := State.withCrushers_keeps _ (interruptClient_keeps _ _ (dropClient_keeps _ h))
  clear_value v5_2
  have k12 : Keeps r v5_4 := by
    unfold v5_4
    refine Keeps.ite ?_ k11
    split
    · exact stopBeat_keeps _ _ k11
    · exact deliverBeats_keeps _ _ _ _ _ k11
    · exact k11
  clear_value v5_4
  have k13 : Keeps r v5_5 := State.setCtx_keeps _ _ _ _ k12
  clear_value v5_5
  exact logFault_keeps _ _ (flagCrusher_keeps _ _ k13)

theorem idleSlot_keeps {r : State} (a0) {s : State} (h : Keeps r s) : Keeps r (idleSlot a0 s) := by
  unfold idleSlot
  exact countStat_keeps _ _ _ (fun s4 h4 => flagCrusher_keeps _ _ h4) h

theorem reserveAll_keeps {r : State} (a0) (a1) (a2) (a3) {s : State} (h : Keeps r s) : Keeps r (reserveAll a0 a1 a2 a3 s).2 :=
    by
  induction a3 generalizing s with
  | nil => exact h
  | cons d rest ih =>
    unfold reserveAll
    split
    · have k := fun e => reserve_keeps (enginePort a0) d.2 (clientProducer a0 a1) e h
      split
      · rename_i t e
        have kt : Keeps r t := Keeps.ofPair e (k _)
        split
        · rename_i u e
          exact Keeps.ofPair e (ih kt)
        · rename_i u e
          exact State.withSump_keeps _ (Keeps.ofPair e (ih kt))
      · rename_i t e
        exact Keeps.ofPair e (k _)
    · exact ih h

theorem takeInput_keeps {r : State} (a0) (a1) (a2) {s : State} (h : Keeps r s) : Keeps r (takeInput a0 a1 a2 s) := by
  unfold takeInput
  extract_lets v6_0
  exact Keeps.ite (State.withCrushers_keeps _ h) (State.modPortal_keeps _ _ h)

theorem crusherSlot_keeps {r : State} (a0) (a1) {s : State} (h : Keeps r s) : Keeps r (crusherSlot a0 a1 s) := by
  unfold crusherSlot
  refine Keeps.ite ?_ h
  split
  · exact h
  · extract_lets v10_0 v10_1
    have k12 : Keeps r v10_0 := State.withCrushers_keeps _ h
    clear_value v10_0
    split
    · exact idleSlot_keeps _ k12
    · extract_lets v20_0
      split
      · rename_i _ m26_1 m26_2
        have k26 : Keeps r m26_1 := Keeps.ofPair m26_2 (reserveAll_keeps _ _ _ _ k12)
        extract_lets v27_0 v27_1
        have k29 : Keeps r v27_0 := takeInput_keeps _ _ _ k26
        clear_value v27_0
        have k30 : Keeps r v27_1 := State.withCrushers_keeps _ k29
        clear_value v27_1
        exact Keeps.ite (haltClient_keeps _ _ k30) k30
      · rename_i _ m26_1 m26_2
        have k26 : Keeps r m26_1 := Keeps.ofPair m26_2 (reserveAll_keeps _ _ _ _ k12)
        exact idleSlot_keeps _ k26

theorem sliceComplete_keeps {r : State} (a0) {s : State} (h : Keeps r s) : Keeps r (sliceComplete a0 s) := by
  unfold sliceComplete
  split
  · exact h
  · extract_lets v10_0 v10_1 v10_2 v10_3 v10_4 v10_5 v10_6 v10_7 v10_8 v10_9 v10_10 v10_11 v10_12 v10_13 v10_14 v10_15
      v10_16 v10_17
    have k28 : Keeps r v10_2 := State.withCrushers_keeps _ h
    clear_value v10_2
    have k29 : Keeps r v10_6 := Keeps.same k28 rfl
    clear_value v10_6
    have k30 : Keeps r v10_7 := Keeps.foldl _ _ (fun s30 x30 h30 => (State.setCtx_keeps _ _ _ _ h30)) k29
    clear_value v10_7
    have k31 : Keeps r v10_8 := Keeps.ite k30 (flagCrusher_keeps _ _ (countCtx_keeps _ _ _ _ k30))
    clear_value v10_8
    have k32 : Keeps r v10_9 := Keeps.ite k31 (flagCrusher_keeps _ _ (countCtx_keeps _ _ _ _ k31))
    clear_value v10_9
    have k33 : Keeps r v10_10 := Keeps.ite k32 (countCtx_keeps _ _ _ _ k32)
    clear_value v10_10
    have k34 : Keeps r v10_14 := State.withCrushers_keeps _ k33
    clear_value v10_14
    have k35 : Keeps r v10_16 := by
      unfold v10_16
      refine Keeps.foldl _ _ (fun s35 x35 h35 => ?_) k34
      split
      · exact dropResv_keeps _ h35
      · exact h35
    clear_value v10_16
    have k36 : Keeps r v10_17 := deliverBeats_keeps _ _ _ _ _ k35
    clear_value v10_17
    exact Keeps.ite (State.withCrushers_keeps _ k36) k36

theorem loadContext_keeps {r : State} (a0) (a1) {s : State} (h : Keeps r s) : Keeps r (loadContext a0 a1 s) := by
  unfold loadContext
  exact Keeps.foldl _ _ (fun s5 x5 h5 => (State.setCtx_keeps _ _ _ _ h5)) h

end Sys2Proof.Machine
end

