-- ==== Sys2Proof/Laws/KeepsLanes.lean ====
section
/-! SUPPORT. What the lanes keep: one lemma for each operation, cited in place of unfolding it. -/

namespace Sys2Proof.Machine

theorem State.modLane_keeps {r : State} {s : State} (a0) (a1) (h : Keeps r s) : Keeps r (State.modLane s a0 a1) :=
  h.same rfl

theorem State.modTx_keeps {r : State} {s : State} (a0) (a1) (h : Keeps r s) : Keeps r (State.modTx s a0 a1) :=
  h.same rfl

theorem State.modRx_keeps {r : State} {s : State} (a0) (a1) (h : Keeps r s) : Keeps r (State.modRx s a0 a1) :=
  h.same rfl

theorem State.modAdit_keeps {r : State} {s : State} (a0) (a1) (h : Keeps r s) : Keeps r (State.modAdit s a0 a1) :=
  h.same rfl

theorem State.setPma_keeps {r : State} {s : State} (a0) (a1) (a2) (h : Keeps r s) : Keeps r (State.setPma s a0 a1 a2) :=
  h.same rfl

theorem State.setLink_keeps {r : State} {s : State} (a0) (a1) (a2) (h : Keeps r s) : Keeps r (State.setLink s a0 a1 a2) :=
  h.same rfl

theorem State.setLaneState_keeps {r : State} {s : State} (a0) (a1) (h : Keeps r s) : Keeps r (State.setLaneState s a0 a1) :=
  h.same rfl

theorem showAdit_keeps {r : State} (a0) {s : State} (h : Keeps r s) : Keeps r (showAdit a0 s) :=
  h.same rfl

theorem putLine_keeps {r : State} (a0) (a1) {s : State} (h : Keeps r s) : Keeps r (putLine a0 a1 s) :=
  h.same rfl

theorem sendBurst_keeps {r : State} (a0) {s : State} (h : Keeps r s) : Keeps r (sendBurst a0 s) :=
  h.same rfl

theorem driveBits_keeps {r : State} (a0) (a1) (a2) (a3) {s : State} (h : Keeps r s) : Keeps r (driveBits a0 a1 a2 a3 s) :=
  h.same rfl

theorem applyTxEq_keeps {r : State} (a0) {s : State} (h : Keeps r s) : Keeps r (applyTxEq a0 s) :=
  h.same rfl

theorem applyRxEq_keeps {r : State} (a0) {s : State} (h : Keeps r s) : Keeps r (applyRxEq a0 s) :=
  h.same rfl

theorem checkerSearch_keeps {r : State} (a0) {s : State} (h : Keeps r s) : Keeps r (checkerSearch a0 s) :=
  h.same rfl

theorem lockStart_keeps {r : State} (a0) {s : State} (h : Keeps r s) : Keeps r (lockStart a0 s) := by
  unfold lockStart
  extract_lets v4_0 v4_1 v4_2
  have k7 : Keeps r v4_0 := checkerSearch_keeps _ (State.setPma_keeps _ _ _ (State.setPma_keeps _ _ _ (State.setPma_keeps _
    _ _ h)))
  clear_value v4_0
  have k8 : Keeps r v4_2 := applyTxEq_keeps _ (State.modRx_keeps _ _ k7)
  clear_value v4_2
  exact Keeps.ite (applyRxEq_keeps _ (State.setPma_keeps _ _ _ (State.modRx_keeps _ _ k8))) k8

theorem lockStop_keeps {r : State} (a0) {s : State} (h : Keeps r s) : Keeps r (lockStop a0 s) :=
  h.same rfl

theorem unalign_keeps {r : State} (a0) {s : State} (h : Keeps r s) : Keeps r (unalign a0 s) :=
  h.same rfl

theorem interruptLaneClient_keeps {r : State} (a0) {s : State} (h : Keeps r s) : Keeps r (interruptLaneClient a0 s) := by
  unfold interruptLaneClient
  refine Keeps.ite ?_ h
  split
  · exact interruptClient_keeps _ _ h
  · exact h

theorem countUnderrun_keeps {r : State} (a0) {s : State} (h : Keeps r s) : Keeps r (countUnderrun a0 s) := by
  unfold countUnderrun
  exact flagLink_keeps _ _ (countLink_keeps _ _ _ h)

theorem laneReset_keeps {r : State} (a0) {s : State} (h : Keeps r s) : Keeps r (laneReset a0 s) := by
  unfold laneReset
  extract_lets v4_0 v4_1 v4_2 v4_3 v4_4 v4_5 v4_6 v4_7 v4_8
  have k13 : Keeps r v4_3 := portalReset_keeps _ (portalReset_keeps _ h)
  clear_value v4_3
  have k14 : Keeps r v4_6 := Keeps.same k13 rfl
  clear_value v4_6
  have k15 : Keeps r v4_7 := State.modTx_keeps _ _ k14
  clear_value v4_7
  have k16 : Keeps r v4_8 := State.modRx_keeps _ _ k15
  clear_value v4_8
  exact Keeps.ite (countUnderrun_keeps _ k16) k16

theorem linkDown_keeps {r : State} (a0) {s : State} (h : Keeps r s) : Keeps r (linkDown a0 s) := by
  unfold linkDown
  extract_lets v4_0 v4_1
  have k6 : Keeps r v4_0 := Keeps.ite (State.modTx_keeps _ _ h) h
  clear_value v4_0
  have k7 : Keeps r v4_1 := flagLink_keeps _ _ (State.setLink_keeps _ _ _ k6)
  clear_value v4_1
  exact Keeps.ite k6 (Keeps.ite (flagAdit_keeps _ _ k7) k7)

theorem linkUp_keeps {r : State} (a0) {s : State} (h : Keeps r s) : Keeps r (linkUp a0 s) := by
  unfold linkUp
  extract_lets v4_0 v4_1
  have k6 : Keeps r v4_0 := State.setLink_keeps _ _ _ (State.setLink_keeps _ _ _ (State.setLaneState_keeps _ _ h))
  clear_value v4_0
  have k7 : Keeps r v4_1 := flagLink_keeps _ _ k6
  clear_value v4_1
  exact Keeps.ite (flagAdit_keeps _ _ (State.modAdit_keeps _ _ k7)) k7

theorem advanceLink_keeps {r : State} (a0) {s : State} (h : Keeps r s) : Keeps r (advanceLink a0 s) := by
  unfold advanceLink
  extract_lets v4_0 v4_1
  have k6 : Keeps r v4_1 := Keeps.ite (Keeps.ite (linkUp_keeps _ h) (State.setLaneState_keeps _ _ h)) h
  clear_value v4_1
  exact Keeps.ite (Keeps.ite (State.setLaneState_keeps _ _ k6) (linkUp_keeps _ k6)) k6

theorem beginLock_keeps {r : State} (a0) {s : State} (h : Keeps r s) : Keeps r (beginLock a0 s) := by
  unfold beginLock
  exact lockStart_keeps _ (unalign_keeps _ (State.setLaneState_keeps _ _ h))

theorem bringUp_keeps {r : State} (a0) {s : State} (h : Keeps r s) : Keeps r (bringUp a0 s) := by
  unfold bringUp
  extract_lets v4_0
  exact Keeps.ite (Keeps.ite (lockStart_keeps _ (State.setLaneState_keeps _ _ h)) (Keeps.ite (lockStart_keeps _
    (unalign_keeps _ (State.setLaneState_keeps _ _ h))) (Keeps.ite (beginLock_keeps _ h) (State.setLaneState_keeps _ _
    (unalign_keeps _ (lockStop_keeps _ h)))))) (State.setLaneState_keeps _ _ h)

theorem retrain_keeps {r : State} (a0) {s : State} (h : Keeps r s) : Keeps r (retrain a0 s) := by
  unfold retrain
  extract_lets v4_0 v4_1
  have k6 : Keeps r v4_0 := flagLink_keeps _ _ (countLink_keeps _ _ _ (State.setLink_keeps _ _ _ h))
  clear_value v4_0
  have k7 : Keeps r v4_1 := Keeps.ite k6 (laneReset_keeps _ k6)
  clear_value v4_1
  exact beginLock_keeps _ (interruptLaneClient_keeps _ k7)

theorem linkCause_keeps {r : State} (a0) {s : State} (h : Keeps r s) : Keeps r (linkCause a0 s) := by
  unfold linkCause
  exact Keeps.ite (retrain_keeps _ h) (Keeps.ite (beginLock_keeps _ h) (lockStart_keeps _ h))

theorem quietTx_keeps {r : State} (a0) {s : State} (h : Keeps r s) : Keeps r (quietTx a0 s) :=
  h.same rfl

theorem txpllLock_keeps {r : State} (a0) {s : State} (h : Keeps r s) : Keeps r (txpllLock a0 s) := by
  unfold txpllLock
  extract_lets v4_0 v4_1 v4_2
  have k7 : Keeps r v4_0 := State.setPma_keeps _ _ _ h
  clear_value v4_0
  have k8 : Keeps r v4_1 := Keeps.ite k7 (sendBurst_keeps _ (State.setPma_keeps _ _ _ k7))
  clear_value v4_1
  have k9 : Keeps r v4_2 := Keeps.ite k8 (lockStart_keeps _ k8)
  clear_value v4_2
  exact Keeps.ite (advanceLink_keeps _ k9) h

theorem refclkLoss_keeps {r : State} (a0) {s : State} (h : Keeps r s) : Keeps r (refclkLoss a0 s) := by
  unfold refclkLoss
  extract_lets v4_0
  have k5 : Keeps r v4_0 := stopTests_keeps _ h
  clear_value v4_0
  refine Keeps.ite ?_ h
  refine Keeps.foldl _ _ (fun s6 x6 h6 => ?_) k5
  extract_lets v9_0 v9_1
  have k11 : Keeps r v9_1 := flagBench_keeps _ _ (State.setField_keeps _ _ _ _ _ h6)
  clear_value v9_1
  refine Keeps.foldl _ _ (fun s12 x12 h12 => ?_) k11
  extract_lets v15_0 v15_1
  have k17 : Keeps r v15_1 := lockStop_keeps _ (quietTx_keeps _ (State.setPma_keeps _ _ _ h12))
  clear_value v15_1
  exact Keeps.ite (Keeps.ite (unalign_keeps _ (State.setLaneState_keeps _ _ k17)) k17) h12

theorem refclkBack_keeps {r : State} (a0) {s : State} (h : Keeps r s) : Keeps r (refclkBack a0 s) := by
  unfold refclkBack
  exact Keeps.ite (Keeps.foldl _ _ (fun s4 x4 h4 => (flagBench_keeps _ _ (State.setField_keeps _ _ _ _ _ h4))) h) h

theorem enterRxIdle_keeps {r : State} (a0) {s : State} (h : Keeps r s) : Keeps r (enterRxIdle a0 s) :=
  h.same rfl

theorem noteEdge_keeps {r : State} (a0) {s : State} (h : Keeps r s) : Keeps r (noteEdge a0 s) :=
  h.same rfl

theorem flagSignal_keeps {r : State} (a0) (a1) {s : State} (h : Keeps r s) : Keeps r (flagSignal a0 a1 s) := by
  unfold flagSignal
  exact Keeps.ite (flagPma_keeps _ _ h) h

theorem signalRise_keeps {r : State} (a0) {s : State} (h : Keeps r s) : Keeps r (signalRise a0 s) := by
  unfold signalRise
  extract_lets v4_0 v4_1
  have k6 : Keeps r v4_0 := State.setPma_keeps _ _ _ h
  clear_value v4_0
  have k7 : Keeps r v4_1 := flagSignal_keeps _ _ k6
  clear_value v4_1
  exact Keeps.ite (Keeps.ite (Keeps.ite (Keeps.ite (Keeps.ite (bringUp_keeps _ k7) k7) (Keeps.ite (lockStart_keeps _ k7)
    k7)) k7) (noteEdge_keeps _ k6)) h

theorem signalFall_keeps {r : State} (a0) {s : State} (h : Keeps r s) : Keeps r (signalFall a0 s) := by
  unfold signalFall
  extract_lets v4_0 v4_1 v4_2
  have k7 : Keeps r v4_0 := State.setPma_keeps _ _ _ h
  clear_value v4_0
  have k8 : Keeps r v4_1 := State.modRx_keeps _ _ (flagSignal_keeps _ _ k7)
  clear_value v4_1
  have k9 : Keeps r v4_2 := Keeps.ite k8 (enterRxIdle_keeps _ k8)
  clear_value v4_2
  exact Keeps.ite (Keeps.ite (Keeps.ite (retrain_keeps _ (logFault_keeps _ _ k9)) k9) (noteEdge_keeps _ k7)) h

theorem relockWrite_keeps {r : State} (a0) {s : State} (h : Keeps r s) : Keeps r (relockWrite a0 s) := by
  unfold relockWrite
  exact Keeps.ite (lockStart_keeps _ h) h

theorem lockEnd_keeps {r : State} (a0) {s : State} (h : Keeps r s) : Keeps r (lockEnd a0 s) := by
  unfold lockEnd
  extract_lets v4_0
  have k5 : Keeps r v4_0 := State.modRx_keeps _ _ h
  clear_value v4_0
  exact Keeps.ite (enterRxIdle_keeps _ k5) (advanceLink_keeps _ (State.setPma_keeps _ _ _ k5))

theorem lockDone_keeps {r : State} (a0) (a1) (a2) (a3) (a4) {s : State} (h : Keeps r s) : Keeps r (lockDone a0 a1 a2 a3 a4 s)
    := by
  unfold lockDone
  extract_lets v8_0 v8_1
  have k10 : Keeps r v8_0 := State.setPma_keeps _ _ _ h
  clear_value v8_0
  have k11 : Keeps r v8_1 := State.setReg_keeps _ _ _ k10
  clear_value v8_1
  exact Keeps.ite (Keeps.ite (Keeps.ite (lockEnd_keeps _ (State.setPma_keeps _ _ _ k11)) (flagPma_keeps _ _ k11))
    (lockEnd_keeps _ (State.setReg_keeps _ _ _ k10))) h

theorem cdrLoss_keeps {r : State} (a0) {s : State} (h : Keeps r s) : Keeps r (cdrLoss a0 s) := by
  unfold cdrLoss
  exact Keeps.ite (linkCause_keeps _ (flagPma_keeps _ _ (State.setPma_keeps _ _ _ (State.setPma_keeps _ _ _ h)))) h

theorem txIdleEntry_keeps {r : State} (a0) {s : State} (h : Keeps r s) : Keeps r (txIdleEntry a0 s) := by
  unfold txIdleEntry
  extract_lets v4_0
  have k5 : Keeps r v4_0 := quietTx_keeps _ h
  clear_value v4_0
  exact Keeps.ite (Keeps.ite (enterRxIdle_keeps _ k5) k5) h

theorem txIdleExit_keeps {r : State} (a0) {s : State} (h : Keeps r s) : Keeps r (txIdleExit a0 s) := by
  unfold txIdleExit
  exact Keeps.ite (sendBurst_keeps _ (State.setPma_keeps _ _ _ h)) h

theorem patOverflow_keeps {r : State} (a0) (a1) {s : State} (h : Keeps r s) : Keeps r (patOverflow a0 a1 s) := by
  unfold patOverflow
  exact flagPma_keeps _ _ (State.setBits_keeps _ _ _ h)

theorem marginSample_keeps {r : State} (a0) (a1) (a2) {s : State} (h : Keeps r s) : Keeps r (marginSample a0 a1 a2 s) := by
  unfold marginSample
  extract_lets v6_0 v6_1 v6_2
  have k9 : Keeps r v6_1 := State.modRx_keeps _ _ h
  clear_value v6_1
  have k10 : Keeps r v6_2 := countStat_keeps _ _ _ (fun s10 h10 => patOverflow_keeps _ _ h10) k9
  clear_value v6_2
  exact Keeps.ite (Keeps.ite (countStat_keeps _ _ _ (fun s11 h11 => patOverflow_keeps _ _ h11) k10) k10) k9

theorem decideUi_keeps {r : State} (a0) (a1) {s : State} (h : Keeps r s) : Keeps r (decideUi a0 a1 s).2 := by
  unfold decideUi
  extract_lets v5_0 v5_1
  exact Keeps.mkSnd (marginSample_keeps _ _ _ (State.modRx_keeps _ _ h))

theorem decideLine_keeps {r : State} (a0) (a1) {s : State} (h : Keeps r s) : Keeps r (decideLine a0 a1 s).2 := by
  induction a1 generalizing s with
  | nil => exact h
  | cons u rest ih => exact ih (decideUi_keeps a0 u h)

theorem burstCheck_keeps {r : State} (a0) (a1) {s : State} (h : Keeps r s) : Keeps r (burstCheck a0 a1 s) := by
  unfold burstCheck
  extract_lets v5_0
  refine Keeps.ite ?_ h
  split
  rename_i _ _ m12_2 m12_3
  have k12 : Keeps r m12_2 := Keeps.ofPair m12_3 (decideLine_keeps _ _ h)
  extract_lets v13_0
  have k14 : Keeps r v13_0 := State.modRx_keeps _ _ k12
  clear_value v13_0
  exact Keeps.ite (advanceLink_keeps _ (State.setPma_keeps _ _ _ (State.setPma_keeps _ _ _ k14))) (linkCause_keeps _
    (flagPma_keeps _ _ (State.setPma_keeps _ _ _ (State.setPma_keeps _ _ _ k14))))

theorem startPattern_keeps {r : State} (a0) (a1) {s : State} (h : Keeps r s) : Keeps r (startPattern a0 a1 s) := by
  unfold startPattern
  split
  · split
    rename_i _ _ m17_2 m17_3
    have k17 : Keeps r m17_2 := Keeps.ofPair m17_3 (State.takeFree_keeps h)
    exact State.modTx_keeps _ _ k17
  · exact State.modTx_keeps _ _ h

theorem genWrite_keeps {r : State} (a0) (a1) {s : State} (h : Keeps r s) : Keeps r (genWrite a0 a1 s) := by
  unfold genWrite
  extract_lets v5_0 v5_1 v5_2
  have k8 : Keeps r v5_1 := Keeps.ite h (startPattern_keeps _ _ h)
  clear_value v5_1
  have k9 : Keeps r v5_2 := State.setField_keeps _ _ _ _ _ k8
  clear_value v5_2
  exact Keeps.ite (Keeps.ite (Keeps.ite (linkDown_keeps _ (State.setLink_keeps _ _ _ (State.setLaneState_keeps _ _
    (unalign_keeps _ k9)))) (Keeps.ite (bringUp_keeps _ (State.modTx_keeps _ _ k9)) k9)) k9) h

theorem chkWrite_keeps {r : State} (a0) (a1) {s : State} (h : Keeps r s) : Keeps r (chkWrite a0 a1 s) := by
  unfold chkWrite
  exact Keeps.ite (checkerSearch_keeps _ (State.setField_keeps _ _ _ _ _ h)) h

theorem checkerSync_keeps {r : State} (a0) {s : State} (h : Keeps r s) : Keeps r (checkerSync a0 s) := by
  unfold checkerSync
  refine Keeps.ite ?_ h
  split
  · exact State.modRx_keeps _ _ (State.setField_keeps _ _ _ _ _ h)
  · exact h

theorem count48_keeps {r : State} (a0) (a1) (a2) (a3) (a4) {s : State} (h : Keeps r s) : Keeps r (count48 a0 a1 a2 a3 a4 s) :=
    by
  unfold count48
  extract_lets v8_0 v8_1 v8_2
  have k11 : Keeps r v8_2 := State.setReg_keeps _ _ _ (State.setReg_keeps _ _ _ h)
  clear_value v8_2
  exact Keeps.ite (patOverflow_keeps _ _ k11) k11

theorem checkerLoss_keeps {r : State} (a0) {s : State} (h : Keeps r s) : Keeps r (checkerLoss a0 s) := by
  unfold checkerLoss
  exact Keeps.ite (flagPma_keeps _ _ (countStat_keeps _ _ _ (fun s4 h4 => patOverflow_keeps _ _ h4) (checkerSearch_keeps _
    h))) h

theorem checkBit_keeps {r : State} (a0) (a1) {s : State} (h : Keeps r s) : Keeps r (checkBit a0 a1 s).2 := by
  unfold checkBit
  extract_lets v5_0 v5_1 v5_2 v5_3 v5_4
  have k10 : Keeps r v5_0 := checkerLoss_keeps _ (checkerSync_keeps _ h)
  clear_value v5_0
  have k11 : Keeps r v5_3 := count48_keeps _ _ _ _ _ k10
  clear_value v5_3
  have k12 : Keeps r v5_4 := Keeps.ite (count48_keeps _ _ _ _ _ k11) k11
  clear_value v5_4
  exact Keeps.iteSnd (Keeps.mkSnd (State.modRx_keeps _ _ k12)) (Keeps.mkSnd (State.modRx_keeps _ _ k10))

theorem checkSymbol_keeps {r : State} (a0) (a1) {s : State} (h : Keeps r s) : Keeps r (checkSymbol a0 a1 s) := by
  unfold checkSymbol
  extract_lets v5_0
  refine Keeps.ite ?_ ?_
  · refine countStat_keeps _ _ _ (fun s6 h6 => patOverflow_keeps _ _ h6) ?_
    unfold v5_0
    refine Keeps.foldlSnd _ _ (fun a6 x6 h6 => ?_) (Keeps.mkSnd h)
    extract_lets v9_0
    refine Keeps.mkSnd ?_
    unfold v9_0
    exact checkBit_keeps _ _ h6
  · unfold v5_0
    refine Keeps.foldlSnd _ _ (fun a6 x6 h6 => ?_) (Keeps.mkSnd h)
    extract_lets v9_0
    refine Keeps.mkSnd ?_
    unfold v9_0
    exact checkBit_keeps _ _ h6

theorem inject_keeps {r : State} (a0) {s : State} (h : Keeps r s) : Keeps r (inject a0 s) := by
  unfold inject
  exact Keeps.ite (State.modTx_keeps _ _ h) h

theorem injectRate_keeps {r : State} (a0) {s : State} (h : Keeps r s) : Keeps r (injectRate a0 s) := by
  unfold injectRate
  exact Keeps.ite h (inject_keeps _ h)

theorem patClear_keeps {r : State} (a0) {s : State} (h : Keeps r s) : Keeps r (patClear a0 s) :=
  h.same rfl

theorem marginWrite_keeps {r : State} (a0) (a1) {s : State} (h : Keeps r s) : Keeps r (marginWrite a0 a1 s) := by
  unfold marginWrite
  extract_lets v5_0 v5_1 v5_2 v5_3 v5_4
  have k10 : Keeps r v5_4 := State.setReg_keeps _ _ _ h
  clear_value v5_4
  exact Keeps.ite k10 (State.setReg_keeps _ _ _ (State.setReg_keeps _ _ _ k10))

theorem loopWrite_keeps {r : State} (a0) (a1) {s : State} (h : Keeps r s) : Keeps r (loopWrite a0 a1 s) := by
  unfold loopWrite
  extract_lets v5_0
  have k6 : Keeps r v5_0 := State.setField_keeps _ _ _ _ _ h
  clear_value v5_0
  exact Keeps.ite h (Keeps.ite (Keeps.ite (beginLock_keeps _ k6) (lockStart_keeps _ k6)) k6)

theorem eqWrite_keeps {r : State} (a0) (a1) {s : State} (h : Keeps r s) : Keeps r (eqWrite a0 a1 s) := by
  unfold eqWrite
  extract_lets v5_0
  exact Keeps.ite (State.setReg_keeps _ _ _ h) (State.setField_keeps _ _ _ _ _ h)

theorem retrainWrite_keeps {r : State} (a0) {s : State} (h : Keeps r s) : Keeps r (retrainWrite a0 s) := by
  unfold retrainWrite
  exact Keeps.ite (Keeps.ite (Keeps.ite (beginLock_keeps _ h) h) (Keeps.ite (retrain_keeps _ h) h)) h

theorem advanceEpoch_keeps {r : State} (a0) {s : State} (h : Keeps r s) : Keeps r (advanceEpoch a0 s) :=
  h.same rfl

theorem linkResetWrite_keeps {r : State} (a0) {s : State} (h : Keeps r s) : Keeps r (linkResetWrite a0 s) := by
  unfold linkResetWrite
  exact Keeps.ite (advanceEpoch_keeps _ h) h

theorem disableWrite_keeps {r : State} (a0) {s : State} (h : Keeps r s) : Keeps r (disableWrite a0 s) := by
  unfold disableWrite
  extract_lets v4_0 v4_1 v4_2 v4_3 v4_4
  have k9 : Keeps r v4_2 := State.setField_keeps _ _ _ _ _ h
  clear_value v4_2
  have k10 : Keeps r v4_3 := Keeps.ite (linkDown_keeps _ k9) k9
  clear_value v4_3
  have k11 : Keeps r v4_4 := Keeps.ite (interruptLaneClient_keeps _ (laneReset_keeps _ k10)) k10
  clear_value v4_4
  exact Keeps.ite h (State.setLink_keeps _ _ _ (unalign_keeps _ (lockStop_keeps _ (State.setLaneState_keeps _ _ k11))))

theorem enableWrite_keeps {r : State} (a0) {s : State} (h : Keeps r s) : Keeps r (enableWrite a0 s) := by
  unfold enableWrite
  exact Keeps.ite (bringUp_keeps _ (State.setField_keeps _ _ _ _ _ h)) h

theorem linkDownTimeout_keeps {r : State} (a0) {s : State} (h : Keeps r s) : Keeps r (linkDownTimeout a0 s) := by
  unfold linkDownTimeout
  extract_lets v4_0 v4_1
  have k6 : Keeps r v4_1 := linkDown_keeps _ h
  clear_value v4_1
  exact Keeps.ite (Keeps.ite (State.setLink_keeps _ _ _ (State.setLaneState_keeps _ _ (unalign_keeps _ (lockStop_keeps _
    k6)))) k6) h

theorem benchIn_keeps {r : State} (a0) {s : State} (h : Keeps r s) : Keeps r (benchIn a0 s) := by
  unfold benchIn
  refine Keeps.foldl _ _ (fun s4 x4 h4 => ?_) (flagBench_keeps _ _ h)
  extract_lets v7_0
  exact Keeps.ite (bringUp_keeps _ h4) h4

theorem benchOut_keeps {r : State} (a0) {s : State} (h : Keeps r s) : Keeps r (benchOut a0 s) := by
  unfold benchOut
  refine Keeps.foldl _ _ (fun s4 x4 h4 => ?_) (flagBench_keeps _ _ h)
  extract_lets v7_0
  exact Keeps.ite (State.setLink_keeps _ _ _ (State.setLaneState_keeps _ _ (unalign_keeps _ (lockStop_keeps _
    (linkDown_keeps _ h4))))) h4

theorem hpdIn_keeps {r : State} (a0) {s : State} (h : Keeps r s) : Keeps r (hpdIn a0 s) := by
  unfold hpdIn
  extract_lets v4_0
  have k5 : Keeps r v4_0 := State.setField_keeps _ _ _ _ _ h
  clear_value v4_0
  exact Keeps.ite h (Keeps.ite (Keeps.ite (benchIn_keeps _ k5) (noteEdge_keeps _ k5)) k5)

theorem hpdOut_keeps {r : State} (a0) {s : State} (h : Keeps r s) : Keeps r (hpdOut a0 s) := by
  unfold hpdOut
  extract_lets v4_0
  have k5 : Keeps r v4_0 := State.setField_keeps _ _ _ _ _ h
  clear_value v4_0
  exact Keeps.ite (Keeps.ite (Keeps.ite (benchOut_keeps _ k5) (noteEdge_keeps _ k5)) k5) h

theorem replayEdges_keeps {r : State} {s : State} (h : Keeps r s) : Keeps r (replayEdges s) := by
  unfold replayEdges
  extract_lets v3_0
  refine Keeps.foldl _ _ (fun s4 x4 h4 => ?_) (State.withPower_keeps _ h)
  split
  · exact flagSignal_keeps _ _ h4
  · exact benchIn_keeps _ h4
  · exact benchOut_keeps _ h4

theorem sdBurst_keeps {r : State} (a0) {s : State} (h : Keeps r s) : Keeps r (sdBurst a0 s) := by
  unfold sdBurst
  exact Keeps.ite (sendBurst_keeps _ h) h

theorem sendDown_keeps {r : State} (a0) {s : State} (h : Keeps r s) : Keeps r (sendDown a0 s) := by
  unfold sendDown
  extract_lets v4_0 v4_1
  exact Keeps.ite (driveBits_keeps _ _ _ _ (State.modTx_keeps _ _ h)) h

theorem loseAdit_keeps {r : State} (a0) {s : State} (h : Keeps r s) : Keeps r (loseAdit a0 s) :=
  h.same rfl

theorem laneOff_keeps {r : State} (a0) {s : State} (h : Keeps r s) : Keeps r (laneOff a0 s) := by
  unfold laneOff
  extract_lets v4_0 v4_1 v4_2 v4_3
  have k8 : Keeps r v4_0 := interruptLaneClient_keeps _ (laneReset_keeps _ (sendDown_keeps _ h))
  clear_value v4_0
  have k9 : Keeps r v4_3 := loseAdit_keeps _ (State.modLane_keeps _ _ k8)
  clear_value v4_3
  exact State.setReg_keeps _ _ _ (State.setReg_keeps _ _ _ k9)

theorem laneBack_keeps {r : State} (a0) {s : State} (h : Keeps r s) : Keeps r (laneBack a0 s) := by
  unfold laneBack
  extract_lets v4_0
  have k5 : Keeps r v4_0 := Keeps.ite (advanceEpoch_keeps _ h) h
  clear_value v4_0
  exact bringUp_keeps _ k5

theorem laneEnable_keeps {r : State} (a0) {s : State} (h : Keeps r s) : Keeps r (laneEnable a0 s) := by
  unfold laneEnable
  extract_lets v4_0
  have k5 : Keeps r v4_0 := State.setField_keeps _ _ _ _ _ h
  clear_value v4_0
  exact bringUp_keeps _ k5

theorem laneSleep_keeps {r : State} (a0) {s : State} (h : Keeps r s) : Keeps r (laneSleep a0 s) := by
  unfold laneSleep
  extract_lets v4_0 v4_1
  have k6 : Keeps r v4_0 := sendDown_keeps _ h
  clear_value v4_0
  have k7 : Keeps r v4_1 := State.modTx_keeps _ _ (quietTx_keeps _ k6)
  clear_value v4_1
  exact Keeps.ite (lockStop_keeps _ (State.setPma_keeps _ _ _ (State.setPma_keeps _ _ _ k7))) h

theorem laneResume_keeps {r : State} (a0) {s : State} (h : Keeps r s) : Keeps r (laneResume a0 s) := by
  unfold laneResume
  extract_lets v4_0 v4_1
  have k6 : Keeps r v4_0 := State.modTx_keeps _ _ h
  clear_value v4_0
  have k7 : Keeps r v4_1 := Keeps.ite k6 (interruptLaneClient_keeps _ (laneReset_keeps _ k6))
  clear_value v4_1
  exact Keeps.ite (bringUp_keeps _ (State.setPma_keeps _ _ _ k7)) h

theorem countDrop_keeps {r : State} (a0) {s : State} (h : Keeps r s) : Keeps r (countDrop a0 s) := by
  unfold countDrop
  exact flagLink_keeps _ _ (countLink_keeps _ _ _ h)

theorem drainToCrusher_keeps {r : State} (a0) (a1) {s : State} (h : Keeps r s) : Keeps r (drainToCrusher a0 a1 s) := by
  induction a1 generalizing s with
  | zero => exact h
  | succ n ih =>
    unfold drainToCrusher
    split
    · exact h
    · split
      · split
        extract_lets t
        have kt : Keeps r t := State.modRx_keeps _ _ h
        exact ih (kt.same rfl)
      · exact h

theorem storePortal_keeps {r : State} (a0) (a1) {s : State} (h : Keeps r s) : Keeps r (storePortal a0 a1 s) := by
  unfold storePortal
  extract_lets v5_0
  exact Keeps.ite (countDrop_keeps _ (State.modRx_keeps _ _ h)) (State.modRx_keeps _ _ h)

theorem storeCrusher_keeps {r : State} (a0) (a1) {s : State} (h : Keeps r s) : Keeps r (storeCrusher a0 a1 s) := by
  unfold storeCrusher
  extract_lets v5_0
  exact Keeps.ite (countDrop_keeps _ (State.modRx_keeps _ _ h)) (Keeps.ite (countDrop_keeps _ (State.modRx_keeps _ _ h))
    (drainToCrusher_keeps _ _ (State.modRx_keeps _ _ h)))

theorem addMsgs_keeps {r : State} (a0) (a1) {s : State} (h : Keeps r s) : Keeps r (addMsgs a0 a1 s) :=
  h.same rfl

theorem aditBlock_keeps {r : State} (a0) (a1) (a2) (a3) {s : State} (h : Keeps r s) : Keeps r (aditBlock a0 a1 a2 a3 s) := by
  unfold aditBlock
  extract_lets v7_0 v7_1 v7_2 v7_3
  have k11 : ∀ s, Keeps r s → Keeps r (v7_2 s) := by
    intro s12 h12
    unfold v7_2
    exact State.modAdit_keeps _ _ h12
  clear_value v7_2
  have k12 : Keeps r v7_3 := by
    unfold v7_3
    split
    · exact addMsgs_keeps _ _ h
    · exact h
  clear_value v7_3
  refine Keeps.ite (State.modAdit_keeps _ _ h) ?_
  refine Keeps.ite ?_ ?_
  · split
    · exact State.modAdit_keeps _ _ h
    · exact countLink_keeps _ _ _ h
  · split
    · exact State.modAdit_keeps _ _ k12
    · split
      · extract_lets v22_0 v22_1
        exact addMsgs_keeps _ _ (State.modAdit_keeps _ _ h)
      · exact h
    · exact addMsgs_keeps _ _ (k11 _ h)
    · exact addMsgs_keeps _ _ (k11 _ h)
    · exact addMsgs_keeps _ _ (k11 _ h)
    · exact addMsgs_keeps _ _ (k11 _ h)
    · exact k11 _ h

theorem pcsBlock_keeps {r : State} (a0) (a1) (a2) {s : State} (h : Keeps r s) : Keeps r (pcsBlock a0 a1 a2 s) := by
  unfold pcsBlock
  extract_lets v6_0 v6_1 v6_2 v6_3 v6_4 v6_5 v6_6 v6_7
  have k14 : Keeps r v6_2 := State.modRx_keeps _ _ h
  clear_value v6_2
  have k15 : Keeps r v6_5 := Keeps.ite k14 (countLink_keeps _ _ _ k14)
  clear_value v6_5
  exact Keeps.ite k15 (Keeps.ite (aditBlock_keeps _ _ _ _ k15) (Keeps.ite (Keeps.ite (storeCrusher_keeps _ _ k15)
    (storePortal_keeps _ _ k15)) k15))

theorem blockLock_keeps {r : State} (a0) {s : State} (h : Keeps r s) : Keeps r (blockLock a0 s) := by
  unfold blockLock
  refine Keeps.ite ?_ h
  split
  · exact advanceLink_keeps _ (State.modRx_keeps _ _ (State.setLink_keeps _ _ _ h))
  · exact h

theorem blockLoss_keeps {r : State} (a0) {s : State} (h : Keeps r s) : Keeps r (blockLoss a0 s) := by
  unfold blockLoss
  exact Keeps.ite (linkCause_keeps _ (State.modRx_keeps _ _ (State.setLink_keeps _ _ _ h))) h

theorem blockAt_keeps {r : State} (a0) (a1) (a2) (a3) {s : State} (h : Keeps r s) : Keeps r (blockAt a0 a1 a2 a3 s) := by
  unfold blockAt
  extract_lets v7_0
  split
  · exact State.modRx_keeps _ _ h
  · exact Keeps.ite (pcsBlock_keeps _ _ _ (State.modRx_keeps _ _ h)) h

theorem blockBit_keeps {r : State} (a0) (a1) {s : State} (h : Keeps r s) : Keeps r (blockBit a0 a1 s) := by
  unfold blockBit
  extract_lets v5_0 v5_1 v5_2 v5_3 v5_4
  have k10 : Keeps r v5_0 := blockLock_keeps _ (blockLoss_keeps _ h)
  clear_value v5_0
  have k11 : Keeps r v5_4 := State.modRx_keeps _ _ k10
  clear_value v5_4
  exact Keeps.ite (Keeps.ite (blockAt_keeps _ _ _ _ k11) k11) k10

theorem codewordDeliver_keeps {r : State} (a0) (a1) (a2) {s : State} (h : Keeps r s) : Keeps r (codewordDeliver a0 a1 a2 s) :=
    by
  unfold codewordDeliver
  refine Keeps.foldl _ _ (fun s6 x6 h6 => ?_) h
  extract_lets v9_0
  have k10 : Keeps r v9_0 := blockLock_keeps _ (blockLoss_keeps _ h6)
  clear_value v9_0
  exact Keeps.ite (blockAt_keeps _ _ _ _ k10) k10

theorem codeword_keeps {r : State} (a0) {s : State} (h : Keeps r s) : Keeps r (codeword a0 s) := by
  unfold codeword
  extract_lets v4_0 v4_1 v4_2 v4_3 v4_4 v4_5
  have k10 : Keeps r v4_0 := State.modRx_keeps _ _ h
  clear_value v4_0
  have k11 : Keeps r v4_4 := codewordDeliver_keeps _ _ _ (countLink_keeps _ _ _ (State.modRx_keeps _ _ k10))
  clear_value v4_4
  refine Keeps.ite ?_ h
  split
  · exact codewordDeliver_keeps _ _ _ (countMany_keeps _ _ _ _ (fun s23 h23 => linkOverflow_keeps _ _ h23)
      (State.modRx_keeps _ _ k10))
  · exact Keeps.ite (linkCause_keeps _ (State.modRx_keeps _ _ (State.setLink_keeps _ _ _ k11))) k11
  · exact Keeps.ite (advanceLink_keeps _ (State.modRx_keeps _ _ (State.setLink_keeps _ _ _ k10))) (State.modRx_keeps _ _ k10)
  · exact State.modRx_keeps _ _ k10

theorem codewordBit_keeps {r : State} (a0) (a1) {s : State} (h : Keeps r s) : Keeps r (codewordBit a0 a1 s) := by
  unfold codewordBit
  extract_lets v5_0
  have k6 : Keeps r v5_0 := codeword_keeps _ h
  clear_value v5_0
  exact Keeps.ite (State.modRx_keeps _ _ k6) k6

theorem rawBit_keeps {r : State} (a0) (a1) {s : State} (h : Keeps r s) : Keeps r (rawBit a0 a1 s) := by
  unfold rawBit
  extract_lets v5_0
  exact Keeps.ite (State.modRx_keeps _ _ h) (storePortal_keeps _ _ (State.modRx_keeps _ _ h))

theorem pcsBit_keeps {r : State} (a0) {s : State} (a1) (h : Keeps r s) : Keeps r (pcsBit a0 s a1) := by
  unfold pcsBit
  refine Keeps.ite ?_ h
  split
  · exact h
  · exact Keeps.ite (rawBit_keeps _ _ h) h
  · exact Keeps.ite (codewordBit_keeps _ _ h) (blockBit_keeps _ _ h)

theorem hearSymbol_keeps {r : State} (a0) {s : State} (a1) (h : Keeps r s) : Keeps r (hearSymbol a0 s a1) := by
  unfold hearSymbol
  extract_lets v5_0 v5_1 v5_2 v5_3 v5_4 v5_5
  have k11 : Keeps r v5_4 := State.modRx_keeps _ _ h
  clear_value v5_4
  have k12 : Keeps r v5_5 := Keeps.ite k11 (checkSymbol_keeps _ _ k11)
  clear_value v5_5
  exact Keeps.ite (Keeps.foldl _ _ (fun s13 x13 h13 => (pcsBit_keeps _ _ h13)) k12) h

theorem hear_keeps {r : State} (a0) (a1) {s : State} (h : Keeps r s) : Keeps r (hear a0 a1 s) := by
  unfold hear
  exact Keeps.foldl _ _ (fun s5 x5 h5 => (hearSymbol_keeps _ _ h5)) h

theorem rxBlock_keeps {r : State} (a0) (a1) {s : State} (h : Keeps r s) : Keeps r (rxBlock a0 a1 s) := by
  unfold rxBlock
  refine Keeps.ite ?_ h
  split
  rename_i _ _ m11_2 m11_3
  have k11 : Keeps r m11_2 := Keeps.ofPair m11_3 (decideLine_keeps _ _ h)
  exact hear_keeps _ _ (Keeps.ite (putLine_keeps _ _ k11) k11)

theorem feedBeat_keeps {r : State} (a0) (a1) (a2) (a3) (a4) {s : State} (h : Keeps r s) : Keeps r (feedBeat a0 a1 a2 a3 a4 s)
    := by
  unfold feedBeat
  extract_lets v8_0 v8_1
  refine Keeps.ite (State.modTx_keeps _ _ h) ?_
  refine Keeps.ite (State.modTx_keeps _ _ h) ?_
  split
  rename_i _ _ m16_2 m16_3
  have k16 : Keeps r m16_2 := Keeps.ofPair m16_3 (State.takeFree_keeps h)
  extract_lets v17_0 v17_1 v17_2
  have k20 : Keeps r v17_0 := Keeps.ite k16 h
  clear_value v17_0
  exact State.modTx_keeps _ _ k20

theorem underrun_keeps {r : State} (a0) {s : State} (h : Keeps r s) : Keeps r (underrun a0 s) := by
  unfold underrun
  exact countUnderrun_keeps _ (State.modTx_keeps _ _ h)

theorem feedCrusher_keeps {r : State} (a0) (a1) {s : State} (h : Keeps r s) : Keeps r (feedCrusher a0 a1 s) := by
  unfold feedCrusher
  exact feedBeat_keeps _ _ _ _ _ h

theorem feedSump_keeps {r : State} (a0) (a1) {s : State} (h : Keeps r s) : Keeps r (feedSump a0 a1 s) := by
  unfold feedSump
  exact Keeps.ite (Keeps.ite (underrun_keeps _ h) h) (feedBeat_keeps _ _ _ _ _ h)

theorem skipWords_keeps {r : State} (a0) (a1) {s : State} (h : Keeps r s) : Keeps r (skipWords a0 a1 s) := by
  induction a1 generalizing s with
  | zero => exact h
  | succ n ih =>
    unfold skipWords
    extract_lets p v
    split
    · extract_lets t
      have kt : Keeps r t := State.modPortal_keeps _ _ h
      exact ih (Keeps.ite (State.modTx_keeps _ _ kt) kt)
    · exact h

theorem takeWord_keeps {r : State} (a0) {s : State} (h : Keeps r s) : Keeps r (takeWord a0 s) := by
  unfold takeWord
  extract_lets v4_0 v4_1 v4_2
  split
  · extract_lets v19_0 v19_1 v19_2 v19_3
    have k23 : Keeps r v19_3 := State.modPortal_keeps _ _ h
    clear_value v19_3
    exact State.modTx_keeps _ _ k23
  · exact h

theorem sendBits_keeps {r : State} (a0) (a1) (a2) (a3) {s : State} (h : Keeps r s) : Keeps r (sendBits a0 a1 a2 a3 s) := by
  unfold sendBits
  extract_lets v7_0
  have k8 : Keeps r v7_0 := driveBits_keeps _ _ _ _ (Keeps.ite (State.modTx_keeps _ _ h) h)
  clear_value v7_0
  exact Keeps.ite (hear_keeps _ _ k8) k8

theorem sendBlock_keeps {r : State} (a0) (a1) {s : State} (h : Keeps r s) : Keeps r (sendBlock a0 a1 s) := by
  unfold sendBlock
  extract_lets v5_0 v5_1 v5_2 v5_3 v5_4
  have k10 : Keeps r v5_3 := State.modTx_keeps _ _ h
  clear_value v5_3
  exact Keeps.ite (sendBits_keeps _ _ _ _ (State.modTx_keeps _ _ h)) (Keeps.ite (Keeps.ite (State.modTx_keeps _ _ k10)
    (sendBits_keeps _ _ _ _ (State.modTx_keeps _ _ k10))) (sendBits_keeps _ _ _ _ k10))

theorem sendPattern_keeps {r : State} (a0) {s : State} (h : Keeps r s) : Keeps r (sendPattern a0 s) := by
  unfold sendPattern
  extract_lets v4_0
  exact sendBits_keeps _ _ _ _ (State.modTx_keeps _ _ h)

theorem sendHead_keeps {r : State} (a0) {s : State} (h : Keeps r s) : Keeps r (sendHead a0 s) := by
  unfold sendHead
  split
  · exact h
  · exact sendBlock_keeps _ _ (State.modTx_keeps _ _ h)

theorem sendFill_keeps {r : State} (a0) {s : State} (h : Keeps r s) : Keeps r (sendFill a0 s) := by
  unfold sendFill
  exact sendBlock_keeps _ _ (State.modTx_keeps _ _ h)

theorem ageNak_keeps {r : State} (a0) {s : State} (h : Keeps r s) : Keeps r (ageNak a0 s) :=
  h.same rfl

theorem txBlock_keeps {r : State} (a0) {s : State} (h : Keeps r s) : Keeps r (txBlock a0 s) := by
  unfold txBlock
  extract_lets v4_0 v4_1 v4_2 v4_3 v4_4 v4_5 v4_6 v4_7 v4_8 v4_9 v4_10
  have k15 : Keeps r v4_1 := Keeps.ite (takeWord_keeps _ h) h
  clear_value v4_1
  have k16 : Keeps r v4_3 := Keeps.ite (skipWords_keeps _ _ h) h
  clear_value v4_3
  have k17 : Keeps r v4_5 := Keeps.ite (takeWord_keeps _ k16) k16
  clear_value v4_5
  have k18 : Keeps r v4_6 := ageNak_keeps _ h
  clear_value v4_6
  have k19 : Keeps r v4_10 := Keeps.ite (State.modAdit_keeps _ _ k18) k18
  clear_value v4_10
  refine Keeps.ite ?_ h
  refine Keeps.ite (sendPattern_keeps _ h) ?_
  split
  · exact h
  · exact Keeps.ite (sendBlock_keeps _ _ k15) (sendHead_keeps _ k15)
  · exact Keeps.ite (Keeps.ite (sendFill_keeps _ k16) (Keeps.ite (Keeps.ite (sendHead_keeps _ (underrun_keeps _ k17))
      (sendFill_keeps _ k17)) (sendHead_keeps _ k17))) (sendFill_keeps _ h)
  · exact Keeps.ite (sendFill_keeps _ k18) (Keeps.ite (Keeps.ite (sendFill_keeps _ k18) (sendBlock_keeps _ _
      (State.modTx_keeps _ _ k19))) (sendHead_keeps _ k18))

theorem queueFrame_keeps {r : State} (a0) (a1) (a2) {s : State} (h : Keeps r s) : Keeps r (queueFrame a0 a1 a2 s) :=
  h.same rfl

theorem aditSend_keeps {r : State} (a0) {s : State} (h : Keeps r s) : Keeps r (aditSend a0 s) := by
  unfold aditSend
  extract_lets v4_0 v4_1 v4_2 v4_3 v4_4 v4_5
  have k10 : Keeps r v4_5 := State.modPortal_keeps _ _ h
  clear_value v4_5
  refine Keeps.ite ?_ h
  split
  · extract_lets v16_0 v16_1
    exact Keeps.ite (State.modAdit_keeps _ _ h) (queueFrame_keeps _ _ _ (State.modAdit_keeps _ _ h))
  · exact Keeps.ite h (showAdit_keeps _ (queueFrame_keeps _ _ _ (State.modAdit_keeps _ _ k10)))

theorem queueControl_keeps {r : State} (a0) (a1) {s : State} (h : Keeps r s) : Keeps r (queueControl a0 a1 s) :=
  h.same rfl

theorem ackSend_keeps {r : State} (a0) {s : State} (h : Keeps r s) : Keeps r (ackSend a0 s) := by
  unfold ackSend
  extract_lets v4_0
  exact Keeps.ite (queueControl_keeps _ _ (State.modAdit_keeps _ _ h)) h

theorem sendNak_keeps {r : State} (a0) {s : State} (h : Keeps r s) : Keeps r (sendNak a0 s) := by
  unfold sendNak
  extract_lets v4_0
  exact Keeps.ite h (queueControl_keeps _ _ (State.modAdit_keeps _ _ h))

theorem takeMsg_keeps {r : State} {a0} {a1} {s : State} {x} {t : State} (e : takeMsg a0 a1 s = some (x, t)) (h : Keeps r s) :
    Keeps r t := by
  unfold takeMsg at e
  extract_lets l at e
  split at e
  · simp only [Option.some.injEq, Prod.mk.injEq] at e
    rw [← e.2]
    exact State.modAdit_keeps _ _ h
  · cases e

theorem aditFrame_keeps {r : State} (a0) {s : State} (h : Keeps r s) : Keeps r (aditFrame a0 s) := by
  unfold aditFrame
  refine Keeps.ite ?_ h
  split
  · rename_i _ _ _ _ m12_4 m12_5
    have k12 : Keeps r m12_4 :=
      takeMsg_keeps m12_5 (by assumption)
    extract_lets v13_0 v13_1 v13_2
    exact Keeps.ite (sendNak_keeps _ (countLink_keeps _ _ _ k12)) (Keeps.ite (Keeps.ite (sendNak_keeps _ (countLink_keeps
      _ _ _ k12)) (showAdit_keeps _ (State.modAdit_keeps _ _ k12))) (Keeps.ite (State.modAdit_keeps _ _ k12)
      (sendNak_keeps _ k12)))
  · exact h

theorem aditAck_keeps {r : State} (a0) {s : State} (h : Keeps r s) : Keeps r (aditAck a0 s) := by
  unfold aditAck
  refine Keeps.ite ?_ h
  split
  · rename_i _ _ _ m11_3 m11_4
    have k11 : Keeps r m11_3 :=
      takeMsg_keeps m11_4 (by assumption)
    exact showAdit_keeps _ (State.modAdit_keeps _ _ k11)
  · exact h

theorem replayFrom_keeps {r : State} (a0) (a1) {s : State} (h : Keeps r s) : Keeps r (replayFrom a0 a1 s) := by
  unfold replayFrom
  extract_lets v5_0 v5_1
  have k7 : Keeps r v5_1 := countLink_keeps _ _ _ (State.modAdit_keeps _ _ h)
  clear_value v5_1
  exact Keeps.ite h (Keeps.ite (retrain_keeps _ (flagAdit_keeps _ _ (flagLink_keeps _ _ (State.modAdit_keeps _ _ k7)))) k7)

theorem aditNak_keeps {r : State} (a0) {s : State} (h : Keeps r s) : Keeps r (aditNak a0 s) := by
  unfold aditNak
  refine Keeps.ite ?_ h
  split
  · rename_i _ _ _ m11_3 m11_4
    have k11 : Keeps r m11_3 :=
      takeMsg_keeps m11_4 (by assumption)
    extract_lets v12_0
    exact Keeps.ite (showAdit_keeps _ (replayFrom_keeps _ _ (State.modAdit_keeps _ _ k11))) k11
  · exact h

theorem aditTimeout_keeps {r : State} (a0) {s : State} (h : Keeps r s) : Keeps r (aditTimeout a0 s) := by
  unfold aditTimeout
  extract_lets v4_0
  exact Keeps.ite (replayFrom_keeps _ _ h) h

theorem trainReceive_keeps {r : State} (a0) {s : State} (h : Keeps r s) : Keeps r (trainReceive a0 s) := by
  unfold trainReceive
  extract_lets v4_0
  refine Keeps.ite ?_ h
  split
  · rename_i _ _ m11_2 m11_3
    have k11 : Keeps r m11_2 :=
      takeMsg_keeps m11_3 (by assumption)
    extract_lets v12_0
    have k13 : Keeps r v12_0 := State.modAdit_keeps _ _ k11
    clear_value v12_0
    exact Keeps.ite (Keeps.ite (Keeps.ite k11 (State.modAdit_keeps _ _ (State.setLaneState_keeps _ _ k11)))
      (State.modAdit_keeps _ _ (State.setLaneState_keeps _ _ k11))) (Keeps.ite k11 (Keeps.ite k13 (flagLink_keeps _ _
      (State.setLaneState_keeps _ _ k13))))
  · exact h

theorem linkReset_keeps {r : State} (a0) {s : State} (h : Keeps r s) : Keeps r (linkReset a0 s) := by
  unfold linkReset
  extract_lets v4_0 v4_1 v4_2
  have k7 : Keeps r v4_1 := State.setField_keeps _ _ _ _ _ h
  clear_value v4_1
  have k8 : Keeps r v4_2 := State.modAdit_keeps _ _ k7
  clear_value v4_2
  exact flagAdit_keeps _ _ (flagLink_keeps _ _ (showAdit_keeps _ (laneReset_keeps _ k8)))

theorem trainComplete_keeps {r : State} (a0) {s : State} (h : Keeps r s) : Keeps r (trainComplete a0 s) := by
  unfold trainComplete
  extract_lets v4_0 v4_1
  have k6 : Keeps r v4_1 := State.modAdit_keeps _ _ h
  clear_value v4_1
  exact Keeps.ite (Keeps.ite (linkUp_keeps _ (showAdit_keeps _ (replayFrom_keeps _ _ k6))) (linkUp_keeps _ (linkReset_keeps
    _ h))) h

theorem downReceive_keeps {r : State} (a0) {s : State} (h : Keeps r s) : Keeps r (downReceive a0 s) := by
  unfold downReceive
  refine Keeps.ite ?_ h
  split
  · rename_i _ _ m10_2 m10_3
    have k10 : Keeps r m10_2 :=
      takeMsg_keeps m10_3 (by assumption)
    extract_lets v11_0
    have k12 : Keeps r v11_0 := linkDown_keeps _ k10
    clear_value v11_0
    exact Keeps.ite (State.modAdit_keeps _ _ k12) (State.modAdit_keeps _ _ (State.setLaneState_keeps _ _ k12))
  · exact h

end Sys2Proof.Machine
end

