-- ==== Sys2Proof/Laws/KeepsFabric.lean ====
section
/-! SUPPORT. What the pins, the caverns, the clockless fabric and the Pockets keep: one lemma for each operation, cited in place of unfolding it. -/

namespace Sys2Proof.Machine

theorem captureKeeper_keeps {r : State} (a0) (a1) {s : State} (h : Keeps r s) : Keeps r (captureKeeper a0 a1 s) :=
  h.same rfl

theorem presentNow_keeps {r : State} (a0) (a1) {s : State} (h : Keeps r s) : Keeps r (presentNow a0 a1 s) := by
  unfold presentNow
  extract_lets v5_0
  exact Keeps.ite (State.modPin_keeps _ _ _ h) h

theorem releaseKeeper_keeps {r : State} (a0) (a1) {s : State} (h : Keeps r s) : Keeps r (releaseKeeper a0 a1 s) :=
  h.same rfl

theorem switchOwner_keeps {r : State} (a0) (a1) (a2) {s : State} (f2 : ∀ s, Keeps r s → Keeps r (a2 s)) (h : Keeps r s) :
    Keeps r (switchOwner a0 a1 a2 s) := by
  unfold switchOwner
  extract_lets v7_0 v7_1 v7_2
  have k10 : Keeps r v7_1 := f2 _ h
  clear_value v7_1
  have k11 : Keeps r v7_2 := f2 _ (captureKeeper_keeps _ _ h)
  clear_value v7_2
  exact Keeps.ite k10 (presentNow_keeps _ _ (State.modPin_keeps _ _ _ k11))

theorem offerSample_keeps {r : State} (a0) (a1) (a2) {s : State} (h : Keeps r s) : Keeps r (offerSample a0 a1 a2 s) :=
  h.same rfl

theorem offerQueued_keeps {r : State} (a0) (a1) {s : State} (h : Keeps r s) : Keeps r (offerQueued a0 a1 s) := by
  unfold offerQueued
  split
  · exact Keeps.ite (offerSample_keeps _ _ _ (State.modPin_keeps _ _ _ h)) h
  · exact h

theorem settleAck_keeps {r : State} (a0) (a1) {s : State} (h : Keeps r s) : Keeps r (settleAck a0 a1 s) := by
  unfold settleAck
  extract_lets v5_0
  exact Keeps.ite (State.modPin_keeps _ _ _ h) h

theorem pinsSettle_keeps {r : State} (a0) {s : State} (h : Keeps r s) : Keeps r (pinsSettle a0 s) := by
  unfold pinsSettle
  exact Keeps.foldl _ _ (fun s4 x4 h4 => (Keeps.ite (Keeps.foldl _ _ (fun s7 x7 h7 => (settleAck_keeps _ _
    (offerQueued_keeps _ _ h7))) h4) h4)) h

theorem isolatePins_keeps {r : State} (a0) {s : State} (h : Keeps r s) : Keeps r (isolatePins a0 s) := by
  unfold isolatePins
  exact Keeps.foldl _ _ (fun s4 x4 h4 => (Keeps.ite (Keeps.foldl _ _ (fun s7 x7 h7 => (Keeps.ite (Keeps.ite
    (captureKeeper_keeps _ _ h7) (State.modPin_keeps _ _ _ h7)) h7)) h4) h4)) h

theorem releasePins_keeps {r : State} (a0) {s : State} (h : Keeps r s) : Keeps r (releasePins a0 s) := by
  unfold releasePins
  exact Keeps.foldl _ _ (fun s4 x4 h4 => (Keeps.ite (Keeps.foldl _ _ (fun s7 x7 h7 => (Keeps.ite (presentNow_keeps _ _ h7)
    h7)) h4) h4)) h

theorem clearSamples_keeps {r : State} (a0) {s : State} (h : Keeps r s) : Keeps r (clearSamples a0 s) := by
  unfold clearSamples
  exact Keeps.foldl _ _ (fun s4 x4 h4 => (Keeps.ite (Keeps.foldl _ _ (fun s7 x7 h7 => (State.modPin_keeps _ _ _ h7)) h4)
    h4)) h

theorem sleepPads_keeps {r : State} {s : State} (h : Keeps r s) : Keeps r (sleepPads s) := by
  unfold sleepPads
  refine Keeps.foldl _ _ (fun s3 x3 h3 => ?_) h
  extract_lets v6_0 v6_1
  have k8 : Keeps r v6_1 := Keeps.foldl _ _ (fun s8 x8 h8 => (Keeps.ite (State.modPin_keeps _ _ _ h8) (captureKeeper_keeps _
    _ h8))) h3
  clear_value v6_1
  exact Keeps.ite (State.withPower_keeps _ k8) k8

theorem returnPads_keeps {r : State} (a0) {s : State} (h : Keeps r s) : Keeps r (returnPads a0 s) := by
  unfold returnPads
  exact Keeps.foldl _ _ (fun s4 x4 h4 => (presentNow_keeps _ _ h4)) h

theorem wakePads_keeps {r : State} {s : State} (h : Keeps r s) : Keeps r (wakePads s) := by
  unfold wakePads
  exact Keeps.foldl _ _ (fun s3 x3 h3 => (Keeps.ite h3 (returnPads_keeps _ h3))) h

theorem padRelease_keeps {r : State} (a0) {s : State} (h : Keeps r s) : Keeps r (padRelease a0 s) := by
  unfold padRelease
  exact Keeps.foldl _ _ (fun s4 x4 h4 => (Keeps.ite (returnPads_keeps _ (State.withPower_keeps _ h4)) h4)) h

theorem setDebug_keeps {r : State} (a0) (a1) {s : State} (h : Keeps r s) : Keeps r (setDebug a0 a1 s) := by
  unfold setDebug
  extract_lets v5_0
  have k6 : Keeps r v5_0 := State.modBank_keeps _ _ h
  clear_value v5_0
  refine Keeps.ite h ?_
  refine Keeps.foldl _ _ (fun s7 x7 h7 => ?_) k6
  extract_lets v10_0
  exact Keeps.ite h7 (presentNow_keeps _ _ (State.modPin_keeps _ _ _ h7))

theorem dropDebug_keeps {r : State} {s : State} (h : Keeps r s) : Keeps r (dropDebug s) := by
  unfold dropDebug
  exact Keeps.foldl _ _ (fun s3 x3 h3 => (setDebug_keeps _ _ h3)) h

theorem leaveMaintenance_keeps {r : State} {s : State} (h : Keeps r s) : Keeps r (leaveMaintenance s) := by
  unfold leaveMaintenance
  extract_lets v3_0 v3_1
  have k5 : Keeps r v3_0 := dropDebug_keeps h
  clear_value v3_0
  exact Keeps.ite (Keeps.ite (Keeps.same k5 rfl) k5) h

theorem wipeInterior_keeps {r : State} (a0) {s : State} (h : Keeps r s) : Keeps r (wipeInterior a0 s) :=
  h.same rfl

theorem lowerAcks_keeps {r : State} {s : State} (h : Keeps r s) : Keeps r (lowerAcks s) := by
  unfold lowerAcks
  exact Keeps.foldl _ _ (fun s3 x3 h3 => (Keeps.ite (State.setAttAck_keeps _ _ h3) h3)) h

theorem beginAnew_keeps {r : State} (a0) {s : State} (h : Keeps r s) : Keeps r (beginAnew a0 s) := by
  unfold beginAnew
  extract_lets v4_0 v4_1 v4_2 v4_3 v4_4
  have k9 : Keeps r v4_1 := Keeps.same h rfl
  clear_value v4_1
  exact Keeps.ite (Keeps.same k9 rfl) k9

theorem resetAttachments_keeps {r : State} (a0) {s : State} (h : Keeps r s) : Keeps r (resetAttachments a0 s) := by
  unfold resetAttachments
  extract_lets v4_0
  have k5 : Keeps r v4_0 := beginAnew_keeps _ (Keeps.foldl _ _ (fun s5 x5 h5 => (portalReset_keeps _ h5)) h)
  clear_value v4_0
  exact lowerAcks_keeps (State.withFabric_keeps _ k5)

theorem completeAttachments_keeps {r : State} (a0) {s : State} (h : Keeps r s) : Keeps r (completeAttachments a0 s) := by
  unfold completeAttachments
  exact pinsSettle_keeps _ (State.withFabric_keeps _ h)

theorem gateProgress_keeps {r : State} {s : State} (h : Keeps r s) : Keeps r (gateProgress s) :=
  h.same rfl

theorem initCells_keeps {r : State} (a0) {s : State} (h : Keeps r s) : Keeps r (initCells a0 s) :=
  h.same rfl

theorem pocketClear_keeps {r : State} (a0) {s : State} (h : Keeps r s) : Keeps r (pocketClear a0 s) := by
  exact Keeps.setRows h rfl fun w => tabFilter_wf 0 _ _ w

theorem restorePockets_keeps {r : State} (a0) {s : State} (h : Keeps r s) : Keeps r (restorePockets a0 s) := by
  unfold restorePockets
  extract_lets v4_0
  refine Keeps.foldl _ _ (fun s5 x5 h5 => ?_) (Keeps.same h rfl)
  extract_lets v8_0 v8_1 v8_2
  have k11 : Keeps r v8_1 := pocketClear_keeps _ h5
  clear_value v8_1
  split
  · exact Keeps.ite (Keeps.same k11 rfl) k11
  · exact k11

theorem restartChains_keeps {r : State} (a0) {s : State} (h : Keeps r s) : Keeps r (restartChains a0 s) := by
  unfold restartChains
  split
  · refine Keeps.foldl _ _ (fun s10 x10 h10 => ?_) h
    extract_lets v13_0 v13_1
    have k15 : Keeps r v13_1 := advanceEpoch_keeps _ h10
    clear_value v13_1
    exact Keeps.ite (Keeps.ite (retrain_keeps _ k15) (Keeps.ite (beginLock_keeps _ k15) k15)) h10
  · exact h

theorem restoreShadow_keeps {r : State} (a0) (a1) {s : State} (h : Keeps r s) : Keeps r (restoreShadow a0 a1 s) :=
  h.same rfl

theorem reinit_keeps {r : State} (a0) (a1) {s : State} (h : Keeps r s) : Keeps r (reinit a0 a1 s) := by
  unfold reinit
  extract_lets v5_0 v5_1 v5_2 v5_3 v5_4 v5_5
  have k11 : Keeps r v5_1 := by
    unfold v5_1
    split
    · exact restoreShadow_keeps _ _ h
    · exact h
  clear_value v5_1
  have k12 : Keeps r v5_4 := clearSamples_keeps _ (restartChains_keeps _ (initCells_keeps _ (resetAttachments_keeps _
    (wipeInterior_keeps _ h))))
  clear_value v5_4
  have k13 : Keeps r v5_5 := Keeps.ite k12 (restorePockets_keeps _ k12)
  clear_value v5_5
  exact Keeps.ite (State.modCav_keeps _ _ k11) (State.modCav_keeps _ _ k13)

theorem gaugeStop_keeps {r : State} (a0) {s : State} (h : Keeps r s) : Keeps r (gaugeStop a0 s) :=
  h.same rfl

theorem setCause_keeps {r : State} (a0) (a1) {s : State} (h : Keeps r s) : Keeps r (setCause a0 a1 s) := by
  unfold setCause
  extract_lets v5_0 v5_1 v5_2 v5_3 v5_4 v5_5 v5_6 v5_7 v5_8
  have k14 : Keeps r v5_3 := Keeps.ite h (isolatePins_keeps _ h)
  clear_value v5_3
  have k15 : Keeps r v5_6 := State.modCav_keeps _ _ k14
  clear_value v5_6
  have k16 : Keeps r v5_7 := Keeps.ite (wipeInterior_keeps _ k15) k15
  clear_value v5_7
  have k17 : Keeps r v5_8 := Keeps.ite (gaugeStop_keeps _ k16) k16
  clear_value v5_8
  exact Keeps.ite h (flagIso_keeps _ (Keeps.ite (completeAttachments_keeps _ k17) k17))

theorem clearCause_keeps {r : State} (a0) (a1) {s : State} (h : Keeps r s) : Keeps r (clearCause a0 a1 s) := by
  unfold clearCause
  extract_lets v5_0
  have k6 : Keeps r v5_0 := flagIso_keeps _ (State.modCav_keeps _ _ h)
  clear_value v5_0
  exact Keeps.ite (Keeps.ite k6 (releasePins_keeps _ (pinsSettle_keeps _ (gateProgress_keeps (reinit_keeps _ _ k6))))) h

theorem testReport_keeps {r : State} (a0) (a1) (a2) (a3) (a4) {s : State} (h : Keeps r s) : Keeps r (testReport a0 a1 a2 a3 a4
    s) := by
  unfold testReport
  extract_lets v8_0 v8_1 v8_2 v8_3 v8_4 v8_5
  have k14 : Keeps r v8_0 := State.setReg_keeps _ _ _ h
  clear_value v8_0
  have k15 : Keeps r v8_1 := State.setReg_keeps _ _ _ k14
  clear_value v8_1
  have k16 : Keeps r v8_2 := State.setReg_keeps _ _ _ k15
  clear_value v8_2
  have k17 : Keeps r v8_3 := State.setReg_keeps _ _ _ k16
  clear_value v8_3
  have k18 : Keeps r v8_4 := Keeps.ite (flagTest_keeps _ k17) k17
  clear_value v8_4
  have k19 : Keeps r v8_5 := Keeps.ite (flagTest_keeps _ k18) k18
  clear_value v8_5
  exact Keeps.ite (logFault_keeps _ _ k19) k19

theorem interruptCavern_keeps {r : State} (a0) {s : State} (h : Keeps r s) : Keeps r (interruptCavern a0 s) := by
  unfold interruptCavern
  extract_lets v4_0
  have k5 : Keeps r v4_0 := by
    unfold v4_0
    refine Keeps.foldl _ _ (fun s5 x5 h5 => ?_) h
    extract_lets v8_0
    exact Keeps.ite (interruptProducer_keeps _ _ h5) h5
  clear_value v4_0
  exact Keeps.ite (Keeps.foldl _ _ (fun s6 x6 h6 => (Keeps.ite (interruptClient_keeps _ _ h6) h6)) k5) h

theorem freezeCav_keeps {r : State} (a0) (a1) (a2) (a3) {s : State} (h : Keeps r s) : Keeps r (freezeCav a0 a1 a2 a3 s) := by
  unfold freezeCav
  extract_lets v7_0 v7_1 v7_2
  have k10 : Keeps r v7_1 := setCause_keeps _ _ h
  clear_value v7_1
  have k11 : Keeps r v7_2 := Keeps.ite (interruptCavern_keeps _ (State.modCav_keeps _ _ k10)) k10
  clear_value v7_2
  exact logFault_keeps _ _ (stopTests_keeps _ k11)

theorem State.setCell_keeps {r : State} {s : State} (a0) (a1) (a2) (a3) (a4) (h : Keeps r s) : Keeps r (State.setCell s a0 a1
    a2 a3 a4) :=
  h.same rfl

theorem cellEvaluate_keeps {r : State} (a0) {s : State} (h : Keeps r s) : Keeps r (cellEvaluate a0 s) := by
  unfold cellEvaluate
  extract_lets v4_0 v4_1 v4_2 v4_3 v4_4 v4_5 v4_6 v4_7 v4_8 v4_9
  exact Keeps.ite (Keeps.ite (freezeCav_keeps _ _ _ _ h) (Keeps.ite (State.setCell_keeps _ _ _ _ _ h) h)) h

theorem cellReturn_keeps {r : State} (a0) {s : State} (h : Keeps r s) : Keeps r (cellReturn a0 s) := by
  unfold cellReturn
  extract_lets v4_0 v4_1 v4_2 v4_3 v4_4 v4_5 v4_6 v4_7
  refine Keeps.ite ?_ h
  refine Keeps.ite (Keeps.ite (State.setCell_keeps _ _ _ _ _ h) h) ?_
  refine Keeps.ite ?_ h
  split
  · exact Keeps.ite (State.setCell_keeps _ _ _ _ _ h) h
  · exact Keeps.ite (State.setCell_keeps _ _ _ _ _ h) h
  · exact h

theorem moveLatch_keeps {r : State} (a0) (a1) (a2) {s : State} (h : Keeps r s) : Keeps r (moveLatch a0 a1 a2 s) := by
  unfold moveLatch
  extract_lets v6_0 v6_1 v6_2 v6_3 v6_4
  refine Keeps.ite ?_ h
  split
  · exact State.setCell_keeps _ _ _ _ _ h
  · exact h

theorem capturedIn_keeps {r : State} (a0) {s : State} (h : Keeps r s) : Keeps r (capturedIn a0 s) := by
  unfold capturedIn
  exact Keeps.ite h (wakeActivity_keeps h)

theorem latchCapture_keeps {r : State} (a0) (a1) {s : State} (h : Keeps r s) : Keeps r (latchCapture a0 a1 s) := by
  unfold latchCapture
  extract_lets v5_0 v5_1 v5_2
  have k8 : Keeps r v5_2 := moveLatch_keeps _ _ _ h
  clear_value v5_2
  exact Keeps.ite (freezeCav_keeps _ _ _ _ h) (Keeps.ite k8 (capturedIn_keeps _ k8))

theorem latchTokenTransfer_keeps {r : State} (a0) (a1) {s : State} (h : Keeps r s) : Keeps r (latchTokenTransfer a0 a1 s) :=
    by
  unfold latchTokenTransfer
  exact moveLatch_keeps _ _ _ h

theorem latchRelease_keeps {r : State} (a0) (a1) {s : State} (h : Keeps r s) : Keeps r (latchRelease a0 a1 s) := by
  unfold latchRelease
  extract_lets v5_0 v5_1 v5_2
  have k8 : Keeps r v5_2 := moveLatch_keeps _ _ _ h
  clear_value v5_2
  exact Keeps.ite k8 (capturedIn_keeps _ k8)

theorem latchInputReopen_keeps {r : State} (a0) (a1) {s : State} (h : Keeps r s) : Keeps r (latchInputReopen a0 a1 s) := by
  unfold latchInputReopen
  exact moveLatch_keeps _ _ _ h

theorem advanceAtts_keeps {r : State} (a0) (a1) (a2) {s : State} (h : Keeps r s) : Keeps r (advanceAtts a0 a1 a2 s) :=
  h.same rfl

theorem keepAkis_keeps {r : State} (a0) {s : State} (h : Keeps r s) : Keeps r (keepAkis a0 s) := by
  unfold keepAkis
  refine Keeps.foldl _ _ (fun s4 x4 h4 => ?_) h
  extract_lets v7_0 v7_1 v7_2 v7_3
  exact State.withFabric_keeps _ h4

theorem ackNodeSwitch_keeps {r : State} (a0) {s : State} (h : Keeps r s) : Keeps r (ackNodeSwitch a0 s) := by
  unfold ackNodeSwitch
  extract_lets v4_0 v4_1 v4_2 v4_3 v4_4 v4_5
  have k10 : Keeps r v4_0 := lowerAcks_keeps h
  clear_value v4_0
  have k11 : Keeps r v4_3 := by
    unfold v4_3
    split
    · exact keepAkis_keeps _ k10
    · exact k10
  clear_value v4_3
  have k12 : Keeps r v4_4 := State.withFabric_keeps _ k11
  clear_value v4_4
  have k13 : Keeps r v4_5 := by
    unfold v4_5
    split
    · extract_lets v19_0
      have k20 : Keeps r v19_0 := advanceAtts_keeps _ _ _ k12
      clear_value v19_0
      exact Keeps.ite k20 (pinsSettle_keeps _ k20)
    · exact k12
  clear_value v4_5
  exact Keeps.ite (Keeps.ite (gateProgress_keeps k11) (gateProgress_keeps k13)) h

theorem State.setChoice_keeps {r : State} {s : State} (a0) (a1) (h : Keeps r s) : Keeps r (State.setChoice s a0 a1) :=
  h.same rfl

theorem giveGrant_keeps {r : State} (a0) (a1) {s : State} (h : Keeps r s) : Keeps r (giveGrant a0 a1 s) :=
  h.same rfl

theorem choiceGrant_keeps {r : State} (a0) {s : State} (h : Keeps r s) : Keeps r (choiceGrant a0 s) := by
  unfold choiceGrant
  extract_lets v4_0 v4_1 v4_2
  refine Keeps.ite ?_ h
  refine Keeps.ite (freezeCav_keeps _ _ _ _ h) ?_
  split
  · split
    · exact giveGrant_keeps _ _ h
    · exact giveGrant_keeps _ _ (State.takeFree_keeps h)
  · exact giveGrant_keeps _ _ h
  · exact giveGrant_keeps _ _ h
  · exact h

theorem choiceGrantEnd_keeps {r : State} (a0) {s : State} (h : Keeps r s) : Keeps r (choiceGrantEnd a0 s) := by
  unfold choiceGrantEnd
  split
  · extract_lets v13_0
    exact Keeps.ite (State.setChoice_keeps _ _ h) h
  · exact h

theorem withholdBit_keeps {r : State} (a0) (a1) {s : State} (h : Keeps r s) : Keeps r (withholdBit a0 a1 s) := by
  unfold withholdBit
  split
  · extract_lets v8_0
    exact State.modCav_keeps _ _ h
  · split
    · extract_lets v14_0
      exact Keeps.ite (State.setAttIn_keeps _ _ h) h
    · exact h

theorem dualRailFault_keeps {r : State} (a0) {s : State} (h : Keeps r s) : Keeps r (dualRailFault a0 s) := by
  unfold dualRailFault
  split
  · extract_lets v7_0 v7_1 v7_2 v7_3
    have k11 : Keeps r v7_3 := State.setCell_keeps _ _ _ _ _ h
    clear_value v7_3
    exact Keeps.ite (freezeCav_keeps _ _ _ _ k11) h
  · exact Keeps.ite h (withholdBit_keeps _ _ (freezeCav_keeps _ _ _ _ h))

theorem State.setRow_keeps {r : State} {s : State} (a0) (a1) (a2) (h : Keeps r s) : Keeps r (State.setRow s a0 a1 a2) := by
  exact Keeps.setRows h rfl fun w => tabSet_wf 0 _ _ _ w

theorem pocketUncorr_keeps {r : State} (a0) {s : State} (h : Keeps r s) : Keeps r (pocketUncorr a0 s) := by
  unfold pocketUncorr
  exact freezeCav_keeps _ _ _ _ (countPocketUncorr_keeps h)

theorem blockPort_keeps {r : State} (a0) (a1) {s : State} (h : Keeps r s) : Keeps r (blockPort a0 a1 s) :=
  h.same rfl

theorem pocketPortAccess_keeps {r : State} (a0) (a1) {s : State} (h : Keeps r s) : Keeps r (pocketPortAccess a0 a1 s) := by
  unfold pocketPortAccess
  extract_lets v5_0 v5_1 v5_2 v5_3 v5_4 v5_5 v5_6 v5_7 v5_8 v5_9 v5_10 v5_11
  have k17 : Keeps r v5_10 := State.setAttAck_keeps _ _ h
  clear_value v5_10
  have k18 : Keeps r v5_11 := Keeps.ite (wakeActivity_keeps k17) k17
  clear_value v5_11
  split
  · extract_lets v28_0 v28_1
    split
    extract_lets v37_0 v37_1 v37_2
    have k40 : Keeps r v37_1 := State.setRow_keeps _ _ _ k18
    clear_value v37_1
    have k41 : Keeps r v37_2 := Keeps.ite (State.setRow_keeps _ _ _ k18) k18
    clear_value v37_2
    refine Keeps.ite (Keeps.ite (State.setAttIn_keeps _ _ k40) k40) ?_
    clear_value v37_0
    clear_value v28_1
    clear_value v28_0
    clear_value v5_9
    clear_value v5_8
    clear_value v5_7
    clear_value v5_6
    clear_value v5_5
    clear_value v5_4
    clear_value v5_3
    clear_value v5_2
    clear_value v5_1
    clear_value v5_0
    split
    · exact pocketUncorr_keeps _ (blockPort_keeps _ _ k18)
    · exact State.setAttIn_keeps _ _ k41
    · exact countPocketCorr_keeps (State.setAttIn_keeps _ _ k41)
  · exact h

theorem countRows_keeps {r : State} (a0) (a1) {s : State} (h : Keeps r s) : Keeps r (countRows a0 a1 s) := by
  unfold countRows
  extract_lets v5_0
  have k6 : Keeps r v5_0 := by
    unfold v5_0
    refine Keeps.foldl _ _ (fun s6 x6 h6 => ?_) h
    split
    · exact countPocketCorr_keeps h6
    · exact countPocketUncorr_keeps h6
    · exact h6
  clear_value v5_0
  exact Keeps.ite (freezeCav_keeps _ _ _ _ k6) k6

theorem pocketBlock_keeps {r : State} (a0) (a1) (a2) {s : State} (h : Keeps r s) : Keeps r (pocketBlock a0 a1 a2 s).2 := by
  unfold pocketBlock
  extract_lets v6_0 v6_1 v6_2 v6_3 v6_4
  have k11 : Keeps r v6_4 := countRows_keeps _ _ h
  clear_value v6_4
  refine Keeps.iteSnd (Keeps.mkSnd h) ?_
  refine Keeps.iteSnd (Keeps.mkSnd h) ?_
  refine Keeps.iteSnd (Keeps.mkSnd h) ?_
  split
  · exact Keeps.iteSnd (Keeps.mkSnd k11) (Keeps.mkSnd k11)
  · extract_lets v15_0 v15_1 v15_2
    have k18 : Keeps r v15_2 := by
      unfold v15_2
      refine Keeps.foldl _ _ (fun s18 x18 h18 => ?_) h
      extract_lets v21_0
      exact Keeps.ite h18 (State.setRow_keeps _ _ _ h18)
    clear_value v15_2
    exact Keeps.iteSnd (Keeps.mkSnd h) (Keeps.iteSnd (Keeps.mkSnd (countRows_keeps _ _ h)) (Keeps.mkSnd (countRows_keeps _
      _ k18)))

theorem pocketHaulBlockAccess_keeps {r : State} (a0) (a1) (a2) {s : State} (h : Keeps r s) : Keeps r (pocketHaulBlockAccess a0
    a1 a2 s) := by
  unfold pocketHaulBlockAccess
  extract_lets v6_0
  refine Keeps.ite ?_ h
  split
  rename_i _ _ m13_2 m13_3
  have k13 : Keeps r m13_2 := Keeps.ofPair m13_3 (pocketBlock_keeps _ _ _ h)
  extract_lets v14_0 v14_1
  split
  · assumption
  · assumption
  · assumption
  · assumption
  · assumption
  · assumption
  · exact k13

theorem pocketContent_keeps {r : State} (a0) (a1) (a2) {s : State} (h : Keeps r s) : Keeps r (pocketContent a0 a1 a2 s) := by
  unfold pocketContent
  extract_lets v6_0 v6_1 v6_2
  refine Keeps.foldl _ _ (fun s9 x9 h9 => ?_) h
  extract_lets v12_0 v12_1 v12_2 v12_3
  exact Keeps.ite h9 (State.setRow_keeps _ _ _ h9)

theorem pocketRestore_keeps {r : State} {s : State} (h : Keeps r s) : Keeps r (pocketRestore s) := by
  unfold pocketRestore
  split
  · exact h
  · rename_i pk rest e
    refine Keeps.ite h ?_
    generalize ht : ({ (pocketClear pk s) with pockets := { (pocketClear pk s).pockets with restoring := rest } } : State) = t
    have kt : Keeps r t := ht ▸ Keeps.same (pocketClear_keeps pk h) rfl
    have ku : ∀ ws : List (Nat × List Word), Keeps r (ws.foldl (fun s f => pocketContent pk f.1 f.2 s) t) := fun ws =>
      Keeps.foldl _ _ (fun s x hs => pocketContent_keeps _ _ _ hs) kt
    exact Keeps.ite (ku _) (freezeCav_keeps _ _ _ _ (ku _))

theorem gaugeWindowEnd_keeps {r : State} (a0) (a1) {s : State} (h : Keeps r s) : Keeps r (gaugeWindowEnd a0 a1 s) := by
  unfold gaugeWindowEnd
  extract_lets v5_0 v5_1 v5_2 v5_3 v5_4 v5_5 v5_6 v5_7 v5_8 v5_9
  have k15 : Keeps r v5_8 := State.setReg_keeps _ _ _ h
  clear_value v5_8
  have k16 : Keeps r v5_9 := State.modCav_keeps _ _ k15
  clear_value v5_9
  exact Keeps.ite (Keeps.ite (raiseEvent_keeps _ k16) k16) h

theorem gaugeMaxClear_keeps {r : State} {s : State} (h : Keeps r s) : Keeps r (gaugeMaxClear s) := by
  unfold gaugeMaxClear
  refine Keeps.foldl _ _ (fun s3 x3 h3 => ?_) h
  extract_lets v6_0
  exact State.setField_keeps _ _ _ _ _ h3

theorem gaugeOverWrite_keeps {r : State} (a0) (a1) {s : State} (h : Keeps r s) : Keeps r (gaugeOverWrite a0 a1 s) := by
  unfold gaugeOverWrite
  exact Keeps.ite (State.setField_keeps _ _ _ _ _ h) h

end Sys2Proof.Machine
end

