-- ==== Sys2Proof/Laws/KeepsHaul.lean ====
section
/-! SUPPORT. What the Haulers, the self-tests and the portals keep: one lemma for each operation, cited in place of unfolding it. -/

namespace Sys2Proof.Machine

theorem showHauler_keeps {r : State} (a0) {s : State} (h : Keeps r s) : Keeps r (showHauler a0 s) := by
  unfold showHauler
  extract_lets v4_0 v4_1
  have k6 : Keeps r v4_1 := State.setReg_keeps _ _ _ h
  clear_value v4_1
  exact Keeps.ite (State.setReg_keeps _ _ _ (State.setReg_keeps _ _ _ k6)) h

theorem State.modMaster_keeps {r : State} {s : State} (a0) (a1) (h : Keeps r s) : Keeps r (State.modMaster s a0 a1) := by
  unfold State.modMaster
  extract_lets v5_0
  exact showHauler_keeps _ (Keeps.same h rfl)

theorem readBlock_keeps {r : State} (a0) (a1) {s : State} (h : Keeps r s) : Keeps r (readBlock a0 a1 s).2 := by
  unfold readBlock
  extract_lets v5_0
  refine Keeps.iteSnd (Keeps.mkSnd h) ?_
  split
  · split
    · rename_i _ _ m18_2 m18_3
      have k18 : Keeps r m18_2 := Keeps.ofPair m18_3 (pocketBlock_keeps _ _ _ h)
      exact Keeps.mkSnd k18
    · rename_i _ m17_1 m17_2
      have k17 : Keeps r m17_1 := Keeps.ofPair m17_2 (pocketBlock_keeps _ _ _ h)
      exact Keeps.mkSnd k17
    · rename_i _ m17_1 m17_2
      have k17 : Keeps r m17_1 := Keeps.ofPair m17_2 (pocketBlock_keeps _ _ _ h)
      exact Keeps.mkSnd k17
    · rename_i _ m17_1 m17_2
      have k17 : Keeps r m17_1 := Keeps.ofPair m17_2 (pocketBlock_keeps _ _ _ h)
      exact Keeps.mkSnd k17
    · rename_i _ m17_1 m17_2
      have k17 : Keeps r m17_1 := Keeps.ofPair m17_2 (pocketBlock_keeps _ _ _ h)
      exact Keeps.mkSnd k17
    · rename_i _ _ m23_2 _ _ _ _ _ m23_8
      have k23 : Keeps r m23_2 := Keeps.ofPair m23_8 (pocketBlock_keeps _ _ _ h)
      exact Keeps.mkSnd k23
  · exact Keeps.mkSnd h
  · exact Keeps.iteSnd (Keeps.mkSnd h) (Keeps.mkSnd h)
  · exact Keeps.mkSnd h

theorem readSpan_keeps {r : State} (a0) (a1) (a2) {s : State} (h : Keeps r s) : Keeps r (readSpan a0 a1 a2 s).2 := by
  unfold readSpan
  extract_lets v6_0
  split
  · rename_i _ _ m13_2 m13_3
    have k13 : Keeps r m13_2 := Keeps.ofPair m13_3 (readBlock_keeps _ _ h)
    refine Keeps.iteSnd (Keeps.mkSnd k13) ?_
    split
    · rename_i _ _ m20_2 m20_3
      have k20 : Keeps r m20_2 := Keeps.ofPair m20_3 (readBlock_keeps _ _ k13)
      exact Keeps.mkSnd k20
    · exact readBlock_keeps _ _ k13
  · exact readBlock_keeps _ _ h

theorem writeBlock_keeps {r : State} (a0) (a1) (a2) (a3) {s : State} (h : Keeps r s) : Keeps r (writeBlock a0 a1 a2 a3 s).2 :=
    by
  unfold writeBlock
  extract_lets
  refine Keeps.iteSnd h ?_
  split
  · extract_lets
    split
    all_goals
      rename_i e
      exact Keeps.mkSnd (Keeps.ofPair e (pocketBlock_keeps _ _ _ h))
  · exact Keeps.mkSnd (Keeps.setRam h rfl fun w => memWrite_wf ramFill _ _ _ w)
  · exact Keeps.mkSnd h

theorem writeSpan_keeps {r : State} (a0) (a1) (a2) (a3) {s : State} (h : Keeps r s) : Keeps r (writeSpan a0 a1 a2 a3 s).2 :=
    by
  unfold writeSpan
  extract_lets v7_0
  refine Keeps.iteSnd (writeBlock_keeps _ _ _ _ h) ?_
  split
  · rename_i _ _ m14_2 m14_3
    have k14 : Keeps r m14_2 := Keeps.ofPair m14_3 (writeBlock_keeps _ _ _ _ h)
    exact writeBlock_keeps _ _ _ _ k14
  · exact writeBlock_keeps _ _ _ _ h

theorem masterFlag_keeps {r : State} (a0) (a1) {s : State} (h : Keeps r s) : Keeps r (masterFlag a0 a1 s) := by
  unfold masterFlag
  exact Keeps.ite (flagHauler_keeps _ _ h) h

theorem markPortalErr_keeps {r : State} (a0) {s : State} (h : Keeps r s) : Keeps r (markPortalErr a0 s) :=
  h.same rfl

theorem loseBytes_keeps {r : State} (a0) (a1) (a2) (a3) (a4) {s : State} (h : Keeps r s) : Keeps r (loseBytes a0 a1 a2 a3 a4
    s) := by
  induction a2 generalizing a3 s with
  | zero => exact h
  | succ n ih =>
    unfold loseBytes
    refine Keeps.ite ?_ h
    extract_lets k
    split
    rename_i f t e
    have kt : Keeps r t := Keeps.ofPair e (State.takeFree_keeps h)
    extract_lets u
    have ku : Keeps r u := Keeps.ite (writeBlock_keeps _ _ _ _ kt) h
    exact ih _ ku

theorem haltMaster_keeps {r : State} (a0) (a1) (a2) (a3) (a4) {s : State} (h : Keeps r s) : Keeps r (haltMaster a0 a1 a2 a3 a4
    s) := by
  unfold haltMaster
  extract_lets v8_0 v8_1 v8_2 v8_3
  have k12 : Keeps r v8_1 := State.modMaster_keeps _ _ h
  clear_value v8_1
  have k13 : Keeps r v8_2 := Keeps.ite (State.setReg_keeps _ _ _ k12) k12
  clear_value v8_2
  have k14 : Keeps r v8_3 := by
    unfold v8_3
    split
    · exact k13
    · exact interruptProducer_keeps _ _ k13
    · exact markPortalErr_keeps _ k13
    · exact k13
  clear_value v8_3
  exact masterFlag_keeps _ _ k14

theorem loseElems_keeps {r : State} (a0) (a1) {s : State} (h : Keeps r s) : Keeps r (loseElems a0 a1 s) := by
  unfold loseElems
  extract_lets v5_0
  exact Keeps.foldl _ _ (fun s6 x6 h6 => (loseBytes_keeps _ _ _ _ _ h6)) h

theorem endDescriptor_keeps {r : State} (a0) {s : State} (h : Keeps r s) : Keeps r (endDescriptor a0 s) := by
  unfold endDescriptor
  extract_lets v4_0 v4_1 v4_2 v4_3 v4_4
  have k9 : Keeps r v4_1 := Keeps.ite (State.setReg_keeps _ _ _ h) h
  clear_value v4_1
  have k10 : Keeps r v4_2 := Keeps.ite (masterFlag_keeps _ _ k9) k9
  clear_value v4_2
  exact Keeps.ite (State.modMaster_keeps _ _ k10) (Keeps.ite (State.modMaster_keeps _ _ k10) (Keeps.ite (masterFlag_keeps _
    _ (State.modMaster_keeps _ _ k10)) (State.modMaster_keeps _ _ k10)))

theorem haltLast_keeps {r : State} (a0) (a1) (a2) {s : State} (h : Keeps r s) : Keeps r (haltLast a0 a1 a2 s) := by
  unfold haltLast
  extract_lets v6_0 v6_1 v6_2
  have k9 : Keeps r v6_1 := haltMaster_keeps _ _ _ _ _ h
  clear_value v6_1
  have k10 : Keeps r v6_2 := Keeps.ite (State.setReg_keeps _ _ _ k9) k9
  clear_value v6_2
  exact masterFlag_keeps _ _ k10

theorem beginBurst_keeps {r : State} (a0) {s : State} (h : Keeps r s) : Keeps r (beginBurst a0 s) := by
  unfold beginBurst
  exact State.modMaster_keeps _ _ h

theorem requestAhead_keeps {r : State} (a0) {s : State} (h : Keeps r s) : Keeps r (requestAhead a0 s) := by
  unfold requestAhead
  extract_lets v4_0 v4_1
  exact Keeps.ite (State.modMaster_keeps _ _ h) h

theorem endBurst_keeps {r : State} (a0) {s : State} (h : Keeps r s) : Keeps r (endBurst a0 s) := by
  unfold endBurst
  extract_lets v4_0
  exact Keeps.ite (masterFlag_keeps _ _ (State.modMaster_keeps _ _ h)) (requestAhead_keeps _ (State.modMaster_keeps _ _ h))

theorem countRetry_keeps {r : State} (a0) {s : State} (h : Keeps r s) : Keeps r (countRetry a0 s) := by
  unfold countRetry
  exact Keeps.ite (countStat_keeps _ _ _ (fun s4 h4 => flagHauler_keeps _ _ h4) h) h

theorem failRead_keeps {r : State} (a0) (a1) {s : State} (h : Keeps r s) : Keeps r (failRead a0 a1 s) := by
  unfold failRead
  exact State.modMaster_keeps _ _ h

theorem haltRead_keeps {r : State} (a0) (a1) {s : State} (h : Keeps r s) : Keeps r (haltRead a0 a1 s) := by
  unfold haltRead
  extract_lets v5_0 v5_1
  have k7 : Keeps r v5_1 := haltMaster_keeps _ _ _ _ _ h
  clear_value v5_1
  exact Keeps.ite (haltLast_keeps _ _ _ h) (Keeps.ite (loseElems_keeps _ _ k7) (loseBytes_keeps _ _ _ _ _ k7))

theorem sourceSide_keeps {r : State} (a0) {s : State} (h : Keeps r s) : Keeps r (sourceSide a0 s).2 := by
  unfold sourceSide
  extract_lets v4_0 v4_1 v4_2 v4_3
  refine Keeps.iteSnd (Keeps.mkSnd h) ?_
  split
  · exact Keeps.mkSnd (Keeps.ite (failRead_keeps _ _ h) (State.modMaster_keeps _ _ h))
  · exact Keeps.iteSnd (Keeps.mkSnd (countRetry_keeps _ (State.modMaster_keeps _ _ h))) (Keeps.iteSnd (Keeps.mkSnd
      (Keeps.ite (failRead_keeps _ _ h) (State.modMaster_keeps _ _ h))) (Keeps.mkSnd h))
  · exact Keeps.iteSnd (Keeps.iteSnd (Keeps.mkSnd (failRead_keeps _ _ h)) (Keeps.mkSnd (State.modMaster_keeps _ _ h)))
      (Keeps.mkSnd h)

theorem writeBeat_keeps {r : State} (a0) (a1) (a2) (a3) (a4) (a5) {s : State} (h : Keeps r s) : Keeps r (writeBeat a0 a1 a2 a3
    a4 a5 s).2 := by
  unfold writeBeat
  extract_lets v9_0 v9_1 v9_2
  split
  · extract_lets v17_0 v17_1 v17_2
    refine Keeps.iteSnd (Keeps.mkSnd h) ?_
    refine Keeps.iteSnd (Keeps.mkSnd h) ?_
    split
    · rename_i _ m25_1 m25_2
      have k25 : Keeps r m25_1 := Keeps.ofPair m25_2 (portPush_keeps _ _ _ _ h)
      exact Keeps.mkSnd (Keeps.ite (State.withSump_keeps _ k25) k25)
    · rename_i _ m25_1 m25_2
      have k25 : Keeps r m25_1 := Keeps.ofPair m25_2 (portPush_keeps _ _ _ _ h)
      exact Keeps.mkSnd k25
    · rename_i _ m25_1 m25_2
      have k25 : Keeps r m25_1 := Keeps.ofPair m25_2 (portPush_keeps _ _ _ _ h)
      exact Keeps.mkSnd k25
    · rename_i _ _ m29_2 _ _ _ m29_6
      have k29 : Keeps r m29_2 := Keeps.ofPair m29_6 (portPush_keeps _ _ _ _ h)
      exact Keeps.mkSnd k29
  · extract_lets v17_0 v17_1
    exact Keeps.iteSnd (Keeps.mkSnd h) (Keeps.iteSnd (Keeps.mkSnd (State.modPortal_keeps _ _ h)) (Keeps.mkSnd h))
  · exact writeSpan_keeps _ _ _ _ h

theorem finishTransfer_keeps {r : State} (a0) {s : State} (h : Keeps r s) : Keeps r (finishTransfer a0 s) := by
  unfold finishTransfer
  extract_lets v4_0
  split
  · exact haltMaster_keeps _ _ _ _ _ h
  · exact endDescriptor_keeps _ (State.modMaster_keeps _ _ h)

theorem failWrite_keeps {r : State} (a0) (a1) (a2) (a3) (a4) {s : State} (h : Keeps r s) : Keeps r (failWrite a0 a1 a2 a3 a4
    s) := by
  unfold failWrite
  extract_lets v8_0 v8_1 v8_2 v8_3
  have k12 : Keeps r v8_2 := haltLast_keeps _ _ _ h
  clear_value v8_2
  have k13 : Keeps r v8_3 := haltMaster_keeps _ _ _ _ _ h
  clear_value v8_3
  exact Keeps.ite (Keeps.ite (loseElems_keeps _ _ k12) (loseBytes_keeps _ _ _ _ _ k12)) (Keeps.ite (loseElems_keeps _ _ k13)
    (loseBytes_keeps _ _ _ _ _ k13))

theorem wroteBeat_keeps {r : State} (a0) (a1) {s : State} (h : Keeps r s) : Keeps r (wroteBeat a0 a1 s) := by
  unfold wroteBeat
  extract_lets v5_0 v5_1
  have k7 : Keeps r v5_0 := State.modMaster_keeps _ _ h
  clear_value v5_0
  exact Keeps.ite (finishTransfer_keeps _ k7) (Keeps.ite (endBurst_keeps _ k7) k7)

theorem destSide_keeps {r : State} (a0) {s : State} (h : Keeps r s) : Keeps r (destSide a0 s).2 := by
  unfold destSide
  split
  extract_lets v10_0 v10_1 v10_2 v10_3 v10_4 v10_5
  have k16 : Keeps r v10_0 := State.modMaster_keeps _ _ h
  clear_value v10_0
  refine Keeps.iteSnd (Keeps.mkSnd (finishTransfer_keeps _ k16)) ?_
  refine Keeps.iteSnd ?_ ?_
  · split
    · rename_i _ _ m23_2 m23_3
      have k23 : Keeps r m23_2 := Keeps.ofPair m23_3 (writeBeat_keeps _ _ _ _ _ _ k16)
      exact Keeps.mkSnd (wroteBeat_keeps _ _ k23)
    · rename_i _ m22_1 m22_2
      have k22 : Keeps r m22_1 := Keeps.ofPair m22_2 (writeBeat_keeps _ _ _ _ _ _ k16)
      split
      · exact Keeps.mkSnd k22
      · exact Keeps.mkSnd (countRetry_keeps _ k22)
    · rename_i _ _ _ m24_3 m24_4
      have k24 : Keeps r m24_3 := Keeps.ofPair m24_4 (writeBeat_keeps _ _ _ _ _ _ k16)
      exact Keeps.mkSnd (failWrite_keeps _ _ _ _ _ k24)
  · split
    · exact Keeps.mkSnd (haltRead_keeps _ _ k16)
    · exact Keeps.iteSnd (Keeps.mkSnd (endBurst_keeps _ k16)) (Keeps.mkSnd k16)

theorem transferSlot_keeps {r : State} (a0) {s : State} (h : Keeps r s) : Keeps r (transferSlot a0 s) := by
  unfold transferSlot
  split
  rename_i _ _ m10_2 m10_3
  have k10 : Keeps r m10_2 := Keeps.ofPair m10_3 (sourceSide_keeps _ h)
  refine Keeps.ite k10 ?_
  split
  rename_i _ _ m17_2 m17_3
  have k17 : Keeps r m17_2 := Keeps.ofPair m17_3 (destSide_keeps _ k10)
  exact Keeps.ite k17 (countRetry_keeps _ k17)

theorem useSlot_keeps {r : State} {s : State} (h : Keeps r s) : Keeps r (useSlot s) :=
  h.same rfl

theorem masterBeat_keeps {r : State} (a0) {s : State} (h : Keeps r s) : Keeps r (masterBeat a0 s) := by
  unfold masterBeat
  extract_lets v4_0 v4_1
  have k6 : Keeps r v4_1 := useSlot_keeps h
  clear_value v4_1
  exact Keeps.ite (Keeps.ite (Keeps.ite k6 (Keeps.ite (requestAhead_keeps _ (State.modMaster_keeps _ _ k6)) (Keeps.ite
    (transferSlot_keeps _ (beginBurst_keeps _ k6)) (State.modMaster_keeps _ _ k6)))) (transferSlot_keeps _ k6)) h

theorem readDesc_keeps {r : State} (a0) (a1) {s : State} (h : Keeps r s) : Keeps r (readDesc a0 a1 s).2 := by
  unfold readDesc
  split
  · exact readSpan_keeps _ _ _ h
  · exact Keeps.iteSnd (Keeps.mkSnd h) (readSpan_keeps _ _ _ h)
  · exact Keeps.mkSnd h

theorem descriptorFetch_keeps {r : State} (a0) {s : State} (h : Keeps r s) : Keeps r (descriptorFetch a0 s) := by
  unfold descriptorFetch
  extract_lets v4_0 v4_1
  have k6 : Keeps r v4_1 := useSlot_keeps h
  clear_value v4_1
  refine Keeps.ite ?_ h
  split
  · exact countRetry_keeps _ (Keeps.ite (State.modMaster_keeps _ _ k6) k6)
  · extract_lets v13_0 v13_1 v13_2
    exact Keeps.ite (haltMaster_keeps _ _ _ _ _ (State.modMaster_keeps _ _ k6)) (Keeps.ite (requestAhead_keeps _
      (State.modMaster_keeps _ _ k6)) (haltMaster_keeps _ _ _ _ _ (State.modMaster_keeps _ _ k6)))

theorem burstRequest_keeps {r : State} (a0) {s : State} (h : Keeps r s) : Keeps r (burstRequest a0 s) := by
  unfold burstRequest
  extract_lets v4_0 v4_1
  refine Keeps.ite ?_ h
  split
  · exact h
  · exact State.modMaster_keeps _ _ (Keeps.same h rfl)

theorem stageOne_keeps {r : State} (a0) (a1) {s : State} (h : Keeps r s) : Keeps r (stageOne a0 a1 s).2 := by
  unfold stageOne
  extract_lets v5_0 v5_1 v5_2
  split
  · split
    rename_i _ _ m18_2 m18_3
    have k18 : Keeps r m18_2 := Keeps.ofPair m18_3 (readDesc_keeps _ _ h)
    exact Keeps.mkSnd k18
  · split
    rename_i _ _ m19_2 m19_3
    have k19 : Keeps r m19_2 := Keeps.ofPair m19_3 (readSpan_keeps _ _ _ h)
    exact Keeps.mkSnd k19
  · split
    rename_i _ _ m20_2 m20_3
    have k20 : Keeps r m20_2 := Keeps.ofPair m20_3 (readSpan_keeps _ _ _ h)
    exact Keeps.mkSnd k20
  · split
    · extract_lets v17_0 v17_1 v17_2 v17_3 v17_4 v17_5 v17_6
      exact Keeps.iteSnd (Keeps.mkSnd h) (Keeps.iteSnd (Keeps.mkSnd (State.modPortal_keeps _ _ h)) (Keeps.mkSnd h))
    · split
      rename_i _ _ m22_2 m22_3
      have k22 : Keeps r m22_2 := Keeps.ofPair m22_3 (readBlock_keeps _ _ h)
      exact Keeps.mkSnd k22

theorem stageBeat_keeps {r : State} (a0) {s : State} (h : Keeps r s) : Keeps r (stageBeat a0 s) := by
  unfold stageBeat
  extract_lets v4_0
  refine Keeps.ite ?_ h
  split
  · exact h
  · split
    · exact h
    · refine Keeps.ite ?_ h
      split
      · rename_i _ m20_1 m20_2
        have k20 : Keeps r m20_1 := Keeps.ofPair m20_2 (stageOne_keeps _ _ h)
        exact k20
      · rename_i _ _ m21_2 m21_3
        have k21 : Keeps r m21_2 := Keeps.ofPair m21_3 (stageOne_keeps _ _ h)
        extract_lets v22_0 v22_1
        exact State.modMaster_keeps _ _ k21

theorem haulerStart_keeps {r : State} (a0) {s : State} (h : Keeps r s) : Keeps r (haulerStart a0 s) := by
  unfold haulerStart
  extract_lets v4_0
  exact Keeps.ite (State.modMaster_keeps _ _ h) (flagHauler_keeps _ _ h)

theorem haulerStop_keeps {r : State} (a0) {s : State} (h : Keeps r s) : Keeps r (haulerStop a0 s) := by
  unfold haulerStop
  extract_lets v4_0
  exact Keeps.ite (Keeps.ite (Keeps.ite (State.modMaster_keeps _ _ h) (flagHauler_keeps _ _ (State.modMaster_keeps _ _ h)))
    (State.modMaster_keeps _ _ h)) (flagHauler_keeps _ _ h)

theorem haulerResume_keeps {r : State} (a0) {s : State} (h : Keeps r s) : Keeps r (haulerResume a0 s) := by
  unfold haulerResume
  extract_lets v4_0 v4_1
  exact Keeps.ite (requestAhead_keeps _ (State.modMaster_keeps _ _ h)) (flagHauler_keeps _ _ h)

theorem haulerPause_keeps {r : State} (a0) {s : State} (h : Keeps r s) : Keeps r (haulerPause a0 s) := by
  unfold haulerPause
  extract_lets v4_0
  exact Keeps.ite (flagHauler_keeps _ _ (State.modMaster_keeps _ _ h)) h

theorem pauseHaulers_keeps {r : State} (a0) {s : State} (h : Keeps r s) : Keeps r (pauseHaulers a0 s) := by
  unfold pauseHaulers
  refine Keeps.foldl _ _ (fun s4 x4 h4 => ?_) h
  extract_lets v7_0
  exact Keeps.ite (State.modMaster_keeps _ _ h4) h4

theorem State.withTest_keeps {r : State} {s : State} (a0) (h : Keeps r s) : Keeps r (State.withTest s a0) :=
  h.same rfl

theorem laneTest_keeps {r : State} (a0) {s : State} (h : Keeps r s) : Keeps r (laneTest a0 s) := by
  unfold laneTest
  extract_lets v4_0 v4_1 v4_2
  have k7 : Keeps r v4_1 := State.setField_keeps _ _ _ _ _ h
  clear_value v4_1
  have k8 : Keeps r v4_2 := startPattern_keeps _ _ (State.setField_keeps _ _ _ _ _ (State.setField_keeps _ _ _ _ _ k7))
  clear_value v4_2
  exact lockStart_keeps _ (unalign_keeps _ (State.setLaneState_keeps _ _ k8))

theorem laneTestEnd_keeps {r : State} (a0) (a1) {s : State} (h : Keeps r s) : Keeps r (laneTestEnd a0 a1 s) := by
  unfold laneTestEnd
  extract_lets v5_0 v5_1
  have k7 : Keeps r v5_0 := by
    unfold v5_0
    refine Keeps.foldl _ _ (fun s7 x7 h7 => ?_) h
    split
    · exact State.setReg_keeps _ _ _ h7
    · exact h7
  clear_value v5_0
  have k8 : Keeps r v5_1 := Keeps.ite k7 (interruptLaneClient_keeps _ (laneReset_keeps _ k7))
  clear_value v5_1
  exact bringUp_keeps _ (startPattern_keeps _ _ k8)

theorem testStart_keeps {r : State} (a0) {s : State} (h : Keeps r s) : Keeps r (testStart a0 s) := by
  unfold testStart
  extract_lets v4_0 v4_1 v4_2 v4_3
  have k8 : Keeps r v4_1 := State.withTest_keeps _ h
  clear_value v4_1
  have k9 : Keeps r v4_2 := enterMode_keeps _ (leaveMaintenance_keeps k8)
  clear_value v4_2
  have k10 : Keeps r v4_3 := Keeps.foldl _ _ (fun s10 x10 h10 => (setCause_keeps _ _ h10)) k9
  clear_value v4_3
  exact Keeps.ite (setCause_keeps _ _ k8) (Keeps.ite (Keeps.foldl _ _ (fun s11 x11 h11 => (laneTest_keeps _ h11)) k8)
    (Keeps.foldl _ _ (fun s11 x11 h11 => (Keeps.ite (State.setPma_keeps _ _ _ h11) h11)) k10))

theorem testFill_keeps {r : State} (a0) {s : State} (h : Keeps r s) : Keeps r (testFill a0 s) := by
  induction a0 generalizing s with
  | zero => exact h
  | succ n ih =>
    unfold testFill
    split
    · exact h
    · exact Keeps.ite (ih (testStart_keeps _ (State.withTest_keeps _ h))) h

theorem testRun_keeps {r : State} (a0) (a1) (a2) (a3) (a4) {s : State} (h : Keeps r s) : Keeps r (testRun a0 a1 a2 a3 a4 s) :=
    by
  unfold testRun
  exact testFill_keeps _ (State.withTest_keeps _ h)

theorem laneOutcomes_keeps {r : State} (a0) (a1) {s : State} (h : Keeps r s) : Keeps r (laneOutcomes a0 a1 s) := by
  unfold laneOutcomes
  extract_lets v5_0 v5_1 v5_2 v5_3 v5_4
  have k10 : Keeps r v5_3 := by
    unfold v5_3
    refine Keeps.ite ?_ h
    unfold v5_1
    exact State.takeFree_keeps h
  clear_value v5_3
  exact State.setReg_keeps _ _ _ k10

theorem testFinish_keeps {r : State} (a0) (a1) (a2) (a3) {s : State} (h : Keeps r s) : Keeps r (testFinish a0 a1 a2 a3 s) :=
    by
  unfold testFinish
  extract_lets v7_0 v7_1 v7_2 v7_3
  have k11 : Keeps r v7_0 := State.withTest_keeps _ h
  clear_value v7_0
  have k12 : Keeps r v7_1 := by
    unfold v7_1
    split
    · exact State.setField_keeps _ _ _ _ _ k11
    · exact State.setField_keeps _ _ _ _ _ k11
    · exact laneOutcomes_keeps _ _ k11
    · exact State.setReg_keeps _ _ _ k11
    · exact k11
  clear_value v7_1
  have k13 : Keeps r v7_2 := testReport_keeps _ _ _ _ _ k12
  clear_value v7_2
  have k14 : Keeps r v7_3 := flagTest_keeps _ k13
  clear_value v7_3
  exact Keeps.ite (clearCause_keeps _ _ k14) (Keeps.ite (Keeps.foldl _ _ (fun s15 x15 h15 => (laneTestEnd_keeps _ _ h15))
    k14) (Keeps.foldl _ _ (fun s15 x15 h15 => (clearCause_keeps _ _ h15)) k14))

theorem cavernFinish_keeps {r : State} (a0) (a1) (a2) {s : State} (h : Keeps r s) : Keeps r (cavernFinish a0 a1 a2 s) := by
  unfold cavernFinish
  extract_lets v6_0 v6_1
  have k8 : Keeps r v6_0 := State.setReg_keeps _ _ _ h
  clear_value v6_0
  exact testFinish_keeps _ _ _ _ k8

theorem pocketTested_keeps {r : State} (a0) (a1) {s : State} (h : Keeps r s) : Keeps r (pocketTested a0 a1 s) := by
  unfold pocketTested
  refine Keeps.ite h ?_
  split
  · split
    rename_i _ _ m15_2 m15_3
    have k15 : Keeps r m15_2 := Keeps.ofPair m15_3 (State.takeFree_keeps h)
    exact Keeps.ite (pocketUncorr_keeps _ k15) k15
  · exact Keeps.foldl _ _ (fun s9 x9 h9 => (pocketUncorr_keeps _ h9)) h

theorem testEnds_keeps {r : State} (a0) (a1) (a2) (a3) {s : State} (h : Keeps r s) : Keeps r (testEnds a0 a1 a2 a3 s) := by
  unfold testEnds
  split
  · exact h
  · extract_lets v12_0 v12_1
    refine Keeps.ite ?_ (Keeps.ite (testFinish_keeps _ _ _ _ (pocketTested_keeps _ _ h)) (testFinish_keeps _ _ _ _ h))
    split
    · exact Keeps.ite (Keeps.ite (cavernFinish_keeps _ _ _ h) (State.withTest_keeps _ h)) h
    · exact Keeps.ite (cavernFinish_keeps _ _ _ (pocketTested_keeps _ _ h)) h

theorem testClear_keeps {r : State} {s : State} (h : Keeps r s) : Keeps r (testClear s) :=
  h.same rfl

theorem testAnswer_keeps {r : State} {s : State} (h : Keeps r s) : Keeps r (testAnswer s) := by
  unfold testAnswer
  split
  · extract_lets v8_0 v8_1 v8_2
    exact answer_keeps _ _ _ _ h
  · exact h

theorem testAbandon_keeps {r : State} {s : State} (h : Keeps r s) : Keeps r (testAbandon s) := by
  unfold testAbandon
  extract_lets v3_0 v3_1
  have k5 : ∀ s y1, Keeps r s → Keeps r (v3_0 s y1) := by
    intro s6 y16 h6
    unfold v3_0
    extract_lets v8_0 v8_1 v8_2
    refine Keeps.ite ?_ ?_
    · split
      · refine cavernFinish_keeps _ _ _ ?_
        unfold v8_0
        exact State.takeFree_keeps h6
      · refine cavernFinish_keeps _ _ _ ?_
        unfold v8_0
        exact State.takeFree_keeps h6
    · refine testFinish_keeps _ _ _ _ ?_
      unfold v8_0
      exact State.takeFree_keeps h6
  clear_value v3_0
  have k6 : Keeps r v3_1 := Keeps.foldl _ _ (fun s6 x6 h6 => (k5 _ _ h6)) (State.withTest_keeps _ h)
  clear_value v3_1
  exact testClear_keeps (Keeps.ite (testAnswer_keeps k6) k6)

theorem gatherToken_keeps {r : State} (a0) (a1) (a2) {s : State} (h : Keeps r s) : Keeps r (gatherToken a0 a1 a2 s) :=
  h.same rfl

theorem noteForeman_keeps {r : State} (a0) (a1) {s : State} (h : Keeps r s) : Keeps r (noteForeman a0 a1 s) := by
  unfold noteForeman
  exact Keeps.ite (State.withSump_keeps _ h) h

theorem burstOver_keeps {r : State} (a0) {s : State} (h : Keeps r s) : Keeps r (burstOver a0 s) :=
  h.same rfl

theorem countBurst_keeps {r : State} (a0) (a1) (a2) (a3) {s : State} (h : Keeps r s) : Keeps r (countBurst a0 a1 a2 a3 s) :=
    by
  unfold countBurst
  extract_lets v7_0
  have k8 : Keeps r v7_0 := Keeps.ite (State.modPortal_keeps _ _ h) h
  clear_value v7_0
  exact Keeps.ite (burstOver_keeps _ k8) k8

theorem pushedBurst_keeps {r : State} (a0) (a1) (a2) (a3) (a4) {s : State} (h : Keeps r s) : Keeps r (pushedBurst a0 a1 a2 a3
    a4 s) := by
  unfold pushedBurst
  extract_lets v8_0
  exact countBurst_keeps _ _ _ _ h

theorem sumpPush_keeps {r : State} (a0) (a1) (a2) {s : State} (h : Keeps r s) : Keeps r (sumpPush a0 a1 a2 s) := by
  unfold sumpPush
  refine Keeps.ite ?_ h
  split
  · refine Keeps.ite ?_ h
    split
    rename_i _ _ m15_2 m15_3
    have k15 : Keeps r m15_2 := Keeps.ofPair m15_3 (portPush_keeps _ _ _ _ h)
    refine Keeps.ite ?_ k15
    refine noteForeman_keeps _ _ ?_
    split
    · exact pushedBurst_keeps _ _ _ _ _ k15
    · exact k15
  · extract_lets v7_0 v7_1 v7_2 v7_3
    refine Keeps.ite ?_ ?_
    · split
      · split
        rename_i _ _ m22_2 m22_3
        have k22 : Keeps r m22_2 := Keeps.ofPair m22_3 (portPush_keeps _ _ _ _ h)
        extract_lets v23_0
        have k24 : Keeps r v23_0 := State.withSump_keeps _ k22
        clear_value v23_0
        refine Keeps.ite ?_ k22
        refine Keeps.ite ?_ k24
        split
        · exact dropResv_keeps _ k24
        · exact k24
      · exact h
    · refine Keeps.ite ?_ h
      refine Keeps.ite ?_ h
      split
      · split
        rename_i _ _ m24_2 m24_3
        have k24 : Keeps r m24_2 := Keeps.ofPair m24_3 (portPush_keeps _ _ _ _ h)
        exact Keeps.ite (pushedBurst_keeps _ _ _ _ _ (State.modPortal_keeps _ _ k24)) k24
      · exact burstOver_keeps _ h

theorem drainLane_keeps {r : State} (a0) (a1) (a2) {s : State} (h : Keeps r s) : Keeps r (drainLane a0 a1 a2 s) := by
  unfold drainLane
  extract_lets v6_0 v6_1 v6_2 v6_3 v6_4
  have k11 : Keeps r v6_3 := usePort_keeps _ _ _ h
  clear_value v6_3
  refine Keeps.ite ?_ h
  split
  · exact Keeps.same k11 rfl
  · exact portPop_keeps _ _ _ _ _ h

theorem laneGets_keeps {r : State} (a0) (a1) {s : State} (h : Keeps r s) : Keeps r (laneGets a0 a1 s) := by
  unfold laneGets
  extract_lets v5_0 v5_1 v5_2 v5_3 v5_4 v5_5
  have k11 : Keeps r v5_4 := State.modTx_keeps _ _ h
  clear_value v5_4
  exact Keeps.ite (Keeps.same k11 rfl) k11

theorem portalGets_keeps {r : State} (a0) (a1) {s : State} (h : Keeps r s) : Keeps r (portalGets a0 a1 s) := by
  unfold portalGets
  extract_lets v5_0 v5_1
  have k7 : Keeps r v5_1 := State.modPortal_keeps _ _ h
  clear_value v5_1
  exact Keeps.ite (burstOver_keeps _ k7) (Keeps.ite (countBurst_keeps _ _ _ _ k7) k7)

theorem giveRead_keeps {r : State} (a0) {s : State} (h : Keeps r s) : Keeps r (giveRead a0 s) := by
  unfold giveRead
  extract_lets v4_0
  have k5 : Keeps r v4_0 := State.withSump_keeps _ h
  clear_value v4_0
  split
  · exact laneGets_keeps _ _ k5
  · exact portalGets_keeps _ _ k5
  · extract_lets v12_0
    exact Keeps.ite (State.modMaster_keeps _ _ k5) k5

theorem serveReads_keeps {r : State} {s : State} (h : Keeps r s) : Keeps r (serveReads s) := by
  unfold serveReads
  extract_lets v3_0 v3_1
  have k5 : Keeps r v3_1 := State.withSump_keeps _ h
  clear_value v3_1
  exact Keeps.foldl _ _ (fun s6 x6 h6 => (giveRead_keeps _ h6)) k5

theorem popPortal_keeps {r : State} (a0) (a1) (a2) (a3) {s : State} (h : Keeps r s) : Keeps r (popPortal a0 a1 a2 a3 s) := by
  unfold popPortal
  extract_lets v7_0 v7_1 v7_2
  have k10 : Keeps r v7_2 := State.modPortal_keeps _ _ (usePort_keeps _ _ _ h)
  clear_value v7_2
  exact Keeps.ite (Keeps.ite (countBurst_keeps _ _ _ _ k10) (Keeps.ite (portPop_keeps _ _ _ _ _ (State.modPortal_keeps _ _
    h)) (burstOver_keeps _ h))) h

theorem sumpPop_keeps {r : State} (a0) (a1) (a2) (a3) {s : State} (h : Keeps r s) : Keeps r (sumpPop a0 a1 a2 a3 s) := by
  unfold sumpPop
  extract_lets v7_0 v7_1 v7_2 v7_3
  exact Keeps.ite (Keeps.ite h (Keeps.ite (Keeps.ite (Keeps.ite (Keeps.ite (drainLane_keeps _ _ _ h) h) (popPortal_keeps _ _
    _ _ h)) h) (Keeps.ite (portPop_keeps _ _ _ _ _ (State.modMaster_keeps _ _ h)) h))) h

theorem laneWord_keeps {r : State} {a0} {s : State} {x} {t : State} (e : laneWord a0 s = some (x, t)) (h : Keeps r s) : Keeps
    r t := by
  have hr : ∀ l, Keeps r (s.modRx a0 fun v => { v with buf := l }) := fun l => State.modRx_keeps _ _ h
  unfold laneWord at e
  split at e
  · split at e
    · simp only [Option.some.injEq, Prod.mk.injEq] at e
      rw [← e.2]
      exact showAdit_keeps _ (State.modAdit_keeps _ _ h)
    · cases e
  · extract_lets raw two tags take at e
    split at e
    · cases e
    all_goals
      split at e
      · simp only [Option.some.injEq, Prod.mk.injEq] at e
        rw [← e.2]
        exact hr _
      · first
        | cases e; done
        | simp only [Option.some.injEq, Prod.mk.injEq] at e
          rw [← e.2]
          exact hr _

theorem portalEnqueue_keeps {r : State} (a0) {s : State} (h : Keeps r s) : Keeps r (portalEnqueue a0 s) := by
  unfold portalEnqueue
  extract_lets v4_0 v4_1
  refine Keeps.ite ?_ h
  refine Keeps.ite ?_ ?_
  · refine Keeps.ite h ?_
    split
    · exact gateProgress_keeps (State.modPortal_keeps _ _ (State.setAttAck_keeps _ _ h))
    · exact h
  · refine Keeps.ite ?_ ?_
    · split
      · rename_i _ _ m12_2 m12_3
        have k12 : Keeps r m12_2 :=
          laneWord_keeps m12_3 (by assumption)
        exact State.modPortal_keeps _ _ k12
      · exact h
    · split
      · exact State.modPortal_keeps _ _ h
      · exact h

theorem portalDeliver_keeps {r : State} (a0) {s : State} (h : Keeps r s) : Keeps r (portalDeliver a0 s) := by
  unfold portalDeliver
  extract_lets v4_0 v4_1 v4_2 v4_3 v4_4
  refine Keeps.ite ?_ h
  refine Keeps.ite ?_ ?_
  · split
    · extract_lets v16_0
      exact Keeps.ite (State.setAttIn_keeps _ _ (State.modPortal_keeps _ _ h)) h
    · exact h
  · refine Keeps.ite ?_ (Keeps.ite (Keeps.ite (State.modPortal_keeps _ _ h) h) h)
    split
    · exact Keeps.ite (gatherToken_keeps _ _ _ (State.modPortal_keeps _ _ h)) h
    · exact h

theorem crossingTransfer_keeps {r : State} (a0) {s : State} (h : Keeps r s) : Keeps r (crossingTransfer a0 s) := by
  unfold crossingTransfer
  refine Keeps.ite ?_ h
  split
  · extract_lets v6_0 v6_1
    split
    · extract_lets v14_0
      have k15 : Keeps r v14_0 := Keeps.same h rfl
      clear_value v14_0
      exact Keeps.ite (drainToCrusher_keeps _ _ (State.withCrushers_keeps _ k15)) h
    · exact h
  · extract_lets v6_0 v6_1
    split
    · exact Keeps.ite (feedCrusher_keeps _ _ (admitStop_keeps _ (Keeps.same h rfl))) h
    · exact h
  · extract_lets v6_0 v6_1
    split
    · exact Keeps.ite (feedSump_keeps _ _ (Keeps.same h rfl)) h
    · exact h

theorem State.setMulti_keeps {r : State} {s : State} (a0) (a1) (h : Keeps r s) : Keeps r (State.setMulti s a0 a1) :=
  h.same rfl

theorem multiLoad_keeps {r : State} (a0) (a1) {s : State} (h : Keeps r s) : Keeps r (multiLoad a0 a1 s) := by
  unfold multiLoad
  extract_lets v5_0
  exact Keeps.ite (Keeps.ite (State.setMulti_keeps _ _ h) (State.setMulti_keeps _ _ h)) h

theorem multiAccept_keeps {r : State} (a0) (a1) (a2) {s : State} (h : Keeps r s) : Keeps r (multiAccept a0 a1 a2 s) := by
  unfold multiAccept
  extract_lets v6_0
  exact Keeps.ite (Keeps.ite (State.setMulti_keeps _ _ h) (Keeps.ite (logFault_keeps _ _ (raiseEvent_keeps _
    (countXcFail_keeps (State.setMulti_keeps _ _ h)))) (State.setMulti_keeps _ _ h))) h

theorem eventArrival_keeps {r : State} (a0) (a1) {s : State} (h : Keeps r s) : Keeps r (eventArrival a0 a1 s) := by
  unfold eventArrival
  refine Keeps.ite ?_ h
  generalize ht : ({ s with crossings := { s.crossings with offered := s.crossings.offered.erase (a0, a1) } } : State) = t
  have kt : Keeps r t := ht ▸ h.same rfl
  exact Keeps.ite (kt.same rfl) (countXcLost_keeps (flagXc_keeps _ kt))

theorem eventDelivery_keeps {r : State} (a0) (a1) {s : State} (h : Keeps r s) : Keeps r (eventDelivery a0 a1 s) := by
  unfold eventDelivery
  extract_lets v5_0 v5_1
  have k7 : Keeps r v5_1 := Keeps.same h rfl
  clear_value v5_1
  exact Keeps.ite (Keeps.ite (raiseEvent_keeps _ k7) k7) h

end Sys2Proof.Machine
end

