-- ==== Sys2Proof/Laws/KeepsPower.lean ====
section
/-! SUPPORT. What loads and power keep: one lemma for each operation, cited in place of unfolding it. -/

namespace Sys2Proof.Machine

theorem setCfgState_keeps {r : State} (a0) {s : State} (h : Keeps r s) : Keeps r (setCfgState a0 s) :=
  h.same rfl

theorem setPart_keeps {r : State} (a0) (a1) (a2) {s : State} (h : Keeps r s) : Keeps r (setPart a0 a1 a2 s) :=
  h.same rfl

theorem setRegion_keeps {r : State} (a0) {s : State} (h : Keeps r s) : Keeps r (setRegion a0 s) :=
  h.same rfl

theorem icpStatus_keeps {r : State} (a0) (a1) (a2) {s : State} (h : Keeps r s) : Keeps r (icpStatus a0 a1 a2 s) := by
  unfold icpStatus
  exact Keeps.ite (State.modPortal_keeps _ _ h) h

theorem failLoad_keeps {r : State} (a0) (a1) (a2) {s : State} (h : Keeps r s) : Keeps r (failLoad a0 a1 a2 s) := by
  unfold failLoad
  extract_lets v6_0 v6_1 v6_2
  have k9 : Keeps r v6_0 := by
    unfold v6_0
    refine State.setReg_keeps _ _ _ ?_
    exact h
  clear_value v6_0
  have k10 : Keeps r v6_1 := by
    unfold v6_1
    refine flagCfg_keeps _ ?_
    refine setPart_keeps _ _ _ ?_
    refine State.withConf_same _ rfl rfl ?_
    exact k9
  clear_value v6_1
  have k11 : Keeps r v6_2 := by
    unfold v6_2
    refine State.withConf_same _ ?_ ?_ k9
    all_goals split <;> rfl
  clear_value v6_2
  split
  · split
    · refine answer_keeps _ _ _ _ ?_
      exact k10
    · exact k10
  · refine icpStatus_keeps _ _ _ ?_
    refine flagCfg_keeps _ ?_
    refine setPart_keeps _ _ _ ?_
    exact k11

theorem endLoadOf_keeps {r : State} (a0) (a1) {s : State} (h : Keeps r s) : Keeps r (endLoadOf a0 a1 s) := by
  unfold endLoadOf
  extract_lets v5_0 v5_1
  have k7 : Keeps r v5_1 := by
    unfold v5_1
    split
    · exact Keeps.ite (failLoad_keeps _ _ _ h) h
    · exact h
  clear_value v5_1
  split
  · exact Keeps.ite (failLoad_keeps _ _ _ k7) k7
  · exact k7

theorem resetBlocks_keeps {r : State} {s : State} (h : Keeps r s) : Keeps r (resetBlocks s) := by
  exact Keeps.setRows h rfl fun _ => rfl

theorem loadCaverns_keeps {r : State} {s : State} (h : Keeps r s) : Keeps r (loadCaverns s) := by
  unfold loadCaverns
  refine Keeps.foldl _ _ (fun s3 x3 h3 => ?_) h
  extract_lets v6_0 v6_1 v6_2
  have k9 : Keeps r v6_2 := State.modCav_keeps _ _ h3
  clear_value v6_2
  exact Keeps.ite k9 (flagIso_keeps _ k9)

theorem sysResetState_keeps {r : State} {s : State} (h : Keeps r s) : Keeps r (sysResetState s) := by
  unfold sysResetState
  have h1 : Keeps r { s with foreman := Foreman.reset } := Keeps.setRam h rfl fun _ => rfl
  have h2 : Keeps r { s with foreman := Foreman.reset, clocks := { s.clocks with sys := 0, phase := 0, stamp := 0 } } :=
    Keeps.setClocks h1 rfl fun _ => ⟨rfl, Nat.two_pow_pos 64, Nat.succ_pos 59⟩
  exact Keeps.setQueue h2 rfl fun _ => Nat.zero_le _

theorem abortWork_keeps {r : State} {s : State} (h : Keeps r s) : Keeps r (abortWork s) := by
  unfold abortWork
  extract_lets v3_0 v3_1 v3_2
  have k6 : Keeps r v3_0 := by
    unfold v3_0
    split
    · split
      · exact answerOrStage_keeps _ _ _ _ h
      · exact h
    · exact h
  clear_value v3_0
  have k7 : Keeps r v3_1 := by
    unfold v3_1
    refine Keeps.foldl _ _ (fun s7 x7 h7 => ?_) k6
    split
    · exact answerOrStage_keeps _ _ _ _ h7
    · exact h7
  clear_value v3_1
  exact Keeps.foldl _ _ (fun s8 x8 h8 => (answerOrStage_keeps _ _ _ _ h8)) k7

theorem loadSource_keeps {r : State} {s : State} (h : Keeps r s) : Keeps r (loadSource s).2 := by
  unfold loadSource
  split
  · split
    · extract_lets v12_0
      have k13 : Keeps r v12_0 := State.setReg_keeps _ _ _ h
      clear_value v12_0
      exact Keeps.mkSnd (State.setReg_keeps _ _ _ k13)
    · exact Keeps.mkSnd (State.setReg_keeps _ _ _ (State.setReg_keeps _ _ _ h))
  · exact Keeps.mkSnd h
  · exact Keeps.mkSnd h
  · exact Keeps.mkSnd h

theorem fullLoad_keeps {r : State} (a0) (a1) (a2) {s : State} (h : Keeps r s) : Keeps r (fullLoad a0 a1 a2 s) := by
  unfold fullLoad
  extract_lets v6_0 v6_1 v6_2 v6_3 v6_4 v6_5 v6_6 v6_7 v6_8 v6_9 v6_10 v6_11 v6_12 v6_13 v6_14 v6_15 v6_16 v6_17 v6_18
  have k25 : Keeps r v6_0 := Keeps.ite (testAbandon_keeps h) h
  clear_value v6_0
  have k26 : Keeps r v6_1 := Keeps.ite k25 (abortWork_keeps k25)
  clear_value v6_1
  have k27 : Keeps r v6_2 := leaveMaintenance_keeps k26
  clear_value v6_2
  have k28 : Keeps r v6_3 := Keeps.same k27 rfl
  clear_value v6_3
  have k29 : Keeps r v6_4 := Keeps.ite (sysResetState_keeps k28) k28
  clear_value v6_4
  have k30 : Keeps r v6_5 := testClear_keeps (loadCaverns_keeps (resetBlocks_keeps (Keeps.same k29 rfl)))
  clear_value v6_5
  have k31 : Keeps r v6_8 := Keeps.same k30 rfl
  clear_value v6_8
  have k32 : Keeps r v6_9 := Keeps.ite (State.withForeman_same _ rfl k31) k31
  clear_value v6_9
  have k33 : Keeps r v6_10 := Keeps.ite (State.withForeman_same _ rfl k32) k32
  clear_value v6_10
  have k34 : Keeps r v6_11 := State.withPower_keeps _ k33
  clear_value v6_11
  have k35 : Keeps r v6_12 := State.withFresh_keeps _ (State.setReg_keeps _ _ _ k34)
  clear_value v6_12
  have k36 : Keeps r v6_15 := by
    unfold v6_15
    refine State.setReg_keeps _ _ _ ?_
    unfold v6_13
    exact loadSource_keeps k35
  clear_value v6_15
  have k37 : Keeps r v6_16 := State.setReg_keeps _ _ _ (State.setReg_keeps _ _ _ (State.setReg_keeps _ _ _ k36))
  clear_value v6_16
  have k38 : Keeps r v6_17 := Keeps.ite k37 (State.setField_keeps _ _ _ _ _ k37)
  clear_value v6_17
  have k39 : Keeps r v6_18 := State.withConf_same _ rfl rfl k38
  clear_value v6_18
  exact Keeps.ite (enterMode_keeps _ k39) (enterMode_keeps _ k39)

theorem fallBack_keeps {r : State} (a0) (a1) {s : State} (h : Keeps r s) : Keeps r (fallBack a0 a1 s) := by
  unfold fallBack
  extract_lets v5_0 v5_1 v5_2 v5_3
  have k9 : Keeps r v5_0 := by
    unfold v5_0
    refine Keeps.foldl _ _ (fun s9 x9 h9 => ?_) ?_
    · refine State.modCav_keeps _ _ ?_
      exact h9
    · exact h
  clear_value v5_0
  have k10 : Keeps r v5_1 := by
    unfold v5_1
    exact Keeps.setRows k9 rfl fun _ => rfl
  clear_value v5_1
  have k11 : Keeps r v5_2 := by
    unfold v5_2
    refine setCfgState_keeps _ ?_
    refine State.setReg_keeps _ _ _ ?_
    refine State.setField_keeps _ _ _ _ _ ?_
    exact k10
  clear_value v5_2
  refine State.withConf_same _ rfl rfl ?_
  exact k11

theorem failFull_keeps {r : State} (a0) (a1) (a2) {s : State} (h : Keeps r s) : Keeps r (failFull a0 a1 a2 s) := by
  unfold failFull
  extract_lets v6_0
  have k7 : ∀ s, Keeps r s → Keeps r (v6_0 s) := by
    intro s8 h8
    unfold v6_0
    extract_lets v9_0 v9_1
    have k11 : Keeps r v9_0 := State.withConf_same _ rfl rfl h8
    clear_value v9_0
    have k12 : Keeps r v9_1 := State.setField_keeps _ _ _ _ _ (State.setField_keeps _ _ _ _ _ (setCfgState_keeps _ k11))
    clear_value v9_1
    exact enterMode_keeps _ (flagCfg_keeps _ (State.setReg_keeps _ _ _ k12))
  clear_value v6_0
  split
  · exact Keeps.ite (fallBack_keeps _ _ h) (k7 _ h)
  · exact k7 _ h

theorem failAny_keeps {r : State} (a0) (a1) (a2) {s : State} (h : Keeps r s) : Keeps r (failAny a0 a1 a2 s) := by
  unfold failAny
  split
  · exact failFull_keeps _ _ _ h
  · exact failLoad_keeps _ _ _ h

theorem readHeader_keeps {r : State} {s : State} (h : Keeps r s) : Keeps r (readHeader s) := by
  unfold readHeader
  split
  · extract_lets v8_0
    have k9 : Keeps r v8_0 := Keeps.ite (setCfgState_keeps _ (enterMode_keeps _ h)) h
    clear_value v8_0
    refine Keeps.ite h ?_
    split
    · exact failFull_keeps _ _ _ k9
    · split
      · exact k9
      · extract_lets v20_0 v20_1 v20_2 v20_3 v20_4
        have k25 : Keeps r v20_0 := Keeps.ite (setRegion_keeps _ k9) k9
        clear_value v20_0
        have k26 : Keeps r v20_3 := State.withConf_same _ rfl rfl k25
        clear_value v20_3
        have k27 : Keeps r v20_4 := Keeps.ite k26 (State.withConf_same _ rfl rfl k26)
        clear_value v20_4
        split
        · exact failAny_keeps _ _ _ k25
        · split
          · exact setCfgState_keeps _ k27
          · exact icpStatus_keeps _ _ _ (setPart_keeps _ _ _ k26)
          · exact setPart_keeps _ _ _ k26
  · exact h

theorem readRecord_keeps {r : State} {s : State} (h : Keeps r s) : Keeps r (readRecord s) := by
  unfold readRecord
  split
  · refine Keeps.ite h ?_
    split
    · exact h
    · extract_lets v14_0 v14_1 v14_2 v14_3 v14_4 v14_5 v14_6 v14_7
      exact Keeps.ite (State.withConf_same _ rfl rfl h) (failAny_keeps _ _ _ h)
  · exact h

theorem pocketFrame_keeps {r : State} (a0) (a1) (a2) (a3) (a4) {s : State} (h : Keeps r s) : Keeps r (pocketFrame a0 a1 a2 a3
    a4 s) := by
  unfold pocketFrame
  extract_lets v8_0 v8_1 v8_2 v8_3 v8_4 v8_5 v8_6 v8_7
  have k16 : Keeps r v8_2 := Keeps.same h rfl
  clear_value v8_2
  have k17 : ∀ s y1, Keeps r s → Keeps r (v8_3 s y1) := by
    intro s18 y118 h18
    unfold v8_3
    extract_lets v20_0
    exact Keeps.same h18 rfl
  clear_value v8_3
  have k18 : Keeps r v8_4 := pocketContent_keeps _ _ _ k16
  clear_value v8_4
  exact Keeps.ite (k17 _ _ (pocketClear_keeps _ k16)) (k17 _ _ k18)

theorem writeFrame_keeps {r : State} (a0) (a1) (a2) (a3) (a4) (a5) {s : State} (h : Keeps r s) : Keeps r (writeFrame a0 a1 a2
    a3 a4 a5 s) := by
  unfold writeFrame
  extract_lets v9_0 v9_1 v9_2 v9_3 v9_4
  have k14 : Keeps r v9_0 := Keeps.ite (pocketFrame_keeps _ _ _ _ _ h) h
  clear_value v9_0
  have k15 : Keeps r v9_1 := Keeps.ite k14 (Keeps.same k14 rfl)
  clear_value v9_1
  have k16 : Keeps r v9_2 := Keeps.ite (State.setField_keeps _ _ _ _ _ k15) k15
  clear_value v9_2
  have k17 : Keeps r v9_3 := Keeps.ite (State.setField_keeps _ _ _ _ _ (State.withConf_same _ rfl rfl k16)) k16
  clear_value v9_3
  have k18 : Keeps r v9_4 := State.setReg_keeps _ _ _ k17
  clear_value v9_4
  exact Keeps.ite (State.modCav_keeps _ _ k18) k18

theorem readFrame_keeps {r : State} {s : State} (h : Keeps r s) : Keeps r (readFrame s) := by
  unfold readFrame
  split
  · split
    · split
      · exact h
      · split
        · exact failAny_keeps _ _ _ h
        · extract_lets v25_0 v25_1 v25_2 v25_3 v25_4 v25_5
          have k31 : Keeps r v25_2 := Keeps.ite (setCause_keeps _ _ h) h
          clear_value v25_2
          exact writeFrame_keeps _ _ _ _ _ _ (State.withConf_same _ rfl rfl k31)
    · exact h
  · exact h

theorem releaseRegion_keeps {r : State} (a0) {s : State} (h : Keeps r s) : Keeps r (releaseRegion a0 s) := by
  unfold releaseRegion
  exact Keeps.foldl _ _ (fun s4 x4 h4 => (Keeps.ite (clearCause_keeps _ _ (clearCause_keeps _ _ h4)) h4)) h

theorem commitPart_keeps {r : State} (a0) {s : State} (h : Keeps r s) : Keeps r (commitPart a0 s) := by
  unfold commitPart
  extract_lets v4_0
  have k5 : Keeps r v4_0 := State.withConf_same _ rfl rfl h
  clear_value v4_0
  exact flagCfg_keeps _ (setPart_keeps _ _ _ (releaseRegion_keeps _ (icpStatus_keeps _ _ _ k5)))

theorem putDom_keeps {r : State} (a0) (a1) {s : State} (h : Keeps r s) : Keeps r (putDom a0 a1 s) :=
  h.same rfl

theorem endDom_keeps {r : State} (a0) {s : State} (h : Keeps r s) : Keeps r (endDom a0 s) := by
  unfold endDom
  extract_lets v4_0 v4_1
  have k6 : Keeps r v4_1 := flagPwr_keeps _ (State.withPower_keeps _ h)
  clear_value v4_1
  clear_value v4_0
  split
  · exact answerOrStage_keeps _ _ _ _ k6
  · exact k6

theorem pausePortal_keeps {r : State} (a0) (a1) {s : State} (h : Keeps r s) : Keeps r (pausePortal a0 a1 s) :=
  h.same rfl

theorem copyEnd_keeps {r : State} (a0) {s : State} (h : Keeps r s) : Keeps r (copyEnd a0 s) := by
  unfold copyEnd
  extract_lets v4_0 v4_1 v4_2 v4_3 v4_4
  have k9 : Keeps r v4_2 := by
    unfold v4_2
    split
    · exact Keeps.ite (interruptProducer_keeps _ _ h) h
    · exact h
  clear_value v4_2
  have k10 : Keeps r v4_4 := State.modMaster_keeps _ _ k9
  clear_value v4_4
  clear_value v4_3
  clear_value v4_1
  clear_value v4_0
  split
  · exact answer_keeps _ _ _ _ k10
  · exact k10

theorem copyStop_keeps {r : State} {s : State} (h : Keeps r s) : Keeps r (copyStop s) := by
  unfold copyStop
  extract_lets v3_0
  exact Keeps.ite (Keeps.ite (copyEnd_keeps _ h) (State.modMaster_keeps _ _ h)) h

theorem domSettle_keeps {r : State} (a0) {s : State} (h : Keeps r s) : Keeps r (domSettle a0 s) := by
  unfold domSettle
  split
  · exact Keeps.ite (putDom_keeps _ _ (setCause_keeps _ _ h)) h
  · exact h

theorem domSettleAll_keeps {r : State} {s : State} (h : Keeps r s) : Keeps r (domSettleAll s) := by
  unfold domSettleAll
  exact Keeps.foldl _ _ (fun s3 x3 h3 => (domSettle_keeps _ h3)) h

theorem domDown_keeps {r : State} (a0) (a1) (a2) {s : State} (h : Keeps r s) : Keeps r (domDown a0 a1 a2 s) := by
  unfold domDown
  extract_lets v6_0 v6_1 v6_2 v6_3 v6_4 v6_5 v6_6 v6_7 v6_8 v6_9 v6_10 v6_11 v6_12
  have k19 : Keeps r v6_0 := stopTests_keeps _ h
  clear_value v6_0
  have k20 : Keeps r v6_2 := endLoadOf_keeps _ _ k19
  clear_value v6_2
  have k21 : Keeps r v6_4 := Keeps.foldl _ _ (fun s21 x21 h21 => (pausePortal_keeps _ _ h21)) k20
  clear_value v6_4
  have k22 : Keeps r v6_5 := State.withCrushers_keeps _ k21
  clear_value v6_5
  have k23 : Keeps r v6_6 := Keeps.ite (copyStop_keeps k22) k22
  clear_value v6_6
  have k24 : Keeps r v6_9 := stopTests_keeps _ h
  clear_value v6_9
  have k25 : Keeps r v6_11 := State.withCrushers_keeps _ k24
  clear_value v6_11
  have k26 : Keeps r v6_12 := Keeps.foldl _ _ (fun s26 x26 h26 => (laneOff_keeps _ h26)) k25
  clear_value v6_12
  exact Keeps.ite (Keeps.ite (domSettle_keeps _ (putDom_keeps _ _ (pauseHaulers_keeps _ k23))) (putDom_keeps _ _
    (setCause_keeps _ _ k19))) (Keeps.ite (putDom_keeps _ _ (State.withPower_keeps _ k26)) (putDom_keeps _ _
    (State.withPower_keeps _ h)))

theorem losePockets_keeps {r : State} (a0) {s : State} (h : Keeps r s) : Keeps r (losePockets a0 s) := by
  refine Keeps.setRows h rfl fun w => tabWf_splice 0 _ _ _ _ w ?_ ?_ ?_ (Nat.le_add_right _ _)
  · rw [List.pairwise_flatMap]
    refine ⟨fun i _ => ?_, (List.pairwise_lt_range.sublist List.filter_sublist).imp fun {i j} hij => ?_⟩
    · rw [List.pairwise_filterMap]
      refine List.pairwise_lt_range.imp fun {a b} hab x hx y hy => ?_
      simp only [Option.ite_none_left_eq_some, Option.some.injEq] at hx hy
      rw [← hx.2, ← hy.2]
      dsimp only
      omega
    · intro x hx y hy
      obtain ⟨a, ha, hx⟩ := List.mem_filterMap.1 hx
      obtain ⟨b, hb, hy⟩ := List.mem_filterMap.1 hy
      simp only [Option.ite_none_left_eq_some, Option.some.injEq] at hx hy
      rw [List.mem_range] at ha hb
      rw [← hx.2, ← hy.2]
      dsimp only
      omega
  · intro e he
    obtain ⟨i, hi, he⟩ := List.mem_flatMap.1 he
    obtain ⟨a, ha, he⟩ := List.mem_filterMap.1 he
    simp only [Option.ite_none_left_eq_some, Option.some.injEq] at he
    rw [← he.2]
    exact he.1
  · intro e he
    obtain ⟨i, hi, he⟩ := List.mem_flatMap.1 he
    obtain ⟨a, ha, he⟩ := List.mem_filterMap.1 he
    have hi := List.mem_range.1 (List.mem_of_mem_filter hi)
    rw [List.mem_range] at ha
    simp only [Option.ite_none_left_eq_some, Option.some.injEq] at he
    rw [← he.2]
    dsimp only
    omega

theorem domOffReport_keeps {r : State} (a0) {s : State} (h : Keeps r s) : Keeps r (domOffReport a0 s) := by
  unfold domOffReport
  extract_lets v4_0 v4_1
  have k6 : Keeps r v4_0 := domSettle_keeps _ h
  clear_value v4_0
  have k7 : Keeps r v4_1 := losePockets_keeps _ (wipeInterior_keeps _ k6)
  clear_value v4_1
  split
  · exact Keeps.ite k6 (Keeps.ite (endDom_keeps _ (State.modCav_keeps _ _ k7)) (endDom_keeps _ k6))
  · exact k6

theorem domOnReport_keeps {r : State} (a0) {s : State} (h : Keeps r s) : Keeps r (domOnReport a0 s) := by
  unfold domOnReport
  split
  · extract_lets v9_0 v9_1 v9_2 v9_3 v9_4
    have k14 : Keeps r v9_0 := State.modCav_keeps _ _ h
    clear_value v9_0
    have k15 : Keeps r v9_1 := Keeps.ite k14 (setCause_keeps _ _ k14)
    clear_value v9_1
    have k16 : Keeps r v9_2 := State.withPower_keeps _ h
    clear_value v9_2
    have k17 : Keeps r v9_3 := Keeps.ite (clearCause_keeps _ _ k15) (Keeps.ite (Keeps.foldl _ _ (fun s17 x17 h17 =>
      (laneBack_keeps _ h17)) k16) (returnPads_keeps _ (State.withPower_keeps _ h)))
    clear_value v9_3
    have k18 : Keeps r v9_4 := endDom_keeps _ k17
    clear_value v9_4
    exact Keeps.ite h (Keeps.ite (domDown_keeps _ _ _ k18) k18)
  · exact h

theorem domResume_keeps {r : State} (a0) {s : State} (h : Keeps r s) : Keeps r (domResume a0 s) := by
  unfold domResume
  extract_lets v4_0 v4_1
  have k6 : Keeps r v4_0 := Keeps.ite (Keeps.foldl _ _ (fun s6 x6 h6 => (Keeps.ite (haulerResume_keeps _ h6) h6)) h) h
  clear_value v4_0
  have k7 : Keeps r v4_1 := Keeps.foldl _ _ (fun s7 x7 h7 => (State.modPortal_keeps _ _ h7)) k6
  clear_value v4_1
  exact State.withCrushers_keeps _ k7

theorem requestPoint_keeps {r : State} (a0) {s : State} (h : Keeps r s) : Keeps r (requestPoint a0 s) := by
  unfold requestPoint
  extract_lets v4_0 v4_1
  have k6 : Keeps r v4_1 := State.withPower_keeps _ h
  clear_value v4_1
  exact Keeps.ite (State.withPower_keeps _ h) (Keeps.ite h (Keeps.ite (commandVccs_keeps _ k6) k6))

theorem takePoint_keeps {r : State} {s : State} (h : Keeps r s) : Keeps r (takePoint s) := by
  unfold takePoint
  split
  · exact requestPoint_keeps _ (State.withPower_keeps _ h)
  · exact h

theorem pointWrite_keeps {r : State} (a0) {s : State} (h : Keeps r s) : Keeps r (pointWrite a0 s) := by
  unfold pointWrite
  exact Keeps.ite h (requestPoint_keeps _ (State.setField_keeps _ _ _ _ _ h))

theorem pointDone_keeps {r : State} {s : State} (h : Keeps r s) : Keeps r (pointDone s) := by
  unfold pointDone
  split
  · extract_lets v8_0
    have k9 : Keeps r v8_0 := Keeps.ite h (commandVccs_keeps _ h)
    clear_value v8_0
    exact Keeps.ite (takePoint_keeps (flagPwr_keeps _ (State.withPower_keeps _ k9))) h
  · exact h

theorem raiseTimeout_keeps {r : State} {s : State} (h : Keeps r s) : Keeps r (raiseTimeout s) := by
  unfold raiseTimeout
  split
  · exact Keeps.ite (takePoint_keeps (flagPwr_keeps _ (commandVccs_keeps _ (State.withPower_keeps _ h)))) h
  · exact h

theorem vccfWrite_keeps {r : State} (a0) {s : State} (h : Keeps r s) : Keeps r (vccfWrite a0 s) := by
  unfold vccfWrite
  extract_lets v4_0 v4_1
  have k6 : Keeps r v4_1 := State.setField_keeps _ _ _ _ _ h
  clear_value v4_1
  exact Keeps.ite (flagPwr_keeps _ h) (Keeps.ite k6 (commandVccf_keeps _ k6))

theorem quietMvWrite_keeps {r : State} (a0) {s : State} (h : Keeps r s) : Keeps r (quietMvWrite a0 s) := by
  unfold quietMvWrite
  exact Keeps.ite (flagPwr_keeps _ h) (State.setField_keeps _ _ _ _ _ h)

theorem recordFirst_keeps {r : State} (a0) (a1) {s : State} (h : Keeps r s) : Keeps r (recordFirst a0 a1 s) := by
  unfold recordFirst
  exact State.setReg_keeps _ _ _ h

theorem faultHold_keeps {r : State} (a0) (a1) {s : State} (h : Keeps r s) : Keeps r (faultHold a0 a1 s) := by
  unfold faultHold
  extract_lets v5_0 v5_1 v5_2 v5_3 v5_4 v5_5 v5_6
  have k12 : Keeps r v5_1 := Keeps.ite (testAbandon_keeps h) h
  clear_value v5_1
  have k13 : Keeps r v5_2 := by
    unfold v5_2
    split
    · exact Keeps.ite (State.withConf_same _ rfl rfl k12) k12
    · exact k12
  clear_value v5_2
  have k14 : Keeps r v5_3 := logFault_keeps _ _ (flagPwr_keeps _ (enterMode_keeps _ (leaveMaintenance_keeps
    (recordFirst_keeps _ _ k13))))
  clear_value v5_3
  have k15 : Keeps r v5_4 := State.withPower_keeps _ k14
  clear_value v5_4
  have k16 : Keeps r v5_5 := Keeps.foldl _ _ (fun s16 x16 h16 => (Keeps.ite h16 (domDown_keeps _ _ _ h16))) k15
  clear_value v5_5
  have k17 : Keeps r v5_6 := Keeps.foldl _ _ (fun s17 x17 h17 => (Keeps.ite h17 (domDown_keeps _ _ _ h17))) k16
  clear_value v5_6
  exact requestPoint_keeps _ (State.setField_keeps _ _ _ _ _ k17)

theorem faultCheck_keeps {r : State} (a0) {s : State} (h : Keeps r s) : Keeps r (faultCheck a0 s) := by
  unfold faultCheck
  refine Keeps.ite h ?_
  refine Keeps.ite ?_ (Keeps.ite (faultHold_keeps _ _ h) h)
  split
  · exact State.withPower_keeps _ h
  · exact Keeps.ite (State.withPower_keeps _ h) h
  · exact h

theorem jobLost_keeps {r : State} {s : State} (h : Keeps r s) : Keeps r (jobLost s) := by
  unfold jobLost
  split
  · extract_lets f bs second store
    refine Keeps.setStore h rfl fun w => ?_
    show memWf storeFill (if second then _ else _) = true
    split
    · exact memWrite_wf _ _ _ _ (memWrite_wf _ _ _ _ w)
    · exact memWrite_wf _ _ _ _ w
  · exact h

theorem jobStopped_keeps {r : State} {s : State} (h : Keeps r s) : Keeps r (jobStopped s) := by
  unfold jobStopped
  split
  · exact Keeps.setStore h rfl fun w => memWrite_wf storeFill _ _ _ w
  · exact h

theorem holdDevice_keeps {r : State} (a0) (a1) {s : State} (h : Keeps r s) : Keeps r (holdDevice a0 a1 s) := by
  unfold holdDevice
  extract_lets v5_0
  have k6 : Keeps r v5_0 := jobLost_keeps (recordFirst_keeps _ _ h)
  clear_value v5_0
  exact State.withPower_keeps _ (State.withConf_same _ rfl rfl k6)

theorem railFault_keeps {r : State} (a0) (a1) {s : State} (h : Keeps r s) : Keeps r (railFault a0 a1 s) := by
  unfold railFault
  extract_lets v5_0
  have k6 : Keeps r v5_0 := Keeps.ite (State.withPower_keeps _ h) (operateRails_keeps _ _ (State.withPower_keeps _ h))
  clear_value v5_0
  exact Keeps.ite k6 (Keeps.ite (holdDevice_keeps _ _ k6) (Keeps.ite k6 (faultCheck_keeps _ k6)))

theorem pmbFail_keeps {r : State} {s : State} (h : Keeps r s) : Keeps r (pmbFail s) := by
  unfold pmbFail
  exact flagPwr_keeps _ (countStat_keeps _ _ _ (fun s3 h3 => flagPwr_keeps _ h3) h)

theorem statusRead_keeps {r : State} (a0) (a1) {s : State} (h : Keeps r s) : Keeps r (statusRead a0 a1 s) := by
  unfold statusRead
  extract_lets v5_0
  have k6 : Keeps r v5_0 := Keeps.ite (pmbFail_keeps h) h
  clear_value v5_0
  exact Keeps.ite (railFault_keeps _ _ k6) k6

theorem causeCleared_keeps {r : State} {s : State} (h : Keeps r s) : Keeps r (causeCleared s) := by
  unfold causeCleared
  exact Keeps.ite (Keeps.ite (fullLoad_keeps _ _ _ h) h) (Keeps.ite (fullLoad_keeps _ _ _ h) h)

theorem inUnits_keeps {r : State} (a0) (a1) {s : State} (h : Keeps r s) : Keeps r (inUnits a0 a1 s).2 := by
  unfold inUnits
  refine Keeps.iteSnd (Keeps.mkSnd h) ?_
  split
  rename_i _ _ m11_2 m11_3
  have k11 : Keeps r m11_2 := Keeps.ofPair m11_3 (State.takeFree_keeps h)
  exact Keeps.mkSnd k11

theorem readVout_keeps {r : State} (a0) {s : State} (h : Keeps r s) : Keeps r (readVout a0 s).2 := by
  unfold readVout
  exact inUnits_keeps _ _ h

theorem readLinear11_keeps {r : State} (a0) (a1) {s : State} (h : Keeps r s) : Keeps r (readLinear11 a0 a1 s).2 := by
  unfold readLinear11
  extract_lets v5_0 v5_1 v5_2
  refine Keeps.mkSnd ?_
  unfold v5_2
  exact inUnits_keeps _ _ h

theorem pmbusPoll_keeps {r : State} (a0) (a1) {s : State} (h : Keeps r s) : Keeps r (pmbusPoll a0 a1 s) := by
  have hin : ∀ lo hi (x : Int × State), Keeps r x.2 → Keeps r (inRange lo hi x).2 := fun lo hi x hx => by
    unfold inRange
    split
    · exact hx
    · exact State.takeFree_keeps hx
  unfold pmbusPoll
  split
  · split
    · exact pmbFail_keeps h
    · rename_i v
      have k1 := readVout_keeps v.vout h
      dsimp only
      have k2 := hin 0 65535 (↑(readVout v.vout s).1, (readVout v.vout s).2) k1
      have k3 := hin 0 65535 _ (readLinear11_keeps 100 v.iout k2)
      have k4 := hin (-32768) 32767 _ (readLinear11_keeps 8 v.temp k3)
      refine statusRead_keeps _ _ (State.withPower_keeps _ (Keeps.ite (State.setField_keeps _ _ _ _ _ ?_) ?_)) <;>
        exact hin _ _ _ (State.setReg_keeps _ _ _ k4)
  · exact h

theorem regRetry_keeps {r : State} (a0) (a1) (a2) {s : State} (h : Keeps r s) : Keeps r (regRetry a0 a1 a2 s) := by
  unfold regRetry
  extract_lets v6_0 v6_1
  have k8 : Keeps r v6_1 := Keeps.ite (operateRails_keeps _ _ h) h
  clear_value v6_1
  exact Keeps.ite (causeCleared_keeps (State.withPower_keeps _ k8)) h

theorem tempRead_keeps {r : State} (a0) {s : State} (h : Keeps r s) : Keeps r (tempRead a0 s) := by
  unfold tempRead
  extract_lets v4_0 v4_1 v4_2 v4_3 v4_4
  have k9 : Keeps r v4_3 := State.setField_keeps _ _ _ _ _ h
  clear_value v4_3
  have k10 : Keeps r v4_4 := Keeps.ite (flagPwr_keeps _ k9) k9
  clear_value v4_4
  exact Keeps.ite (Keeps.ite (causeCleared_keeps (State.withPower_keeps _ k10)) k10) h

theorem thermalTrip_keeps {r : State} {s : State} (h : Keeps r s) : Keeps r (thermalTrip s) := by
  unfold thermalTrip
  extract_lets v3_0
  have k4 : Keeps r v3_0 := State.withPower_keeps _ h
  clear_value v3_0
  exact Keeps.ite h (Keeps.ite k4 (faultCheck_keeps _ k4))

theorem supplyFault_keeps {r : State} (a0) {s : State} (h : Keeps r s) : Keeps r (supplyFault a0 s) := by
  unfold supplyFault
  extract_lets v4_0
  exact Keeps.ite h (Keeps.ite (railFault_keeps _ _ h) h)

theorem supplyRecover_keeps {r : State} (a0) {s : State} (h : Keeps r s) : Keeps r (supplyRecover a0 s) := by
  unfold supplyRecover
  extract_lets v4_0
  exact Keeps.ite (causeCleared_keeps (State.withPower_keeps _ h)) h

theorem wakeRails_keeps {r : State} {s : State} (h : Keeps r s) : Keeps r (wakeRails s) :=
  h.same rfl

theorem wakeLatch_keeps {r : State} (a0) {s : State} (h : Keeps r s) : Keeps r (wakeLatch a0 s) := by
  unfold wakeLatch
  split
  · extract_lets v9_0 v9_1
    have k11 : Keeps r v9_0 := State.setBits_keeps _ _ _ h
    clear_value v9_0
    have k12 : Keeps r v9_1 := State.withPower_keeps _ k11
    clear_value v9_1
    refine Keeps.ite ?_ h
    split
    · exact State.withPower_keeps _ (State.setBits_keeps _ _ _ k12)
    · exact Keeps.ite (State.withPower_keeps _ k12) (wakeRails_keeps k12)
    · exact k12
  · exact h

theorem replayWakes_keeps {r : State} {s : State} (h : Keeps r s) : Keeps r (replayWakes s) := by
  unfold replayWakes
  extract_lets v3_0
  exact Keeps.ite h (flagPwr_keeps _ (raiseAll_keeps _ (State.withPower_keeps _ h)))

theorem discardCommands_keeps {r : State} {s : State} (h : Keeps r s) : Keeps r (discardCommands s) := by
  unfold discardCommands
  exact Keeps.foldl _ _ (fun s3 x3 h3 => (State.modMbox_keeps _ _ h3)) (State.withForeman_same _ rfl h)

theorem modeEntry_keeps {r : State} (a0) {s : State} (h : Keeps r s) : Keeps r (modeEntry a0 s) := by
  unfold modeEntry
  split
  · exact enterMode_keeps _ (leaveMaintenance_keeps h)
  · extract_lets v5_0
    exact enterMode_keeps _ (wakeActivity_keeps (Keeps.same h rfl))
  · extract_lets v7_0 v7_1 v7_2 v7_3
    have k11 : Keeps r v7_0 := Keeps.ite h (discardCommands_keeps h)
    clear_value v7_0
    have k12 : Keeps r v7_1 := Keeps.foldl _ _ (fun s12 x12 h12 => (gaugeStop_keeps _ h12)) (sleepPads_keeps k11)
    clear_value v7_1
    have k13 : Keeps r v7_2 := Keeps.ite (Keeps.foldl _ _ (fun s13 x13 h13 => (laneSleep_keeps _ h13)) k12)
      (State.setField_keeps _ _ _ _ _ (Keeps.foldl _ _ (fun s13 x13 h13 => (laneOff_keeps _ h13)) k12))
    clear_value v7_2
    have k14 : Keeps r v7_3 := State.withPower_keeps _ k13
    clear_value v7_3
    exact Keeps.ite (commandVccf_keeps _ k14) k14

theorem standbyReached_keeps {r : State} {s : State} (h : Keeps r s) : Keeps r (standbyReached s) := by
  unfold standbyReached
  split
  · extract_lets v9_0
    have k10 : Keeps r v9_0 := enterMode_keeps _ h
    clear_value v9_0
    exact State.withPower_keeps _ k10
  · exact h

theorem standbyExit_keeps {r : State} {s : State} (h : Keeps r s) : Keeps r (standbyExit s) := by
  unfold standbyExit
  extract_lets v3_0 v3_1 v3_2
  have k6 : Keeps r v3_0 := commandVccf_keeps _ (State.withPower_keeps _ h)
  clear_value v3_0
  have k7 : Keeps r v3_1 := replayEdges_keeps (replayWakes_keeps (wakePads_keeps (enterMode_keeps _ k6)))
  clear_value v3_1
  have k8 : Keeps r v3_2 := Keeps.foldl _ _ (fun s8 x8 h8 => (laneResume_keeps _ h8)) k7
  clear_value v3_2
  exact Keeps.ite (Keeps.ite (fullLoad_keeps _ _ _ (State.withPower_keeps _ k6)) (faultCheck_keeps _ (takePoint_keeps k8))) h

theorem loseCaverns_keeps {r : State} {s : State} (h : Keeps r s) : Keeps r (loseCaverns s) := by
  unfold loseCaverns
  exact Keeps.foldl _ _ (fun s3 x3 h3 => (State.modCav_keeps _ _ (losePockets_keeps _ (wipeInterior_keeps _ h3)))) h

theorem sleepReached_keeps {r : State} (a0) (a1) {s : State} (h : Keeps r s) : Keeps r (sleepReached a0 a1 s) := by
  unfold sleepReached
  extract_lets v5_0 v5_1
  have k7 : Keeps r v5_0 := operateRails_keeps _ _ (enterMode_keeps _ (loseCaverns_keeps (jobLost_keeps h)))
  clear_value v5_0
  have k8 : Keeps r v5_1 := State.withPower_keeps _ k7
  clear_value v5_1
  exact Keeps.ite (wakeRails_keeps k8) k8

theorem railsOff_keeps {r : State} {s : State} (h : Keeps r s) : Keeps r (railsOff s) := by
  unfold railsOff
  split
  · exact sleepReached_keeps _ _ h
  · exact sleepReached_keeps _ _ h
  · exact h

theorem railsOn_keeps {r : State} {s : State} (h : Keeps r s) : Keeps r (railsOn s) := by
  unfold railsOn
  exact Keeps.ite (Keeps.ite (fullLoad_keeps _ _ _ h) (fullLoad_keeps _ _ _ h)) h

theorem pgTimeout_keeps {r : State} {s : State} (h : Keeps r s) : Keeps r (pgTimeout s) := by
  unfold pgTimeout
  exact Keeps.ite (operateRails_keeps _ _ (State.withPower_keeps _ (State.setBits_keeps _ _ _ h))) h

theorem pgRetry_keeps {r : State} {s : State} (h : Keeps r s) : Keeps r (pgRetry s) := by
  unfold pgRetry
  exact Keeps.ite (wakeRails_keeps h) h

theorem progTaken_keeps {r : State} {s : State} (h : Keeps r s) : Keeps r (progTaken s) := by
  unfold progTaken
  extract_lets v3_0
  refine Keeps.ite h ?_
  split
  · refine Keeps.ite ?_ ?_
    · assumption
    · refine Keeps.ite ?_ ?_
      · refine wakeRails_keeps ?_
        assumption
      · refine Keeps.ite ?_ (fullLoad_keeps _ _ _ h)
        assumption
  · assumption

theorem quietEntry_keeps {r : State} {s : State} (h : Keeps r s) : Keeps r (quietEntry s) := by
  unfold quietEntry
  extract_lets v3_0
  exact Keeps.ite (enterMode_keeps _ (Keeps.ite h (commandVccf_keeps _ h))) h

theorem aonTick_keeps {r : State} {s : State} (h : Keeps r s) : Keeps r (aonTick s) := by
  unfold aonTick
  extract_lets v3_0 v3_1 v3_2 v3_3
  have k7 : Keeps r v3_2 := State.setReg_keeps _ _ _ (Keeps.same h rfl)
  clear_value v3_2
  have k8 : Keeps r v3_3 := Keeps.ite (flagPwr_keeps _ k7) k7
  clear_value v3_3
  exact Keeps.ite (wakeLatch_keeps _ k8) k8

end Sys2Proof.Machine
end

