-- ==== Sys2Proof/Laws/KeepsForeman.lean ====
section
/-! SUPPORT. What the loader, the mailboxes, the clocks, the events and the Foreman keep: one lemma for each operation, cited in place of unfolding it. -/

namespace Sys2Proof.Machine

theorem sensorWrite_keeps {r : State} (a0) (a1) {s : State} (h : Keeps r s) : Keeps r (sensorWrite a0 a1 s) := by
  unfold sensorWrite
  extract_lets v5_0 v5_1 v5_2
  have k8 : Keeps r v5_1 := State.setReg_keeps _ _ _ h
  clear_value v5_1
  exact Keeps.ite (Keeps.same k8 rfl) k8

theorem patrolControl_keeps {r : State} (a0) {s : State} (h : Keeps r s) : Keeps r (patrolControl a0 s) := by
  unfold patrolControl
  extract_lets v4_0 v4_1 v4_2
  have k7 : Keeps r v4_1 := State.setReg_keeps _ _ _ h
  clear_value v4_1
  exact Keeps.ite k7 (Keeps.same k7 rfl)

theorem loadAlwaysOn_keeps {r : State} {s : State} (h : Keeps r s) : Keeps r (loadAlwaysOn s) := by
  unfold loadAlwaysOn
  extract_lets v3_0 v3_1 v3_2 v3_3
  have k7 : Keeps r v3_1 := State.setReg_keeps _ _ _ (State.setReg_keeps _ _ _ (State.setReg_keeps _ _ _ h))
  clear_value v3_1
  have k8 : Keeps r v3_2 := patrolControl_keeps _ (State.setReg_keeps _ _ _ k7)
  clear_value v3_2
  have k9 : Keeps r v3_3 := Keeps.foldl _ _ (fun s9 x9 h9 => (sensorWrite_keeps _ _ h9)) k8
  clear_value v3_3
  exact State.withPower_keeps _ k9

theorem disableFailed_keeps {r : State} {s : State} (h : Keeps r s) : Keeps r (disableFailed s) := by
  unfold disableFailed
  exact Keeps.foldl _ _ (fun s3 x3 h3 => (Keeps.ite (State.setField_keeps _ _ _ _ _ h3) h3)) h

theorem startBegin_keeps {r : State} (a0) {s : State} (h : Keeps r s) : Keeps r (startBegin a0 s) := by
  unfold startBegin
  extract_lets v4_0 v4_1 v4_2 v4_3 v4_4 v4_5 v4_6 v4_7 v4_8
  have k13 : Keeps r v4_0 := Keeps.foldl _ _ (fun s13 x13 h13 => (Keeps.ite (Keeps.ite (State.modCav_keeps _ _
    (setCause_keeps _ _ h13)) h13) (State.modCav_keeps _ _ (setCause_keeps _ _ h13)))) h
  clear_value v4_0
  have k14 : Keeps r v4_1 := Keeps.ite k13 (loadAlwaysOn_keeps k13)
  clear_value v4_1
  have k15 : Keeps r v4_2 := State.setField_keeps _ _ _ _ _ k14
  clear_value v4_2
  have k16 : Keeps r v4_3 := State.setReg_keeps _ _ _ k15
  clear_value v4_3
  have k17 : Keeps r v4_4 := requestPoint_keeps _ (commandVccf_keeps _ k16)
  clear_value v4_4
  have k18 : Keeps r v4_5 := State.withCrushers_keeps _ k17
  clear_value v4_5
  have k19 : Keeps r v4_6 := State.setReg_keeps _ _ _ k18
  clear_value v4_6
  have k20 : Keeps r v4_8 := Keeps.foldl _ _ (fun s20 x20 h20 => (noteWrite_keeps _ _ h20)) k19
  clear_value v4_8
  exact enterMode_keeps _ (setCfgState_keeps _ (State.withConf_same _ rfl rfl k20))

theorem readTrailer_keeps {r : State} {s : State} (h : Keeps r s) : Keeps r (readTrailer s) := by
  unfold readTrailer
  split
  · refine Keeps.ite h ?_
    split
    · exact h
    · split
      · exact failAny_keeps _ _ _ h
      · split
        · split
          · exact failFull_keeps _ _ _ h
          · extract_lets v26_0 v26_1
            have k28 : Keeps r v26_0 := State.withConf_same _ rfl rfl h
            clear_value v26_0
            have k29 : Keeps r v26_1 := Keeps.foldl _ _ (fun s29 x29 h29 => (State.modCav_keeps _ _ h29)) k28
            clear_value v26_1
            exact Keeps.ite (testRun_keeps _ _ _ _ _ (setCfgState_keeps _ k29)) (startBegin_keeps _ k29)
        · split
          · exact failLoad_keeps _ _ _ (State.withConf_same _ rfl rfl h)
          · extract_lets v26_0 v26_1 v26_2 v26_3 v26_4
            have k31 : Keeps r v26_0 := releaseRegion_keeps _ (State.withConf_same _ rfl rfl h)
            clear_value v26_0
            have k32 : Keeps r v26_1 := flagCfg_keeps _ (setPart_keeps _ _ _ k31)
            clear_value v26_1
            have k33 : Keeps r v26_3 := State.withConf_same _ rfl rfl h
            clear_value v26_3
            have k34 : Keeps r v26_4 := icpStatus_keeps _ _ _ (flagCfg_keeps _ (setPart_keeps _ _ _ k33))
            clear_value v26_4
            refine Keeps.ite ?_ (Keeps.ite (commitPart_keeps _ k34) k34)
            split
            · exact answer_keeps _ _ _ _ k32
            · exact k32
  · exact h

theorem startupTestOver_keeps {r : State} {s : State} (h : Keeps r s) : Keeps r (startupTestOver s) := by
  unfold startupTestOver
  exact startBegin_keeps _ (testClear_keeps h)

theorem loadRun_keeps {r : State} {s : State} (h : Keeps r s) : Keeps r (loadRun s) := by
  unfold loadRun
  split
  · extract_lets v8_0 v8_1 v8_2 v8_3 v8_4 v8_5 v8_6 v8_7 v8_8 v8_9 v8_10 v8_11 v8_12
    have k21 : Keeps r v8_1 := State.withConf_same _ rfl rfl h
    clear_value v8_1
    have k22 : Keeps r v8_2 := Keeps.foldl _ _ (fun s22 x22 h22 => (State.setField_keeps _ _ _ _ _ h22)) k21
    clear_value v8_2
    have k23 : Keeps r v8_3 := Keeps.foldl _ _ (fun s23 x23 h23 => (clearCause_keeps _ _ h23)) k22
    clear_value v8_3
    have k24 : Keeps r v8_4 := setCfgState_keeps _ (State.setField_keeps _ _ _ _ _ k23)
    clear_value v8_4
    have k25 : Keeps r v8_5 := State.setField_keeps _ _ _ _ _ (State.setField_keeps _ _ _ _ _ k24)
    clear_value v8_5
    have k26 : Keeps r v8_6 := State.setField_keeps _ _ _ _ _ k25
    clear_value v8_6
    have k27 : Keeps r v8_7 := State.setField_keeps _ _ _ _ _ k26
    clear_value v8_7
    have k28 : Keeps r v8_8 := State.setReg_keeps _ _ _ k27
    clear_value v8_8
    have k29 : Keeps r v8_9 := State.setReg_keeps _ _ _ k28
    clear_value v8_9
    have k30 : Keeps r v8_10 := flagCfg_keeps _ (enterMode_keeps _ k29)
    clear_value v8_10
    have k31 : Keeps r v8_11 := Keeps.ite (disableFailed_keeps k30) k30
    clear_value v8_11
    have k32 : Keeps r v8_12 := Keeps.foldl _ _ (fun s32 x32 h32 => (Keeps.ite h32 (laneEnable_keeps _ h32))) k31
    clear_value v8_12
    exact Keeps.ite h (Keeps.ite (replayWakes_keeps k32) k32)
  · exact h

theorem icpTake_keeps {r : State} {s : State} (h : Keeps r s) : Keeps r (icpTake s) :=
  h.same rfl

theorem icpRefuse_keeps {r : State} (a0) {s : State} (h : Keeps r s) : Keeps r (icpRefuse a0 s) := by
  unfold icpRefuse
  extract_lets v4_0
  have k5 : Keeps r v4_0 := icpStatus_keeps _ _ _ h
  clear_value v4_0
  exact Keeps.ite (State.withConf_same _ rfl rfl k5) k5

theorem icpFailVerified_keeps {r : State} (a0) (a1) {s : State} (h : Keeps r s) : Keeps r (icpFailVerified a0 a1 s) := by
  unfold icpFailVerified
  extract_lets v5_0
  have k6 : Keeps r v5_0 := failLoad_keeps _ _ _ h
  clear_value v5_0
  exact Keeps.ite (State.withConf_same _ rfl rfl k6) k6

theorem icpWords_keeps {r : State} (a0) (a1) (a2) {s : State} (h : Keeps r s) : Keeps r (icpWords a0 a1 a2 s) := by
  unfold icpWords
  extract_lets v6_0 v6_1 v6_2 v6_3
  exact Keeps.ite (failLoad_keeps _ _ _ h) (State.withConf_same _ rfl rfl h)

theorem icpBegin_keeps {r : State} (a0) {s : State} (h : Keeps r s) : Keeps r (icpBegin a0 s) :=
  h.same rfl

theorem icpDuring_keeps {r : State} (a0) (a1) (a2) {s : State} (h : Keeps r s) : Keeps r (icpDuring a0 a1 a2 s) := by
  unfold icpDuring
  extract_lets v6_0 v6_1
  exact Keeps.ite (failLoad_keeps _ _ _ (icpTake_keeps h)) (Keeps.ite (failLoad_keeps _ _ _ (icpTake_keeps h)) (Keeps.ite
    (failLoad_keeps _ _ _ (icpTake_keeps h)) (Keeps.ite (Keeps.ite (failLoad_keeps _ _ _ (icpTake_keeps h)) h) (Keeps.ite
    (icpWords_keeps _ _ _ (icpTake_keeps h)) (failLoad_keeps _ _ _ (icpTake_keeps h))))))

theorem icpIdle_keeps {r : State} (a0) (a1) {s : State} (h : Keeps r s) : Keeps r (icpIdle a0 a1 s) := by
  unfold icpIdle
  extract_lets v5_0 v5_1 v5_2 v5_3 v5_4
  have k10 : Keeps r v5_4 := icpBegin_keeps _ h
  clear_value v5_4
  exact Keeps.ite (icpRefuse_keeps _ h) (Keeps.ite (Keeps.ite (failLoad_keeps _ _ _ k10) k10) (icpWords_keeps _ _ _
    (icpBegin_keeps _ h)))

theorem icpStep_keeps {r : State} (a0) {s : State} (h : Keeps r s) : Keeps r (icpStep a0 s) := by
  unfold icpStep
  split
  · exact h
  · refine Keeps.ite h ?_
    split
    · exact Keeps.ite h (Keeps.ite h (icpDuring_keeps _ _ _ h))
    · extract_lets v14_0
      have k15 : Keeps r v14_0 := icpTake_keeps h
      clear_value v14_0
      refine Keeps.ite (Keeps.ite (State.withConf_same _ rfl rfl k15) k15) ?_
      split
      · exact Keeps.ite (icpFailVerified_keeps _ _ k15) (Keeps.ite (commitPart_keeps _ k15) (Keeps.ite (failLoad_keeps _
          _ _ k15) (icpFailVerified_keeps _ _ k15)))
      · exact icpIdle_keeps _ _ (icpTake_keeps h)

theorem sealedBegin_keeps {r : State} (a0) (a1) (a2) (a3) {s : State} (h : Keeps r s) : Keeps r (sealedBegin a0 a1 a2 a3 s) :=
    by
  unfold sealedBegin
  extract_lets v7_0 v7_1 v7_2
  have k10 : Keeps r v7_2 := setRegion_keeps _ (State.setReg_keeps _ _ _ h)
  clear_value v7_2
  exact Keeps.ite (failLoad_keeps _ _ _ k10) (Keeps.ite (failLoad_keeps _ _ _ k10) (State.withConf_same _ rfl rfl
    (setCause_keeps _ _ k10)))

theorem rewriteFrames_keeps {r : State} (a0) (a1) {s : State} (h : Keeps r s) : Keeps r (rewriteFrames a0 a1 s).2 := by
  induction a1 generalizing s with
  | nil => exact h
  | cons f l ih =>
    obtain ⟨a, ws, off⟩ := f
    unfold rewriteFrames
    extract_lets col minor
    split
    · exact h
    · exact ih (writeFrame_keeps _ _ _ _ _ _ h)

theorem revertEnd_keeps {r : State} (a0) (a1) (a2) {s : State} (h : Keeps r s) : Keeps r (revertEnd a0 a1 a2 s) := by
  unfold revertEnd
  extract_lets v6_0
  have k7 : Keeps r v6_0 := State.setReg_keeps _ _ _ h
  clear_value v6_0
  exact Keeps.ite (answer_keeps _ _ _ _ (flagCfg_keeps _ (setPart_keeps _ _ _ k7))) (answer_keeps _ _ _ _ (flagCfg_keeps _
    (setPart_keeps _ _ _ k7)))

theorem revertCavern_keeps {r : State} (a0) (a1) {s : State} (h : Keeps r s) : Keeps r (revertCavern a0 a1 s) := by
  unfold revertCavern
  split
  · exact answer_keeps _ _ _ _ h
  · extract_lets v10_0 v10_1 v10_2 v10_3 v10_4
    have k15 : Keeps r v10_0 := State.setReg_keeps _ _ _ (setRegion_keeps _ (endLoadOf_keeps _ _ h))
    clear_value v10_0
    have k16 : Keeps r v10_4 := setCause_keeps _ _ k15
    clear_value v10_4
    refine Keeps.ite (revertEnd_keeps _ _ _ k15) ?_
    split
    · rename_i _ _ _ m24_3 m24_4
      have k24 : Keeps r m24_3 := Keeps.ofPair m24_4 (rewriteFrames_keeps _ _ k16)
      exact revertEnd_keeps _ _ _ k24
    · rename_i _ m22_1 m22_2
      have k22 : Keeps r m22_1 := Keeps.ofPair m22_2 (rewriteFrames_keeps _ _ k16)
      split
      · exact revertEnd_keeps _ _ _ k22
      · exact revertEnd_keeps _ _ _ (clearCause_keeps _ _ (clearCause_keeps _ _ k22))

theorem progPulse_keeps {r : State} (a0) {s : State} (h : Keeps r s) : Keeps r (progPulse a0 s) := by
  unfold progPulse
  extract_lets v4_0
  refine Keeps.ite h ?_
  refine Keeps.ite (progTaken_keeps h) ?_
  refine Keeps.ite ?_ ?_
  · refine progTaken_keeps ?_
    unfold v4_0
    exact State.takeFree_keeps h
  · unfold v4_0
    exact State.takeFree_keeps h

theorem reprogWrite_keeps {r : State} (a0) {s : State} (h : Keeps r s) : Keeps r (reprogWrite a0 s) := by
  unfold reprogWrite
  exact Keeps.ite (fullLoad_keeps _ _ _ h) h

theorem streamWord_keeps {r : State} (a0) (a1) {s : State} (h : Keeps r s) : Keeps r (streamWord a0 a1 s) := by
  unfold streamWord
  split
  · exact Keeps.ite (State.withConf_same _ rfl rfl h) h
  · exact h

theorem loadStep_keeps {r : State} (a0) {s : State} (f0 : ∀ s, Keeps r s → Keeps r (a0 s)) (h : Keeps r s) : Keeps r (loadStep
    a0 s) := by
  unfold loadStep
  extract_lets v5_0
  have k6 : Keeps r v5_0 := f0 _ h
  clear_value v5_0
  exact Keeps.ite (Keeps.ite (faultCheck_keeps _ k6) k6) h

theorem bistTestEnd_keeps {r : State} (a0) (a1) (a2) (a3) {s : State} (h : Keeps r s) : Keeps r (bistTestEnd a0 a1 a2 a3 s) :=
    by
  unfold bistTestEnd
  extract_lets v7_0 v7_1
  have k9 : Keeps r v7_1 := testFill_keeps _ (testEnds_keeps _ _ _ _ h)
  clear_value v7_1
  exact Keeps.ite (Keeps.ite (startupTestOver_keeps k9) (Keeps.ite (fullLoad_keeps _ _ _ (testClear_keeps (testAnswer_keeps
    k9))) (testClear_keeps (testAnswer_keeps k9)))) k9

theorem startupTimeout_keeps {r : State} {s : State} (h : Keeps r s) : Keeps r (startupTimeout s) := by
  unfold startupTimeout
  extract_lets v3_0 v3_1 v3_2 v3_3 v3_4
  have k8 : Keeps r v3_1 := State.withTest_keeps _ h
  clear_value v3_1
  have k9 : ∀ s y1, Keeps r s → Keeps r (v3_2 s y1) := by
    intro s10 y110 h10
    unfold v3_2
    extract_lets v12_0 v12_1 v12_2
    refine Keeps.ite ?_ ?_
    · refine cavernFinish_keeps _ _ _ ?_
      unfold v12_0
      exact State.takeFree_keeps h10
    · refine testFinish_keeps _ _ _ _ ?_
      unfold v12_0
      exact State.takeFree_keeps h10
  clear_value v3_2
  have k10 : Keeps r v3_3 := Keeps.foldl _ _ (fun s10 x10 h10 => (k9 _ _ h10)) k8
  clear_value v3_3
  have k11 : Keeps r v3_4 := Keeps.foldl _ _ (fun s11 x11 h11 => (Keeps.ite (cavernFinish_keeps _ _ _ h11) (testFinish_keeps
    _ _ _ _ h11))) k10
  clear_value v3_4
  exact Keeps.ite (startupTestOver_keeps k11) h

theorem serve_keeps {r : State} (a0) (a1) (a2) (a3) {s : State} (f3 : ∀ x0 x1 s, Keeps r s → Keeps r (a3 x0 x1 s)) (h : Keeps
    r s) : Keeps r (serve a0 a1 a2 a3 s) := by
  unfold serve
  extract_lets v8_0 v8_1 v8_2
  exact Keeps.ite (Keeps.ite (answer_keeps _ _ _ _ h) (Keeps.ite (Keeps.ite (answer_keeps _ _ _ _ h) (f3 _ _ _ h)) h)) h

theorem beginWork_keeps {r : State} (a0) (a1) {s : State} (h : Keeps r s) : Keeps r (beginWork a0 a1 s) :=
  h.same rfl

theorem acceptCommand_keeps {r : State} (a0) (a1) {s : State} (h : Keeps r s) : Keeps r (acceptCommand a0 a1 s) := by
  unfold acceptCommand
  extract_lets v5_0
  have k6 : Keeps r v5_0 := State.modMbox_keeps _ _ h
  clear_value v5_0
  exact wakeActivity_keeps (State.withForeman_same _ rfl k6)

theorem setPostres_keeps {r : State} (a0) (a1) (a2) (a3) {s : State} (h : Keeps r s) : Keeps r (setPostres a0 a1 a2 a3 s) :=
  h.same rfl

theorem allocPost_keeps {r : State} {s : State} (a0) (h : Keeps r s) : Keeps r (allocPost s a0) := by
  unfold allocPost
  extract_lets v4_0
  split
  · exact setPostres_keeps _ _ _ _ (State.withForeman_same _ rfl (acceptCommand_keeps _ _ h))
  · exact State.withForeman_same _ rfl h

theorem allocPosts_keeps {r : State} (a0) {s : State} (h : Keeps r s) : Keeps r (allocPosts a0 s) := by
  unfold allocPosts
  extract_lets v4_0 v4_1 v4_2 v4_3
  have k8 : Keeps r v4_2 := Keeps.foldl _ _ (fun s8 x8 h8 => (State.modMbox_keeps _ _ h8)) h
  clear_value v4_2
  have k9 : Keeps r v4_3 := State.withForeman_same _ rfl k8
  clear_value v4_3
  exact Keeps.foldl _ _ (fun s10 x10 h10 => (allocPost_keeps _ h10)) k9

theorem refusePosts_keeps {r : State} (a0) {s : State} (h : Keeps r s) : Keeps r (refusePosts a0 s) := by
  unfold refusePosts
  extract_lets v4_0 v4_1
  have k6 : Keeps r v4_1 := State.withForeman_same _ rfl h
  clear_value v4_1
  exact Keeps.foldl _ _ (fun s7 x7 h7 => (setPostres_keeps _ _ _ _ (flagMbx_keeps _ (countStat_keeps _ _ _ (fun s10 h10 =>
    flagMbx_keeps _ h10) h7)))) k6

theorem postWrite_keeps {r : State} (a0) (a1) {s : State} (h : Keeps r s) : Keeps r (postWrite a0 a1 s) := by
  unfold postWrite
  extract_lets v5_0
  have k6 : Keeps r v5_0 := State.modPort_keeps _ _ (refusePosts_keeps _ h)
  clear_value v5_0
  exact Keeps.ite (setPostres_keeps _ _ _ _ k6) (allocPosts_keeps _ k6)

theorem releaseMailbox_keeps {r : State} (a0) {s : State} (h : Keeps r s) : Keeps r (releaseMailbox a0 s) := by
  unfold releaseMailbox
  extract_lets v4_0
  have k5 : Keeps r v4_0 := State.modMbox_keeps _ _ h
  clear_value v4_0
  exact Keeps.ite (Keeps.ite k5 (allocPosts_keeps _ k5)) h

theorem badFrame_keeps {r : State} (a0) {s : State} (h : Keeps r s) : Keeps r (badFrame a0 s) := by
  unfold badFrame
  extract_lets v4_0
  have k5 : Keeps r v4_0 := State.modMbox_keeps _ _ h
  clear_value v4_0
  exact answer_keeps _ _ _ _ k5

theorem takeMessage_keeps {r : State} (a0) (a1) (a2) {s : State} (h : Keeps r s) : Keeps r (takeMessage a0 a1 a2 s) := by
  induction a2 generalizing s with
  | zero => exact h
  | succ n ih =>
    unfold takeMessage
    extract_lets v
    split
    · rename_i d t rest e
      generalize ht : s.modPortal a1 (fun v => { v with queue := rest, ready := v.ready - 1 }) = taken
      have kt : Keeps r taken := ht ▸ State.modPortal_keeps _ _ h
      exact Keeps.ite (badFrame_keeps _ h) (Keeps.ite (Keeps.ite (ih kt) (badFrame_keeps _ kt)) (Keeps.ite (Keeps.ite
        (acceptCommand_keeps _ _ (State.modMbox_keeps _ _ kt)) (badFrame_keeps _ kt)) (ih (State.modMbox_keeps _ _ kt))))
    · exact h

theorem fabricMessage_keeps {r : State} (a0) {s : State} (h : Keeps r s) : Keeps r (fabricMessage a0 s) := by
  unfold fabricMessage
  extract_lets v4_0 v4_1 v4_2
  exact Keeps.ite (takeMessage_keeps _ _ _ h) h

theorem dropWork_keeps {r : State} {s : State} (h : Keeps r s) : Keeps r (dropWork s) := by
  unfold dropWork
  extract_lets v3_0 v3_1 v3_2 v3_3
  have k7 : Keeps r v3_0 := jobStopped_keeps h
  clear_value v3_0
  have k8 : Keeps r v3_1 := by
    unfold v3_1
    split
    · exact Keeps.ite (State.withConf_same _ rfl rfl k7) k7
    · exact k7
  clear_value v3_1
  have k9 : Keeps r v3_2 := Keeps.ite (State.withTest_keeps _ (stopTests_keeps _ k8)) k8
  clear_value v3_2
  have k10 : Keeps r v3_3 := State.modMaster_keeps _ _ k9
  clear_value v3_3
  exact State.withForeman_same _ rfl k10

theorem resetFabricMailboxes_keeps {r : State} {s : State} (h : Keeps r s) : Keeps r (resetFabricMailboxes s) := by
  unfold resetFabricMailboxes
  exact Keeps.foldl _ _ (fun s3 x3 h3 => (portalReset_keeps _ (portalReset_keeps _ (State.modMbox_keeps _ _ h3)))) h

theorem foremanRestart_keeps {r : State} (a0) {s : State} (h : Keeps r s) : Keeps r (foremanRestart a0 s) := by
  unfold foremanRestart
  extract_lets v4_0 v4_1 v4_2 v4_3 v4_4 v4_5 v4_6 v4_7
  have k12 : Keeps r v4_2 := flagMbx_keeps _ (countStat_keeps _ _ _ (fun s12 h12 => flagMbx_keeps _ h12) h)
  clear_value v4_2
  have k13 : Keeps r v4_3 := logFault_keeps _ _ k12
  clear_value v4_3
  have k14 : Keeps r v4_4 := Keeps.foldl _ _ (fun s14 x14 h14 => (interruptProducer_keeps _ _ h14)) k13
  clear_value v4_4
  have k15 : Keeps r v4_5 := resetFabricMailboxes_keeps (dropWork_keeps k14)
  clear_value v4_5
  have k16 : Keeps r v4_7 := State.withForeman_same _ rfl k15
  clear_value v4_7
  exact Keeps.ite (domSettleAll_keeps (Keeps.ite (logFault_keeps _ _ (flagMbx_keeps _ k16)) k16)) h

theorem restartComplete_keeps {r : State} {s : State} (h : Keeps r s) : Keeps r (restartComplete s) := by
  unfold restartComplete
  extract_lets v3_0
  have k4 : Keeps r v3_0 := by
    unfold v3_0
    refine Keeps.foldl _ _ (fun s4 x4 h4 => ?_) h
    split
    · exact postResponse_keeps _ _ (State.withPower_keeps _ h4)
    · exact h4
  clear_value v3_0
  exact Keeps.ite (State.withForeman_same _ rfl k4) h

theorem loseRamWord_keeps {r : State} (a0) {s : State} (h : Keeps r s) : Keeps r (loseRamWord a0 s) := by
  unfold loseRamWord
  refine Keeps.ite ?_ h
  exact Keeps.setRam h rfl fun w => memWrite_wf ramFill _ _ _ w

theorem lockstep_keeps {r : State} (a0) {s : State} (h : Keeps r s) : Keeps r (lockstep a0 s) := by
  unfold lockstep
  extract_lets v4_0
  refine Keeps.ite h ?_
  refine Keeps.ite ?_ (foremanRestart_keeps _ h)
  refine foremanRestart_keeps _ ?_
  refine loseRamWord_keeps _ ?_
  unfold v4_0
  exact State.takeFree_keeps h

theorem loadWindow_keeps {r : State} (a0) {s : State} (h : Keeps r s) : Keeps r (loadWindow a0 s) := by
  unfold loadWindow
  exact Keeps.ite (State.setField_keeps _ _ _ _ _ (State.setField_keeps _ _ _ _ _ h)) h

theorem stampTick_keeps {r : State} {s : State} (h : Keeps r s) : Keeps r (stampTick s) := by
  unfold stampTick
  extract_lets t
  split
  · refine raiseEvent_keeps _ (Keeps.setClocks h rfl fun g => ?_)
    exact ⟨rfl, Nat.two_pow_pos 64, g.2.2⟩
  · rename_i hl
    refine Keeps.setClocks h rfl fun g => ?_
    obtain ⟨g1, g2, g3⟩ := g
    unfold ClocksSound
    refine ⟨?_, ?_, g3⟩
    · show (s.clocks.stamp + 10) % 10 = 0
      omega
    · show s.clocks.stamp + 10 < 2 ^ 64
      have : ¬ (2 ^ 64 - 6 ≤ s.clocks.stamp) := hl
      omega

theorem sysclkTick_keeps {r : State} {s : State} (h : Keeps r s) : Keeps r (sysclkTick s) := by
  have k : Keeps r ((stampTick s).withFresh fun f => { f with period := [] }) := State.withFresh_keeps _ (stampTick_keeps h)
  have k2 := fun n => (k.same rfl : Keeps r
    { (stampTick s).withFresh fun f => { f with period := [] } with clocks := { (stampTick s).clocks with micro := n } })
  exact Keeps.ite (sumpMicro_keeps (k2 _)) (k2 _)

theorem countClock_keeps {r : State} {s : State} (h : Keeps r s) : Keeps r (countClock s) := by
  unfold countClock
  extract_lets p c t
  have kt : Keeps r t := by
    refine Keeps.setClocks h rfl fun g => ⟨g.1, g.2.1, ?_⟩
    exact Nat.mod_lt _ (Nat.succ_pos 59)
  exact Keeps.ite (sysclkTick_keeps kt) kt

theorem sysTick_keeps {r : State} {s : State} (h : Keeps r s) : Keeps r (sysTick s) := by
  unfold sysTick
  extract_lets v3_0 v3_1 v3_2 v3_3
  have k7 : Keeps r v3_0 := Keeps.ite (wakeActivity_keeps h) h
  clear_value v3_0
  have k8 : Keeps r v3_2 := countClock_keeps (Keeps.ite (sumpClock_keeps (serveReads_keeps k7)) k7)
  clear_value v3_2
  have k9 : Keeps r v3_3 := Keeps.ite (aonTick_keeps k8) k8
  clear_value v3_3
  exact domSettleAll_keeps k9

theorem endPosts_keeps {r : State} {s : State} (h : Keeps r s) : Keeps r (endPosts s) := by
  unfold endPosts
  exact State.withForeman_same _ rfl (refusePosts_keeps _ h)

theorem tick_keeps {r : State} {s : State} (h : Keeps r s) : Keeps r (tick s) := by
  unfold tick
  extract_lets v3_0
  have k4 : Keeps r v3_0 := State.withFresh_keeps _ (endPosts_keeps h)
  clear_value v3_0
  exact Keeps.ite (sysTick_keeps k4) (Keeps.ite k4 (aonTick_keeps k4))

theorem scrubCorrected_keeps {r : State} {s : State} (h : Keeps r s) : Keeps r (scrubCorrected s) := by
  unfold scrubCorrected
  exact flagScrub_keeps _ (countStat_keeps _ _ _ (fun s3 h3 => flagScrub_keeps _ h3) h)

theorem scrubUncorrectable_keeps {r : State} {s : State} (h : Keeps r s) : Keeps r (scrubUncorrectable s) := by
  unfold scrubUncorrectable
  exact flagScrub_keeps _ (countStat_keeps _ _ _ (fun s3 h3 => flagScrub_keeps _ h3) h)

theorem scrubPass_keeps {r : State} (a0) {s : State} (h : Keeps r s) : Keeps r (scrubPass a0 s) := by
  unfold scrubPass
  exact Keeps.ite (flagScrub_keeps _ h) h

theorem visitPocket_keeps {r : State} (a0) {s : State} (h : Keeps r s) : Keeps r (visitPocket a0 s) := by
  unfold visitPocket
  extract_lets v4_0 v4_1
  split
  · exact h
  · extract_lets v11_0 v11_1 v11_2 v11_3 v11_4 v11_5 v11_6 v11_7
    have k19 : Keeps r v11_4 := State.setReg_keeps _ _ _ h
    clear_value v11_4
    have k20 : Keeps r v11_6 := scrubPass_keeps _ k19
    clear_value v11_6
    have k21 : Keeps r v11_7 := by
      unfold v11_7
      split
      · exact State.setRow_keeps _ _ _ k20
      · exact k20
    clear_value v11_7
    split
    · exact k20
    · exact scrubCorrected_keeps (countPocketCorr_keeps k21)
    · exact pocketUncorr_keeps _ (scrubUncorrectable_keeps k20)

theorem visitSump_keeps {r : State} (a0) (a1) {s : State} (h : Keeps r s) : Keeps r (visitSump a0 a1 s) := by
  unfold visitSump
  extract_lets v5_0 v5_1 v5_2 v5_3 v5_4 v5_5 v5_6 v5_7 v5_8
  have k14 : Keeps r v5_1 := State.withSump_keeps _ h
  clear_value v5_1
  have k15 : Keeps r v5_2 := scrubPass_keeps _ (State.setReg_keeps _ _ _ k14)
  clear_value v5_2
  have k16 : Keeps r v5_4 := times_keeps _ _ (fun s16 h16 => scrubCorrected_keeps h16) (times_keeps _ _ (fun s16 h16 =>
    flagSump_keeps _ (countSump_keeps _ _ h16)) k15)
  clear_value v5_4
  have k17 : Keeps r v5_5 := times_keeps _ _ (fun s17 h17 => logFault_keeps _ _ (scrubUncorrectable_keeps h17)) k16
  clear_value v5_5
  have k18 : Keeps r v5_7 := times_keeps _ _ (fun s18 h18 => logFault_keeps _ _ (scrubUncorrectable_keeps h18)) k17
  clear_value v5_7
  have k19 : Keeps r v5_8 := State.modSCell_keeps _ _ k18
  clear_value v5_8
  refine Keeps.ite ?_ h
  refine Keeps.ite k18 ?_
  split
  · exact Keeps.ite k19 (State.modDesc_keeps _ _ k19)
  · exact k19

theorem visitForeman_keeps {r : State} (a0) {s : State} (h : Keeps r s) : Keeps r (visitForeman a0 s) := by
  unfold visitForeman
  extract_lets v4_0 v4_1
  have k6 : Keeps r v4_1 := scrubPass_keeps _ (State.setReg_keeps _ _ _ h)
  clear_value v4_1
  split
  · exact k6
  · exact scrubCorrected_keeps k6
  · exact foremanRestart_keeps _ (loseRamWord_keeps _ (scrubUncorrectable_keeps k6))

theorem visitCrusher_keeps {r : State} (a0) {s : State} (h : Keeps r s) : Keeps r (visitCrusher a0 s) := by
  unfold visitCrusher
  extract_lets v4_0
  split
  · exact h
  · extract_lets v10_0 v10_1 v10_2 v10_3 v10_4 v10_5 v10_6
    have k17 : Keeps r v10_5 := State.setReg_keeps _ _ _ h
    clear_value v10_5
    have k18 : Keeps r v10_6 := scrubPass_keeps _ k17
    clear_value v10_6
    split
    · exact k18
    · exact scrubCorrected_keeps k18
    · exact haltClient_keeps _ _ (scrubUncorrectable_keeps k18)

theorem nextVisit_keeps {r : State} (a0) (a1) {s : State} (h : Keeps r s) : Keeps r (nextVisit a0 a1 s) := by
  unfold nextVisit
  extract_lets v5_0 v5_1 v5_2
  exact Keeps.ite h (Keeps.same h rfl)

theorem scrubVisit_keeps {r : State} (a0) (a1) (a2) {s : State} (h : Keeps r s) : Keeps r (scrubVisit a0 a1 a2 s) := by
  unfold scrubVisit
  extract_lets v6_0
  refine Keeps.ite ?_ h
  refine nextVisit_keeps _ _ ?_
  split
  · exact visitPocket_keeps _ h
  · exact visitSump_keeps _ _ h
  · exact visitForeman_keeps _ h
  · exact visitCrusher_keeps _ h

theorem voteCorrect_keeps {r : State} (a0) (a1) (a2) (a3) {s : State} (h : Keeps r s) : Keeps r (voteCorrect a0 a1 a2 a3 s) :=
    by
  unfold voteCorrect
  extract_lets v7_0 v7_1 v7_2 v7_3 v7_4 v7_5 v7_6 v7_7 v7_8 v7_9 v7_10
  have k18 : Keeps r v7_9 := State.setReg_keeps _ _ _ h
  clear_value v7_9
  have k19 : Keeps r v7_10 := Keeps.ite k18 (flagScrub_keeps _ k18)
  clear_value v7_10
  exact Keeps.ite (Keeps.ite k19 (logFault_keeps _ _ (flagScrub_keeps _ (countMany_keeps _ _ _ _ (fun s20 h20 =>
    flagScrub_keeps _ h20) k19)))) h

theorem fabricEvent_keeps {r : State} (a0) {s : State} (h : Keeps r s) : Keeps r (fabricEvent a0 s) := by
  unfold fabricEvent
  refine Keeps.ite ?_ h
  split
  · exact offerEvent_keeps _ _ (State.setAttAck_keeps _ _ h)
  · exact h

theorem historyCopy_keeps {r : State} {s : State} (h : Keeps r s) : Keeps r (historyCopy s) := by
  unfold historyCopy
  refine Keeps.ite ?_ h
  split
  · rename_i n t rest e
    refine Keeps.setQueue h rfl fun g => ?_
    rw [e] at g
    simp only [List.length_cons] at g
    show rest.length ≤ 32
    omega
  · exact h

theorem freeMod_keeps {r : State} (a0) {s : State} (h : Keeps r s) : Keeps r (freeMod a0 s).2 :=
  h.same rfl

theorem paramGet_keeps {r : State} (a0) (a1) {s : State} (h : Keeps r s) : Keeps r (paramGet a0 a1 s).2 := by
  unfold paramGet
  split
  · exact Keeps.mkSnd h
  · exact Keeps.mkSnd h
  · exact Keeps.mkSnd h
  · exact Keeps.mkSnd h
  · exact Keeps.mkSnd h
  · exact Keeps.mkSnd h
  · exact Keeps.mkSnd h
  · exact Keeps.mkSnd h
  · split
    · exact Keeps.mkSnd h
    · exact Keeps.mkSnd h
    · exact Keeps.mkSnd h
    · exact freeMod_keeps _ h
  · exact Keeps.mkSnd h
  · exact Keeps.mkSnd h
  · exact freeMod_keeps _ h

theorem paramSet_keeps {r : State} (a0) (a1) {s : State} (h : Keeps r s) : Keeps r (paramSet a0 a1 s) := by
  unfold paramSet
  extract_lets v5_0 v5_1
  split
  · exact State.withForeman_same _ rfl h
  · exact switchOwner_keeps _ _ _ (fun s11 h11 => State.modPin_keeps _ _ _ h11) h
  · exact State.withForeman_same _ rfl h
  · exact State.withForeman_same _ rfl h
  · exact h

theorem cmdGet_keeps {r : State} (a0) (a1) {s : State} (h : Keeps r s) : Keeps r (cmdGet a0 a1 s) := by
  unfold cmdGet
  extract_lets v5_0 v5_1
  split
  · refine answer_keeps _ _ _ _ ?_
    exact h
  · refine answer_keeps _ _ _ _ ?_
    unfold v5_1
    refine Keeps.foldlSnd _ _ (fun a x ha => ?_) h
    exact paramGet_keeps _ _ ha

theorem cmdSet_keeps {r : State} (a0) (a1) {s : State} (h : Keeps r s) : Keeps r (cmdSet a0 a1 s) := by
  unfold cmdSet
  extract_lets v5_0 v5_1
  split
  · exact answer_keeps _ _ _ _ h
  · exact answer_keeps _ _ _ _ (Keeps.foldl _ _ (fun s11 x11 h11 => (paramSet_keeps _ _ h11)) h)

theorem cmdParamInfo_keeps {r : State} (a0) (a1) {s : State} (h : Keeps r s) : Keeps r (cmdParamInfo a0 a1 s) := by
  unfold cmdParamInfo
  extract_lets v5_0 v5_1 v5_2 v5_3
  exact Keeps.ite (answer_keeps _ _ _ _ h) (answer_keeps _ _ _ _ h)

theorem cmdPing_keeps {r : State} (a0) (a1) {s : State} (h : Keeps r s) : Keeps r (cmdPing a0 a1 s) := by
  unfold cmdPing
  exact answer_keeps _ _ _ _ h

theorem cmdGetStatus_keeps {r : State} (a0) (a1) {s : State} (h : Keeps r s) : Keeps r (cmdGetStatus a0 a1 s) := by
  unfold cmdGetStatus
  exact answer_keeps _ _ _ _ h

theorem cmdFwInfo_keeps {r : State} (a0) (a1) {s : State} (h : Keeps r s) : Keeps r (cmdFwInfo a0 a1 s) := by
  unfold cmdFwInfo
  exact answer_keeps _ _ _ _ h

theorem abortCommand_keeps {r : State} (a0) {s : State} (h : Keeps r s) : Keeps r (abortCommand a0 s) := by
  unfold abortCommand
  split
  · exact answer_keeps _ _ _ _ h
  · exact answer_keeps _ _ _ _ (jobStopped_keeps h)
  · exact answer_keeps _ _ _ _ (State.withTest_keeps _ (stopTests_keeps _ h))
  · exact answer_keeps _ _ _ _ (flagCfg_keeps _ (setPart_keeps _ _ _ (State.withConf_same _ rfl rfl h)))
  · exact copyStop_keeps h
  · exact h

theorem cmdAbort_keeps {r : State} (a0) (a1) {s : State} (h : Keeps r s) : Keeps r (cmdAbort a0 a1 s) := by
  unfold cmdAbort
  extract_lets v5_0 v5_1
  exact Keeps.ite (answer_keeps _ _ _ _ h) (Keeps.ite (answer_keeps _ _ _ _ (abortCommand_keeps _ h)) (answer_keeps _ _ _ _
    h))

theorem stageOk_keeps {r : State} (a0) {s : State} (h : Keeps r s) : Keeps r (stageOk a0 s) :=
  h.same rfl

theorem cmdDomainDown_keeps {r : State} (a0) (a1) (a2) {s : State} (h : Keeps r s) : Keeps r (cmdDomainDown a0 a1 a2 s) := by
  unfold cmdDomainDown
  extract_lets v6_0
  exact Keeps.ite (answer_keeps _ _ _ _ h) (Keeps.ite (answer_keeps _ _ _ _ h) (Keeps.ite (answer_keeps _ _ _ _ h)
    (domDown_keeps _ _ _ (stageOk_keeps _ (beginWork_keeps _ _ h)))))

theorem cmdDomainUp_keeps {r : State} (a0) (a1) {s : State} (h : Keeps r s) : Keeps r (cmdDomainUp a0 a1 s) := by
  unfold cmdDomainUp
  extract_lets v5_0
  exact Keeps.ite (answer_keeps _ _ _ _ h) (Keeps.ite (answer_keeps _ _ _ _ h) (putDom_keeps _ _ (stageOk_keeps _
    (beginWork_keeps _ _ h))))

theorem cmdDomainResume_keeps {r : State} (a0) (a1) {s : State} (h : Keeps r s) : Keeps r (cmdDomainResume a0 a1 s) := by
  unfold cmdDomainResume
  extract_lets v5_0 v5_1 v5_2 v5_3
  have k9 : Keeps r v5_1 := domResume_keeps _ h
  clear_value v5_1
  exact Keeps.ite (answer_keeps _ _ _ _ h) (answer_keeps _ _ _ _ k9)

theorem cmdSetMode_keeps {r : State} (a0) (a1) (a2) {s : State} (h : Keeps r s) : Keeps r (cmdSetMode a0 a1 a2 s) := by
  unfold cmdSetMode
  extract_lets v6_0
  split
  · exact answer_keeps _ _ _ _ h
  · extract_lets v12_0
    exact Keeps.ite (answer_keeps _ _ _ _ h) (Keeps.ite (answer_keeps _ _ _ _ h) (Keeps.ite (answer_keeps _ _ _ _ h)
      (Keeps.ite (answer_keeps _ _ _ _ h) (Keeps.ite (answer_keeps _ _ _ _ h) (modeEntry_keeps _ (answer_keeps _ _ _ _
      h))))))

theorem cmdCavernReinit_keeps {r : State} (a0) (a1) {s : State} (h : Keeps r s) : Keeps r (cmdCavernReinit a0 a1 s) := by
  unfold cmdCavernReinit
  extract_lets v5_0
  exact Keeps.ite (answer_keeps _ _ _ _ (clearCause_keeps _ _ h)) (answer_keeps _ _ _ _ h)

theorem cmdCavernRevert_keeps {r : State} (a0) (a1) {s : State} (h : Keeps r s) : Keeps r (cmdCavernRevert a0 a1 s) := by
  unfold cmdCavernRevert
  exact Keeps.ite h (revertCavern_keeps _ _ h)

theorem cmdSealedLoad_keeps {r : State} (a0) (a1) {s : State} (h : Keeps r s) : Keeps r (cmdSealedLoad a0 a1 s) := by
  unfold cmdSealedLoad
  extract_lets v5_0 v5_1 v5_2
  exact Keeps.ite h (sealedBegin_keeps _ _ _ _ (beginWork_keeps _ _ h))

theorem cmdStoreWrite_keeps {r : State} (a0) (a1) {s : State} (h : Keeps r s) : Keeps r (cmdStoreWrite a0 a1 s) := by
  unfold cmdStoreWrite
  extract_lets v5_0 v5_1 v5_2 v5_3
  exact Keeps.ite (answer_keeps _ _ _ _ h) (Keeps.ite (answer_keeps _ _ _ _ h) (beginWork_keeps _ _ (State.withConf_same _
    rfl rfl h)))

theorem seqAfter_keeps {r : State} (a0) (a1) {s : State} (h : Keeps r s) : Keeps r (seqAfter a0 a1 s).2 := by
  unfold seqAfter
  split
  · exact Keeps.mkSnd h
  · exact Keeps.mkSnd h
  · exact freeMod_keeps _ h

theorem nextSeq_keeps {r : State} {s : State} (h : Keeps r s) : Keeps r (nextSeq s).2 := by
  exact seqAfter_keeps _ _ h

theorem commitAfter_keeps {r : State} (a0) (a1) (a2) (a3) {s : State} (h : Keeps r s) : Keeps r (commitAfter a0 a1 a2 a3 s) :=
    by
  have hk : ∀ len n, Keeps r n.2 → Keeps r (commitBegin a0 a1 a2 len n) := fun _ _ hn =>
    beginWork_keeps _ _ (State.withConf_same _ rfl rfl hn)
  unfold commitAfter
  split
  · exact answer_keeps _ _ _ _ h
  · exact hk _ _ (nextSeq_keeps h)

theorem cmdStoreCommit_keeps {r : State} (a0) (a1) {s : State} (h : Keeps r s) : Keeps r (cmdStoreCommit a0 a1 s) := by
  unfold cmdStoreCommit
  extract_lets v5_0
  exact commitAfter_keeps _ _ _ _ h

theorem storeDone_keeps {r : State} (a0) {s : State} (h : Keeps r s) : Keeps r (storeDone a0 s) := by
  unfold storeDone
  split
  · extract_lets v9_0 v9_1 v9_2
    have k12 : Keeps r v9_1 := Keeps.setStore h rfl fun w => memWrite_wf storeFill _ _ _ w
    clear_value v9_1
    have k13 : Keeps r v9_2 := Keeps.setStore k12 rfl fun w => memWrite_wf storeFill _ _ _ w
    clear_value v9_2
    refine Keeps.ite ?_ ?_
    · exact h
    · refine Keeps.ite ?_ ?_
      · split
        · refine answer_keeps _ _ _ _ ?_
          exact k12
        · refine answer_keeps _ _ _ _ ?_
          refine flagCfg_keeps _ ?_
          exact k13
      · refine answer_keeps _ _ _ _ ?_
        refine jobLost_keeps ?_
        exact h
  · exact h

theorem cmdCrCounters_keeps {r : State} (a0) (a1) {s : State} (h : Keeps r s) : Keeps r (cmdCrCounters a0 a1 s) := by
  unfold cmdCrCounters
  extract_lets v5_0 v5_1 v5_2 v5_3 v5_4
  have k10 : Keeps r v5_4 := Keeps.ite (State.setCtx_keeps _ _ _ _ (State.setCtx_keeps _ _ _ _ (State.setCtx_keeps _ _ _ _
    (State.setCtx_keeps _ _ _ _ h)))) h
  clear_value v5_4
  exact answer_keeps _ _ _ _ k10

theorem cmdCrReinit_keeps {r : State} (a0) (a1) {s : State} (h : Keeps r s) : Keeps r (cmdCrReinit a0 a1 s) := by
  unfold cmdCrReinit
  extract_lets v5_0 v5_1 v5_2 v5_3 v5_4
  have k10 : Keeps r v5_4 := State.withCrushers_keeps _ (loadContext_keeps _ _ h)
  clear_value v5_4
  exact Keeps.ite (answer_keeps _ _ _ _ k10) (answer_keeps _ _ _ _ h)

theorem cmdQFlush_keeps {r : State} (a0) (a1) {s : State} (h : Keeps r s) : Keeps r (cmdQFlush a0 a1 s) := by
  unfold cmdQFlush
  exact answer_keeps _ _ _ _ (flushQueue_keeps _ h)

theorem cmdQDesc_keeps {r : State} (a0) (a1) {s : State} (h : Keeps r s) : Keeps r (cmdQDesc a0 a1 s) := by
  unfold cmdQDesc
  extract_lets v5_0
  refine answer_keeps _ _ _ _ ?_
  unfold v5_0
  exact descWords_keeps _ h

theorem cmdQCounters_keeps {r : State} (a0) (a1) {s : State} (h : Keeps r s) : Keeps r (cmdQCounters a0 a1 s) := by
  unfold cmdQCounters
  extract_lets v5_0 v5_1 v5_2
  have k8 : Keeps r v5_2 := Keeps.ite (State.modQueue_keeps _ _ h) h
  clear_value v5_2
  exact answer_keeps _ _ _ _ k8

theorem cmdRamWrite_keeps {r : State} (a0) (a1) {s : State} (h : Keeps r s) : Keeps r (cmdRamWrite a0 a1 s) := by
  unfold cmdRamWrite
  extract_lets
  refine answer_keeps _ _ _ _ ?_
  exact Keeps.setRam h rfl fun w => memWrite_wf ramFill _ _ _ w

theorem cmdRamRead_keeps {r : State} (a0) (a1) {s : State} (h : Keeps r s) : Keeps r (cmdRamRead a0 a1 s) := by
  unfold cmdRamRead
  extract_lets v5_0 v5_1
  exact answer_keeps _ _ _ _ h

theorem cmdHaulCopy_keeps {r : State} (a0) (a1) {s : State} (h : Keeps r s) : Keeps r (cmdHaulCopy a0 a1 s) := by
  unfold cmdHaulCopy
  extract_lets v5_0
  exact Keeps.ite (answer_keeps _ _ _ _ h) (beginWork_keeps _ _ (requestAhead_keeps _ (State.modMaster_keeps _ _ h)))

theorem foremanSlot_keeps {r : State} {s : State} (h : Keeps r s) : Keeps r (foremanSlot s) := by
  unfold foremanSlot
  extract_lets v3_0 v3_1
  have k5 : Keeps r v3_0 := masterBeat_keeps _ h
  clear_value v3_0
  exact Keeps.ite k5 (domSettleAll_keeps (Keeps.ite (copyEnd_keeps _ k5) (Keeps.ite (copyEnd_keeps _ k5) (Keeps.ite
    (copyEnd_keeps _ k5) k5))))

theorem cmdBistRun_keeps {r : State} (a0) (a1) {s : State} (h : Keeps r s) : Keeps r (cmdBistRun a0 a1 s) := by
  unfold cmdBistRun
  extract_lets v5_0 v5_1 v5_2
  exact Keeps.ite h (Keeps.ite (answer_keeps _ _ _ _ h) (testRun_keeps _ _ _ _ _ (beginWork_keeps _ _ h)))

theorem cmdFaultLog_keeps {r : State} (a0) (a1) {s : State} (h : Keeps r s) : Keeps r (cmdFaultLog a0 a1 s) := by
  unfold cmdFaultLog
  extract_lets v5_0 v5_1 v5_2 v5_3
  exact answer_keeps _ _ _ _ h

end Sys2Proof.Machine
end

