-- ==== Sys2Proof/Laws/KeepsHost.lean ====
section
/-! SUPPORT. What the host ports, the test access port, Patrol and the pins keep: one lemma for each operation, cited in place of unfolding it. -/

namespace Sys2Proof.Machine

theorem readEffect_keeps {r : State} (a0) (a1) (a2) {s : State} (h : Keeps r s) : Keeps r (readEffect a0 a1 a2 s) := by
  unfold readEffect
  split
  · exact State.modPort_keeps _ _ h
  · exact State.modPort_keeps _ _ h
  · exact State.modPort_keeps _ _ h
  · exact State.setReg_keeps _ _ _ h
  · exact Keeps.ite h (State.setReg_keeps _ _ _ h)

theorem hostRead_keeps {r : State} (a0) (a1) {s : State} (h : Keeps r s) : Keeps r (hostRead a0 a1 s) := by
  unfold hostRead
  extract_lets v5_0 v5_1 v5_2
  have k8 : Keeps r v5_1 := refusePosts_keeps _ h
  clear_value v5_1
  have k9 : ∀ y0 s, Keeps r s → Keeps r (v5_2 y0 s) := by
    intro y010 s10 h10
    unfold v5_2
    exact State.modPort_keeps _ _ h10
  clear_value v5_2
  split
  · exact Keeps.ite (k9 _ _ k8) (holdAccess_keeps _ _ _ k8)
  · exact k9 _ _ k8
  · exact k9 _ _ (noteAccess_keeps _ _ _ k8)
  · split
    · split
      rename_i _ _ m25_2 m25_3
      have k25 : Keeps r m25_2 := Keeps.ofPair m25_3 (State.takeFree_keeps k8)
      exact k9 _ _ k25
    · exact k9 _ _ (readEffect_keeps _ _ _ k8)
    · exact k9 _ _ k8

theorem releaseClient_keeps {r : State} (a0) (a1) {s : State} (h : Keeps r s) : Keeps r (releaseClient a0 a1 s) := by
  unfold releaseClient
  extract_lets v5_0
  have k6 : Keeps r v5_0 := Keeps.foldl _ _ (fun s6 x6 h6 => (portalReset_keeps _ h6)) h
  clear_value v5_0
  exact Keeps.ite (State.withCrushers_keeps _ k6) h

theorem holdWrite_keeps {r : State} (a0) (a1) (a2) {s : State} (h : Keeps r s) : Keeps r (holdWrite a0 a1 a2 s) := by
  unfold holdWrite
  extract_lets v6_0 v6_1
  have k8 : Keeps r v6_1 := State.setReg_keeps _ _ _ h
  clear_value v6_1
  exact Keeps.foldl _ _ (fun s9 x9 h9 => (Keeps.ite (releaseClient_keeps _ _ h9) h9)) k8

theorem takeField_keeps {r : State} (a0) (a1) (a2) (a3) (a4) {s : State} (h : Keeps r s) : Keeps r (takeField a0 a1 a2 a3 a4
    s) :=
  h.same rfl

theorem pwrCtrlWrite_keeps {r : State} (a0) {s : State} (h : Keeps r s) : Keeps r (pwrCtrlWrite a0 s) := by
  unfold pwrCtrlWrite
  extract_lets v4_0
  have k5 : Keeps r v4_0 := takeField_keeps _ _ _ _ _ h
  clear_value v4_0
  exact Keeps.ite (takeField_keeps _ _ _ _ _ k5) k5

theorem gaugeWrite_keeps {r : State} (a0) {s : State} (h : Keeps r s) : Keeps r (gaugeWrite a0 s) := by
  unfold gaugeWrite
  extract_lets v4_0 v4_1 v4_2 v4_3
  have k8 : Keeps r v4_1 := takeField_keeps _ _ _ _ _ (takeField_keeps _ _ _ _ _ h)
  clear_value v4_1
  have k9 : Keeps r v4_2 := Keeps.ite k8 (takeField_keeps _ _ _ _ _ k8)
  clear_value v4_2
  have k10 : Keeps r v4_3 := Keeps.ite (Keeps.foldl _ _ (fun s10 x10 h10 => (gaugeStop_keeps _ h10)) k9) k9
  clear_value v4_3
  exact Keeps.ite (gaugeMaxClear_keeps k10) k10

theorem padpolWrite_keeps {r : State} (a0) {s : State} (h : Keeps r s) : Keeps r (padpolWrite a0 s) := by
  unfold padpolWrite
  exact Keeps.foldl _ _ (fun s4 x4 h4 => (Keeps.ite h4 (takeField_keeps _ _ _ _ _ h4))) h

theorem patrolCtrlWrite_keeps {r : State} (a0) {s : State} (h : Keeps r s) : Keeps r (patrolCtrlWrite a0 s) := by
  unfold patrolCtrlWrite
  extract_lets v4_0
  exact Keeps.ite (patrolControl_keeps _ h) h

theorem patrolCfgWrite_keeps {r : State} (a0) (a1) {s : State} (h : Keeps r s) : Keeps r (patrolCfgWrite a0 a1 s) := by
  unfold patrolCfgWrite
  extract_lets v5_0 v5_1
  exact Keeps.ite (sensorWrite_keeps _ _ h) h

theorem pmaCtrlWrite_keeps {r : State} (a0) (a1) {s : State} (h : Keeps r s) : Keeps r (pmaCtrlWrite a0 a1 s) := by
  unfold pmaCtrlWrite
  extract_lets v5_0
  have k6 : Keeps r v5_0 := loopWrite_keeps _ _ (takeField_keeps _ _ _ _ _ h)
  clear_value v5_0
  exact Keeps.ite (relockWrite_keeps _ k6) k6

theorem patCtrlWrite_keeps {r : State} (a0) (a1) {s : State} (h : Keeps r s) : Keeps r (patCtrlWrite a0 a1 s) := by
  unfold patCtrlWrite
  extract_lets v5_0 v5_1 v5_2
  have k8 : Keeps r v5_0 := takeField_keeps _ _ _ _ _ (takeField_keeps _ _ _ _ _ h)
  clear_value v5_0
  have k9 : Keeps r v5_1 := chkWrite_keeps _ _ (genWrite_keeps _ _ k8)
  clear_value v5_1
  have k10 : Keeps r v5_2 := Keeps.ite (patClear_keeps _ k9) k9
  clear_value v5_2
  exact Keeps.ite (inject_keeps _ k10) k10

theorem linkCtrlWrite_keeps {r : State} (a0) (a1) {s : State} (h : Keeps r s) : Keeps r (linkCtrlWrite a0 a1 s) := by
  unfold linkCtrlWrite
  extract_lets v5_0 v5_1
  have k7 : Keeps r v5_0 := Keeps.ite (disableWrite_keeps _ h) (enableWrite_keeps _ h)
  clear_value v5_0
  have k8 : Keeps r v5_1 := Keeps.ite (linkResetWrite_keeps _ k7) k7
  clear_value v5_1
  exact Keeps.ite (retrainWrite_keeps _ k8) k8

theorem hchCtrlWrite_keeps {r : State} (a0) (a1) {s : State} (h : Keeps r s) : Keeps r (hchCtrlWrite a0 a1 s) := by
  unfold hchCtrlWrite
  extract_lets v5_0 v5_1
  have k7 : Keeps r v5_0 := Keeps.ite (haulerStart_keeps _ h) h
  clear_value v5_0
  have k8 : Keeps r v5_1 := Keeps.ite (haulerResume_keeps _ k7) k7
  clear_value v5_1
  exact Keeps.ite (haulerStop_keeps _ k8) k8

theorem qcmdWrite_keeps {r : State} (a0) {s : State} (h : Keeps r s) : Keeps r (qcmdWrite a0 s) := by
  unfold qcmdWrite
  extract_lets v4_0 v4_1
  have k6 : Keeps r v4_1 := Keeps.ite (recoverClear_keeps _ h) h
  clear_value v4_1
  exact Keeps.ite (flushQueue_keeps _ k6) k6

theorem writeReg_keeps {r : State} (a0) (a1) (a2) (a3) {s : State} (h : Keeps r s) : Keeps r (writeReg a0 a1 a2 a3 s) := by
  unfold writeReg
  split
  · exact Keeps.ite (postWrite_keeps _ _ h) (State.modPort_keeps _ _ h)
  · exact Keeps.foldl _ _ (fun s8 x8 h8 => (Keeps.ite (releaseMailbox_keeps _ h8) h8)) h
  · exact Keeps.ite (State.setField_keeps _ _ _ _ _ h) h
  · exact pwrCtrlWrite_keeps _ h
  · exact pointWrite_keeps _ h
  · exact vccfWrite_keeps _ h
  · exact quietMvWrite_keeps _ h
  · exact padRelease_keeps _ h
  · exact gaugeWrite_keeps _ h
  · exact gaugeOverWrite_keeps _ _ h
  · exact padpolWrite_keeps _ h
  · exact Keeps.ite (reprogWrite_keeps _ h) h
  · exact streamWord_keeps _ _ h
  · extract_lets v8_0
    exact Keeps.ite (State.setField_keeps _ _ _ _ _ h) h
  · exact pmaCtrlWrite_keeps _ _ h
  · exact eqWrite_keeps _ _ h
  · exact patCtrlWrite_keeps _ _ h
  · exact marginWrite_keeps _ _ h
  · exact linkCtrlWrite_keeps _ _ h
  · exact qcmdWrite_keeps _ h
  · exact hchCtrlWrite_keeps _ _ h
  · exact holdWrite_keeps _ _ _ h
  · exact holdWrite_keeps _ _ _ h
  · exact holdWrite_keeps _ _ _ h
  · exact holdWrite_keeps _ _ _ h
  · exact patrolCtrlWrite_keeps _ h
  · exact patrolCfgWrite_keeps _ _ h
  · exact codedWrite_keeps _ _ _ h

theorem sleepingWrite_keeps {r : State} (a0) (a1) (a2) {s : State} (h : Keeps r s) : Keeps r (sleepingWrite a0 a1 a2 s) := by
  unfold sleepingWrite
  refine Keeps.ite ?_ h
  split
  · exact writeReg_keeps _ _ _ _ h
  · exact writeReg_keeps _ _ _ _ h
  · exact holdAccess_keeps _ _ _ h

theorem hostWrite_keeps {r : State} (a0) (a1) (a2) {s : State} (h : Keeps r s) : Keeps r (hostWrite a0 a1 a2 s) := by
  unfold hostWrite
  extract_lets v6_0
  split
  · exact sleepingWrite_keeps _ _ _ h
  · exact h
  · exact noteAccess_keeps _ _ _ h
  · split
    · exact noteReserved_keeps _ _ _ _ (writeReg_keeps _ _ _ _ (noteWrite_keeps _ _ h))
    · exact noteAccess_keeps _ _ _ h

theorem resumeAccesses_keeps {r : State} {s : State} (h : Keeps r s) : Keeps r (resumeAccesses s) := by
  unfold resumeAccesses
  refine Keeps.foldl _ _ (fun s3 x3 h3 => ?_) (State.withPower_keeps _ h)
  extract_lets v6_0 v6_1
  have k8 : Keeps r v6_0 := by
    unfold v6_0
    split
    · exact hostWrite_keeps _ _ _ h3
    · exact hostRead_keeps _ _ h3
  clear_value v6_0
  exact Keeps.ite (Keeps.same k8 rfl) k8

theorem State.withJtag_keeps {r : State} {s : State} (a0) (h : Keeps r s) : Keeps r (State.withJtag s a0) :=
  h.same rfl

theorem takeBanks_keeps {r : State} {s : State} (h : Keeps r s) : Keeps r (takeBanks s) := by
  unfold takeBanks
  exact Keeps.foldl _ _ (fun s3 x3 h3 => (setDebug_keeps _ _ h3)) h

theorem presentDebug_keeps {r : State} {s : State} (h : Keeps r s) : Keeps r (presentDebug s) := by
  unfold presentDebug
  exact Keeps.foldl _ _ (fun s3 x3 h3 => (Keeps.ite (releaseKeeper_keeps _ _ h3) h3)) h

theorem loadIr_keeps {r : State} (a0) {s : State} (h : Keeps r s) : Keeps r (loadIr a0 s) := by
  unfold loadIr
  extract_lets v4_0
  have k5 : Keeps r v4_0 := takeBanks_keeps (State.withJtag_keeps _ h)
  clear_value v4_0
  exact Keeps.ite (Keeps.ite (Keeps.ite (presentDebug_keeps k5) k5) (dropDebug_keeps (State.withJtag_keeps _ h)))
    (dropDebug_keeps (State.withJtag_keeps _ h))

theorem tapReset_keeps {r : State} {s : State} (h : Keeps r s) : Keeps r (tapReset s) := by
  unfold tapReset
  exact dropDebug_keeps (State.withJtag_keeps _ h)

theorem regacc_keeps {r : State} (a0) {s : State} (h : Keeps r s) : Keeps r (regacc a0 s) := by
  unfold regacc
  extract_lets v4_0 v4_1 v4_2 v4_3 v4_4
  have k9 : Keeps r v4_0 := loadIr_keeps _ h
  clear_value v4_0
  have k10 : Keeps r v4_3 := hostRead_keeps _ _ k9
  clear_value v4_3
  exact Keeps.ite (State.withJtag_keeps _ (hostWrite_keeps _ _ _ k9)) (State.withJtag_keeps _ k10)

theorem jtagImageWord_keeps {r : State} (a0) {s : State} (h : Keeps r s) : Keeps r (jtagImageWord a0 s) := by
  unfold jtagImageWord
  extract_lets v4_0
  have k5 : Keeps r v4_0 := loadIr_keeps _ h
  clear_value v4_0
  exact Keeps.ite (streamWord_keeps _ _ k5) k5

theorem otpFinish_keeps {r : State} {s : State} (h : Keeps r s) : Keeps r (otpFinish s) := by
  unfold otpFinish
  split
  · rename_i i w e
    exact Keeps.orOtp h i w rfl
  · exact h

theorem otpProg_keeps {r : State} (a0) {s : State} (h : Keeps r s) : Keeps r (otpProg a0 s) := by
  unfold otpProg
  extract_lets v4_0 v4_1
  have k6 : Keeps r v4_0 := loadIr_keeps _ h
  clear_value v4_0
  exact Keeps.ite (State.withJtag_keeps _ (State.withConf_same _ rfl rfl (otpFinish_keeps k6))) k6

theorem debugMask_keeps {r : State} (a0) {s : State} (h : Keeps r s) : Keeps r (debugMask a0 s) := by
  unfold debugMask
  extract_lets v4_0
  have k5 : Keeps r v4_0 := loadIr_keeps _ h
  clear_value v4_0
  exact Keeps.ite (State.withJtag_keeps _ k5) k5

theorem boundaryUpdate_keeps {r : State} (a0) (a1) {s : State} (h : Keeps r s) : Keeps r (boundaryUpdate a0 a1 s) := by
  unfold boundaryUpdate
  exact Keeps.ite (presentDebug_keeps (State.withJtag_keeps _ h)) h

theorem patrolPeriod_keeps {r : State} {s : State} (h : Keeps r s) : Keeps r (patrolPeriod s) := by
  unfold patrolPeriod
  extract_lets v3_0 v3_1 v3_2 v3_3
  have k7 : Keeps r v3_1 := State.setReg_keeps _ _ _ h
  clear_value v3_1
  have k8 : Keeps r v3_2 := Keeps.ite (flagPwr_keeps _ k7) k7
  clear_value v3_2
  exact Keeps.ite (Keeps.same k8 rfl) h

theorem modSensor_keeps {r : State} (a0) (a1) {s : State} (h : Keeps r s) : Keeps r (modSensor a0 a1 s) :=
  h.same rfl

theorem patrolFound_keeps {r : State} (a0) (a1) {s : State} (h : Keeps r s) : Keeps r (patrolFound a0 a1 s) := by
  unfold patrolFound
  extract_lets v5_0
  have k6 : Keeps r v5_0 := flagPatrol_keeps _ _ h
  clear_value v5_0
  exact Keeps.ite (wakeLatch_keeps _ k6) k6

theorem validSample_keeps {r : State} (a0) (a1) {s : State} (h : Keeps r s) : Keeps r (validSample a0 a1 s) := by
  unfold validSample
  extract_lets v5_0 v5_1 v5_2 v5_3 v5_4 v5_5 v5_6 v5_7 v5_8 v5_9 v5_10 v5_11 v5_12 v5_13 v5_14 v5_15 v5_16 v5_17
  have k23 : Keeps r v5_14 := State.setReg_keeps _ _ _ h
  clear_value v5_14
  have k24 : Keeps r v5_15 := modSensor_keeps _ _ k23
  clear_value v5_15
  have k25 : Keeps r v5_16 := Keeps.ite (patrolFound_keeps _ _ k24) k24
  clear_value v5_16
  have k26 : Keeps r v5_17 := Keeps.ite (patrolFound_keeps _ _ k25) k25
  clear_value v5_17
  exact Keeps.ite (flagPatrol_keeps _ _ k26) k26

theorem patrolSample_keeps {r : State} (a0) (a1) {s : State} (h : Keeps r s) : Keeps r (patrolSample a0 a1 s) := by
  unfold patrolSample
  extract_lets v5_0 v5_1 v5_2
  have k8 : Keeps r v5_2 := Keeps.same h rfl
  clear_value v5_2
  exact Keeps.ite (Keeps.ite (flagPatrol_keeps _ _ (modSensor_keeps _ _ k8)) (validSample_keeps _ _ k8)) h

theorem bankInvalid_keeps {r : State} (a0) {s : State} (h : Keeps r s) : Keeps r (bankInvalid a0 s) := by
  unfold bankInvalid
  exact Keeps.ite h (flagPin_keeps _ (State.modBank_keeps _ _ h))

theorem bankValid_keeps {r : State} (a0) (a1) {s : State} (h : Keeps r s) : Keeps r (bankValid a0 a1 s) := by
  unfold bankValid
  exact Keeps.ite h (State.modBank_keeps _ _ h)

theorem pinOutput_keeps {r : State} (a0) (a1) {s : State} (h : Keeps r s) : Keeps r (pinOutput a0 a1 s) := by
  unfold pinOutput
  extract_lets v5_0
  refine Keeps.ite ?_ h
  split
  · extract_lets v11_0 v11_1
    have k13 : Keeps r v11_0 := releaseKeeper_keeps _ _ (State.modPin_keeps _ _ _ h)
    clear_value v11_0
    have k14 : Keeps r v11_1 := Keeps.ite (Keeps.ite (captureKeeper_keeps _ _ k13) h) k13
    clear_value v11_1
    exact gateProgress_keeps (State.setAttAck_keeps _ _ k14)
  · exact h

theorem levelSample_keeps {r : State} (a0) (a1) (a2) {s : State} (h : Keeps r s) : Keeps r (levelSample a0 a1 a2 s) := by
  unfold levelSample
  exact Keeps.ite (offerSample_keeps _ _ _ h) h

theorem countPinLost_keeps {r : State} {s : State} (h : Keeps r s) : Keeps r (countPinLost s) := by
  unfold countPinLost
  exact countStat_keeps _ _ _ (fun s3 h3 => flagPin_keeps _ h3) h

theorem pinOverrun_keeps {r : State} (a0) (a1) {s : State} (h : Keeps r s) : Keeps r (pinOverrun a0 a1 s) := by
  unfold pinOverrun
  extract_lets v5_0
  have k6 : Keeps r v5_0 := Keeps.ite (State.setBits_keeps _ _ _ h) (State.setBits_keeps _ _ _ h)
  clear_value v5_0
  exact flagPin_keeps _ (countPinLost_keeps k6)

theorem strobeEdge_keeps {r : State} (a0) (a1) (a2) (a3) {s : State} (h : Keeps r s) : Keeps r (strobeEdge a0 a1 a2 a3 s) :=
    by
  unfold strobeEdge
  exact Keeps.foldl _ _ (fun s7 x7 h7 => (Keeps.ite (Keeps.ite (pinOverrun_keeps _ _ h7) (offerQueued_keeps _ _
    (State.modPin_keeps _ _ _ h7))) h7)) h

theorem reqRise_keeps {r : State} (a0) (a1) (a2) {s : State} (h : Keeps r s) : Keeps r (reqRise a0 a1 a2 s) := by
  unfold reqRise
  extract_lets v6_0 v6_1 v6_2
  have k9 : Keeps r v6_2 := State.modPin_keeps _ _ _ h
  clear_value v6_2
  exact Keeps.ite h (Keeps.ite (flagPin_keeps _ h) (Keeps.ite h (Keeps.foldl _ _ (fun s10 x10 h10 => (offerSample_keeps _ _
    _ h10)) k9)))

theorem ackRaise_keeps {r : State} (a0) (a1) {s : State} (h : Keeps r s) : Keeps r (ackRaise a0 a1 s) := by
  unfold ackRaise
  extract_lets v5_0
  exact Keeps.ite (State.modPin_keeps _ _ _ h) h

theorem reqFall_keeps {r : State} (a0) (a1) {s : State} (h : Keeps r s) : Keeps r (reqFall a0 a1 s) := by
  unfold reqFall
  extract_lets v5_0
  exact Keeps.ite h (Keeps.ite (settleAck_keeps _ _ (State.modPin_keeps _ _ _ h)) (Keeps.ite (flagPin_keeps _ h) h))

theorem spiUnknown_keeps {r : State} (a0) {s : State} (h : Keeps r s) : Keeps r (spiUnknown a0 s) := by
  unfold spiUnknown
  exact Keeps.ite h (flagPin_keeps _ (countStat_keeps _ _ _ (fun s4 h4 => flagPin_keeps _ h4) h))

theorem State.withFetchWord_keeps {r : State} {s : State} (a0) (a1) (h : Keeps r s) : Keeps r (State.withFetchWord s a0 a1) :=
  h.same rfl

end Sys2Proof.Machine
end

