-- ==== Sys2Proof/Laws/Ports.lean ====
section
/-! SUPPORT. The host ports' banks after an update of one of them, and the address of the register that an address names. -/

namespace Sys2Proof.Machine

/-- The address of the register that an address names is that address. -/
theorem regAt_addr {a k i} (h : regAt a = some (k, i)) : k.addr i = a := by
  unfold regAt at h
  obtain ⟨l1, x, l2, h1, h2, h3⟩ := List.findSome?_eq_some_iff.1 h
  simp only [Option.map_eq_some_iff] at h2
  obtain ⟨j, hj, e⟩ := h2
  simp only [Prod.mk.injEq] at e
  obtain ⟨rfl, rfl⟩ := e
  unfold RegKind.instAt at hj
  simp only at hj
  split at hj
  · rename_i hc
    simp only [Option.some.injEq] at hj
    unfold RegKind.addr
    obtain ⟨c1, c2, c3⟩ := hc
    have := Nat.div_add_mod (a - x.loc.base) x.loc.stride
    rw [c2, hj, mul_comm] at this
    omega
  · simp at hj

/-- The bank of a port after an update of it. -/
@[simp] theorem portBank_modPort (s : State) (p : HostPort) (f : PortBank → PortBank) :
    (s.modPort p f).portBank p = f (s.portBank p) := by
  simp [State.modPort, State.portBank, tabGet_tabMod]

/-- The bank of a port after an update of another. -/
theorem portBank_modPort_ne (s : State) (p q : HostPort) (f : PortBank → PortBank) (h : q ≠ p) :
    (s.modPort p f).portBank q = s.portBank q := by
  simp only [State.modPort, State.portBank, tabGet_tabMod]
  cases p <;> cases q <;> simp_all

end Sys2Proof.Machine
end

