-- ==== Sys2Proof/Machine/Package.lean ====
section
/-! DEFINITION. The package's balls (21_electrical R498 to R503): what each of the 49 rows and 49 columns carries. -/

namespace Sys2Proof.Machine

/-- The four pins of a lane (R500). -/
inductive LanePin where
  | rxp | rxn | txp | txn
deriving DecidableEq, Repr

/-- The dedicated pins of row 35 in column order from column 08 (17_pins R426, 21_electrical R503). -/
inductive Dedicated where
  | boot0 | boot1 | hadr0 | hadr1 | hadr2 | progN | cfgDone | cfgErrN | eventN | hspiCsN | hspiSck | hspiIo0 | hspiIo1 | hspiIo2
  | hspiIo3 | hscl | hsda | tck | tms | tdi | tdo | trstN | pmbScl | pmbSda | pmbAlertN | pgoodVccf | pgoodVccs | pgoodVccl
  | pgoodVcclh | pgoodVcca | sysclkP | sysclkN | xtalIn | xtalOut
deriving DecidableEq, Repr

/-- What a ball carries (R499). -/
inductive Ball where
  | lane (n : Nat) (p : LanePin)
  | refclk (k : Nat) (positive : Bool)
  | user (b n : Nat)
  | hpd (b : Nat)
  | sense (s : Nat)
  | dedicated (d : Dedicated)
  | vccfSense | vccfRtn
  | vccf | vccs | vccl | vcclh | vcca | vaon
  | vccio (b : Nat)
  | gnd
  | reserved
deriving DecidableEq, Repr

/-- The dedicated pins in column order (R503). -/
def dedicatedPins : List Dedicated :=
  [.boot0, .boot1, .hadr0, .hadr1, .hadr2, .progN, .cfgDone, .cfgErrN, .eventN, .hspiCsN, .hspiSck, .hspiIo0, .hspiIo1, .hspiIo2,
    .hspiIo3, .hscl, .hsda, .tck, .tms, .tdi, .tdo, .trstN, .pmbScl, .pmbSda, .pmbAlertN, .pgoodVccf, .pgoodVccs, .pgoodVccl] ++
  [.pgoodVcclh, .pgoodVcca, .sysclkP, .sysclkN, .xtalIn, .xtalOut]

/-- A lane field (R500): the column counted from the edge, 1 to 7, the first lane and the first reference clock of its side. -/
def laneBall (row col lane clock : Nat) : Ball :=
  if col = 7 then
    let j := (row - 14) / 4
    if 14 ≤ row ∧ j < 6 ∧ (row - 14) % 4 < 2 then .refclk (clock + j) ((row - 14) % 4 = 0)
    else if row % 2 = 1 then .vccl else .vcclh
  else if row = 49 then .gnd
  else match col with
    | 1 => .lane (lane + row - 1) .rxp
    | 2 => .lane (lane + row - 1) .rxn
    | 4 => .lane (lane + row - 1) .txp
    | 5 => .lane (lane + row - 1) .txn
    | _ => .gnd

/-- An I/O field (R501): the row counted from the edge, 1 to 14, and the first bank of its side. -/
def ioBall (row col bank : Nat) : Ball :=
  if col < 10 ∨ 39 < col then .gnd
  else
    let b := bank + (col - 10) / 5
    let o := (col - 10) % 5
    if row ≤ 12 then .user b (5 * (row - 1) + o)
    else if row = 13 then .vccio b
    else if o % 2 = 0 then .vccio b else .gnd

/-- The central field (R502, R503). -/
def centralBall (row col : Nat) : Ball :=
  if row ≤ 32 then
    if (row + col) % 2 = 1 then .gnd else if row = 15 then .vcca else if 24 ≤ row ∧ row ≤ 26 then .vccs else .vccf
  else if row = 33 then (if col ≤ 11 then .vaon else if 13 ≤ col ∧ col ≤ 36 then .hpd (col - 13) else .gnd)
  else if row = 34 then
    if col ≤ 12 then .reserved else if col ≤ 36 then .sense (col - 13)
    else if col = 37 then .vccfSense else if col = 38 then .vccfRtn else .gnd
  else match dedicatedPins[col - 8]? with
    | some d => .dedicated d
    | none => .gnd

/-- The ball in a row and a column, each from 01 to 49 (R498, R499). -/
def ballAt (row col : Nat) : Ball :=
  if col ≤ 7 then laneBall row col 0 0
  else if 43 ≤ col then laneBall row (50 - col) 48 6
  else if row ≤ 14 then ioBall row col 0
  else if 36 ≤ row then ioBall (50 - row) col 6
  else centralBall row col

/-- Every ball, row by row. -/
def allBalls : List Ball := (List.range 49).flatMap fun r => (List.range 49).map fun c => ballAt (r + 1) (c + 1)

/-- A ball carries a signal (R499). -/
def Ball.signal : Ball → Bool
  | .lane _ _ | .refclk _ _ | .user _ _ | .hpd _ | .sense _ | .dedicated _ | .vccfSense | .vccfRtn => true
  | _ => false

/-- A ball is one of a bank's VCCIO. -/
def Ball.io : Ball → Bool
  | .vccio _ => true
  | _ => false

end Sys2Proof.Machine
end

