-- ==== Sys2Proof/Machine/Ratings.lean ====
section
/-! DEFINITION. The limits of 21_electrical as data: supplies, power, pins, lanes, clocks, life and ordering codes (R485 to R497, R504). No command of the block shows them; R40 makes a value outside them an excursion. -/

namespace Sys2Proof.Machine

/-- A closed range; an end that the spec leaves open is absent. -/
structure Limits where
  min : Option Int := none
  typ : Option Int := none
  max : Option Int := none
deriving DecidableEq, Repr

/-- A value lies within its limits. -/
def Limits.holds (l : Limits) (v : Int) : Bool := (l.min.all fun m => m ≤ v) && l.max.all fun m => v ≤ m

/-- The supplies (R486). -/
inductive Supply where
  | vccf | vccs | vccl | vcclh | vcca | vaon | vccio
deriving DecidableEq, Repr

/-- What may stress the device (R485). -/
inductive Stress where
  | supply (x : Supply)
  | openDrain | laneInput | junction | storage
deriving DecidableEq, Repr

/-- Absolute maximum ratings: supplies and pins in mV, the lane input in mVppd, temperatures in degrees (R485). -/
def absoluteLimits : Stress → Limits
  | .supply .vccf => { min := some (-300), max := some 1050 }
  | .supply .vccs => { min := some (-300), max := some 900 }
  | .supply .vccl => { min := some (-300), max := some 1000 }
  | .supply .vcclh => { min := some (-300), max := some 1350 }
  | .supply .vcca | .supply .vaon => { min := some (-300), max := some 2000 }
  | .supply .vccio | .openDrain => { min := some (-300), max := some 3630 }
  | .laneInput => { max := some 1600 }
  | .junction => { min := some (-40), max := some 125 }
  | .storage => { min := some (-55), max := some 150 }

/-- The absolute maximum of a user pin in mV, by its bank's supply (R485). -/
def userPinMax (vccio : Int) : Int := min (vccio + 300) 3630

/-- The limits of a supply in mV: VCCF at retention in STANDBY, VCCS by the point in force while the device commands it, VCCIO by the
voltage declared (R486, 16_power R400). -/
def supplyLimits (x : Supply) (retention : Bool) (point : SysPoint) (pmb : Bool) (vio : Int) : Limits :=
  match x with
  | .vccf => if retention then { min := some 530, typ := some 550, max := some 570 } else { min := some 650, typ := some 850, max := some 950 }
  | .vccs =>
    match (if pmb then point else .p0) with
    | .p0 => { min := some 780, typ := some 800, max := some 820 }
    | .p1 => { min := some 720, typ := some 740, max := some 760 }
    | .p2 => { min := some 680, typ := some 700, max := some 720 }
  | .vccl => { min := some 870, typ := some 900, max := some 930 }
  | .vcclh => { min := some 1160, typ := some 1200, max := some 1240 }
  | .vcca | .vaon => { min := some 1710, typ := some 1800, max := some 1890 }
  | .vccio => { min := some (vio * 95 / 100), typ := some vio, max := some (vio * 105 / 100) }

/-- The fastest change of VCCF in RUN, QUIET and MAINTENANCE, in mV per microsecond (R488). -/
def vccfSlewMax : Nat := 5

/-- The power drawn, in microwatts, in the states for which a maximum is given (R489). -/
def powerLimits : Mode → Limits
  | .run => { typ := some 31000000, max := some 68000000 }
  | .quiet => { typ := some 6000000, max := some 9000000 }
  | .standby => { typ := some 1400000, max := some 3200000 }
  | .patrol => { typ := some 4000, max := some 9000 }
  | .deepSleep => { typ := some 1500, max := some 6000 }
  | _ => {}

/-- The current that a regulator must at least be sized for, in mA, at full load (R490). -/
def regulatorCurrent : Supply → Option Nat
  | .vccf => some 43200 | .vccl => some 13300 | .vcclh => some 5200 | .vccs => some 7750 | .vcca => some 440 | .vaon => some 11
  | .vccio => none

/-- A user pin's DC limits at a bank voltage, in mV: VIH min, VIL max, hysteresis min, VOH min, VOL max (R491). -/
def userPinDc (vio : Int) : Int × Int × Int × Int × Int :=
  if vio = 3300 then (2000, 800, vio / 10, vio - 400, 400)
  else if vio = 2500 then (1700, 700, vio / 10, vio - 400, 400)
  else (vio * 65 / 100, vio * 35 / 100, vio / 10, vio - 450, 450)

/-- The weak pull in ohms, the input leakage in nA, the capacitance in fF and the keeper's hold current in nA (R491). -/
def userPinShared : List Limits :=
  [{ min := some 25000, typ := some 50000, max := some 100000 }, { min := some (-10000), max := some 10000 }, { max := some 6000 },
    { min := some 50000 }]

/-- Pin timing in ps: data setup before REQ, setup before and hold after a strobe edge, strobe or REQ high and low time, an output edge
fast and slow, the skew of pins of one bank (R492). -/
def pinTiming : List Limits :=
  [{ min := some 1000 }, { min := some 1000 }, { min := some 1000 }, { min := some 2000 }, { min := some 400, max := some 1200 },
    { min := some 1500, max := some 4000 }, { max := some 500 }]

/-- The dedicated pins' VIH and VIL, the open-drain VOL and TDO's VOH in mV (R493). -/
def dedicatedDc : List Limits := [{ min := some 1170 }, { max := some 630 }, { max := some 400 }, { min := some 1350 }]

/-- Lane pins: full swing, impedance, return loss, receiver input, output in electrical idle (R494). -/
def laneLimits : List Limits :=
  [{ min := some 900, typ := some 1000, max := some 1100 }, { min := some 85, typ := some 100, max := some 115 }, { min := some 8 },
    { max := some 1200 }, { max := some 30 }]

/-- Clock inputs: REFCLK and SYSCLK amplitude in mVppd, common mode in mV, duty cycle in percent, the crystal clock's duty cycle; all
within 100 ppm (R495). -/
def clockLimits : List Limits :=
  [{ min := some 400, max := some 1600 }, { min := some 200, max := some 1200 }, { min := some 45, max := some 55 },
    { min := some 30, max := some 70 }]

/-- Thermal resistances in thousandths of a degree per watt: junction to lid, junction to board (R496). -/
def thermalLimits : List Limits := [{ max := some 80 }, { typ := some 1500 }]

/-- The conditions of the service life: power cycles, temperature cycles, writes per byte of the image store (R497). -/
def lifeLimits : List Limits := [{ max := some 100000 }, { max := some 2000 }, { max := some 10000 }]

/-- An ordering code's limits: the stage cycle in ps, the junction range and the shutdown level in degrees (R504). -/
def orderingCode (b : Config.Bin) (g : Config.Grade) : Nat × Limits × Nat :=
  (match b with | .one => 740 | .two => 660,
   match g with
   | .c => { min := some 0, max := some 85 }
   | .i => { min := some (-40), max := some 100 }
   | .e => { min := some (-40), max := some 115 },
   g.shut)

end Sys2Proof.Machine
end

