-- ==== Sys2Proof/Tests/Slice0.lean ====
section
/-! SUPPORT. The package's own tests: ill-formed operands refused, single steps with results taken from the spec, and for each statement
concrete states and operands that meet the hypotheses of its clauses (`witness_<statement>`, one conjunct a clause). -/

namespace Sys2Proof.Tests

set_option Elab.async false

open Sys2Proof Sys2Proof.Machine

/-- The device in RUN, with nothing loaded and every cavern isolated. -/
def runState : State :=
  { State.reset with power := { Power.reset with held := false, mode := .run }, conf := { State.reset.conf with started := true, ran := true } }

/-- The hard blocks have not left reset since the last full load began. -/
def unstarted (s : State) : State := { s with conf := { s.conf with started := false, ran := false } }

/-- The device in a mode. -/
def inMode (m : Mode) (s : State) : State := { s with power := { s.power with mode := m } }

/-- A cavern that is supplied and released. -/
def liveCav : Cavern := { load := false, powered := true }

/-- Configuration bits by cavern, column, minor and lowest bit; every place is named once. -/
def cfgOf (l : List (Nat × Nat × Nat × Nat × Nat)) : Tab Word :=
  l.foldl (fun t e =>
    let k := cfgKey e.1 e.2.1 e.2.2.1 (e.2.2.2.1 / 32)
    let v := e.2.2.2.2 <<< (e.2.2.2.1 % 32)
    tabMod 0 (tabMod 0 t k (· ||| word v)) (k + 1) (· ||| word (v >>> 32))) []

/-- Settings of cell `k` of chamber (0, 0) of cavern 0: mode, used inputs, output enables, latch enables, select of I0. -/
def cellSet (k mode use lats sel : Nat) : List (Nat × Nat × Nat × Nat × Nat) :=
  [(0, 0, 0, 128 * k + 70, mode), (0, 0, 0, 128 * k + 64, use), (0, 0, 0, 128 * k + 83, 3), (0, 0, 0, 128 * k + 77, lats),
    (0, 0, 0, 128 * k + 86, sel)]

/-- The first `n` outward edge bits of a chamber of cavern 0: bit 0 presents output `a`, the others output `b`. -/
def edges (x y n a b : Nat) : List (Nat × Nat × Nat × Nat × Nat) :=
  (List.range n).map fun j => (0, x, 0x19 + y / 2, 2048 * (y % 2) + 1552 + 6 * j, if j = 0 then a else b)

/-- Cell outputs Y0 of cells 0 and 1 of a chamber of cavern 0 presented. -/
def shows (x y : Nat) : List (Nat × Nat × Nat × Nat × Nat) :=
  [(0, x, y / 2, 128 * (16 * (y % 2)) + 83, 1), (0, x, y / 2, 128 * (16 * (y % 2) + 1) + 83, 1)]

/-- The device in RUN with cavern 0 live, with a configuration and cells. -/
def fabricState (cfg : List (Nat × Nat × Nat × Nat × Nat)) (cells : Tab Cell) : State :=
  { runState with cavs := [(0, liveCav)], cfg := cfgOf cfg, fabric := { State.reset.fabric with cells := cells } }

/-- A state with registers at the values given. -/
def withRegs (l : List (RegKind × Nat × Nat)) (s : State) : State := l.foldl (fun s e => s.setReg e.1 e.2.1 (word e.2.2)) s

/-- Cell number `k` of chamber (0, 0) of cavern 0. -/
def cellNo (k : Fin 16) : CellId := { cav := 0, x := 0, y := 0, k := k }

/-- What a check finds in the state that a command leads to. -/
def after (o : Host.Outcome State Fault Refusal) (p : State → Bool) : Bool :=
  match o with
  | .next t => p t
  | _ => false

/-! ### The block as a whole -/

theorem wf_boundary_update_names_a_cell_once :
    Instr.wf (.boundaryScanUpdateDr { levels := 0, vals := [(3, true, true), (3, false, true)] }) = false ∧
    Instr.wf (.boundaryScanUpdateDr { levels := 0, vals := [(720, true, true)] }) = false ∧
    Instr.wf (.boundaryScanUpdateDr { levels := 0, vals := [(719, true, true)] }) = true := by decide

theorem test_ill_formed_faults :
    exec (.boundaryScanUpdateDr { levels := 0, vals := [(720, true, true)] }) runState = .fault (.illFormed "BOUNDARY_SCAN_UPDATE_DR") := by rfl

theorem test_no_row_has_bits : decodeTableWord 16 0x1234 = none := by decide

theorem witness_IdleStepIsOneClock :
    (runState.pending = [] ∧ runState.clocks.stamp % 10 = 0 ∧ runState.clocks.stamp < 2 ^ 64 ∧ runState.sysRuns = true) ∧
    (State.reset.pending = [] ∧ State.reset.clocks.stamp % 10 = 0 ∧ State.reset.sysRuns = false) := by decide

theorem witness_EveryCommandIsTaken :
    Instr.wf .tapReset = true ∧ Instr.wf (.boundaryScanUpdateDr { levels := 0, vals := [(720, true, true)] }) = false := by decide

theorem witness_CommandsKeepTheQueue : ∃ t, exec .tapReset { runState with pending := [.bypass] } = .next t := ⟨_, rfl⟩

/-- The hypotheses of the four invariants that a step keeps, StepKeepsMemoriesCanonical, StepKeepsClocksSound, StepKeepsLogsBounded and
StepKeepsProgrammedBits. -/
theorem witness_StepKeepsInvariants :
    MemoriesCanonical runState ∧ ClocksSound runState ∧ LogsBounded runState ∧ ∃ t, step { runState with pending := [.bypass] } = .next t := by
  refine ⟨?_, ?_, ?_, _, rfl⟩ <;> simp only [MemoriesCanonical, ClocksSound, LogsBounded] <;> decide

/-! ### Host accesses -/

/-- A register written in this clock by a port that comes later (1 of I2C, 2 of JTAG). -/
def writtenLater (k : RegKind) (i r : Nat) (s : State) : State := { s with fresh := { writes := [(k.addr i, r)] } }

/-- `FieldTaken`, as a check. -/
def isTaken (p : HostPort) (k : RegKind) (i : Nat) (s : State) : Bool :=
  s.reach (k.addr i) = .open && !(s.outranked (writerRank p) (k.addr i))

/-- A lane whose bench is off. -/
def benchOff : State := { runState with power := { runState.power with lbOff := [(0, true)] } }

theorem witness_RegisterWriteActsByAccessCodes :
    (regAt 0x20040 = some (.evtEn, 0) ∧ runState.reach 0x20040 = .open ∧ (1 : Word) &&& ~~~ RegKind.evtEn.writable 0 = 0) ∧
    (regAt 0x2006C = some (.evtEn, 11) ∧ runState.reach 0x2006C = .open ∧ (4 : Word) &&& ~~~ RegKind.evtEn.writable 11 ≠ 0) ∧
    (regAt 0x14 = some (.gstat, 0) ∧ runState.reach 0x14 = .open ∧ (1 : Word) &&& ~~~ RegKind.gstat.writable 0 = 0 ∧
      (0x80000000 : Word) &&& ~~~ RegKind.gstat.writable 0 ≠ 0) ∧
    ((writtenLater .evtEn 0 2 runState).outranked (writerRank .i2c) (RegKind.evtEn.addr 0) = true ∧
      (writtenLater .evtEn 0 2 runState).outranked (writerRank .jtag) (RegKind.evtEn.addr 0) = false) ∧
    (regAt 0x20000 = some (.evtPend, 0) ∧
      ∃ f : Fresh, f = { merged := [3] } ∧ ({ runState with fresh := f } : State).reach 0x20000 = .open) := by
  refine ⟨by decide +kernel, by decide +kernel, by decide +kernel, by decide +kernel, by decide +kernel, _, rfl, by decide +kernel⟩

theorem witness_RegisterWriteKeepsRefusedSettings :
    runState.sysRuns = true ∧
    (writtenLater .stCtrl 0 1 runState).outranked (writerRank .spi) (RegKind.stCtrl.addr 0) = true ∧
    runState.outranked (writerRank .spi) (RegKind.stCtrl.addr 0) = false := by decide +kernel

theorem witness_ReadReturnsAndClears :
    (regAt 0x14 = some (.gstat, 0) ∧ runState.reach 0x14 = .open) ∧
    (regAt 0x204 = some (.xcLost, 0) ∧ runState.reach 0x204 = .open ∧ RegKind.xcLost.mask .rc ≠ 0) ∧
    (let s := withRegs [(.xcLost, 0, 5)] { runState with fresh := { counts := [(0x204, 2)] } }
     RegKind.xcLost.mask .rc = 0xFFFFFFFF ∧ s.freshCount .xcLost 0 = 2 ∧ s.freshCount .xcLost 0 ≤ (s.reg .xcLost 0).toNat) ∧
    regAt (RegKind.lbHpd.addr 23) = some (.lbHpd, 23) := by decide +kernel

theorem witness_AccessWithoutRegister :
    (inMode .load (unstarted runState)).reach 0x80000 = .held ∧ regAt 0x80000 = some (.lnPmaCtrl, 0) ∧ benchOff.reach 0x80FFC = .off ∧
    (runState.reach 0xFFFFFFFC = .open ∧ regAt 0xFFFFFFFC = none) ∧
    ((inMode .patrol runState).sysRuns = false ∧ (inMode .patrol runState).power.held = false) ∧
    ((inMode .standby runState).reach 0x10 = .silent ∧ (inMode .standby runState).heldStandby .i2c = true ∧
      (inMode .standby runState).heldStandby .jtag = true ∧ (inMode .standby runState).heldStandby .spi = false ∧
      (inMode .patrol runState).heldStandby .i2c = false ∧ (inMode .standby runState).power.waiting = []) := by decide +kernel

theorem witness_SnapshotReads :
    runState.sysRuns = true ∧ runState.reach (RegKind.lnPrbsBitsLo.addr 95) = .open ∧
    runState.reach (RegKind.lnPrbsErrLo.addr 95) = .open ∧ runState.reach (RegKind.sumpQstat.addr 0) = .open := by decide +kernel

/-- The worked example of 19_events_counters R468: TS_LO reads 0xFFFF_FFF8, TS_HI 0x0000_0002. -/
theorem test_timestamp_snapshot :
    after (exec (.snapshotLowRead .spi .timestamp) { runState with clocks := { runState.clocks with stamp := 0x2FFFFFFF8 } }) (fun t => (t.portBank .spi).hostRead = 0xFFFFFFF8 ∧ t.shown .spi .tsHi 0 = 2 ∧ t.shown .i2c .tsHi 0 = 0) = true := by decide +kernel

/-- A write of 1 clears a W1C bit and leaves its neighbour (00_scope R5). -/
theorem test_w1c_write :
    after (exec (.registerWrite .spi 0x48 1) (withRegs [(.isoEvt0, 0, 3)] runState)) (fun t => t.reg .isoEvt0 0 = 2) = true := by decide +kernel

/-- A reserved address reads zero (00_scope R6). -/
theorem test_reserved_reads_zero :
    after (exec (.rcRead .i2c 0xFFFFFFFC) runState) (fun t => (t.portBank .i2c).hostRead = 0) = true := by decide +kernel

/-! ### Pockets and gauges -/

/-- Pocket 0.0 with settings (protection, read-only bits and response mode of port A), a command token of `n` bits on its port A that is a
write where `wr`, and rows. -/
def pocketState (code rest n : Nat) (wr : Bool) (rows : Tab (BitVec 72)) : State :=
  let s := fabricState ((0, 64, 0x12, 0, code + 64 + rest) :: shows 3 1 ++ shows 3 2 ++ edges 3 1 (min n 64) (if wr then 2 else 1) 1 ++
    edges 3 2 (n - 64) 1 1) [(cellKey 0 3 1 0, { src0 := .v0 }), (cellKey 0 3 1 1, { src0 := .v1 }), (cellKey 0 3 2 0, { src0 := .v0 })]
  { s with pockets := { s.pockets with rows := rows } }

/-- A write of a 1-bit word, offered back (WRSP 0b01). -/
def pocketWrite : State := pocketState 1 (1 <<< 9) 18 true []
/-- A read of a 1-bit word. -/
def pocketRead : State := pocketState 1 0 18 false [(0, 1)]
/-- A read of a 9-bit PARITY word whose parity is wrong. -/
def pocketBad : State := pocketState 4 (1 <<< 7) 25 false [(0, 0x100)]
/-- A read of an ECC word with one bit wrong. -/
def pocketEcc : State := pocketState 7 (2 <<< 7) 81 false [(0, 1)]

theorem witness_PocketPortAccess :
    (PortReady pocketWrite 0 0 0 ∧ pocketWrite.outToken (attPocket 0 0 0) = some 1 ∧ pocketBits pocketWrite.cfg 0 0 9 2 = 1 ∧
      pocketBits pocketWrite.cfg 0 0 13 1 = 0) ∧
    (PortReady pocketRead 0 0 0 ∧ pocketRead.outToken (attPocket 0 0 0) = some 0 ∧ readWord 0 (pocketRead.row 0 0) 0 1 = .good 1) ∧
    (PortReady pocketEcc 0 0 0 ∧ pocketEcc.outToken (attPocket 0 0 0) = some 0 ∧ pocketProt pocketEcc.cfg 0 = 2 ∧
      readWord 2 (pocketEcc.row 0 0) 0 72 = .corrected 0) ∧
    (PortReady pocketBad 0 0 0 ∧ pocketBad.outToken (attPocket 0 0 0) = some 0 ∧ pocketProt pocketBad.cfg 0 = 1 ∧
      readWord 1 (pocketBad.row 0 0) 0 9 = .uncorrectable) ∧
    ¬ PortReady runState 0 0 0 := by
  simp only [PortReady]; decide +kernel

theorem witness_PocketBlockAccess :
    (pocketRead.isolated 0 = false ∧ pocketBits pocketRead.cfg 0 0 6 1 = 1 ∧ pocketRead.pockets.restoring.contains 0 = false ∧
      pocketProt pocketRead.cfg 0 = 0 ∧ pocketBits pocketRead.cfg 0 0 14 1 = 0) ∧
    runState.isolated 0 = true ∧
    ((inMode .standby pocketRead).sysRuns = false ∧ pocketRead.sysRuns = true) ∧
    pocketBits runState.cfg 0 0 6 1 = 0 ∧
    ({ pocketRead with cavs := [] } : State).isolated 0 = true ∧
    (rowBytes 0 (pocketRead.row 0 0) = .good 1 ∧ rowBytes 2 (pocketEcc.row 0 0) = .corrected 0) ∧
    (pocketProt pocketBad.cfg 0 = 1 ∧ rowBytes 1 (pocketBad.row 0 0) = .uncorrectable ∧ pocketBad.isolated 0 = false) ∧
    (pocketProt (pocketState 7 (2 <<< 7) 81 false [(0, 3)]).cfg 0 = 2 ∧
      eccDecode ((pocketState 7 (2 <<< 7) 81 false [(0, 3)]).row 0 0) = .uncorrectable) ∧
    (pocketBits (pocketState 1 (1 <<< 14) 18 false []).cfg 0 0 14 1 = 1) ∧
    ({ pocketRead with pockets := { pocketRead.pockets with restoring := [0] } } : State).pockets.restoring.contains 0 = true := by
  decide +kernel

/-- A Pocket that awaits its restore, and the record of its initial contents. -/
def restoring (crc : Word) : State :=
  { runState with pockets := { runState.pockets with restoring := [0, 4479], info := [(0, { source := .omitted, crc := crc })] } }

theorem witness_PocketRestore :
    runState.pockets.restoring = [] ∧
    ((restoring 0).pockets.restoring = 0 :: [4479] ∧ (restoring 0).storeLoading = false ∧ (restoring 0).loading = false ∧
      crc32c [] = (tabGet {} (restoring 0).pockets.info 0).crc) ∧
    crc32c [] ≠ (tabGet {} (restoring 7).pockets.info 0).crc ∧
    (inMode .load (unstarted (restoring 0))).loading = true ∧
    ({ restoring 0 with conf := { runState.conf with load := some (newLoad .full (.slot true)) } } : State).storeLoading = true ∧
    (let s := { restoring 0 with pockets := { (restoring 0).pockets with info := [(0, { source := .store [(0, 512)] })] } }
     (tabGet ({} : PMeta) s.pockets.info 0).source = .store [(0, 512)]) := by decide +kernel

/-- Gauges that run, with a threshold of 1 ps. -/
def gaugeState : State := withRegs [(.speedGaugeCtrl, 0, 0x80001001)] { runState with cavs := [(0, liveCav)] }

theorem witness_GaugesAndLoadWindow :
    runState.gaugeRuns 0 = false ∧ gaugeState.gaugeRuns 0 = true ∧ gaugeState.bit .speedGaugeCtrl 0 12 = true ∧
    gaugeState.bit .speedGauge 0 30 = false ∧ runState.sysRuns = true ∧
    (({ gaugeState with cavs := [(0, { liveCav with gaugeAt := 1 })] } : State).cav 0).gaugeAt = gaugeState.clocks.stamp + 1 := by
  decide +kernel

/-- 4,096 SYSCLK periods of 10 ns over 32 · 2,000 stage cycles are 640 ps, above a threshold of 1 ps (05_speed_latency R112, R114). -/
theorem test_gauge_reading :
    after (exec (.gaugeWindowEnd 0 2000) gaugeState) (fun t => t.field .speedGauge 0 0 12 = 640 ∧ t.bit .speedGauge 0 30 = true ∧ t.bit .evtPend 0 12 = true) = true := by decide +kernel

/-- The write changes bit 0 of row 0, and its value is offered (06_pockets R119, R126). -/
theorem test_pocket_write :
    after (exec (.pocketPortAccess { cav := 0, idx := 0 } .a) pocketWrite) (fun t => t.row 0 0 = 0 ∧ (t.attIn 0).ph = .offering ∧ (t.attIn 0).val = 0) = true := by decide +kernel

/-- A wrong parity bit freezes the cavern and names the Pocket (06_pockets R123). -/
theorem test_pocket_parity_error :
    after (exec (.pocketPortAccess { cav := 0, idx := 0 } .a) pocketBad) (fun t => (t.cav 0).freeze = true ∧ (t.cav 0).fpocket = 0 ∧ (t.attIn 0).ph = .idle) = true := by decide +kernel

/-! ### The fabric -/

/-- Cell 0 in a mode, reading Y0 of cell 1, with the cells given. -/
def cellState (mode : Nat) (c0 c1 : Cell) : State :=
  fabricState (cellSet 0 mode 1 0 1 ++ cellSet 1 1 0 0 0 ++ [(0, 0, 0, 81, 2), (0, 0, 0, 0, 2)]) [(0, c0), (1, c1)]

/-- What cell 0 reads on its used inputs. -/
def cellReads (s : State) : List Rail := (s.usedIn 0 0 0 0 (cellCfg s.cfg 0 0 0 0)).map (·.2)

theorem witness_CellHalfCycles_evaluate :
    runState.interiorLive 0 = false ∧
    (∀ m : Fin 3, (cellState (m.val + 1) {} { src0 := .v1 }).interiorLive 0 = true ∧
      (cellCfg (cellState (m.val + 1) {} { src0 := .v1 }).cfg 0 0 0 0).mode = m.val + 1 ∧
      cellReads (cellState (m.val + 1) {} { src0 := .v1 }) = [.v1] ∧
      ((cellState (m.val + 1) {} { src0 := .v1 }).cell 0 0 0 0).quiet = true) ∧
    cellReads (cellState 1 {} { src0 := .illegal }) = [.illegal] ∧ cellReads (cellState 1 {} {}) = [.empty] ∧
    ((cellState 1 { src0 := .v1 } {}).cell 0 0 0 0).quiet = false := by decide +kernel

theorem witness_CellHalfCycles_return :
    cellReads (cellState 1 { src0 := .v1 } {}) = [.empty] ∧ cellReads (cellState 1 {} { src0 := .v1 }) = [.v1] ∧
    ((cellState 3 {} {}).chainEmptyDown 0 0 800 0 0 = true ∧ (cellState 3 {} {}).chainEmptyUp 0 0 800 0 0 = true) ∧
    (cellState 3 {} { src0 := .v1 }).chainEmptyDown 0 0 800 0 0 = false := by decide +kernel

/-- A choice element at cell 15 with requests from Y0 of cells 0 and 1, and its state. -/
def choiceState (a b : Rail) (v : Choice) : State :=
  let s := fabricState (shows 0 0 ++ [(0, 0, 0, 128 * 15 + 70, 4), (0, 0, 0, 128 * 15 + 64, 3), (0, 0, 0, 128 * 15 + 92, 1)])
    (if a = .empty then [(1, { src0 := b })] else [(0, { src0 := a }), (1, { src0 := b })])
  { s with fabric := { s.fabric with choices := [(0, v)] } }

/-- Chamber (0, 0) of cavern 0. -/
def chamber0 : ChamberId := { cav := 0, x := 0, y := 0 }

theorem witness_AckAndChoice_choice :
    ((choiceState .v1 .empty {}).choiceOn chamber0 = true ∧ ((choiceState .v1 .empty {}).choice chamber0).grant = none ∧
      ((choiceState .v1 .empty {}).request chamber0 .a).valid = true ∧
      ((choiceState .v1 .empty {}).request chamber0 .b).valid = false) ∧
    (((choiceState .empty .v0 {}).request chamber0 .a).valid = false ∧
      ((choiceState .empty .v0 {}).request chamber0 .b).valid = true) ∧
    (((choiceState .v1 .v0 { owed := some .b }).request chamber0 .a).valid = true ∧
      ((choiceState .v1 .v0 { owed := some .b }).request chamber0 .b).valid = true ∧
      ((choiceState .v1 .v0 { owed := some .b }).choice chamber0).owed = some .b) ∧
    (choiceState .illegal .v0 {}).request chamber0 .a = .illegal ∧
    (((choiceState .empty .v0 { grant := some .a }).choice chamber0).grant = some .a ∧
      (choiceState .empty .v0 { grant := some .a }).request chamber0 .a = .empty ∧
      (choiceState .empty .v0 { grant := some .a }).grantDone chamber0 .a = true) ∧
    runState.choiceOn chamber0 = false ∧
    ((choiceState .v1 .empty {}).interiorLive 0 = true ∧ (cellCfg (choiceState .v1 .empty {}).cfg 0 0 0 15).mode = 4 ∧
      (choiceState .empty .v0 { grant := some .a }).cellIn 0 0 0 15 0 = .empty) := by decide +kernel

/-- Cell 0 with latch 0 in use; node LN0 acknowledges its output and is high where `ack`. -/
def latchState (c : Cell) (ack : Bool) : State :=
  let s := fabricState (cellSet 0 1 1 1 1 ++ [(0, 0, 0x19, 1296, 1)]) [(0, c)]
  { s with fabric := { s.fabric with nodes := if ack then [(0, true)] else [] } }

theorem witness_LatchCapture :
    ((latchState { src0 := .v1 } false).interiorLive 0 = true ∧ (cellCfg (latchState { src0 := .v1 } false).cfg 0 0 0 0).latchOn .l0 = true ∧
      (latchState { src0 := .v1 } false).latchIn (cellNo 0) .l0 = .v1 ∧
      ((latchState { src0 := .v1 } false).cell 0 0 0 0).latch .l0 = (.vacant, .isOpen)) ∧
    (latchState { src0 := .illegal } false).latchIn (cellNo 0) .l0 = .illegal ∧
    (((latchState { src0 := .v1, out0 := .returning } false).cell 0 0 0 0).latch .l0).1 ≠ .vacant ∧
    runState.interiorLive 0 = false := by decide +kernel

theorem witness_LatchMoves :
    (((latchState { out0 := .hold true, in0 := .closing } true).cell 0 0 0 0).latch .l0 = (.hold true, .closing) ∧
      (latchState { out0 := .hold true, in0 := .closing } true).latchAck (cellNo 0) .l0 = true) ∧
    (((latchState { out0 := .returning } false).cell 0 0 0 0).latch .l0 = (.returning, .isOpen) ∧
      (latchState { out0 := .returning } false).latchAck (cellNo 0) .l0 = false) ∧
    (((latchState { in0 := .closing } false).cell 0 0 0 0).latch .l0 = (.vacant, .closing) ∧
      (latchState { in0 := .closing } false).latchIn (cellNo 0) .l0 = .empty) := by decide +kernel

/-- GN0 of cavern 0 acknowledges Pocket port 0.0.A, which offers a token; it reads CN0, which is high, and CN1 where `two`. -/
def globalState (two : Bool) : State :=
  let s := fabricState ([(0, 64, 0x12, 0, 1), (0, 60, 0, 0, 1)] ++ if two then [(0, 60, 0, 13, 2)] else []) []
  { s with fabric := { s.fabric with nodes := [(cnKey 0 0 0 0, true)], attIn := [(0, { ph := .offering })] } }

theorem witness_AckAndChoice_nodes :
    runState.nodeLive (.ln chamber0 0) = false ∧
    (lowerAcks (globalState false)).nodeInputs (.ln chamber0 15) = [] ∧
    ((globalState false).nodeLive (.gn 0 0) = true ∧ (lowerAcks (globalState false)).nodeInputs (.gn 0 0) = [true] ∧ attCav 0 = 0 ∧
      attNode (globalState false).cfg 0 = 0 ∧ ((globalState false).attIn 0).ph = .offering ∧
      (globalState false).node (gnKey 0 0) = false) ∧
    (lowerAcks (globalState true)).nodeInputs (.gn 0 0) = [true, false] ∧
    (lowerAcks (fabricState [(0, 60, 0, 13, 2)] [])).nodeInputs (.gn 0 0) = [false] := by decide +kernel

theorem witness_DualRailFault :
    runState.interiorLive 39 = false ∧ ((latchState {} false).interiorLive 0 = true ∧ ((latchState {} false).cav 0).bist = false) ∧
    (({ runState with cavs := [(0, { liveCav with bist := true })] } : State).cav 0).bist = true := by decide +kernel

/-- A cell in CARRY mode with P from the table (bit 1 is 1) and carry in 1: S = 0, and the carry passes (03_cells R61). -/
theorem test_carry_cell :
    after (exec (.cellEvaluate (cellNo 0)) (cellState 3 {} { src0 := .v1 })) (fun t =>
      (t.cell 0 0 0 0).src0 = .v0 ∧ (t.cell 0 0 0 0).carry = .v1) = true := by decide +kernel

/-- A latch captures its input and closes it (03_cells R70). -/
theorem test_latch_capture :
    after (exec (.latchCapture (cellNo 0) .l0) (latchState { src0 := .v1 } false)) (fun t =>
      (t.cell 0 0 0 0).latch .l0 = (.hold true, .closing)) = true := by decide +kernel

/-- The request that is owed the grant gets it (02_token_contract R46). -/
theorem test_choice_owed :
    after (exec (.choiceGrant chamber0) (choiceState .v1 .v0 { owed := some .b })) (fun t =>
      (t.choice chamber0).grant = some .b ∧ (t.cell 0 0 0 15).src1 = .v0) = true := by decide +kernel

/-- A global node that rises takes the token that its attachment offers (04_routing R97). -/
theorem test_global_node :
    after (exec (.ackNodeSwitch (.gn 0 0)) (globalState false)) (fun t => (t.attIn 0).ph = .returning ∧ t.node (gnKey 0 0) = true) = true := by
  decide +kernel

/-! ### Crushers -/

/-- A beat of a Crusher stream that is a packet of `n` bytes. -/
def onePacket (n : Nat) : CBeat := { data := 0x0201, start := true, fin := true, bad := false, mark := false, bytes := n }

/-- Engine 0 in RUN; its first slot belongs to client 0 of lane 0, with word 0 of its context and its input. -/
def crushState (word0 : Word) (input : List CBeat) : State :=
  { runState with cfg := cfgOf [(42, 0, 0x42, 0, 1), (42, 0, 0, 0, 0x8000)]
                  crushers := { Crushers.reset with ctx := [(0, word0)], inbuf := if input.isEmpty then [] else [(0, input)] } }

/-- The context word of an enabled client in packet mode, with destination lane 1. -/
def ctxToLane : Word := 0xE0020000

/-- A slice of client 0 in engine 0's pipeline. -/
def pipeState : State :=
  { crushState ctxToLane [] with
    crushers := { (crushState ctxToLane []).crushers with pipe := [(0, [{ client := 0, beats := [onePacket 2], stamp := 0 }])] } }

theorem witness_CrusherSlot :
    runState.engineRuns 0 = false ∧
    ((crushState 0 []).engineRuns 0 = true ∧ nextSlot (crushState 0 []).cfg 0 512 0 = some 0 ∧ (crushState 0 []).readyBeats 0 0 = none) ∧
    nextSlot runState.cfg 15 512 0 = none ∧
    ((crushState ctxToLane [onePacket 2]).readyBeats 0 0 = some ([onePacket 2], true, [(2, 1)]) ∧
      (reserveAll 0 0 true [(2, 1)] (crushState ctxToLane [onePacket 2])).1 = true) ∧
    ((crushState 0xD0000000 [onePacket 2]).readyBeats 0 0 = some ([onePacket 2], true, [(1, 0)]) ∧
      (reserveAll 0 0 true [(1, 0)] (crushState 0xD0000000 [onePacket 2])).1 = false ∧
      (reserveAll 0 0 true [(1, 0)] { crushState 0xD0000000 [onePacket 2] with cfg := cfgOf [(42, 0, 0x42, 0, 1), (42, 0, 0, 0, 0x8000),
        (43, 0, 0, 0, 0x10000000B)] }).1 = true) ∧
    (let s := withRegs [(.crIdle, 0, 0xFFFFFFFF)] (crushState 0 [])
     s.reg .crIdle 0 = 0xFFFFFFFF) := by
  decide +kernel

theorem witness_CrusherSliceComplete :
    tabGet [] runState.crushers.pipe 0 = [] ∧
    (pipeState.sysRuns = true ∧ tabGet [] pipeState.crushers.pipe 0 = { client := 0, beats := [onePacket 2], stamp := 0 } :: [] ∧
      pipeState.clientDest 0 0 = (2, 1)) ∧
    (let s := { pipeState with crushers := { pipeState.crushers with ctx := [(0, 0xF0000000)] } }
     (s.ctxCfg 0 0 28 2, s.ctxCfg 0 0 17 11) = (3, 0)) := by decide +kernel

/-- A halted client 96 of engine 0, held, whose portals are enabled. -/
def heldState : State :=
  withRegs [(.crHold3, 0, 1)] { runState with
    cfg := cfgOf [(41, 16, 0, 32, 1)], crushers := { Crushers.reset with ctx := [(64 * 96, 0x80000000), (64 * 96 + 63, 0x100)] } }

theorem witness_ClientHoldWrite :
    heldState.reach ((holdReg 3).addr 0) = .open ∧ (heldState.reg (holdReg 3) 0).getLsbD 0 = true ∧
    heldState.clientHalted 0 96 = true ∧ fpiPortal 0 0 ∈ heldState.clientPortals 0 96 ∧ portalEn heldState.cfg (fpiPortal 0 0) = true ∧
    runState.reg (holdReg 0) 15 &&& ~~~ (7 : Word) = 0 ∧
    runState.outranked (writerRank .spi) ((holdReg 0).addr 15) = false ∧
    (writtenLater .crHold0 15 2 runState).outranked (writerRank .i2c) ((holdReg 0).addr 15) = true ∧
    ({ heldState with crushers := { Crushers.reset with revived := [96] } } : State).crushers.revived.contains (clientKey 0 96) = true ∧
    ((inMode .patrol runState).reach ((holdReg 0).addr 0) = .silent ∧ (inMode .standby runState).heldStandby .i2c = true) := by decide +kernel

/-- A slice without a program goes to its lane as it came (07_crushers R144, R148). -/
theorem test_slice_passes :
    after (exec (.crusherSliceComplete 0) pipeState) (fun t =>
      tabGet [] t.crossings.fromCrusher 1 = [onePacket 2] ∧ tabGet [] t.crushers.pipe 0 = []) = true := by decide +kernel

/-- CRC-32C of the check string "123456789" is 0xE306_9283 (12_lane_link R299 gives the parameters). -/
theorem test_crc32c_register :
    (reflectBits 32 ([0x31, 0x32, 0x33, 0x34, 0x35, 0x36, 0x37, 0x38, 0x39].foldl (crcShiftByte 32 0x1EDC6F41 true) 0xFFFFFFFF)) ^^^
      0xFFFFFFFF = 0xE3069283 := by decide +kernel

/-! ### The Sump -/

/-- The producer that client 0 of engine 0 is. -/
def client0 : Producer := .client 0 0
/-- A beat with a tag. -/
def sumpBeat (tag : BitVec 16) : SumpBeat := { data := 5, tag := tag }
/-- Queue 0 with settings, and a Sump. -/
def sumpState (set : Nat) (u : Sump) : State := { runState with cfg := cfgOf [(43, 0, 0, 0, set), (44, 0, 0, 0, 0x4000)], sump := u }
/-- Channel 0, whose slot this clock is, asks for beats of queue 0. -/
def asks (s : State) : State := { s with haul := { chans := [(0, { st := 2, desc := [0x20000000], popping := true })], asked := 0, used := 0 } }
/-- The port 2 entry of this clock, and the portals of site 32 of cavern 16 (SP0) with queue 0 bound to them. -/
def port2State (entry dir : Nat) (v : Portal) (u : Sump) : State :=
  { runState with
    cfg := cfgOf [(41, 40, 0, 0, entry), (41, 16, 0, 32 * 64, 0x61), (41, 16, 0, 32 * 65, 0x61), (43, 0, 0, 0, 0xFF00000009)]
    portals := [(spPortal 0 dir, v)], sump := u }
/-- Settings: enabled, every port may push and pop; `PKT` by `p`, `STALE` code 1. -/
def qSet (p : Bool) : Nat := 0xFF00000009 + 2 * bitNat p
/-- A committed cell of one beat. -/
def fullCell (tag : BitVec 16) (d : Option Nat) : SCell := { beats := [sumpBeat tag], port := 0, desc := d, full := true, committed := true }
/-- A stream queue that holds cell 7, committed. -/
def streamState : State :=
  sumpState (qSet false) { Sump.reset with cells := [(7, fullCell 0 none)], queues := [(0, { stream := [7], held := 1, timer := 5 })] }
/-- A packet queue that holds packet 3 in cell 7. -/
def packetState (committed : Bool) : State :=
  sumpState (qSet true) { Sump.reset with
    cells := [(7, { fullCell 0x6000 (some 3) with committed := committed })]
    descs := [(3, { used := true, cells := [7], tail := 7, total := 1, len := 1, ended := true, vis := true })]
    queues := [(0, { vis := [3], held := 1 })] }
/-- An open packet whose timer has run out. -/
def staleState (recover : Bool) : State :=
  sumpState (qSet true) { Sump.reset with
    cells := [(7, fullCell 0x4000 (some 3))]
    descs := [(3, { used := true, cells := [7], tail := 7, total := 1, len := 128 })]
    queues := [(0, { opens := [3], held := 1, timer := 2, recoverWas := recover })] }

theorem witness_SumpPush_refused :
    (runState.blocksRun = true ∧ runState.portTakes 0 0 false = true ∧ runState.producerFits 0 0 client0 = true ∧
      runState.resvOf client0 0 = none ∧ qPkt runState.cfg 0 = false ∧ qEn runState.cfg 0 = false) ∧
    (qEn (sumpState 1 Sump.reset).cfg 0 = true ∧ qMayPush (sumpState 1 Sump.reset).cfg 0 0 = false) ∧
    (qPkt (sumpState (qSet true) { Sump.reset with freshDesc := 16384 }).cfg 0 = true ∧
      (sumpState (qSet true) { Sump.reset with freshDesc := 16384 }).freeDescs = 0) ∧
    (sumpState (qSet false) { Sump.reset with freshCell := 32768 }).freeCells = 0 ∧
    runState.producerFits 3 0 client0 = false ∧
    (sumpState 0 { Sump.reset with moved := [(0, false, 5)] }).portTakes 0 0 false = false ∧
    (sumpState 0 { Sump.reset with moved := [(3, true, 0)] }).portTakes 0 0 false = false ∧
    (let s := port2State 0xC000 1 { beats := [(sumpBeat 0, 8)] } Sump.reset
     s.portTakes 2 0 false = true ∧ s.port2Now = 0xC000 ∧ portalEn s.cfg (spPortal 0 1) = true ∧ portalBind s.cfg (spPortal 0 1) = 0 ∧
      (s.portal (spPortal 0 1)).paused = none ∧ (s.portal (spPortal 0 1)).beats = (sumpBeat 0, 8) :: [] ∧
      s.producerFits 2 0 (.portal 0 32) = true) ∧
    ((port2State 0xC000 1 { paused := some 0 } Sump.reset).portal (spPortal 0 1)).paused = some 0 ∧
    ((port2State 0xC000 1 {} Sump.reset).portal (spPortal 0 1)).beats = [] := by decide +kernel

theorem witness_SumpPush_accepted :
    (∀ p : Bool, (sumpState (qSet p) Sump.reset).blocksRun = true ∧ (sumpState (qSet p) Sump.reset).portTakes 0 0 false = true ∧
      (sumpState (qSet p) Sump.reset).producerFits 0 0 client0 = true ∧ (sumpState (qSet p) Sump.reset).resvOf client0 0 = none ∧
      qEn (sumpState (qSet p) Sump.reset).cfg 0 = true ∧ qMayPush (sumpState (qSet p) Sump.reset).cfg 0 0 = true ∧
      qQuota (sumpState (qSet p) Sump.reset).cfg 0 = 0 ∧ (sumpState (qSet p) Sump.reset).freeCells ≠ 0 ∧
      qPkt (sumpState (qSet p) Sump.reset).cfg 0 = p ∧ (sumpState (qSet p) Sump.reset).freeDescs ≠ 0 ∧
      (sumpState (qSet p) Sump.reset).inProgress 0 client0 = none) ∧
    ((sumpBeat 0x4000).stored.sop = true ∧ (sumpBeat 0x4000).stored.eop = false) ∧
    ((sumpBeat 0x6000).stored.eop = true ∧ (sumpBeat 0x6000).stored.bad = false ∧ (sumpBeat 0x6000).stored.err = false) ∧
    ((sumpBeat 0x7000).stored.eop = true ∧ (sumpBeat 0x7000).stored.bad = true) ∧
    (let x : SOffer := { port := 0, queue := 0, producer := client0, beat := sumpBeat 0, last := true }
     (sumpState (qSet false) { Sump.reset with offers := [x] }).sump.offers.find? (fun x => x.port = 0 ∧ x.queue = 0) = some x) := by
  decide +kernel

theorem witness_SumpPop :
    (sumpState 0 { Sump.reset with moved := [(2, true, 5)] }).portTakes 2 0 true = false ∧
    (∀ s ∈ [asks streamState, asks (packetState true), asks (packetState false), asks (sumpState (qSet false) Sump.reset), asks runState],
      s.blocksRun = true ∧ s.portTakes 3 0 true = true ∧ (s.master (slotOwner s.cfg s.clocks.sys)).popping = decide (s ≠ asks runState) ∧
        targetOf 0x20000000 = .queue 0) ∧
    (qEn streamState.cfg 0 = true ∧ qMayPop streamState.cfg 0 3 = true ∧ qPkt streamState.cfg 0 = false ∧
      (streamState.queue 0).stream = 7 :: [] ∧ (streamState.scell 7).committed = true ∧
      (streamState.scell 7).beats = [sumpBeat 0] ∧ (streamState.scell 7).err0 = 0) ∧
    qEn runState.cfg 2047 = false ∧ ((sumpState (qSet false) Sump.reset).queue 0).stream = [] ∧
    (qPkt (packetState true).cfg 0 = true ∧ ((packetState true).queue 0).vis = 3 :: [] ∧ ((packetState true).desc 3).cells = 7 :: [] ∧
      ((packetState true).scell 7).committed = true) ∧
    ((packetState false).scell 7).committed = false ∧
    (∀ t : Bool, let s := sumpState (qSet true) { Sump.reset with descs := [(3, { used := true, trunc := t })], queues := [(0, { vis := [3] })] }
      (s.queue 0).vis = 3 :: [] ∧ (s.desc 3).cells = [] ∧ (s.desc 3).trunc = t) ∧
    (∀ h ∈ [[], [sumpBeat 1]], ∀ n ∈ [0, 64],
      let s := port2State 0x8000 0 { held := h, queue := List.replicate n (0, 0) } Sump.reset
      let p := spPortal 0 0
      s.portTakes 2 0 true = true ∧ s.port2Now = 0x8000 ∧ portalEn s.cfg p = true ∧ portalBind s.cfg p = 0 ∧ (s.portal p).paused = none ∧
        s.reading (.portal p) = false ∧ (s.portal p).held = h ∧
        ((s.portal p).queue.length + (s.portal p).stage.length + 2048 / portalWidth s.cfg p ≤ portalDepth s.cfg p ↔ n = 0)) ∧
    (port2State 0xC000 0 {} Sump.reset).port2Now = 0xC000 ∧ (port2State 0xA000 0 {} Sump.reset).port2Now = 0xA000 ∧
    ((port2State 0x8000 0 { paused := some 3 } Sump.reset).portal (spPortal 0 0)).paused = some 3 := by decide +kernel

theorem witness_SumpQueueUpkeep :
    (let s := sumpState 0 { Sump.reset with cells := [(4, { fullCell 0 none with committed := false })] }
     s.blocksRun = true ∧ (s.scell 4).full = true ∧ (s.scell 4).committed = false ∧ (s.scell 4).port = 0 ∧ bankPort 4 s.clocks.sys = 0 ∧
      s.sump.doneCells = [] ∧ s.sump.gone = [] ∧ s.sump.scrubbed = [] ∧ bankPort 4 1 ≠ 0) ∧
    (let u := { Sump.reset with flushes := [0], queues := [(0, { vis := [3] })] }
     (sumpState (qSet true) u).sump.flushes = [0] ∧ (sumpState (qSet true) u).sump.doneCells = []) ∧
    (runState.heldStandby .spi = false ∧ (inMode .standby runState).reach (RegKind.sumpQcmd.addr 0) = .silent) ∧
    runState.reach (RegKind.sumpQcmd.addr 0) = .open ∧
    ((packetState true).queue 0).flushing = false ∧
    ((sumpState 0 { Sump.reset with queues := [(2047, { flushing := true })] }).queue 2047).flushing = true ∧
    runState.staleDue 0 = false ∧
    ((staleState false).staleDue 0 = true ∧ qPkt (staleState false).cfg 0 = true ∧ ((staleState false).queue 0).opens = 3 :: [] ∧
      (staleState false).commitMode 0 = false) ∧
    ((staleState true).staleDue 0 = true ∧ (staleState true).commitMode 0 = true ∧ ((staleState true).desc 3).vis = false ∧
      ((staleState true).desc 3).queue = 0) := by decide +kernel

/-- The first cell taken after a reset is cell 0 (08_sump R178). -/
theorem test_push_takes_cell_0 :
    after (exec (.sumpPush 0 0 (.given client0 (sumpBeat 0))) (sumpState (qSet false) Sump.reset)) (fun t =>
      (t.queue 0).stream = [0] ∧ t.sump.freshCell = 1) = true := by decide +kernel

/-- A pop's beat comes with the cell's bank, and the cell goes back at the clock's end (08_sump R168, R184). -/
theorem test_pop_returns_cell :
    after (exec (.sumpPop 3 0 {} {}) (asks streamState)) (fun t =>
      t.sump.reads = [{ port := 3, cell := some 7, beats := [sumpBeat 0], dest := .master 0 0 }] ∧ t.sump.gone = [7] ∧
        (t.queue 0).stream = [] ∧ tabGet [] (serveReads t).sump.got 3 = [sumpBeat 0]) = true := by decide +kernel

/-- A pop of an empty queue returns a beat with `NV` alone set (08_sump R184). -/
theorem test_pop_of_nothing :
    after (exec (.sumpPop 3 0 {} {}) (asks (sumpState (qSet false) Sump.reset))) (fun t =>
      t.sump.reads.map (·.beats) = [[{ data := 0, tag := 0x8000 }]] ∧ t.reg .sumpCntEmpty 0 = 1) = true := by decide +kernel

/-! ### Portals and crossings -/

/-- Cavern 0 live, with lane 0 and its portals enabled (width by `w`), the lane's protocol and link state, and the lane. -/
def laneState (w proto st : Nat) (l : Lane) : State :=
  withRegs [(.lnLinkStatus, 0, st)]
    { fabricState ([(41, 0, 1, 0, 1 + 8 * w), (41, 0, 1, 32, 1 + 8 * w), (40, 0, 0, 12, 1), (40, 0, 0, 32, proto)] ++ shows 0 0 ++ shows 0 1 ++
        edges 0 0 64 2 1 ++ edges 0 1 16 1 1)
        [(cellKey 0 0 0 0, { src0 := .v0 }), (cellKey 0 0 0 1, { src0 := .v1 }), (cellKey 0 0 1 0, { src0 := .v0 })] with
      lanes := [(0, l)] }
/-- A portal of that state. -/
def withPortal (p : Nat) (v : Portal) (s : State) : State := { s with portals := [(p, v)] }
/-- The lane's portals. -/
def inP : PortalId := .lane 0 false
/-- The OUT portal. -/
def outP : PortalId := .lane 0 true
/-- Site 40 of cavern 16 (a Hauler portal) and site 32 (a Sump portal), enabled in both directions; cavern 16 live. -/
def siteState : State :=
  { runState with cavs := [(16, liveCav)]
                  cfg := cfgOf [(41, 16, 0, 32 * 80, 1), (41, 16, 0, 32 * 81, 1), (41, 16, 0, 32 * 64, 1), (41, 16, 0, 32 * 65, 1)] }

theorem witness_PortalEnqueue :
    portalEn runState.cfg 383 = false ∧
    (portalEn (laneState 0 2 5 {}).cfg 1 = true ∧ (laneState 0 2 5 {}).islandUp 1 = true ∧
      ((laneState 0 2 5 {}).portal 1).queue.length < portalDepth (laneState 0 2 5 {}).cfg 1 ∧ portalNo outP = 1 ∧
      (laneState 0 2 5 {}).fabricUp 1 = true ∧ (laneState 0 2 5 {}).outToken (attPortal 1) = some 1) ∧
    (siteState.islandUp (sitePortal 16 40 1) = true ∧ portalEn siteState.cfg (sitePortal 16 40 1) = true ∧
      siteState.outToken (attPortal (sitePortal 16 40 1)) = none) ∧
    (let s := withPortal (sitePortal 16 40 0) { stage := [(7, 1)] } siteState
     portalEn s.cfg (sitePortal 16 40 0) = true ∧ s.islandUp (sitePortal 16 40 0) = true ∧
      (s.portal (sitePortal 16 40 0)).stage = (7, 1) :: []) ∧
    (siteState.portal (sitePortal 16 40 0)).stage = [] ∧
    (let s := laneState 0 3 5 { adit := { rxTokens := [(9, 1)] } }
     portalEn s.cfg 0 = true ∧ s.islandUp 0 = true ∧ s.isAdit 0 = true ∧ (s.lane 0).adit.rxTokens = (9, 1) :: []) ∧
    (let a : RxBlk := { ctrl := false, payload := 1, err := false, gap := false }
     let s := laneState 1 2 5 { rx := { buf := [a, a] } }
     s.islandUp 0 = true ∧ s.isAdit 0 = false ∧ (s.lane 0).rx.buf = a :: [a] ∧ a.isTerm = false ∧ portalWidth s.cfg 0 = 128 ∧
      portalWidth (laneState 0 2 5 {}).cfg 0 = 64 ∧ ((laneState 0 2 5 {}).lane 0).rx.buf = []) ∧
    (let a : RxBlk := { ctrl := true, payload := 0x87, err := false, gap := true }
     a.isTerm = true ∧ a.gap = true ∧ lnProto (laneState 1 1 5 {}).cfg 0 = 1) ∧
    ({ laneState 0 2 5 {} with power := { runState.power with retention := true } } : State).power.retention = true := by decide +kernel

theorem witness_PortalDeliver :
    (runState.portal 0).queue = [] ∧
    (let s := withPortal 0 { queue := [(5, 1)] } (laneState 0 2 5 {})
     portalEn s.cfg 0 = true ∧ s.islandUp 0 = true ∧ (s.portal 0).queue = (5, 1) :: [] ∧ s.fabricUp 0 = true ∧
      (s.attIn (attPortal 0)).ph = .idle) ∧
    (let s := withPortal 0 { queue := [(5, 1)] } { laneState 0 2 5 {} with cavs := [] }
     s.islandUp 0 = true ∧ s.fabricUp 0 = false) ∧
    (let p := sitePortal 16 32 1
     let s := withPortal p { queue := [(5, 0)] } siteState
     portalEn s.cfg p = true ∧ s.islandUp p = true ∧ p % 2 = 1 ∧ 192 ≤ p ∧ 32 ≤ (p - 192) % 108 / 2 ∧ (p - 192) % 108 / 2 < 40 ∧
      (s.portal p).queue = (5, 0) :: []) ∧
    (let s := withPortal 1 { queue := [(5, 1)] } (laneState 0 2 5 {})
     (s.portal 1).ready < (s.portal 1).queue.length ∧ portalTxstart s.cfg 1 ≤ (frameWords ((s.portal 1).queue.drop 0)).1) ∧
    ¬ ((laneState 0 2 5 {}).portal 1).ready < ((laneState 0 2 5 {}).portal 1).queue.length := by decide +kernel

theorem witness_IslandCrossingTransfer :
    (inMode .load (unstarted runState)).blocksRun = false ∧
    (let s := { laneState 0 2 5 {} with crossings := { runState.crossings with toCrusher := [(0, [onePacket 2])] } }
     s.blocksRun = true ∧ tabGet [] s.crossings.toCrusher 0 = onePacket 2 :: [] ∧ (tabGet [] s.crushers.inbuf 0).length < 32) ∧
    tabGet [] runState.crossings.toCrusher 95 = [] ∧
    (let s := { laneState 0 2 5 {} with crossings := { runState.crossings with fromCrusher := [(0, [onePacket 2])] } }
     tabGet [] s.crossings.fromCrusher 0 = onePacket 2 :: [] ∧ s.laneOn 0 = true ∧ s.laneState 0 = 5 ∧
      (s.lane 0).tx.out.length + 6 ≤ 64) ∧
    (∀ o : Bool,
     let s := { laneState 0 2 5 { tx := { opened := o } } with crossings := { runState.crossings with fromSump := [(0, [notValidBeat false])] } }
     tabGet [] s.crossings.fromSump 0 = notValidBeat false :: [] ∧ s.laneOn 0 = true ∧ s.laneState 0 = 5 ∧
      (s.lane 0).tx.out.length + 18 ≤ 64 ∧ (notValidBeat false).nv = true ∧ (s.lane 0).tx.opened = o) ∧
    (({ runState with crushers := { Crushers.reset with stops := [(0, onePacket 1)] } } : State).crushers.stops.all fun x => decide (x.1 ≠ 0)) = false ∧
    runState.laneOn 95 = false := by decide +kernel

/-- A multi-bit crossing in a state. -/
def multiState (m : MultiBit) : State := { runState with clocks := { runState.clocks with sys := 5 }
                                                         crossings := { runState.crossings with multi := [(1023, m)] } }

theorem witness_MultibitCrossing :
    runState.sysRuns = true ∧ (runState.multi 1023).loadedAt = 0 ∧
    ((multiState { loadedAt := 2 }).multi 1023).loadedAt + 3 ≤ (multiState { loadedAt := 2 }).clocks.sys ∧
    (((multiState { loadedAt := 3 }).multi 1023).loadedAt ≠ 0 ∧
      (multiState { loadedAt := 3 }).clocks.sys < ((multiState { loadedAt := 3 }).multi 1023).loadedAt + 3) ∧
    (runState.multi 0).waiting = false ∧
    (((multiState { waiting := true, misses := 1 }).multi 1023).waiting = true ∧
      ((multiState { waiting := true, misses := 1 }).multi 1023).misses < 2) ∧
    2 ≤ ((multiState { waiting := true, misses := 2 }).multi 1023).misses ∧ (0 : BitVec 64) ≠ 1 ∧
    (∀ n ∈ [2, 3], ((multiState { loadedAt := n, next := some 7 }).multi 1023).next = some 7 ∧
      (((multiState { loadedAt := n, next := some 7 }).multi 1023).loadedAt + 3 ≤ 5 ↔ n = 2)) := by decide +kernel

/-- An event class whose last acceptance was in clock `n`, at clock 5, with an event in flight. -/
def eventState (n : Nat) : State :=
  { runState with clocks := { runState.clocks with sys := 5 }
                  crossings := { runState.crossings with accepted := [(0, n)], flight := [(0, 64)] } }

theorem witness_EventCrossing :
    tabGet 0 runState.crossings.accepted 4 = 0 ∧
    tabGet 0 (eventState 3).crossings.accepted 0 + 2 ≤ (eventState 3).crossingClock 0 ∧
    (tabGet 0 (eventState 4).crossings.accepted 0 ≠ 0 ∧ (eventState 4).crossingClock 0 < tabGet 0 (eventState 4).crossings.accepted 0 + 2) ∧
    (0, 64) ∈ (eventState 3).crossings.flight ∧ (4, 383) ∉ (eventState 3).crossings.flight := by decide +kernel

/-- The port 2 entry names lane 0, which drains queue 0, with its link state; the second beat of a popped cell waits where `b`. -/
def drainState (b : Bool) (st : Nat) (l : Lane) : State :=
  { withRegs [(.lnLinkStatus, 0, st)] runState with
    cfg := cfgOf [(41, 40, 0, 0, 0xA000), (40, 0, 0, 12, 1), (40, 0, 0, 32, 2), (40, 0, 0, 59, 1), (43, 0, 0, 0, qSet false)], lanes := [(0, l)]
    crossings := { runState.crossings with sumpHeld := if b then [(0, [sumpBeat 1])] else [] } }

theorem witness_LaneQueueDrain :
    runState.port2Now = 0 ∧
    (∀ b : Bool, ∀ a ∈ [(5, false), (2, true)],
      let s := drainState b a.1 { tx := { skip := a.2, draining := a.2 } }
      bitAt 15 s.port2Now = true ∧ bitAt 14 s.port2Now = false ∧ bitAt 13 s.port2Now = true ∧ bitsOf 0 7 s.port2Now = 0 ∧
        s.blocksRun = true ∧ s.portTakes 2 0 true = true ∧ lnTxqEn s.cfg 0 = true ∧ s.benchOn 0 = true ∧ s.reading (.lane 0) = false ∧
        s.laneState 0 = a.1 ∧ tabGet [] s.crossings.fromSump 0 = [] ∧ (s.lane 0).tx.out.length + 32 ≤ 64 ∧
        tabGet [] s.crossings.sumpHeld 0 = (if b then [sumpBeat 1] else [])) ∧
    (let r : SRead := { port := 2, cell := some 7, beats := [sumpBeat 0, sumpBeat 1], dest := .lane 0 }
     r ∈ ({ drainState false 5 {} with sump := { Sump.reset with reads := [r] } } : State).sump.reads ∧ r.beats.any SumpBeat.nv = false ∧
      r.beats ≠ []) ∧
    runState.laneState 95 ≠ 5 := by decide +kernel

/-- The first token after a reset carries RST, tag bit 15 (09_portals R202, R211). -/
theorem test_first_token_carries_rst :
    after (exec (.portalDeliver inP) (withPortal 0 { queue := [(5, 1)] } (laneState 0 2 5 {}))) (fun t =>
      (t.attIn (attPortal 0)).val = 5 + 2 ^ 64 * (1 + 2 ^ 15) ∧ (t.portal 0).rst = false) = true := by decide +kernel

/-- A third pair that disagrees counts and raises EV014 (09_portals R214). -/
theorem test_multibit_fails :
    after (exec (.multibitValueAccept 1023 0 1) (multiState { waiting := true, misses := 2, seen := 9 })) (fun t =>
      t.reg .xcFail 0 = 1 ∧ t.bit .evtPend 0 14 = true ∧ (t.multi 1023).seen = 9) = true := by decide +kernel

/-! ### Haulers -/

/-- A descriptor of sequential bytes from the shared RAM to itself: `n` bytes, pacing request, its last. -/
def ramDesc (n req : Nat) : List Word := [0x30080000, 0x30081000, word n, 0x00070007, 0, word req, 0, 1]
/-- Channel 0 owns the slot of this clock. -/
def haulState (v : Hauler) : State :=
  { runState with cfg := cfgOf [(44, 0, 0, 0, 0x4000)], haul := { chans := [(0, v)], asked := 0, used := 0 } }
/-- A channel in RUN with a burst of 128 bytes in progress and a beat in hand. -/
def inBurst (n : Nat) (st : List StagedBeat) (out : Nat) : Hauler :=
  { st := 2, desc := ramDesc n 0, burst := some 128, left := n, staged := st, out := 0x55, outLen := out }

theorem witness_HaulerControls :
    (inMode .patrol runState).reach (RegKind.hchCtrl.addr 63) ≠ .open ∧ runState.reach (RegKind.hchCtrl.addr 63) = .open ∧
    (runState.master 63).st = 0 ∧ ((haulState { st := 5 }).master 0).st = 5 ∧
    (((haulState (inBurst 256 [] 0)).master 0).st = 2 ∧ ((haulState (inBurst 256 [] 0)).master 0).burst.isSome = true) ∧
    (((haulState { st := 3, desc := ramDesc 256 0 }).master 0).burst = none ∧ ((haulState { st := 3 }).master 0).pause = false) ∧
    (((haulState { st := 4, cur := 0x30080000 }).master 0).st = 4 ∧
      ∀ a ∈ ((haulState { st := 4, cur := 0x30080000 }).master 0).places, targetCav a = none) := by decide +kernel

/-- A channel in FETCH at an address of the shared RAM. -/
def fetchState (ram : Mem) : State :=
  { haulState { st := 1, cur := 0x30080000 } with foreman := { Foreman.reset with ram := ram } }
/-- Bytes of a legal descriptor. -/
def descBytes : Mem :=
  memWrite ramFill [] 0x80000 ((ramDesc 256 0).flatMap fun w => bytesOf w.toNat 4)

theorem witness_DescriptorFetch :
    runState.slotFree 0 = false ∧
    ((fetchState descBytes).slotFree 0 = true ∧ ((fetchState descBytes).master 0).st = 1 ∧ ((fetchState descBytes).master 0).pause = false ∧
      targetOf 0x30080000 = .ram 0x80000) ∧
    (let d := natOfBytes (memRead ramFill descBytes 0x80000 32)
     let n : Hauler := { cur := 0x30080000, desc := (List.range 8).map fun i => word (d >>> (32 * i)), st := 2 }
     descError (fetchState descBytes).cfg 0 n = 0) ∧
    descError (fetchState []).cfg 0 { cur := 0x30080000, desc := List.replicate 8 0, st := 2 } = herrDescBad ∧
    targetOf 0x60000000 = .nowhere ∧
    (readDesc 0 0x10000000 (useSlot { haulState { st := 1, cur := 0x10000000 } with cfg := cfgOf [(0, 64, 0x12, 6, 1), (44, 0, 0, 0, 0x4000)] })).1
      = .fails herrTarget 1 ∧
    (readDesc 0 0x10000000 (useSlot { haulState { st := 1, cur := 0x10000000 } with
      cfg := cfgOf [(0, 64, 0x12, 6, 1), (44, 0, 0, 0, 0x4000)], cavs := [(0, liveCav)]
      pockets := { runState.pockets with restoring := [0] } })).1 = .waits := by decide +kernel

/-- A read of two beats of the shared RAM. -/
def ramRead : ReadReq := { kind := .seq, addr := 0x30080004, stage := 2, left := 2 }

theorem witness_HaulerReads :
    (let s := haulState { st := 2, waiting := [ramRead] }
     s.blocksRun = true ∧ s.clocks.sys % 65 = 0 ∧ s.haul.asked ≠ s.clocks.sys + 1 ∧ (s.master 0).opened.length < 32 ∧ s.readsOut < 2048 ∧
      (s.master 0).waiting = ramRead :: []) ∧
    (runState.master 64).waiting = [] ∧ (runState.master 64).opened.findIdx? (fun r => decide (0 < r.stage)) = none ∧
    (let s := haulState { st := 2, opened := [ramRead] }
     (s.master 0).opened.findIdx? (fun r => decide (0 < r.stage)) = some 0 ∧ (s.master 0).opened[0]? = some ramRead ∧
      targetOf ramRead.addr = .ram 0x80004 ∧ (stageOne 0 ramRead s).1.isSome = true) ∧
    (stageOne 0 { kind := .seq, addr := 0x40000000, stage := 1, left := 1 } { siteState with cfg := cfgOf [(41, 16, 0, 32 * 81, 1)] }).1
      = none := by decide +kernel

theorem witness_HaulerBeats :
    (haulState {}).slotFree 0 = true ∧
    ((haulState { st := 2, pause := true }).master 0).pause = true ∧
    (((haulState { st := 2, skip := 3 }).master 0).burst = none ∧ 0 < ((haulState { st := 2, skip := 3 }).master 0).skip) ∧
    ((haulState {}).paced { st := 2, desc := ramDesc 256 129 } = false) := by decide +kernel

/-- A source beat staged. -/
def srcBeat : StagedBeat := { data := 1, bytes := 128 }

theorem witness_MovesBeat :
    ∀ st ∈ [[], [srcBeat]],
      let s := haulState (inBurst 256 st (if st = [] then 1024 else 0))
      let v := s.master 0
      let v0 := match v.staged with | b :: _ => takeSeq v b false | [] => v
      let nb := v.beatEnd v.db
      s.slotFree 0 = true ∧ v.st = 2 ∧ v.burst = some 128 ∧ v.stop = false ∧ v.ixm = 0 ∧ v.pkt = false ∧ v.popsSource = false ∧
      (targetOf v.dst).memory = true ∧ targetOf (v.dst + v.db) = .ram 0x81000 ∧ nb < v.extent ∧ srcBeat.nv = false ∧
      v.holdLen ≤ 1024 ∧ v.conv + v.holdLen / v.sw < v.total ∧
      8 * (nb - v.db) ≤ (convert (8 * (nb - v.db)) 1024 v0).outLen := by decide +kernel

theorem witness_HaulerBeat_ends :
    (let s := haulState (inBurst 128 [] 1024)
     let v := s.master 0
     v.stopErr = none ∧ targetOf (v.dst + v.db) = .ram 0x81000 ∧ v.db < v.extent ∧ v.extent ≤ v.beatEnd v.db ∧
      8 * (v.beatEnd v.db - v.db) ≤ (convert (8 * (v.beatEnd v.db - v.db)) 1024 v).outLen) ∧
    (let s := haulState (inBurst 256 [] 0)
     let v := s.master 0
     let v1 := convert (8 * (v.beatEnd v.db - v.db)) 1024 v
     v.staged = [] ∧ v.db < v.extent ∧ v1.outLen < 8 * (v.beatEnd v.db - v.db) ∧ v1.conv ≠ v1.total) ∧
    (((haulState { st := 1, pause := true }).master 0).pause = true ∧ ((haulState { st := 1, pause := true }).master 0).burst = none ∧
      (haulState { st := 1, pause := true }).power.dom = []) := by decide +kernel

/-- START of an idle channel: FETCH at `HCHnn_DESC` (10_haulers R225). -/
theorem test_hauler_start :
    after (exec (.haulerStart .spi 0) (withRegs [(.hchDesc, 0, 0x30080000)] runState)) (fun t =>
      (t.master 0).st = 1 ∧ (t.master 0).cur = 0x30080000) = true := by decide +kernel

/-- Sign extension of 0x80 from 8 to 16 bits, and its left alignment (10_haulers R227). -/
theorem test_element_conversion : convElem 1 8 16 0x80 = 0xFF80 ∧ convElem 2 8 16 0x80 = 0x8000 ∧ convElem 0 16 8 0x1234 = 0x34 := by
  decide +kernel

/-- The last beat of a descriptor is written, and the channel is done (10_haulers R226). -/
theorem test_last_beat :
    after (exec (.haulerBeat 0) (haulState (inBurst 128 [] 1024))) (fun t =>
      (t.master 0).st = 6 ∧ tabGet 0 t.foreman.ram 0x81000 = 0x55) = true := by decide +kernel

/-! ### Lanes -/

/-- Lane 0 at a rate, with its protocol, hot-plug mode, link state, PMA status, further registers and the lane itself; its reference clock
is valid. -/
def lnk (rate proto hp st pma : Nat) (more : List (RegKind × Nat × Nat)) (l : Lane) : State :=
  withRegs ((.lnLinkStatus, 0, st) :: (.lnPmaStatus, 0, pma) :: (.lbStatus, 0, 1) :: more)
    { runState with
      cfg := cfgOf [(40, 0, 0, 11, 1), (40, 0, 0, 12, rate), (40, 0, 0, 32, proto), (40, 0, 0, 40, hp), (40, 24, 1, 16, 1),
        (40, 24, 0, 63, 1), (40, 24, 0, 60, rate)]
      lanes := [(0, l)] }
/-- Bench 23, with lane 95, is off. -/
def bench23Off : State := { runState with power := { runState.power with lbOff := [(23, true)] } }

theorem witness_LaneClocks :
    runState.laneOn 95 = false ∧
    (let on := fun (s : State) => s.laneOn 0 = true ∧ s.refOk 0 = true ∧ s.bit .lnPmaStatus 0 0 = false
     (on (lnk 1 2 0 2 0x10 [] {}) ∧ (lnk 1 2 0 2 0x10 [] {}).idleAsked 0 = false ∧ (lnk 1 2 0 2 0x10 [] {}).laneState 0 = 2 ∧
      (lnk 1 2 0 2 0x10 [] {}).ready 0 = true) ∧
     (on (lnk 1 1 0 2 0x10 [] {}) ∧ lnProto (lnk 1 1 0 2 0x10 [] {}).cfg 0 = 1) ∧
     (on (lnk 1 2 0 4 0 [] { tx := { idleWanted := true } }) ∧ (lnk 1 2 0 4 0 [] { tx := { idleWanted := true } }).idleAsked 0 = true ∧
      (lnk 1 2 0 4 0 [] {}).ready 0 = false ∧ ((lnk 1 2 0 4 0 [] {}).lane 0).rx.locking = false) ∧
     on (lnk 1 2 0 1 0 [] {})) ∧
    refUsed runState.cfg 11 = false ∧
    (let s := lnk 1 2 0 5 1 [] {}
     refUsed s.cfg 0 = true ∧ s.bit .lbStatus 0 0 = true ∧ s.pmaOn 0 = true ∧ s.laneState 0 = 5) ∧
    (let s := withRegs [(.lbStatus, 0, 0)] (lnk 1 2 0 5 1 [] {})
     refUsed s.cfg 0 = true ∧ s.bit .lbStatus 0 0 = false ∧ s.sysRuns = true ∧ s.configured = true) ∧
    (bench23Off.reach (RegKind.lnPmaCtrl.addr 95) = .off ∧ runState.reach (RegKind.lnPmaCtrl.addr 95) = .open) ∧
    (let s := lnk 1 2 0 5 3 [(.lnEq, 0, 1)] {}
     s.reach (RegKind.lnPmaCtrl.addr 0) = .open ∧ s.laneOn 0 = true ∧ s.signal 0 = true ∧ s.bit .lnEq 0 0 = true) := by decide +kernel

theorem witness_LaneReceiver :
    (let seen := fun (s : State) => lnRate s.cfg 0 ≠ 0 ∧ s.benchOn 0 = true ∧ s.configured = true
     (seen (lnk 1 2 0 2 0 [] {}) ∧ (lnk 1 2 0 2 0 [] {}).signal 0 = false ∧ (lnk 1 2 0 2 0 [] {}).laneOn 0 = true ∧
       (lnk 1 2 0 2 0 [] {}).refOk 0 = true ∧ lnCfg (lnk 1 2 0 2 0 [] {}).cfg 0 11 1 = 1) ∧
     ((lnk 1 2 2 1 0 [] {}).signal 0 = false ∧ (lnk 1 2 2 1 0 [] {}).laneState 0 = 1 ∧ lnHpMode (lnk 1 2 2 1 0 [] {}).cfg 0 = 2 ∧
       (lnk 1 2 2 1 0 [] {}).gen 0 = 0) ∧
     (seen (lnk 1 2 0 5 2 [] {}) ∧ (lnk 1 2 0 5 2 [] {}).signal 0 = true ∧ (lnk 1 2 0 5 2 [] {}).pmaOn 0 = true ∧ (lnk 1 2 0 5 2 [] {}).loop 0 ≠ 1) ∧
     (∀ sd ∈ [0, 2], seen (inMode .standby (lnk 1 2 0 2 sd [] {})) ∧ (inMode .standby (lnk 1 2 0 2 sd [] {})).sysRuns = false ∧
       (inMode .standby (lnk 1 2 0 2 sd [] {})).signal 0 = decide (sd = 2)) ∧
     lnRate runState.cfg 95 = 0) ∧
    (∀ s ∈ [lnk 1 2 0 2 2 [] { rx := { locking := true, heard := true } }, lnk 4 2 0 2 2 [] { rx := { locking := true, heard := true } }],
      s.laneOn 0 = true ∧ s.hears 0 = true ∧ s.linkIdle 0 = false ∧ (s.lane 0).rx.locking = true ∧ (s.lane 0).rx.heard = true ∧ s.signal 0 = true ∧ s.refOk 0 = true) ∧
    (lnPam4 (lnk 1 2 0 2 2 [] {}).cfg 0 = false ∧ lnPam4 (lnk 4 2 0 2 2 [] {}).cfg 0 = true ∧ levelsPass 0 0 0 0 = false ∧
      levelsPass 0x90 0xD0 0x30 0x70 = true) ∧
    ((lnk 1 2 0 5 0x10 [] {}).pmaOn 0 = true ∧ (lnk 1 2 0 5 0x10 [] {}).ready 0 = true ∧ runState.pmaOn 95 = false) ∧
    ((lnk 1 2 0 5 1 [] { tx := { idleWanted := true } }).pmaOn 0 = true ∧
      (lnk 1 2 0 5 1 [] { tx := { idleWanted := true } }).idleAsked 0 = true ∧ (lnk 1 2 0 5 1 [] {}).bit .lnPmaStatus 0 5 = false) ∧
    (let s := lnk 1 2 0 5 0x21 [] {}
     s.laneOn 0 = true ∧ s.idleAsked 0 = false ∧ s.bit .lnPmaStatus 0 5 = true ∧ s.bit .lnPmaStatus 0 0 = true) ∧
    ((lnk 1 2 0 2 0 [] { rx := { locking := true, heard := true } }).hears 0 = false ∧
      (lnk 1 2 0 5 1 [(.lnPmaCtrl, 0, 64)] {}).linkIdle 0 = false ∧ (lnk 1 2 0 5 1 [(.lnPmaCtrl, 0, 64)] {}).idleAsked 0 = true ∧
      (lnk 1 2 0 5 1 [] { tx := { idleWanted := true } }).linkIdle 0 = true) ∧
    (let s := lnk 1 2 0 5 0x42 [] {}
     s.laneOn 0 = true ∧ s.bit .lnPmaStatus 0 6 = true ∧ s.signal 0 = true ∧ (s.lane 0).rx.lost = false ∧ (s.lane 0).rx.locking = false ∧
      8 ≤ burstErrors false [] ∧ burstErrors false (burstPrbs false) < 8) ∧
    isTaken .spi .lnEq 0 (lnk 1 2 0 5 0 [] {}) = true ∧ (writtenLater .lnEq 0 1 (lnk 1 2 0 5 0 [] {})).outranked 0 (RegKind.lnEq.addr 0) = true ∧
    (beqFits (lnk 1 2 0 5 0 [] {}).cfg 0 0 = true ∧ beqFits (lnk 1 2 0 5 0 [] {}).cfg 0 63 = false ∧
      (lnk 1 2 0 5 0 [] {}).reach (RegKind.lnEq.addr 0) = .open ∧
      bench23Off.reach (RegKind.lnEq.addr 95) = .off) := by
  decide +kernel

theorem witness_LanePatterns :
    (∀ k ∈ [RegKind.lnPatCtrl, .lnMargin, .lnPmaCtrl], bench23Off.reach (k.addr 95) = .off ∧
      (lnk 1 2 0 5 0x10 [] {}).reach (k.addr 0) = .open) ∧
    (patternAllowed (lnk 1 2 0 5 0x10 [] {}).cfg 0 15 = false ∧ patternAllowed (lnk 1 2 0 5 0x10 [] {}).cfg 0 1 = true ∧
      (lnk 1 2 0 5 0x10 [] {}).laneOn 0 = true ∧ (lnk 1 2 0 5 0x10 [] {}).gen 0 = 0 ∧ (lnk 1 2 0 7 0x10 [(.lnPatCtrl, 0, 1)] {}).gen 0 ≠ 0 ∧
      lnHpMode (lnk 1 2 0 7 0x10 [(.lnPatCtrl, 0, 1)] {}).cfg 0 = 0 ∧ lnProto (lnk 1 0 0 0 0x10 [] {}).cfg 0 = 0) ∧
    ((lnk 1 2 0 5 0x10 [] {}).field .lnPatCtrl 0 8 4 ≠ 1 ∧ (lnk 1 2 0 5 0x10 [(.lnPatCtrl, 0, 0x100)] {}).field .lnPatCtrl 0 8 4 = 1) ∧
    (isTaken .spi .lnPatCtrl 0 (lnk 1 2 0 5 0x10 [] {}) = true ∧ isTaken .spi .lnMargin 0 (lnk 1 2 0 5 0x10 [] {}) = true ∧
      isTaken .spi .lnPmaCtrl 0 (lnk 1 2 0 5 0x10 [] {}) = true ∧ prbsTaps 1 ≠ none ∧ prbsTaps 15 = none) ∧
    (∀ n ∈ [127, 128], let s := lnk 1 2 0 5 0x10 [(.lnPatCtrl, 0, 0x100)] { rx := { chkRun := n } }
     s.pmaOn 0 = true ∧ s.ready 0 = true ∧ s.chkCode 0 = 1 ∧ s.chkLock 0 = false ∧ (s.checkerReady 0).isSome = decide (n = 128)) ∧
    (∀ e ∈ [2 ^ 63 - 1, 2 ^ 64 - 1],
     let s := rxBlock 0 [] (lnk 1 2 0 5 0x10 [(.lnPatCtrl, 0, 0x100), (.lnPatStatus, 0, 1), (.lnPrbsBitsLo, 0, 0xFFFFFFFF), (.lnPrbsBitsHi, 0, 0xFFFF)]
       { rx := { chkErr := e } })
     s.pmaOn 0 = true ∧ s.chkLock 0 = true ∧ (64 ≤ onesOf 1024 (s.lane 0).rx.chkErr ↔ e = 2 ^ 64 - 1)) ∧
    ((lnk 1 2 0 5 0x10 [(.lnMargin, 0, 0x80000000)] {}).bit .lnMargin 0 31 = true ∧
      ((lnk 1 2 0 5 0x10 [(.lnMargin, 0, 0x80000000)] {}).lane 0).rx.ui = 0) ∧
    (let s := lnk 1 2 0 5 0x10 [(.lnPatCtrl, 0, 0x21000000)] {}
     s.laneOn 0 = true ∧ s.bit .lnPatCtrl 0 29 = true ∧ s.field .lnPatCtrl 0 24 5 ≠ 0) ∧
    (let s := lnk 1 2 0 5 0x10 [] {}
     ¬ (s.gen 0 ≠ 0 ∨ s.bit .lnPatCtrl 0 29 = true) ∧ s.field .lnPatCtrl 0 24 5 = 0) ∧
    (let s := lnk 1 2 0 5 0x10 [] {}
     s.field .lnPmaCtrl 0 4 2 = 0 ∧ (0 : BitVec 2).toNat = 0 ∧ s.laneOn 0 = true ∧ runState.laneOn 95 = false) := by
  decide +kernel

/-- R256: an override that names entries not defined for the rate clears `OVR` and leaves the entries. -/
theorem test_eq_override_undefined :
    after (exec (.eqOverrideWrite .spi 0 0xFFF00001) (lnk 1 2 0 5 0 [(.lnEq, 0, 1)] {}))
      (fun t => t.reg .lnEq 0 == 0) = true := by decide +kernel

/-- R271: phase 33 is outside the offsets and is left as it was; 96 is inside. -/
theorem test_margin_phase :
    after (exec (.marginWrite .spi 0 33) (lnk 1 2 0 5 0 [] {})) (fun t => t.reg .lnMargin 0 == 0) = true ∧
    after (exec (.marginWrite .spi 0 96) (lnk 1 2 0 5 0 [] {})) (fun t => t.reg .lnMargin 0 == 96) = true := by decide +kernel

/-- A block that the peer's scrambler at 0 makes of a payload. -/
def lineBlk (hdr : BitVec 2) (p : Nat) : Block66 := { hdr := hdr, bits := BitVec.ofNat 64 (scrambleWord false 0 p).2 }
/-- A block held for a consumer. -/
def heldBlk : RxBlk := { ctrl := false, payload := 1, err := false, gap := false }

theorem witness_LaneBlocks_received :
    runState.laneOn 95 = false ∧
    (let s := lnk 1 1 0 5 0x11 [] {}
     s.laneOn 0 = true ∧ s.ready 0 = true ∧ lnProto s.cfg 0 = 1 ∧ s.laneState 0 = 5 ∧ (s.lane 0).rx.buf.length < 64 ∧ s.pmaOn 0 = true ∧
      s.loop 0 = 0 ∧ lnPam4 s.cfg 0 = false ∧ s.chkCode 0 = 0 ∧ (lnk 1 1 0 5 0x11 [(.lnPmaCtrl, 0, 32)] {}).loop 0 = 2 ∧
      (lnk 1 1 0 5 0x11 [(.lnPmaCtrl, 0, 16)] {}).loop 0 = 1 ∧
      ((lnk 1 1 0 5 0x11 [] { rx := { bits := List.replicate 63 true } }).lane 0).rx.bits.length = 63 ∧
      64 ≤ ((lnk 1 1 0 5 0x11 [] { rx := { buf := List.replicate 64 heldBlk } }).lane 0).rx.buf.length) ∧
    (∀ proto ∈ [2, 3], let s := lnk 1 proto 0 0x205 0x11 [] {}
     s.laneOn 0 = true ∧ s.ready 0 = true ∧ lnProto s.cfg 0 = proto ∧ s.bit .lnLinkStatus 0 9 = true ∧ s.laneState 0 = 5) ∧
    (let r := ((lnk 1 2 0 0x205 0x11 [] { rx := { align := some 0, bits := List.replicate 66 true, phase := 65 } }).lane 0).rx
     r.align = some 0 ∧ onesOf 64 r.inval < 16 ∧ 65 ≤ r.bits.length ∧ r.bits.length ≤ 66 ∧ (r.phase + 1) % 66 = 0) ∧
    (let p := fun (h : BitVec 2) (x : Nat) => (scrambleWord true 0 (lineBlk h x).bits.toNat).2
     p 2 fillPayload = fillPayload ∧ typeDefined false fillPayload = true ∧ typeDefined true fillPayload = true ∧
      p 1 0x1122334455667788 = 0x1122334455667788 ∧ typeDefined false 0x2D = false ∧ p 2 0x102D = 0x102D ∧
      typeDefined true 0x102D = true ∧ 0x102D % 256 = 0x2D) ∧
    lnRxCr (lnk 1 2 0 0x205 0x11 [] {}).cfg 0 = false ∧
    ((lnk 1 3 0 0x205 0x11 [] { adit := { frame := some [0x33] } }).lane 0).adit.frame = some [0x33] := by decide +kernel

/-- A transmit block that ends its frame. -/
def lastBlk : TxBlk := { ctrl := true, payload := 0x55, last := true }

theorem witness_LaneBlocks_sent :
    (∀ a ∈ [(1, 5, [], false), (2, 3, [], false), (2, 5, [lastBlk], false), (2, 5, [], true), (3, 5, [], false), (3, 4, [], false),
        (3, 5, [lastBlk], false)],
      let s := lnk 1 a.1 0 a.2.1 0x11 [] { tx := { out := a.2.2.1, inFrame := a.2.2.2 } }
      s.laneOn 0 = true ∧ s.bit .lnPmaStatus 0 0 = true ∧ s.bit .lnPmaStatus 0 5 = false ∧ s.gen 0 = 0 ∧ lnProto s.cfg 0 = a.1 ∧
        s.laneState 0 = a.2.1 ∧ (s.lane 0).tx.out = a.2.2.1 ∧ (s.lane 0).tx.inFrame = a.2.2.2 ∧ (s.lane 0).tx.sinceFill < 2048 ∧
        (s.portal (lanePortal 0 1)).ready = 0) ∧
    (let s := { lnk 1 1 0 5 0x11 [] {} with portals := [(1, { queue := [(5, 1)], ready := 1 })] }
     (s.portal (lanePortal 0 1)).ready ≠ 0 ∧ (s.portal (lanePortal 0 1)).queue = (5, 1) :: []) := by decide +kernel

theorem witness_LaneBlocks_modes :
    (let s := lnk 1 2 0 7 0x11 [(.lnPatCtrl, 0, 1)] {}
     s.laneOn 0 = true ∧ s.bit .lnPmaStatus 0 0 = true ∧ s.bit .lnPmaStatus 0 5 = false ∧ s.gen 0 ≠ 0 ∧ s.loop 0 = 0) ∧
    (let s := lnk 1 2 0 5 0x11 [(.lnPmaCtrl, 0, 16)] {}
     s.laneOn 0 = true ∧ s.gen 0 = 0 ∧ lnProto s.cfg 0 ≠ 0 ∧ lnFec s.cfg 0 = false ∧ s.loop 0 = 1) ∧
    (∀ k ∈ [0, 79], let s := { lnk 1 2 0 5 0x11 [] { tx := { cw := List.replicate k { hdr := 1, bits := 0 } } } with
       cfg := cfgOf [(40, 0, 0, 11, 1), (40, 0, 0, 12, 1), (40, 0, 0, 32, 6)] }
     lnFec s.cfg 0 = true ∧ (79 ≤ (s.lane 0).tx.cw.length ↔ k = 79)) ∧
    (let s := { lnk 1 2 0 5 0x11 [] {} with portals := [(1, { queue := [(5, 1)], ready := 1 })] }
     txFromPortal s.cfg 0 = true ∧ (s.portal (lanePortal 0 1)).ready ≠ 0) ∧
    ((lnk 1 2 0 5 0x11 [] { tx := { sinceFill := 2048 } }).lane 0).tx.sinceFill = 2048 := by decide +kernel

theorem witness_LaneBlocks_locks :
    (∀ n ∈ [63, 64], let s := lnk 1 2 0 2 0x11 [] { rx := { runs := [(5, n)] } }
     s.laneOn 0 = true ∧ s.ready 0 = true ∧ lnProto s.cfg 0 = 2 ∧ lnFec s.cfg 0 = false ∧ s.laneState 0 = 2 ∧
      s.bit .lnPmaStatus 0 0 = true ∧ (s.lane 0).rx.align = none ∧ s.lockPlace 0 = (if n = 64 then some 5 else none)) ∧
    (∀ v ∈ [2 ^ 15 - 1, 2 ^ 16 - 1], let s := lnk 1 2 0 0x205 0x11 [] { rx := { align := some 5, inval := v } }
     s.pmaOn 0 = true ∧ (s.lane 0).rx.align.isSome = true ∧ (16 ≤ onesOf 64 (s.lane 0).rx.inval ↔ v = 2 ^ 16 - 1)) ∧
    (∀ at0 ∈ [none, some 5], ∀ b ∈ [1, 2],
     let s := rxBlock 0 [] { lnk 1 2 0 5 0x11 [] { rx := { cw := List.replicate 5440 false, cwTried := false, cwPhase := 5, cwAlign := at0, cwBad := b } } with
       cfg := cfgOf [(40, 0, 0, 11, 1), (40, 0, 0, 12, 1), (40, 0, 0, 32, 6)] }
     s.laneOn 0 = true ∧ s.ready 0 = true ∧ lnFec s.cfg 0 = true ∧ s.codewordDue 0 = true ∧ (s.lane 0).rx.cwAlign = at0 ∧
      ((s.lane 0).rx.cwBad < 2 ↔ b = 1)) := by decide +kernel

/-- A TRAIN payload that matches lane 0's settings, with `RX_OK` as given. -/
def trainOf (ok : Nat) : Nat := 0x12D + 0x1000 * ok

theorem witness_LinkBringUp_trains :
    (runState.laneOn 95 = false) ∧
    (∀ st ∈ [4, 5, 6], ∀ p ∈ [trainOf 1, 0x22D],
      let s := lnk 1 3 0 st 0x11 [] { adit := { inbox := [.train p] } }
      s.laneOn 0 = true ∧ s.isAdit 0 = true ∧ s.laneState 0 = st ∧ trainMatches 0 p s = decide (p = trainOf 1) ∧
        (s.lane 0).adit.inbox.find? (fun m => match m with | .train _ => true | _ => false) = some (.train p)) ∧
    (∀ kept ∈ [true, false],
      let s := lnk 1 3 0 4 0x11 [] { adit := { matched := 8, oks := 8, kept := kept } }
      let a := (s.lane 0).adit
      s.laneOn 0 = true ∧ s.isAdit 0 = true ∧ s.laneState 0 = 4 ∧ 8 ≤ a.matched ∧ 8 ≤ a.oks ∧ a.kept = kept ∧ a.farEpoch = s.epoch 0 ∧
        seqDist a.txAck a.farRxNext ≤ seqDist a.txAck a.txNext) ∧
    (∀ hp ∈ [0, 2], let s := lnk 1 2 hp 2 1 [] {}
     s.laneOn 0 = true ∧ lnProto s.cfg 0 = 2 ∧ s.laneState 0 = 2 ∧ s.bit .lnLinkStatus 0 12 = false ∧ s.signal 0 = false ∧
      lnHpMode s.cfg 0 = hp) ∧
    (let s := lnk 1 3 0 5 0x11 [] { adit := { inbox := [.down] } }
     s.laneOn 0 = true ∧ s.isAdit 0 = true ∧ s.laneState 0 = 5 ∧
      ((s.lane 0).adit.inbox.find? fun m => match m with | .down => true | _ => false).isSome = true) ∧
    (let s := lnk 1 2 2 1 1 [] {}
     s.laneOn 0 = true ∧ s.laneState 0 = 1 ∧ lnHpMode s.cfg 0 = 2 ∧ s.bit .lnPmaStatus 0 0 = true) := by decide +kernel

theorem witness_LinkBringUp_writes :
    (bench23Off.reach (RegKind.lnLinkCtrl.addr 95) = .off ∧ runState.reach (RegKind.lnLinkCtrl.addr 95) = .open) ∧
    (∀ st ∈ [5, 0x102, 0x107, 3], let s := lnk 1 2 0 st 0x11 [] {}
     s.reach (RegKind.lnLinkCtrl.addr 0) = .open ∧ s.laneOn 0 = true ∧ s.bit .lnLinkStatus 0 8 = decide (256 ≤ st) ∧
      s.laneState 0 = st % 8 ∧ s.isAdit 0 = false ∧ s.bit .lnLinkCtrl 0 2 = false) ∧
    (lnk 1 3 0 5 0x11 [] {}).isAdit 0 = true ∧ isTaken .spi .lnLinkCtrl 0 (lnk 1 3 0 5 0x11 [] {}) = true ∧
    (lnk 1 3 0 0 0x11 [(.lnLinkCtrl, 0, 4)] {}).bit .lnLinkCtrl 0 2 = true ∧
    (let s := lnk 1 2 1 1 1 [] {}
     s.bit .lbHpd 0 0 = false ∧ s.sysRuns = true ∧ s.configured = true ∧ s.laneOn 0 = true ∧ lnHpMode s.cfg 0 = 1 ∧ s.laneState 0 = 1 ∧
      s.gen 0 = 0) ∧
    (let s := lnk 1 2 1 5 1 [(.lbHpd, 0, 3)] {}
     s.bit .lbHpd 0 0 = true ∧ s.laneOn 0 = true ∧ lnHpMode s.cfg 0 = 1 ∧ s.laneState 0 = 5) ∧
    ((inMode .standby runState).configured = true ∧ (inMode .standby runState).sysRuns = false ∧
      (inMode .load (unstarted runState)).configured = false) := by
  decide +kernel

/-- Lane 0 is an ADIT lane that is UP. -/
def aditUp (a : Adit) (out : List TxBlk) : State := lnk 1 3 0 5 0x11 [] { adit := a, tx := { out := out } }

theorem witness_AditLink_frames :
    runState.laneOn 95 = false ∧
    ((aditUp {} []).laneOn 0 = true ∧ (aditUp {} []).isAdit 0 = true ∧ (aditUp {} []).laneState 0 = 5) ∧
    ((aditUp {} [lastBlk]).lane 0).tx.out ≠ [] ∧
    (let s := { aditUp {} [] with portals := [(1, { queue := [(5, 1), (6, 2)], ready := 2 })] }
     let a := (s.lane 0).adit
     (s.lane 0).tx.out = [] ∧ a.resend = none ∧ min 8 (min (s.portal (lanePortal 0 1)).ready a.credits) = 2 ∧
      min 8 (min (runState.portal 1).ready a.credits) = 0) ∧
    (∀ toks ∈ [[], [(5, 1)]], ((aditUp { resend := some 0, tokens := toks } []).lane 0).adit.resend = some 0 ∧
      (((aditUp { resend := some 0, tokens := toks } []).lane 0).adit.tokens.drop (seqDist 0 0)).take 8 = toks) ∧
    (∀ seq ∈ [0, 4090, 8], ∀ bad ∈ [false, true], ∀ full ∈ [0, 256],
      let m := LinkMsg.frame seq [(5, 1), (6, 2)] bad
      let s := aditUp { inbox := [m], rxTokens := List.replicate full (1, 1) } []
      (s.lane 0).adit.inbox.find? (fun m => match m with | .frame _ _ _ => true | _ => false) = some m ∧
        (seqDist seq (s.lane 0).adit.rxNext < 2 ↔ seq = 0) ∧
        (seqDist seq (s.lane 0).adit.rxNext < 2048 ↔ seq ≠ 8)) := by decide +kernel

theorem witness_AditLink_answers :
    ((aditUp {} []).lane 0).adit.ackDue = false ∧ ((aditUp { ackDue := true } []).lane 0).adit.ackDue = true ∧
    (∀ k ∈ [1, 5], let s := aditUp { txNext := 2, tokens := [(5, 1), (6, 2)], inbox := [.ack k 0] } []
     let a := (s.lane 0).adit
     a.inbox.find? (fun m => match m with | .ack _ _ => true | _ => false) = some (.ack k 0) ∧
      (seqDist a.txAck k ≤ seqDist a.txAck a.txNext ↔ k = 1)) ∧
    (∀ k ∈ [0, 1, 2, 5], ∀ r ∈ [0, 3],
      let s := aditUp { txNext := 2, tokens := [(5, 1), (6, 2)], inbox := [.nak k 0], replays := r } []
      let a := (s.lane 0).adit
      a.inbox.find? (fun m => match m with | .nak _ _ => true | _ => false) = some (.nak k 0) ∧ a.replays = r ∧
        (seqDist a.txAck k ≤ seqDist a.txAck a.txNext ↔ k ≠ 5)) ∧
    (((aditUp {} []).lane 0).adit.inbox = [] ∧ ((aditUp {} []).lane 0).adit.tokens = []) ∧
    (∀ r ∈ [0, 3], let a := ((aditUp { txNext := 1, tokens := [(5, 1)], replays := r } []).lane 0).adit
      a.tokens ≠ [] ∧ a.txAck ≠ a.txNext ∧ a.replays = r) := by decide +kernel

/-- 12_lane_link R280: a scrambled block is descrambled to its payload. -/
theorem test_scrambler_inverse :
    (scrambleWord true 0 (scrambleWord false 0 0x1122334455667788).2).2 = 0x1122334455667788 := by decide +kernel

/-- 12_lane_link R301: an ADIT frame in order is taken and its tokens are acknowledged. -/
theorem test_adit_frame_taken :
    after (exec (.aditFrameReceive 0) (aditUp { inbox := [.frame 0 [(5, 1)] false] } []))
      (fun t => (t.lane 0).adit.rxNext == 1 && (t.lane 0).adit.ackDue && t.reg .lnAditRx 0 == 1) = true := by decide +kernel

/-! ### The Foreman -/

/-- A command's words: opcode, length and arguments; the class is that of its opcode. -/
def cmdW (op len : Nat) (args : List Nat) : List Word :=
  let cls := match opRow op with | some r => r.cls | none => 0
  (([op, len + 256 * cls] ++ args ++ List.replicate 16 0).take 16).map word
/-- A state whose Foreman runs and has one command posted, in mailbox `m`. -/
def posted (m : Nat) (c : List Word) (s : State) : State :=
  { s with foreman := { s.foreman with running := true, order := [m], mbox := [(m, { busy := true, cmd := c })] } }
/-- Command `op` in host mailbox 0, in RUN. -/
def asked (op len : Nat) (args : List Nat) : State := posted 0 (cmdW op len args) runState
/-- Host mailbox 0. -/
def mb0 : Mailbox := .host 0

/-- Site 48 of cavern 16 enabled, the cavern live, the Foreman running, and tokens of its OUT portal ready. -/
def fabricBox (q : List (Nat × Nat)) : State :=
  { runState with
    cavs := [(16, liveCav)], cfg := cfgOf [(41, 16, 0, 32 * 96, 1), (41, 16, 0, 32 * 97, 1)]
    foreman := { runState.foreman with running := true }
    portals := [(sitePortal 16 48 1, { queue := q, ready := q.length })] }
/-- Eight tokens from FIRST to LAST. -/
def message : List (Nat × Nat) := (1, 1) :: List.replicate 6 (0, 0) ++ [(0, 2)]

theorem witness_MailboxPosts :
    ((State.reset).postReaches .spi = false ∧ runState.postReaches .jtag = true ∧ runState.foreman.dead = false ∧
      runState.freeMailbox = some 0) ∧
    ({ runState with foreman := { runState.foreman with dead := true } }.foreman.dead = true) ∧
    (let s := { runState with foreman := { runState.foreman with posted := [(.i2c, 5)], order := [5], mbox := [(5, { busy := true })] } }
     portRankOf .spi < portRankOf .i2c ∧ s.foreman.waiting = [] ∧ s.foreman.posted = [(.i2c, 5)] ∧ s.unserved 5 = true ∧ (s.mboxAt 5).done = false) ∧
    (let s := { runState with foreman := { runState.foreman with waiting := [(.jtag, [word 7])], mbox := (List.range 16).map fun m =>
       (m, { busy := true, done := decide (m = 15) }) } }
     s.foreman.waiting = [(.jtag, [word 7])] ∧ s.foreman.posted = [] ∧ s.freeMailbox = none ∧ (s.mboxAt 15).done = true ∧
      (s.freshBits .mbxDone 0).getLsbD 15 = false) ∧
    ({ runState with foreman := { runState.foreman with mbox := (List.range 16).map fun m => (m, { busy := true }) } }.freeMailbox = none) ∧
    (inMode .quiet runState).power.mode = .quiet ∧
    (let s := { runState with foreman := { runState.foreman with mbox := [(15, { busy := true, done := true })] } }
     s.reach (RegKind.mbxDone.addr 0) = .open ∧ (s.mboxAt 15).done = true ∧ (s.mboxAt 0).done = false) ∧
    (∀ q ∈ [message, [(1, 0)]],
      let p := sitePortal 16 48 1
      let b := sitePortal 16 48 0
      let s := fabricBox q
      let v := s.portal p
      s.foreman.running = true ∧ s.islandUp p = true ∧ portalEn s.cfg p = true ∧ s.foreman.order.contains 16 = false ∧
        (s.portal b).stage = [] ∧ (s.portal b).queue = [] ∧ (s.attIn (attPortal b)).ph = .idle ∧ v.queue = q ++ [] ∧
        v.ready = q.length ∧ (s.mboxAt 16).gather = [] ∧ (s.mboxAt 16).discarding = false) ∧
    (message.length = 8 ∧ (message.map fun t => bitAt 0 t.2) = true :: List.replicate 7 false ∧
      (message.map fun t => bitAt 1 t.2) = List.replicate 7 false ++ [true] ∧ bitAt 0 0 = false) := by decide +kernel

/-- A staged response of a committed command, the Foreman restarting. -/
def restarting : State :=
  { runState with foreman := { runState.foreman with
      restarting := true, order := [3, 4], mbox := [(3, { busy := true, staged := some (List.replicate 16 7) }), (4, { busy := true })] } }

theorem witness_ForemanRestarts :
    ((State.reset).sysRuns = false) ∧
    (let s := asked 1 0 []
     s.sysRuns = true ∧ s.foreman.running = true ∧ s.foreman.restarting = false) ∧
    (restarting.foreman.restarting = true ∧ restarting.sysRuns = true ∧ 3 ∈ restarting.foreman.order ∧
      (restarting.mboxAt 3).staged = some (List.replicate 16 7) ∧ (restarting.mboxAt 4).staged = none) := by decide +kernel

/-- A HAUL_COPY at work in mailbox 0, and its master. -/
def copying (v : Hauler) : State :=
  { runState with
    foreman := { runState.foreman with running := true, order := [0], mbox := [(0, { busy := true, cmd := cmdW 0x603 12 [], work := .copy })] }
    haul := { chans := [(64, v)], asked := 0, used := 1 } }
/-- A job of mailbox 0 that programs the image store. -/
def jobState (commit : Option Nat) : State :=
  { asked 0x304 12 [] with conf := { runState.conf with job := some { mailbox := 0, off := 64, bytes := [1], commit := commit } } }

theorem witness_ForemanService :
    (runState.servable 0 = false) ∧
    ((asked 0x999 0 []).servable 0 = true ∧ preStatus 0 (cmdW 0x999 0 []) ≠ 0) ∧
    (∀ e ∈ foremanRows mb0, (asked 1 0 []).servable 0 = true ∧ preStatus 0 (cmdW 1 0 []) = 0 ∧
      (cmdOp (cmdW 1 0 []) = e.2.1 ↔ e.2.1 = 1)) ∧
    (∃ e ∈ foremanRows mb0, let s := inMode .load (unstarted (asked 0x301 4 [0]))
      s.servable 0 = true ∧ preStatus 0 (s.cmdOf 0) = 0 ∧ cmdOp (s.cmdOf 0) = e.2.1 ∧ needsConfig (s.cmdOf 0) = true ∧
        s.configured = false) ∧
    ((inMode .load (unstarted runState)).slotFree 64 = false ∧ runState.slotFree 64 = true ∧ runState.copyMailbox = none ∧ runState.power.dom = []) ∧
    (∀ st ∈ [5, 6, 7], ∀ stop : Bool, let s := copying { st := st, desc := ramDesc 256 0, stop := stop }
     s.slotFree 64 = false ∧ s.power.dom = [] ∧ s.copyMailbox = some 0 ∧ (s.master 64).st = st ∧ (s.master 64).stop = stop ∧
      targetOf (s.master 64).dst = .ram 0x81000 ∧ (s.master 64).err ≠ herrLast) ∧
    (runState.conf.job = none) ∧
    (∀ n ∈ [none, some 5], let s := jobState n
     s.conf.job = some { mailbox := 0, off := 64, bytes := [1], commit := n } ∧ s.sysRuns = true ∧ s.foreman.running = true) := by
  decide +kernel

/-- 14_foreman R330, R331: the first post goes to mailbox 0 and shows it, with the sequence number of its word. -/
theorem test_post_first :
    after (exec (.hostMailboxPost .spi 0x00AB0001) runState)
      (fun t => (t.portBank .spi).postRes == word 0xAB80 && (t.mboxAt 0).busy) = true := by decide +kernel

/-- 14_foreman R345: the staged response of a committed command is posted when the restart is complete. -/
theorem test_restart_posts_staged :
    after (exec .foremanRestartComplete restarting)
      (fun t => (t.mboxAt 3).done && t.foreman.order == [4] && t.foreman.running) = true := by decide +kernel

/-- `Served`, as a check. -/
def isServed (op : Nat) (s : State) : Bool :=
  let c := s.cmdOf 0
  s.servable 0 && preStatus 0 c == 0 && cmdOp c == op && (!(needsConfig c) || s.configured)

theorem witness_ForemanReads :
    (∀ e ∈ [(0x0001, 4, [7]), (0x0002, 0, []), (0x0004, 0, []), (0x0101, 4, [0x1001]), (0x0101, 4, [0x9999]), (0x0103, 4, [0x1001]),
        (0x0103, 4, [0x9999]), (0x0401, 4, [0xF7F]), (0x0401, 4, [0x80000F7F]), (0x0502, 4, [16383]), (0x0503, 4, [2047]),
        (0x0503, 4, [0x800007FF]), (0x0602, 8, [0x300FFFD0, 48]), (0x0702, 4, [0])],
      isServed e.1 (asked e.1 e.2.1 e.2.2) = true) ∧
    (paramKnown 0x1001 = true ∧ paramKnown 0x9999 = false ∧
      (List.range 1).find? (fun i => !(paramKnown (cmdArg (cmdW 0x0101 4 [0x9999]) i))) = some 0 ∧
      (paramGet (refId 0x1001) (refInst 0x1001) runState).1 = 1) ∧
    ((runState.desc 16383).used = false ∧ bitAt 31 0xF7F = false ∧ bitAt 31 0x80000F7F = true) := by decide +kernel

/-- Commands in mailboxes 0 and 1, in the order 1, 0. -/
def abortState (c1 : List Word) (w : Work) : State :=
  { runState with foreman := { runState.foreman with
      running := true, order := [1, 0]
      mbox := [(0, { busy := true, cmd := cmdW 0x0003 4 [1] }), (1, { busy := true, cmd := c1, work := w })] } }

theorem witness_ForemanWrites :
    (∀ e ∈ [(0x0102, 12, [0x1001, 100, 0]), (0x0102, 12, [0x1001, 101, 0]), (0x0601, 5, [0x30080000, 1]), (0x0301, 4, [39]),
        (0x0402, 4, [0xF7F]), (0x0501, 4, [2047]), (0x0203, 4, [39])],
      isServed e.1 (asked e.1 e.2.1 e.2.2) = true) ∧
    (setStatus 0x1001 100 runState = 0 ∧ setStatus 0x1001 101 runState ≠ 0) ∧
    (∀ a ∈ [(cmdW 0x0603 12 [0, 0, 16], Work.none, true), (cmdW 0x0701 8 [1, 0], Work.bist, true), (cmdW 0x0001 0 [], Work.none, false)],
      let s := abortState a.1 a.2.1
      isServed 0x0003 s = (a.2.2 || a.2.1 == .bist) ∧ s.foreman.order.contains 1 = true ∧
        (serviceClass 1 (s.cmdOf 1) = 2 ↔ a.2.2 = true) ∧ (s.mboxAt 1).work = a.2.1) ∧
    (let s := posted 16 (cmdW 0x0003 4 [1]) runState
     s.servable 16 = true ∧ preStatus 16 (s.cmdOf 16) = 0 ∧ needsConfig (s.cmdOf 16) = false) ∧
    (isServed 0x0003 (asked 0x0003 4 [15]) = true ∧ (asked 0x0003 4 [15]).foreman.order.contains 15 = false) ∧
    (∀ v ∈ [({ load := false, powered := true, freeze := true } : Cavern), { freeze := true }],
      let s := { asked 0x0301 4 [39] with cavs := [(39, v)] }
      isServed 0x0301 s = true ∧ (s.cav 39).freeze = true ∧ (s.cav 0).freeze = false) ∧
    (let s := asked 0x0402 4 [0xF7F]
     s.clientHeld 15 127 = false ∧
       { s with crushers := { s.crushers with held := [(clientKey 15 127, 39)] } }.clientHeld 15 127 = true) ∧
    (let s := { asked 0x0203 4 [39] with cavs := [(39, liveCav)] }
     isServed 0x0203 s = true ∧ s.domOff 39 = false ∧ s.domCmd 39 = none ∧ (asked 0x0203 4 [38]).domOff 38 = true) := by decide +kernel

/-- A command posted in a device with power management, some caverns supplied. -/
def workState (op len : Nat) (args : List Nat) : State :=
  { asked op len args with cavs := [(0, liveCav), (7, liveCav)], cfg := cfgOf [(46, 0, 0, 32, 1)] }

theorem witness_ForemanWork_domains :
    (∀ a ∈ [0, 0x80000000], let s := workState 0x0201 4 [a]
     isServed 0x0201 s = true ∧ s.domRefused 0 = false ∧ s.domOff 0 = false ∧ s.domBusy 0 = false ∧ s.masterIn 64 0 = false ∧
      s.conf.part = none ∧ forcedForm (s.cmdOf 0) = decide (a ≠ 0)) ∧
    (let s := workState 0x0201 4 [1]
     isServed 0x0201 s = true ∧ s.domOff 1 = true ∧ s.domRefused 1 = false) ∧
    (let s := { workState 0x0201 4 [0] with cavs := [(0, { liveCav with partialLoad := true })] }
     isServed 0x0201 s = true ∧ s.domBusy 0 = true ∧ s.domRefused 0 = false ∧ s.domOff 0 = false) ∧
    (let s := { workState 0x0202 4 [1] with power := { runState.power with dom := [(1, { up := true, waiting := false, mailbox := none })] } }
     isServed 0x0202 s = true ∧ s.domRefused 1 = true) ∧
    (isServed 0x0202 (workState 0x0202 4 [0]) = true ∧ (workState 0x0202 4 [0]).domOff 0 = false ∧
      isServed 0x0202 (workState 0x0202 4 [1]) = true ∧ (workState 0x0202 4 [1]).domOff 1 = true) := by decide +kernel

theorem witness_ForemanWork_modes :
    (∀ e ∈ [(9, Mode.run), (3, .maintenance), (5, .run), (6, .quiet), (7, .run), (0x80000006, .run), (4, .run), (3, .run)],
      let s := inMode e.2 (workState 0x0204 4 [e.1])
      isServed 0x0204 s = true ∧ pmbEn s.cfg = true ∧ s.deviceActive = false ∧ s.loadBusy = false ∧ s.power.dom = [] ∧
        (forcedForm (s.cmdOf 0) = decide (2 ^ 31 ≤ e.1))) ∧
    ({ runState with conf := { runState.conf with part := some (newLoad .partialImage .icp) } }.loadBusy = true) ∧
    (modeOf 9 = some .maintenance ∧ modeOf 5 = some .standby ∧ modeOf 4 = none) := by decide +kernel

theorem witness_ForemanWork_loads :
    (let s := asked 0x0302 4 [0]
     isServed 0x0302 s = true ∧ s.conf.load = none ∧ s.conf.liveSlot = none) ∧
    (let s := { workState 0x0302 4 [0] with conf := { runState.conf with liveSlot := some true } }
     let u := (setRegion 1 (endLoadOf 0 0x13 s)).setReg .cfgFrames 0 0
     isServed 0x0302 s = true ∧ s.conf.liveSlot = some true ∧ imageFrames s.conf.store (slotBase true) 0 (slotSize / 8) 64 = [] ∧
      (u.cav 0).crc = 0 ∧ carryBroken (setCause 0 .partialLoad u).cfg 0 = none) ∧
    (∀ e ∈ [(0, 0, 272), (0, 4, 272), (7, 0, 0x2000000), (39, 0, 272)],
      let s := { workState 0x0303 12 [e.1, e.2.1, e.2.2] with conf := { runState.conf with liveSlot := some true } }
      isServed 0x0303 s = true ∧ s.conf.load = none) ∧
    ((workState 0x0303 12 []).cav 0).power = false ∧
    ((workState 0x0303 12 []).cav 39).power = false ∧
    (librarySize < 0x2000000 ∧ 0 + 272 ≤ librarySize ∧ 4 % 8 ≠ 0) ∧
    (let s := { workState 0x0302 4 [0] with conf := { runState.conf with load := some (newLoad .full (.slot false)) } }
     isServed 0x0302 s = true ∧ s.conf.load.isSome = true) := by decide +kernel

theorem witness_ForemanWork_store :
    (∀ e ∈ [(0x0E000000, 0x30080000, 65536, 0), (0x0F800000, 0x30080000, 1, 0x15)],
      isServed 0x0304 (asked 0x0304 12 [e.1, e.2.1, e.2.2.1]) = true ∧ storeRange none e.1 e.2.2.1 = e.2.2.2) ∧
    (runState.storeInUse 0x0E000000 = false) ∧
    (storeRange (some true) 0x07000000 1 = 0x14) ∧
    (isServed 0x0305 (asked 0x0305 4 [1]) = true ∧ slotError true runState = some 0x03) := by decide +kernel

theorem witness_ForemanWork_copies :
    (∀ e ∈ [(0x30080000, 0x30081000, 64, 0), (0x30080000, 0x60000000, 64, 1)],
      let s := asked 0x0603 12 [e.1, e.2.1, e.2.2.1]
      isServed 0x0603 s = true ∧
        (descError s.cfg 64 { st := 2, desc := copyDesc s.cfg e.1 e.2.1 e.2.2.1, left := e.2.2.1 } = 0 ↔ e.2.2.2 = 0)) ∧
    (∀ e ∈ [(1, 0, 0), (4, 23, 0), (0x80000004, 23, 0), (1, 200, stBadParam)],
      let s := asked 0x0701 8 [e.1, e.2.1]
      let s := { s with cavs := [(0, liveCav)] }
      isServed 0x0701 s = true ∧ s.test.type = 0 ∧ bistStatus (bitsOf 0 4 e.1) e.2.1 (bitAt 31 e.1) s = e.2.2) ∧
    ({ runState with test := { runState.test with type := 1 } }.test.type ≠ 0) := by decide +kernel

/-- 14_foreman R339: a SET of one entry takes effect, and its response is OK without a payload. -/
theorem test_set_window :
    after (exec (.set mb0) (asked 0x0102 12 [0x1001, 100, 0])) (fun t => t.foreman.loadWindow == 100 && (t.mboxAt 0).done) = true := by
  decide +kernel

/-- An image store whose slot B holds the shortest image that the header's checks pass: a header with its CRC, two words, the body's
CRC. -/
def slotStore : Mem :=
  let ws := [0x36394C49, 0x1001, 0x096409E3, 272] ++ List.replicate 59 0 ++ [0x0147E5B7, 0, 0, 0x2B60B55D, 0]
  (List.range 272).map fun i => (0x07000000 + i, BitVec.ofNat 8 (ws.getD (i / 4) 0 >>> (8 * (i % 4))))

theorem witness_ForemanWork_commit :
    (let s := { asked 0x0305 4 [1] with conf := { runState.conf with store := slotStore } }
     isServed 0x0305 s = true ∧ slotError true s = none ∧ commitCopy s.conf.store 0 = none ∧ commitCopy s.conf.store 1 = none) := by
  decide +kernel

/-! ### Loads -/

/-- A load: its kind, source and phase, the header that it has read, the words consumed and those that wait. -/
def ld (kind : LoadKind) (src : LoadSource) (phase : LoadPhase) (hdr words buf : List Nat) : Load :=
  { newLoad kind src with phase := phase, hdr := hdr.map word, words := words.map word, buf := buf.map word, region := 2 }
/-- The device in a mode with a load in progress; cavern 1 is live. -/
def loadSt (m : Mode) (l : Load) : State :=
  inMode m { runState with cavs := [(1, liveCav)], conf := { runState.conf with load := some l } }
/-- The header of a CRC image of `n` bytes with one frame record at most: full, or partial of cavern 1. -/
def hdrWords (part : Bool) (n frames : Nat) : List Nat :=
  [0x36394C49, if part then 0x1101 else 0x1001, 0x096409E3, n, if part then 2 else 0, 0, 0, frames] ++ List.replicate 55 0 ++
    [if part then 0xDC520D04 else 0x0147E5B7]

theorem witness_LoadStarts :
    (State.reset.power.held = true ∧ State.reset.mayRelease = true ∧ runState.power.held = false) ∧
    (runState.sysRuns = true ∧ runState.holdCauses = false ∧ { runState with power := { runState.power with thermal := true } }.holdCauses = true) ∧
    (let s := withRegs [(.cfgStatus, 0, 2 * 2 ^ 24)] (loadSt .load (ld .full .spi .header [] [] []))
     s.sysRuns = true ∧ s.conf.load = some (ld .full .spi .header [] [] []) ∧ s.field .cfgStatus 0 24 4 = 2) ∧
    (runState.conf.job = none ∧ runState.conf.otpBusy = none) ∧
    (let s := jobState (some 5)
     s.conf.job = some { mailbox := 0, off := 64, bytes := [1], commit := some 5 }) := by decide +kernel

theorem witness_Loads_header :
    (State.reset.sysRuns = false) ∧ (runState.conf.load = none ∧ runState.sysRuns = true ∧ runState.power.mode ≠ .start) ∧
    (let s := loadSt .powerUp (ld .full (.nowhere 1) .header [] [] [])
     s.sysRuns = true ∧ s.power.mode = .powerUp ∧ s.holdCauses = false) ∧
    (loadTake [] 64 (ld .full .spi .header [] [] [1]) = none) ∧
    (∀ part ∈ [false, true],
      let l := ld (if part then .partialImage else .full) .spi .header [] [] (hdrWords part 272 0)
      ((loadTake [] 64 l).map fun r => headerError [] r.2 r.1) = some none) ∧
    (headerBad .spi (hdrWords true 272 0 |>.map word) = false ∧ headerBad .spi (List.replicate 64 0) = true) ∧
    (let l := ld .full .spi .header [] [] (List.replicate 64 0)
     ((loadTake [] 64 l).map fun r => headerError [] r.2 r.1) = some (some 0x03)) := by decide +kernel

theorem witness_Loads_records :
    (∀ w ∈ [[0x01000001, 0x04000000], [0x0F000000, 0], [0, 0]],
      let l := ld .full .spi .record (hdrWords false 0x2000 1) (List.replicate 64 0) w
      (loadTake [] 2 l).map (·.1) = some (w.map word) ∧ l.phase = .record) ∧
    (let l := ld .full .spi .record (hdrWords false 272 0) (List.replicate 64 0) [0x0F000000, 0]
     ((loadTake [] 2 l).map fun r => decide (r.2.pos = l.lenWords - l.trailerWords ∧ r.2.frames = r.2.h 7)) = some true) := by decide +kernel

/-- A frame of zeros for cavern 1. -/
def frameLoad (part : Bool) (buf : List Nat) : Load :=
  ld (if part then .partialImage else .full) .spi (.frames (frameAddr 1 0 0) 1 false) (hdrWords part 0x2000 1) (List.replicate 66 0) buf

theorem witness_Loads_frames :
    (loadTake [] 128 (frameLoad false []) = none) ∧
    (∀ part ∈ [false, true], ((loadTake [] 128 (frameLoad part (List.replicate 128 0))).map fun r =>
      frameError (frameLoad part []) (frameAddr 1 0 0) r.1 (loadSt .load (frameLoad part []))) = some none) ∧
    (frameError (frameLoad true []) (frameAddr 2 0 0) [] runState = some errOutOfRegion ∧
      frameError (frameLoad false []) (frameAddr 48 0 0) [] runState = some errBadAddress) := by decide +kernel

theorem witness_Loads_trailer :
    ∀ part ∈ [false, true],
      let l := ld (if part then .partialImage else .full) .spi .trailer (hdrWords part 272 0) [7] [(crc32c [7]).toNat, 0]
      (loadTake [] l.trailerWords l).map (·.1) = some [crc32c [7], 0] ∧ trailerError l l.words.reverse [crc32c [7], 0] = none ∧
        trailerError l l.words.reverse [crc32c [8], 0] = some 0x10 := by decide +kernel

theorem witness_Loads_end :
    (endChecks [] 0 true = none) ∧
    ((List.range 40).filter fun c => bitAt c 0).findSome? (carryBroken []) = none ∧
    (([0]).findSome? (carryBroken (cfgOf [(0, 0, 0, 70, 3)]))).isSome = true ∧
    (bitAt 16 0x11001 = true ∧ bitAt 16 0x1001 = false) ∧
    (let s := loadSt .start (ld .full (.slot true) .checked [] [] [])
     s.sysRuns = true ∧ s.power.mode = .start) := by decide +kernel

/-- The port's portals enabled and a token waiting. -/
def icpState (t : Nat × Nat) (load part : Option Load) (discard : Bool) : State :=
  { runState with
    cfg := cfgOf [(41, 20, 0, 32 * 98, 1), (41, 20, 0, 32 * 99, 1)]
    portals := [(icpOut, { queue := [t], ready := 1 })]
    conf := { runState.conf with load := load, part := part, discard := discard } }

theorem witness_PortLoads :
    (runState.icpToken = none) ∧
    (∀ e ∈ [((7, 1), IcpRow.image, false), ((7, 0), .image, false), ((7, 2), .image, false), ((0, 7), .library, false),
        ((0, 0x27), .library, false), ((7, 3), .image, false), ((0, 8), .commit, false), ((0, 16), .abort, false), ((0, 0x41), .image, true)],
      (icpState e.1 none none false).icpToken = some e.1 ∧ icpRow e.1.2 = e.2.1 ∧ icpMalformed e.1.2 = e.2.2) ∧
    (let s := icpState (7, 0) (some (ld .partialImage .icp .record [] [] [])) none false
     s.icpToken = some (7, 0) ∧ portalEn s.cfg icpIn = true) ∧
    (∀ k ∈ [LoadKind.partialImage, .full], ∀ d ∈ [false, true], (icpState (7, 0) (some (ld k .icp .record [] [] [])) none d).icpToken = some (7, 0)) ∧
    (∀ seen : Bool, ({ ld .partialImage .icp .record [] [] [] with lastSeen := seen } : Load).lastSeen = seen) ∧
    (34 ≤ 0x110 / 8 ∧ (hdrWords true 0x110 0 ++ [1, 2, 3, 4, 5, 6]).length / 2 = 35) ∧
    (let s := icpState (0, 8) none (some (ld .partialImage .icp .verified [] [] [])) false
     s.icpToken = some (0, 8) ∧ s.conf.part = some (ld .partialImage .icp .verified [] [] [])) ∧
    (let d := 272 * 2 ^ 32
     d % 2 ^ 32 + (d >>> 32) ≤ librarySize ∧ librarySize < 4 + (0x2000000 * 2 ^ 32) >>> 32) := by decide +kernel

/-- 15_configuration R364: a release of power-on reset begins a full load, in POWER-UP. -/
theorem test_power_on_begins_load :
    after (exec (.powerOnReset 0 5) State.reset)
      (fun t => t.power.mode == .powerUp && t.conf.load.isSome && t.conf.hadr == 5) = true := by decide +kernel

/-- 15_configuration R368: COMMIT without a verified image is refused with ICP_PROTO. -/
theorem test_icp_commit_refused :
    after (exec .icpCommit (icpState (0, 8) none none false)) (fun t => (t.portal icpIn).stage == [(0x412, 3)]) = true := by decide +kernel

/-! ### Modes, wakes and supplies -/

/-- The power controller changed, in RUN with power management. -/
def pwr (f : Power → Power) : State := { runState with power := f runState.power, cfg := cfgOf [(46, 0, 0, 32, 1)] }
/-- The mode sequencer. -/
def inSeq (q : ModeSeq) : State := pwr fun p => { p with seq := q }

theorem witness_PowerModes :
    (let s := withRegs [(.pwrCtrl, 0, 256), (.pwrVccfQ, 0, 650)] (pwr fun p => { p with point := .p2 })
     s.power.mode = .run ∧ s.power.seq = .none ∧ s.bit .pwrCtrl 0 8 = true ∧ s.quietHolds = true ∧ s.field .pwrVccfQ 0 0 10 ≠ 0 ∧
      pmbEn s.cfg = true) ∧
    (inMode .quiet runState).power.mode = .quiet ∧
    (let s := { runState with crushers := { Crushers.reset with used := 1 } }
     s.crushers.used = s.clocks.sys + 1 ∧ s.quietHolds = false) ∧
    (∀ w ∈ [false, true], ∀ f ∈ [false, true], (inSeq (.entering .standby w f)).power.seq = .entering .standby w f) ∧
    (∀ m ∈ [Mode.standby, .patrol, .deepSleep], let s := withRegs [(.aonWakeEn, 0, 63)] (inMode m runState)
     s.sleepMode = some m ∧ s.power.held = false ∧ s.bit .aonWakeEn 0 (wakeBit .spi) = true ∧ s.wakes? m .spi = true) ∧
    (let s := withRegs [(.aonWakeEn, 0, 63)] (inSeq (.entering .patrol false false))
     s.sleepMode = some .patrol ∧ s.bit .aonWakeEn 0 (wakeBit .alarm) = true) ∧
    (runState.sleepMode = none) ∧
    (let s := withRegs [(.aonAlarm, 0, 9), (.aonTicks, 0, 9)] runState
     s.reg .aonTicks 0 = s.reg .aonAlarm 0) ∧
    (∀ a ∈ [0, 9], let s := withRegs [(.aonTicks, 0, 0xFFFFFFFF), (.aonAlarm, 0, a)] runState
     s.reg .aonTicks 0 = 0xFFFFFFFF ∧ s.reg .aonAlarm 0 = word a) ∧
    wakeEvent (.patrol 23) = some 343 := by decide +kernel

theorem witness_PowerModes_exits :
    (∀ p ∈ [false, true], ∀ hold ∈ [false, true],
      let s := pwr fun p' => { p' with seq := .leavingStandby, progPending := p, thermal := hold, wakes := [.patrol 23], edges := [.signal 95 true, .hpd 23 false], waiting := [(.i2c, 0x10, none)] }
      s.power.seq = .leavingStandby ∧ s.power.progPending = p ∧ s.holdCauses = hold ∧ s.power.held = false ∧ s.power.wakes ≠ [] ∧
      s.edgeOf (.patrol 23) = false ∧ s.power.edges = [.signal 95 true, .hpd 23 false]) ∧
    pocketUsed runState.cfg 0 = false ∧ pocketUsed pocketRead.cfg 0 = true ∧
    (∀ m ∈ [Mode.patrol, .deepSleep], (inSeq (.entering m false false)).power.seq = .entering m false false ∧
      (inSeq (.entering m false false)).conf.job = none) ∧
    ((inSeq .wakingRails).power.seq = .wakingRails ∧ (inSeq .wakingRails).power.progPending = false ∧
      (pwr fun p => { p with seq := .wakingRails, progPending := true }).power.progPending = true) ∧
    (inSeq .pgRetry).power.seq = .pgRetry ∧
    (let s := pwr fun p => { p with padHold := [(0, true), (11, true)] }
     s.sysRuns = true ∧ tabGet false s.power.padHold 11 = true ∧ (0x800 : BitVec 12).getLsbD 11 = true ∧ s.pinOwner 11 59 = .none ∧ (0x7FF : BitVec 12).getLsbD 11 = false) ∧
    (State.reset.sysRuns = false) := by decide +kernel

theorem witness_PowerSupplies_changes :
    ((inMode .standby runState).heldStandby .i2c = true ∧ (inMode .standby runState).heldStandby .spi = false ∧ runState.sysRuns = true ∧
      isTaken .spi .pwrSys 0 runState = true ∧ isTaken .spi .pwrVccf 0 runState = true ∧ isTaken .spi .pwrVccfQ 0 runState = true) ∧
    (let s := inMode .quiet (pwr fun p => { p with vccfCmd := 650 })
     s.power.mode = .quiet ∧ s.power.vccfCmd ≠ s.field .pwrVccf 0 0 10) ∧
    (∀ r ∈ [false, true], let s := pwr fun p => { p with change := some { target := .p1, raising := r }, nextPoint := some .p2 }
     s.power.change = some { target := .p1, raising := r } ∧ s.sysRuns = true ∧ pmbEn s.cfg = true ∧ s.power.nextPoint = some .p2) ∧
    (pmbEn runState.cfg = false ∧ runState.power.change = none) ∧
    (let s := withRegs [(.pwrVccf, 0, 700 * 65536 + 800)] runState
     (699 < s.field .pwrVccf 0 16 10 ∧ ¬ 700 < s.field .pwrVccf 0 16 10 ∧ ¬ 950 < 950 ∧ 950 < 951) ∧ s.field .pwrVccf 0 0 10 < 801 ∧
      ¬ s.field .pwrVccf 0 0 10 < 800) ∧
    (∀ r : Fin 5, let s := pwr fun p => { p with supply := [(r.val, true)] }
     tabGet false s.power.supply r.val = true ∧ tabGet false (inSeq .none).power.supply r.val = false ∧ (inSeq .none).railOn r.val = true) ∧
    (∀ r : Fin 5, let s := pwr fun p => { p with regFault := [(r.val, true)] }
     tabGet false s.power.regFault r.val = true ∧ statusFault 0 = false ∧ tabGet false s.power.supply r.val = false ∧
      s.railOn r.val = false ∧ s.power.held = false) := by
  decide +kernel

theorem witness_PowerSupplies_temperature :
    (∃ now : BitVec 8, now.toInt ≤ (Config.grade.shut : Int) - 15) ∧ (pwr fun p => { p with thermal := true }).power.thermal = true ∧
    (let s := { runState with regs := [(RegKind.pwrTemp.addr 0, word (85 * 65536 + 25))] }
     (BitVec.ofNat 8 (s.field .pwrTemp 0 0 8)).toInt < (BitVec.ofNat 8 (s.field .pwrTemp 0 16 8)).toInt) ∧
    ((inMode .patrol runState).power.mode = .patrol ∧ (inMode .faultHold runState).power.mode = .faultHold) :=
  ⟨⟨-100, by cases Config.grade <;> decide⟩, by decide +kernel, by decide +kernel, by decide +kernel⟩

theorem witness_PowerSupplies_domains :
    (∀ d ∈ [Domain.fab 39, .lb 23, .io 11], runState.domCmd (domCode d) = none ∧ ∀ up ∈ [false, true], ∀ m ∈ [Mode.run, .faultHold],
      let v : DomCmd := { up := up, waiting := false, mailbox := none }
      let s := inMode m (pwr fun p => { p with dom := [(domCode d, v)] })
      (domSettle (domCode d) s).domCmd (domCode d) = some v ∧ s.domCmd (domCode d) = some v ∧ s.power.mode = m) := by decide +kernel

/-- 16_power R401: a voltage below the core's minimum is refused. -/
theorem test_vccf_below_minimum :
    after (exec (.vccfSet .spi 699) (withRegs [(.pwrVccf, 0, 700 * 65536 + 800)] runState))
      (fun t => t.bit .pwrEvt 0 8 && t.field .pwrVccf 0 0 10 == 800) = true := by decide +kernel

/-! ### Pins and the test access port -/

/-- Bank 0 valid, cavern 1 live; pins of bank 0 by their settings words (128 that of the bank), a cell that presents 1 on both bits of pin 0's output channel, and
what the pads keep. -/
def pinState (cfg : List (Nat × Nat)) (pins : Tab Pin) : State :=
  { runState with
    cavs := [(1, liveCav)]
    cfg := cfgOf ([(1, 10, 0, 83, 1), (1, 10, 0x19, 1552, 1), (1, 10, 0x19, 1558, 1)] ++ cfg.map fun e => (45, 0, e.1 / 128, 32 * (e.1 % 128), e.2))
    fabric := { runState.fabric with cells := [(cellKey 1 10 0 0, { src0 := .v1 })] }
    pins := { pins := pins, banks := [(0, { valid := true })] } }
/-- Settings of a fabric pin: `OEN`, `IMODE`, `SPIN`. -/
def fabPin (oen mode spin : Nat) : Nat := 2 ^ 30 + mode * 2 ^ 25 + spin * 2 ^ 18 + oen * 2 ^ 17

theorem witness_UserPins_output :
    (runState.bank 11).vmis = false ∧ (runState.bank 11).valid = false ∧ ((pinState [] []).bank 0).valid = true ∧
    ({ runState with pins := { runState.pins with banks := [(11, { vmis := true })] } }.bank 11).vmis = true ∧
    (let s := pinState [(0, fabPin 1 0 0)] []
     s.pinFabric 0 0 = true ∧ pinBit s.cfg 0 0 17 = true ∧ s.bankFloats 0 = false ∧ tabGet false s.power.padHold 0 = false ∧
      s.power.retention = false ∧ s.sysRuns = true ∧ s.isolated (bankCav 0) = false ∧ s.outToken (attPin 0 0) = some 3 ∧
      pinBit s.cfg 0 0 24 = false ∧ pinBit s.cfg 0 0 28 = false ∧ pinBit s.cfg 0 0 16 = false) ∧
    (∀ hold ∈ [0, 2 ^ 28],
     let s0 := pinState [(0, fabPin 1 0 0), (128, hold)] []
     let s := { s0 with cavs := [(1, { liveCav with freeze := true, pass := [(outKey 1 10 0 0, .v1)] })] }
     s.isolated (bankCav 0) = true ∧ s.outToken (attPin 0 0) = some 3 ∧ (bitAt 28 (bankCfg s.cfg 0) = true ↔ hold ≠ 0)) := by decide +kernel

theorem witness_UserPins_input :
    (let s := pinState [(59, fabPin 0 1 0)] []
     pinMode s.cfg 0 59 = 1 ∧ s.pinReady 0 59 = true) ∧
    (∀ mode ∈ [2, 3], ∀ q ∈ [[], List.replicate 8 true], let s := pinState [(59, fabPin 0 mode 7)] [(59, { queue := q })]
     pinSpin s.cfg 0 59 = 7 ∧ pinMode s.cfg 0 59 = mode ∧ s.pinSamples 0 59 = true ∧ (s.pin 0 59).queue = q ∧
      (s.attIn (attPin 0 59)).ph = .idle ∧ s.isolated (bankCav 0) = false) ∧
    (∀ r ∈ [false, true], ∀ a ∈ [false, true],
      let s := pinState [(0, fabPin 0 0 0), (59, fabPin 0 4 0)] [(0, { reqHigh := r, ackHigh := a, sampled := true })]
      groupPins s.cfg 0 0 = [59] ∧ s.pinSamples 0 0 = true ∧ s.pinReady 0 59 = true ∧ (s.pin 0 0).ackHigh = a ∧ (s.pin 0 0).reqHigh = r ∧
        (s.pin 0 0).sampled = true ∧ (s.attIn (attPin 0 59)).ph = .idle) ∧
    (groupPins runState.cfg 11 59 = [] ∧ runState.sysRuns = true ∧ State.reset.sysRuns = false) := by decide +kernel

theorem witness_TestAccess :
    ((inMode .maintenance runState).power.mode = .maintenance ∧ runState.power.mode ≠ .maintenance) ∧
    (let s := { pinState [(0, fabPin 0 0 0), (59, 3 * 2 ^ 30)] [] with jtag := { runState.jtag with mask := 1 } }
     s.jtag.mask.getLsbD 0 = true ∧ baseOwner s.cfg 0 0 ≠ .secure ∧ baseOwner s.cfg 0 59 = .secure) ∧
    ((0x10000000000000000 : BitVec 65).getLsbD 64 = true ∧ (1 : BitVec 65).getLsbD 64 = false) ∧
    (let s := withRegs [(.cfgStatus, 0, 2 ^ 24)] (loadSt .powerUp (ld .full .jtag .header [] [] []))
     s.sysRuns = true ∧ s.conf.load = some (ld .full .jtag .header [] [] []) ∧ s.field .cfgStatus 0 24 4 = 1) ∧
    (bitsOf 40 16 0x305E710000000001 = 0x5E71 ∧ bitsOf 56 8 0x305E710000000001 = 48 ∧ ¬ bitsOf 56 8 0x315E710000000001 ≤ 48) ∧
    (let v : List (Nat × Bool × Bool) := [(0, true, true), (719, false, true)]
     (v.map (·.1)).Nodup ∧ ∀ x ∈ v, x.1 < 720) ∧
    (JtagIr.boundary .sample = true ∧ JtagIr.boundary .bypass = false) := by decide +kernel

/-- 17_pins R423: ACK rises once the group's samples have gone. -/
theorem test_ack_rises :
    after (exec (.handshakeAckRaise 0 0) (pinState [(0, fabPin 0 0 0), (59, fabPin 0 4 0)] [(0, { reqHigh := true, sampled := true })]))
      (fun t => (t.pin 0 0).ackHigh) = true := by decide +kernel

/-- 17_pins R431: outside MAINTENANCE an instruction that takes pins acts as BYPASS and is marked refused. -/
theorem test_extest_refused :
    after (exec .extest runState) (fun t => t.jtag.ir == .bypass && t.jtag.refused) = true := by decide +kernel

/-! ### Patrol, the scrubber, events and self-tests -/

/-- Patrol in its mode, with sensor 0 enabled, thresholds 10 and 2, averaging 1 in 4, one sample to decide; its count register and its
state. -/
def patrolSt (count : Nat) (v : Sensor) : State :=
  let s := withRegs [(.patrolCtrl, 0, 0x81000020), (.patrolCfg, 0, 0x80020A00 + 2 ^ 26), (.patrolCount, 0, count)] (inMode .patrol runState)
  { s with patrol := { sensors := [(0, v)], nextSensor := 0, due := 0 } }

theorem witness_PatrolSamples :
    runState.patrolRuns = false ∧ (patrolSt 0 {}).patrolRuns = true ∧ (patrolSt 0 {}).patrol.due ≤ (patrolSt 0 {}).clocks.aon ∧
    (∀ e ∈ [(0, false, 100, false, false), (1600 * 65536, true, 90, true, false), (1600 * 65536 + 4096, true, 93, false, true),
        (1600 * 65536 + 4096, true, 90, false, false), (1600 * 65536, true, 99, false, false), (1600 * 65536, true, 101, false, false)],
      let v : Sensor := { based := e.2.1 }
      let s := patrolSt e.1 v
      let d : Int := if v.based = true then (s.field .patrolCount 0 16 16 / 16 : Nat) - (e.2.2.1 : Int) else 0
      s.bit .patrolCfg 0 31 = true ∧ s.patrol.nextSensor ≤ 0 ∧ e.2.2.1 < maxCount (s.field .patrolCtrl 0 24 3) ∧ 8 ≤ e.2.2.1 ∧
        (e.2.2.2.1 = decide (s.touched 0 = false ∧ (s.field .patrolCfg 0 8 8 : Int) ≤ d)) ∧
        (e.2.2.2.2 = decide (s.touched 0 = true ∧ d < (s.field .patrolCfg 0 8 8 : Int) - (s.field .patrolCfg 0 16 4 : Int)))) ∧
    (maxCount ((patrolSt 0 {}).field .patrolCtrl 0 24 3) ≤ 511 ∧ ¬ maxCount ((patrolSt 0 {}).field .patrolCtrl 0 24 3) ≤ 510) := by decide +kernel

/-- All classes scrubbed, Pocket 0.0 visited, engine 0 enabled, at the given positions. -/
def scrubSt (pk su fm cr : Nat) : State :=
  { withRegs [(.scrubCtrl, 0, 15), (.scrubPosPocket, 0, pk), (.scrubPosSump, 0, su), (.scrubPosFm, 0, fm), (.scrubPosCr, 0, cr)] runState with
    cavs := [(0, liveCav)]
    cfg := cfgOf [(0, 64, 0x12, 29, 1), (42, 0, 0x42, 0, 1)] }

theorem witness_ScrubbingAndEvents_visits :
    (∀ k ∈ [ScrubClass.pocket, .sump, .foreman, .crusher], runState.scrubs k = false ∧ (scrubSt 0 0 0 0).scrubs k = true) ∧
    (nextOf 4480 0 (scrubSt 0 0 0 0).scrubPocket = some 0 ∧ nextOf 16 0 (engineEn (scrubSt 0 0 0 0).cfg) = some 0 ∧
      nextOf 16 1 (engineEn (scrubSt 0 0 0 0).cfg) = some 15 ∧ nextOf 16 0 (engineEn runState.cfg) = none) ∧
    (rowFound .clean ((scrubSt 0 0 0 0).row 0 0) = .clean ∧ rowFound .corrected 0 = .corrected ∧ rowFound .clean 1 = .corrected ∧
      rowFound .clean 3 = .uncorrectable ∧ rowFound .uncorrectable 0 = .uncorrectable) ∧
    (tabGet 0 (scrubSt 0 0 0 0).clocks.scrub 3 ≤ (scrubSt 0 0 0 0).clocks.stamp ∧ (scrubSt 0 0 0 0).bankIdle 32767 = true ∧
      unitFound 0 0 = .clean ∧ unitFound 1 0 = .corrected ∧ unitFound 1 1 = .uncorrectable) ∧
    ({ scrubSt 0 0 0 0 with sump := { Sump.reset with cells := [(0, { beats := [{ data := 0, tag := 0 }], full := true })] } }.bankIdle 0 = false) ∧
    ((scrubSt 0 32767 131071 0).field .scrubPosSump 0 0 15 = 32767 ∧ (scrubSt 0 32767 131071 0).field .scrubPosFm 0 0 17 = 131071) := by
  decide +kernel

/-- A fabric-raised event 23 on line 0 of region 0, which a cell of cavern 0 drives to 1. -/
def eventSt : State :=
  { fabricState [(0, 0, 0, 83, 1), (0, 60, 4, 0, 1), (46, 2, 0, 8 * 23, 128)] [(cellKey 0 0 0 0, { src0 := .v1 })] with
    cavs := [(0, liveCav), (3, liveCav)] }

theorem witness_ScrubbingAndEvents_events :
    (∀ r : Fin 12, disagreeing 5 5 5 = 0 ∧ disagreeing 4 5 5 ≠ 0 ∧ (r.val ≠ 11 ∨ r = 11)) ∧
    fieldSplit 0 1 2 { lo := 0, len := 2, acc := .rw, reset := 0 } = true ∧
    (eventSt.sysRuns = true ∧ cfgBits eventSt.cfg 46 2 0 (8 * 23 + 7) 1 = 1 ∧ eventSt.outToken (attEvent 23) = some 1) ∧
    runState.outToken (attEvent 0) = none ∧
    (let s := { asked 1 0 [] with history := { queue := [(383, 7)], ring := [], next := 65535 } }
     s.foreman.running = true ∧ s.sysRuns = true ∧ s.history.queue = (383, 7) :: []) ∧
    (runState.history.queue = [] ∧ runState.foreman.running = false) ∧
    ({ runState with fresh := { period := [(votedReg 11).1.addr (votedReg 11).2] } }.fresh.period.contains ((votedReg 11).1.addr (votedReg 11).2) = true) ∧
    (∀ m ∈ [98, 99], let s := { runState with clocks := { runState.clocks with stamp := 2 ^ 64 - 6, micro := m } }
     s.sysRuns = true ∧ s.clocks.stamp = 2 ^ 64 - 6 ∧ ((s.clocks.micro + 1) % 100 = 0 ↔ m = 99)) := by decide +kernel

/-- Tests that run, with those that wait, of one BIST_RUN of mailbox 0 or of the start-up self-test. -/
def testSt (type : Nat) (run todo : List TestRun) (startup : Bool) : State :=
  { asked 0x701 8 [type, 0] with test := { type := type, target := 0, running := run, todo := todo, worst := 0
                                           mailbox := if startup then none else some 0, startup := startup } }

theorem witness_SelfTestEnds :
    (let s := testSt 1 [{ type := 1, target := 0 }] [] false
     (s.test.running.find? fun r => r.target = 1 ∧ (r.type = 1 ∨ (r.type = 3 ∧ (1 = 1 ∨ 1 = 2)))) = none ∧ s.test.todo = [] ∧ s.test.running ≠ []) ∧
    (∀ e ∈ [(1, 39), (2, 0), (4, 23), (5, 0)], let s := testSt e.1 [{ type := e.1, target := e.2 }] [] (e.1 == 5)
     (s.test.running.find? fun r => r.target = e.2 ∧ (r.type = e.1 ∨ (r.type = 3 ∧ (e.1 = 1 ∨ e.1 = 2)))) = some { type := e.1, target := e.2 } ∧
      e.2 < 40 ∧ (s.test.type ≠ 5 ∨ s.test.startup = true) ∧ s.test.todo = [] ∧ s.test.type ≠ 0 ∧ (e.1 ≠ 5 → s.test.mailbox = some 0)) ∧
    (let s := { pocketBad with test := (testSt 2 [{ type := 2, target := 0 }] [] false).test }
     s.badPockets 0 = [0] ∧ testOutcome 2 false 0 16384 = 1) ∧
    (benchLanes runState.cfg 23 = [] ∧ benchLanes (lnk 1 2 0 5 0 [] {}).cfg 0 = [0]) ∧
    (let s := testSt 5 [{ type := 5, target := 0 }] [] false
     s.test.type = 5 ∧ s.test.startup = false ∧ s.test.running = [{ type := 5, target := 0 }]) := by decide +kernel

theorem witness_SelfTestEnds_cavern :
    (∀ l ∈ [none, some (1, 0, 65536)], ∀ k ∈ [1, 2], ∀ st ∈ [false, true], let r : TestRun := { type := 3, target := 39, stopped := st, logic := l }
     let s := testSt 3 [r] [] false
     (s.test.running.find? fun r => r.target = 39 ∧ (r.type = k ∨ (r.type = 3 ∧ (k = 1 ∨ k = 2)))) = some r ∧ s.test.todo = [] ∧
      r.logic = l ∧ r.stopped = st) ∧
    (let s := { testSt 3 [] [{ type := 3, target := 39 }] true with cavs := [(0, { used := true }), (1, {})] }
     s.test.startup = true ∧ (∀ r ∈ s.test.todo, (r.type = 3 ∧ r.target < 40) ∨ (r.type = 4 ∧ r.target < 24)) ∧
      (s.cav 0).used = true ∧ (s.cav 1).used = false) ∧
    (runState.test.startup = false) := by decide +kernel

/-- 18_self_test_faults R445: a test that has counted too little is INCOMPLETE. -/
theorem test_short_count_incomplete : testOutcome 2 false 0 16383 = 3 ∧ testOutcome 2 false 0 16384 = 1 := by decide

end Sys2Proof.Tests
end

section
/-! SUPPORT. Host accesses to the direct registers: how far an access comes, what the refusal of a port's own post and a recorded access
change, what a write by access codes leaves in the register file, and what a read gives and clears. -/

namespace Sys2Proof.Machine

variable (s : State)

/-! ### The commands and where they end -/

theorem exec_registerWrite (p : HostPort) (addr val : Word) : exec (.registerWrite p addr val) s = .next (hostWrite p addr val s) := rfl

theorem exec_rcRead (p : HostPort) (addr : Word) : exec (.rcRead p addr) s = .next (hostRead p addr s) := rfl

/-- How far an access comes depends on the power controller and the configuration controller alone. -/
theorem State.reach_congr {s t : State} (hp : t.power = s.power) (hc : t.conf = s.conf) (a : Nat) : t.reach a = s.reach a := by
  have h : t.reach a = { s with power := t.power, conf := t.conf }.reach a := rfl
  rw [h, hp, hc]

/-- While SYS does not run, no access comes through. -/
theorem State.reach_silent (h : s.sysRuns = false) (a : Nat) : s.reach a = .silent := by
  simp [State.reach, State.hostAnswers, h]

theorem hostWrite_held {addr : Word} (h : s.reach (addr.toNat / 4 * 4) = .held) (p : HostPort) (val : Word) :
    hostWrite p addr val s = s := by
  simp only [hostWrite, h]

theorem hostWrite_off {addr : Word} (h : s.reach (addr.toNat / 4 * 4) = .off) (p : HostPort) (val : Word) :
    hostWrite p addr val s = noteAccess p 0 (addr.toNat / 4 * 4) s := by
  simp only [hostWrite, h]

theorem hostWrite_silent {addr : Word} (h : s.reach (addr.toNat / 4 * 4) = .silent) (p : HostPort) (val : Word) :
    hostWrite p addr val s = sleepingWrite p (addr.toNat / 4 * 4) val s := by
  simp only [hostWrite, h]

theorem hostWrite_reserved {addr : Word} (h : s.reach (addr.toNat / 4 * 4) = .open) (hr : regAt (addr.toNat / 4 * 4) = none)
    (p : HostPort) (val : Word) : hostWrite p addr val s = noteAccess p 1 (addr.toNat / 4 * 4) s := by
  simp only [hostWrite, h, hr]

theorem hostWrite_open {addr : Word} {k : RegKind} {i : Nat} (h : s.reach (addr.toNat / 4 * 4) = .open)
    (hr : regAt (addr.toNat / 4 * 4) = some (k, i)) (p : HostPort) (val : Word) :
    hostWrite p addr val s =
      noteReserved p k i val (writeReg p k i (s.rankedValue p k i val) (noteWrite (writerRank p) (k.addr i) s)) := by
  simp only [hostWrite, h, hr]

/-- While SYS does not answer, a write that is neither a post nor a request of an operating point waits, or goes nowhere. -/
theorem sleepingWrite_waits {p : HostPort} {a : Nat} (h : ∀ i, regAt a ≠ some (.mbxPost, i) ∧ regAt a ≠ some (.pwrSys, i))
    (val : Word) :
    sleepingWrite p a val s = holdAccess p (word a) (some val) s := by
  unfold sleepingWrite
  split
  · split
    · next i hr => exact absurd hr (h i).1
    · next i hr => exact absurd hr (h i).2
    · rfl
  · next hs => simp [holdAccess, hs]

/-! ### Accesses recorded -/

@[simp] theorem noteWrite_regs (r a : Nat) : (noteWrite r a s).regs = s.regs := rfl

@[simp] theorem noteWrite_reg (r a : Nat) (k : RegKind) (i : Nat) : (noteWrite r a s).reg k i = s.reg k i := rfl

/-- A port does not outrank itself. -/
@[simp] theorem outranked_noteWrite (r a b : Nat) : (noteWrite r a s).outranked r b = s.outranked r b := by
  simp [State.outranked, noteWrite, State.withFresh]

theorem noteAccess_eq (p : HostPort) (b a : Nat) : noteAccess p b a s =
    if s.outranked (writerRank p) (RegKind.gstatAddr.addr 0) then s.setBits .gstat 0 (bitWord b)
    else noteWrite (writerRank p) (RegKind.gstatAddr.addr 0) ((s.setBits .gstat 0 (bitWord b)).setReg .gstatAddr 0 (word a)) := rfl

/-- An access that had no effect is recorded, and nothing else changes. -/
theorem noteAccess_noted (p : HostPort) (b a : Nat) : AccessNoted p b a s (noteAccess p b a s) := by
  have hne : RegKind.gstat.addr 0 ≠ RegKind.gstatAddr.addr 0 := by decide
  have hkept (x : Nat) (d : Word) (hx : x ≠ RegKind.gstat.addr 0) :
      tabGet d (s.setBits .gstat 0 (bitWord b)).regs x = tabGet d s.regs x := tabGet_tabSet_ne _ _ _ _ hx.symm
  rw [noteAccess_eq]
  split
  · next h =>
    refine ⟨State.setBits_reg s _ _ _, ?_, fun x d hx _ => hkept x d hx, rfl⟩
    rw [if_pos h]
    exact hkept _ _ hne.symm
  · next h =>
    refine ⟨?_, ?_, fun x d hx hx' => ?_, rfl⟩
    · rw [noteWrite_reg, State.setReg_reg_ne _ _ hne.symm, State.setBits_reg]
    · rw [if_neg h, noteWrite_reg, State.setReg_reg]
    · rw [← hkept x d hx]
      exact tabGet_tabSet_ne _ _ _ _ hx'.symm

/-! ### The refusal of a port's own post -/

/-- A refusal of posts touches flags, the ports' banks and the Foreman's lists, and nothing else. -/
theorem refusePosts_frame (mine : HostPort → Bool) :
    besideFlags { refusePosts mine s with ports := s.ports, foreman := s.foreman } = besideFlags s := by
  unfold refusePosts
  extract_lets out u
  suffices h : ∀ t : State, besideFlags { out.foldl (fun s x => setPostres x.1 2 (bitsOf 16 8 (x.2.getD 0 0).toNat) 0
      (flagMbx 2 (countStat .mbxFullCnt 0 (flagMbx 3) s))) t with ports := s.ports, foreman := s.foreman } =
      besideFlags { t with ports := s.ports, foreman := s.foreman } from h u
  induction out with
  | nil => exact fun _ => rfl
  | cons x out ih =>
    intro t
    have hx : besideFlags (flagMbx 2 (countStat .mbxFullCnt 0 (flagMbx 3) t)) = besideFlags t :=
      (setFlags_besideFlags _ _ _ _ _ _).trans (countStat_besideFlags t fun _ => setFlags_besideFlags _ _ _ _ _ _)
    exact (ih _).trans (congrArg (fun v : State => { v with ports := s.ports, foreman := s.foreman }) hx)

@[simp] theorem refusePosts_power (mine : HostPort → Bool) : (refusePosts mine s).power = s.power :=
  (congrArg State.power (refusePosts_frame s mine) :)

@[simp] theorem refusePosts_conf (mine : HostPort → Bool) : (refusePosts mine s).conf = s.conf :=
  (congrArg State.conf (refusePosts_frame s mine) :)

@[simp] theorem refusePosts_reach (mine : HostPort → Bool) (a : Nat) : (refusePosts mine s).reach a = s.reach a :=
  State.reach_congr (refusePosts_power s mine) (refusePosts_conf s mine) a

/-- Whether an access is held is up to the power controller alone. -/
theorem holdAccess_eq {s t : State} (h : t.power = s.power) (p : HostPort) (a : Word) (v : Option Word) :
    holdAccess p a v t = if s.heldStandby p && !(s.power.waiting.any fun w => decide (w.1 = p)) then
      { t with power := { s.power with waiting := s.power.waiting ++ [(p, a, v)] } } else t := by
  have hs : t.heldStandby p = { s with power := t.power }.heldStandby p := rfl
  rw [h] at hs
  simp only [holdAccess, State.withPower, hs, h]

/-! ### Reads -/

theorem hostRead_reserved {p : HostPort} {addr : Word} (h : s.reach (addr.toNat / 4 * 4) = .open)
    (hr : regAt (addr.toNat / 4 * 4) = none) :
    hostRead p addr s = (refusePosts (fun q => decide (q = p)) s).modPort p fun b => { b with hostRead := 0 } := by
  simp only [hostRead, refusePosts_reach, h, hr]

theorem hostRead_held {p : HostPort} {addr : Word} {k : RegKind} {i : Nat} (h : s.reach (addr.toNat / 4 * 4) = .held)
    (hr : regAt (addr.toNat / 4 * 4) = some (k, i)) :
    hostRead p addr s = (refusePosts (fun q => decide (q = p)) s).modPort p fun b => { b with hostRead := k.reset } := by
  simp only [hostRead, refusePosts_reach, h, hr]

theorem hostRead_off {p : HostPort} {addr : Word} (h : s.reach (addr.toNat / 4 * 4) = .off) :
    hostRead p addr s = (noteAccess p 0 (addr.toNat / 4 * 4) (refusePosts (fun q => decide (q = p)) s)).modPort p
      fun b => { b with hostRead := 0 } := by
  simp only [hostRead, refusePosts_reach, h]

theorem hostRead_silent {p : HostPort} {addr : Word} (h : s.reach (addr.toNat / 4 * 4) = .silent) :
    hostRead p addr s = if p = .spi && !s.power.held then
      (refusePosts (fun q => decide (q = p)) s).modPort p fun b => { b with hostRead := 0xFFFFFFFF }
      else holdAccess p addr none (refusePosts (fun q => decide (q = p)) s) := by
  simp only [hostRead, refusePosts_reach, h, refusePosts_power]

theorem hostRead_open {p : HostPort} {addr : Word} {k : RegKind} {i : Nat} (h : s.reach (addr.toNat / 4 * 4) = .open)
    (hr : regAt (addr.toNat / 4 * 4) = some (k, i)) (hk : k ≠ .lbHpd) :
    let u := refusePosts (fun q => decide (q = p)) s
    hostRead p addr s = (readEffect p k i u).modPort p fun b => { b with hostRead := u.shown p k i } := by
  simp only [hostRead, refusePosts_reach, h, hr]

/-! ### Registers with RC fields -/

/-- A register with a field that a read clears shows what is stored. -/
theorem shown_of_rc {k : RegKind} (h : k.mask .rc ≠ 0) (p : HostPort) (i : Nat) : s.shown p k i = s.stored k i := by
  unfold State.shown
  split
  pick_goal -1
  · rfl
  all_goals exact absurd (by decide) h

theorem stored_of_fresh {k : RegKind} {i : Nat} (h : s.freshCount k i = 0) : s.stored k i = s.reg k i := by
  simp [State.stored, h, word]

/-- What is stored and what the counter has advanced by in this clock add up to the counter. -/
theorem stored_add_freshCount {k : RegKind} {i : Nat} (hk : k.mask .rc ≠ 0) (h : s.freshCount k i ≤ (s.reg k i).toNat) :
    (s.stored k i).toNat + s.freshCount k i = (s.reg k i).toNat := by
  have hv := (s.reg k i).isLt
  rw [State.stored, if_neg (by simp only [hk, false_or]; omega), word, BitVec.toNat_ofNat]
  omega

/-- Kinds of registers whose read does more than clear RC fields: the low words that fill a snapshot, and `SUMP_QSTAT`. -/
def readLatches : List RegKind := [.tsLo, .lnPrbsBitsLo, .lnPrbsErrLo, .sumpQstat]

/-- What a register keeps when a read has cleared its RC fields: its other bits, and what has been counted in this clock. -/
def State.afterRead (s : State) (k : RegKind) (i : Nat) : Word := (s.reg k i &&& ~~~ k.mask .rc) ||| (s.reg k i - s.stored k i)

theorem readEffect_eq {k : RegKind} (h : k ∉ readLatches) (p : HostPort) (i : Nat) :
    readEffect p k i s = if k.mask .rc = 0 then s else s.setReg k i (s.afterRead k i) := by
  unfold readEffect
  split
  pick_goal -1
  · rfl
  all_goals exact absurd (by decide) h

theorem readEffect_reg_rc {k : RegKind} (h : k ∉ readLatches) (hk : k.mask .rc ≠ 0) (p : HostPort) (i : Nat) :
    (readEffect p k i s).reg k i = s.afterRead k i := by
  rw [readEffect_eq s h, if_neg hk, State.setReg_reg]

theorem readEffect_plain {k : RegKind} (h : k ∉ readLatches) (hk : k.mask .rc = 0) (p : HostPort) (i : Nat) :
    readEffect p k i s = s := by
  rw [readEffect_eq s h, if_pos hk]

/-- A read changes no register but the one that is read. -/
theorem readEffect_other {k : RegKind} (h : k ∉ readLatches) (p : HostPort) {i a : Nat} (ha : a ≠ k.addr i) (d : Word) :
    tabGet d (readEffect p k i s).regs a = tabGet d s.regs a := by
  rw [readEffect_eq s h]
  split
  · rfl
  · exact tabGet_tabSet_ne _ _ _ _ ha.symm

/-- A read changes nothing beside the registers. -/
theorem readEffect_frame {k : RegKind} (h : k ∉ readLatches) (p : HostPort) (i : Nat) :
    { readEffect p k i s with regs := s.regs } = s := by
  rw [readEffect_eq s h]
  split <;> rfl

theorem readEffect_portBank {k : RegKind} (h : k ∉ readLatches) (p q : HostPort) (i : Nat) :
    (readEffect p k i s).portBank q = s.portBank q :=
  (congrArg (State.portBank · q) (readEffect_frame s h p i) :)

theorem readEffect_freeCtr {k : RegKind} (h : k ∉ readLatches) (p : HostPort) (i : Nat) :
    (readEffect p k i s).freeCtr = s.freeCtr :=
  (congrArg State.freeCtr (readEffect_frame s h p i) :)

/-- A counter whose bits a read clears keeps what it has advanced by in this clock. -/
theorem afterRead_toNat {k : RegKind} {i : Nat} (hk : k.mask .rc = 0xFFFFFFFF) (h : s.freshCount k i ≤ (s.reg k i).toNat) :
    (s.afterRead k i).toNat = s.freshCount k i := by
  have hadd := stored_add_freshCount s (by rw [hk]; decide) h
  have hclear : s.reg k i &&& ~~~ (0xFFFFFFFF : Word) = 0#32 := BitVec.and_zero
  rw [State.afterRead, hk, hclear, BitVec.zero_or, BitVec.toNat_sub]
  have := (s.reg k i).isLt
  omega

/-- The level at an HPD pin is the board's; the rest of the register is given as it is stored. -/
theorem hostRead_lbHpd {p : HostPort} {addr : Word} {i : Nat} (h : s.reach (addr.toNat / 4 * 4) = .open)
    (hr : regAt (addr.toNat / 4 * 4) = some (.lbHpd, i)) :
    let u := refusePosts (fun q => decide (q = p)) s
    hostRead p addr s = ({ u with freeCtr := u.freeCtr + 1 } : State).modPort p fun b =>
      { b with hostRead := u.reg .lbHpd i &&& 1 ||| (if Config.freeBit u.freeCtr then 2 else 0) } := by
  simp only [hostRead, refusePosts_reach, h, hr]
  rfl

/-- Beside the level at the pin, the bits of `LBbb_HPD` are as they are stored. -/
theorem hpd_beside_level (w : Word) (level : Bool) : (w &&& 1 ||| (if level then 2 else 0)) &&& ~~~ 2 = w &&& 1 := by
  have hlevel : (if level then (2 : Word) else 0) &&& ~~~ 2 = 0#32 := by cases level <;> rfl
  have hdebounced : w &&& 1 &&& ~~~ 2 = w &&& 1 := BitVec.and_assoc w 1 (~~~ 2)
  rw [BitVec.and_or_distrib_right, hlevel, hdebounced, BitVec.or_zero]

/-! ### Writes by access codes -/

/-- Kinds of registers with write rules of their own. -/
def ownWriteRules : List RegKind :=
  [.mbxPost, .mbxDone, .loadPct, .pwrCtrl, .pwrSys, .pwrVccf, .pwrVccfQ, .pwrPadrel, .speedGaugeCtrl, .speedGauge, .aonPadpol, .cfgCtrl,
    .cfgStream, .stCtrl, .lnPmaCtrl, .lnEq, .lnPatCtrl, .lnMargin, .lnLinkCtrl, .sumpQcmd, .hchCtrl, .crHold0, .crHold1, .crHold2,
    .crHold3, .patrolCtrl, .patrolCfg]

/-- Without write rules of its own, a register is written by its access codes. -/
theorem writeReg_coded {k : RegKind} (h : k ∉ ownWriteRules) (p : HostPort) (i : Nat) (val : Word) :
    writeReg p k i val s = codedWrite k i val s := by
  unfold writeReg
  split
  pick_goal -1
  · rfl
  all_goals exact absurd (by decide) h

/-- Registers of two kinds lie at two addresses. -/
theorem addr_ne_of_kind {a : Nat} {k k' : RegKind} {i i' : Nat} (h : regAt a = some (k, i)) (h' : regAt (k'.addr i') = some (k', i'))
    (hk : k ≠ k') : k.addr i ≠ k'.addr i' := by
  intro e
  rw [← e, regAt_addr h, h] at h'
  exact hk (congrArg Prod.fst (Option.some.inj h'))

/-- What a coded write leaves in its register: only bits that a write may set take part, and a W1C bit that hardware has set in this
clock does not clear. -/
def State.writtenValue (s : State) (k : RegKind) (i : Nat) (val : Word) : Word :=
  codedValue k (s.reg k i) (val &&& k.writable i &&& ~~~ (s.freshBits k i &&& k.mask .w1c))

/-- No bit of a register has both access codes. -/
theorem mask_rw_and_w1c (k : RegKind) : k.mask .rw &&& k.mask .w1c = 0#32 := by
  cases k <;> rfl

theorem mask_w1c_of_rw {k : RegKind} {b : Nat} (h : (k.mask .rw).getLsbD b = true) : (k.mask .w1c).getLsbD b = false := by
  have hboth := congrArg (BitVec.getLsbD · b) (mask_rw_and_w1c k)
  simpa only [BitVec.getLsbD_and, h, Bool.true_and, BitVec.getLsbD_zero] using hboth

/-- The access codes bit by bit: read-write bits take the value, and other bits stay but for W1C bits written 1. -/
theorem getLsbD_codedValue (k : RegKind) (old val : Word) {b : Nat} (hb : b < 32) : (codedValue k old val).getLsbD b =
    if (k.mask .rw).getLsbD b then val.getLsbD b
    else if (k.mask .w1c).getLsbD b then old.getLsbD b && !val.getLsbD b
    else old.getLsbD b := by
  simp only [codedValue, BitVec.getLsbD_and, BitVec.getLsbD_or, BitVec.getLsbD_not, hb, decide_true, Bool.true_and]
  cases hrw : (k.mask .rw).getLsbD b
  · cases (k.mask .w1c).getLsbD b <;> simp
  · simp [mask_w1c_of_rw hrw]

/-- A write that comes before another writer's leaves that one's read-write bits and brings its own others. -/
theorem getLsbD_rankedValue {k : RegKind} (hk : k ≠ .mbxPost) (p : HostPort) (i : Nat) (val : Word) {b : Nat} (hb : b < 32) :
    (s.rankedValue p k i val).getLsbD b =
      if s.outranked (writerRank p) (k.addr i) && (k.mask .rw).getLsbD b then (s.reg k i).getLsbD b else val.getLsbD b := by
  unfold State.rankedValue
  cases s.outranked (writerRank p) (k.addr i)
  · simp
  · cases hrw : (k.mask .rw).getLsbD b <;> simp [hk, hb, hrw, -BitVec.getLsbD_eq_getElem]

/-- What a coded write of a port leaves in its register, bit by bit. -/
theorem getLsbD_writtenValue {k : RegKind} (hk : k ≠ .mbxPost) (p : HostPort) (i : Nat) (val : Word) (b : Nat) :
    (s.writtenValue k i (s.rankedValue p k i val)).getLsbD b =
      if (k.mask .rw).getLsbD b then
        (if s.outranked (writerRank p) (k.addr i) then (s.reg k i &&& k.writable i).getLsbD b else (val &&& k.writable i).getLsbD b)
      else if (k.mask .w1c).getLsbD b then
        (s.reg k i).getLsbD b && !((val &&& k.writable i).getLsbD b && !(s.freshBits k i).getLsbD b)
      else (s.reg k i).getLsbD b := by
  by_cases hb : b < 32
  · rw [State.writtenValue, getLsbD_codedValue k _ _ hb]
    simp only [BitVec.getLsbD_and, BitVec.getLsbD_not, getLsbD_rankedValue s hk p i val hb, hb, decide_true, Bool.true_and]
    cases hrw : (k.mask .rw).getLsbD b
    · cases hw1c : (k.mask .w1c).getLsbD b <;> simp
    · cases s.outranked (writerRank p) (k.addr i) <;> simp [mask_w1c_of_rw hrw]
  · simp [BitVec.getLsbD_of_ge _ b (Nat.le_of_not_lt hb)]

/-! ### The merges that a write of `EVT_PEND` meets -/

@[simp] theorem uncountMerged_writes (i : Nat) (val : Word) : (uncountMerged i val s).fresh.writes = s.fresh.writes := by
  unfold uncountMerged
  extract_lets hit n
  split <;> rfl

theorem uncountMerged_besideRegs (i : Nat) (val : Word) : besideRegs (uncountMerged i val s) = besideRegs s := by
  unfold uncountMerged
  extract_lets hit n
  split <;> rfl

theorem uncountMerged_other (i : Nat) (val : Word) {a : Nat} (ha : a ≠ RegKind.evtMerged.addr 0) (d : Word) :
    tabGet d (uncountMerged i val s).regs a = tabGet d s.regs a := by
  unfold uncountMerged
  extract_lets hit n
  split
  · rfl
  · exact tabGet_tabSet_ne _ _ _ _ ha.symm

theorem uncountMerged_of_none (i : Nat) (val : Word) (h : s.fresh.merged = []) : uncountMerged i val s = s := by
  unfold uncountMerged
  extract_lets hit n
  exact if_pos (by simp [n, h])

theorem uncountMerged_le (i : Nat) (val : Word) :
    ((uncountMerged i val s).reg .evtMerged 0).toNat ≤ (s.reg .evtMerged 0).toNat := by
  unfold uncountMerged
  extract_lets hit n
  split
  · exact le_rfl
  · show ((s.setReg .evtMerged 0 (word ((s.reg .evtMerged 0).toNat - n))).reg .evtMerged 0).toNat ≤ _
    rw [State.setReg_reg, word, BitVec.toNat_ofNat]
    exact (Nat.mod_le _ _).trans (Nat.sub_le _ _)

/-! ### What a coded write changes -/

theorem codedWrite_evtPend (i : Nat) (val : Word) :
    codedWrite .evtPend i val s = uncountMerged i val (s.setReg .evtPend i (s.writtenValue .evtPend i val)) := rfl

/-- Beside `EVT_PEND`, a coded write leaves in the register file what it writes. -/
theorem codedWrite_regs {k : RegKind} (h : k ≠ .evtPend) (i : Nat) (val : Word) :
    (codedWrite k i val s).regs = (s.setReg k i (s.writtenValue k i val)).regs := by
  unfold codedWrite
  split
  · rfl
  · exact absurd rfl h
  · rfl

/-- A coded write does not count as a writer of the clock by itself. -/
theorem codedWrite_writes (k : RegKind) (i : Nat) (val : Word) : (codedWrite k i val s).fresh.writes = s.fresh.writes := by
  unfold codedWrite
  split
  · rfl
  · exact uncountMerged_writes _ i val
  · rfl

theorem codedWrite_besideRegs (k : RegKind) (i : Nat) (val : Word) : besideRegs (codedWrite k i val s) = besideRegs s := by
  unfold codedWrite
  split
  · rfl
  · exact uncountMerged_besideRegs _ i val
  · rfl

/-- A coded write of a register beside `EVT_MERGED` leaves its value there. -/
theorem codedWrite_reg {k : RegKind} {i : Nat} (h : k = .evtPend → k.addr i ≠ RegKind.evtMerged.addr 0) (val : Word) :
    (codedWrite k i val s).reg k i = s.writtenValue k i val := by
  by_cases hk : k = .evtPend
  · have ha := h hk
    subst hk
    rw [codedWrite_evtPend]
    exact (uncountMerged_other _ i val ha _).trans (State.setReg_reg s _ _ _)
  · rw [State.reg, codedWrite_regs s hk]
    exact State.setReg_reg s k i _

/-- A coded write leaves the other registers alone, but for `EVT_MERGED` where it is one of `EVT_PEND`. -/
theorem codedWrite_other {k : RegKind} {i a : Nat} (ha : a ≠ k.addr i) (h : ¬ (k = .evtPend ∧ a = RegKind.evtMerged.addr 0))
    (val d : Word) :
    tabGet d (codedWrite k i val s).regs a = tabGet d s.regs a := by
  have hset : tabGet d (s.setReg k i (s.writtenValue k i val)).regs a = tabGet d s.regs a := tabGet_tabSet_ne _ _ _ _ ha.symm
  by_cases hk : k = .evtPend
  · subst hk
    rw [codedWrite_evtPend, uncountMerged_other _ i val (fun e => h ⟨rfl, e⟩), hset]
  · rw [codedWrite_regs s hk, hset]

/-- A write of `EVT_PEND` takes merges out of `EVT_MERGED`, and none where no raise has met it. -/
theorem codedWrite_evtPend_merged {i : Nat} (h : RegKind.evtPend.addr i ≠ RegKind.evtMerged.addr 0) (val : Word) :
    let u := codedWrite .evtPend i val s
    (u.reg .evtMerged 0).toNat ≤ (s.reg .evtMerged 0).toNat ∧
      (s.fresh.merged = [] → u.reg .evtMerged 0 = s.reg .evtMerged 0) := by
  have hset := State.setReg_reg_ne s (s.writtenValue .evtPend i val) h
  rw [codedWrite_evtPend]
  refine ⟨(uncountMerged_le _ i val).trans_eq (congrArg _ hset), fun hm => ?_⟩
  rw [uncountMerged_of_none (s.setReg .evtPend i _) i val hm, hset]

/-! ### Reserved bits written -/

/-- A write that sets a reserved bit is recorded as an access that had no effect. -/
theorem noteReserved_noted {k : RegKind} {i : Nat} {val : Word} (h : val &&& ~~~ k.writable i ≠ 0) (p : HostPort) :
    AccessNoted p 1 (k.addr i) s (noteReserved p k i val s) := by
  rw [noteReserved, if_neg h]
  exact noteAccess_noted s p 1 (k.addr i)

/-- The record of a reserved bit is in `GSTAT` and `GSTAT_ADDR` alone. -/
theorem noteReserved_other {k : RegKind} {i a : Nat} {val : Word}
    (h : val &&& ~~~ k.writable i = 0 ∨ (a ≠ RegKind.gstat.addr 0 ∧ a ≠ RegKind.gstatAddr.addr 0)) (p : HostPort) (d : Word) :
    tabGet d (noteReserved p k i val s).regs a = tabGet d s.regs a := by
  by_cases hres : val &&& ~~~ k.writable i = 0
  · rw [noteReserved, if_pos hres]
  · obtain ⟨hg, hga⟩ := h.resolve_left hres
    obtain ⟨-, -, hrest, -⟩ := noteReserved_noted s hres p
    exact hrest a d hg hga

theorem noteReserved_besideRegs (p : HostPort) (k : RegKind) (i : Nat) (val : Word) :
    besideRegs (noteReserved p k i val s) = besideRegs s := by
  unfold noteReserved
  split
  · rfl
  · obtain ⟨-, -, -, hframe⟩ := noteAccess_noted s p 1 (k.addr i)
    exact hframe

/-- A write that sets a reserved bit is not one of `GSTAT_ADDR`, which has none. -/
theorem kind_ne_gstatAddr_of_reserved {k : RegKind} {i : Nat} {val : Word} (h : val &&& ~~~ k.writable i ≠ 0) : k ≠ .gstatAddr := by
  rintro rfl
  have hall : ~~~ RegKind.gstatAddr.writable i = 0#32 := by
    simp only [RegKind.writable]
    decide
  rw [hall, BitVec.and_zero] at h
  exact h rfl

end Sys2Proof.Machine
end

section
/-! The statements about host accesses to registers. -/

open Sys2Proof Sys2Proof.Machine

/-- Settles O10: the register takes the written value of the coded write, and a reserved bit then adds the record of `noteAccess`, which
writes `GSTAT` and `GSTAT_ADDR` alone. -/
theorem registerWriteActsByAccessCodes : Obligations.RegisterWriteActsByAccessCodes := by
  unfold Obligations.RegisterWriteActsByAccessCodes
  intro p addr val k i s hr hopen hk taken
  have hpost : k ≠ .mbxPost := by
    rintro rfl
    exact hk (by decide)
  have haddr (k' : RegKind) (h' : regAt (k'.addr 0) = some (k', 0)) (hne : k ≠ k') : k'.addr 0 ≠ k.addr i :=
    (addr_ne_of_kind hr h' hne).symm
  have hmerged (h : k = .evtPend) : k.addr i ≠ RegKind.evtMerged.addr 0 :=
    (haddr .evtMerged (by decide) (by rw [h]; decide)).symm
  let u := codedWrite k i (s.rankedValue p k i val) (noteWrite (writerRank p) (k.addr i) s)
  have hself (b : Nat) : (u.reg k i).getLsbD b = _ :=
    (congrArg (BitVec.getLsbD · b) (codedWrite_reg _ hmerged _)).trans (getLsbD_writtenValue s hpost p i val b)
  have hother (a : Nat) (d : Word) (ha : a ≠ k.addr i) (he : ¬ (k = .evtPend ∧ a = RegKind.evtMerged.addr 0)) :
      tabGet d u.regs a = tabGet d s.regs a := codedWrite_other _ ha he _ d
  have hrank (a : Nat) : u.outranked (writerRank p) a = s.outranked (writerRank p) a := by
    rw [← outranked_noteWrite s (writerRank p) (k.addr i) a]
    simp only [State.outranked, u, codedWrite_writes]
  refine ⟨noteReserved p k i val u, ?_, fun h b => ?_, fun h => ?_, fun a d ha he h => ?_, fun hres => ?_, ?_⟩
  · rw [exec_registerWrite, hostWrite_open s hopen hr, writeReg_coded _ hk]
  · have hkept : (noteReserved p k i val u).reg k i = u.reg k i := by
      refine noteReserved_other u (or_iff_not_imp_left.2 fun hres => ⟨?_, ?_⟩) p _
      · exact (haddr .gstat (by decide) fun e => hres (h e)).symm
      · exact (haddr .gstatAddr (by decide) (kind_ne_gstatAddr_of_reserved hres)).symm
    rw [hkept, hself]
  · subst h
    have hkept : (noteReserved p .evtPend i val u).reg .evtMerged 0 = u.reg .evtMerged 0 :=
      noteReserved_other u (.inr (by decide)) p _
    rw [hkept]
    exact codedWrite_evtPend_merged _ (hmerged rfl) _
  · rw [noteReserved_other u h, hother a d ha he]
  · obtain ⟨hgstat, hgaddr, -, -⟩ := noteReserved_noted u hres p
    refine ⟨fun hne => ?_, ?_, fun hlate => ?_⟩
    · rw [hgstat]
      exact congrArg (· ||| bitWord 1) (hother _ _ (haddr .gstat (by decide) hne) fun h => absurd h.2 (by decide))
    · have hbit : (bitWord 1).getLsbD 1 = true := by decide
      rw [hgstat, BitVec.getLsbD_or, hbit, Bool.or_true]
    · rw [hgaddr, hrank, hlate]
      rfl
  · exact (noteReserved_besideRegs u p k i val).trans (codedWrite_besideRegs _ k i _)

/-- Settles O12: but for the HPD pins, whose level is the board's, a read gives what the register shows, and `readEffect_eq` says what it
changes. -/
theorem readReturnsAndClears : Obligations.ReadReturnsAndClears := by
  unfold Obligations.ReadReturnsAndClears
  intro p addr k i s0 hr hopen hk s
  rw [exec_rcRead]
  by_cases hpd : k = .lbHpd
  · subst hpd
    refine ⟨_, congrArg _ (hostRead_lbHpd s0 hopen hr), fun h => absurd rfl h, fun _ => ?_, fun h => absurd (by decide) h,
      fun h => absurd h (by decide), fun _ => rfl, fun _ _ _ => rfl, fun q hq => portBank_modPort_ne _ p q _ hq, ?_, rfl,
      fun h => absurd rfl h⟩
    · rw [portBank_modPort]
      exact hpd_beside_level _ _
    · rw [portBank_modPort]
      rfl
  · refine ⟨_, congrArg _ (hostRead_open s0 hopen hr hpd), fun _ => ?_, fun h => absurd h hpd, fun hrc h0 => ⟨?_, ?_⟩,
      fun hrc hle => ?_, fun hrc => ?_, fun a d ha => readEffect_other s hk p ha d, fun q hq => ?_, ?_, ?_,
      fun _ => readEffect_freeCtr s hk p i⟩
    · rw [portBank_modPort]
    · rw [portBank_modPort]
      exact (shown_of_rc s hrc p i).trans (stored_of_fresh s h0)
    · refine (readEffect_reg_rc s hk hrc p i).trans ?_
      rw [State.afterRead, stored_of_fresh s h0, BitVec.sub_self, BitVec.or_zero]
    · have hne : k.mask .rc ≠ 0 := by rw [hrc]; decide
      have hgiven : (s.shown p k i).toNat + s.freshCount k i = (s.reg k i).toNat := by
        rw [shown_of_rc s hne, stored_add_freshCount s hne hle]
      rw [portBank_modPort]
      exact ⟨hgiven, (congrArg _ (readEffect_reg_rc s hk hne p i)).trans (afterRead_toNat s hrc hle)⟩
    · exact (congrArg (State.reg · k i) (readEffect_plain s hk hrc p i) :)
    · rw [portBank_modPort_ne _ p q _ hq, readEffect_portBank s hk]
    · rw [portBank_modPort, readEffect_portBank s hk]
    · exact (congrArg (fun t : State => { t with ports := s.ports, freeCtr := s.freeCtr }) (readEffect_frame s hk p i) :)

/-- Settles O13: each outcome of an access is the branch of `State.reach` that its condition names; a read first refuses the port's own
post, which changes no supply and no load, so that it comes as far as before. -/
theorem accessWithoutRegister : Obligations.AccessWithoutRegister := by
  unfold Obligations.AccessWithoutRegister
  intro p addr val s a u holds
  simp only [exec_registerWrite, exec_rcRead]
  refine ⟨fun h => ?_, fun h => ?_, fun h hr => ?_, fun h hr => ?_, fun h hr => ?_, fun k i h hr => ?_, fun h => ?_,
    fun hs hp hh => ?_, fun hs hp => ?_⟩
  · rw [hostWrite_held s h]
  · exact ⟨_, congrArg _ (hostWrite_off s h p val), noteAccess_noted s p 0 a⟩
  · exact ⟨_, congrArg _ (hostWrite_reserved s h hr p val), noteAccess_noted s p 1 a⟩
  · rw [hostWrite_silent s h, sleepingWrite_waits s hr, holdAccess_eq rfl]
  · rw [hostRead_reserved s h hr]
  · rw [hostRead_held s h hr]
  · exact ⟨_, congrArg _ (hostRead_off s h), noteAccess_noted u p 0 a⟩
  · rw [hostRead_silent s (s.reach_silent hs a), if_pos (by simp [hp, hh])]
  · have hspi : ¬ (decide (p = .spi) && !s.power.held) = true := by
      rcases hp with hp | hp <;> simp [hp]
    have hu : u.power = s.power := refusePosts_power s _
    rw [hostRead_silent s (s.reach_silent hs a), if_neg hspi, holdAccess_eq hu, hu]

end

section
/-! SUPPORT. The clocks and the SYS operating point: which operations of one clock leave them alone, and what a clock adds to the counts
(01_architecture R14, 19_events_counters R465). -/

namespace Sys2Proof.Machine

/-- The clock counts, with the operating point that sets how much of a SYSCLK period a SYS clock takes (01_architecture R14). -/
def State.timing (s : State) : Clocks × SysPoint := (s.clocks, s.power.point)

variable (s : State)

/-! ### Compositions that keep the timing -/

theorem timing_clocks {s t : State} (h : t.timing = s.timing) : t.clocks = s.clocks := congrArg Prod.fst h

theorem timing_point {s t : State} (h : t.timing = s.timing) : t.power.point = s.power.point := congrArg Prod.snd h

theorem timing_ite {c : Prop} [Decidable c] {a b r : State} (ha : a.timing = r.timing) (hb : b.timing = r.timing) :
    (if c then a else b).timing = r.timing := by
  split <;> assumption

theorem timing_foldl {α : Type} {g : State → α → State} (hg : ∀ s x, (g s x).timing = s.timing) (l : List α) :
    (l.foldl g s).timing = s.timing := by
  induction l generalizing s with
  | nil => rfl
  | cons x l ih => exact (ih _).trans (hg s x)

/-- Registers, and what setting flags and raising events touch, are beside the timing. -/
theorem timing_of_besideFlags {s t : State} (h : besideFlags t = besideFlags s) : t.timing = s.timing :=
  (congrArg State.timing h :)

/-! ### Updates of single blocks -/

@[simp] theorem State.withSump_timing (f : Sump → Sump) : (s.withSump f).timing = s.timing := rfl
@[simp] theorem State.modQueue_timing (q : Nat) (f : SQueue → SQueue) : (s.modQueue q f).timing = s.timing := rfl
@[simp] theorem State.modPin_timing (b n : Nat) (f : Pin → Pin) : (s.modPin b n f).timing = s.timing := rfl

@[simp] theorem State.modMaster_timing (m : Nat) (f : Hauler → Hauler) : (s.modMaster m f).timing = s.timing := by
  simp [State.timing]

/-! ### Flags and counters -/

@[simp] theorem raiseEvent_timing (n : Nat) : (raiseEvent n s).timing = s.timing :=
  timing_of_besideFlags (raiseEvent_besideFlags s n)

@[simp] theorem setFlags_timing (k en : RegKind) (i : Nat) (how : Raising) (bits : Word) :
    (setFlags k en i how bits s).timing = s.timing :=
  timing_of_besideFlags (setFlags_besideFlags s k en i how bits)

@[simp] theorem flagSump_timing (b : Nat) : (flagSump b s).timing = s.timing := setFlags_timing s _ _ _ _ _

@[simp] theorem flagPwr_timing (b : Nat) : (flagPwr b s).timing = s.timing := setFlags_timing s _ _ _ _ _

@[simp] theorem flagIso_timing (c : Nat) : (flagIso c s).timing = s.timing :=
  timing_ite (setFlags_timing s _ _ _ _ _) (setFlags_timing s _ _ _ _ _)

@[simp] theorem flagStale_timing (q : Nat) : (flagStale q s).timing = s.timing :=
  timing_ite rfl (raiseEvent_timing _ _)

@[simp] theorem countSump_timing (k : RegKind) (n : Nat) : (countSump k n s).timing = s.timing :=
  timing_of_besideFlags (countStat_besideFlags s fun _ => setFlags_besideFlags _ _ _ _ _ _)

/-! ### The end of a clock in the Sump (08_sump R180 to R190) -/

@[simp] theorem dropPacket_timing (d : Nat) : (dropPacket d s).timing = s.timing := rfl

@[simp] theorem makeVisible_timing (d : Nat) : (makeVisible d s).timing = s.timing := rfl

@[simp] theorem recoverClear_timing (q : Nat) : (recoverClear q s).timing = s.timing := rfl

@[simp] theorem rewind_timing (d : Nat) : (rewind d s).timing = s.timing := by
  simp [rewind]

@[simp] theorem closeDesc_timing (q : Nat) (p : Producer) (d : Nat) : (closeDesc q p d s).timing = s.timing := by
  unfold closeDesc
  extract_lets u v w x
  refine timing_ite ?_ (rewind_timing _ _)
  rw [flagSump_timing, countSump_timing]
  unfold x
  split <;> rfl

@[simp] theorem expire_timing (q : Nat) : (expire q s).timing = s.timing := by
  unfold expire
  extract_lets u
  have hu : u.timing = s.timing := by simp [u]
  refine timing_ite ?_ rfl
  split
  · refine timing_ite ?_ hu
    split
    · exact (closeDesc_timing ..).trans hu
    · exact (rewind_timing ..).trans hu
  · exact hu

@[simp] theorem applyCommit_timing (c : Nat) : (applyCommit c s).timing = s.timing := by
  unfold applyCommit
  extract_lets u v
  split
  · rfl
  · exact timing_ite (timing_ite (timing_ite rfl (rewind_timing _ _)) (timing_ite rfl rfl)) rfl

@[simp] theorem beginFlush_timing (q : Nat) : (beginFlush q s).timing = s.timing := timing_ite rfl rfl

@[simp] theorem discardOne_timing (q : Nat) : (discardOne q s).timing = s.timing := by
  unfold discardOne
  split
  · rfl
  · extract_lets taken noted cut
    have htaken : taken.timing = s.timing := State.modQueue_timing ..
    refine timing_ite (timing_ite htaken ?_) ?_
    · rw [countSump_timing, dropPacket_timing]
      exact (State.modQueue_timing ..).trans htaken
    · rw [countSump_timing, State.withSump_timing]
      exact (State.modQueue_timing ..).trans htaken

@[simp] theorem freeGone_timing : (freeGone s).timing = s.timing := by
  unfold freeGone
  extract_lets gone u
  have hu : u.timing = s.timing := timing_foldl s (fun _ _ => State.modQueue_timing ..) gone
  exact hu

@[simp] theorem sumpClock_timing : (sumpClock s).timing = s.timing := by
  unfold sumpClock
  extract_lets expired committed flushed opened released cleared discarded freed dev changed ended
  have hfreed : freed.timing = s.timing := calc
    freed.timing = discarded.timing := freeGone_timing _
    _ = cleared.timing := by
      refine timing_foldl cleared (fun u e => ?_) _
      exact timing_ite (discardOne_timing ..) rfl
    _ = released.timing := rfl
    _ = opened.timing := by
      refine timing_foldl opened (fun u d => ?_) _
      exact timing_ite (makeVisible_timing ..) rfl
    _ = flushed.timing := by
      refine timing_foldl flushed (fun u e => timing_foldl u (fun v d => ?_) _) _
      exact timing_ite (makeVisible_timing ..) rfl
    _ = committed.timing := timing_foldl committed (fun u q => beginFlush_timing u q) _
    _ = expired.timing := timing_foldl expired (fun u c => applyCommit_timing u c) _
    _ = s.timing := timing_foldl s (fun u q => expire_timing u q) _
  have hended : ended.timing = s.timing := (State.withSump_timing freed _).trans hfreed
  exact timing_ite ((flagSump_timing ended 11).trans hended) hended

@[simp] theorem sumpMicro_timing : (sumpMicro s).timing = s.timing := by
  unfold sumpMicro
  refine timing_foldl s (fun u e => ?_) _
  exact timing_ite (State.modQueue_timing ..) rfl

/-! ### Pops on their way (08_sump R168, R169) -/

@[simp] theorem countBurst_timing (p : Nat) (began ends eop : Bool) : (countBurst p began ends eop s).timing = s.timing :=
  have hover {u : State} (hu : u.timing = s.timing) : (burstOver p u).timing = s.timing := hu
  timing_ite (hover (timing_ite rfl rfl)) (timing_ite rfl rfl)

@[simp] theorem laneGets_timing (n : Nat) (bs : List SumpBeat) : (laneGets n bs s).timing = s.timing := timing_ite rfl rfl

@[simp] theorem portalGets_timing (p : Nat) (bs : List SumpBeat) : (portalGets p bs s).timing = s.timing :=
  timing_ite rfl (timing_ite (countBurst_timing _ _ _ _ _) rfl)

@[simp] theorem giveRead_timing (r : SRead) : (giveRead r s).timing = s.timing := by
  unfold giveRead
  extract_lets u
  split
  · exact laneGets_timing u _ _
  · exact portalGets_timing u _ _
  · exact timing_ite (State.modMaster_timing u _ _) rfl

@[simp] theorem serveReads_timing : (serveReads s).timing = s.timing := timing_foldl _ (fun u r => giveRead_timing u r) _

/-! ### Pads and caverns at a cause of isolation (01_architecture R20 to R23) -/

theorem offerQueued_timing (b n : Nat) : (offerQueued b n s).timing = s.timing := by
  unfold offerQueued
  split
  · exact timing_ite rfl rfl
  · rfl

theorem settleAck_timing (b n : Nat) : (settleAck b n s).timing = s.timing := timing_ite rfl rfl

@[simp] theorem pinsSettle_timing (c : Nat) : (pinsSettle c s).timing = s.timing := by
  unfold pinsSettle
  refine timing_foldl s (fun u b => timing_ite ?_ rfl) _
  refine timing_foldl u (fun v n => ?_) _
  exact (settleAck_timing _ b n).trans (offerQueued_timing v b n)

@[simp] theorem isolatePins_timing (c : Nat) : (isolatePins c s).timing = s.timing := by
  unfold isolatePins
  refine timing_foldl s (fun u b => timing_ite ?_ rfl) _
  refine timing_foldl u (fun v n => ?_) _
  exact timing_ite (timing_ite (State.modPin_timing ..) (State.modPin_timing ..)) rfl

@[simp] theorem completeAttachments_timing (c : Nat) : (completeAttachments c s).timing = s.timing := pinsSettle_timing _ c

@[simp] theorem setCause_timing (c : Nat) (w : Cause) : (setCause c w s).timing = s.timing := by
  unfold setCause
  extract_lets old valid owed gated empties shadow marked wiped stopped
  have hgated : gated.timing = s.timing := timing_ite rfl (isolatePins_timing s c)
  have hwiped : wiped.timing = s.timing := timing_ite hgated hgated
  have hstopped : stopped.timing = s.timing := timing_ite hwiped hwiped
  exact timing_ite rfl ((flagIso_timing _ c).trans
    (timing_ite ((completeAttachments_timing stopped c).trans hstopped) hstopped))

/-! ### Modes, domains and the always-on clock -/

theorem wakeActivity_timing : (wakeActivity s).timing = s.timing := by
  have hvccf (mv : Nat) : (commandVccf mv s).timing = s.timing := timing_ite rfl rfl
  have henter (u : State) : (enterMode .run u).timing = u.timing := timing_ite rfl (flagPwr_timing _ _)
  exact timing_ite ((henter _).trans (hvccf _)) rfl

theorem wakeLatch_timing (w : WakeSrc) : (wakeLatch w s).timing = s.timing := by
  unfold wakeLatch
  split
  · extract_lets latched listed
    refine timing_ite ?_ rfl
    split
    · rfl
    · exact timing_ite rfl rfl
    · rfl
  · rfl

theorem domSettle_timing (c : Nat) : (domSettle c s).timing = s.timing := by
  unfold domSettle
  split
  · exact timing_ite (setCause_timing s c .power) rfl
  · rfl

theorem domSettleAll_timing : (domSettleAll s).timing = s.timing := by
  unfold domSettleAll
  refine timing_foldl s (fun u e => ?_) _
  exact domSettle_timing u e.1

/-- The always-on clock ticks, and no other count moves. -/
theorem aonTick_clocks : (aonTick s).clocks = { s.clocks with aon := s.clocks.aon + 1 } := by
  unfold aonTick
  extract_lets v counted shown flagged
  have hflagged : flagged.timing = shown.timing := timing_ite (flagPwr_timing shown 7) rfl
  exact timing_clocks (timing_ite ((wakeLatch_timing flagged .alarm).trans hflagged) hflagged : _ = shown.timing)

/-! ### One SYS clock -/

/-- From `s` to `t` one SYS clock has been counted: a clock more, its share of the SYSCLK period, and 10 on the timestamp where a period
ends, which wraps from its last value (01_architecture R14, 19_events_counters R465). -/
def SysClockCounted (s t : State) : Prop :=
  t.clocks.sys = s.clocks.sys + 1 ∧ t.clocks.phase = (s.clocks.phase + clockShare s.power.point) % 60 ∧
    t.clocks.stamp = if s.clocks.phase + clockShare s.power.point < 60 then s.clocks.stamp
      else if 2 ^ 64 - 6 ≤ s.clocks.stamp then 0 else s.clocks.stamp + 10

/-- What is counted depends on the timing before alone. -/
theorem SysClockCounted.congr {r s t : State} (h : SysClockCounted s t) (hs : s.timing = r.timing) : SysClockCounted r t := by
  unfold SysClockCounted at *
  rwa [timing_clocks hs, timing_point hs] at h

theorem SysClockCounted.after {s t u : State} (h : SysClockCounted s t) (hsys : u.clocks.sys = t.clocks.sys)
    (hphase : u.clocks.phase = t.clocks.phase) (hstamp : u.clocks.stamp = t.clocks.stamp) : SysClockCounted s u := by
  unfold SysClockCounted
  rwa [hsys, hphase, hstamp]

theorem stampTick_clocks : (stampTick s).clocks =
    if 2 ^ 64 - 6 ≤ s.clocks.stamp then { s.clocks with stamp := 0, scrub := [] }
    else { s.clocks with stamp := s.clocks.stamp + 10 } := by
  unfold stampTick
  extract_lets t
  split
  · exact timing_clocks (raiseEvent_timing _ 15)
  · rfl

/-- Beside the timestamp, a SYSCLK period counts in the hundredths of a microsecond alone. -/
theorem sysclkTick_clocks :
    (sysclkTick s).clocks = { (stampTick s).clocks with micro := ((stampTick s).clocks.micro + 1) % 100 } := by
  unfold sysclkTick
  extract_lets ticked n _ counted
  exact timing_clocks (timing_ite (sumpMicro_timing counted) rfl : _ = State.timing counted)

theorem countClock_counted : SysClockCounted s (countClock s) := by
  unfold countClock
  extract_lets p u
  by_cases hp : 60 ≤ p
  · rw [if_pos hp]
    unfold SysClockCounted
    rw [sysclkTick_clocks, stampTick_clocks, if_neg (Nat.not_lt.2 hp)]
    split <;> exact ⟨rfl, rfl, rfl⟩
  · rw [if_neg hp]
    exact ⟨rfl, rfl, (if_pos (Nat.not_le.1 hp)).symm⟩

/-- A SYS clock is counted once: what happens in it beside moves at most the always-on count. -/
theorem sysTick_counted : SysClockCounted s (sysTick s) := by
  unfold sysTick
  extract_lets woken n counted ticked
  have hwoken : woken.timing = s.timing := timing_ite (wakeActivity_timing s) rfl
  have hserved : (if woken.blocksRun then sumpClock (serveReads woken) else woken).timing = s.timing :=
    timing_ite (((sumpClock_timing _).trans (serveReads_timing _)).trans hwoken) hwoken
  have hcounted : SysClockCounted s counted := (countClock_counted _).congr hserved
  have hticked : SysClockCounted s ticked := by
    unfold ticked
    split
    · have haon := aonTick_clocks counted
      exact hcounted.after (by rw [haon]) (by rw [haon]) (by rw [haon])
    · exact hcounted
  have hsettled := timing_clocks (domSettleAll_timing ticked)
  exact hticked.after (by rw [hsettled]) (by rw [hsettled]) (by rw [hsettled])

/-! ### One clock -/

/-- Settling the posts of a clock changes neither the clocks nor the power controller. -/
theorem endPosts_clocks : (endPosts s).clocks = s.clocks := (congrArg State.clocks (refusePosts_frame s fun _ => true) :)

theorem endPosts_power : (endPosts s).power = s.power := refusePosts_power s _

/-- Whether SYS runs, and whether a power-on reset may end, is up to the power controller alone. -/
theorem sysRuns_congr {s t : State} (h : t.power = s.power) : t.sysRuns = s.sysRuns := by
  simp only [State.sysRuns, h]

theorem mayRelease_congr {s t : State} (h : t.power = s.power) : t.mayRelease = s.mayRelease := by
  simp only [State.mayRelease, h]

/-- While SYS runs, one clock is one SYS clock. -/
theorem tick_counted (h : s.sysRuns = true) : SysClockCounted s (tick s) := by
  unfold tick
  extract_lets u
  have hpower : u.power = s.power := endPosts_power s
  have hclocks : u.clocks = s.clocks := endPosts_clocks s
  rw [if_pos ((sysRuns_congr hpower).trans h)]
  exact (sysTick_counted u).congr (congrArg₂ (fun c (p : Power) => (c, p.point)) hclocks hpower)

/-- While SYS does not run, one clock is one tick of the always-on clock, but under a power-on reset that may end. -/
theorem tick_clocks_of_stopped (h : s.sysRuns = false) : (tick s).clocks =
    { s.clocks with aon := if s.power.held = true ∧ s.mayRelease = true then s.clocks.aon else s.clocks.aon + 1 } := by
  unfold tick
  extract_lets u
  have hpower : u.power = s.power := endPosts_power s
  have hclocks : u.clocks = s.clocks := endPosts_clocks s
  rw [if_neg (by simp [sysRuns_congr hpower, h]), hpower, mayRelease_congr hpower]
  simp only [Bool.and_eq_true]
  split
  · exact hclocks
  · rw [aonTick_clocks, hclocks]

end Sys2Proof.Machine
end

section
/-! The statements about the block as a whole: one clock, and the state after reset. -/

open Sys2Proof Sys2Proof.Machine

/-- Settles O2: on an empty queue the step is `tick`, which `tick_counted` and `tick_clocks_of_stopped` describe; a timestamp that is a
64-bit multiple of 10 reaches the wrap at 2^64 - 6 exactly. -/
theorem idleStepIsOneClock : Obligations.IdleStepIsOneClock := by
  unfold Obligations.IdleStepIsOneClock
  intro s hpending hten hbound
  have hstep : step s = .next (tick s) := by
    simp only [step, hpending]
  refine ⟨tick s, hstep, (tick_keeps (Keeps.refl s)).pending.trans hpending, tick_clocks_of_stopped s, fun hruns => ?_⟩
  obtain ⟨hsys, hphase, hstamp⟩ := tick_counted s hruns
  have hwrap : 2 ^ 64 - 6 ≤ s.clocks.stamp ↔ s.clocks.stamp = 2 ^ 64 - 6 := by omega
  simp only [hwrap] at hstamp
  exact ⟨hsys, hphase, hstamp⟩

/-- Settles O9: every table of the reset state is empty, so that an entry reads as its default; a register's default is its reset
value, a cavern's is isolated with cause LOAD, and unpowered by the model's choice (log entry 7). -/
theorem resetState : Obligations.ResetState := by
  unfold Obligations.ResetState
  have hreg (k : RegKind) (i : Nat) : State.reset.reg k i = k.reset := tabGet_nil _ _
  have hcav (c : Nat) : State.reset.cav c = {} := tabGet_nil _ _
  have hmbox (m : Nat) : State.reset.mboxAt m = {} := tabGet_nil _ _
  refine ⟨hreg, fun c => ?_, rfl, rfl, fun m => ?_, rfl, rfl, ⟨rfl, rfl, rfl, rfl⟩, ⟨rfl, ?_, ?_⟩, ⟨?_, ?_⟩⟩
  · rw [hcav]
    exact ⟨rfl, rfl, rfl, rfl, rfl, rfl, rfl⟩
  · rw [hmbox]
    exact ⟨rfl, rfl⟩
  all_goals decide

end

section
/-! SUPPORT. A cavern frozen (01_architecture R28): what a freeze may touch beside the cavern's causes and the fault log, and where the
entry stands in a log that is within its bound (18_self_test_faults R454, R456). -/

namespace Sys2Proof.Machine

variable (s : State)

/-! ### What a freeze leaves alone -/

/-- A state without the parts that a freeze may change beside the cavern itself and the fault log: registers and what setting flags
touches, pads, the Sump, and running tests. -/
def State.freezeBase (s : State) : State :=
  besideFlags { s with pins := State.reset.pins, sump := State.reset.sump, test := State.reset.test }

theorem freezeBase_of_besideFlags {s t : State} (h : besideFlags t = besideFlags s) : t.freezeBase = s.freezeBase :=
  (congrArg State.freezeBase h :)

theorem freezeBase_ite {c : Prop} [Decidable c] {a b r : State} (ha : a.freezeBase = r.freezeBase) (hb : b.freezeBase = r.freezeBase) :
    (if c then a else b).freezeBase = r.freezeBase := by
  split <;> assumption

theorem freezeBase_foldl {α : Type} {g : State → α → State} (hg : ∀ s x, (g s x).freezeBase = s.freezeBase) (l : List α) :
    (l.foldl g s).freezeBase = s.freezeBase := by
  induction l generalizing s with
  | nil => rfl
  | cons x l ih => exact (ih _).trans (hg s x)

/-- A change of a cavern is the same on states that differ only in what a freeze may touch. -/
theorem freezeBase_modCav {s t : State} (h : t.freezeBase = s.freezeBase) (c : Nat) (f : Cavern → Cavern) :
    (t.modCav c f).freezeBase = (s.modCav c f).freezeBase :=
  (congrArg (fun u : State => (u.modCav c f).freezeBase) h :)

@[simp] theorem State.modPin_freezeBase (b n : Nat) (f : Pin → Pin) : (s.modPin b n f).freezeBase = s.freezeBase := rfl
@[simp] theorem State.modQueue_freezeBase (q : Nat) (f : SQueue → SQueue) : (s.modQueue q f).freezeBase = s.freezeBase := rfl
@[simp] theorem State.modDesc_freezeBase (d : Nat) (f : SDesc → SDesc) : (s.modDesc d f).freezeBase = s.freezeBase := rfl
@[simp] theorem stopTests_freezeBase (hit : TestRun → Bool) : (stopTests hit s).freezeBase = s.freezeBase := rfl

@[simp] theorem setFlags_freezeBase (k en : RegKind) (i : Nat) (how : Raising) (bits : Word) :
    (setFlags k en i how bits s).freezeBase = s.freezeBase :=
  freezeBase_of_besideFlags (setFlags_besideFlags s k en i how bits)

@[simp] theorem flagIso_freezeBase (c : Nat) : (flagIso c s).freezeBase = s.freezeBase :=
  freezeBase_ite (setFlags_freezeBase s _ _ _ _ _) (setFlags_freezeBase s _ _ _ _ _)

@[simp] theorem flagSump_freezeBase (b : Nat) : (flagSump b s).freezeBase = s.freezeBase := setFlags_freezeBase s _ _ _ _ _

@[simp] theorem countSump_freezeBase (k : RegKind) (n : Nat) : (countSump k n s).freezeBase = s.freezeBase :=
  freezeBase_of_besideFlags (countStat_besideFlags s fun _ => setFlags_besideFlags _ _ _ _ _ _)

@[simp] theorem isolatePins_freezeBase (c : Nat) : (isolatePins c s).freezeBase = s.freezeBase := by
  unfold isolatePins
  refine freezeBase_foldl s (fun u b => freezeBase_ite ?_ rfl) _
  refine freezeBase_foldl u (fun v n => freezeBase_ite (freezeBase_ite ?_ ?_) rfl) _
  · exact State.modPin_freezeBase v b n _
  · exact State.modPin_freezeBase v b n _

@[simp] theorem rewind_freezeBase (d : Nat) : (rewind d s).freezeBase = s.freezeBase := by
  have hdrop : (dropPacket d s).freezeBase = s.freezeBase := rfl
  rw [rewind, flagSump_freezeBase, countSump_freezeBase, hdrop]

/-- The close of a packet is in the Sump alone (08_sump R182). -/
@[simp] theorem closeDesc_freezeBase (q : Nat) (p : Producer) (d : Nat) : (closeDesc q p d s).freezeBase = s.freezeBase := by
  unfold closeDesc
  extract_lets u v w x
  refine freezeBase_ite ?_ ?_
  · rw [flagSump_freezeBase, countSump_freezeBase]
    have hx : x.freezeBase = w.freezeBase := by
      unfold x
      split <;> rfl
    exact hx.trans ((State.modDesc_freezeBase u d _).trans (State.modQueue_freezeBase s q _))
  · exact (rewind_freezeBase u d).trans (State.modQueue_freezeBase s q _)

@[simp] theorem interruptProducer_freezeBase (q : Nat) (p : Producer) : (interruptProducer q p s).freezeBase = s.freezeBase := by
  unfold interruptProducer
  extract_lets u v w
  have hw : w.freezeBase = s.freezeBase :=
    (freezeBase_foldl v (fun v' d => State.modDesc_freezeBase v' d _) _).trans
      (freezeBase_foldl u (fun u' d => State.modDesc_freezeBase u' d _) _)
  unfold closePacket
  split
  · exact hw
  · exact (closeDesc_freezeBase w q p _).trans hw

/-- The producers that a freeze interrupts are in the Sump alone (08_sump R183). -/
@[simp] theorem interruptCavern_freezeBase (c : Nat) : (interruptCavern c s).freezeBase = s.freezeBase := by
  unfold interruptCavern
  extract_lets u
  have hu : u.freezeBase = s.freezeBase :=
    freezeBase_foldl s (fun v i => freezeBase_ite (interruptProducer_freezeBase v _ _) rfl) _
  refine freezeBase_ite ((freezeBase_foldl u (fun v j => freezeBase_ite ?_ rfl) _).trans hu) rfl
  exact freezeBase_ite (interruptProducer_freezeBase v _ _) rfl

/-! ### The fault log -/

/-- The fault log with one more entry: of a full one the oldest entry goes (18_self_test_faults R454). -/
def FaultLog.after (l : FaultLog) (code inst stamp : Nat) : FaultLog :=
  { entries := (placeFault (word (place 24 8 code + place 0 24 inst), word stamp)
      (if l.entries.length ≥ 64 then l.entries.drop 1 else l.entries).reverse).reverse
    next := (l.next + 1) % 2 ^ 16 }

/-- A state with a fault logged. -/
def State.withFault (code inst : Nat) : State := { s with flog := s.flog.after code inst s.clocks.stamp }

theorem freezeBase_withFault {s t : State} (h : t.freezeBase = s.freezeBase) (code inst : Nat) :
    (t.withFault code inst).freezeBase = (s.withFault code inst).freezeBase :=
  (congrArg (fun u : State => (u.withFault code inst).freezeBase) h :)

theorem logFault_freezeBase (code inst : Nat) : (logFault code inst s).freezeBase = (s.withFault code inst).freezeBase := by
  unfold logFault
  extract_lets e full held u v
  have hv : v.freezeBase = u.freezeBase := setFlags_freezeBase u _ _ _ _ _
  refine freezeBase_ite ?_ hv
  have hlost : (countStat .flogLostCnt 0 (evtOverflow 1) (flagScrub 8 v)).freezeBase = (flagScrub 8 v).freezeBase :=
    freezeBase_of_besideFlags (countStat_besideFlags _ fun w => evtOverflow_besideFlags w 1)
  exact hlost.trans ((setFlags_freezeBase v _ _ _ _ _).trans hv)

/-- A new entry stands before the newest entries of its SYSCLK period that have a larger code, and after every other
(18_self_test_faults R456). -/
theorem placeFault_split (e : Word × Word) (l : List (Word × Word)) :
    ∃ newer older, l = newer ++ older ∧ placeFault e l = newer ++ e :: older ∧
      ∀ x ∈ newer, x.2 = e.2 ∧ bitsOf 24 8 e.1.toNat < bitsOf 24 8 x.1.toNat := by
  induction l with
  | nil => exact ⟨[], [], rfl, rfl, by simp⟩
  | cons x l ih =>
    rw [placeFault]
    split
    · next hx =>
      obtain ⟨newer, older, hl, hp, hn⟩ := ih
      exact ⟨x :: newer, older, by simp [hl], by simp [hp], List.forall_mem_cons.2 ⟨hx, hn⟩⟩
    · exact ⟨[], x :: l, rfl, rfl, by simp⟩

/-- In a log within its bound the new entry stands among the 64. -/
theorem logged_of_after {s t : State} {code inst : Nat} (hlen : s.flog.entries.length ≤ 64)
    (ht : t.flog = s.flog.after code inst s.clocks.stamp) : Logged (word (place 24 8 code + place 0 24 inst)) s t := by
  let held := if s.flog.entries.length ≥ 64 then s.flog.entries.drop 1 else s.flog.entries
  have hheld : held.length < 64 := by
    unfold held
    split
    · rw [List.length_drop]
      omega
    · omega
  obtain ⟨newer, older, hl, hp, hn⟩ := placeFault_split (word (place 24 8 code + place 0 24 inst), word s.clocks.stamp) held.reverse
  have hentries : t.flog.entries = older.reverse ++ (word (place 24 8 code + place 0 24 inst), word s.clocks.stamp) :: newer.reverse := by
    rw [ht, FaultLog.after, hp]
    simp
  have holder : older.length < 64 := by
    have := congrArg List.length hl
    rw [List.length_reverse, List.length_append] at this
    omega
  refine ⟨older.length, holder, by simp [hentries], fun x hx => hn x ?_⟩
  rw [hentries, List.drop_append, List.drop_eq_nil_of_le (by simp)] at hx
  simpa using hx

/-- In a log past its bound, all of whose entries are empty words, the new entry stands past the 64. -/
theorem not_logged_of_overlong {s t : State} {code inst : Nat} {w : Word} (hs : s.flog.entries = List.replicate 65 (0, 0))
    (ht : t.flog = s.flog.after code inst s.clocks.stamp) (hw : w ≠ 0) : ¬ Logged w s t := by
  rintro ⟨i, hi, hentry, -⟩
  have hlast (e : Word × Word) : placeFault e (List.replicate 64 (0, 0)) = e :: List.replicate 64 (0, 0) := by
    rw [List.replicate_succ, placeFault, if_neg (by simp [bitsOf])]
  have hentries : t.flog.entries = List.replicate 64 (0, 0) ++ [(word (place 24 8 code + place 0 24 inst), word s.clocks.stamp)] := by
    rw [ht, FaultLog.after, hs, List.length_replicate, if_pos (by decide), List.drop_replicate, List.reverse_replicate, hlast,
      List.reverse_cons, List.reverse_replicate]
  rw [hentries, List.getElem?_append_left (by simpa using hi), List.getElem?_replicate_of_lt hi, Option.some.injEq,
    Prod.mk.injEq] at hentry
  exact hw hentry.1.symm

/-- The first word of an entry names a code that is not 0. -/
theorem faultWord_ne_zero {code inst : Nat} (hpos : 0 < code) (hcode : code < 2 ^ 8) (hinst : inst < 2 ^ 24) :
    word (place 24 8 code + inst) ≠ 0 := by
  have hplace : place 24 8 code = code * 2 ^ 24 := by rw [place, Nat.mod_eq_of_lt hcode, Nat.shiftLeft_eq]
  intro h
  have := congrArg BitVec.toNat h
  rw [word, BitVec.toNat_ofNat, hplace, Nat.mod_eq_of_lt (by omega)] at this
  simp at this
  omega

/-! ### The freeze -/

/-- The cause FREEZE set: that cavern frozen, every other one as it was. -/
theorem setCause_freeze_freezeBase (c : Nat) : ∃ cavs,
    (setCause c .freeze s).freezeBase = { s with cavs := cavs }.freezeBase ∧ (tabGet {} cavs c).freeze = true ∧
      ∀ d, d ≠ c → tabGet {} cavs d = s.cav d := by
  unfold setCause
  split
  · next h => exact ⟨s.cavs, rfl, h, fun _ _ => rfl⟩
  · extract_lets old valid owed gated empties shadow marked wiped stopped
    have hgated : gated.freezeBase = s.freezeBase := freezeBase_ite rfl (isolatePins_freezeBase s c)
    refine ⟨_, (flagIso_freezeBase _ c).trans (freezeBase_modCav hgated c _), ?_, fun d hd => ?_⟩
    · simp [Cavern.put]
    · simp [hd.symm, State.cav]

/-- Freezing a cavern changes that cavern and the fault log, and beside these only what a freeze may touch: the cavern is frozen, its
source recorded where it was not frozen already. -/
theorem freezeCav_freezeBase (c fpocket code inst : Nat) : ∃ cavs,
    (freezeCav c fpocket code inst s).freezeBase = ({ s with cavs := cavs }.withFault code inst).freezeBase ∧
    (tabGet {} cavs c).freeze = true ∧ ((s.cav c).freeze = false → (tabGet {} cavs c).fpocket = BitVec.ofNat 8 fpocket) ∧
    ∀ d, d ≠ c → tabGet {} cavs d = s.cav d := by
  obtain ⟨cavs, hcaused, hfreeze, hother⟩ := setCause_freeze_freezeBase s c
  unfold freezeCav
  extract_lets fresh caused marked
  have hlogged (cavs' : Tab Cavern) (h : marked.freezeBase = { s with cavs := cavs' }.freezeBase) :
      (logFault code inst (stopTests (fun r => r.type ≠ 5 && r.covers c) marked)).freezeBase =
        ({ s with cavs := cavs' }.withFault code inst).freezeBase :=
    (logFault_freezeBase _ code inst).trans (freezeBase_withFault ((stopTests_freezeBase marked _).trans h) code inst)
  cases hfresh : (s.cav c).freeze
  · refine ⟨tabMod {} cavs c fun v => { v with fpocket := BitVec.ofNat 8 fpocket }, hlogged _ ?_, ?_, fun _ => ?_, fun d hd => ?_⟩
    · refine Eq.trans (congrArg State.freezeBase (if_pos (by simp [fresh, hfresh]))) ?_
      exact (interruptCavern_freezeBase _ c).trans (freezeBase_modCav hcaused c _)
    · rw [tabGet_tabMod, if_pos rfl]
      exact hfreeze
    · rw [tabGet_tabMod, if_pos rfl]
    · rw [tabGet_tabMod, if_neg hd.symm]
      exact hother d hd
  · refine ⟨cavs, hlogged _ ?_, hfreeze, fun h => absurd h (by simp), hother⟩
    exact (congrArg State.freezeBase (if_neg (by simp [fresh, hfresh]))).trans hcaused

@[simp] theorem freezeCav_fabric (c fpocket code inst : Nat) : (freezeCav c fpocket code inst s).fabric = s.fabric := by
  obtain ⟨_, hbase, -⟩ := freezeCav_freezeBase s c fpocket code inst
  exact (congrArg State.fabric hbase :)

@[simp] theorem freezeCav_cfg (c fpocket code inst : Nat) : (freezeCav c fpocket code inst s).cfg = s.cfg := by
  obtain ⟨_, hbase, -⟩ := freezeCav_freezeBase s c fpocket code inst
  exact (congrArg State.cfg hbase :)

theorem freezeCav_flog (c fpocket code inst : Nat) :
    (freezeCav c fpocket code inst s).flog = s.flog.after code inst s.clocks.stamp := by
  obtain ⟨_, hbase, -⟩ := freezeCav_freezeBase s c fpocket code inst
  exact (congrArg State.flog hbase :)

@[simp] theorem freezeCav_cell (c fpocket code inst cav x y k : Nat) : (freezeCav c fpocket code inst s).cell cav x y k = s.cell cav x y k :=
  (congrArg (fun f : Fabric => tabGet ({} : Cell) f.cells (cellKey cav x y k)) (freezeCav_fabric s c fpocket code inst) :)

@[simp] theorem freezeCav_attIn (c fpocket code inst a : Nat) : (freezeCav c fpocket code inst s).attIn a = s.attIn a :=
  (congrArg (fun f : Fabric => tabGet ({} : InAtt) f.attIn a) (freezeCav_fabric s c fpocket code inst) :)

/-- With a fault log within its bound, a freeze does all that is said of a frozen cavern. -/
theorem frozenBy_freezeCav {s : State} (hlen : s.flog.entries.length ≤ 64) (c fpocket code inst : Nat) :
    FrozenBy c fpocket code s (freezeCav c fpocket code inst s) := by
  obtain ⟨cavs, hbase, hfreeze, hsource, hother⟩ := freezeCav_freezeBase s c fpocket code inst
  generalize freezeCav c fpocket code inst s = t at hbase
  have hcavs : t.cavs = cavs := (congrArg State.cavs hbase :)
  have hpockets : t.pockets = s.pockets := (congrArg State.pockets hbase :)
  have hfabric : t.fabric = s.fabric := (congrArg State.fabric hbase :)
  have hflog : t.flog = s.flog.after code inst s.clocks.stamp := (congrArg State.flog hbase :)
  have hinst : place 0 24 inst < 2 ^ 24 := by
    rw [place, Nat.shiftLeft_zero]
    exact Nat.mod_lt _ (by decide)
  refine ⟨?_, fun h => ?_, ⟨_, hinst, logged_of_after hlen hflog⟩, fun d hd => ?_, ⟨?_, ?_, ?_, ?_, ?_⟩, ?_, ?_, ?_⟩
  · rw [State.cav, hcavs, hfreeze]
  · rw [State.cav, hcavs, hsource h]
  · rw [State.cav, hcavs, hother d hd]
  · exact (congrArg State.cfg hbase :)
  · exact (congrArg (fun u : State => u.conf.store) hbase :)
  · exact (congrArg (fun u : State => u.conf.otp) hbase :)
  · exact (congrArg (fun u : State => u.foreman.ram) hbase :)
  · rw [hpockets]
  · exact (congrArg (fun u : State => besideFlags { u with
      cavs := s.cavs, pins := s.pins, sump := s.sump, flog := s.flog, test := s.test, fabric := s.fabric, pockets := s.pockets }) hbase :)
  · rw [hfabric]
  · rw [hfabric]

/-- A freeze from a state whose fault log is past its bound leaves no entry among the 64. -/
theorem not_frozenBy_of_overlong {s t : State} {c fpocket code code' inst : Nat} (hs : s.flog.entries = List.replicate 65 (0, 0))
    (ht : t.flog = s.flog.after code' inst s.clocks.stamp) (hpos : 0 < code) (hcode : code < 2 ^ 8) : ¬ FrozenBy c fpocket code s t := by
  rintro ⟨-, -, ⟨i, hi, hlogged⟩, -⟩
  exact not_logged_of_overlong hs ht (faultWord_ne_zero hpos hcode hi) hlogged

end Sys2Proof.Machine
end

section
/-! SUPPORT. Cells and latches (03_cells): what the evaluation and the return of a cell do in each of their cases, the moves of a latch, and
the activity that a capture reports (16_power R381). -/

namespace Sys2Proof.Machine

variable (s : State)

/-! ### The commands -/

theorem exec_cellEvaluate (id : CellId) : exec (.cellEvaluate id) s = .next (cellEvaluate id s) := rfl

theorem exec_cellReturn (id : CellId) : exec (.cellReturn id) s = .next (cellReturn id s) := rfl

theorem exec_latchCapture (id : CellId) (l : LatchNo) : exec (.latchCapture id l) s = .next (latchCapture id l s) := rfl

theorem exec_latchTokenTransfer (id : CellId) (l : LatchNo) :
    exec (.latchTokenTransfer id l) s = .next (latchTokenTransfer id l s) := rfl

theorem exec_latchRelease (id : CellId) (l : LatchNo) : exec (.latchRelease id l) s = .next (latchRelease id l s) := rfl

theorem exec_latchInputReopen (id : CellId) (l : LatchNo) : exec (.latchInputReopen id l) s = .next (latchInputReopen id l s) := rfl

theorem exec_dualRailFault (site : FaultSite) : exec (.dualRailFault site) s = .next (dualRailFault site s) := rfl

/-! ### Cells -/

/-- A cell reads what was written to it. -/
@[simp] theorem State.setCell_cell (cav x y k : Nat) (v : Cell) : (s.setCell cav x y k v).cell cav x y k = v := by
  simp [State.cell]

/-- The settings of a cell. -/
def State.cfgOf (id : CellId) : CellCfg := cellCfg s.cfg id.cav.val id.x.val id.y.val id.k.val

/-- What a cell stores. -/
def State.cellOf (id : CellId) : Cell := s.cell id.cav.val id.x.val id.y.val id.k.val

/-- The codes on the used inputs of a cell and on its carry in, where that is awaited (03_cells R57, R61). -/
def State.awaited (id : CellId) : List Rail :=
  (s.usedIn id.cav.val id.x.val id.y.val id.k.val (s.cfgOf id)).map (·.2) ++
    (s.carryIn id.cav.val id.x.val id.y.val id.k.val (s.cfgOf id)).toList

/-- Every input of a cell's carry chain is EMPTY (03_cells R63). -/
def State.chainEmpty (id : CellId) : Prop :=
  s.chainEmptyDown id.cav.val id.x.val 800 id.y.val id.k.val = true ∧ s.chainEmptyUp id.cav.val id.x.val 800 id.y.val id.k.val = true

variable {s} {id : CellId}

/-- A cell that is held, or that has no table, does not evaluate. -/
theorem cellEvaluate_of_idle (h : s.interiorLive id.cav.val = false ∨ (s.cfgOf id).mode = 0 ∨ 3 < (s.cfgOf id).mode) :
    cellEvaluate id s = s := by
  refine if_neg fun hon => ?_
  simp only [Bool.and_eq_true, decide_eq_true_eq] at hon
  obtain ⟨hlive, h1, h3⟩ := hon
  rcases h with h | h | h
  · simp [hlive] at h
  · exact absurd h1 (by simpa [State.cfgOf] using h)
  · exact absurd h3 (by simpa [State.cfgOf] using h)

theorem cellValues_table {cc : CellCfg} (h : cc.mode = 1) (ins : List (Nat × Rail)) (cin : Option Rail) :
    cellValues cc ins cin = (Rail.ofBool (bitAt (tableIndex ins) cc.table), .empty, .empty) := by
  simp only [cellValues, h]

theorem cellValues_split {cc : CellCfg} (h : cc.mode = 2) (ins : List (Nat × Rail)) (cin : Option Rail) :
    cellValues cc ins cin =
      (Rail.ofBool (bitAt (tableIndex ins) cc.table), Rail.ofBool (bitAt (32 + tableIndex ins) cc.table), .empty) := by
  simp only [cellValues, h]

/-- In CARRY mode the sum and the carry: C where the first table bit P is 1, the second one G where it is 0 (03_cells R61). -/
theorem cellValues_carry {cc : CellCfg} (h : cc.mode = 3) (ins : List (Nat × Rail)) (cin : Option Rail) :
    cellValues cc ins cin =
      let p := bitAt (tableIndex ins) cc.table
      let co := if p then carryBit cc cin else bitAt (32 + tableIndex ins) cc.table
      (Rail.ofBool (p != carryBit cc cin), Rail.ofBool co, Rail.ofBool co) := by
  simp only [cellValues, h]

section
variable (hlive : s.interiorLive id.cav.val = true) (h1 : 1 ≤ (s.cfgOf id).mode) (h3 : (s.cfgOf id).mode ≤ 3)
include hlive h1 h3

/-- A live cell with a table does what its awaited inputs and its outputs say. -/
theorem cellEvaluate_of_live : cellEvaluate id s =
    if (s.awaited id).any (· = .illegal) then freezeCav id.cav.val 0xFF 0x03 id.cav.val s
    else if (s.awaited id).all Rail.valid && !(s.awaited id).isEmpty && (s.cellOf id).quiet then
      let v := cellValues (s.cfgOf id) (s.usedIn id.cav.val id.x.val id.y.val id.k.val (s.cfgOf id))
        (s.carryIn id.cav.val id.x.val id.y.val id.k.val (s.cfgOf id))
      s.setCell id.cav.val id.x.val id.y.val id.k.val { s.cellOf id with src0 := v.1, src1 := v.2.1, carry := v.2.2 }
    else s := by
  have hmode : (decide (1 ≤ (s.cfgOf id).mode) && decide ((s.cfgOf id).mode ≤ 3)) = true := by simp [h1, h3]
  exact if_pos (by rw [hlive]; exact hmode)

theorem cellEvaluate_of_illegal (h : Rail.illegal ∈ s.awaited id) :
    cellEvaluate id s = freezeCav id.cav.val 0xFF 0x03 id.cav.val s := by
  rw [cellEvaluate_of_live hlive h1 h3, if_pos (by simpa using h)]

theorem cellEvaluate_of_waiting (h : Rail.illegal ∉ s.awaited id)
    (hwait : ((s.awaited id).any fun r => !r.valid) = true ∨ s.awaited id = [] ∨ (s.cellOf id).quiet = false) :
    cellEvaluate id s = s := by
  rw [cellEvaluate_of_live hlive h1 h3, if_neg (by simpa using h), if_neg]
  simp only [Bool.and_eq_true, List.all_eq_true, Bool.not_eq_true', List.isEmpty_eq_false_iff]
  rintro ⟨⟨hvalid, hsome⟩, hquiet⟩
  rcases hwait with hw | hw | hw
  · obtain ⟨r, hr, hnot⟩ := List.any_eq_true.1 hw
    simp [hvalid r hr] at hnot
  · exact hsome hw
  · simp [hquiet] at hw

theorem cellEvaluate_of_complete (hvalid : (s.awaited id).all Rail.valid = true) (hsome : s.awaited id ≠ [])
    (hquiet : (s.cellOf id).quiet = true) {f g c : Rail}
    (hv : cellValues (s.cfgOf id) (s.usedIn id.cav.val id.x.val id.y.val id.k.val (s.cfgOf id))
      (s.carryIn id.cav.val id.x.val id.y.val id.k.val (s.cfgOf id)) = (f, g, c)) :
    cellEvaluate id s =
      s.setCell id.cav.val id.x.val id.y.val id.k.val { s.cellOf id with src0 := f, src1 := g, carry := c } := by
  have hlegal : Rail.illegal ∉ s.awaited id := fun h => by simpa [Rail.valid] using List.all_eq_true.1 hvalid _ h
  rw [cellEvaluate_of_live hlive h1 h3, if_neg (by simpa using hlegal), if_pos (by simp [hvalid, hsome, hquiet]), hv]

end

/-- A cell that is held, or in no mode, returns nothing. -/
theorem cellReturn_of_idle (h : s.interiorLive id.cav.val = false ∨ (s.cfgOf id).mode = 0 ∨ 4 < (s.cfgOf id).mode) :
    cellReturn id s = s := by
  rcases h with hlive | hmode
  · exact if_neg (by simp [hlive])
  · have hlogic : ¬ (1 ≤ (s.cfgOf id).mode ∧ (s.cfgOf id).mode ≤ 3) := by omega
    have hchoice : (s.cfgOf id).mode ≠ 4 := by omega
    exact ite_eq_right_iff.2 fun _ => (if_neg hlogic).trans (if_neg hchoice)

/-- A live cell with a table returns its outputs where every awaited input, and of a carry cell every input of its chain, is EMPTY. -/
theorem cellReturn_of_live (hlive : s.interiorLive id.cav.val = true) (h1 : 1 ≤ (s.cfgOf id).mode) (h3 : (s.cfgOf id).mode ≤ 3) :
    cellReturn id s =
      if (s.awaited id).all (· = .empty) && ((s.cfgOf id).mode ≠ 3 || (s.chainEmptyDown id.cav.val id.x.val 800 id.y.val id.k.val &&
          s.chainEmptyUp id.cav.val id.x.val 800 id.y.val id.k.val)) then
        s.setCell id.cav.val id.x.val id.y.val id.k.val { s.cellOf id with src0 := .empty, src1 := .empty, carry := .empty }
      else s :=
  have hlogic : 1 ≤ (s.cfgOf id).mode ∧ (s.cfgOf id).mode ≤ 3 := ⟨h1, h3⟩
  (if_pos hlive).trans (if_pos hlogic)

theorem cellReturn_of_waiting (hlive : s.interiorLive id.cav.val = true) (h1 : 1 ≤ (s.cfgOf id).mode) (h3 : (s.cfgOf id).mode ≤ 3)
    (h : (∃ r ∈ s.awaited id, r ≠ .empty) ∨ ((s.cfgOf id).mode = 3 ∧ ¬ s.chainEmpty id)) : cellReturn id s = s := by
  rw [cellReturn_of_live hlive h1 h3, if_neg]
  simp only [Bool.and_eq_true, Bool.or_eq_true, List.all_eq_true, decide_eq_true_eq]
  rintro ⟨hall, hchain⟩
  rcases h with ⟨r, hr, hne⟩ | ⟨hm, hnot⟩
  · exact hne (hall r hr)
  · exact hchain.elim (· hm) hnot

theorem cellReturn_of_empty (hlive : s.interiorLive id.cav.val = true) (h1 : 1 ≤ (s.cfgOf id).mode) (h3 : (s.cfgOf id).mode ≤ 3)
    (hall : ∀ r ∈ s.awaited id, r = .empty) (hchain : (s.cfgOf id).mode = 3 → s.chainEmpty id) : cellReturn id s =
      s.setCell id.cav.val id.x.val id.y.val id.k.val { s.cellOf id with src0 := .empty, src1 := .empty, carry := .empty } := by
  rw [cellReturn_of_live hlive h1 h3, if_pos]
  simp only [Bool.and_eq_true, Bool.or_eq_true, List.all_eq_true, decide_eq_true_eq]
  exact ⟨hall, (ne_or_eq _ _).imp_right hchain⟩

/-- A choice element with its grant: the forwarded token returns where the granted input is EMPTY (03_cells R77, R78). -/
def State.choiceReturn (s : State) (id : CellId) : Option ChoiceSide → State
  | none => s
  | some .a => if s.cellIn id.cav.val id.x.val id.y.val id.k.val 0 = .empty then
      s.setCell id.cav.val id.x.val id.y.val id.k.val { s.cellOf id with src0 := .empty } else s
  | some .b => if s.cellIn id.cav.val id.x.val id.y.val id.k.val 1 = .empty then
      s.setCell id.cav.val id.x.val id.y.val id.k.val { s.cellOf id with src1 := .empty } else s

theorem cellReturn_of_choice (hlive : s.interiorLive id.cav.val = true) (h4 : (s.cfgOf id).mode = 4) {grant : Option ChoiceSide}
    (hg : (tabGet {} s.fabric.choices (chamberKey id.cav.val id.x.val id.y.val)).grant = grant) :
    cellReturn id s = s.choiceReturn id grant := by
  have hlogic : ¬ (1 ≤ (s.cfgOf id).mode ∧ (s.cfgOf id).mode ≤ 3) := by omega
  refine (if_pos hlive).trans ((if_neg hlogic).trans ((if_pos h4).trans ?_))
  rcases grant with _ | _ | _ <;> rw [hg] <;> rfl

/-! ### Latches -/

@[simp] theorem Cell.latch_putLatch (c : Cell) (l : LatchNo) (o : LatchOut) (i : LatchIn) : (c.putLatch l o i).latch l = (o, i) := by
  cases l <;> rfl

/-- A latch in use of a cavern whose interior moves (03_cells R72). -/
def State.latchLive (s : State) (id : CellId) (l : LatchNo) : Prop :=
  s.interiorLive id.cav.val = true ∧ (s.cfgOf id).latchOn l = true

/-- The state with the two sides of a latch written. -/
def State.putLatch (s : State) (id : CellId) (l : LatchNo) (o : LatchOut) (i : LatchIn) : State :=
  s.setCell id.cav.val id.x.val id.y.val id.k.val ((s.cellOf id).putLatch l o i)

@[simp] theorem State.putLatch_flog (id : CellId) (l : LatchNo) (o : LatchOut) (i : LatchIn) :
    (s.putLatch id l o i).flog = s.flog := rfl

@[simp] theorem State.putLatch_clocks (id : CellId) (l : LatchNo) (o : LatchOut) (i : LatchIn) :
    (s.putLatch id l o i).clocks = s.clocks := rfl

@[simp] theorem State.putLatch_cellOf (id : CellId) (l : LatchNo) (o : LatchOut) (i : LatchIn) :
    (s.putLatch id l o i).cellOf id = (s.cellOf id).putLatch l o i := State.setCell_cell s _ _ _ _ _

variable {l : LatchNo} {rule : LatchOut → LatchIn → Option (LatchOut × LatchIn)}

theorem moveLatch_of_off (h : ¬ s.latchLive id l) : moveLatch id l rule s = s :=
  if_neg fun hon => h (Bool.and_eq_true_iff.1 hon)

/-- A latch in use moves as its rule says, and not where the rule names no move. -/
theorem moveLatch_of_live (h : s.latchLive id l) : moveLatch id l rule s =
    match rule ((s.cellOf id).latch l).1 ((s.cellOf id).latch l).2 with
    | some (o, i) => s.putLatch id l o i
    | none => s :=
  if_pos (Bool.and_eq_true_iff.2 h)

theorem moveLatch_of_some (h : s.latchLive id l) {o : LatchOut} {i : LatchIn}
    (hr : rule ((s.cellOf id).latch l).1 ((s.cellOf id).latch l).2 = some (o, i)) :
    moveLatch id l rule s = s.putLatch id l o i := by
  rw [moveLatch_of_live h, hr]

theorem moveLatch_of_none (h : s.latchLive id l → rule ((s.cellOf id).latch l).1 ((s.cellOf id).latch l).2 = none) :
    moveLatch id l rule s = s := by
  by_cases hon : s.latchLive id l
  · rw [moveLatch_of_live hon, h hon]
  · exact moveLatch_of_off hon

/-! ### Activity (16_power R381) -/

theorem commandVccf_frame (s : State) (mv : Nat) : { commandVccf mv s with power := s.power } = s := by
  unfold commandVccf
  split <;> rfl

theorem commandVccf_mode (s : State) (mv : Nat) : (commandVccf mv s).power.mode = s.power.mode := by
  unfold commandVccf
  split <;> rfl

theorem enterMode_frame (s : State) (m : Mode) : besideFlags { enterMode m s with power := s.power } = besideFlags s := by
  unfold enterMode
  split
  · rfl
  · exact (congrArg (fun u : State => { u with power := s.power }) (setFlags_besideFlags _ _ _ _ _ _) :)

theorem enterMode_mode (s : State) (m : Mode) : (enterMode m s).power.mode = m := by
  unfold enterMode
  split
  · assumption
  · exact (congrArg (fun u : State => u.power.mode) (setFlags_besideFlags _ _ _ _ _ _) :)

/-- A capture reports activity through the power controller and flags alone. -/
theorem capturedIn_frame (s : State) (cav : Nat) : besideFlags { capturedIn cav s with power := s.power } = besideFlags s := by
  unfold capturedIn wakeActivity
  split
  · rfl
  split
  · have henter := enterMode_frame (commandVccf (s.field .pwrVccf 0 0 10) s) .run
    exact (congrArg (fun u : State => { u with power := s.power }) henter :).trans (congrArg besideFlags (commandVccf_frame s _))
  · rfl

theorem capturedIn_fabric (s : State) (cav : Nat) : (capturedIn cav s).fabric = s.fabric :=
  (congrArg State.fabric (capturedIn_frame s cav) :)

/-- Outside QUIET, and behind a closed gate, a capture is no activity. -/
theorem capturedIn_of_calm {cav : Nat} (h : s.power.mode ≠ .quiet ∨ s.isolated cav = true) : capturedIn cav s = s := by
  unfold capturedIn wakeActivity
  rcases h with h | h
  · rw [if_neg h, ite_self]
  · rw [if_pos h]

/-- Activity behind an open gate ends QUIET. -/
theorem capturedIn_mode {cav : Nat} (hq : s.power.mode = .quiet) (hopen : s.isolated cav = false) :
    (capturedIn cav s).power.mode = .run := by
  rw [capturedIn, if_neg (by simp [hopen]), wakeActivity, if_pos hq, enterMode_mode]

/-! ### The four moves of a latch -/

theorem latchCapture_of_illegal (h : s.latchLive id l) (hd : s.latchIn id l = .illegal) :
    latchCapture id l s = freezeCav id.cav.val 0xFF 0x02 id.cav.val s :=
  if_pos ⟨hd, h⟩

/-- With its output side VACANT, its input side OPEN and its input valid, a latch captures (03_cells R70). -/
theorem latchCapture_of_ready (h : s.latchLive id l) (hout : ((s.cellOf id).latch l).1 = .vacant)
    (hin : ((s.cellOf id).latch l).2 = .isOpen) (hd : (s.latchIn id l).valid = true) :
    latchCapture id l s = capturedIn id.cav.val (s.putLatch id l (.hold (decide (s.latchIn id l = .v1))) .closing) := by
  have hlegal : s.latchIn id l ≠ .illegal := by
    intro hi
    simp [hi, Rail.valid] at hd
  unfold latchCapture
  extract_lets d c moved
  have hmoved : moved = s.putLatch id l (.hold (decide (d = .v1))) .closing := moveLatch_of_some h (if_pos ⟨hout, hin, hd⟩)
  have hchanged : moved.cellOf id ≠ c := by
    rw [hmoved, State.putLatch_cellOf]
    intro heq
    have hopen : (c.latch l).2 = .isOpen := hin
    simp [← heq] at hopen
  rw [if_neg fun hi => hlegal hi.1, ← hmoved]
  exact if_neg hchanged

/-- In every other state nothing is captured (03_cells R70). -/
theorem latchCapture_of_blocked (h : s.latchLive id l → s.latchIn id l ≠ .illegal ∧
    (((s.cellOf id).latch l).1 ≠ .vacant ∨ ((s.cellOf id).latch l).2 ≠ .isOpen ∨ (s.latchIn id l).valid = false)) :
    latchCapture id l s = s := by
  unfold latchCapture
  extract_lets d c moved
  have hmoved : moved = s := by
    refine moveLatch_of_none fun hon => if_neg ?_
    rintro ⟨hout, hin, hd⟩
    obtain ⟨-, hout' | hin' | hd'⟩ := h hon
    · exact hout' hout
    · exact hin' hin
    · exact absurd hd (by rw [hd']; decide)
  rw [if_neg fun hi => (h hi.2).1 hi.1, hmoved]
  exact if_pos rfl

/-- A held token leaves when the consumers' acknowledge is high (03_cells R68). -/
theorem latchTokenTransfer_of_acked (h : s.latchLive id l) {v : Bool} (hout : ((s.cellOf id).latch l).1 = .hold v)
    (hack : s.latchAck id l = true) : latchTokenTransfer id l s = s.putLatch id l .returning ((s.cellOf id).latch l).2 :=
  moveLatch_of_some h (by rw [hout]; exact if_pos hack)

theorem latchTokenTransfer_of_blocked (h : s.latchLive id l → (∀ v, ((s.cellOf id).latch l).1 ≠ .hold v) ∨ s.latchAck id l = false) :
    latchTokenTransfer id l s = s := by
  refine moveLatch_of_none fun hon => ?_
  split
  · next v hv =>
    obtain hnot | hack := h hon
    · exact absurd hv (hnot v)
    · exact if_neg (by simp [hack])
  · rfl

/-- RETURN passes to VACANT when the acknowledge is low and no token waits at an open input side (03_cells R68). -/
theorem latchRelease_of_empty (h : s.latchLive id l) (hout : ((s.cellOf id).latch l).1 = .returning) (hack : s.latchAck id l = false)
    (hd : ((s.cellOf id).latch l).2 = .closing ∨ (s.latchIn id l).valid = false) :
    latchRelease id l s = s.putLatch id l .vacant ((s.cellOf id).latch l).2 := by
  have hwaits : ¬ (((s.cellOf id).latch l).2 = .isOpen ∧ (s.latchIn id l).valid = true) := by
    rintro ⟨hin, hvalid⟩
    rcases hd with hd | hd <;> simp_all
  unfold latchRelease
  extract_lets d c moved
  have hmoved : moved = s.putLatch id l .vacant ((s.cellOf id).latch l).2 :=
    moveLatch_of_some h ((if_pos ⟨hout, hack⟩).trans (congrArg some (if_neg hwaits)))
  have hkept : ((moved.cellOf id).latch l).2 = (c.latch l).2 := by
    rw [hmoved, State.putLatch_cellOf, Cell.latch_putLatch]
    rfl
  exact (if_pos hkept).trans hmoved

/-- A valid input that waits at an open input side is captured in the step that releases the latch (03_cells R71). -/
theorem latchRelease_of_waiting (h : s.latchLive id l) (hout : ((s.cellOf id).latch l).1 = .returning) (hack : s.latchAck id l = false)
    (hin : ((s.cellOf id).latch l).2 = .isOpen) (hd : (s.latchIn id l).valid = true) :
    latchRelease id l s = capturedIn id.cav.val (s.putLatch id l (.hold (decide (s.latchIn id l = .v1))) .closing) := by
  unfold latchRelease
  extract_lets d c moved
  have hmoved : moved = s.putLatch id l (.hold (decide (d = .v1))) .closing :=
    moveLatch_of_some h ((if_pos ⟨hout, hack⟩).trans (congrArg some (if_pos ⟨hin, hd⟩)))
  have hchanged : ((moved.cellOf id).latch l).2 ≠ (c.latch l).2 := by
    have hc : (c.latch l).2 = .isOpen := hin
    rw [hmoved, State.putLatch_cellOf, Cell.latch_putLatch, hc]
    simp
  exact (if_neg hchanged).trans (congrArg (capturedIn _) hmoved)

theorem latchRelease_of_blocked (h : s.latchLive id l → ((s.cellOf id).latch l).1 ≠ .returning ∨ s.latchAck id l = true) :
    latchRelease id l s = s := by
  unfold latchRelease
  extract_lets d c moved
  have hmoved : moved = s := by
    refine moveLatch_of_none fun hon => if_neg ?_
    rintro ⟨hout, hack⟩
    obtain hnot | hhigh := h hon
    · exact hnot hout
    · simp [hack] at hhigh
  rw [hmoved]
  exact if_pos rfl

/-- CLOSING passes to OPEN when the latch's input is EMPTY (03_cells R69). -/
theorem latchInputReopen_of_empty (h : s.latchLive id l) (hin : ((s.cellOf id).latch l).2 = .closing) (hd : s.latchIn id l = .empty) :
    latchInputReopen id l s = s.putLatch id l ((s.cellOf id).latch l).1 .isOpen :=
  moveLatch_of_some h (if_pos ⟨hin, hd⟩)

theorem latchInputReopen_of_blocked (h : s.latchLive id l → ((s.cellOf id).latch l).2 ≠ .closing ∨ s.latchIn id l ≠ .empty) :
    latchInputReopen id l s = s :=
  moveLatch_of_none fun hon => if_neg fun ⟨hin, hd⟩ => (h hon).elim (· hin) (· hd)

/-- A latch that is not both VACANT and OPEN keeps what it stores, whatever its input carries (03_cells R71). -/
theorem latchCapture_keeps_cell (h : ((s.cellOf id).latch l).1 ≠ .vacant ∨ ((s.cellOf id).latch l).2 ≠ .isOpen) :
    (latchCapture id l s).cellOf id = s.cellOf id := by
  by_cases hill : s.latchLive id l ∧ s.latchIn id l = .illegal
  · rw [latchCapture_of_illegal hill.1 hill.2]
    exact freezeCav_cell s _ _ _ _ _ _ _ _
  · rw [latchCapture_of_blocked fun hon => ⟨fun hd => hill ⟨hon, hd⟩, h.imp_right Or.inl⟩]

/-! ### Dual-rail faults (02_token_contract R54) -/

/-- A latch raises a dual-rail fault: it is in use in a live cavern that no self-test holds, and its cell is not in OFF mode
(03_cells R59, 18_self_test_faults R441). -/
def State.latchRaises (s : State) (id : CellId) (l : LatchNo) : Prop :=
  s.interiorLive id.cav.val = true ∧ (s.cav id.cav.val).bist = false ∧ (s.cfgOf id).mode ≠ 0 ∧ (s.cfgOf id).latchOn l = true

/-- A boundary gate raises a dual-rail fault: the bit passes it into a live cavern that no self-test holds. -/
def State.gateRaises (s : State) (into : Fin 40) (bit : GateBit) : Prop :=
  (s.cav into.val).bist = false ∧ s.interiorLive into.val = true ∧ gateBitOf s.cfg into.val bit = true

theorem dualRailFault_latch (h : s.latchRaises id l) : dualRailFault (.latch id l) s =
    freezeCav id.cav.val 0xFF 0x02 id.cav.val (s.putLatch id l .withheld ((s.cellOf id).latch l).2) := by
  obtain ⟨hlive, hbist, hmode, hon⟩ := h
  refine if_pos ?_
  simp only [Bool.and_eq_true, decide_eq_true_eq]
  exact ⟨⟨⟨hlive, hbist⟩, hmode⟩, hon⟩

theorem dualRailFault_latch_of_not (h : ¬ s.latchRaises id l) : dualRailFault (.latch id l) s = s := by
  refine if_neg fun hon => h ?_
  simp only [Bool.and_eq_true, decide_eq_true_eq] at hon
  obtain ⟨⟨⟨hlive, hbist⟩, hmode⟩, hused⟩ := hon
  exact ⟨hlive, hbist, hmode, hused⟩

theorem dualRailFault_gate {into : Fin 40} {bit : GateBit} (h : s.gateRaises into bit) :
    dualRailFault (.gate into bit) s = withholdBit into.val bit (freezeCav into.val 0xFF 0x02 into.val s) := by
  obtain ⟨hbist, hlive, hbit⟩ := h
  exact if_neg (by simp [hbist, hlive, hbit])

theorem dualRailFault_gate_of_not {into : Fin 40} {bit : GateBit} (h : ¬ s.gateRaises into bit) :
    dualRailFault (.gate into bit) s = s := by
  refine if_pos ?_
  by_contra hoff
  refine h ?_
  simpa [State.gateRaises, and_assoc] using hoff

/-! ### A frozen cavern, seen from beside -/

/-- A cell written before the freeze is beside what the freeze is said of. -/
theorem frozenBy_of_putLatch {s t : State} {c fpocket code : Nat} {o : LatchOut} {i : LatchIn}
    (h : FrozenBy c fpocket code (s.putLatch id l o i) t) : FrozenBy c fpocket code s t := by
  obtain ⟨hfreeze, hsource, hlogged, hother, hstored, hframe, hnodes, hchoices⟩ := h
  exact ⟨hfreeze, hsource, hlogged, hother, hstored,
    (congrArg (fun u : State => besideFlags { u with fabric := s.fabric }) hframe :), hnodes, hchoices⟩

/-- A bit withheld at the gate of the frozen cavern leaves it frozen. -/
theorem frozenBy_withholdBit {s t : State} {c fpocket code : Nat} (h : FrozenBy c fpocket code s t) (bit : GateBit) :
    FrozenBy c fpocket code s (withholdBit c bit t) := by
  obtain ⟨hfreeze, hsource, hlogged, hother, hstored, hframe, hnodes, hchoices⟩ := h
  unfold withholdBit
  split
  · refine ⟨?_, fun h => ?_, hlogged, fun d hd => ?_, hstored, hframe, hnodes, hchoices⟩
    · rw [State.cav, State.modCav_cavs, tabGet_tabMod, if_pos rfl]
      exact hfreeze
    · rw [State.cav, State.modCav_cavs, tabGet_tabMod, if_pos rfl]
      exact hsource h
    · rw [State.cav, State.modCav_cavs, tabGet_tabMod, if_neg hd.symm]
      exact hother d hd
  · split
    · split
      · exact ⟨hfreeze, hsource, hlogged, hother, hstored, hframe, hnodes, hchoices⟩
      · exact ⟨hfreeze, hsource, hlogged, hother, hstored, hframe, hnodes, hchoices⟩
    · exact ⟨hfreeze, hsource, hlogged, hother, hstored, hframe, hnodes, hchoices⟩

theorem withholdBit_out_fabric (s : State) (into : Nat) (c : CellId) (y1 : Bool) :
    (withholdBit into (.out c y1) s).fabric = s.fabric := rfl

/-- A channel of which a bit is withheld passes the gate no more. -/
theorem withholdBit_out_pass (s : State) (into : Nat) (c : CellId) (y1 : Bool) :
    ∀ e ∈ ((withholdBit into (.out c y1) s).cav into).pass,
      sameChannel s.cfg (outKey c.cav.val c.x.val c.y.val (16 * bitNat y1 + c.k.val)) e.1 = false := by
  intro e he
  rw [withholdBit, State.cav, State.modCav_cavs, tabGet_tabMod, if_pos rfl] at he
  simpa using (List.mem_filter.1 he).2

/-- The token of an attachment that offers a withheld bit stays offered; every other attachment is as it was. -/
theorem withholdBit_edge_attIn (s : State) (into : Nat) (c : ChamberId) (j : Fin 64) {a m : Nat}
    (h : edgeIn s.cfg c.cav.val c.x.val c.y.val j.val = some (a, m)) :
    (withholdBit into (.edge c j) s).attIn a = (if (s.attIn a).ph = .offering then { s.attIn a with withheld := true } else s.attIn a) ∧
      ∀ b, b ≠ a → (withholdBit into (.edge c j) s).attIn b = s.attIn b := by
  have hkeeps : withholdBit into (.edge c j) s =
      if (s.attIn a).ph = .offering then s.setAttIn a { s.attIn a with withheld := true } else s := by
    simp only [withholdBit, h]
  rw [hkeeps]
  split
  · refine ⟨?_, fun b hb => ?_⟩
    · simp [State.attIn, State.setAttIn]
    · simp [State.attIn, State.setAttIn, hb.symm]
  · exact ⟨rfl, fun _ _ => rfl⟩

/-! ### A fault log past its bound -/

/-- A fault log of 65 entries, and cell 0 of cavern 0, which is live: in TABLE mode it reads its own output Y0, which carries both rails
high, and its latch 1, which takes the second output of the table, finds both rails high too. -/
def overlongState : State :=
  { State.reset with
    cavs := [(0, { load := false, powered := true })]
    cfg := [(cfgKey 0 0 0 2, word (1 + 2 ^ 6 + 2 ^ 14 + 2 ^ 19))]
    fabric := { State.reset.fabric with cells := [(0, { src0 := .illegal, src1 := .illegal })] }
    flog := { entries := List.replicate 65 (0, 0), next := 65 } }

/-- Cell 0 of chamber (0, 0) of cavern 0. -/
def firstCell : CellId := { cav := 0, x := 0, y := 0, k := 0 }

theorem overlongState_evaluates :
    overlongState.interiorLive 0 = true ∧ (overlongState.cfgOf firstCell).mode = 1 ∧ Rail.illegal ∈ overlongState.awaited firstCell := by
  decide +kernel

theorem overlongState_latches : overlongState.latchLive firstCell .l1 ∧ overlongState.latchIn firstCell .l1 = .illegal := by
  unfold State.latchLive
  decide +kernel

theorem overlongState_raises : overlongState.latchRaises firstCell .l1 := by
  unfold State.latchRaises
  decide +kernel

end Sys2Proof.Machine
end

section
/-! The statements about cells and latches. Where a fault freezes a cavern, `FrozenBy` places its entry among the 64 of the fault log
(18_self_test_faults R454). The reset state meets that bound (O9), and O7 says that every step keeps it; a statement made of every state is
made of longer logs too, and fails there. Before each refutation stands what is true: the same statement of every state whose logs are
within their bounds. -/

open Sys2Proof Sys2Proof.Machine

/-- Settles O21: the branches of the four moves; a capture that is not ready either does nothing or freezes the cavern, and a freeze stores
nothing in a cell. -/
theorem latchMoves : Obligations.LatchMoves := by
  unfold Obligations.LatchMoves
  intro id l s cav c on put
  simp only [exec_latchTokenTransfer, exec_latchRelease, exec_latchInputReopen, exec_latchCapture]
  refine ⟨fun v hon hout hack => ?_, fun h => ?_, fun hon hout hack hd => ?_, fun hon hout hack hin hd => ?_, fun h => ?_,
    fun hon hin hd => ?_, fun h => ?_, fun h => ⟨_, rfl, latchCapture_keeps_cell h⟩⟩
  · exact congrArg _ (latchTokenTransfer_of_acked hon hout hack)
  · exact congrArg _ (latchTokenTransfer_of_blocked fun hon => h.resolve_left (not_not_intro hon))
  · exact congrArg _ (latchRelease_of_empty hon hout hack hd)
  · refine ⟨_, congrArg _ (latchRelease_of_waiting hon hout hack hin hd), capturedIn_fabric _ _, fun hcalm => ?_, fun hq hopen => ?_⟩
    · have hmoved := capturedIn_of_calm (s := s.putLatch id l (.hold (decide (s.latchIn id l = .v1))) .closing) hcalm
      exact (congrArg (fun t : State => { t with fabric := s.fabric }) hmoved :)
    · exact capturedIn_mode hq hopen
  · exact congrArg _ (latchRelease_of_blocked fun hon => h.resolve_left (not_not_intro hon))
  · exact congrArg _ (latchInputReopen_of_empty hon hin hd)
  · exact congrArg _ (latchInputReopen_of_blocked fun hon => h.resolve_left (not_not_intro hon))

/-- O19 where the logs are within their bounds: the cases of `cellEvaluate` and `cellReturn`. -/
theorem cellHalfCycles_of_logsBounded :
    (∀ (id : CellId) (s : State), LogsBounded s →
      let cav := id.cav.val
      let x := id.x.val
      let y := id.y.val
      let k := id.k.val
      let cc := cellCfg s.cfg cav x y k
      let ins := s.usedIn cav x y k cc
      let cin := s.carryIn cav x y k cc
      let rails := ins.map (·.2) ++ cin.toList
      let c := s.cell cav x y k
      let i := tableIndex ins
      let f := bitAt i cc.table
      let g := bitAt (32 + i) cc.table
      let ci := carryBit cc cin
      (s.interiorLive cav = false ∨ cc.mode = 0 ∨ 3 < cc.mode → exec (.cellEvaluate id) s = .next s) ∧
      (s.interiorLive cav = true → 1 ≤ cc.mode → cc.mode ≤ 3 →
        (Rail.illegal ∈ rails → ∃ t, exec (.cellEvaluate id) s = .next t ∧ FrozenBy cav 0xFF 0x03 s t ∧ t.cell cav x y k = c) ∧
        (Rail.illegal ∉ rails → (rails.any fun r => !r.valid) = true ∨ rails = [] ∨ c.quiet = false →
          exec (.cellEvaluate id) s = .next s) ∧
        (rails.all Rail.valid = true → rails ≠ [] → c.quiet = true →
          (cc.mode = 1 → exec (.cellEvaluate id) s =
            .next (s.setCell cav x y k { c with src0 := Rail.ofBool f, src1 := .empty, carry := .empty })) ∧
          (cc.mode = 2 → exec (.cellEvaluate id) s =
            .next (s.setCell cav x y k { c with src0 := Rail.ofBool f, src1 := Rail.ofBool g, carry := .empty })) ∧
          (cc.mode = 3 → exec (.cellEvaluate id) s =
            .next (s.setCell cav x y k { c with src0 := Rail.ofBool (f != ci), src1 := Rail.ofBool (if f then ci else g),
                                                carry := Rail.ofBool (if f then ci else g) }))))) ∧
  (∀ (id : CellId) (s : State),
      let cav := id.cav.val
      let x := id.x.val
      let y := id.y.val
      let k := id.k.val
      let cc := cellCfg s.cfg cav x y k
      let rails := (s.usedIn cav x y k cc).map (·.2) ++ (s.carryIn cav x y k cc).toList
      let c := s.cell cav x y k
      let chain := s.chainEmptyDown cav x 800 y k = true ∧ s.chainEmptyUp cav x 800 y k = true
      let grant := (tabGet {} s.fabric.choices (chamberKey cav x y)).grant
      (s.interiorLive cav = false ∨ cc.mode = 0 ∨ 4 < cc.mode → exec (.cellReturn id) s = .next s) ∧
      (s.interiorLive cav = true → 1 ≤ cc.mode → cc.mode ≤ 3 →
        ((∃ r ∈ rails, r ≠ .empty) ∨ (cc.mode = 3 ∧ ¬ chain) → exec (.cellReturn id) s = .next s) ∧
        ((∀ r ∈ rails, r = .empty) → (cc.mode = 3 → chain) →
          exec (.cellReturn id) s = .next (s.setCell cav x y k { c with src0 := .empty, src1 := .empty, carry := .empty }))) ∧
      (s.interiorLive cav = true → cc.mode = 4 →
        (grant = none → exec (.cellReturn id) s = .next s) ∧
        (grant = some .a → exec (.cellReturn id) s =
          .next (if s.cellIn cav x y k 0 = .empty then s.setCell cav x y k { c with src0 := .empty } else s)) ∧
        (grant = some .b → exec (.cellReturn id) s =
          .next (if s.cellIn cav x y k 1 = .empty then s.setCell cav x y k { c with src1 := .empty } else s)))) := by
  refine ⟨?_, ?_⟩
  · intro id s hlogs cav x y k cc ins cin rails c i f g ci
    simp only [exec_cellEvaluate]
    refine ⟨fun h => ?_, fun hlive h1 h3 => ⟨fun h => ?_, fun h hwait => ?_, fun hvalid hsome hquiet => ?_⟩⟩
    · exact congrArg _ (cellEvaluate_of_idle h)
    · exact ⟨_, congrArg _ (cellEvaluate_of_illegal hlive h1 h3 h), frozenBy_freezeCav hlogs.1 _ _ _ _, freezeCav_cell s _ _ _ _ _ _ _ _⟩
    · exact congrArg _ (cellEvaluate_of_waiting hlive h1 h3 h hwait)
    · have hdrives {a b d : Rail} := cellEvaluate_of_complete (f := a) (g := b) (c := d) hlive h1 h3 hvalid hsome hquiet
      exact ⟨fun hm => congrArg _ (hdrives (cellValues_table hm ins cin)), fun hm => congrArg _ (hdrives (cellValues_split hm ins cin)),
        fun hm => congrArg _ (hdrives (cellValues_carry hm ins cin))⟩
  · intro id s cav x y k cc rails c chain grant
    simp only [exec_cellReturn]
    refine ⟨fun h => ?_, fun hlive h1 h3 => ⟨fun h => ?_, fun hrails hchain => ?_⟩, fun hlive h4 => ?_⟩
    · exact congrArg _ (cellReturn_of_idle h)
    · exact congrArg _ (cellReturn_of_waiting hlive h1 h3 h)
    · exact congrArg _ (cellReturn_of_empty hlive h1 h3 hrails hchain)
    · exact ⟨fun hg => congrArg _ (cellReturn_of_choice hlive h4 hg), fun hg => congrArg _ (cellReturn_of_choice hlive h4 hg),
        fun hg => congrArg _ (cellReturn_of_choice hlive h4 hg)⟩

/-- Refutes O19: with a fault log of 65 entries, the entry of the illegal code that a cell finds on its input stands past the 64. -/
theorem not_cellHalfCycles : ¬ Obligations.CellHalfCycles := by
  unfold Obligations.CellHalfCycles
  rintro ⟨hevaluate, -⟩
  obtain ⟨hlive, hmode, hillegal⟩ := overlongState_evaluates
  obtain ⟨-, hcases⟩ := hevaluate firstCell overlongState
  obtain ⟨hfreezes, -⟩ := hcases hlive hmode.ge (hmode.trans_le (by decide))
  obtain ⟨t, ht, hfrozen, -⟩ := hfreezes hillegal
  rw [exec_cellEvaluate, cellEvaluate_of_illegal hlive hmode.ge (hmode.trans_le (by decide)) hillegal, Host.Outcome.next.injEq] at ht
  subst ht
  exact not_frozenBy_of_overlong rfl (freezeCav_flog ..) (by decide) (by decide) hfrozen

/-- O20 where the logs are within their bounds: the cases of `latchCapture`, and the activity that a capture reports. -/
theorem latchCapture_of_logsBounded :
    ∀ (id : CellId) (l : LatchNo) (s : State), LogsBounded s →
      let cav := id.cav.val
      let c := s.cell cav id.x.val id.y.val id.k.val
      let d := s.latchIn id l
      let on := s.interiorLive cav = true ∧ (cellCfg s.cfg cav id.x.val id.y.val id.k.val).latchOn l = true
      let moved := s.setCell cav id.x.val id.y.val id.k.val (c.putLatch l (.hold (decide (d = .v1))) .closing)
      (on → d = .illegal → ∃ t, exec (.latchCapture id l) s = .next t ∧ FrozenBy cav 0xFF 0x02 s t ∧
        t.cell cav id.x.val id.y.val id.k.val = c) ∧
      (on → (c.latch l).1 = .vacant → (c.latch l).2 = .isOpen → d.valid = true →
        ∃ t, exec (.latchCapture id l) s = .next t ∧ t.fabric = moved.fabric ∧
          (s.power.mode ≠ .quiet ∨ s.isolated cav = true → t = moved) ∧
          (s.power.mode = .quiet → s.isolated cav = false → t.power.mode = .run) ∧
          besideFlags { t with fabric := s.fabric, power := s.power } = besideFlags s) ∧
      (¬ on ∨ (d ≠ .illegal ∧ ((c.latch l).1 ≠ .vacant ∨ (c.latch l).2 ≠ .isOpen ∨ d.valid = false)) →
        exec (.latchCapture id l) s = .next s) := by
  intro id l s hlogs cav c d on moved
  simp only [exec_latchCapture]
  refine ⟨fun hon hd => ?_, fun hon hout hin hd => ?_, fun h => ?_⟩
  · exact ⟨_, congrArg _ (latchCapture_of_illegal hon hd), frozenBy_freezeCav hlogs.1 _ _ _ _, freezeCav_cell s _ _ _ _ _ _ _ _⟩
  · refine ⟨_, congrArg _ (latchCapture_of_ready hon hout hin hd), capturedIn_fabric moved cav, fun hcalm => ?_, fun hq hopen => ?_, ?_⟩
    · exact capturedIn_of_calm (s := moved) hcalm
    · exact capturedIn_mode (s := moved) hq hopen
    · exact (congrArg (fun t : State => { t with fabric := s.fabric }) (capturedIn_frame moved cav) :)
  · exact congrArg _ (latchCapture_of_blocked fun hon => h.resolve_left (not_not_intro hon))

/-- Refutes O20: with a fault log of 65 entries, the entry of the illegal code that a latch finds on its input stands past the 64. -/
theorem not_latchCapture : ¬ Obligations.LatchCapture := by
  unfold Obligations.LatchCapture
  intro h
  obtain ⟨hon, hillegal⟩ := overlongState_latches
  obtain ⟨hfreezes, -⟩ := h firstCell .l1 overlongState
  obtain ⟨t, ht, hfrozen, -⟩ := hfreezes hon hillegal
  rw [exec_latchCapture, latchCapture_of_illegal hon hillegal, Host.Outcome.next.injEq] at ht
  subst ht
  exact not_frozenBy_of_overlong rfl (freezeCav_flog ..) (by decide) (by decide) hfrozen

/-- O23 where the logs are within their bounds: the token is withheld in the cell or at the gate, and the freeze touches neither. -/
theorem dualRailFault_of_logsBounded :
    ∀ s : State, LogsBounded s →
      (∀ (id : CellId) (l : LatchNo),
        let cav := id.cav.val
        let cc := cellCfg s.cfg cav id.x.val id.y.val id.k.val
        let c := s.cell cav id.x.val id.y.val id.k.val
        let raises := s.interiorLive cav = true ∧ (s.cav cav).bist = false ∧ cc.mode ≠ 0 ∧ cc.latchOn l = true
        (raises → ∃ t, exec (.dualRailFault (.latch id l)) s = .next t ∧ FrozenBy cav 0xFF 0x02 s t ∧
          t.cell cav id.x.val id.y.val id.k.val = c.putLatch l .withheld (c.latch l).2) ∧
        (¬ raises → exec (.dualRailFault (.latch id l)) s = .next s)) ∧
      (∀ (into : Fin 40) (bit : GateBit),
        let raises := (s.cav into.val).bist = false ∧ s.interiorLive into.val = true ∧ gateBitOf s.cfg into.val bit = true
        (raises → ∃ t, exec (.dualRailFault (.gate into bit)) s = .next t ∧ FrozenBy into.val 0xFF 0x02 s t ∧
          (∀ c y1, bit = .out c y1 → t.fabric = s.fabric ∧
            ∀ e ∈ (t.cav into.val).pass, sameChannel s.cfg (outKey c.cav.val c.x.val c.y.val (16 * bitNat y1 + c.k.val)) e.1 = false) ∧
          (∀ c j a m, bit = .edge c j → edgeIn s.cfg c.cav.val c.x.val c.y.val j.val = some (a, m) →
            t.attIn a = (if (s.attIn a).ph = .offering then { s.attIn a with withheld := true } else s.attIn a) ∧
            ∀ b, b ≠ a → t.attIn b = s.attIn b)) ∧
        (¬ raises → exec (.dualRailFault (.gate into bit)) s = .next s)) := by
  intro s hlogs
  refine ⟨?_, ?_⟩
  · intro id l cav cc c raises
    simp only [exec_dualRailFault]
    refine ⟨fun h => ?_, fun h => congrArg _ (dualRailFault_latch_of_not h)⟩
    have hlen : (s.putLatch id l .withheld (c.latch l).2).flog.entries.length ≤ 64 := by
      rw [State.putLatch_flog]
      exact hlogs.1
    refine ⟨_, congrArg _ (dualRailFault_latch h), frozenBy_of_putLatch (frozenBy_freezeCav hlen _ _ _ _), ?_⟩
    exact (freezeCav_cell _ _ _ _ _ _ _ _ _).trans (State.putLatch_cellOf id l _ _)
  · intro into bit raises
    simp only [exec_dualRailFault]
    refine ⟨fun h => ?_, fun h => congrArg _ (dualRailFault_gate_of_not h)⟩
    let frozen := freezeCav into.val 0xFF 0x02 into.val s
    have hcfg : frozen.cfg = s.cfg := freezeCav_cfg s _ _ _ _
    have hatt (a : Nat) : frozen.attIn a = s.attIn a := freezeCav_attIn s _ _ _ _ a
    have hfrozen : FrozenBy into.val 0xFF 0x02 s frozen := frozenBy_freezeCav hlogs.1 _ _ _ _
    refine ⟨_, congrArg _ (dualRailFault_gate h), frozenBy_withholdBit hfrozen bit, ?_, ?_⟩
    · rintro c y1 rfl
      refine ⟨freezeCav_fabric s _ _ _ _, ?_⟩
      rw [← hcfg]
      exact withholdBit_out_pass frozen _ c y1
    · rintro c j a m rfl hedge
      rw [← hcfg] at hedge
      obtain ⟨hself, hother⟩ := withholdBit_edge_attIn frozen into.val c j hedge
      rw [hatt] at hself
      exact ⟨hself, fun b hb => (hother b hb).trans (hatt b)⟩

/-- Refutes O23: with a fault log of 65 entries, the entry of a latch's dual-rail fault stands past the 64. -/
theorem not_dualRailFault : ¬ Obligations.DualRailFault := by
  unfold Obligations.DualRailFault
  intro h
  obtain ⟨hlatches, -⟩ := h overlongState
  obtain ⟨hfreezes, -⟩ := hlatches firstCell .l1
  obtain ⟨t, ht, hfrozen, -⟩ := hfreezes overlongState_raises
  rw [exec_dualRailFault, dualRailFault_latch overlongState_raises, Host.Outcome.next.injEq] at ht
  have hflog := freezeCav_flog (overlongState.putLatch firstCell .l1 .withheld ((overlongState.cellOf firstCell).latch .l1).2) 0 0xFF 2 0
  rw [State.putLatch_flog, State.putLatch_clocks] at hflog
  subst ht
  exact not_frozenBy_of_overlong rfl hflog (by decide) (by decide) hfrozen

end

section
/-! SUPPORT. Acknowledge nodes (04_routing R91 to R97) and choice elements (03_cells R77 to R79): the level that a node takes, the
attachments that move with a global node, what a switch leaves alone, and the cases of a grant and of its end. -/

namespace Sys2Proof.Machine

variable (s : State)

/-! ### The commands -/

theorem exec_ackNodeSwitch (n : NodeId) : exec (.ackNodeSwitch n) s = .next (ackNodeSwitch n s) := rfl

theorem exec_choiceGrant (c : ChamberId) : exec (.choiceGrant c) s = .next (choiceGrant c s) := rfl

theorem exec_choiceGrantEnd (c : ChamberId) : exec (.choiceGrantEnd c) s = .next (choiceGrantEnd c s) := rfl

/-! ### C-elements and the numbers of nodes -/

@[simp] theorem cElement_nil (old : Bool) : cElement old [] = false := rfl

theorem cElement_of_high {ins : List Bool} (hne : ins ≠ []) (h : ∀ b ∈ ins, b = true) (old : Bool) : cElement old ins = true := by
  rw [cElement, if_neg (by simpa using hne), if_pos (by simpa using h)]

theorem cElement_of_low {ins : List Bool} (h : ∀ b ∈ ins, b = false) (old : Bool) : cElement old ins = false := by
  cases ins with
  | nil => rfl
  | cons b ins =>
    obtain ⟨rfl, -⟩ := List.forall_mem_cons.1 h
    exact (if_neg (by simp)).trans ((if_neg (by simp)).trans (if_pos (by simpa using h)))

theorem cElement_of_mixed {ins : List Bool} (ht : true ∈ ins) (hf : false ∈ ins) (old : Bool) : cElement old ins = old := by
  rw [cElement, if_neg (by simpa using List.ne_nil_of_mem ht), if_neg (by simpa using hf), if_neg (by simpa using ht)]

/-- The acknowledge nodes are numbered below the memories of the AKI merges. -/
theorem nodeKey_lt (n : NodeId) : nodeKey n < 5000000 := by
  cases n with
  | ln c n =>
    have := c.cav.isLt; have := c.x.isLt; have := c.y.isLt; have := n.isLt
    simp only [nodeKey, lnKey]
    omega
  | cn cav gx gy n =>
    have := cav.isLt; have := gx.isLt; have := gy.isLt; have := n.isLt
    simp only [nodeKey, cnKey]
    omega
  | gn cav n =>
    have := cav.isLt; have := n.isLt
    simp only [nodeKey, gnKey]
    omega
  | line r k =>
    have := r.isLt; have := k.isLt
    simp only [nodeKey, lineKey]
    omega

/-! ### What the switch of a node may touch -/

/-- A state without the parts that the switch of a node may change: nodes, attachments, the tokens at the gates, and pins. -/
def State.besideNodes : State :=
  { s with cavs := [], pins := State.reset.pins, fabric := { s.fabric with nodes := [], attIn := [], attAck := [] } }

/-- The levels of the acknowledge nodes, and the tokens that attachments hold. -/
def State.nodesAndTokens : Tab Bool × Tab InAtt := (s.fabric.nodes, s.fabric.attIn)

/-- Acknowledges that fall with their channels change no node and no token (02_token_contract R35). -/
theorem lowerAcks_frame : (lowerAcks s).besideNodes = s.besideNodes ∧ (lowerAcks s).nodesAndTokens = s.nodesAndTokens := by
  unfold lowerAcks
  suffices h : ∀ (l : Tab Bool) (u : State), u.besideNodes = s.besideNodes ∧ u.nodesAndTokens = s.nodesAndTokens →
      let t := l.foldl (fun s e => if (s.outRails e.1).all (· = .empty) then s.setAttAck e.1 false else s) u
      t.besideNodes = s.besideNodes ∧ t.nodesAndTokens = s.nodesAndTokens from h _ s ⟨rfl, rfl⟩
  intro l
  induction l with
  | nil => exact fun _ hu => hu
  | cons e l ih =>
    refine fun u hu => ih _ ?_
    dsimp only
    split
    · exact hu
    · exact hu

theorem lowerAcks_node (k : Nat) : (lowerAcks s).node k = s.node k :=
  congrArg (fun p : Tab Bool × Tab InAtt => tabGet false p.1 k) (lowerAcks_frame s).2

theorem lowerAcks_attIn : (lowerAcks s).fabric.attIn = s.fabric.attIn := congrArg Prod.snd (lowerAcks_frame s).2

theorem lowerAcks_cfg : (lowerAcks s).cfg = s.cfg := (congrArg State.cfg (lowerAcks_frame s).1 :)

/-- The memories of the AKI merges lie beside the acknowledge nodes. -/
theorem keepAkis_frame (c : ChamberId) : (keepAkis c s).besideNodes = s.besideNodes ∧
    ∀ k, k < 5000000 → (keepAkis c s).node k = s.node k := by
  unfold keepAkis
  generalize List.range 16 = l
  induction l generalizing s with
  | nil => exact ⟨rfl, fun _ _ => rfl⟩
  | cons j l ih =>
    obtain ⟨hbeside, hnodes⟩ := ih (s.withFabric fun f =>
      { f with nodes := tabSet false f.nodes (akiKey c.cav.val c.x.val c.y.val j) (s.aki c.cav.val c.x.val c.y.val j) })
    refine ⟨hbeside, fun k hk => (hnodes k hk).trans ?_⟩
    exact (tabGet_tabSet _ _ _ _ _).trans (if_neg (by rw [akiKey]; omega))

/-! ### Pins that offer their queued samples -/

/-- From `s` to `t` pins have at most offered queued samples on channels that were free (17_pins R421). -/
def SamplesOffered (s t : State) : Prop :=
  t.besideNodes = s.besideNodes ∧ t.fabric.nodes = s.fabric.nodes ∧
    ∀ a, t.attIn a = s.attIn a ∨ ((s.attIn a).ph = .idle ∧ (t.attIn a).ph = .offering)

theorem samplesOffered_refl : SamplesOffered s s := ⟨rfl, rfl, fun _ => .inl rfl⟩

variable {s}

theorem SamplesOffered.trans {t u : State} (h : SamplesOffered s t) (h' : SamplesOffered t u) : SamplesOffered s u := by
  obtain ⟨hbeside, hnodes, htokens⟩ := h
  obtain ⟨hbeside', hnodes', htokens'⟩ := h'
  refine ⟨hbeside'.trans hbeside, hnodes'.trans hnodes, fun a => ?_⟩
  rcases htokens a with ha | ⟨hidle, hoff⟩
  · rw [← ha]
    exact htokens' a
  · rcases htokens' a with ha' | ⟨hidle', -⟩
    · exact .inr ⟨hidle, ha' ▸ hoff⟩
    · simp [hoff] at hidle'

variable (s)

theorem samplesOffered_foldl {α : Type} {g : State → α → State} (hg : ∀ s x, SamplesOffered s (g s x)) (l : List α) :
    SamplesOffered s (l.foldl g s) := by
  induction l generalizing s with
  | nil => exact samplesOffered_refl s
  | cons x l ih => exact (hg s x).trans (ih _)

theorem offerQueued_samplesOffered (b n : Nat) : SamplesOffered s (offerQueued b n s) := by
  unfold offerQueued
  split
  · split
    · next hfree =>
      simp only [Bool.and_eq_true, decide_eq_true_eq] at hfree
      obtain ⟨⟨hidle, -⟩, -⟩ := hfree
      refine ⟨rfl, rfl, fun a => ?_⟩
      by_cases ha : attPin b n = a
      · subst ha
        exact .inr ⟨hidle, by simp [offerSample, State.attIn]⟩
      · exact .inl (by simp [offerSample, State.attIn, ha])
    · exact samplesOffered_refl s
  · exact samplesOffered_refl s

theorem settleAck_samplesOffered (b n : Nat) : SamplesOffered s (settleAck b n s) := by
  unfold settleAck
  extract_lets p
  split
  · exact ⟨rfl, rfl, fun _ => .inl rfl⟩
  · exact samplesOffered_refl s

theorem pinsSettle_samplesOffered (cav : Nat) : SamplesOffered s (pinsSettle cav s) := by
  refine samplesOffered_foldl s (fun u b => ?_) _
  split
  · exact samplesOffered_foldl u (fun v n => (offerQueued_samplesOffered v b n).trans (settleAck_samplesOffered _ b n)) _
  · exact samplesOffered_refl u

/-! ### Attachments that a global node acknowledges -/

/-- The attachments' tokens are listed by rising numbers, and a token that the gate withholds stays offered (02_token_contract R54). -/
def AttachmentsSound : Prop :=
  (s.fabric.attIn.Pairwise fun x y => x.1 < y.1) ∧ ∀ a, (s.attIn a).withheld = true → (s.attIn a).ph = .offering

theorem attachmentsSound_reset : AttachmentsSound State.reset := ⟨.nil, fun _ h => nomatch h⟩

/-- An attachment's token once its node has switched: a rise takes the token offered, a fall ends its return, and a withheld one stays
(04_routing R97). -/
def InAtt.acked (high : Bool) (v : InAtt) : Option InAtt :=
  if v.withheld then some v
  else match v.ph, high with
    | .offering, true => some { v with ph := .returning }
    | .returning, false => none
    | _, _ => some v

theorem InAtt.acked_of_withheld {v : InAtt} (h : v.withheld = true) (high : Bool) : v.acked high = some v := if_pos h

theorem InAtt.acked_of_offering {v : InAtt} (h : v.withheld = false) (hph : v.ph = .offering) :
    v.acked true = some { v with ph := .returning } := by
  simp [acked, h, hph]

theorem InAtt.acked_of_returning {v : InAtt} (h : v.withheld = false) (hph : v.ph = .returning) : v.acked false = none := by
  simp [acked, h, hph]

/-- What a table of rising keys reads as after each entry has been changed or removed, where that leaves unlisted keys alone. -/
theorem tabGet_filterMap {α : Type} {d : α} {f : Nat → α → Option α} {t : Tab α} (ht : t.Pairwise fun x y => x.1 < y.1) {a : Nat}
    (hd : (f a d).getD d = d) :
    tabGet d (t.filterMap fun e => (f e.1 e.2).map (e.1, ·)) a = (f a (tabGet d t a)).getD d := by
  have hunlisted (r : Tab α) (h : ∀ e ∈ r, a < e.1) : tabGet d (r.filterMap fun e => (f e.1 e.2).map (e.1, ·)) a = d := by
    induction r with
    | nil => rfl
    | cons e r ih =>
      obtain ⟨he, hr⟩ := List.forall_mem_cons.1 h
      cases hf : f e.1 e.2 <;> simp [hf, ih hr, he.ne']
  induction t with
  | nil => exact hd.symm
  | cons e t ih =>
    obtain ⟨hlt, ht⟩ := List.pairwise_cons.1 ht
    by_cases ha : e.1 = a
    · subst ha
      cases hf : f e.1 e.2
      · simp [hf, hunlisted t hlt]
      · simp [hf]
    · cases hf : f e.1 e.2 <;> simp [hf, ha, ih ht]

theorem advanceAtts_tokens (cav n : Nat) (high : Bool) : (advanceAtts cav n high s).fabric.attIn =
    s.fabric.attIn.filterMap fun e =>
      (if attCav e.1 = cav ∧ attNode s.cfg e.1 = n then e.2.acked high else some e.2).map (e.1, ·) := by
  refine List.filterMap_congr fun e _ => ?_
  by_cases hnode : attCav e.1 = cav ∧ attNode s.cfg e.1 = n
  · obtain ⟨a, val, ph, withheld⟩ := e
    cases withheld with
    | true => simp [InAtt.acked, hnode]
    | false => cases ph <;> cases high <;> simp [InAtt.acked, hnode]
  · rw [if_neg hnode, if_neg fun h => hnode ⟨h.1, h.2.1⟩]
    rfl

/-- An attachment that a node acknowledges moves with it. -/
theorem advanceAtts_attIn (hs : s.fabric.attIn.Pairwise fun x y => x.1 < y.1) {a cav n : Nat} (hcav : attCav a = cav)
    (hnode : attNode s.cfg a = n) (high : Bool) : (advanceAtts cav n high s).attIn a = ((s.attIn a).acked high).getD {} := by
  have hread := tabGet_filterMap (d := ({} : InAtt)) (a := a)
    (f := fun b v => if attCav b = cav ∧ attNode s.cfg b = n then v.acked high else some v) hs
    (by rw [if_pos ⟨hcav, hnode⟩]; rfl)
  rw [if_pos ⟨hcav, hnode⟩] at hread
  exact (congrArg (tabGet _ · a) (advanceAtts_tokens s cav n high)).trans hread

/-! ### The switch of a node -/

/-- The AKI merges that a local node reads are remembered (03_cells R73). -/
def rememberAkis : NodeId → State → State
  | .ln c _, s => keepAkis c s
  | _, s => s

/-- What moves with a node that has switched to the level `v`: the attachments of a global node, and the pins that it has freed. -/
def followNode (n : NodeId) (v : Bool) (s : State) : State :=
  match n with
  | .gn cav i => if v then advanceAtts cav.val i.val v s else pinsSettle cav.val (advanceAtts cav.val i.val v s)
  | _ => s

/-- A node's level written. -/
def State.setNode (k : Nat) (v : Bool) : State := s.withFabric fun f => { f with nodes := tabSet false f.nodes k v }

/-- The level that a node takes (04_routing R91). -/
def State.nextLevel (n : NodeId) : Bool := cElement (s.node (nodeKey n)) ((lowerAcks s).nodeInputs n)

theorem rememberAkis_frame (n : NodeId) : (rememberAkis n s).besideNodes = s.besideNodes ∧
    ∀ k, k < 5000000 → (rememberAkis n s).node k = s.node k := by
  cases n with
  | ln c _ => exact keepAkis_frame s c
  | cn | gn | line => exact ⟨rfl, fun _ _ => rfl⟩

theorem followNode_frame (n : NodeId) (v : Bool) :
    (followNode n v s).besideNodes = s.besideNodes ∧ (followNode n v s).fabric.nodes = s.fabric.nodes := by
  cases n with
  | gn cav i =>
    cases v with
    | true => exact ⟨rfl, rfl⟩
    | false =>
      obtain ⟨hbeside, hnodes, -⟩ := pinsSettle_samplesOffered (advanceAtts cav.val i.val false s) cav.val
      exact ⟨hbeside, hnodes⟩
  | ln | cn | line => exact ⟨rfl, rfl⟩

variable {s}

theorem ackNodeSwitch_of_held {n : NodeId} (h : s.nodeLive n = false) : ackNodeSwitch n s = s := if_neg (by simp [h])

/-- The switch of a node in an interior that is not held. -/
theorem ackNodeSwitch_of_live {n : NodeId} (h : s.nodeLive n = true) : ackNodeSwitch n s =
    gateProgress (if s.nextLevel n = s.node (nodeKey n) then rememberAkis n (lowerAcks s)
      else followNode n (s.nextLevel n) ((rememberAkis n (lowerAcks s)).setNode (nodeKey n) (s.nextLevel n))) := by
  rw [State.nextLevel, ← lowerAcks_node]
  refine (if_pos h).trans (Eq.trans ?_ (apply_ite gateProgress _ _ _).symm)
  cases n <;> rfl

/-- A node in an interior that is not held takes its next level, every other one keeps its own, and beside nodes, attachments, gates and
pins nothing changes. -/
theorem ackNodeSwitch_frame {n : NodeId} (h : s.nodeLive n = true) : (ackNodeSwitch n s).besideNodes = s.besideNodes ∧
    (ackNodeSwitch n s).node (nodeKey n) = s.nextLevel n ∧
    ∀ k, k ≠ nodeKey n → k < 5000000 → (ackNodeSwitch n s).node k = s.node k := by
  obtain ⟨hbeside, hnodes⟩ := rememberAkis_frame (lowerAcks s) n
  have hkept (k : Nat) (hk : k < 5000000) : (rememberAkis n (lowerAcks s)).node k = s.node k :=
    (hnodes k hk).trans (lowerAcks_node s k)
  rw [ackNodeSwitch_of_live h]
  split
  · next hsame =>
    exact ⟨hbeside.trans (lowerAcks_frame s).1, (hkept _ (nodeKey_lt n)).trans hsame.symm, fun k _ hk => hkept k hk⟩
  · let u := (rememberAkis n (lowerAcks s)).setNode (nodeKey n) (s.nextLevel n)
    obtain ⟨hfollow, hlevels⟩ := followNode_frame u n (s.nextLevel n)
    have hread (k : Nat) : (followNode n (s.nextLevel n) u).node k =
        if nodeKey n = k then s.nextLevel n else (rememberAkis n (lowerAcks s)).node k :=
      (congrArg (tabGet false · k) hlevels).trans (tabGet_tabSet _ _ _ _ _)
    refine ⟨hfollow.trans (hbeside.trans (lowerAcks_frame s).1), (hread _).trans (if_pos rfl), fun k hne hk => ?_⟩
    exact (hread k).trans ((if_neg hne.symm).trans (hkept k hk))

/-- What becomes of the token of an attachment whose global node has switched (04_routing R97). -/
theorem ackNodeSwitch_attIn {cav : Fin 40} {i : Fin 128} (h : s.nodeLive (.gn cav i) = true) (hs : AttachmentsSound s)
    (hswitch : s.nextLevel (.gn cav i) ≠ s.node (nodeKey (.gn cav i))) {a : Nat} (hcav : attCav a = cav.val)
    (hnode : attNode s.cfg a = i.val) :
    let old := s.attIn a
    let new := (ackNodeSwitch (.gn cav i) s).attIn a
    (old.withheld = true → new = old) ∧
    (old.withheld = false → s.nextLevel (.gn cav i) = true → old.ph = .offering → new = { old with ph := .returning }) ∧
    (old.withheld = false → s.nextLevel (.gn cav i) = false → old.ph = .returning → new.ph ≠ .returning) := by
  intro old new
  obtain ⟨hsorted, hoffered⟩ := hs
  let u := (lowerAcks s).setNode (nodeKey (.gn cav i)) (s.nextLevel (.gn cav i))
  have hold : u.attIn a = old := congrArg (tabGet _ · a) (lowerAcks_attIn s)
  have hmoved (high : Bool) : (advanceAtts cav.val i.val high u).attIn a = (old.acked high).getD {} := by
    rw [advanceAtts_attIn u ((lowerAcks_attIn s).symm ▸ hsorted) hcav ((lowerAcks_cfg s).symm ▸ hnode), hold]
  have hnew : new = (followNode (.gn cav i) (s.nextLevel (.gn cav i)) u).attIn a := by
    show (ackNodeSwitch (.gn cav i) s).attIn a = _
    rw [ackNodeSwitch_of_live h, if_neg hswitch]
    rfl
  cases hv : s.nextLevel (.gn cav i) with
  | true =>
    have htaken : new = (old.acked true).getD {} := by rw [hnew, hv]; exact hmoved true
    refine ⟨fun hw => ?_, fun hw _ hph => ?_, fun _ hlow => absurd hlow (by decide)⟩
    · rw [htaken, InAtt.acked_of_withheld hw]; rfl
    · rw [htaken, InAtt.acked_of_offering hw hph]; rfl
  | false =>
    obtain ⟨-, -, hsettled⟩ := pinsSettle_samplesOffered (advanceAtts cav.val i.val false u) cav.val
    have hfreed : new = (old.acked false).getD {} ∨ (((old.acked false).getD {}).ph = .idle ∧ new.ph = .offering) := by
      rw [hnew, hv, ← hmoved false]
      exact hsettled a
    refine ⟨fun hw => ?_, fun _ hhigh => absurd hhigh (by decide), fun hw _ hph => ?_⟩
    · rw [InAtt.acked_of_withheld hw] at hfreed
      refine hfreed.resolve_right fun hidle => ?_
      exact absurd ((hoffered a hw).symm.trans hidle.1) (by decide)
    · rw [InAtt.acked_of_returning hw hph] at hfreed
      rcases hfreed with hidle | ⟨-, hnext⟩
      · rw [hidle]; decide
      · rw [hnext]; decide

/-! ### Choice elements -/

/-- What arrives on a track is up to no free value. -/
theorem trackEnd_withFree (s : State) (n fuel gx gy d len t : Nat) :
    ({ s with freeCtr := n } : State).trackEnd fuel gx gy d len t = s.trackEnd fuel gx gy d len t := by
  induction fuel generalizing gx gy d len t with
  | zero => rfl
  | succ fuel ih =>
    simp only [State.trackEnd, ih]
    rfl

theorem chamberIn_withFree (s : State) (n cav x y k : Nat) :
    ({ s with freeCtr := n } : State).chamberIn cav x y k = s.chamberIn cav x y k := by
  simp only [State.chamberIn, trackEnd_withFree]
  rfl

theorem request_withFree (s : State) (n : Nat) (c : ChamberId) (side : ChoiceSide) :
    ({ s with freeCtr := n } : State).request c side = s.request c side := by
  cases side
  · simp only [State.request, State.cellIn, State.crossbar, chamberIn_withFree]
    rfl
  · simp only [State.request, State.cellIn, State.crossbar, chamberIn_withFree]
    rfl
/-- Cell 15 of a chamber with the token of a side's request forwarded, value unchanged, to that side's output (03_cells R77). -/
def State.forwarded (s : State) (c : ChamberId) (side : ChoiceSide) : Cell :=
  let v := s.cell c.cav.val c.x.val c.y.val 15
  match side with | .a => { v with src0 := s.request c .a } | .b => { v with src1 := s.request c .b }

/-- From `s` to `t` the choice element of a chamber has given the grant to a side: its state and its cell say so, and nothing else has
changed but the count of free values taken. -/
def Granted (c : ChamberId) (side : ChoiceSide) (s t : State) : Prop :=
  t.choice c = { grant := some side, owed := none } ∧
  t.cell c.cav.val c.x.val c.y.val 15 = s.forwarded c side ∧
  (∀ k, k ≠ cellKey c.cav.val c.x.val c.y.val 15 → tabGet {} t.fabric.cells k = tabGet {} s.fabric.cells k) ∧
  (∀ k, k ≠ chamberKey c.cav.val c.x.val c.y.val → tabGet {} t.fabric.choices k = tabGet {} s.fabric.choices k) ∧
  { t with fabric := { t.fabric with cells := s.fabric.cells, choices := s.fabric.choices }, freeCtr := s.freeCtr } = s

/-- The grant given, whatever free values have been taken before. -/
theorem giveGrant_withFree (c : ChamberId) (side : ChoiceSide) (s : State) (n : Nat) : giveGrant c side { s with freeCtr := n } =
    { (s.setCell c.cav.val c.x.val c.y.val 15 (s.forwarded c side)).setChoice c { grant := some side, owed := none } with
      freeCtr := n } := by
  simp only [giveGrant, request_withFree]
  cases side <;> rfl

theorem granted_giveGrant (c : ChamberId) (side : ChoiceSide) (s : State) (n : Nat) :
    Granted c side s (giveGrant c side { s with freeCtr := n }) := by
  rw [giveGrant_withFree]
  refine ⟨?_, ?_, fun k hk => ?_, fun k hk => ?_, rfl⟩
  · simp [State.choice]
  · simp [State.cell]
  · simp [hk.symm]
  · simp [hk.symm]

variable {c : ChamberId}

/-- A choice element that is not in use, or has a grant in progress, grants nothing (03_cells R78). -/
theorem choiceGrant_of_busy (h : s.choiceOn c = false ∨ (s.choice c).grant.isSome = true) : choiceGrant c s = s := by
  refine if_neg ?_
  rcases h with h | h
  · simp [h]
  · simp [Option.isNone_eq_false_iff.2 h]

section
variable (hon : s.choiceOn c = true) (hg : (s.choice c).grant = none)
include hon hg

/-- An illegal code at a request freezes the cavern (02_token_contract R54). -/
theorem choiceGrant_of_illegal (h : s.request c .a = .illegal ∨ s.request c .b = .illegal) :
    choiceGrant c s = freezeCav c.cav.val 0xFF 0x03 c.cav.val s :=
  (if_pos (by simp [hon, hg])).trans (if_pos h)

variable (ha : s.request c .a ≠ .illegal) (hb : s.request c .b ≠ .illegal)
include ha hb

/-- The requests that are pending decide (03_cells R77, R79, 02_token_contract R46). -/
theorem choiceGrant_of_legal : choiceGrant c s =
    match (s.request c .a).valid, (s.request c .b).valid with
    | true, true =>
      match (s.choice c).owed with
      | some side => giveGrant c side s
      | none => giveGrant c (if Config.freeBit s.freeCtr then .a else .b) { s with freeCtr := s.freeCtr + 1 }
    | true, false => giveGrant c .a s
    | false, true => giveGrant c .b s
    | false, false => s :=
  (if_pos (by simp [hon, hg])).trans (if_neg (not_or.2 ⟨ha, hb⟩))

theorem choiceGrant_of_one {side other : ChoiceSide} (hsides : (side = .a ∧ other = .b) ∨ (side = .b ∧ other = .a))
    (h : (s.request c side).valid = true) (ho : (s.request c other).valid = false) : choiceGrant c s = giveGrant c side s := by
  rw [choiceGrant_of_legal hon hg ha hb]
  rcases hsides with ⟨rfl, rfl⟩ | ⟨rfl, rfl⟩
  · rw [h, ho]
  · rw [h, ho]

/-- Of two pending requests, the one that is owed the grant gets it. -/
theorem choiceGrant_of_two (hva : (s.request c .a).valid = true) (hvb : (s.request c .b).valid = true) :
    ∃ side free, choiceGrant c s = giveGrant c side { s with freeCtr := free } ∧ ∀ w, (s.choice c).owed = some w → side = w := by
  rw [choiceGrant_of_legal hon hg ha hb, hva, hvb]
  cases (s.choice c).owed with
  | none => exact ⟨_, _, rfl, fun _ h => nomatch h⟩
  | some side => exact ⟨side, s.freeCtr, rfl, fun _ h => Option.some.inj h⟩

theorem choiceGrant_of_none (hva : (s.request c .a).valid = false) (hvb : (s.request c .b).valid = false) : choiceGrant c s = s := by
  rw [choiceGrant_of_legal hon hg ha hb, hva, hvb]

end

/-- A grant ends once the granted input and output have returned (03_cells R78). -/
theorem choiceGrantEnd_of_granted (hon : s.choiceOn c = true) {side other : ChoiceSide}
    (hsides : (side = .a ∧ other = .b) ∨ (side = .b ∧ other = .a)) (hg : (s.choice c).grant = some side) :
    choiceGrantEnd c s = if s.request c side = .empty ∧ s.grantDone c side = true then
      s.setChoice c { grant := none, owed := if (s.request c other).valid then some other else none } else s := by
  unfold choiceGrantEnd
  rw [hon, hg]
  rcases hsides with ⟨rfl, rfl⟩ | ⟨rfl, rfl⟩
  · rfl
  · rfl

theorem choiceGrantEnd_of_idle (h : s.choiceOn c = false ∨ (s.choice c).grant = none) : choiceGrantEnd c s = s := by
  unfold choiceGrantEnd
  split
  · next hon hg => rcases h with h | h <;> simp_all
  · rfl

/-! ### A choice element under a fault log past its bound -/

/-- Chamber (0, 0) of cavern 0. -/
def firstChamber : ChamberId := { cav := 0, x := 0, y := 0 }

/-- The live cavern of `overlongState` with cell 15 of its first chamber in CHOICE mode; request A reads the output Y0 of cell 0, which
carries both rails high. -/
def overlongRequest : State :=
  { overlongState with cfg := tabSet 0 overlongState.cfg (cfgKey 0 0 0 62) (word (1 + 2 ^ 8)) }

theorem overlongRequest_waits : overlongRequest.choiceOn firstChamber = true ∧ (overlongRequest.choice firstChamber).grant = none ∧
    overlongRequest.request firstChamber .a = .illegal := by
  decide +kernel

end Sys2Proof.Machine
end

section
/-! The statement about acknowledge nodes and choice elements. As for cells and latches, what is true stands before the refutation. A freeze
needs a fault log within its bound. The tokens of attachments need the order and the phases of `AttachmentsSound`: of two entries for one
attachment, a fall would remove the first and leave the second, and a withheld token whose phase is not OFFERING would be replaced by a
pin's queued sample. -/

open Sys2Proof Sys2Proof.Machine

/-- O22 with the attachments sound where their tokens move and the logs within their bounds where a cavern is frozen: the cases of the
C-element, the attachments that move with a global node, and the cases of a grant and its end. -/
theorem ackAndChoice_of_sound :
    (∀ (n : NodeId) (s : State),
        (s.nodeLive n = false → exec (.ackNodeSwitch n) s = .next s) ∧
        (s.nodeLive n = true →
          let ins := (lowerAcks s).nodeInputs n
          ∃ t, exec (.ackNodeSwitch n) s = .next t ∧
            (ins = [] → t.node (nodeKey n) = false) ∧
            (ins ≠ [] → (∀ b ∈ ins, b = true) → t.node (nodeKey n) = true) ∧
            ((∀ b ∈ ins, b = false) → t.node (nodeKey n) = false) ∧
            (true ∈ ins → false ∈ ins → t.node (nodeKey n) = s.node (nodeKey n)) ∧
            (∀ k, k ≠ nodeKey n → k < 5000000 → t.node k = s.node k) ∧
            (AttachmentsSound s → ∀ cav i a, n = .gn cav i → attCav a = cav.val → attNode s.cfg a = i.val →
              t.node (nodeKey n) ≠ s.node (nodeKey n) →
              ((s.attIn a).withheld = true → t.attIn a = s.attIn a) ∧
              ((s.attIn a).withheld = false → t.node (nodeKey n) = true → (s.attIn a).ph = .offering →
                t.attIn a = { s.attIn a with ph := .returning }) ∧
              ((s.attIn a).withheld = false → t.node (nodeKey n) = false → (s.attIn a).ph = .returning →
                (t.attIn a).ph ≠ .returning)) ∧
            t.fabric.cells = s.fabric.cells ∧ t.fabric.choices = s.fabric.choices ∧
            { t with fabric := s.fabric, cavs := s.cavs, pins := s.pins } = s)) ∧
    (∀ (c : ChamberId) (s : State),
        let ch := s.choice c
        (s.choiceOn c = false ∨ ch.grant.isSome = true → exec (.choiceGrant c) s = .next s) ∧
        (s.choiceOn c = true → ch.grant = none →
          (s.request c .a ≠ .illegal → s.request c .b ≠ .illegal →
            (∀ side other, (side = .a ∧ other = .b) ∨ (side = .b ∧ other = .a) →
              (s.request c side).valid = true → (s.request c other).valid = false →
              ∃ t, exec (.choiceGrant c) s = .next t ∧ Granted c side s t ∧ t.freeCtr = s.freeCtr) ∧
            ((s.request c .a).valid = true → (s.request c .b).valid = true →
              ∃ side t, exec (.choiceGrant c) s = .next t ∧ Granted c side s t ∧ (∀ w, ch.owed = some w → side = w)) ∧
            ((s.request c .a).valid = false → (s.request c .b).valid = false → exec (.choiceGrant c) s = .next s)) ∧
          (LogsBounded s → s.request c .a = .illegal ∨ s.request c .b = .illegal →
            ∃ t, exec (.choiceGrant c) s = .next t ∧ FrozenBy c.cav.val 0xFF 0x03 s t)) ∧
        (∀ side other, (side = .a ∧ other = .b) ∨ (side = .b ∧ other = .a) → s.choiceOn c = true → ch.grant = some side →
          exec (.choiceGrantEnd c) s = .next (if s.request c side = .empty ∧ s.grantDone c side = true then
            s.setChoice c { grant := none, owed := if (s.request c other).valid then some other else none } else s)) ∧
        (s.choiceOn c = false ∨ ch.grant = none → exec (.choiceGrantEnd c) s = .next s)) := by
  refine ⟨?_, ?_⟩
  · intro n s
    simp only [exec_ackNodeSwitch]
    refine ⟨fun h => congrArg _ (ackNodeSwitch_of_held h), fun h => ?_⟩
    obtain ⟨hbeside, hlevel, hother⟩ := ackNodeSwitch_frame h
    refine ⟨_, rfl, fun hnone => ?_, fun hne hall => ?_, fun hall => ?_, fun ht hf => ?_, hother, ?_, ?_, ?_, ?_⟩
    · rw [hlevel, State.nextLevel, hnone, cElement_nil]
    · exact hlevel.trans (cElement_of_high hne hall _)
    · exact hlevel.trans (cElement_of_low hall _)
    · exact hlevel.trans (cElement_of_mixed ht hf _)
    · rintro hs cav i a rfl hcav hnode hswitch
      rw [hlevel] at hswitch ⊢
      exact ackNodeSwitch_attIn h hs hswitch hcav hnode
    · exact (congrArg (fun u : State => u.fabric.cells) hbeside :)
    · exact (congrArg (fun u : State => u.fabric.choices) hbeside :)
    · exact (congrArg (fun u : State => { u with fabric := s.fabric, cavs := s.cavs, pins := s.pins }) hbeside :)
  · intro c s ch
    simp only [exec_choiceGrant, exec_choiceGrantEnd]
    refine ⟨fun h => congrArg _ (choiceGrant_of_busy h), fun hon hg => ⟨fun ha hb => ⟨?_, ?_, ?_⟩, fun hlogs h => ?_⟩, ?_, ?_⟩
    · intro side other hsides h ho
      exact ⟨_, congrArg _ (choiceGrant_of_one hon hg ha hb hsides h ho), granted_giveGrant c side s s.freeCtr, rfl⟩
    · intro hva hvb
      obtain ⟨side, free, hgiven, howed⟩ := choiceGrant_of_two hon hg ha hb hva hvb
      exact ⟨side, _, congrArg _ hgiven, granted_giveGrant c side s free, howed⟩
    · exact fun hva hvb => congrArg _ (choiceGrant_of_none hon hg ha hb hva hvb)
    · exact ⟨_, congrArg _ (choiceGrant_of_illegal hon hg h), frozenBy_freezeCav hlogs.1 _ _ _ _⟩
    · exact fun side other hsides hon hg => congrArg _ (choiceGrantEnd_of_granted hon hsides hg)
    · exact fun h => congrArg _ (choiceGrantEnd_of_idle h)

/-- Refutes O22: with a fault log of 65 entries, the entry of the illegal code that a choice element finds on a request stands past the
64. -/
theorem not_ackAndChoice : ¬ Obligations.AckAndChoice := by
  unfold Obligations.AckAndChoice
  rintro ⟨-, hchoices⟩
  obtain ⟨hon, hnone, hillegal⟩ := overlongRequest_waits
  obtain ⟨-, hpending, -⟩ := hchoices firstChamber overlongRequest
  obtain ⟨-, hfreezes⟩ := hpending hon hnone
  obtain ⟨t, ht, hfrozen⟩ := hfreezes (.inl hillegal)
  rw [exec_choiceGrant, choiceGrant_of_illegal hon hnone (.inl hillegal), Host.Outcome.next.injEq] at ht
  subst ht
  exact not_frozenBy_of_overlong rfl (freezeCav_flog ..) (by decide) (by decide) hfrozen

end

section
/-! SUPPORT. Gauge and load windows (05_speed_latency R112, R114; 14_foreman R344, R348): fields of a register beside the one written, the
pending bit of a raise, the commands that open at an always reachable register, and what the gauges' registers hold after a window and after
a clear of their maxima. -/

namespace Sys2Proof.Machine

variable (s : State)

/-! ### The commands -/

theorem exec_gaugeWindowEnd (c : Fin 40) (n : Nat) : exec (.gaugeWindowEnd c n) s = .next (gaugeWindowEnd c n s) := rfl

theorem exec_gaugeMaxClr (p : HostPort) : exec (.gaugeMaxClr p) s =
    .next (hostCommand p .speedGaugeCtrl 0 (s.actWord .speedGaugeCtrl 0 (bitWord 30)) gaugeMaxClear s) := rfl

theorem exec_loadWindowEnd (pct : Fin 101) : exec (.loadWindowEnd pct) s = .next (loadWindow pct.val s) := rfl

theorem exec_loadPeakClr (p : HostPort) : exec (.loadPeakClr p) s =
    .next (hostCommand p .loadPct 0 (bitWord 31) (fun s => s.setField .loadPct 0 7 7 0) s) := rfl

/-- While SYS runs, an address outside the hard blocks and the lanes is always reached (20_register_map R475). -/
theorem State.reach_open (h : s.sysRuns = true) {a : Nat} (hheld : heldWindow a = false) (hlane : laneOfAddr a = none) :
    s.reach a = .open := by
  simp [State.reach, State.hostAnswers, h, hheld, hlane]

theorem hostCommand_open {k : RegKind} {i : Nat} (h : s.reach (k.addr i) = .open) (p : HostPort) (val : Word) (f : State → State) :
    hostCommand p k i val f s = f s := by
  simp only [hostCommand, h]

/-! ### Fields beside the one written -/

/-- Writing a field leaves the bits outside it alone. -/
theorem getLsbD_putField_of_outside (w : Word) {lo len : Nat} (v : Nat) {b : Nat} (h : b < lo ∨ lo + len ≤ b) :
    (putField w lo len v).getLsbD b = w.getLsbD b := by
  have hplace (n : Nat) : (word (place lo len n)).getLsbD b = false := by
    rw [word, place, BitVec.getLsbD_ofNat, Nat.testBit_shiftLeft, Nat.testBit_mod_two_pow]
    rcases h with h | h
    · simp [Nat.not_le.2 h]
    · simp [show ¬ b - lo < len by omega]
  by_cases hb : b < 32
  · simp only [putField, BitVec.getLsbD_or, BitVec.getLsbD_and, BitVec.getLsbD_not, hplace, hb, decide_true, Bool.not_false,
      Bool.and_true, Bool.or_false]
  · rw [BitVec.getLsbD_of_ge _ _ (Nat.le_of_not_lt hb), BitVec.getLsbD_of_ge _ _ (Nat.le_of_not_lt hb)]

/-- Writing a field leaves a disjoint field alone. -/
theorem putField_field_of_disjoint (w : Word) {lo len lo' len' : Nat} (v : Nat) (h : lo' + len' ≤ lo ∨ lo + len ≤ lo') :
    bitsOf lo' len' (putField w lo len v).toNat = bitsOf lo' len' w.toNat := by
  apply Nat.eq_of_testBit_eq
  intro j
  simp only [bitsOf, Nat.testBit_mod_two_pow, Nat.testBit_shiftRight, BitVec.testBit_toNat]
  by_cases hj : j < len'
  · rw [getLsbD_putField_of_outside w v (by omega)]
  · simp [hj]

theorem State.setField_field_of_disjoint (k : RegKind) (i : Nat) {lo len lo' len' : Nat} (v : Nat)
    (h : lo' + len' ≤ lo ∨ lo + len ≤ lo') : (s.setField k i lo len v).field k i lo' len' = s.field k i lo' len' := by
  rw [State.field, State.setField_reg, putField_field_of_disjoint _ _ h, State.field]

/-- Writing a field leaves what is stored at every other address alone. -/
theorem State.setField_other {k : RegKind} {i a : Nat} (lo len v : Nat) (ha : a ≠ k.addr i) (d : Word) :
    tabGet d (s.setField k i lo len v).regs a = tabGet d s.regs a := tabGet_tabSet_ne _ _ _ _ ha.symm

/-! ### The pending bit of a raise -/

theorem evtPend_addr_inj {i j : Nat} (h : RegKind.evtPend.addr i = RegKind.evtPend.addr j) : i = j := by
  change 0x20000 + i * 4 = 0x20000 + j * 4 at h
  omega

/-- One raise sets its own bit of `EVT_PEND` and no other (19_events_counters R459). -/
theorem raiseOnce_evtPend (n : Nat) {i : Nat} (hi : i < 12) : (raiseOnce n s).reg .evtPend i =
    if n / 32 = i then s.reg .evtPend i ||| bitWord (n % 32) else s.reg .evtPend i := by
  have hmerged : RegKind.evtMerged.addr 0 ≠ RegKind.evtPend.addr i := by
    change 0x200C8 + 0 * 4 ≠ 0x20000 + i * 4
    omega
  have hovf (u : State) (b : Nat) : (setEvtOvf u b).reg .evtPend i = u.reg .evtPend i := by
    refine State.setReg_reg_ne u _ ?_
    change 0x200CC + 0 * 4 ≠ 0x20000 + i * 4
    omega
  unfold raiseOnce
  extract_lets j b v m s1 s2
  have hm : m.reg .evtPend i = s.reg .evtPend i := State.setReg_reg_ne s _ hmerged
  have h1 : s1.reg .evtPend i = s.reg .evtPend i := by
    unfold s1
    split
    · split
      · rfl
      · split
        · rw [hovf, hm]
        · exact hm
    · rfl
  have h2 : s2.reg .evtPend i = if n / 32 = i then s.reg .evtPend i ||| bitWord (n % 32) else s.reg .evtPend i := by
    split
    next hj =>
      rw [← h1, ← hj]
      exact State.setBits_reg s1 _ _ _
    next hj => exact (State.setReg_reg_ne s1 _ fun e => hj (evtPend_addr_inj e)).trans h1
  split
  · split
    · exact h2
    · rw [hovf, h2]
  · exact h2

/-- A raised event is pending (19_events_counters R459), also where its merge count overflows and EV019 follows (R462). -/
theorem raiseEvent_pending {n : Nat} (hn : n < 384) : (raiseEvent n s).bit .evtPend (n / 32) (n % 32) = true := by
  have hi : n / 32 < 12 := by omega
  have hb : (bitWord (n % 32)).getLsbD (n % 32) = true := by
    rw [bitWord, BitVec.getLsbD_ofNat, Nat.testBit_shiftLeft]
    simp [Nat.mod_lt n]
  have hone : (raiseOnce n s).bit .evtPend (n / 32) (n % 32) = true := by
    rw [State.bit, raiseOnce_evtPend s n hi, if_pos rfl, BitVec.getLsbD_or, hb, Bool.or_true]
  unfold raiseEvent
  dsimp only
  split
  · rw [State.bit, raiseOnce_evtPend _ 19 hi]
    split
    · rw [BitVec.getLsbD_or]
      exact Bool.or_eq_true_iff.2 (.inl hone)
    · exact hone
  · exact hone

/-- The caverns stand beside the flags. -/
theorem cav_of_besideFlags {s t : State} (h : besideFlags t = besideFlags s) (d : Nat) : t.cav d = s.cav d := by
  have hcavs : t.cavs = s.cavs := (congrArg State.cavs h :)
  rw [State.cav, hcavs, State.cav]

/-- The caverns may be replaced beside the flags. -/
theorem besideFlags_of_cavs {s t : State} (h : besideFlags t = besideFlags s) (cavs : Tab Cavern) :
    besideFlags { t with cavs := cavs } = besideFlags { s with cavs := cavs } :=
  (congrArg (fun u : State => { u with cavs := cavs }) h :)

/-! ### The gauges' registers -/

theorem speedGauge_addr_inj {c d : Nat} (h : RegKind.speedGauge.addr c = RegKind.speedGauge.addr d) : c = d := by
  change 0x30200 + c * 4 = 0x30200 + d * 4 at h
  omega

/-- No gauge's register is one of the event controller's. -/
theorem speedGauge_not_event (c : Nat) : eventRegister (RegKind.speedGauge.addr c) = false := by
  change eventRegister (0x30200 + c * 4) = false
  simp only [eventRegister, Bool.or_eq_false_iff, Bool.and_eq_false_iff, decide_eq_false_iff_not, beq_eq_false_iff_ne]
  omega

/-! ### What a gauge holds after a window (05_speed_latency R114) -/

/-- `STAGE_PS` at the end of a window of `n` revolutions. -/
def State.gaugeReading (n : Nat) : Nat :=
  if n = 0 then 0xFFF else min 0xFFF ((gaugeWindow (s.field .speedGaugeCtrl 0 16 2) + 16 * n) / (32 * n))

/-- The comparison is on and the reading exceeds `THR_PS`. -/
def State.gaugeExceeds (n : Nat) : Bool :=
  s.bit .speedGaugeCtrl 0 12 && decide (s.field .speedGaugeCtrl 0 0 12 < s.gaugeReading n)

/-- A gauge's register with `VALID` set. -/
def gaugeWord (exceeded : Bool) (top ps : Nat) : Word := word (2 ^ 31 + bitNat exceeded * 2 ^ 30 + top * 2 ^ 16 + ps)

/-- What a gauge's register holds at the end of a window of `n` revolutions. -/
def State.gaugeShows (c n : Nat) : Word :=
  gaugeWord (s.bit .speedGauge c 30 || s.gaugeExceeds n) (max (s.gaugeReading n) (s.field .speedGauge c 16 12)) (s.gaugeReading n)

/-- A gauge's register written, and the times of its last reading and of its last one above the threshold. -/
def State.writeGauge (c : Nat) (w : Word) (exceeds : Bool) : State :=
  (s.setReg .speedGauge c w).modCav c fun v =>
    { v with gaugeAt := s.clocks.stamp + 1, gaugeOver := if exceeds then s.clocks.stamp + 1 else v.gaugeOver }

theorem State.gaugeReading_lt (n : Nat) : s.gaugeReading n < 2 ^ 12 := by
  unfold State.gaugeReading
  split <;> omega

theorem State.field_lt (k : RegKind) (i lo len : Nat) : s.field k i lo len < 2 ^ len := Nat.mod_lt _ (by positivity)

section

variable {exceeded : Bool} {top ps : Nat} (htop : top < 2 ^ 12) (hps : ps < 2 ^ 12)

include htop hps

theorem gaugeWord_toNat : (gaugeWord exceeded top ps).toNat = 2 ^ 31 + bitNat exceeded * 2 ^ 30 + top * 2 ^ 16 + ps := by
  have hbit : bitNat exceeded ≤ 1 := by cases exceeded <;> decide
  rw [gaugeWord, word, BitVec.toNat_ofNat, Nat.mod_eq_of_lt (by omega)]

theorem gaugeWord_stagePs : bitsOf 0 12 (gaugeWord exceeded top ps).toNat = ps := by
  rw [gaugeWord_toNat htop hps, bitsOf, Nat.shiftRight_eq_div_pow]
  omega

theorem gaugeWord_maxPs : bitsOf 16 12 (gaugeWord exceeded top ps).toNat = top := by
  rw [gaugeWord_toNat htop hps, bitsOf, Nat.shiftRight_eq_div_pow]
  omega

theorem gaugeWord_valid : (gaugeWord exceeded top ps).getLsbD 31 = true := by
  have hbit : bitNat exceeded ≤ 1 := by cases exceeded <;> decide
  rw [← BitVec.testBit_toNat, gaugeWord_toNat htop hps, Nat.testBit_eq_decide_div_mod_eq, decide_eq_true_eq]
  omega

theorem gaugeWord_over : (gaugeWord exceeded top ps).getLsbD 30 = exceeded := by
  rw [← BitVec.testBit_toNat, gaugeWord_toNat htop hps, Nat.testBit_eq_decide_div_mod_eq]
  cases exceeded
  · rw [show bitNat false = 0 from rfl, decide_eq_false_iff_not]
    omega
  · rw [show bitNat true = 1 from rfl, decide_eq_true_eq]
    omega

end

theorem gaugeWindowEnd_of_stopped {c : Fin 40} (h : s.gaugeRuns c.val = false) (n : Nat) : gaugeWindowEnd c n s = s :=
  if_neg (by simp [h])

/-- A window's end writes the gauge, and raises EV012 where `OVER` passes from 0 to 1. -/
theorem gaugeWindowEnd_of_running {c : Fin 40} (h : s.gaugeRuns c.val = true) (n : Nat) : gaugeWindowEnd c n s =
    if s.gaugeExceeds n = true ∧ s.bit .speedGauge c.val 30 = false
    then raiseEvent 12 (s.writeGauge c.val (s.gaugeShows c.val n) (s.gaugeExceeds n))
    else s.writeGauge c.val (s.gaugeShows c.val n) (s.gaugeExceeds n) := if_pos h

section

variable (c : Nat) (w : Word) (exceeds : Bool)

theorem writeGauge_reg : (s.writeGauge c w exceeds).reg .speedGauge c = w := State.setReg_reg s .speedGauge c w

theorem writeGauge_other {a : Nat} (ha : a ≠ RegKind.speedGauge.addr c) (d : Word) :
    tabGet d (s.writeGauge c w exceeds).regs a = tabGet d s.regs a := tabGet_tabSet_ne _ _ _ _ ha.symm

theorem writeGauge_cav_self : (s.writeGauge c w exceeds).cav c =
    { s.cav c with gaugeAt := s.clocks.stamp + 1, gaugeOver := if exceeds then s.clocks.stamp + 1 else (s.cav c).gaugeOver } := by
  rw [State.cav, State.writeGauge, State.modCav_cavs, tabGet_tabMod, if_pos rfl]
  rfl

theorem writeGauge_cav_ne {d : Nat} (h : d ≠ c) : (s.writeGauge c w exceeds).cav d = s.cav d := by
  rw [State.cav, State.writeGauge, State.modCav_cavs, tabGet_tabMod, if_neg h.symm]
  rfl

theorem writeGauge_besideCavs :
    besideFlags { s.writeGauge c w exceeds with cavs := s.cavs } = besideFlags s := rfl

end

/-- Beside the written gauge, a window's end changes what a raise changes. -/
theorem gaugeWindowEnd_after {c : Fin 40} (h : s.gaugeRuns c.val = true) (n : Nat) :
    let u := s.writeGauge c.val (s.gaugeShows c.val n) (s.gaugeExceeds n)
    RegsKept [] u (gaugeWindowEnd c n s) ∧ besideFlags (gaugeWindowEnd c n s) = besideFlags u := by
  intro u
  rw [gaugeWindowEnd_of_running s h]
  split
  · exact ⟨raiseEvent_kept _ [] (by decide), raiseEvent_besideFlags _ 12⟩
  · exact ⟨.refl _ [], rfl⟩

theorem gaugeWindowEnd_reg {c : Fin 40} (h : s.gaugeRuns c.val = true) (n : Nat) :
    (gaugeWindowEnd c n s).reg .speedGauge c.val = s.gaugeShows c.val n :=
  ((gaugeWindowEnd_after s h n).1.reg List.not_mem_nil (speedGauge_not_event _)).trans (writeGauge_reg s ..)

theorem gaugeWindowEnd_cav {c : Fin 40} (h : s.gaugeRuns c.val = true) (n d : Nat) :
    (gaugeWindowEnd c n s).cav d = (s.writeGauge c.val (s.gaugeShows c.val n) (s.gaugeExceeds n)).cav d :=
  cav_of_besideFlags (gaugeWindowEnd_after s h n).2 d

/-- Where `OVER` does not pass from 0 to 1, no event is raised. -/
theorem gaugeWindowEnd_of_quiet {c : Fin 40} (h : s.gaugeRuns c.val = true) {n : Nat}
    (hquiet : s.gaugeExceeds n = false ∨ s.bit .speedGauge c.val 30 = true) :
    gaugeWindowEnd c n s = s.writeGauge c.val (s.gaugeShows c.val n) (s.gaugeExceeds n) := by
  rw [gaugeWindowEnd_of_running s h, if_neg]
  rintro ⟨hexceeds, hlow⟩
  rcases hquiet with hquiet | hquiet
  · exact Bool.false_ne_true (hquiet.symm.trans hexceeds)
  · exact Bool.false_ne_true (hlow.symm.trans hquiet)

/-! ### The clear of the maxima (05_speed_latency R112) -/

/-- What a clear leaves in `MAX_PS`: a reading that has ended in this SYSCLK period, and else 0. -/
def State.clearedMax (c : Nat) : Nat := if (s.cav c).gaugeAt = s.clocks.stamp + 1 then s.field .speedGauge c 0 12 else 0

/-- The clear of one gauge's maximum. -/
def clearMax (s : State) (c : Nat) : State := s.setField .speedGauge c 16 12 (s.clearedMax c)

theorem gaugeMaxClear_eq : gaugeMaxClear s = (List.range 40).foldl clearMax s := rfl

theorem clearedMax_lt (c : Nat) : s.clearedMax c < 2 ^ 12 := by
  unfold State.clearedMax
  split
  · exact s.field_lt ..
  · decide

/-- The clear of one gauge's maximum is no concern of another's. -/
theorem clearMax_reg_ne {c d : Nat} (h : c ≠ d) : (clearMax s c).reg .speedGauge d = s.reg .speedGauge d :=
  State.setField_reg_ne s _ _ _ fun e => h (speedGauge_addr_inj e)

theorem clearMax_clearedMax_ne {c d : Nat} (h : c ≠ d) : (clearMax s c).clearedMax d = s.clearedMax d := by
  unfold State.clearedMax State.field
  rw [clearMax_reg_ne s h]
  rfl

/-- Clears change the registers alone. -/
theorem foldl_clearMax_frame (cs : List Nat) : { cs.foldl clearMax s with regs := s.regs } = s := by
  induction cs generalizing s with
  | nil => rfl
  | cons c cs ih => exact congrArg (fun u : State => { u with regs := s.regs }) (ih (clearMax s c))

/-- Clears leave what is stored beside their gauges alone. -/
theorem foldl_clearMax_other {cs : List Nat} {a : Nat} (h : ∀ c ∈ cs, a ≠ RegKind.speedGauge.addr c) (d : Word) :
    tabGet d (cs.foldl clearMax s).regs a = tabGet d s.regs a := by
  induction cs generalizing s with
  | nil => rfl
  | cons c cs ih =>
    obtain ⟨hc, hcs⟩ := List.forall_mem_cons.1 h
    exact (ih (clearMax s c) hcs).trans (s.setField_other 16 12 _ hc d)

/-- Clears of different gauges write in each one's register what a clear of it alone would. -/
theorem foldl_clearMax_reg {cs : List Nat} (hcs : cs.Nodup) {c : Nat} (hc : c ∈ cs) :
    (cs.foldl clearMax s).reg .speedGauge c = putField (s.reg .speedGauge c) 16 12 (s.clearedMax c) := by
  induction cs generalizing s with
  | nil => exact absurd hc List.not_mem_nil
  | cons x xs ih =>
    obtain ⟨hx, hxs⟩ := List.nodup_cons.1 hcs
    by_cases hxc : x = c
    · subst hxc
      have hlater : ∀ d ∈ xs, RegKind.speedGauge.addr x ≠ RegKind.speedGauge.addr d := fun d hd e =>
        hx (speedGauge_addr_inj e ▸ hd)
      exact (foldl_clearMax_other (clearMax s x) hlater _).trans (State.setField_reg s ..)
    · have hmem : c ∈ xs := (List.mem_cons.1 hc).resolve_left (Ne.symm hxc)
      rw [List.foldl_cons, ih (clearMax s x) hxs hmem, clearMax_reg_ne s hxc, clearMax_clearedMax_ne s hxc]

theorem gaugeMaxClear_reg {c : Nat} (hc : c < 40) :
    (gaugeMaxClear s).reg .speedGauge c = putField (s.reg .speedGauge c) 16 12 (s.clearedMax c) := by
  rw [gaugeMaxClear_eq, foldl_clearMax_reg s List.nodup_range (List.mem_range.2 hc)]

theorem gaugeMaxClear_other {a : Nat} (h : ∀ c, c < 40 → a ≠ RegKind.speedGauge.addr c) (d : Word) :
    tabGet d (gaugeMaxClear s).regs a = tabGet d s.regs a := by
  rw [gaugeMaxClear_eq, foldl_clearMax_other s fun c hc => h c (List.mem_range.1 hc)]

theorem gaugeMaxClear_frame : { gaugeMaxClear s with regs := s.regs } = s := by
  rw [gaugeMaxClear_eq, foldl_clearMax_frame]

/-! ### The load windows (14_foreman R344, R348) -/

theorem loadWindow_of_running (h : s.sysRuns = true) (pct : Nat) : loadWindow pct s =
    (s.setField .loadPct 0 0 7 pct).setField .loadPct 0 7 7 (max pct (s.field .loadPct 0 7 7)) := if_pos h

end Sys2Proof.Machine
end

section
/-! The statement about gauge and load windows. -/

open Sys2Proof Sys2Proof.Machine

/-- Settles O18: a window's end is the gauge's register written and at most one raise, which keeps that register; the clears reach their
registers while SYS runs, and each writes one field, whose neighbours `putField_field_of_disjoint` keeps. -/
theorem gaugesAndLoadWindow : Obligations.GaugesAndLoadWindow := by
  unfold Obligations.GaugesAndLoadWindow
  refine ⟨fun c n s => ⟨fun h => ?_, fun h => ?_⟩, fun p s hs => ⟨?_, fun pct => ?_, ?_⟩⟩
  · rw [exec_gaugeWindowEnd, gaugeWindowEnd_of_stopped s h]
  · intro ps above
    obtain ⟨hkept, hbeside⟩ := gaugeWindowEnd_after s h n
    have hreg : (gaugeWindowEnd c n s).reg .speedGauge c.val = gaugeWord (s.bit .speedGauge c.val 30 || above)
        (max ps (s.field .speedGauge c.val 16 12)) ps := gaugeWindowEnd_reg s h n
    have hps : ps < 2 ^ 12 := s.gaugeReading_lt n
    have htop : max ps (s.field .speedGauge c.val 16 12) < 2 ^ 12 := max_lt hps (s.field_lt ..)
    refine ⟨_, exec_gaugeWindowEnd s c n, ?_, ?_, ?_, ?_, ?_, fun d hd => ?_, fun ha ho => ?_, fun hquiet a d ha => ?_,
      fun a d ha he => ?_, ?_⟩
    · rw [State.field, hreg, gaugeWord_stagePs htop hps]
    · rw [State.field, hreg, gaugeWord_maxPs htop hps]
    · rw [State.bit, hreg, gaugeWord_valid htop hps]
    · rw [State.bit, hreg, gaugeWord_over htop hps]
    · exact (gaugeWindowEnd_cav s h n c.val).trans (writeGauge_cav_self s c.val _ above)
    · exact (gaugeWindowEnd_cav s h n d).trans (writeGauge_cav_ne s c.val _ above hd)
    · rw [gaugeWindowEnd_of_running s h, if_pos ⟨ha, ho⟩]
      exact raiseEvent_pending _ (n := 12) (by decide)
    · rw [gaugeWindowEnd_of_quiet s h hquiet, writeGauge_other s c.val _ _ ha]
    · exact (hkept a d List.not_mem_nil he).trans (writeGauge_other s c.val _ above (List.ne_of_not_mem_cons ha) d)
    · exact (besideFlags_of_cavs hbeside s.cavs).trans (writeGauge_besideCavs s c.val _ above)
  · have hopen : s.reach (RegKind.speedGaugeCtrl.addr 0) = .open := s.reach_open hs (by decide) (by decide)
    refine ⟨gaugeMaxClear s, ?_, fun c hc => ⟨?_, ?_, ?_⟩, fun a d ha => gaugeMaxClear_other s ha d, gaugeMaxClear_frame s⟩
    · rw [exec_gaugeMaxClr, hostCommand_open s hopen]
    · rw [State.field, gaugeMaxClear_reg s hc, putField_field_of_disjoint _ _ (by decide), State.field]
    · rw [State.field, gaugeMaxClear_reg s hc, putField_field_of_disjoint _ _ (by decide), State.field]
    · rw [State.field, gaugeMaxClear_reg s hc, putField_field _ _ (by decide), Nat.mod_eq_of_lt (clearedMax_lt s c), State.clearedMax]
  · have hpct : pct.val < 2 ^ 7 := by omega
    rw [exec_loadWindowEnd, loadWindow_of_running s hs]
    refine ⟨_, rfl, ?_, ?_, fun a d ha => ?_, rfl⟩
    · rw [State.setField_field_of_disjoint _ _ _ _ (by decide), State.setField_field _ _ _ _ (by decide), Nat.mod_eq_of_lt hpct]
    · rw [State.setField_field _ _ _ _ (by decide), Nat.mod_eq_of_lt (max_lt hpct (s.field_lt ..))]
    · rw [State.setField_other _ _ _ _ ha, State.setField_other _ _ _ _ ha]
  · have hopen : s.reach (RegKind.loadPct.addr 0) = .open := s.reach_open hs (by decide) (by decide)
    rw [exec_loadPeakClr, hostCommand_open s hopen]
    refine ⟨_, rfl, ?_, ?_, fun a d ha => s.setField_other _ _ _ ha d, rfl⟩
    · exact s.setField_field_of_disjoint _ _ _ (by decide)
    · exact s.setField_field _ _ _ (by decide)

end

section
/-! SUPPORT. Pockets (06_pockets): the commands, what a freeze and a write of rows leave alone, and what a restore does (R134). -/

namespace Sys2Proof.Machine

variable (s : State)

/-! ### The commands -/

theorem exec_pocketPortAccess (id : PocketId) (port : PocketPort) :
    exec (.pocketPortAccess id port) s = .next (pocketPortAccess id port s) := rfl

theorem exec_pocketHaulBlockAccess (id : PocketId) (blk : Fin 64) (op : BlockOp) :
    exec (.pocketHaulBlockAccess id blk op) s = .next (pocketHaulBlockAccess id blk op s) := rfl

theorem exec_pocketRestore : exec .pocketRestore s = .next (pocketRestore s) := rfl

/-! ### The numbers of Pockets (06_pockets R118) -/

theorem pocketNumber_div (id : PocketId) : (id.cav.val * 112 + id.idx.val) / 112 = id.cav.val := by omega

theorem pocketNumber_mod (id : PocketId) : (id.cav.val * 112 + id.idx.val) % 112 = id.idx.val := by omega

/-! ### What a freeze leaves alone -/

/-- A state without all that a freeze may change: the caverns, the fault log, and what `State.freezeBase` leaves out. -/
def State.freezeFrame : State := { s with cavs := [], flog := State.reset.flog }.freezeBase

theorem freezeFrame_of_besideFlags {s t : State} (h : besideFlags t = besideFlags s) : t.freezeFrame = s.freezeFrame :=
  (congrArg State.freezeFrame h :)

@[simp] theorem freezeCav_freezeFrame (c fpocket code inst : Nat) : (freezeCav c fpocket code inst s).freezeFrame = s.freezeFrame := by
  obtain ⟨_, hbase, -⟩ := freezeCav_freezeBase s c fpocket code inst
  exact (congrArg State.freezeFrame hbase :)

/-- The cavern frozen, with its source where it was not frozen already (01_architecture R28). -/
theorem freezeCav_cav (c fpocket code inst : Nat) : ((freezeCav c fpocket code inst s).cav c).freeze = true ∧
    ((s.cav c).freeze = false → ((freezeCav c fpocket code inst s).cav c).fpocket = BitVec.ofNat 8 fpocket) := by
  obtain ⟨cavs, hbase, hfreeze, hsource, -⟩ := freezeCav_freezeBase s c fpocket code inst
  have hcavs : (freezeCav c fpocket code inst s).cavs = cavs := (congrArg State.cavs hbase :)
  rw [State.cav, hcavs]
  exact ⟨hfreeze, hsource⟩

/-- The same after flags and counters, which leave the caverns alone. -/
theorem freezeCav_cav_of_besideFlags {s t : State} (h : besideFlags t = besideFlags s) (c fpocket code inst : Nat) :
    ((freezeCav c fpocket code inst t).cav c).freeze = true ∧
      ((s.cav c).freeze = false → ((freezeCav c fpocket code inst t).cav c).fpocket = BitVec.ofNat 8 fpocket) := by
  obtain ⟨hfreeze, hsource⟩ := freezeCav_cav t c fpocket code inst
  have hcav : t.cav c = s.cav c := (congrArg (fun u : State => u.cav c) h :)
  exact ⟨hfreeze, fun hs => hsource (by rwa [hcav])⟩

@[simp] theorem freezeCav_pockets (c fpocket code inst : Nat) : (freezeCav c fpocket code inst s).pockets = s.pockets :=
  (congrArg State.pockets (freezeCav_freezeFrame s c fpocket code inst) :)

/-! ### Rows -/

@[simp] theorem State.setRow_rows (pk r v : Nat) :
    (s.setRow pk r v).pockets.rows = tabSet 0 s.pockets.rows (pk * 1024 + r) (BitVec.ofNat 72 v) := rfl

/-- What a table reads as once only the entries of some keys are left. -/
theorem tabGet_filter {α : Type} (d : α) (p : Nat → Bool) (t : Tab α) (j : Nat) :
    tabGet d (t.filter fun e => p e.1) j = if p j then tabGet d t j else d := by
  induction t with
  | nil => simp
  | cons e t ih =>
    by_cases hj : e.1 = j
    · subst hj
      cases hp : p e.1 <;> simp [hp, ih]
    · cases hp : p e.1 <;> simp [hp, hj, ih]

/-- A state without the Pockets' rows. -/
def State.besideRows : State := { s with pockets := { s.pockets with rows := [] } }

/-- From `s` to `t` nothing but rows of one Pocket has changed. -/
def RowsOnly (pk : Nat) (s t : State) : Prop :=
  t.besideRows = s.besideRows ∧ ∀ r, r / 1024 ≠ pk → tabGet 0 t.pockets.rows r = tabGet 0 s.pockets.rows r

variable {s}

theorem RowsOnly.refl (pk : Nat) : RowsOnly pk s s := ⟨rfl, fun _ _ => rfl⟩

theorem RowsOnly.trans {pk : Nat} {t u : State} (h : RowsOnly pk s t) (h' : RowsOnly pk t u) : RowsOnly pk s u := by
  obtain ⟨hbeside, hrows⟩ := h
  obtain ⟨hbeside', hrows'⟩ := h'
  exact ⟨hbeside'.trans hbeside, fun r hr => (hrows' r hr).trans (hrows r hr)⟩

theorem rowsOnly_foldl {α : Type} {pk : Nat} {g : State → α → State} (hg : ∀ s x, RowsOnly pk s (g s x)) (l : List α) (s : State) :
    RowsOnly pk s (l.foldl g s) := by
  induction l generalizing s with
  | nil => exact .refl pk
  | cons x l ih => exact (hg s x).trans (ih _)

variable (s)

theorem setRow_rowsOnly {pk r : Nat} (hr : r < 1024) (v : Nat) : RowsOnly pk s (s.setRow pk r v) :=
  ⟨rfl, fun i hi => by rw [State.setRow_rows, tabGet_tabSet, if_neg (by omega)]⟩

theorem pocketClear_rowsOnly (pk : Nat) : RowsOnly pk s (pocketClear pk s) :=
  ⟨rfl, fun r hr => (tabGet_filter 0 (fun k => k / 1024 ≠ pk) s.pockets.rows r).trans (by simp [hr])⟩

/-- Every row of a cleared Pocket is zero. -/
theorem pocketClear_row {pk r : Nat} (hr : r / 1024 = pk) : tabGet 0 (pocketClear pk s).pockets.rows r = 0 :=
  (tabGet_filter 0 (fun k => k / 1024 ≠ pk) s.pockets.rows r).trans (by simp [hr])

theorem pocketContent_rowsOnly (pk minor : Nat) (ws : List Word) : RowsOnly pk s (pocketContent pk minor ws s) := by
  unfold pocketContent
  refine rowsOnly_foldl (fun u j => ?_) _ s
  dsimp only
  split
  · exact .refl pk
  · next h => exact setRow_rowsOnly u (by omega) _

/-! ### Restores (06_pockets R134) -/

/-- A state with another list of Pockets that await a restore. -/
def State.withRestoring (pks : List Nat) : State := { s with pockets := { s.pockets with restoring := pks } }

/-- The frames of a Pocket's initial contents in the image store. -/
def State.storedFrames (pk : Nat) : List (Nat × Nat) :=
  match (tabGet {} s.pockets.info pk).source with
  | .store fr => fr
  | _ => []

/-- The CRC of a Pocket's initial contents as they stand in the store. -/
def State.storedCrc (pk : Nat) : Word := crc32c ((s.storedFrames pk).flatMap fun f => storeFrame s.conf.store f.2)

/-- A Pocket cleared and filled again from the store. -/
def State.refilled (pk : Nat) : State :=
  (s.storedFrames pk).foldl (fun u f => pocketContent pk f.1 (storeFrame s.conf.store f.2) u) (pocketClear pk s)

theorem refilled_rowsOnly (pk : Nat) : RowsOnly pk s (s.refilled pk) :=
  have hfill (u : State) (f : Nat × Nat) : RowsOnly pk u (pocketContent pk f.1 (storeFrame s.conf.store f.2) u) :=
    pocketContent_rowsOnly u pk f.1 _
  (pocketClear_rowsOnly s pk).trans (rowsOnly_foldl hfill _ _)

/-- Steps that do not ask which Pockets await a restore. -/
theorem foldl_withRestoring {α : Type} {g : State → α → State} {pks : List Nat}
    (hg : ∀ u x, g (u.withRestoring pks) x = (g u x).withRestoring pks) (l : List α) :
    l.foldl g (s.withRestoring pks) = (l.foldl g s).withRestoring pks :=
  List.foldl_hom (fun u : State => u.withRestoring pks) hg

/-- Frames fill the same rows whatever Pockets await a restore. -/
theorem pocketContent_withRestoring (pk minor : Nat) (ws : List Word) (pks : List Nat) :
    pocketContent pk minor ws (s.withRestoring pks) = (pocketContent pk minor ws s).withRestoring pks := by
  have hset (u : State) (r v : Nat) : (u.withRestoring pks).setRow pk r v = (u.setRow pk r v).withRestoring pks := rfl
  have hrow (u : State) (r : Nat) : (u.withRestoring pks).row pk r = u.row pk r := rfl
  have hcfg : (s.withRestoring pks).cfg = s.cfg := rfl
  unfold pocketContent
  rw [hcfg]
  refine foldl_withRestoring s (fun u j => ?_) _
  simp only [hset, hrow]
  split
  · rfl
  · rfl

variable {s}

theorem pocketRestore_of_idle (h : s.pockets.restoring = [] ∨ s.storeLoading = true ∨ s.loading = true) : pocketRestore s = s := by
  unfold pocketRestore
  split
  · rfl
  · next hw => exact if_pos (h.resolve_left (by simp [hw]))

/-- A restore fills the first waiting Pocket again, and freezes its cavern where the CRC is another. -/
theorem pocketRestore_of_waiting {pk : Nat} {rest : List Nat} (hw : s.pockets.restoring = pk :: rest)
    (hstore : s.storeLoading = false) (hload : s.loading = false) : pocketRestore s =
      if s.storedCrc pk = (tabGet {} s.pockets.info pk).crc then (s.refilled pk).withRestoring rest
      else freezeCav (pk / 112) 0xFF 0x0C (pk / 112 * 256 + pk % 112) ((s.refilled pk).withRestoring rest) := by
  have hfill : (((s.storedFrames pk).map fun f => (f.1, storeFrame s.conf.store f.2)).foldl (fun u f => pocketContent pk f.1 f.2 u)
      ((pocketClear pk s).withRestoring rest)) = (s.refilled pk).withRestoring rest := by
    rw [foldl_withRestoring _ fun u f => pocketContent_withRestoring u pk f.1 f.2 rest, List.foldl_map]
    rfl
  have hcrc : ((s.storedFrames pk).map fun f => (f.1, storeFrame s.conf.store f.2)).flatMap (·.2) =
      (s.storedFrames pk).flatMap fun f => storeFrame s.conf.store f.2 := List.flatMap_map ..
  rw [← hfill, State.storedCrc, ← hcrc]
  simp only [pocketRestore, hw, hstore, hload, Bool.false_eq_true, or_self, if_false]
  rfl

/-- The entry that a restore with another CRC leaves in a fault log within its bound, for a Pocket of the device. -/
theorem logged_of_restore {t : State} {pk : Nat} (hlen : s.flog.entries.length ≤ 64) (hpk : pk < 4480)
    (ht : t.flog = s.flog.after 0x0C (pk / 112 * 256 + pk % 112) s.clocks.stamp) :
    Logged (word (0x0C000000 + pk / 112 * 256 + pk % 112)) s t := by
  have hword : place 24 8 0x0C + place 0 24 (pk / 112 * 256 + pk % 112) = 0x0C000000 + pk / 112 * 256 + pk % 112 := by
    have hinst : place 0 24 (pk / 112 * 256 + pk % 112) = pk / 112 * 256 + pk % 112 := by
      rw [place, Nat.shiftLeft_zero, Nat.mod_eq_of_lt (by omega)]
    have hcode : place 24 8 0x0C = 0x0C000000 := by decide
    omega
  rw [← hword]
  exact logged_of_after hlen ht

/-- Pocket 0.0 awaits a restore of contents whose CRC is not that of the store, and the fault log holds 65 entries. -/
def overlongRestore : State :=
  { State.reset with
    power := { State.reset.power with mode := .run, held := false }
    conf := { State.reset.conf with started := true }
    pockets := { State.reset.pockets with restoring := [0], info := [(0, { crc := 7 })] }
    flog := { entries := List.replicate 65 (0, 0), next := 65 } }

theorem overlongRestore_waits : overlongRestore.storeLoading = false ∧ overlongRestore.loading = false ∧
    overlongRestore.storedCrc 0 ≠ (tabGet {} overlongRestore.pockets.info 0).crc := by
  decide +kernel

end Sys2Proof.Machine
end

section
/-! The statement about restores of Pockets. As for cells and latches, what is true stands before the refutation: a restore with another CRC
places its entry among the 64 of the fault log (18_self_test_faults R454) where the logs are within their bounds. -/

open Sys2Proof Sys2Proof.Machine

/-- O17 where the logs are within their bounds and the Pockets that await a restore are the device's: `pocketRestore_of_waiting` gives the
state, of which the rows are those filled again and the rest is as it was. -/
theorem pocketRestore_of_logsBounded :
    ∀ s : State, LogsBounded s → (∀ pk ∈ s.pockets.restoring, pk < 4480) →
      (s.pockets.restoring = [] ∨ s.storeLoading = true ∨ s.loading = true → exec .pocketRestore s = .next s) ∧
      ∀ pk rest, s.pockets.restoring = pk :: rest → s.storeLoading = false → s.loading = false →
        let frames := match (tabGet {} s.pockets.info pk).source with | .store fr => fr | _ => []
        let crc := crc32c (frames.flatMap fun f => storeFrame s.conf.store f.2)
        let filled := frames.foldl (fun u f => pocketContent pk f.1 (storeFrame s.conf.store f.2) u) (pocketClear pk s)
        ∃ t, exec .pocketRestore s = .next t ∧ t.pockets.restoring = rest ∧
          (∀ r, r / 1024 ≠ pk → tabGet 0 t.pockets.rows r = tabGet 0 s.pockets.rows r) ∧
          (∀ r, r / 1024 = pk → tabGet 0 t.pockets.rows r = tabGet 0 filled.pockets.rows r) ∧
          (frames = [] → ∀ r, r / 1024 = pk → tabGet 0 t.pockets.rows r = 0) ∧
          (crc = (tabGet {} s.pockets.info pk).crc →
            { t with pockets := { t.pockets with rows := s.pockets.rows } } =
              { s with pockets := { s.pockets with restoring := rest } }) ∧
          (crc ≠ (tabGet {} s.pockets.info pk).crc →
            (t.cav (pk / 112)).freeze = true ∧
            ((s.cav (pk / 112)).freeze = false → (t.cav (pk / 112)).fpocket = 0xFF) ∧
            Logged (word (0x0C000000 + pk / 112 * 256 + pk % 112)) s t) := by
  intro s hlogs hpks
  refine ⟨fun h => (exec_pocketRestore s).trans (congrArg _ (pocketRestore_of_idle h)), ?_⟩
  intro pk rest hw hstore hload frames crc filled
  have hpk : pk < 4480 := hpks pk (by rw [hw]; exact List.mem_cons_self)
  obtain ⟨hbeside, hothers⟩ := refilled_rowsOnly s pk
  let done := (s.refilled pk).withRestoring rest
  have hrestore := pocketRestore_of_waiting hw hstore hload
  have hpockets : (pocketRestore s).pockets = done.pockets := by
    rw [hrestore]
    split
    · rfl
    · exact freezeCav_pockets ..
  have hempty (hf : frames = []) (r : Nat) (hr : r / 1024 = pk) : tabGet 0 done.pockets.rows r = 0 := by
    have hclear : filled = pocketClear pk s := by
      unfold filled
      rw [hf]
      rfl
    exact (congrArg (fun u : State => tabGet 0 u.pockets.rows r) hclear).trans (pocketClear_row s hr)
  refine ⟨_, exec_pocketRestore s, ?_, ?_, ?_, ?_, fun hcrc => ?_, fun hcrc => ?_⟩
  · rw [hpockets]
    rfl
  · rw [hpockets]
    exact hothers
  · rw [hpockets]
    exact fun r hr => rfl
  · rw [hpockets]
    exact hempty
  · have hdone : pocketRestore s = done := hrestore.trans (if_pos hcrc)
    rw [hdone]
    exact (congrArg (fun u : State => { u with pockets := { u.pockets with rows := s.pockets.rows, restoring := rest } }) hbeside :)
  · have hfrozen : pocketRestore s = freezeCav (pk / 112) 0xFF 0x0C (pk / 112 * 256 + pk % 112) done := hrestore.trans (if_neg hcrc)
    rw [hfrozen]
    obtain ⟨hfreeze, hsource⟩ := freezeCav_cav done (pk / 112) 0xFF 0x0C (pk / 112 * 256 + pk % 112)
    have hcavs : done.cavs = s.cavs := (congrArg State.cavs hbeside :)
    have hflog : done.flog = s.flog := (congrArg State.flog hbeside :)
    have hclocks : done.clocks = s.clocks := (congrArg State.clocks hbeside :)
    refine ⟨hfreeze, fun hs => hsource ?_, logged_of_restore hlogs.1 hpk ?_⟩
    · rw [State.cav, hcavs]
      exact hs
    · rw [freezeCav_flog, hflog, hclocks]

/-- Refutes O17: with a fault log of 65 entries, the entry of a restore whose contents fail their CRC stands past the 64. -/
theorem not_pocketRestore : ¬ Obligations.PocketRestore := by
  unfold Obligations.PocketRestore
  intro h
  obtain ⟨hstore, hload, hcrc⟩ := overlongRestore_waits
  obtain ⟨-, hcases⟩ := h overlongRestore
  obtain ⟨t, ht, -, -, -, -, -, hfails⟩ := hcases 0 [] rfl hstore hload
  obtain ⟨-, -, hlogged⟩ := hfails hcrc
  rw [exec_pocketRestore, pocketRestore_of_waiting rfl hstore hload, if_neg hcrc, Host.Outcome.next.injEq] at ht
  obtain ⟨hbeside, -⟩ := refilled_rowsOnly overlongRestore 0
  have hflog : ((overlongRestore.refilled 0).withRestoring []).flog = overlongRestore.flog := (congrArg State.flog hbeside :)
  have hclocks : ((overlongRestore.refilled 0).withRestoring []).clocks = overlongRestore.clocks := (congrArg State.clocks hbeside :)
  have hafter := freezeCav_flog ((overlongRestore.refilled 0).withRestoring []) (0 / 112) 0xFF 0x0C (0 / 112 * 256 + 0 % 112)
  rw [ht, hflog, hclocks] at hafter
  exact not_logged_of_overlong rfl hafter (by decide) hlogged

end

section
/-! SUPPORT. Block accesses of a Pocket's port B on the haul road (06_pockets R129, R130): what counting the errors of the rows read leaves
alone, each answer with its state, and the rows that a write changes. -/

namespace Sys2Proof.Machine

variable (s : State)

/-! ### Errors counted (06_pockets R123) -/

@[simp] theorem flagPocket_besideFlags (b : Nat) : besideFlags (flagPocket b s) = besideFlags s := setFlags_besideFlags s _ _ _ _ _

@[simp] theorem countPocketCorr_besideFlags : besideFlags (countPocketCorr s) = besideFlags s :=
  (flagPocket_besideFlags _ 0).trans (countStat_besideFlags s fun t => flagPocket_besideFlags t 2)

@[simp] theorem countPocketUncorr_besideFlags : besideFlags (countPocketUncorr s) = besideFlags s :=
  (flagPocket_besideFlags _ 1).trans (countStat_besideFlags s fun t => flagPocket_besideFlags t 2)

/-- An error of a row counted. -/
def countRow (r : EccRead) : State :=
  match r with
  | .corrected _ => countPocketCorr s
  | .uncorrectable => countPocketUncorr s
  | .good _ => s

theorem countRow_besideFlags (r : EccRead) : besideFlags (countRow s r) = besideFlags s := by
  cases r with
  | good _ => rfl
  | corrected _ => exact countPocketCorr_besideFlags s
  | uncorrectable => exact countPocketUncorr_besideFlags s

theorem foldl_countRow_besideFlags (rs : List EccRead) : besideFlags (rs.foldl countRow s) = besideFlags s := by
  induction rs generalizing s with
  | nil => rfl
  | cons r rs ih => exact (ih _).trans (countRow_besideFlags s r)

theorem countRows_eq (pk : Nat) (rs : List EccRead) : countRows pk rs s =
    if rs.any (· = .uncorrectable) then
      freezeCav (pk / 112) (pk % 112) 0x01 (pk / 112 * 256 + pk % 112) (rs.foldl countRow s)
    else rs.foldl countRow s := rfl

@[simp] theorem countRows_freezeFrame (pk : Nat) (rs : List EccRead) : (countRows pk rs s).freezeFrame = s.freezeFrame := by
  have hcount := freezeFrame_of_besideFlags (foldl_countRow_besideFlags s rs)
  rw [countRows_eq]
  split
  · exact (freezeCav_freezeFrame _ _ _ _ _).trans hcount
  · exact hcount

@[simp] theorem countRows_pockets (pk : Nat) (rs : List EccRead) : (countRows pk rs s).pockets = s.pockets :=
  (congrArg State.pockets (countRows_freezeFrame s pk rs) :)

/-- An uncorrectable row among those read freezes the cavern with the Pocket's index (06_pockets R123). -/
theorem countRows_cav (pk : Nat) {rs : List EccRead} (h : rs.any (· = .uncorrectable) = true) :
    ((countRows pk rs s).cav (pk / 112)).freeze = true ∧
      ((s.cav (pk / 112)).freeze = false → ((countRows pk rs s).cav (pk / 112)).fpocket = BitVec.ofNat 8 (pk % 112)) := by
  rw [countRows_eq, if_pos h]
  exact freezeCav_cav_of_besideFlags (foldl_countRow_besideFlags s rs) _ _ _ _

/-! ### The answers -/

/-- What the SYS side of the port keeps of an answer: nothing of one that waits (06_pockets R130). -/
def BlockAnswer.kept : BlockAnswer → Option BlockRes
  | .data d => some { data := d }
  | .done => some {}
  | .noPort => some { err := 4 }
  | .isolated => some { err := 7, terr := 1 }
  | .readOnly => some { err := 7, terr := 2 }
  | .uncorr => some { err := 7, terr := 3 }
  | .waits => none

/-- A state with an answer kept. -/
def State.answered (pk : Nat) (a : BlockAnswer) : State :=
  match a.kept with
  | some v => { s with pockets := { s.pockets with blocks := tabSet {} s.pockets.blocks pk v } }
  | none => s

@[simp] theorem State.answered_rows (pk : Nat) (a : BlockAnswer) : (s.answered pk a).pockets.rows = s.pockets.rows := by
  cases a <;> rfl

@[simp] theorem State.answered_cav (pk : Nat) (a : BlockAnswer) (c : Nat) : (s.answered pk a).cav c = s.cav c := by
  cases a <;> rfl

/-- A state without the Pockets and without what a freeze may touch. -/
def State.besidePockets : State := { s with pockets := State.reset.pockets }.freezeFrame

@[simp] theorem State.answered_besidePockets (pk : Nat) (a : BlockAnswer) : (s.answered pk a).besidePockets = s.besidePockets := by
  cases a <;> rfl

theorem State.answered_block {pk : Nat} {a : BlockAnswer} {v : BlockRes} (h : a.kept = some v) :
    tabGet {} (s.answered pk a).pockets.blocks pk = v := by
  simp [State.answered, h]

theorem State.answered_block_ne {pk q : Nat} (hq : q ≠ pk) (a : BlockAnswer) :
    tabGet {} (s.answered pk a).pockets.blocks q = tabGet {} s.pockets.blocks q := by
  cases h : a.kept <;> simp [State.answered, h, hq.symm]

theorem pocketHaulBlockAccess_of_stopped {s : State} (h : s.sysRuns = false) (id : PocketId) (blk : Fin 64) (op : BlockOp) :
    pocketHaulBlockAccess id blk op s = s := by
  simp [pocketHaulBlockAccess, h]

theorem pocketHaulBlockAccess_of_running {s t : State} (h : s.sysRuns = true) {id : PocketId} {blk : Fin 64} {op : BlockOp}
    {a : BlockAnswer} (ha : pocketBlock (id.cav.val * 112 + id.idx.val) blk.val op s = (a, t)) :
    pocketHaulBlockAccess id blk op s = t.answered (id.cav.val * 112 + id.idx.val) a := by
  simp only [pocketHaulBlockAccess, h, ha, if_true]
  cases a <;> rfl

/-- What stands after an access that is not left waiting: the answer, and the rows and caverns of its state. -/
theorem pocketHaulBlockAccess_kept {s t : State} (h : s.sysRuns = true) {id : PocketId} {blk : Fin 64} {op : BlockOp}
    {a : BlockAnswer} (ha : pocketBlock (id.cav.val * 112 + id.idx.val) blk.val op s = (a, t)) {v : BlockRes} (hv : a.kept = some v) :
    tabGet {} (pocketHaulBlockAccess id blk op s).pockets.blocks (id.cav.val * 112 + id.idx.val) = v ∧
      (pocketHaulBlockAccess id blk op s).pockets.rows = t.pockets.rows ∧
      ∀ c, (pocketHaulBlockAccess id blk op s).cav c = t.cav c := by
  rw [pocketHaulBlockAccess_of_running h ha]
  exact ⟨State.answered_block t hv, State.answered_rows t _ a, State.answered_cav t _ a⟩

/-! ### The cases of a block access (06_pockets R130) -/

/-- What a read of a block finds in its sixteen rows. -/
def State.blockReads (pk blk : Nat) : List EccRead :=
  (List.range 16).map fun j => rowBytes (pocketProt s.cfg pk) (s.row pk (16 * blk + j))

/-- The enables of the eight bytes of a row of a block. -/
def rowEnable (en : BitVec 128) (j : Nat) : Nat := bitsOf (8 * j) 8 en.toNat

/-- What a write of a block finds in the rows that it reads first: the ECC rows that it covers in part (06_pockets R129). -/
def State.partReads (pk blk : Nat) (en : BitVec 128) : List EccRead :=
  ((List.range 16).filter fun j => pocketProt s.cfg pk = 2 ∧ rowEnable en j ≠ 0 ∧ rowEnable en j ≠ 255).map fun j =>
    eccDecode (s.row pk (16 * blk + j))

/-- Row `j` of a block after a write of its enabled bytes. -/
def writtenRow (prot row : Nat) (data : BitVec 1024) (en : BitVec 128) (j : Nat) : Nat :=
  rowWrite prot row (mergeBytes (rowBytes prot row).bytes (bitsOf (64 * j) 64 data.toNat) (rowEnable en j)) (rowEnable en j)

/-- The state with row `j` of a block written, where a byte of it is enabled. -/
def State.writeBlockRow (prot pk blk : Nat) (data : BitVec 1024) (en : BitVec 128) (j : Nat) : State :=
  if rowEnable en j = 0 then s else s.setRow pk (16 * blk + j) (writtenRow prot (s.row pk (16 * blk + j)) data en j)

/-- The state with all rows of a block written. -/
def State.writeBlock (pk blk : Nat) (data : BitVec 1024) (en : BitVec 128) : State :=
  (List.range 16).foldl (fun u j => u.writeBlockRow (pocketProt s.cfg pk) pk blk data en j) s

variable {s} {pk blk : Nat} {op : BlockOp}

theorem pocketBlock_of_off (h : pocketBits s.cfg (pk / 112) (pk % 112) 6 1 ≠ 1) : pocketBlock pk blk op s = (.noPort, s) := by
  have hbit : pocketBits s.cfg (pk / 112) (pk % 112) 6 1 < 2 ^ 1 := Nat.mod_lt _ (by decide)
  exact if_pos (by omega)

section
variable (hon : pocketBits s.cfg (pk / 112) (pk % 112) 6 1 = 1)
include hon

theorem pocketBlock_of_isolated (h : s.isolated (pk / 112) = true) : pocketBlock pk blk op s = (.isolated, s) :=
  (if_neg (by omega)).trans (if_pos h)

variable (hopen : s.isolated (pk / 112) = false)
include hopen

theorem pocketBlock_of_restoring (h : s.pockets.restoring.contains pk = true) : pocketBlock pk blk op s = (.waits, s) :=
  (if_neg (by omega)).trans ((if_neg (by simp [hopen])).trans (if_pos h))

variable (hready : s.pockets.restoring.contains pk = false)
include hready

theorem pocketBlock_of_read : pocketBlock pk blk .read s =
    (if (s.blockReads pk blk).any (· = .uncorrectable) then .uncorr
      else .data ((s.blockReads pk blk).foldr (fun r n => r.bytes + 2 ^ 64 * n) 0),
     countRows pk (s.blockReads pk blk) s) := by
  have hreads : ((List.range 16).map (16 * blk + ·)).map (fun r => rowBytes (pocketProt s.cfg pk) (s.row pk r)) = s.blockReads pk blk :=
    List.map_map
  simp only [pocketBlock, hon, hopen, hready, hreads, one_ne_zero, Bool.false_eq_true, if_false]
  split
  · rfl
  · rfl

theorem pocketBlock_of_readOnly (h : pocketBits s.cfg (pk / 112) (pk % 112) 14 1 = 1) (data : BitVec 1024) (en : BitVec 128) :
    pocketBlock pk blk (.write data en) s = (.readOnly, s) := by
  simp only [pocketBlock, hon, hopen, hready, h, one_ne_zero, Bool.false_eq_true, if_false, if_true]

theorem pocketBlock_of_write (h : pocketBits s.cfg (pk / 112) (pk % 112) 14 1 = 0) (data : BitVec 1024) (en : BitVec 128) :
    pocketBlock pk blk (.write data en) s =
      if (s.partReads pk blk en).any (· = .uncorrectable) then (.uncorr, countRows pk (s.partReads pk blk en) s)
      else (.done, countRows pk (s.partReads pk blk en) (s.writeBlock pk blk data en)) := by
  have hparts : (((List.range 16).map (16 * blk + ·)).map fun r =>
        (r, bitsOf (8 * (r % 16)) 8 en.toNat, bitsOf (64 * (r % 16)) 64 data.toNat)) =
      (List.range 16).map fun j => (16 * blk + j, rowEnable en j, bitsOf (64 * j) 64 data.toNat) := by
    rw [List.map_map]
    refine List.map_congr_left fun j hj => ?_
    have hmod : (16 * blk + j) % 16 = j := by
      have := List.mem_range.1 hj
      omega
    rw [Function.comp_apply, hmod, rowEnable]
  simp only [pocketBlock, hon, hopen, hready, h, one_ne_zero, zero_ne_one, Bool.false_eq_true, if_false, hparts, List.filter_map,
    List.map_map, List.foldl_map]
  rfl

end

theorem blockReads_any : (s.blockReads pk blk).any (· = .uncorrectable) = true ↔
    ∃ j, j < 16 ∧ rowBytes (pocketProt s.cfg pk) (s.row pk (16 * blk + j)) = .uncorrectable := by
  simp [State.blockReads]

theorem partReads_any {en : BitVec 128} : (s.partReads pk blk en).any (· = .uncorrectable) = true ↔
    ∃ j, j < 16 ∧ (pocketProt s.cfg pk = 2 ∧ rowEnable en j ≠ 0 ∧ rowEnable en j ≠ 255) ∧
      eccDecode (s.row pk (16 * blk + j)) = .uncorrectable := by
  simp only [State.partReads, List.any_map, List.any_eq_true, List.mem_filter, List.mem_range, Function.comp_apply, decide_eq_true_eq,
    and_assoc]

/-! ### The rows that a write changes (06_pockets R129) -/

/-- What row `j` of a block holds after a write. -/
def rowAfter (prot : Nat) (row : BitVec 72) (data : BitVec 1024) (en : BitVec 128) (j : Nat) : BitVec 72 :=
  if rowEnable en j = 0 then row else BitVec.ofNat 72 (writtenRow prot row.toNat data en j)

variable (s)

theorem writeBlockRow_row (prot pk blk : Nat) (data : BitVec 1024) (en : BitVec 128) (j r : Nat) :
    tabGet 0 (s.writeBlockRow prot pk blk data en j).pockets.rows r =
      if pk * 1024 + (16 * blk + j) = r then rowAfter prot (tabGet 0 s.pockets.rows r) data en j else tabGet 0 s.pockets.rows r := by
  unfold State.writeBlockRow rowAfter
  split
  · rw [ite_self]
  · rw [State.setRow_rows, tabGet_tabSet]
    split
    · next hr => rw [State.row, hr]
    · rfl

/-- The rows of a block written in order: each once, from what it held before. -/
theorem foldl_writeBlockRow_row (prot pk blk : Nat) (data : BitVec 1024) (en : BitVec 128) (r n : Nat) (hn : n ≤ 16) :
    tabGet 0 ((List.range n).foldl (fun u j => u.writeBlockRow prot pk blk data en j) s).pockets.rows r =
      if r / 16 = pk * 64 + blk ∧ r % 16 < n then rowAfter prot (tabGet 0 s.pockets.rows r) data en (r % 16)
      else tabGet 0 s.pockets.rows r := by
  induction n with
  | zero => simp
  | succ n ih =>
    rw [List.range_succ, List.foldl_append, List.foldl_cons, List.foldl_nil, writeBlockRow_row, ih (by omega)]
    by_cases hr : pk * 1024 + (16 * blk + n) = r
    · have hmod : r % 16 = n := by omega
      rw [if_pos hr, if_neg (by omega), if_pos (by omega), hmod]
    · rw [if_neg hr]
      refine if_congr ?_ rfl rfl
      omega

theorem writeBlock_row (pk blk : Nat) (data : BitVec 1024) (en : BitVec 128) (r : Nat) :
    tabGet 0 (s.writeBlock pk blk data en).pockets.rows r =
      if r / 16 = pk * 64 + blk then rowAfter (pocketProt s.cfg pk) (tabGet 0 s.pockets.rows r) data en (r % 16)
      else tabGet 0 s.pockets.rows r :=
  (foldl_writeBlockRow_row s _ pk blk data en r 16 le_rfl).trans (if_congr (by omega) rfl rfl)

/-- From `s` to `t` nothing has changed but rows of one block and what a freeze may touch. -/
def BlockOnly (pk blk : Nat) (s t : State) : Prop :=
  t.besideRows.freezeFrame = s.besideRows.freezeFrame ∧
    ∀ r, r / 16 ≠ pk * 64 + blk → tabGet 0 t.pockets.rows r = tabGet 0 s.pockets.rows r

theorem writeBlockRow_besideRows (prot pk blk : Nat) (data : BitVec 1024) (en : BitVec 128) (j : Nat) :
    (s.writeBlockRow prot pk blk data en j).besideRows = s.besideRows := by
  unfold State.writeBlockRow
  split
  · rfl
  · rfl

theorem foldl_writeBlockRow_besideRows (prot pk blk : Nat) (data : BitVec 1024) (en : BitVec 128) (js : List Nat) :
    (js.foldl (fun u j => u.writeBlockRow prot pk blk data en j) s).besideRows = s.besideRows := by
  induction js generalizing s with
  | nil => rfl
  | cons j js ih => exact (ih _).trans (writeBlockRow_besideRows s prot pk blk data en j)

theorem writeBlock_blockOnly (pk blk : Nat) (data : BitVec 1024) (en : BitVec 128) :
    BlockOnly pk blk s (s.writeBlock pk blk data en) :=
  ⟨congrArg State.freezeFrame (foldl_writeBlockRow_besideRows s _ pk blk data en _),
    fun r hr => (writeBlock_row s pk blk data en r).trans (if_neg hr)⟩

theorem blockOnly_refl (pk blk : Nat) : BlockOnly pk blk s s := ⟨rfl, fun _ _ => rfl⟩

/-- Counting the errors of the rows read, and the freeze, leave all rows alone. -/
theorem blockOnly_countRows {t : State} (h : BlockOnly pk blk s t) (rs : List EccRead) : BlockOnly pk blk s (countRows pk rs t) := by
  obtain ⟨hbeside, hrows⟩ := h
  refine ⟨?_, fun r hr => ?_⟩
  · exact (congrArg State.besideRows (countRows_freezeFrame t pk rs) :).trans hbeside
  · rw [countRows_pockets]
    exact hrows r hr

/-- A block access changes nothing but rows of its block and what a freeze may touch. -/
theorem pocketBlock_blockOnly (pk blk : Nat) (op : BlockOp) : BlockOnly pk blk s (pocketBlock pk blk op s).2 := by
  have hself := blockOnly_refl s pk blk
  by_cases hon : pocketBits s.cfg (pk / 112) (pk % 112) 6 1 = 1
  case neg =>
    rw [pocketBlock_of_off hon]
    exact hself
  cases hopen : s.isolated (pk / 112) with
  | true =>
    rw [pocketBlock_of_isolated hon hopen]
    exact hself
  | false =>
    cases hready : s.pockets.restoring.contains pk with
    | true =>
      rw [pocketBlock_of_restoring hon hopen hready]
      exact hself
    | false =>
      cases op with
      | read =>
        rw [pocketBlock_of_read hon hopen hready]
        exact blockOnly_countRows s hself _
      | write data en =>
        have hbit : pocketBits s.cfg (pk / 112) (pk % 112) 14 1 < 2 ^ 1 := Nat.mod_lt _ (by decide)
        obtain hw | hw : pocketBits s.cfg (pk / 112) (pk % 112) 14 1 = 1 ∨ pocketBits s.cfg (pk / 112) (pk % 112) 14 1 = 0 := by omega
        · rw [pocketBlock_of_readOnly hon hopen hready hw]
          exact hself
        · rw [pocketBlock_of_write hon hopen hready hw]
          split
          · exact blockOnly_countRows s hself _
          · exact blockOnly_countRows s (writeBlock_blockOnly s pk blk data en) _

end Sys2Proof.Machine
end

section
/-! The statement about block accesses of a Pocket's port B on the haul road. -/

open Sys2Proof Sys2Proof.Machine

/-- Settles O16: each condition names a case of `pocketBlock`, whose answer and state the port keeps; `pocketBlock_blockOnly` says what no
case changes. -/
theorem pocketBlockAccess : Obligations.PocketBlockAccess := by
  unfold Obligations.PocketBlockAccess
  intro id blk op s c pk prot row on
  refine ⟨fun h => congrArg _ (pocketHaulBlockAccess_of_stopped h id blk op), fun hruns => ?_⟩
  refine ⟨_, exec_pocketHaulBlockAccess s id blk op, ?_⟩
  intro res
  have hdiv : pk / 112 = c := pocketNumber_div id
  have hmod : pk % 112 = id.idx.val := pocketNumber_mod id
  have hbits (lo : Nat) : pocketBits s.cfg (pk / 112) (pk % 112) lo 1 = pocketBits s.cfg c id.idx.val lo 1 := by rw [hdiv, hmod]
  have hgate : s.isolated (pk / 112) = s.isolated c := by rw [hdiv]
  obtain ⟨hbeside, hothers⟩ := pocketBlock_blockOnly s pk blk.val op
  have haccess := pocketHaulBlockAccess_of_running (t := (pocketBlock pk blk.val op s).2) hruns (id := id) (blk := blk) (op := op) rfl
  have hframe : (pocketHaulBlockAccess id blk op s).besidePockets = s.besidePockets := by
    rw [haccess, State.answered_besidePockets]
    exact (congrArg State.besidePockets hbeside :)
  refine ⟨fun r hr => ?_, fun hoff => ?_, fun hon hiso => ?_, fun hon hopen hwaits => ?_, fun hon hopen hready => ?_, fun q hq => ?_,
    (congrArg State.cfg hframe :), (congrArg State.conf hframe :), (congrArg State.foreman hframe :), (congrArg State.lanes hframe :),
    (congrArg State.haul hframe :), (congrArg State.power hframe :)⟩
  · rw [haccess, State.answered_rows]
    exact hothers r hr
  · obtain ⟨hres, hrows, -⟩ := pocketHaulBlockAccess_kept hruns (pocketBlock_of_off (by rwa [hbits])) rfl
    exact ⟨hres, hrows⟩
  · obtain ⟨hres, hrows, -⟩ := pocketHaulBlockAccess_kept hruns (pocketBlock_of_isolated (by rwa [hbits]) (hgate.trans hiso)) rfl
    exact ⟨hres, hrows⟩
  · exact pocketHaulBlockAccess_of_running hruns (pocketBlock_of_restoring (by rwa [hbits]) (hgate.trans hopen) hwaits)
  · replace hon := (hbits 6).trans hon
    replace hopen := hgate.trans hopen
    refine ⟨?_, ?_, ?_, ?_, ?_⟩
    · rintro rfl
      rw [haccess, State.answered_rows, pocketBlock_of_read hon hopen hready, countRows_pockets]
    · rintro rfl hgood
      have hread := pocketBlock_of_read (blk := blk.val) hon hopen hready
      rw [if_neg fun h => (blockReads_any.1 h).elim fun j ⟨hj, hbad⟩ => hgood j hj hbad] at hread
      obtain ⟨hres, -, -⟩ := pocketHaulBlockAccess_kept hruns hread rfl
      exact hres.trans (by rw [State.blockReads, List.foldr_map])
    · rintro rfl hbad
      have hany := blockReads_any.2 hbad
      have hread := pocketBlock_of_read (blk := blk.val) hon hopen hready
      rw [if_pos hany] at hread
      obtain ⟨hres, -, hcav⟩ := pocketHaulBlockAccess_kept hruns hread rfl
      have hfrozen := countRows_cav s pk hany
      rw [hdiv, hmod] at hfrozen
      rw [hcav]
      exact ⟨hres, hfrozen⟩
    · rintro data en rfl hnowr
      obtain ⟨hres, hrows, -⟩ := pocketHaulBlockAccess_kept hruns
        (pocketBlock_of_readOnly hon hopen hready ((hbits 14).trans hnowr) data en) rfl
      exact ⟨hres, hrows⟩
    · rintro data en rfl hwr e partly
      have hwrite := pocketBlock_of_write (blk := blk.val) hon hopen hready ((hbits 14).trans hwr) data en
      refine ⟨fun hbad => ?_, fun hgood => ?_⟩
      · have hany := partReads_any.2 hbad
        rw [if_pos hany] at hwrite
        obtain ⟨hres, hrows, hcav⟩ := pocketHaulBlockAccess_kept hruns hwrite rfl
        obtain ⟨hfreeze, -⟩ := countRows_cav s pk hany
        rw [hdiv] at hfreeze
        rw [hrows, countRows_pockets, hcav]
        exact ⟨hres, rfl, hfreeze⟩
      · rw [if_neg fun h => (partReads_any.1 h).elim fun j ⟨hj, hpart, hbad⟩ => hgood j hj hpart hbad] at hwrite
        obtain ⟨hres, hrows, -⟩ := pocketHaulBlockAccess_kept hruns hwrite rfl
        refine ⟨hres, fun j hj => ?_⟩
        have hblock : (pk * 1024 + 16 * blk.val + j) / 16 = pk * 64 + blk.val := by omega
        have hrow : (pk * 1024 + 16 * blk.val + j) % 16 = j := by omega
        rw [hrows, countRows_pockets, writeBlock_row, if_pos hblock, hrow, rowAfter, Nat.add_assoc]
        rfl
  · rw [haccess, State.answered_block_ne _ hq]
    exact (congrArg (fun u : State => tabGet {} u.pockets.blocks q) hbeside :)

end

section
/-! SUPPORT. Accesses of a Pocket's handshake ports (06_pockets R126): the activity that one reports, the access that a command token and
the port's settings ask for, what serving it changes, and what it leaves alone. -/

namespace Sys2Proof.Machine

variable (s : State)

/-! ### Activity (16_power R381) -/

theorem wakeActivity_of_calm (h : s.power.mode ≠ .quiet) : wakeActivity s = s := if_neg h

theorem wakeActivity_ite : (if s.power.mode = .quiet then wakeActivity s else s) = wakeActivity s := by
  split
  · rfl
  · next h => exact (wakeActivity_of_calm s h).symm

theorem wakeActivity_mode (h : s.power.mode = .quiet) : (wakeActivity s).power.mode = .run := by
  rw [wakeActivity, if_pos h, enterMode_mode]

theorem wakeActivity_frame : besideFlags { wakeActivity s with power := s.power } = besideFlags s := by
  unfold wakeActivity
  split
  · have henter := enterMode_frame (commandVccf (s.field .pwrVccf 0 0 10) s) .run
    exact (congrArg (fun u : State => { u with power := s.power }) henter :).trans (congrArg besideFlags (commandVccf_frame s _))
  · rfl

/-- The end of QUIET writes `PWR_EVT` and what raising its event may write. -/
theorem wakeActivity_kept : RegsKept [RegKind.pwrEvt.addr 0] s (wakeActivity s) := by
  unfold wakeActivity enterMode
  have hvccf (mv : Nat) : RegsKept [RegKind.pwrEvt.addr 0] s (commandVccf mv s) := .ite _ (.refl s _) (.refl s _)
  refine RegsKept.ite s (RegsKept.ite s (hvccf _) ?_) (.refl s _)
  exact .trans (.same (hvccf _) rfl) (setFlags_kept _ _ (show 0 + 32 ≤ 384 by decide))

/-! ### The command taken -/

/-- The state once a port has taken its command token: the acknowledge is high, and QUIET has ended (06_pockets R126, 16_power R381). -/
def State.taken (att : Nat) : State := wakeActivity (s.setAttAck att true)

theorem State.taken_of_calm (att : Nat) (h : s.power.mode ≠ .quiet) : s.taken att = s.setAttAck att true :=
  wakeActivity_of_calm (s.setAttAck att true) h

theorem State.taken_mode (att : Nat) (h : s.power.mode = .quiet) : (s.taken att).power.mode = .run :=
  wakeActivity_mode (s.setAttAck att true) h

@[simp] theorem State.taken_fabric (att : Nat) : (s.taken att).fabric = (s.setAttAck att true).fabric :=
  (congrArg State.fabric (wakeActivity_frame (s.setAttAck att true)) :)

@[simp] theorem State.taken_pockets (att : Nat) : (s.taken att).pockets = s.pockets :=
  (congrArg State.pockets (wakeActivity_frame (s.setAttAck att true)) :)

theorem State.taken_storedKept (att : Nat) : StoredKept s (s.taken att) := by
  have hframe := wakeActivity_frame (s.setAttAck att true)
  exact ⟨(congrArg State.cfg hframe :), (congrArg (fun u : State => u.conf.store) hframe :),
    (congrArg (fun u : State => u.conf.otp) hframe :), (congrArg (fun u : State => u.foreman.ram) hframe :),
    (congrArg (fun u : State => u.pockets.rows) hframe :)⟩

theorem State.taken_attIn (att a : Nat) : (s.taken att).attIn a = s.attIn a := by
  rw [State.attIn, State.taken_fabric]
  rfl

theorem State.taken_row (att pk r : Nat) : (s.taken att).row pk r = s.row pk r := by
  rw [State.row, State.taken_pockets, State.row]

theorem State.taken_cav (att c : Nat) : (s.taken att).cav c = s.cav c :=
  (congrArg (fun u : State => u.cav c) (wakeActivity_frame (s.setAttAck att true)) :)

theorem State.taken_reg {k : RegKind} {i : Nat} (att : Nat) (h : k.addr i ∉ [RegKind.pwrEvt.addr 0])
    (he : eventRegister (k.addr i) = false) : (s.taken att).reg k i = s.reg k i :=
  (wakeActivity_kept (s.setAttAck att true)).reg h he

/-! ### The access asked for -/

/-- The number of a port (06_pockets R124). -/
def portNumber : PocketPort → Nat
  | .a => 0
  | .b => 1

/-- An access of a handshake port: the Pocket, the port, its channels, the row, whether the row is written and how a write is answered, the
value of the command, what the row holds after its write, and what it reads before. -/
structure PortAccess where
  pk : Nat
  port : Nat
  att : Nat
  row : Nat
  isWrite : Bool
  wrsp : Nat
  value : Nat
  written : Nat
  old : EccRead

/-- The access that a command token asks for under the settings in force (06_pockets R119, R126, R132). -/
def State.portAccess (id : PocketId) (p tok : Nat) : PortAccess :=
  let cav := id.cav.val
  let i := id.idx.val
  let pk := cav * 112 + i
  let prot := pocketProt s.cfg pk
  let w := wordPlace (pocketWidthCode s.cfg cav i p) (bitsOf 1 16 tok)
  { pk := pk, port := p, att := attPocket cav i p, row := w.1
    isWrite := bitAt 0 tok && !decide (pocketBits s.cfg cav i (13 + p) 1 = 1)
    wrsp := pocketBits s.cfg cav i (9 + 2 * p) 2, value := tok >>> 17
    written := writeWord prot (s.row pk w.1) w.2.1 w.2.2 (tok >>> 17)
    old := readWord prot (s.row pk w.1) w.2.1 w.2.2 }

/-- A write that is answered by the value written or by nothing: it reads no row (06_pockets R126). -/
def PortAccess.blind (a : PortAccess) : Prop := a.isWrite = true ∧ a.wrsp ≠ 2

theorem PortAccess.not_blind {a : PortAccess} (h : a.isWrite = false ∨ a.wrsp = 2) : ¬ a.blind := by
  rintro ⟨hwrite, hwrsp⟩
  exact h.elim (by simp [hwrite]) hwrsp

/-- A word offered on a port's response channel. -/
def State.offer (a : PortAccess) (d : Nat) : State := s.setAttIn a.att { val := d, ph := .offering }

/-- The row of an access written. -/
def State.putRow (a : PortAccess) : State := s.setRow a.pk a.row a.written

/-- A blind write, answered by its value where `WRSP` is 0b01. -/
def State.writeThrough (a : PortAccess) : State :=
  if a.wrsp = 1 then (s.putRow a).offer a a.value else s.putRow a

/-- The word read, offered, and the row written where the command is a write. -/
def State.readThrough (a : PortAccess) (d : Nat) : State :=
  (if a.isWrite then s.putRow a else s).offer a d

/-- An access served, once its command token is taken. -/
def State.served (a : PortAccess) : State :=
  if a.isWrite ∧ a.wrsp ≠ 2 then s.writeThrough a
  else match a.old with
    | .uncorrectable => pocketUncorr a.pk (blockPort a.pk a.port s)
    | .good d => s.readThrough a d
    | .corrected d => countPocketCorr (s.readThrough a d)

variable {s}

/-- The check that a port makes of its readiness. -/
theorem portReady_iff {cav i p : Nat} : PortReady s cav i p ↔
    (s.interiorLive cav && pocketWidthCode s.cfg cav i p ≠ 0 && !(tabGet {} s.pockets.ports ((cav * 112 + i) * 2 + p)).blocked &&
      (s.attIn (attPocket cav i p)).ph = .idle && !(s.pockets.restoring.contains (cav * 112 + i))) = true := by
  simp [PortReady, and_assoc]

/-- A port that is not ready, or has no token, does nothing. -/
theorem pocketPortAccess_of_idle {id : PocketId} {port : PocketPort}
    (h : ¬ (PortReady s id.cav.val id.idx.val (portNumber port) ∧
      (s.outToken (attPocket id.cav.val id.idx.val (portNumber port))).isSome = true)) :
    pocketPortAccess id port s = s := by
  unfold pocketPortAccess
  extract_lets cav i pk p att code ready
  split
  · next tok hready htok =>
    exact absurd ⟨portReady_iff.2 hready, Option.isSome_iff_exists.2 ⟨tok, htok⟩⟩ h
  · rfl

/-- A ready port takes its token and serves the access that it asks for. -/
theorem pocketPortAccess_of_ready {id : PocketId} {port : PocketPort} {tok : Nat}
    (h : PortReady s id.cav.val id.idx.val (portNumber port))
    (htok : s.outToken (attPocket id.cav.val id.idx.val (portNumber port)) = some tok) :
    pocketPortAccess id port s =
      (s.taken (attPocket id.cav.val id.idx.val (portNumber port))).served (s.portAccess id (portNumber port) tok) := by
  unfold pocketPortAccess
  extract_lets cav i pk p att code ready prot nowr wrsp raised u
  have hready : ready = true := portReady_iff.1 h
  have htoken : s.outToken att = some tok := htok
  have hu : u = s.taken att := wakeActivity_ite raised
  have hrow (r : Nat) : u.row pk r = s.row pk r := by rw [hu, State.taken_row]
  simp only [hready, htoken, hrow]
  rw [hu]
  rfl

theorem storedKept_trans {t u : State} (h : StoredKept s t) (h' : StoredKept t u) : StoredKept s u := by
  obtain ⟨hcfg, hstore, hotp, hram, hrows⟩ := h
  obtain ⟨hcfg', hstore', hotp', hram', hrows'⟩ := h'
  exact ⟨hcfg'.trans hcfg, hstore'.trans hstore, hotp'.trans hotp, hram'.trans hram, hrows'.trans hrows⟩

/-! ### What counting a corrected word and serving an access leaves alone -/

variable (s)

/-- The registers that a corrected word may write beside those of its event (19_events_counters R461). -/
def corrRegisters : List Nat := [RegKind.pocketCntCorr.addr 0, RegKind.pocketEvt.addr 0]

theorem flagPocket_kept (b : Nat) : RegsKept [RegKind.pocketEvt.addr 0] s (flagPocket b s) :=
  setFlags_kept s _ (show (if b = 0 then 10 else 11) < 384 by split <;> decide)

theorem countPocketCorr_kept : RegsKept corrRegisters s (countPocketCorr s) := by
  have hflag (b : Nat) (t : State) : RegsKept corrRegisters t (flagPocket b t) :=
    (flagPocket_kept t b).mono fun a ha => .inl (List.mem_cons_of_mem _ ha)
  exact (countStat_kept s List.mem_cons_self fun t => hflag 2 t).trans (hflag 0 _)

/-- A corrected word counts (06_pockets R123, 19_events_counters R467). -/
theorem countPocketCorr_reg (h : s.reg .pocketCntCorr 0 ≠ 0xFFFFFFFF) :
    (countPocketCorr s).reg .pocketCntCorr 0 = s.reg .pocketCntCorr 0 + 1 := by
  have hflag (b : Nat) (t : State) : (flagPocket b t).reg .pocketCntCorr 0 = t.reg .pocketCntCorr 0 :=
    (flagPocket_kept t b).reg (by decide) (by decide)
  exact (hflag 0 _).trans (countStat_self s h fun t => hflag 2 t)

/-- From `s` to `t` an access without an error has changed at most its row, its response channel, and what counting a corrected word
writes. -/
structure ServedOnly (a : PortAccess) (s t : State) : Prop where
  frame : besideFlags { t with fabric := s.fabric, pockets := { t.pockets with rows := s.pockets.rows } } = besideFlags s
  fabric : { t.fabric with attIn := s.fabric.attIn } = s.fabric
  tokens : ∀ b, b ≠ a.att → t.attIn b = s.attIn b
  rows : ∀ r, r ≠ a.pk * 1024 + a.row → tabGet 0 t.pockets.rows r = tabGet 0 s.pockets.rows r
  regs : RegsKept corrRegisters s t

variable {s} {a : PortAccess}

theorem ServedOnly.trans {t u : State} (h : ServedOnly a s t) (h' : ServedOnly a t u) : ServedOnly a s u where
  frame := (congrArg (fun v : State => { v with fabric := s.fabric, pockets := { v.pockets with rows := s.pockets.rows } })
    h'.frame :).trans h.frame
  fabric := (congrArg (fun f : Fabric => { f with attIn := s.fabric.attIn }) h'.fabric :).trans h.fabric
  tokens b hb := (h'.tokens b hb).trans (h.tokens b hb)
  rows r hr := (h'.rows r hr).trans (h.rows r hr)
  regs := h.regs.trans h'.regs

theorem ServedOnly.ite {t u : State} {c : Prop} [Decidable c] (ht : ServedOnly a s t) (hu : ServedOnly a s u) :
    ServedOnly a s (if c then t else u) := by
  split <;> assumption

variable (s a)

theorem servedOnly_refl : ServedOnly a s s := ⟨rfl, rfl, fun _ _ => rfl, fun _ _ => rfl, .refl s _⟩

theorem putRow_servedOnly : ServedOnly a s (s.putRow a) where
  frame := rfl
  fabric := rfl
  tokens _ _ := rfl
  rows _ hr := (tabGet_tabSet _ _ _ _ _).trans (if_neg hr.symm)
  regs := .same (.refl s _) rfl

theorem offer_servedOnly (d : Nat) : ServedOnly a s (s.offer a d) where
  frame := rfl
  fabric := rfl
  tokens _ hb := (tabGet_tabSet _ _ _ _ _).trans (if_neg hb.symm)
  rows _ _ := rfl
  regs := .same (.refl s _) rfl

theorem countPocketCorr_servedOnly : ServedOnly a s (countPocketCorr s) :=
  have hflags := countPocketCorr_besideFlags s
  have hfabric : (countPocketCorr s).fabric = s.fabric := (congrArg State.fabric hflags :)
  { frame := (congrArg (fun v : State => { v with fabric := s.fabric, pockets := { v.pockets with rows := s.pockets.rows } }) hflags :)
    fabric := by rw [hfabric]
    tokens := fun b _ => by rw [State.attIn, hfabric, State.attIn]
    rows := fun r _ => (congrArg (fun v : State => tabGet 0 v.pockets.rows r) hflags :)
    regs := countPocketCorr_kept s }

theorem writeThrough_servedOnly : ServedOnly a s (s.writeThrough a) :=
  .ite ((putRow_servedOnly s a).trans (offer_servedOnly _ a _)) (putRow_servedOnly s a)

theorem readThrough_servedOnly (d : Nat) : ServedOnly a s (s.readThrough a d) :=
  (ServedOnly.ite (putRow_servedOnly s a) (servedOnly_refl s a)).trans (offer_servedOnly _ a d)

/-! ### The cases of an access -/

variable {a}

theorem served_of_blind (h : a.blind) : s.served a = s.writeThrough a := if_pos h

theorem served_of_good (h : ¬ a.blind) {d : Nat} (hd : a.old = .good d) : s.served a = s.readThrough a d :=
  (if_neg h).trans (by rw [hd])

theorem served_of_corrected (h : ¬ a.blind) {d : Nat} (hd : a.old = .corrected d) :
    s.served a = countPocketCorr (s.readThrough a d) :=
  (if_neg h).trans (by rw [hd])

theorem served_of_uncorrectable (h : ¬ a.blind) (hd : a.old = .uncorrectable) :
    s.served a = pocketUncorr a.pk (blockPort a.pk a.port s) :=
  (if_neg h).trans (by rw [hd])

/-- A word without an uncorrectable error is offered, and a corrected one counts. -/
theorem served_of_read (h : ¬ a.blind) {d : Nat} (hd : a.old = .good d ∨ a.old = .corrected d) :
    (s.served a).fabric = (s.readThrough a d).fabric ∧ (s.served a).pockets = (s.readThrough a d).pockets := by
  rcases hd with hd | hd
  · rw [served_of_good s h hd]
    exact ⟨rfl, rfl⟩
  · rw [served_of_corrected s h hd]
    have hflags := countPocketCorr_besideFlags (s.readThrough a d)
    exact ⟨(congrArg State.fabric hflags :), (congrArg State.pockets hflags :)⟩

theorem served_servedOnly (h : a.old ≠ .uncorrectable ∨ a.blind) : ServedOnly a s (s.served a) := by
  by_cases hblind : a.blind
  · rw [served_of_blind s hblind]
    exact writeThrough_servedOnly s a
  · cases hd : a.old with
    | good d =>
      rw [served_of_good s hblind hd]
      exact readThrough_servedOnly s a d
    | corrected d =>
      rw [served_of_corrected s hblind hd]
      exact (readThrough_servedOnly s a d).trans (countPocketCorr_servedOnly _ a)
    | uncorrectable => exact absurd hd (h.resolve_right hblind)

/-- An uncorrectable word changes what a freeze may touch alone (06_pockets R123). -/
theorem pocketUncorr_freezeFrame (pk : Nat) : (pocketUncorr pk s).freezeFrame = s.freezeFrame :=
  (freezeCav_freezeFrame _ _ _ _ _).trans (freezeFrame_of_besideFlags (countPocketUncorr_besideFlags s))

theorem pocketUncorr_cav (pk : Nat) : ((pocketUncorr pk s).cav (pk / 112)).freeze = true ∧
    ((s.cav (pk / 112)).freeze = false → ((pocketUncorr pk s).cav (pk / 112)).fpocket = BitVec.ofNat 8 (pk % 112)) :=
  freezeCav_cav_of_besideFlags (countPocketUncorr_besideFlags s) _ _ _ _

/-- A port that has found an uncorrectable word is blocked, and nothing is offered or written (06_pockets R123). -/
theorem pocketUncorr_blockPort (pk p : Nat) : (pocketUncorr pk (blockPort pk p s)).fabric = s.fabric ∧
    (tabGet {} (pocketUncorr pk (blockPort pk p s)).pockets.ports (pk * 2 + p)).blocked = true ∧
    StoredKept s (pocketUncorr pk (blockPort pk p s)) := by
  have hframe := pocketUncorr_freezeFrame (blockPort pk p s) pk
  have hports : (pocketUncorr pk (blockPort pk p s)).pockets.ports = tabSet {} s.pockets.ports (pk * 2 + p) { blocked := true } :=
    (congrArg (fun u : State => u.pockets.ports) hframe :)
  refine ⟨(congrArg State.fabric hframe :), by rw [hports, tabGet_tabSet, if_pos rfl], (congrArg State.cfg hframe :),
    (congrArg (fun u : State => u.conf.store) hframe :), (congrArg (fun u : State => u.conf.otp) hframe :),
    (congrArg (fun u : State => u.foreman.ram) hframe :), (congrArg (fun u : State => u.pockets.rows) hframe :)⟩

variable (a)

/-- Whatever the row holds, an access leaves every acknowledge, the power controller and every other row alone. -/
theorem served_common : (s.served a).fabric.attAck = s.fabric.attAck ∧ (s.served a).power = s.power ∧
    ∀ r, r ≠ a.pk * 1024 + a.row → tabGet 0 (s.served a).pockets.rows r = tabGet 0 s.pockets.rows r := by
  by_cases h : a.old ≠ .uncorrectable ∨ a.blind
  · have hserved := served_servedOnly s h
    exact ⟨(congrArg Fabric.attAck hserved.fabric :), (congrArg State.power hserved.frame :), hserved.rows⟩
  · obtain ⟨hold, hblind⟩ := not_or.1 h
    rw [served_of_uncorrectable s hblind (not_not.1 hold)]
    have hframe := pocketUncorr_freezeFrame (blockPort a.pk a.port s) a.pk
    exact ⟨(congrArg (fun v : State => v.fabric.attAck) hframe :), (congrArg State.power hframe :),
      fun r _ => (congrArg (fun v : State => tabGet 0 v.pockets.rows r) hframe :)⟩

theorem putRow_row : tabGet 0 (s.putRow a).pockets.rows (a.pk * 1024 + a.row) = BitVec.ofNat 72 a.written :=
  (tabGet_tabSet _ _ _ _ _).trans (if_pos rfl)

theorem writeThrough_row : tabGet 0 (s.writeThrough a).pockets.rows (a.pk * 1024 + a.row) = BitVec.ofNat 72 a.written := by
  unfold State.writeThrough
  split
  · exact putRow_row s a
  · exact putRow_row s a

theorem offer_attIn (d : Nat) : (s.offer a d).attIn a.att = { val := d, ph := .offering } :=
  (tabGet_tabSet _ _ _ _ _).trans (if_pos rfl)

theorem writeThrough_attIn : (s.writeThrough a).attIn a.att =
    if a.wrsp = 1 then { val := a.value, ph := .offering } else s.attIn a.att := by
  unfold State.writeThrough
  split
  · exact offer_attIn _ a _
  · rfl

theorem readThrough_row (d : Nat) : tabGet 0 (s.readThrough a d).pockets.rows (a.pk * 1024 + a.row) =
    if a.isWrite then BitVec.ofNat 72 a.written else tabGet 0 s.pockets.rows (a.pk * 1024 + a.row) := by
  unfold State.readThrough
  split
  · exact putRow_row s a
  · rfl

theorem readThrough_attIn (d : Nat) : (s.readThrough a d).attIn a.att = { val := d, ph := .offering } := offer_attIn _ a d

theorem readThrough_regs (d : Nat) : (s.readThrough a d).regs = s.regs := by
  unfold State.readThrough
  split <;> rfl

end Sys2Proof.Machine
end

section
/-! The statement about accesses of a Pocket's handshake ports. -/

open Sys2Proof Sys2Proof.Machine

/-- Settles O15: a ready port takes its token and serves the access that it asks for; the statement's cases are those of `State.served`, and
`ServedOnly` says what an access without an error leaves alone. -/
theorem pocketPortAccess : Obligations.PocketPortAccess := by
  unfold Obligations.PocketPortAccess
  intro id port s cav i pk p att prot
  refine ⟨fun h => (exec_pocketPortAccess s id port).trans (congrArg _ (pocketPortAccess_of_idle h)), ?_⟩
  intro tok hready htok w isWrite wrsp written
  let a := s.portAccess id p tok
  let u := s.taken att
  have hreads (h : isWrite = false ∨ wrsp = 2) : ¬ a.blind := PortAccess.not_blind h
  refine ⟨u.served a, (exec_pocketPortAccess s id port).trans (congrArg _ (pocketPortAccess_of_ready hready htok)), ?_⟩
  obtain ⟨hacks, hpower, hothers⟩ := served_common u a
  refine ⟨?_, fun hquiet => ?_, fun r hr => ?_, fun hw hwrsp => ?_, fun hread d hd => ⟨?_, ?_, fun hcorr hmax => ?_⟩,
    fun hok hcalm => ?_, fun hread hbad => ?_⟩
  · rw [hacks, State.taken_fabric, State.setAttAck_fabric, tabGet_tabSet, if_pos rfl]
  · rw [hpower]
    exact s.taken_mode att hquiet
  · rw [hothers r hr, State.taken_pockets]
  · rw [served_of_blind u ⟨hw, hwrsp⟩]
    refine ⟨writeThrough_row u a, (writeThrough_attIn u a).trans ?_⟩
    rw [State.taken_attIn]
    rfl
  · obtain ⟨-, hpockets⟩ := served_of_read u (hreads hread) hd
    rw [hpockets, ← s.taken_pockets att]
    exact readThrough_row u a d
  · obtain ⟨hfabric, -⟩ := served_of_read u (hreads hread) hd
    rw [State.attIn, hfabric]
    exact readThrough_attIn u a d
  · have hcount : (u.readThrough a d).reg .pocketCntCorr 0 = s.reg .pocketCntCorr 0 := by
      rw [State.reg, readThrough_regs]
      exact s.taken_reg att (by decide) (by decide)
    rw [served_of_corrected u (hreads hread) hcorr, countPocketCorr_reg _ (by rwa [hcount]), hcount]
  · obtain ⟨hframe, hfabric, htokens, -, hregs⟩ := served_servedOnly (a := a) u hok
    have hu : u = s.setAttAck att true := s.taken_of_calm att hcalm
    refine ⟨⟨?_, ?_, ?_, fun b hb => ⟨?_, ?_⟩⟩, ?_, ?_⟩
    · exact (congrArg Fabric.cells hfabric :).trans (by rw [hu]; rfl)
    · exact (congrArg Fabric.nodes hfabric :).trans (by rw [hu]; rfl)
    · exact (congrArg Fabric.choices hfabric :).trans (by rw [hu]; rfl)
    · exact (htokens b hb).trans (s.taken_attIn att b)
    · rw [hacks, State.taken_fabric, State.setAttAck_fabric, tabGet_tabSet, if_neg hb.symm]
    · exact .trans (.same (.refl s _) (by rw [hu]; rfl)) hregs
    · exact (congrArg (fun v : State => { v with fabric := s.fabric, pockets := { v.pockets with rows := s.pockets.rows } })
        hframe :).trans (by rw [hu]; rfl)
  · obtain ⟨hfabric, hblocked, hstored⟩ := pocketUncorr_blockPort u a.pk a.port
    obtain ⟨hfreeze, hsource⟩ := pocketUncorr_cav (blockPort a.pk a.port u) a.pk
    have hdiv : a.pk / 112 = cav := pocketNumber_div id
    have hmod : a.pk % 112 = i := pocketNumber_mod id
    rw [hdiv] at hfreeze
    rw [hdiv, hmod] at hsource
    obtain ⟨hcfg, hstore, hotp, hram, hrows⟩ := storedKept_trans (s.taken_storedKept att) hstored
    rw [served_of_uncorrectable u (hreads hread) hbad]
    refine ⟨hrows, ?_, hblocked, hfreeze, fun hs => hsource ?_, hcfg, hstore, hotp, hram, hrows⟩
    · rw [State.attIn, hfabric]
      exact s.taken_attIn att att
    · exact (congrArg Cavern.freeze (s.taken_cav att cav)).trans hs

end

section
/-! SUPPORT. The slices of a Crusher that complete (07_crushers R144 to R149): the words of a client's context that are written, the
counters and the flags, and where the output goes. -/

namespace Sys2Proof.Machine

variable (s : State)

theorem exec_crusherSliceComplete (e : Fin 16) :
    exec (.crusherSliceComplete e) s = .next (if s.sysRuns then sliceComplete e.val s else s) := rfl

/-! ### Flags of an engine (07_crushers R166) -/

@[simp] theorem flagCrusher_besideFlags (e b : Nat) : besideFlags (flagCrusher e b s) = besideFlags s := setFlags_besideFlags s _ _ _ _ _

@[simp] theorem flagCrusher_crushers (e b : Nat) : (flagCrusher e b s).crushers = s.crushers :=
  (congrArg State.crushers (flagCrusher_besideFlags s e b) :)

theorem crEvt_not_event (e : Nat) : eventRegister (RegKind.crEvt.addr e) = false := by
  change eventRegister (0xC0004 + e * 0x100) = false
  simp only [eventRegister, Bool.or_eq_false_iff, Bool.and_eq_false_iff, decide_eq_false_iff_not, beq_eq_false_iff_ne]
  omega

theorem flagCrusher_kept {e : Nat} (he : e < 16) (b : Nat) : RegsKept [RegKind.crEvt.addr e] s (flagCrusher e b s) :=
  setFlags_kept s _ (show 280 + e < 384 by omega)

theorem bitWord_self {b : Nat} (hb : b < 32) : (bitWord b).getLsbD b = true := by
  rw [bitWord, BitVec.getLsbD_ofNat, Nat.one_shiftLeft, Nat.testBit_two_pow_self, decide_eq_true hb, Bool.and_self]

theorem flagCrusher_reg {e : Nat} (he : e < 16) (b : Nat) : (flagCrusher e b s).reg .crEvt e = s.reg .crEvt e ||| bitWord b :=
  setFlags_self s _ (show 280 + e < 384 by omega) (crEvt_not_event e)

/-! ### Words of a context -/

theorem State.ctx_congr {s t : State} (h : t.crushers.ctx = s.crushers.ctx) (e k w : Nat) : t.ctx e k w = s.ctx e k w := by
  rw [State.ctx, h, State.ctx]

@[simp] theorem State.setCtx_ctx (e k w w' : Nat) (v : Word) :
    (s.setCtx e k w v).ctx e k w' = if w = w' then v else s.ctx e k w' := by
  simp [State.ctx]

/-- A state without what the words of contexts and the flags of engines are kept in. -/
def State.besideWords : State := besideFlags { s with crushers := { s.crushers with ctx := [] } }

/-- From `s` to `t` nothing but words of one client's context and flags of its engine has changed, and no flag has been cleared. -/
structure ClientStep (e k : Nat) (s t : State) : Prop where
  beside : t.besideWords = s.besideWords
  others : ∀ j w, j ≠ clientKey e k → w < 64 → tabGet 0 t.crushers.ctx (64 * j + w) = tabGet 0 s.crushers.ctx (64 * j + w)
  regs : RegsKept [RegKind.crEvt.addr e] s t
  flags : ∀ b, (s.reg .crEvt e).getLsbD b = true → (t.reg .crEvt e).getLsbD b = true

theorem ClientStep.refl (e k : Nat) : ClientStep e k s s := ⟨rfl, fun _ _ _ _ => rfl, .refl s _, fun _ h => h⟩

variable {s}

theorem ClientStep.trans {e k : Nat} {t u : State} (h : ClientStep e k s t) (h' : ClientStep e k t u) : ClientStep e k s u where
  beside := h'.beside.trans h.beside
  others j w hj hw := (h'.others j w hj hw).trans (h.others j w hj hw)
  regs := h.regs.trans h'.regs
  flags b hb := h'.flags b (h.flags b hb)

variable (s)

theorem setCtx_step (e k : Nat) {w : Nat} (hw : w < 64) (v : Word) : ClientStep e k s (s.setCtx e k w v) where
  beside := rfl
  others j w' hj hw' := by
    rw [State.setCtx_crushers, tabGet_tabSet, if_neg (by omega)]
  regs := .same (.refl s _) rfl
  flags _ hb := hb

theorem flagCrusher_step {e : Nat} (he : e < 16) (k b : Nat) : ClientStep e k s (flagCrusher e b s) where
  beside := (congrArg State.besideWords (flagCrusher_besideFlags s e b) :)
  others _ _ _ _ := by rw [flagCrusher_crushers]
  regs := flagCrusher_kept s he b
  flags c hc := by simp [flagCrusher_reg s he, hc]

/-! ### The state words written back (07_crushers R147) -/

/-- The first `n` state words written to a client's context. -/
def writeBack (e k : Nat) (st : List Word) (n : Nat) : State :=
  (List.range n).foldl (fun u i => u.setCtx e k (28 + i) (st.getD i 0)) s

theorem writeBack_succ (e k : Nat) (st : List Word) (n : Nat) :
    writeBack s e k st (n + 1) = (writeBack s e k st n).setCtx e k (28 + n) (st.getD n 0) := by
  rw [writeBack, List.range_succ, List.foldl_append]
  rfl

theorem writeBack_step (e k : Nat) (st : List Word) {n : Nat} (hn : n ≤ 32) : ClientStep e k s (writeBack s e k st n) := by
  induction n with
  | zero => exact .refl s e k
  | succ n ih =>
    rw [writeBack_succ]
    exact (ih (by omega)).trans (setCtx_step _ e k (by omega) _)

theorem writeBack_ctx (e k : Nat) (st : List Word) (n w : Nat) :
    (writeBack s e k st n).ctx e k w = if 28 ≤ w ∧ w < 28 + n then st.getD (w - 28) 0 else s.ctx e k w := by
  induction n with
  | zero => exact (if_neg (by omega)).symm
  | succ n ih =>
    rw [writeBack_succ, State.setCtx_ctx, ih]
    by_cases hw : 28 + n = w
    · subst hw
      simp
    · rw [if_neg hw]
      exact if_congr (by omega) rfl rfl

/-! ### The counters of a client (07_crushers R147) -/

theorem countCtx_step {e : Nat} (he : e < 16) (k : Nat) {w : Nat} (hw : w < 64) (n : Nat) : ClientStep e k s (countCtx e k w n s) := by
  unfold countCtx
  extract_lets v t u
  have hu : ClientStep e k s u := setCtx_step s e k hw _
  split
  · exact (hu.trans (setCtx_step u e k (by decide) _)).trans (flagCrusher_step _ he k 3)
  · exact hu

/-- A counter's word is written, and its flag in word 63; no other word of the context is. -/
theorem countCtx_ctx (e k w n : Nat) {w' : Nat} (h63 : w' ≠ 63) :
    (countCtx e k w n s).ctx e k w' = if w = w' then word (min ((s.ctx e k w).toNat + n) (2 ^ 32 - 1)) else s.ctx e k w' := by
  unfold countCtx
  extract_lets v t u
  split
  · rw [State.ctx_congr (congrArg Crushers.ctx (flagCrusher_crushers _ e 3)), State.setCtx_ctx, if_neg h63.symm, State.setCtx_ctx]
  · exact State.setCtx_ctx s e k w w' _

/-- A counter of a client advanced and reported, where there is something to count. -/
def tally (e k w n : Nat) (report : State → State) : State := if n = 0 then s else report (countCtx e k w n s)

theorem tally_step {e : Nat} (he : e < 16) {k w : Nat} (hw : w < 64) (n : Nat) {report : State → State}
    (hr : ∀ t, ClientStep e k t (report t)) : ClientStep e k s (tally s e k w n report) := by
  unfold tally
  split
  · exact .refl s e k
  · exact (countCtx_step s he k hw n).trans (hr _)

theorem tally_ctx_ne (e k : Nat) {w w' : Nat} (n : Nat) {report : State → State} (hr : ∀ t, (report t).crushers = t.crushers)
    (hw : w ≠ w') (h63 : w' ≠ 63) : (tally s e k w n report).ctx e k w' = s.ctx e k w' := by
  unfold tally
  split
  · rfl
  · rw [State.ctx_congr (congrArg Crushers.ctx (hr _)), countCtx_ctx s e k w n h63, if_neg hw]

theorem tally_ctx (e k : Nat) {w : Nat} (n : Nat) {report : State → State} (hr : ∀ t, (report t).crushers = t.crushers)
    (h63 : w ≠ 63) : ((tally s e k w n report).ctx e k w).toNat = min ((s.ctx e k w).toNat + n) (2 ^ 32 - 1) := by
  have hlt : (s.ctx e k w).toNat < 2 ^ 32 := (s.ctx e k w).isLt
  unfold tally
  split
  · omega
  · rw [State.ctx_congr (congrArg Crushers.ctx (hr _)), countCtx_ctx s e k w n h63, if_pos rfl, word, BitVec.toNat_ofNat,
      Nat.mod_eq_of_lt (by omega)]

/-- What is counted raises the flag of its report. -/
theorem tally_flag {e : Nat} (he : e < 16) (k w : Nat) {n : Nat} (hn : n ≠ 0) {b : Nat} (hb : b < 32) :
    ((tally s e k w n (flagCrusher e b)).reg .crEvt e).getLsbD b = true := by
  rw [tally, if_neg hn, flagCrusher_reg _ he, BitVec.getLsbD_or, bitWord_self hb, Bool.or_true]

/-! ### The output (07_crushers R144, R148) -/

/-- A state without the Sump. -/
def State.besideSump : State := { s with sump := State.reset.sump }

/-- A state without what the Crushers' streams are kept in, and without the parts that setting flags may change. -/
def State.besideStreams : State :=
  besideFlags { s with crushers := State.reset.crushers, sump := State.reset.sump, portals := [],
                       crossings := { s.crossings with fromCrusher := [] } }

/-- A state without what the output of a slice may change: the clients' packets, the Sump, the portals, and the crossings to the lanes. -/
def State.besideOutput : State :=
  { s with crushers := { s.crushers with pkts := [] }, sump := State.reset.sump, portals := [],
           crossings := { s.crossings with fromCrusher := [] } }

@[simp] theorem withPkts_besideOutput (pkts : Tab ClientPkt) :
    (s.withCrushers fun c => { c with pkts := pkts }).besideOutput = s.besideOutput := rfl

theorem deliverBeats_lane (e k : Nat) (token : Bool) {d : Nat × Nat} (hd : d.1 = 2) (bs : List CBeat) :
    deliverBeats e k token d bs s =
      { s with crossings := { s.crossings with fromCrusher := tabMod [] s.crossings.fromCrusher d.2 (· ++ bs) } } := by
  simp only [deliverBeats, hd]

theorem deliverBeats_fabric (e k : Nat) (token : Bool) {d : Nat × Nat} (hd : d.1 = 3) (bs : List CBeat) :
    deliverBeats e k token d bs s = s.modPortal (fpoPortal e d.2) fun v =>
      { v with stage := v.stage ++ bs.flatMap (fpoWords (portalWidth s.cfg (fpoPortal e d.2))) } := by
  simp only [deliverBeats, hd]

/-- Output to the Sump, or to nowhere, changes nothing beside the Sump. -/
theorem deliverBeats_besideSump (e k : Nat) (token : Bool) {d : Nat × Nat} (h2 : d.1 ≠ 2) (h3 : d.1 ≠ 3) (bs : List CBeat) :
    (deliverBeats e k token d bs s).besideSump = s.besideSump := by
  unfold deliverBeats
  split
  · extract_lets p offers items
    split
    · split <;> rfl
    · rfl
  · contradiction
  · contradiction
  · rfl

theorem deliverBeats_besideOutput (e k : Nat) (token : Bool) (d : Nat × Nat) (bs : List CBeat) :
    (deliverBeats e k token d bs s).besideOutput = s.besideOutput := by
  by_cases h2 : d.1 = 2
  · rw [deliverBeats_lane s e k token h2]
    rfl
  by_cases h3 : d.1 = 3
  · rw [deliverBeats_fabric s e k token h3]
    rfl
  · exact (congrArg State.besideOutput (deliverBeats_besideSump s e k token h2 h3 bs) :)

/-- Only the crossing to the lane of the destination takes output. -/
theorem deliverBeats_fromCrusher (e k : Nat) (token : Bool) (d : Nat × Nat) (bs : List CBeat) (x : Nat) :
    tabGet [] (deliverBeats e k token d bs s).crossings.fromCrusher x =
      if d.1 = 2 ∧ x = d.2 then tabGet [] s.crossings.fromCrusher d.2 ++ bs else tabGet [] s.crossings.fromCrusher x := by
  by_cases h2 : d.1 = 2
  · rw [deliverBeats_lane s e k token h2, tabGet_tabMod]
    exact if_congr (by omega) rfl rfl
  rw [if_neg (by omega)]
  by_cases h3 : d.1 = 3
  · rw [deliverBeats_fabric s e k token h3, State.modPortal_crossings]
  · exact (congrArg (fun u : State => tabGet [] u.crossings.fromCrusher x) (deliverBeats_besideSump s e k token h2 h3 bs) :)

/-- Only the portal of the destination takes output, into the words staged for it. -/
theorem deliverBeats_portal (e k : Nat) (token : Bool) (d : Nat × Nat) (bs : List CBeat) (p : Nat) :
    (deliverBeats e k token d bs s).portal p =
      if d.1 = 3 ∧ p = fpoPortal e d.2 then
        let v := s.portal p
        { v with stage := v.stage ++ bs.flatMap (fpoWords (portalWidth s.cfg p)) }
      else s.portal p := by
  by_cases h3 : d.1 = 3
  · rw [deliverBeats_fabric s e k token h3, State.portal, State.modPortal_portals, tabGet_tabMod]
    by_cases hp : fpoPortal e d.2 = p
    · subst hp
      rw [if_pos rfl, if_pos ⟨h3, rfl⟩]
      rfl
    · rw [if_neg hp, if_neg fun h => hp h.2.symm]
      rfl
  rw [if_neg fun h => h3 h.1]
  by_cases h2 : d.1 = 2
  · rw [deliverBeats_lane s e k token h2]
    rfl
  · exact (congrArg (fun u : State => u.portal p) (deliverBeats_besideSump s e k token h2 h3 bs) :)

/-- What a slice holds at Sump queues given back (08_sump R179). -/
def returnRoom (e k : Nat) (ds : List (Nat × Nat)) : State :=
  ds.foldl (fun u x =>
    match u.resvOf (clientProducer e k) x.2 with
    | some r => dropResv r u
    | none => u) s

theorem returnRoom_besideSump (e k : Nat) (ds : List (Nat × Nat)) : (returnRoom s e k ds).besideSump = s.besideSump := by
  unfold returnRoom
  induction ds generalizing s with
  | nil => rfl
  | cons x ds ih =>
    rw [List.foldl_cons, ih]
    split <;> rfl

/-! ### A slice completed -/

/-- The run of a slice's program (07_crushers R144, R149); a packet that is dropped already has none. -/
def State.sliceResult (e : Nat) (sl : Slice) : Run :=
  let r := sliceRun (!(s.clientPkt e sl.client)) (s.clientState e sl.client) ((List.range 32).map fun i => s.ctx e sl.client (28 + i))
    s.freeCtr sl
  if r.pkt.drop then r else runProgram (s.ctx e sl.client) (List.range 8) r

/-- The beats that a run offers: none of a dropped packet (07_crushers R158). -/
def Run.output (r : Run) : List CBeat := if r.pkt.drop then [] else outBeats r

/-- The destination that a run's packet goes to (07_crushers R148, R157). -/
def State.outputDest (e k : Nat) (r : Run) : Nat × Nat :=
  if r.pkt.alt then (s.ctxCfg e k 15 2, s.ctxCfg e k 4 11) else (s.ctxCfg e k 28 2, s.ctxCfg e k 17 11)

/-- A slice gone from its pipeline, with the free values that its run has used. -/
def State.slicePopped (e : Nat) (sl : Slice) (rest : List Slice) : State :=
  { s.withCrushers fun c => { c with pipe := tabSet [] c.pipe e rest } with freeCtr := (s.sliceResult e sl).free }

/-- The state words and the counters of a completed slice's client written. -/
def State.sliceRecorded (e : Nat) (sl : Slice) (rest : List Slice) : State :=
  let r := s.sliceResult e sl
  let u := writeBack (s.slicePopped e sl rest) e sl.client r.st 32
  let u := tally u e sl.client 60 r.errs (flagCrusher e 0)
  let u := tally u e sl.client 61 r.sats (flagCrusher e 1)
  tally u e sl.client 62 r.drops id

/-- What the engine keeps of the client's packet while the output leaves. -/
def State.packetAfter (e : Nat) (sl : Slice) : ClientPkt :=
  let r := s.sliceResult e sl
  { r.pkt with off := r.pkt.off + (sl.beats.map (·.bytes)).sum, started := r.pkt.started || !r.output.isEmpty }

/-- The record is of the client's own words and of flags alone. -/
theorem sliceRecorded_step {e : Nat} (he : e < 16) (sl : Slice) (rest : List Slice) :
    ClientStep e sl.client (s.slicePopped e sl rest) (s.sliceRecorded e sl rest) :=
  (((writeBack_step _ e sl.client _ le_rfl).trans
    (tally_step _ he (by decide) _ fun t => flagCrusher_step t he sl.client 0)).trans
    (tally_step _ he (by decide) _ fun t => flagCrusher_step t he sl.client 1)).trans
    (tally_step _ he (by decide) _ fun t => .refl t e sl.client)

section

variable (e : Nat) (sl : Slice) (rest : List Slice)

/-- A word that is no counter is as the program left it: a state word, or unchanged. -/
theorem sliceRecorded_ctx {w : Nat} (hw : w < 60) : (s.sliceRecorded e sl rest).ctx e sl.client w =
    if 28 ≤ w then (s.sliceResult e sl).st.getD (w - 28) 0 else s.ctx e sl.client w := by
  unfold State.sliceRecorded
  extract_lets r u v x
  rw [tally_ctx_ne x e _ _ (report := id) (fun _ => rfl) (by omega) (by omega),
    tally_ctx_ne v e _ _ (flagCrusher_crushers · e 1) (by omega) (by omega),
    tally_ctx_ne u e _ _ (flagCrusher_crushers · e 0) (by omega) (by omega), writeBack_ctx]
  exact if_congr (by omega) rfl rfl

/-- The counters of errors, saturations and drops advance and saturate. -/
theorem sliceRecorded_counters :
    let r := s.sliceResult e sl
    let k := sl.client
    let t := s.sliceRecorded e sl rest
    (t.ctx e k 60).toNat = min ((s.ctx e k 60).toNat + r.errs) (2 ^ 32 - 1) ∧
      (t.ctx e k 61).toNat = min ((s.ctx e k 61).toNat + r.sats) (2 ^ 32 - 1) ∧
      (t.ctx e k 62).toNat = min ((s.ctx e k 62).toNat + r.drops) (2 ^ 32 - 1) := by
  intro r k t
  let u := writeBack (s.slicePopped e sl rest) e k r.st 32
  let v := tally u e k 60 r.errs (flagCrusher e 0)
  let x := tally v e k 61 r.sats (flagCrusher e 1)
  have hu (w : Nat) (hw : 60 ≤ w) : u.ctx e k w = s.ctx e k w := (writeBack_ctx _ e k r.st 32 w).trans (if_neg (by omega))
  have hv (w : Nat) (hw : 60 < w) (h63 : w ≠ 63) : v.ctx e k w = s.ctx e k w :=
    (tally_ctx_ne u e k _ (flagCrusher_crushers · e 0) hw.ne h63).trans (hu w hw.le)
  have hx (w : Nat) (hw : 61 ≠ w) (h63 : w ≠ 63) : x.ctx e k w = v.ctx e k w :=
    tally_ctx_ne v e k _ (flagCrusher_crushers · e 1) hw h63
  have ht (w : Nat) (hw : 62 ≠ w) (h63 : w ≠ 63) : t.ctx e k w = x.ctx e k w :=
    tally_ctx_ne x e k _ (report := id) (fun _ => rfl) hw h63
  refine ⟨?_, ?_, ?_⟩
  · rw [ht 60 (by decide) (by decide), hx 60 (by decide) (by decide), ← hu 60 le_rfl]
    exact tally_ctx u e k _ (flagCrusher_crushers · e 0) (by decide)
  · rw [ht 61 (by decide) (by decide), ← hv 61 (by decide) (by decide)]
    exact tally_ctx v e k _ (flagCrusher_crushers · e 1) (by decide)
  · rw [← hv 62 (by decide) (by decide), ← hx 62 (by decide) (by decide)]
    exact tally_ctx x e k _ (report := id) (fun _ => rfl) (by decide)

/-- Errors and saturations raise their flags. -/
theorem sliceRecorded_flags (he : e < 16) :
    let r := s.sliceResult e sl
    let t := s.sliceRecorded e sl rest
    (r.errs ≠ 0 → (t.reg .crEvt e).getLsbD 0 = true) ∧ (r.sats ≠ 0 → (t.reg .crEvt e).getLsbD 1 = true) := by
  intro r t
  let u := writeBack (s.slicePopped e sl rest) e sl.client r.st 32
  let v := tally u e sl.client 60 r.errs (flagCrusher e 0)
  let x := tally v e sl.client 61 r.sats (flagCrusher e 1)
  have hx : ClientStep e sl.client v x := tally_step v he (by decide) _ fun t => flagCrusher_step t he _ 1
  have ht : ClientStep e sl.client x t := tally_step x he (by decide) _ fun t => .refl t e _
  exact ⟨fun hn => ht.flags 0 (hx.flags 0 (tally_flag u he _ 60 hn (by decide))),
    fun hn => ht.flags 1 (tally_flag v he _ 61 hn (by decide))⟩

/-- The record leaves the destinations to the first word of the context as it was before. -/
theorem sliceRecorded_ctxCfg (lo len : Nat) : (s.sliceRecorded e sl rest).ctxCfg e sl.client lo len = s.ctxCfg e sl.client lo len := by
  have hword : (s.sliceRecorded e sl rest).ctx e sl.client 0 = s.ctx e sl.client 0 :=
    (sliceRecorded_ctx s e sl rest (by decide)).trans (if_neg (by decide))
  rw [State.ctxCfg, hword, State.ctxCfg]

/-- The record with the client's packet as it stands while the output leaves. -/
def State.sliceOffering : State :=
  (s.sliceRecorded e sl rest).withCrushers fun c => { c with pkts := tabSet {} c.pkts (clientKey e sl.client) (s.packetAfter e sl) }

theorem sliceOffering_clientDest :
    (s.sliceOffering e sl rest).clientDest e sl.client = s.outputDest e sl.client (s.sliceResult e sl) := by
  have hcfg (lo len : Nat) : (s.sliceOffering e sl rest).ctxCfg e sl.client lo len = s.ctxCfg e sl.client lo len :=
    sliceRecorded_ctxCfg s e sl rest lo len
  have hpkt : (s.sliceOffering e sl rest).clientState e sl.client = s.packetAfter e sl := by
    simp [State.clientState, State.sliceOffering]
  rw [State.clientDest, hpkt]
  simp only [hcfg]
  rfl

variable {e sl rest}

/-- A slice completes: the record, then the output to the destination from a state that differs in what is reserved in the Sump, then the
packet, kept or forgotten. -/
theorem sliceComplete_of_slice (h : tabGet [] s.crushers.pipe e = sl :: rest) : ∃ u : State, ∃ pkts,
    u.besideSump = (s.sliceOffering e sl rest).besideSump ∧
    sliceComplete e s = (deliverBeats e sl.client (!(s.clientPkt e sl.client)) (s.outputDest e sl.client (s.sliceResult e sl))
      (s.sliceResult e sl).output u).withCrushers fun c => { c with pkts := pkts } := by
  let r := s.sliceResult e sl
  let token := !(s.clientPkt e sl.client)
  let u := s.sliceOffering e sl rest
  let d := u.clientDest e sl.client
  let x := returnRoom u e sl.client (sl.dests.filter fun y => y.1 = 1 && y ≠ d)
  let v := deliverBeats e sl.client token d r.output x
  have hcomplete : sliceComplete e s = if r.last ∨ token then
      v.withCrushers fun c => { c with pkts := tabSet {} c.pkts (clientKey e sl.client) {} } else v := by
    unfold sliceComplete
    rw [h]
    rfl
  rw [hcomplete, ← sliceOffering_clientDest s e sl rest]
  refine ⟨x, if r.last ∨ token then tabSet {} v.crushers.pkts (clientKey e sl.client) {} else v.crushers.pkts,
    returnRoom_besideSump u e sl.client _, ?_⟩
  split <;> rfl

/-- The completion leaves the record but for the output and the packet kept. -/
theorem sliceComplete_besideOutput (h : tabGet [] s.crushers.pipe e = sl :: rest) :
    (sliceComplete e s).besideOutput = (s.sliceRecorded e sl rest).besideOutput := by
  obtain ⟨u, pkts, hu, hs⟩ := sliceComplete_of_slice s h
  have hbeside : u.besideOutput = (s.sliceOffering e sl rest).besideOutput := (congrArg State.besideOutput hu :)
  rw [hs, withPkts_besideOutput, deliverBeats_besideOutput, hbeside]
  exact withPkts_besideOutput ..

/-- The crossing to the lane of the run's destination takes the output, and no other crossing. -/
theorem sliceComplete_fromCrusher (he : e < 16) (h : tabGet [] s.crushers.pipe e = sl :: rest) (x : Nat) :
    let r := s.sliceResult e sl
    let d := s.outputDest e sl.client r
    tabGet [] (sliceComplete e s).crossings.fromCrusher x =
      if d.1 = 2 ∧ x = d.2 then tabGet [] s.crossings.fromCrusher d.2 ++ r.output else tabGet [] s.crossings.fromCrusher x := by
  intro r d
  obtain ⟨u, pkts, hu, hs⟩ := sliceComplete_of_slice s h
  have hlanes : u.crossings.fromCrusher = s.crossings.fromCrusher :=
    (congrArg (fun y : State => y.crossings.fromCrusher) hu :).trans
      (congrArg (fun y : State => y.crossings.fromCrusher) (sliceRecorded_step s he sl rest).beside :)
  rw [hs, State.withCrushers_crossings, deliverBeats_fromCrusher, hlanes]

/-- The portal of the run's destination takes the output, and no other portal. -/
theorem sliceComplete_portal (he : e < 16) (h : tabGet [] s.crushers.pipe e = sl :: rest) (p : Nat) :
    let r := s.sliceResult e sl
    let d := s.outputDest e sl.client r
    (sliceComplete e s).portal p = if d.1 = 3 ∧ p = fpoPortal e d.2 then
        let v := s.portal p
        { v with stage := v.stage ++ r.output.flatMap (fpoWords (portalWidth s.cfg p)) }
      else s.portal p := by
  intro r d
  obtain ⟨u, pkts, hu, hs⟩ := sliceComplete_of_slice s h
  have hstep := (sliceRecorded_step s he sl rest).beside
  have hcfg : u.cfg = s.cfg := (congrArg State.cfg hu :).trans (congrArg State.cfg hstep :)
  have hportal : u.portal p = s.portal p :=
    (congrArg (fun y : State => y.portal p) hu :).trans (congrArg (fun y : State => y.portal p) hstep :)
  rw [hs]
  refine (deliverBeats_portal u ..).trans ?_
  rw [hportal, hcfg]

end

end Sys2Proof.Machine
end

section
/-! The statement about slices that complete. -/

open Sys2Proof Sys2Proof.Machine

/-- Settles O25: the record of a slice (`State.sliceRecorded`) writes the client's words, counters and flags, and what follows it leaves
the record alone (`sliceComplete_besideOutput`) but for the output, whose place `sliceComplete_output` gives. -/
theorem crusherSliceComplete : Obligations.CrusherSliceComplete := by
  unfold Obligations.CrusherSliceComplete
  intro e s
  refine ⟨fun hempty => ?_, fun sl rest hruns hpipe => ?_⟩
  · rw [exec_crusherSliceComplete]
    unfold sliceComplete
    rw [hempty, ite_self]
  intro k token r0 r out d
  have he : e.val < 16 := e.isLt
  let t := sliceComplete e.val s
  let w := s.sliceRecorded e.val sl rest
  have hexec : exec (.crusherSliceComplete e) s = .next t := by
    rw [exec_crusherSliceComplete, if_pos hruns]
  have hout : t.besideOutput = w.besideOutput := sliceComplete_besideOutput s hpipe
  obtain ⟨hbeside, hothers, hregs, -⟩ := sliceRecorded_step s he sl rest
  have hlane := sliceComplete_fromCrusher s he hpipe
  have hportal := sliceComplete_portal s he hpipe
  obtain ⟨herrs, hsats, hdrops⟩ := sliceRecorded_counters s e.val sl rest
  obtain ⟨hflag0, hflag1⟩ := sliceRecorded_flags s e.val sl rest he
  have hctx : t.crushers.ctx = w.crushers.ctx := (congrArg (fun u : State => u.crushers.ctx) hout :)
  have hreg : t.regs = w.regs := (congrArg State.regs hout :)
  have hpipes : t.crushers.pipe = tabSet [] s.crushers.pipe e.val rest :=
    (congrArg (fun u : State => u.crushers.pipe) hout :).trans (congrArg (fun u : State => u.crushers.pipe) hbeside :)
  refine ⟨t, hexec, ?_, fun j hj => ?_, fun i hi => ?_, ?_, ?_, ?_, fun hn => ?_, fun hn => ?_, fun i hi => ?_, fun j i hj hi => ?_,
    fun hd => ?_, fun hd => ?_, fun x hx => ?_, fun p hp => ?_, ?_, ?_, ?_⟩
  · rw [hpipes, tabGet_tabSet, if_pos rfl]
  · rw [hpipes, tabGet_tabSet, if_neg hj.symm]
  · rw [State.ctx_congr hctx, sliceRecorded_ctx s e.val sl rest (by omega), if_pos (by omega), Nat.add_sub_cancel_left]
    rfl
  · rw [State.ctx_congr hctx]
    exact herrs
  · rw [State.ctx_congr hctx]
    exact hsats
  · rw [State.ctx_congr hctx]
    exact hdrops
  · rw [State.reg, hreg]
    exact hflag0 hn
  · rw [State.reg, hreg]
    exact hflag1 hn
  · rw [State.ctx_congr hctx, sliceRecorded_ctx s e.val sl rest (by omega), if_neg (by omega)]
  · rw [hctx]
    exact hothers j i hj hi
  · exact (hlane d.2).trans (if_pos ⟨hd, rfl⟩)
  · exact congrArg Portal.stage ((hportal _).trans (if_pos ⟨hd, rfl⟩))
  · exact (hlane x).trans (if_neg fun h => hx.elim (· h.1) (· h.2))
  · exact (hportal p).trans (if_neg fun h => hp.elim (· h.1) (· h.2))
  · have hwords := congrArg (fun u : State => { u.crushers with ctx := t.crushers.ctx, pkts := t.crushers.pkts }) hbeside
    have hkept := congrArg (fun u : State => { u.crushers with ctx := t.crushers.ctx, pkts := t.crushers.pkts }) hout
    rw [hpipes]
    exact hkept.trans hwords
  · exact .same (RegsKept.trans (.same (.refl s _) rfl) hregs) hreg
  · have hframe : { t with freeCtr := s.freeCtr }.besideStreams = s.besideStreams :=
      (congrArg (fun u : State => { u with freeCtr := s.freeCtr }.besideStreams) hout :).trans
        (congrArg (fun u : State => { u with freeCtr := s.freeCtr }.besideStreams) hbeside :)
    exact (congrArg (fun u : State => besideFlags { u with
      crushers := s.crushers, portals := s.portals, sump := s.sump
      crossings := { u.crossings with fromCrusher := s.crossings.fromCrusher } }) hframe :)

end

section
/-! SUPPORT. The slots of a Crusher (07_crushers R142, R145): the reservations that a slice makes in the Sump (08_sump R178, R179), a slot
that idles, a slice that enters the pipeline, and a client that is halted (07_crushers R162). -/

namespace Sys2Proof.Machine

variable (s : State)

theorem exec_crusherSlot (e : Fin 16) (found : EccFound) : exec (.crusherSlot e found) s = .next (crusherSlot e.val found s) := rfl

/-! ### Counts and levels of the Sump (08_sump R193, R194) -/

@[simp] theorem flagSump_besideFlags (b : Nat) : besideFlags (flagSump b s) = besideFlags s := setFlags_besideFlags s _ _ _ _ _

@[simp] theorem countSump_besideFlags (k : RegKind) (n : Nat) : besideFlags (countSump k n s) = besideFlags s :=
  countStat_besideFlags s fun t => flagSump_besideFlags (t.setBits .sumpOvf 0 (bitWord n)) 3

/-- From `s` to `t` nothing but flags and registers of the Sump has changed. -/
structure SumpCounted (s t : State) : Prop where
  beside : besideFlags t = besideFlags s
  regs : RegsKept sumpRegisters s t

theorem SumpCounted.refl : SumpCounted s s := ⟨rfl, .refl s _⟩

variable {s}

theorem SumpCounted.trans {t u : State} (h : SumpCounted s t) (h' : SumpCounted t u) : SumpCounted s u :=
  ⟨h'.beside.trans h.beside, h.regs.trans h'.regs⟩

theorem SumpCounted.ite {c : Prop} [Decidable c] {a b : State} (ha : SumpCounted s a) (hb : SumpCounted s b) :
    SumpCounted s (if c then a else b) := by
  split <;> assumption

theorem SumpCounted.sump {t : State} (h : SumpCounted s t) : t.sump = s.sump := (congrArg State.sump h.beside :)

variable (s)

theorem flagSump_counted (b : Nat) : SumpCounted s (flagSump b s) where
  beside := flagSump_besideFlags s b
  regs := (setFlags_kept s (how := .perBit 248) _ (show 248 + 32 ≤ 384 by decide)).mono fun a ha => .inl (by simp_all [sumpRegisters])

theorem countSump_counted {k : RegKind} (hk : k.addr 0 ∈ sumpRegisters) (n : Nat) : SumpCounted s (countSump k n s) where
  beside := countSump_besideFlags s k n
  regs := countStat_kept s hk fun t =>
    ((setBits_kept t .sumpOvf 0 (bitWord n)).mono fun a ha => .inl (by simp_all [sumpRegisters])).trans (flagSump_counted _ 3).regs

theorem watchLevels_counted (old : State) : SumpCounted s (watchLevels old s) := by
  unfold watchLevels
  extract_lets low u v
  have hu : SumpCounted s u := .ite (flagSump_counted s 0) (.refl s)
  have hv : SumpCounted s v := .ite (hu.trans (flagSump_counted u 1)) hu
  exact .ite (hv.trans (flagSump_counted v 2)) hv

/-- The checks of a push change nothing but what they count. -/
theorem pushCheck_counted (port q : Nat) (sop heldCell heldDesc : Bool) : SumpCounted s (pushCheck port q sop heldCell heldDesc s).2 := by
  unfold pushCheck
  split
  · exact .refl s
  split
  · exact .refl s
  split
  · exact countSump_counted s (by decide) 1
  split
  · exact countSump_counted s (by decide) 0
  · exact .refl s

/-- An accepted push has counted nothing. -/
theorem pushCheck_of_taken {port q : Nat} {sop heldCell heldDesc : Bool} (h : (pushCheck port q sop heldCell heldDesc s).1 = .taken) :
    pushCheck port q sop heldCell heldDesc s = (.taken, s) := by
  unfold pushCheck at h ⊢
  split_ifs at h ⊢
  rfl

/-- The answer to a push depends on the settings and the Sump alone. -/
theorem pushCheck_congr {s t : State} (hcfg : t.cfg = s.cfg) (hsump : t.sump = s.sump) (port q : Nat) (sop heldCell heldDesc : Bool) :
    (pushCheck port q sop heldCell heldDesc t).1 = (pushCheck port q sop heldCell heldDesc s).1 := by
  have hdescs : t.freeDescs = s.freeDescs := by rw [State.freeDescs, hsump, State.freeDescs]
  have hcells : t.freeCells = s.freeCells := by rw [State.freeCells, hsump, State.freeCells]
  have hquota : t.quotaCells q = s.quotaCells q := by
    rw [State.quotaCells, State.queue, hsump, State.quotaCells, State.queue]
  simp only [pushCheck, hcfg, hdescs, hcells, hquota, apply_ite Prod.fst]

/-! ### Reservations (08_sump R179) -/

section

variable (port q : Nat) (p : Producer) (begins : Bool)

/-- The Sump with one more reservation. -/
def State.reserved : State :=
  s.withSump fun u => { u with resv := u.resv ++ [{ producer := p, queue := q, desc := begins && qPkt s.cfg q }] }

variable {s port q p begins}

theorem reserve_of_taken (h : (pushCheck port q begins false false s).1 = .taken) :
    reserve port q p begins s = (true, watchLevels s (s.reserved q p begins)) := by
  rw [reserve, pushCheck_of_taken s h]
  rfl

theorem reserve_of_refused (h : (pushCheck port q begins false false s).1 ≠ .taken) :
    reserve port q p begins s = (false, (pushCheck port q begins false false s).2) := by
  unfold reserve
  split
  · next h' => exact absurd (congrArg Prod.fst h') h
  · next h' => rw [h']

variable (port q p begins)

/-- A reservation depends on the settings and the Sump alone. -/
theorem reserve_congr {t : State} (hcfg : t.cfg = s.cfg) (hsump : t.sump = s.sump) :
    (reserve port q p begins t).1 = (reserve port q p begins s).1 ∧
      (reserve port q p begins t).2.sump = (reserve port q p begins s).2.sump := by
  have hcheck := pushCheck_congr hcfg hsump port q begins false false
  by_cases h : (pushCheck port q begins false false s).1 = .taken
  · rw [reserve_of_taken h, reserve_of_taken (hcheck.trans h)]
    refine ⟨rfl, ?_⟩
    rw [(watchLevels_counted _ t).sump, (watchLevels_counted _ s).sump]
    simp only [State.reserved, State.withSump_sump, hsump, hcfg]
  · rw [reserve_of_refused h, reserve_of_refused (hcheck ▸ h)]
    exact ⟨rfl, (pushCheck_counted ..).sump.trans (hsump.trans (pushCheck_counted ..).sump.symm)⟩

end

/-- From `s` to `t` nothing but reservations in the Sump, and its flags and registers, has changed. -/
structure ReserveStep (s t : State) : Prop where
  beside : besideFlags { t with sump := { t.sump with resv := [] } } = besideFlags { s with sump := { s.sump with resv := [] } }
  regs : RegsKept sumpRegisters s t

theorem ReserveStep.refl : ReserveStep s s := ⟨rfl, .refl s _⟩

variable {s}

theorem ReserveStep.trans {t u : State} (h : ReserveStep s t) (h' : ReserveStep t u) : ReserveStep s u :=
  ⟨h'.beside.trans h.beside, h.regs.trans h'.regs⟩

theorem SumpCounted.reserveStep {t : State} (h : SumpCounted s t) : ReserveStep s t where
  beside := (congrArg (fun u : State => besideFlags { u with sump := { u.sump with resv := [] } }) h.beside :)
  regs := h.regs

variable (s)

theorem withResv_step (l : List SResv) : ReserveStep s (s.withSump fun u => { u with resv := l }) := ⟨rfl, .same (.refl s _) rfl⟩

theorem reserve_step (port q : Nat) (p : Producer) (begins : Bool) : ReserveStep s (reserve port q p begins s).2 := by
  by_cases h : (pushCheck port q begins false false s).1 = .taken
  · rw [reserve_of_taken h]
    have hadd : ReserveStep s (s.reserved q p begins) := withResv_step s _
    exact hadd.trans (watchLevels_counted _ s).reserveStep
  · rw [reserve_of_refused h]
    exact (pushCheck_counted ..).reserveStep

/-- A reservation refused leaves the Sump as it was. -/
theorem reserve_sump_of_refused {port q : Nat} {p : Producer} {begins : Bool} (h : (reserve port q p begins s).1 = false) :
    (reserve port q p begins s).2.sump = s.sump := by
  by_cases hc : (pushCheck port q begins false false s).1 = .taken
  · rw [reserve_of_taken hc] at h
    contradiction
  · rw [reserve_of_refused hc]
    exact (pushCheck_counted ..).sump

section

variable (e k : Nat) (desc : Bool) (d : Nat × Nat) (ds : List (Nat × Nat))

theorem reserveAll_cons_elsewhere (hd : d.1 ≠ 1) : reserveAll e k desc (d :: ds) s = reserveAll e k desc ds s := by
  rw [reserveAll, if_neg hd]

/-- A reservation at one Sump destination and at those after it: all of them, or none. -/
theorem reserveAll_cons_sump (hd : d.1 = 1) : reserveAll e k desc (d :: ds) s =
    let a := reserve (enginePort e) d.2 (clientProducer e k) desc s
    let b := reserveAll e k desc ds a.2
    if a.1 then (b.1, if b.1 then b.2 else b.2.withSump fun u => { u with resv := s.sump.resv }) else (false, a.2) := by
  rw [reserveAll, if_pos hd]
  generalize reserve (enginePort e) d.2 (clientProducer e k) desc s = a
  obtain ⟨accepted, t⟩ := a
  cases accepted
  case false => rfl
  case true =>
    generalize hb : reserveAll e k desc ds t = b
    obtain ⟨_ | _, u⟩ := b
    · simp [hb]
    · simp [hb]

theorem reserveAll_step : ReserveStep s (reserveAll e k desc ds s).2 := by
  induction ds generalizing s with
  | nil => exact .refl s
  | cons d ds ih =>
    by_cases hd : d.1 = 1
    · rw [reserveAll_cons_sump s e k desc d ds hd]
      extract_lets a b
      have ha : ReserveStep s a.2 := reserve_step s ..
      have hb : ReserveStep s b.2 := ha.trans (ih a.2)
      by_cases ha1 : a.1 = true
      · rw [if_pos ha1]
        split
        · exact hb
        · exact hb.trans (withResv_step b.2 _)
      · rw [if_neg ha1]
        exact ha
    · rw [reserveAll_cons_elsewhere s e k desc d ds hd]
      exact ih s

/-- Reservations refused are none. -/
theorem reserveAll_resv_of_refused (h : (reserveAll e k desc ds s).1 = false) :
    (reserveAll e k desc ds s).2.sump.resv = s.sump.resv := by
  induction ds generalizing s with
  | nil => contradiction
  | cons d ds ih =>
    by_cases hd : d.1 = 1
    · rw [reserveAll_cons_sump s e k desc d ds hd] at h ⊢
      extract_lets a b at h
      extract_lets
      by_cases ha : a.1 = true
      · rw [if_pos ha] at h ⊢
        have hb : b.1 = false := h
        rw [hb]
        rfl
      · rw [if_neg ha]
        exact congrArg Sump.resv (reserve_sump_of_refused s (Bool.eq_false_iff.2 ha))
    · rw [reserveAll_cons_elsewhere s e k desc d ds hd] at h ⊢
      exact ih s h

/-- Destinations beside the Sump need no reservation. -/
theorem reserveAll_elsewhere (h : ∀ d ∈ ds, d.1 ≠ 1) : reserveAll e k desc ds s = (true, s) := by
  induction ds with
  | nil => rfl
  | cons d ds ih =>
    obtain ⟨hd, hds⟩ := List.forall_mem_cons.1 h
    rw [reserveAll_cons_elsewhere s e k desc d ds hd, ih hds]

/-- Reservations depend on the settings and the Sump alone. -/
theorem reserveAll_congr {s t : State} (hcfg : t.cfg = s.cfg) (hsump : t.sump = s.sump) :
    (reserveAll e k desc ds t).1 = (reserveAll e k desc ds s).1 ∧
      (reserveAll e k desc ds t).2.sump = (reserveAll e k desc ds s).2.sump := by
  induction ds generalizing s t with
  | nil => exact ⟨rfl, hsump⟩
  | cons d ds ih =>
    by_cases hd : d.1 = 1
    · obtain ⟨ha1, ha2⟩ := reserve_congr (enginePort e) d.2 (clientProducer e k) desc hcfg hsump
      have hstep (u : State) : (reserve (enginePort e) d.2 (clientProducer e k) desc u).2.cfg = u.cfg :=
        (congrArg State.cfg (reserve_step u ..).beside :)
      obtain ⟨hb1, hb2⟩ := ih ((hstep t).trans (hcfg.trans (hstep s).symm)) ha2
      rw [reserveAll_cons_sump s e k desc d ds hd, reserveAll_cons_sump t e k desc d ds hd]
      extract_lets a b c f
      rw [show a.1 = c.1 from ha1, show b.1 = f.1 from hb1]
      split
      · refine ⟨rfl, ?_⟩
        split
        · exact hb2
        · exact congrArg₂ (fun u l => ({ u with resv := l } : Sump)) hb2 (congrArg Sump.resv hsump)
      · exact ⟨rfl, ha2⟩
    · rw [reserveAll_cons_elsewhere s e k desc d ds hd, reserveAll_cons_elsewhere t e k desc d ds hd]
      exact ih hcfg hsump

end

/-! ### Slots that idle (07_crushers R145) -/

theorem crIdle_not_event (e : Nat) : eventRegister (RegKind.crIdle.addr e) = false := by
  change eventRegister (0xC000C + e * 0x100) = false
  simp only [eventRegister, Bool.or_eq_false_iff, Bool.and_eq_false_iff, decide_eq_false_iff_not, beq_eq_false_iff_ne]
  omega

theorem crIdle_not_crEvt (e : Nat) : RegKind.crIdle.addr e ∉ [RegKind.crEvt.addr e] := by
  change 0xC000C + e * 0x100 ∉ [0xC0004 + e * 0x100]
  simp

theorem crIdle_not_sump {e : Nat} (he : e < 16) : RegKind.crIdle.addr e ∉ sumpRegisters := by
  interval_cases e <;> decide

/-- What an idle slot changes beside the engine's place in its table. -/
def SlotIdled (e : Nat) (s t : State) : Prop :=
  (s.reg .crIdle e ≠ 0xFFFFFFFF → t.reg .crIdle e = s.reg .crIdle e + 1) ∧
    (s.reg .crIdle e = 0xFFFFFFFF → t.reg .crIdle e = 0xFFFFFFFF) ∧
    t.crushers = { s.crushers with pos := t.crushers.pos } ∧ t.portals = s.portals ∧ t.lanes = s.lanes ∧ StoredKept s t

theorem idleSlot_besideFlags (e : Nat) : besideFlags (idleSlot e s) = besideFlags s :=
  countStat_besideFlags s fun t => flagCrusher_besideFlags t e 4

theorem idleSlot_kept {e : Nat} (he : e < 16) : RegsKept [RegKind.crIdle.addr e, RegKind.crEvt.addr e] s (idleSlot e s) :=
  countStat_kept s (by simp) fun t => (flagCrusher_kept t he 4).mono fun a ha => .inl (by simp_all)

/-- A state without what a slot may change before its slice is taken: the engine's place in its table, and what is in the Sump. -/
def State.besideSlot : State := besideFlags { s with crushers := { s.crushers with pos := [] } }.besideSump

/-- An idle slot counts, and `CRnn_IDLE` saturates. -/
theorem slotIdled_idleSlot {e : Nat} (he : e < 16) {u : State} (hbeside : u.besideSlot = s.besideSlot)
    (hreg : u.reg .crIdle e = s.reg .crIdle e) : SlotIdled e s (idleSlot e u) := by
  have hidle : (idleSlot e u).besideSlot = s.besideSlot := (congrArg State.besideSlot (idleSlot_besideFlags u e) :).trans hbeside
  refine ⟨fun h => ?_, fun h => ?_, ?_, ?_, ?_, ?_, ?_, ?_, ?_, ?_⟩
  · rw [← hreg] at h ⊢
    exact countStat_self u h fun t => (flagCrusher_kept t he 4).reg (crIdle_not_crEvt e) (crIdle_not_event e)
  · rw [← hreg] at h
    rw [idleSlot, countStat_full u h, h]
  · exact (congrArg (fun v : State => { v.crushers with pos := (idleSlot e u).crushers.pos }) hidle :)
  · exact (congrArg State.portals hidle :)
  · exact (congrArg State.lanes hidle :)
  · exact (congrArg State.cfg hidle :)
  · exact (congrArg (fun v : State => v.conf.store) hidle :)
  · exact (congrArg (fun v : State => v.conf.otp) hidle :)
  · exact (congrArg (fun v : State => v.foreman.ram) hidle :)
  · exact (congrArg (fun v : State => v.pockets.rows) hidle :)

/-! ### The slice of a slot (07_crushers R142, R145) -/

/-- The engine's place in its table after its slot `n`. -/
def State.slotPassed (e n : Nat) : State := s.withCrushers fun c => { c with pos := tabSet 0 c.pos e ((n + 1) % 512) }

/-- The client of slot `n`. -/
def State.slotClient (e n : Nat) : Nat := bitsOf 0 7 (slotEntry s.cfg e n)

/-- The reservations that a ready client's slice asks for; it may give the first beat of a packet (08_sump R179). -/
def State.sliceReserved (e k : Nat) (b : List CBeat × Bool × List (Nat × Nat)) : Bool × State :=
  reserveAll e k (b.2.1 || s.beginPiped e k || !(s.clientState e k).started) b.2.2 s

/-- A slice taken from its client's input into the pipeline. -/
def State.sliceTaken (e k : Nat) (b : List CBeat × Bool × List (Nat × Nat)) : State :=
  let u := takeInput e k b.1.length s
  u.withCrushers fun c =>
    { c with pipe := tabMod [] c.pipe e (· ++ [{ client := k, beats := b.1, stamp := u.clocks.stamp, begins := b.2.1, dests := b.2.2 }])
             anew := c.anew.filter (· ≠ clientKey e k), used := u.clocks.sys + 1 }

/-- The state with the slot passed and the reservations of its slice made, or none of them. -/
def State.slotReserved (e n k : Nat) (b : List CBeat × Bool × List (Nat × Nat)) : State := ((s.slotPassed e n).sliceReserved e k b).2

/-- The state in which the slice of slot `n` is in the pipeline. -/
def State.slotTaken (e n k : Nat) (b : List CBeat × Bool × List (Nat × Nat)) : State := (s.slotReserved e n k b).sliceTaken e k b

section

variable {s} {e n : Nat} {found : EccFound}

theorem crusherSlot_of_stopped (h : s.engineRuns e = false) : crusherSlot e found s = s := by
  rw [crusherSlot, h, if_neg Bool.false_ne_true]

theorem crusherSlot_of_unowned (h : nextSlot s.cfg e 512 (tabGet 0 s.crushers.pos e) = none) : crusherSlot e found s = s := by
  unfold crusherSlot
  rw [h]
  exact ite_self s

variable (hruns : s.engineRuns e = true) (hn : nextSlot s.cfg e 512 (tabGet 0 s.crushers.pos e) = some n)

include hruns hn

/-- A client that is not ready idles the slot. -/
theorem crusherSlot_of_unready (h : s.readyBeats e (s.slotClient e n) = none) :
    crusherSlot e found s = idleSlot e (s.slotPassed e n) := by
  unfold crusherSlot
  rw [if_pos hruns, hn]
  dsimp only
  split
  · rfl
  · next h' => exact absurd (h'.symm.trans h) (Option.some_ne_none _)

variable {b : List CBeat × Bool × List (Nat × Nat)} (hb : s.readyBeats e (s.slotClient e n) = some b)

include hb

/-- A ready client without room in the Sump idles the slot. -/
theorem crusherSlot_of_refused (h : ((s.slotPassed e n).sliceReserved e (s.slotClient e n) b).1 = false) :
    crusherSlot e found s = idleSlot e (s.slotReserved e n (s.slotClient e n) b) := by
  unfold crusherSlot
  rw [if_pos hruns, hn]
  dsimp only
  split
  · next hb' => exact absurd (hb'.symm.trans hb) (Option.some_ne_none _).symm
  · next hb' =>
    obtain rfl := Option.some.inj (hb'.symm.trans hb)
    split
    · next ha => exact absurd ((congrArg Prod.fst ha).symm.trans h) Bool.false_ne_true.symm
    · next u ha => exact congrArg (idleSlot e) (congrArg Prod.snd ha).symm

/-- A ready client with room has its slice taken; with an uncorrectable word it is halted as well. -/
theorem crusherSlot_of_taken (h : ((s.slotPassed e n).sliceReserved e (s.slotClient e n) b).1 = true) :
    crusherSlot e found s =
      if found = .uncorrectable then haltClient e (s.slotClient e n) (s.slotTaken e n (s.slotClient e n) b)
      else s.slotTaken e n (s.slotClient e n) b := by
  unfold crusherSlot
  rw [if_pos hruns, hn]
  dsimp only
  split
  · next hb' => exact absurd (hb'.symm.trans hb) (Option.some_ne_none _).symm
  · next beats begins ds hb' =>
    obtain rfl := Option.some.inj (hb'.symm.trans hb)
    split
    · next u ha =>
      obtain rfl : s.slotReserved e n (s.slotClient e n) (beats, begins, ds) = u := congrArg Prod.snd ha
      rfl
    · next ha => exact absurd ((congrArg Prod.fst ha).symm.trans h) Bool.false_ne_true

end

/-! ### What a slice takes (07_crushers R138, R145) -/

theorem takeInput_lane (e : Nat) {k : Nat} (h : k < 96) (n : Nat) :
    takeInput e k n s = s.withCrushers fun c => { c with inbuf := tabMod [] c.inbuf k (·.drop n) } := if_pos h

theorem takeInput_fabric (e : Nat) {k : Nat} (h : 96 ≤ k) (n : Nat) :
    takeInput e k n s = s.modPortal (fpiPortal e (k - 96)) fun v =>
      let w := (((s.clientInput e k).take n).map (·.2)).sum
      { v with queue := v.queue.drop w, ready := v.ready - w } := if_neg (Nat.not_lt.2 h)

theorem takeInput_frame (e k n : Nat) : { takeInput e k n s with crushers := s.crushers, portals := s.portals } = s := by
  by_cases h : k < 96
  · rw [takeInput_lane s e h]
    rfl
  · rw [takeInput_fabric s e (Nat.not_lt.1 h)]
    rfl

theorem takeInput_crushers (e k n : Nat) : (takeInput e k n s).crushers =
    { s.crushers with inbuf := if k < 96 then tabMod [] s.crushers.inbuf k (·.drop n) else s.crushers.inbuf } := by
  by_cases h : k < 96
  · rw [takeInput_lane s e h, if_pos h]
    rfl
  · rw [takeInput_fabric s e (Nat.not_lt.1 h), if_neg h]
    rfl

theorem takeInput_portal (e : Nat) {k : Nat} (h : 96 ≤ k) (n : Nat) : (takeInput e k n s).portal (fpiPortal e (k - 96)) =
    let v := s.portal (fpiPortal e (k - 96))
    let w := (((s.clientInput e k).take n).map (·.2)).sum
    { v with queue := v.queue.drop w, ready := v.ready - w } := by
  rw [takeInput_fabric s e h, State.portal, State.modPortal_portals, tabGet_tabMod, if_pos rfl]
  rfl

theorem takeInput_portal_ne (e : Nat) {k p : Nat} (h : k < 96 ∨ p ≠ fpiPortal e (k - 96)) (n : Nat) :
    (takeInput e k n s).portal p = s.portal p := by
  by_cases hk : k < 96
  · rw [takeInput_lane s e hk]
    rfl
  · rw [takeInput_fabric s e (Nat.not_lt.1 hk), State.portal, State.modPortal_portals, tabGet_tabMod,
      if_neg (h.resolve_left hk).symm]
    rfl

/-- What a client's input holds depends on the settings, the portals and the buffers of the lanes' clients alone. -/
theorem State.clientInput_congr {s t : State} (hcfg : t.cfg = s.cfg) (hportals : t.portals = s.portals)
    (hinbuf : t.crushers.inbuf = s.crushers.inbuf) (e k : Nat) : t.clientInput e k = s.clientInput e k := by
  simp only [State.clientInput, State.portal, hcfg, hportals, hinbuf]

/-- A slice taken changes nothing beside the Crushers and the portals. -/
theorem sliceTaken_frame (e k : Nat) (b : List CBeat × Bool × List (Nat × Nat)) :
    { s.sliceTaken e k b with crushers := s.crushers, portals := s.portals } = s := takeInput_frame s e k b.1.length

theorem sliceTaken_crushers (e k : Nat) (b : List CBeat × Bool × List (Nat × Nat)) : (s.sliceTaken e k b).crushers =
    { s.crushers with
      pipe := tabMod [] s.crushers.pipe e
        (· ++ [{ client := k, beats := b.1, stamp := s.clocks.stamp, begins := b.2.1, dests := b.2.2 }])
      inbuf := if k < 96 then tabMod [] s.crushers.inbuf k (·.drop b.1.length) else s.crushers.inbuf
      anew := s.crushers.anew.filter (· ≠ clientKey e k), used := s.clocks.sys + 1 } := by
  have hclocks : (takeInput e k b.1.length s).clocks = s.clocks := (congrArg State.clocks (takeInput_frame s e k b.1.length) :)
  unfold State.sliceTaken
  extract_lets u
  rw [State.withCrushers_crushers, takeInput_crushers, hclocks]

theorem sliceTaken_portal (e k : Nat) (b : List CBeat × Bool × List (Nat × Nat)) (p : Nat) :
    (s.sliceTaken e k b).portal p = (takeInput e k b.1.length s).portal p := rfl

/-! ### Clients that are halted (07_crushers R162) -/

/-- What an operation of the Sump leaves alone, where it sets flags as well. -/
def State.sumpFrame : State := besideFlags s.besideSump

theorem sumpFrame_of_counted {s t : State} (h : SumpCounted s t) : t.sumpFrame = s.sumpFrame := (congrArg State.besideSump h.beside :)

@[simp] theorem State.withSump_sumpFrame (f : Sump → Sump) : (s.withSump f).sumpFrame = s.sumpFrame := rfl
@[simp] theorem State.modQueue_sumpFrame (q : Nat) (f : SQueue → SQueue) : (s.modQueue q f).sumpFrame = s.sumpFrame := rfl
@[simp] theorem State.modDesc_sumpFrame (d : Nat) (f : SDesc → SDesc) : (s.modDesc d f).sumpFrame = s.sumpFrame := rfl
@[simp] theorem State.modSCell_sumpFrame (c : Nat) (f : SCell → SCell) : (s.modSCell c f).sumpFrame = s.sumpFrame := rfl

theorem dropPacket_sumpFrame (d : Nat) : (dropPacket d s).sumpFrame = s.sumpFrame := by
  unfold dropPacket
  rw [State.modQueue_sumpFrame, State.modDesc_sumpFrame, State.withSump_sumpFrame]

theorem rewind_sumpFrame (d : Nat) : (rewind d s).sumpFrame = s.sumpFrame := by
  have hcount := countSump_counted (k := .sumpCntRewind) (dropPacket d s) (by decide) 2
  exact (sumpFrame_of_counted (hcount.trans (flagSump_counted _ 8))).trans (dropPacket_sumpFrame s d)

theorem closeDesc_sumpFrame (q : Nat) (p : Producer) (d : Nat) : (closeDesc q p d s).sumpFrame = s.sumpFrame := by
  unfold closeDesc
  extract_lets u v w x
  have hu : u.sumpFrame = s.sumpFrame := State.modQueue_sumpFrame s q _
  split
  · have hx : x.sumpFrame = w.sumpFrame := by
      unfold x
      split
      · exact State.modSCell_sumpFrame w _ _
      · rfl
    have hcount := (countSump_counted (k := .sumpCntTrunc) x (by decide) 3).trans (flagSump_counted _ 9)
    exact (sumpFrame_of_counted hcount).trans (hx.trans ((State.modDesc_sumpFrame u d _).trans hu))
  · exact (rewind_sumpFrame u d).trans hu

theorem foldl_sumpFrame {α : Type} {g : State → α → State} (hg : ∀ u x, (g u x).sumpFrame = u.sumpFrame) (l : List α) :
    (l.foldl g s).sumpFrame = s.sumpFrame := by
  induction l generalizing s with
  | nil => rfl
  | cons x l ih => exact (ih _).trans (hg s x)

/-- An interrupted producer is the Sump's alone (08_sump R183). -/
theorem interruptProducer_sumpFrame (q : Nat) (p : Producer) : (interruptProducer q p s).sumpFrame = s.sumpFrame := by
  unfold interruptProducer
  extract_lets u v w
  have hu : u.sumpFrame = s.sumpFrame := State.modQueue_sumpFrame s q _
  have hv : v.sumpFrame = s.sumpFrame := (foldl_sumpFrame u (fun t d => State.modDesc_sumpFrame t d _) _).trans hu
  have hw : w.sumpFrame = s.sumpFrame := (foldl_sumpFrame v (fun t d => State.modDesc_sumpFrame t d _) _).trans hv
  unfold closePacket
  split
  · exact hw
  · exact (closeDesc_sumpFrame w q p _).trans hw

theorem interruptClient_sumpFrame (e k : Nat) : (interruptClient e k s).sumpFrame = s.sumpFrame := by
  unfold interruptClient
  extract_lets d
  split
  · exact interruptProducer_sumpFrame s d.2 _
  · rfl

/-- A state without what the end of a halted client's packet may change: its output, and the beats that wait for room. -/
def State.besideStops : State := { s with crushers := { s.crushers with stops := [] } }.besideOutput

theorem stopBeat_besideStops (n : Nat) (b : CBeat) : (stopBeat n b s).besideStops = s.besideStops := by
  unfold stopBeat
  split <;> rfl

theorem logFault_besideFlags (code inst : Nat) : besideFlags (logFault code inst s) = besideFlags (s.withFault code inst) := by
  have hscrub (b : Nat) (t : State) : besideFlags (flagScrub b t) = besideFlags t := setFlags_besideFlags t _ _ _ _ _
  unfold logFault
  extract_lets e full held u v
  have hv : besideFlags v = besideFlags u := hscrub 7 u
  split
  · exact (countStat_besideFlags _ fun t => evtOverflow_besideFlags t 1).trans ((hscrub 8 v).trans hv)
  · exact hv

/-- An entry of the fault log writes the log's own registers alone. -/
theorem logFault_kept (code inst : Nat) :
    RegsKept [RegKind.scrubEvt.addr 0, RegKind.flogLostCnt.addr 0] s (logFault code inst s) := by
  have hscrub (b : Nat) (t : State) : RegsKept [RegKind.scrubEvt.addr 0, RegKind.flogLostCnt.addr 0] t (flagScrub b t) :=
    (setFlags_kept t (how := .perBit 344) _ (show 344 + 32 ≤ 384 by decide)).mono fun a ha => .inl (by simp_all)
  unfold logFault
  extract_lets e full held u v
  have hv : RegsKept [RegKind.scrubEvt.addr 0, RegKind.flogLostCnt.addr 0] s v := .trans (.same (.refl s _) rfl) (hscrub 7 u)
  split
  · exact (hv.trans (hscrub 8 v)).trans (countStat_kept _ (by simp) fun t => evtOverflow_kept t _ 1)
  · exact hv

/-- The halt of a client: what it offers and holds is gone and its packet ended, then the flag in its context and the fault. -/
theorem haltClient_marks (e k : Nat) : ∃ u : State,
    haltClient e k s = logFault 0x04 (256 * e + k) (flagCrusher e 2 (u.setCtx e k 63 (u.ctx e k 63 ||| bitWord 8))) ∧
    u.besideStreams = s.besideStreams ∧ u.crushers.ctx = s.crushers.ctx ∧ u.crushers.pos = s.crushers.pos ∧
    u.crushers.pipe = tabMod [] s.crushers.pipe e fun l => l.filter (·.client ≠ k) := by
  unfold haltClient
  extract_lets d v x stop y z
  have hw : (interruptClient e k (dropClient (clientProducer e k) s)).sumpFrame = s.sumpFrame :=
    (interruptClient_sumpFrame _ e k).trans (State.withSump_sumpFrame s _)
  have hy : y.besideStops = x.besideStops := by
    unfold y
    split
    · split
      · exact stopBeat_besideStops x d.2 stop
      · exact (congrArg State.besideStops (deliverBeats_besideOutput x ..) :)
      · rfl
    · rfl
  refine ⟨y, rfl, ?_, ?_, ?_, ?_⟩
  · exact (congrArg State.besideStreams hy :).trans (congrArg State.besideStreams hw :)
  · exact (congrArg (fun t : State => t.crushers.ctx) hy :).trans (congrArg (fun t : State => t.crushers.ctx) hw :)
  · exact (congrArg (fun t : State => t.crushers.pos) hy :).trans (congrArg (fun t : State => t.crushers.pos) hw :)
  · exact (congrArg (fun t : State => t.crushers.pipe) hy :).trans
      (congrArg (fun t : State => tabMod [] t.crushers.pipe e fun l => l.filter (·.client ≠ k)) hw :)

theorem crEvt_not_logged (e : Nat) : RegKind.crEvt.addr e ∉ [RegKind.scrubEvt.addr 0, RegKind.flogLostCnt.addr 0] := by
  change 0xC0004 + e * 0x100 ∉ [0xF0030, 0xF0044]
  simp only [List.mem_cons, List.not_mem_nil, or_false, not_or]
  omega

/-- What is left of a client that is halted, and of its engine. -/
theorem haltClient_crushers (e k : Nat) :
    (haltClient e k s).crushers.ctx = tabSet 0 s.crushers.ctx (64 * clientKey e k + 63) (s.ctx e k 63 ||| bitWord 8) ∧
    (haltClient e k s).crushers.pos = s.crushers.pos ∧
    (haltClient e k s).crushers.pipe = tabMod [] s.crushers.pipe e fun l => l.filter (·.client ≠ k) := by
  obtain ⟨u, hs, -, hctx, hpos, hpipe⟩ := haltClient_marks s e k
  have hcrushers : (haltClient e k s).crushers = (u.setCtx e k 63 (u.ctx e k 63 ||| bitWord 8)).crushers := by
    rw [hs]
    exact (congrArg State.crushers (logFault_besideFlags ..) :).trans (flagCrusher_crushers ..)
  rw [hcrushers, State.setCtx_crushers, hctx, hpos, hpipe, State.ctx_congr hctx]
  exact ⟨rfl, rfl, rfl⟩

/-- A halt changes the fault log by its entry, and nothing else beside the streams and the flags. -/
theorem haltClient_besideStreams (e k : Nat) :
    (haltClient e k s).besideStreams = (s.withFault 0x04 (256 * e + k)).besideStreams := by
  obtain ⟨u, hs, hbeside, -⟩ := haltClient_marks s e k
  let v := u.setCtx e k 63 (u.ctx e k 63 ||| bitWord 8)
  have hflag : (flagCrusher e 2 v).besideStreams = s.besideStreams :=
    (congrArg State.besideStreams (flagCrusher_besideFlags v e 2) :).trans hbeside
  rw [hs]
  exact (congrArg State.besideStreams (logFault_besideFlags (flagCrusher e 2 v) 0x04 (256 * e + k)) :).trans
    (congrArg (fun t : State => (t.withFault 0x04 (256 * e + k)).besideStreams) hflag :)

/-- A halt from a state that differs from `s` in the streams and the flags: the log of `s` with one more entry, and nothing else. -/
theorem haltClient_frame {s u : State} (h : u.besideStreams = s.besideStreams) (e k : Nat) :
    (haltClient e k u).flog = s.flog.after 0x04 (256 * e + k) s.clocks.stamp ∧
      { haltClient e k u with flog := s.flog }.besideStreams = s.besideStreams := by
  have hframe : (haltClient e k u).besideStreams = (s.withFault 0x04 (256 * e + k)).besideStreams :=
    (haltClient_besideStreams u e k).trans (congrArg (fun t : State => (t.withFault 0x04 (256 * e + k)).besideStreams) h :)
  exact ⟨(congrArg State.flog hframe :), (congrArg (fun t : State => { t with flog := s.flog }.besideStreams) hframe :)⟩

/-- A halted client is flagged in its engine's register. -/
theorem haltClient_flag {e : Nat} (he : e < 16) (k : Nat) : ((haltClient e k s).reg .crEvt e).getLsbD 2 = true := by
  obtain ⟨u, hs, -⟩ := haltClient_marks s e k
  have hlog := logFault_kept (flagCrusher e 2 (u.setCtx e k 63 (u.ctx e k 63 ||| bitWord 8))) 0x04 (256 * e + k)
  rw [hs, RegsKept.reg hlog (crEvt_not_logged e) (crEvt_not_event e), flagCrusher_reg _ he, BitVec.getLsbD_or,
    bitWord_self (by decide), Bool.or_true]

theorem haltClient_halted (e k : Nat) : (haltClient e k s).clientHalted e k = true := by
  obtain ⟨hctx, -⟩ := haltClient_crushers s e k
  rw [State.clientHalted, State.ctx, hctx, tabGet_tabSet, if_pos rfl, BitVec.getLsbD_or, bitWord_self (by decide), Bool.or_true]

/-- The entry that the halt of a client of the device leaves in a fault log within its bound. -/
theorem logged_of_halt {s t : State} {e k : Nat} (he : e < 16) (hk : k < 128) (hlen : s.flog.entries.length ≤ 64)
    (ht : t.flog = s.flog.after 0x04 (256 * e + k) s.clocks.stamp) : Logged (word (0x04000000 + (256 * e + k))) s t := by
  have hinst : place 0 24 (256 * e + k) = 256 * e + k := by
    rw [place, Nat.shiftLeft_zero, Nat.mod_eq_of_lt (by omega)]
  have hcode : place 24 8 0x04 = 0x04000000 := by decide
  rw [← hcode, ← hinst]
  exact logged_of_after hlen ht

/-! ### The slot as a whole -/

section

variable (e n k : Nat) (b : List CBeat × Bool × List (Nat × Nat))

/-- The reservations do not ask for the engine's place in its table. -/
theorem sliceReserved_slotPassed :
    ((s.slotPassed e n).sliceReserved e k b).1 = (s.sliceReserved e k b).1 ∧
      (s.slotReserved e n k b).sump = (s.sliceReserved e k b).2.sump :=
  reserveAll_congr e k _ b.2.2 (s := s) (t := s.slotPassed e n) rfl rfl

theorem slotReserved_step : ReserveStep (s.slotPassed e n) (s.slotReserved e n k b) := reserveAll_step _ e k _ _

theorem slotReserved_besideSlot : (s.slotReserved e n k b).besideSlot = s.besideSlot :=
  (congrArg State.besideSlot (slotReserved_step s e n k b).beside :)

theorem slotReserved_crushers : (s.slotReserved e n k b).crushers = (s.slotPassed e n).crushers :=
  (congrArg State.crushers (slotReserved_step s e n k b).beside :)

theorem slotReserved_portals : (s.slotReserved e n k b).portals = s.portals :=
  (congrArg State.portals (slotReserved_besideSlot s e n k b) :)

/-- A slot without room in the Sump idles, and nothing is reserved. -/
theorem slotIdled_of_refused {e : Nat} (he : e < 16) (h : (s.sliceReserved e k b).1 = false) :
    SlotIdled e s (idleSlot e (s.slotReserved e n k b)) ∧ (idleSlot e (s.slotReserved e n k b)).sump.resv = s.sump.resv := by
  obtain ⟨hanswer, -⟩ := sliceReserved_slotPassed s e n k b
  refine ⟨slotIdled_idleSlot s he (slotReserved_besideSlot s e n k b) ?_, ?_⟩
  · exact (slotReserved_step s e n k b).regs.reg (crIdle_not_sump he) (crIdle_not_event e)
  · exact (congrArg (fun t : State => t.sump.resv) (idleSlot_besideFlags _ e) :).trans
      (reserveAll_resv_of_refused _ e k _ _ (hanswer.trans h))

theorem slotTaken_crushers : (s.slotTaken e n k b).crushers =
    { s.crushers with
      pos := tabSet 0 s.crushers.pos e ((n + 1) % 512)
      pipe := tabMod [] s.crushers.pipe e
        (· ++ [{ client := k, beats := b.1, stamp := s.clocks.stamp, begins := b.2.1, dests := b.2.2 }])
      inbuf := if k < 96 then tabMod [] s.crushers.inbuf k (·.drop b.1.length) else s.crushers.inbuf
      anew := s.crushers.anew.filter (· ≠ clientKey e k), used := s.clocks.sys + 1 } := by
  have hclocks : (s.slotReserved e n k b).clocks = s.clocks := (congrArg State.clocks (slotReserved_besideSlot s e n k b) :)
  rw [State.slotTaken, sliceTaken_crushers, slotReserved_crushers, hclocks]
  rfl

/-- Beside the Crushers, the portals and the reservations, a slice taken changes flags and registers of the Sump alone. -/
theorem slotTaken_frame :
    besideFlags { s.slotTaken e n k b with crushers := s.crushers, portals := s.portals, sump := s.sump } = besideFlags s := by
  have htaken := sliceTaken_frame (s.slotReserved e n k b) e k b
  have hreserved := slotReserved_besideSlot s e n k b
  unfold State.slotTaken
  generalize s.slotReserved e n k b = u at htaken hreserved
  exact (congrArg (fun t : State => besideFlags { t with crushers := s.crushers, portals := s.portals, sump := s.sump }) htaken :).trans
    (congrArg (fun t : State => besideFlags { t with crushers := s.crushers, portals := s.portals, sump := s.sump }) hreserved :)

theorem slotTaken_besideStreams : (s.slotTaken e n k b).besideStreams = s.besideStreams := by
  have hframe := slotTaken_frame s e n k b
  generalize s.slotTaken e n k b = t at hframe
  exact (congrArg State.besideStreams hframe :)

theorem slotTaken_sump : (s.slotTaken e n k b).sump = (s.sliceReserved e k b).2.sump :=
  (congrArg State.sump (sliceTaken_frame (s.slotReserved e n k b) e k b) :).trans (sliceReserved_slotPassed s e n k b).2

theorem slotTaken_kept : RegsKept sumpRegisters s (s.slotTaken e n k b) :=
  .same (RegsKept.trans (.same (.refl s _) rfl) (slotReserved_step s e n k b).regs)
    (congrArg State.regs (sliceTaken_frame (s.slotReserved e n k b) e k b) :)

/-- What the slice takes of a fabric client's words. -/
theorem slotTaken_portal {k : Nat} (hk : 96 ≤ k) : (s.slotTaken e n k b).portal (fpiPortal e (k - 96)) =
    let v := s.portal (fpiPortal e (k - 96))
    let w := (((s.clientInput e k).take b.1.length).map (·.2)).sum
    { v with queue := v.queue.drop w, ready := v.ready - w } := by
  have hbeside := slotReserved_besideSlot s e n k b
  have hportals := slotReserved_portals s e n k b
  have hinput : (s.slotReserved e n k b).clientInput e k = s.clientInput e k :=
    State.clientInput_congr (congrArg State.cfg hbeside :) hportals (congrArg (fun t : State => t.crushers.inbuf) hbeside :) e k
  rw [State.slotTaken, sliceTaken_portal, takeInput_portal _ e hk, hinput, State.portal, hportals]
  rfl

theorem slotTaken_portal_ne {k p : Nat} (h : k < 96 ∨ p ≠ fpiPortal e (k - 96)) :
    (s.slotTaken e n k b).portal p = s.portal p := by
  rw [State.slotTaken, sliceTaken_portal, takeInput_portal_ne _ e h, State.portal, slotReserved_portals, State.portal]

end

/-- A slot passes, whatever becomes of it. -/
theorem crusherSlot_pos {s : State} {e n : Nat} {found : EccFound} (hruns : s.engineRuns e = true)
    (hn : nextSlot s.cfg e 512 (tabGet 0 s.crushers.pos e) = some n) :
    (crusherSlot e found s).crushers.pos = tabSet 0 s.crushers.pos e ((n + 1) % 512) := by
  have hidle (u : State) : (idleSlot e u).crushers = u.crushers := (congrArg State.crushers (idleSlot_besideFlags u e) :)
  cases hb : s.readyBeats e (s.slotClient e n) with
  | none =>
    rw [crusherSlot_of_unready hruns hn hb, hidle]
    rfl
  | some b =>
    cases hroom : ((s.slotPassed e n).sliceReserved e (s.slotClient e n) b).1 with
    | false =>
      rw [crusherSlot_of_refused hruns hn hb hroom, hidle, slotReserved_crushers]
      rfl
    | true =>
      have htaken : (s.slotTaken e n (s.slotClient e n) b).crushers.pos = tabSet 0 s.crushers.pos e ((n + 1) % 512) := by
        rw [slotTaken_crushers]
      have hhalted := (haltClient_crushers (s.slotTaken e n (s.slotClient e n) b) e (s.slotClient e n)).2.1
      rw [crusherSlot_of_taken hruns hn hb hroom]
      split
      · exact hhalted.trans htaken
      · exact htaken

/-- Engine 0 has its first slot owned by client 0, whose input holds a beat, and the fault log holds 65 entries. -/
def overlongSlot : State :=
  { State.reset with
    power := { State.reset.power with mode := .run, held := false }
    conf := { State.reset.conf with started := true }
    cfg := [(cfgKey 42 0 0 0, 0x8000), (cfgKey 42 0 0x42 0, 1)]
    crushers := { State.reset.crushers with
      ctx := [(0, 0x80000000)]
      inbuf := [(0, [{ data := 0, start := false, fin := false, bad := false, mark := false, bytes := 32 }])] }
    flog := { entries := List.replicate 65 (0, 0), next := 65 } }

theorem overlongSlot_ready : overlongSlot.engineRuns 0 = true ∧
    nextSlot overlongSlot.cfg 0 512 (tabGet 0 overlongSlot.crushers.pos 0) = some 0 ∧ overlongSlot.slotClient 0 0 = 0 ∧
    ∃ b, overlongSlot.readyBeats 0 0 = some b ∧ (overlongSlot.sliceReserved 0 0 b).1 = true := by
  refine ⟨?_, ?_, ?_, _, rfl, ?_⟩ <;> decide +kernel

end Sys2Proof.Machine
end

section
/-! The statement about slots. As for restores, what is true stands before the refutation: a halt places its entry among the 64 of the fault
log (18_self_test_faults R454) where the log is within its bound, as it is in every state that reset leads to (`LogsBounded`). -/

open Sys2Proof Sys2Proof.Machine

/-- O24 where the fault log is within its bound: a slot idles (`crusherSlot_of_unready`, `slotIdled_of_refused`), takes its slice
(`State.slotTaken`), or takes it and halts its client (`haltClient_crushers`, `haltClient_besideStreams`). -/
theorem crusherSlot_of_logsBounded :
    ∀ (e : Fin 16) (found : EccFound) (s : State), LogsBounded s →
      (s.engineRuns e.val = false → exec (.crusherSlot e found) s = .next s) ∧
      (nextSlot s.cfg e.val 512 (tabGet 0 s.crushers.pos e.val) = none → exec (.crusherSlot e found) s = .next s) ∧
      ∀ n, s.engineRuns e.val = true → nextSlot s.cfg e.val 512 (tabGet 0 s.crushers.pos e.val) = some n →
        let k := s.slotClient e.val n
        ∃ t, exec (.crusherSlot e found) s = .next t ∧
          tabGet 0 t.crushers.pos e.val = (n + 1) % 512 ∧
          (∀ j, j ≠ e.val → tabGet 0 t.crushers.pos j = tabGet 0 s.crushers.pos j) ∧
          (s.readyBeats e.val k = none → SlotIdled e.val s t ∧
            RegsKept [RegKind.crIdle.addr e.val, RegKind.crEvt.addr e.val] s t ∧
            besideFlags { t with crushers := s.crushers } = besideFlags s) ∧
          (∀ b, s.readyBeats e.val k = some b →
            ((b.2.2.all fun d => decide (d.1 ≠ 1)) = true →
              (s.sliceReserved e.val k b).1 = true ∧ (s.sliceReserved e.val k b).2 = s) ∧
            ((s.sliceReserved e.val k b).1 = false → SlotIdled e.val s t ∧ t.sump.resv = s.sump.resv) ∧
            ((s.sliceReserved e.val k b).1 = true → found ≠ .uncorrectable →
              tabGet [] t.crushers.pipe e.val = tabGet [] s.crushers.pipe e.val ++
                [{ client := k, beats := b.1, stamp := s.clocks.stamp, begins := b.2.1, dests := b.2.2 }] ∧
              (∀ j, j ≠ e.val → tabGet [] t.crushers.pipe j = tabGet [] s.crushers.pipe j) ∧
              t.crushers.inbuf = (if k < 96 then tabMod [] s.crushers.inbuf k (·.drop b.1.length) else s.crushers.inbuf) ∧
              (96 ≤ k → t.portal (fpiPortal e.val (k - 96)) =
                let v := s.portal (fpiPortal e.val (k - 96))
                let w := (((s.clientInput e.val k).take b.1.length).map (·.2)).sum
                { v with queue := v.queue.drop w, ready := v.ready - w }) ∧
              (∀ p, k < 96 ∨ p ≠ fpiPortal e.val (k - 96) → t.portal p = s.portal p) ∧
              t.sump.resv = (s.sliceReserved e.val k b).2.sump.resv ∧
              t.crushers = { s.crushers with
                pos := t.crushers.pos, pipe := t.crushers.pipe, inbuf := t.crushers.inbuf
                anew := s.crushers.anew.filter fun x => decide (x ≠ clientKey e.val k), used := s.clocks.sys + 1 } ∧
              RegsKept sumpRegisters s t ∧
              besideFlags { t with crushers := s.crushers, portals := s.portals, sump := s.sump } = besideFlags s) ∧
            ((s.sliceReserved e.val k b).1 = true → found = .uncorrectable →
              t.clientHalted e.val k = true ∧ (∀ sl ∈ tabGet [] t.crushers.pipe e.val, sl.client ≠ k) ∧
              (t.reg .crEvt e.val).getLsbD 2 = true ∧ Logged (word (0x04000000 + (256 * e.val + k))) s t ∧
              (∀ j w, j ≠ clientKey e.val k → w < 64 →
                tabGet 0 t.crushers.ctx (64 * j + w) = tabGet 0 s.crushers.ctx (64 * j + w)) ∧
              StoredKept s t ∧
              besideFlags { t with crushers := s.crushers, portals := s.portals, flog := s.flog, sump := s.sump
                                   crossings := { t.crossings with fromCrusher := s.crossings.fromCrusher } } = besideFlags s)) := by
  intro e found s hlogs
  have he : e.val < 16 := e.isLt
  refine ⟨fun h => ?_, fun h => ?_, fun n hruns hn => ?_⟩
  · rw [exec_crusherSlot, crusherSlot_of_stopped h]
  · rw [exec_crusherSlot, crusherSlot_of_unowned h]
  intro k
  let t := crusherSlot e.val found s
  have hk : k < 128 := Nat.mod_lt _ (by decide)
  have hidle (h : s.readyBeats e.val k = none) : t = idleSlot e.val (s.slotPassed e.val n) := crusherSlot_of_unready hruns hn h
  have hrefused (b) (hb : s.readyBeats e.val k = some b) (h : (s.sliceReserved e.val k b).1 = false) :
      t = idleSlot e.val (s.slotReserved e.val n k b) :=
    crusherSlot_of_refused hruns hn hb ((sliceReserved_slotPassed s e.val n k b).1.trans h)
  have htaken (b) (hb : s.readyBeats e.val k = some b) (h : (s.sliceReserved e.val k b).1 = true) :
      t = if found = .uncorrectable then haltClient e.val k (s.slotTaken e.val n k b) else s.slotTaken e.val n k b :=
    crusherSlot_of_taken hruns hn hb ((sliceReserved_slotPassed s e.val n k b).1.trans h)
  have hpos : t.crushers.pos = tabSet 0 s.crushers.pos e.val ((n + 1) % 512) := crusherSlot_pos hruns hn
  refine ⟨t, exec_crusherSlot s e found, ?_, fun j hj => ?_, fun h => ?_,
    fun b hb => ⟨fun h => ?_, fun h => ?_, fun h hf => ?_, fun h hf => ?_⟩⟩
  · rw [hpos, tabGet_tabSet, if_pos rfl]
  · rw [hpos, tabGet_tabSet, if_neg hj.symm]
  · rw [hidle h]
    have hkept : RegsKept _ s (idleSlot e.val (s.slotPassed e.val n)) := idleSlot_kept _ he
    exact ⟨slotIdled_idleSlot s he rfl rfl, hkept,
      (congrArg (fun u : State => besideFlags { u with crushers := s.crushers }) (idleSlot_besideFlags _ e.val) :)⟩
  · have hall := reserveAll_elsewhere s e.val k (b.2.1 || s.beginPiped e.val k || !(s.clientState e.val k).started) b.2.2
      fun d hd => by simpa using List.all_eq_true.1 h d hd
    exact ⟨congrArg Prod.fst hall, congrArg Prod.snd hall⟩
  · rw [hrefused b hb h]
    exact slotIdled_of_refused s n k b he h
  · have ht : t = s.slotTaken e.val n k b := (htaken b hb h).trans (if_neg hf)
    have hcrushers := slotTaken_crushers s e.val n k b
    rw [ht]
    refine ⟨?_, fun j hj => ?_, ?_, slotTaken_portal s e.val n b, fun p hp => slotTaken_portal_ne s e.val n b hp, ?_, ?_,
      slotTaken_kept s e.val n k b, slotTaken_frame s e.val n k b⟩
    · rw [hcrushers, tabGet_tabMod, if_pos rfl]
    · rw [hcrushers, tabGet_tabMod, if_neg hj.symm]
    · rw [hcrushers]
    · rw [slotTaken_sump]
    · rw [hcrushers]
  · have ht : t = haltClient e.val k (s.slotTaken e.val n k b) := (htaken b hb h).trans (if_pos hf)
    have hcrushers := slotTaken_crushers s e.val n k b
    obtain ⟨hflog, hframe⟩ := haltClient_frame (slotTaken_besideStreams s e.val n k b) e.val k
    obtain ⟨hctx, -, hpipe⟩ := haltClient_crushers (s.slotTaken e.val n k b) e.val k
    rw [ht]
    refine ⟨haltClient_halted _ e.val k, fun sl hsl => ?_, haltClient_flag _ he k,
      logged_of_halt he hk hlogs.1 hflog, fun j w hj hw => ?_, ⟨?_, ?_, ?_, ?_, ?_⟩, ?_⟩
    · rw [hpipe, tabGet_tabMod, if_pos rfl] at hsl
      simpa using List.of_mem_filter hsl
    · rw [hctx, hcrushers, tabGet_tabSet, if_neg (by omega)]
    · exact (congrArg State.cfg hframe :)
    · exact (congrArg (fun v : State => v.conf.store) hframe :)
    · exact (congrArg (fun v : State => v.conf.otp) hframe :)
    · exact (congrArg (fun v : State => v.foreman.ram) hframe :)
    · exact (congrArg (fun v : State => v.pockets.rows) hframe :)
    · exact (congrArg (fun u : State => besideFlags { u with
        crushers := s.crushers, portals := s.portals, sump := s.sump
        crossings := { u.crossings with fromCrusher := s.crossings.fromCrusher } }) hframe :)

/-- Refutes O24: with a fault log of 65 entries, the entry of a client that is halted stands past the 64. -/
theorem not_crusherSlot : ¬ Obligations.CrusherSlot := by
  unfold Obligations.CrusherSlot
  intro h
  obtain ⟨hruns, hn, hclient, b, hb, hroom⟩ := overlongSlot_ready
  have htaken := crusherSlot_of_taken (found := .uncorrectable) hruns hn (hclient.symm ▸ hb)
    ((sliceReserved_slotPassed overlongSlot 0 0 _ b).1.trans (hclient.symm ▸ hroom))
  obtain ⟨-, -, hcases⟩ := h 0 .uncorrectable overlongSlot
  obtain ⟨t, ht, -, -, -, hready⟩ := hcases 0 hruns hn
  obtain ⟨-, -, -, hhalts⟩ := hready b (hclient.symm ▸ hb)
  obtain ⟨-, -, -, hlogged, -⟩ := hhalts (hclient.symm ▸ hroom) rfl
  obtain ⟨hafter, -⟩ := haltClient_frame (slotTaken_besideStreams overlongSlot 0 0 (overlongSlot.slotClient 0 0) b) 0
    (overlongSlot.slotClient 0 0)
  obtain rfl : haltClient 0 (overlongSlot.slotClient 0 0) (overlongSlot.slotTaken 0 0 (overlongSlot.slotClient 0 0) b) = t :=
    htaken.symm.trans (Host.Outcome.next.inj ht)
  exact not_logged_of_overlong rfl hafter (by decide +kernel) hlogged

end

section
/-! SUPPORT. The operations of the Sump (08_sump): its queues, packets and cells after an update, its flags and counters
(R193, R194), and what the operations that pushes, pops and expiries share leave alone. -/

namespace Sys2Proof

open Sys2Proof.Machine

/-! ### Counts -/

/-- A counter that stays counts none. -/
theorem CountedMany.of_reg {s t : State} {k : RegKind} {i : Nat} (h : t.reg k i = s.reg k i) : CountedMany k i 0 s t := by
  have := (s.reg k i).isLt
  rw [CountedMany, h]
  omega

/-- An operation beside the registers counts none. -/
theorem CountedMany.of_regs {s t : State} (h : t.regs = s.regs) (k : RegKind) (i : Nat) : CountedMany k i 0 s t :=
  .of_reg (by rw [State.reg, h, State.reg])

theorem CountedMany.of_kept {s t : State} {l : List Nat} {k : RegKind} {i : Nat} (h : RegsKept l s t) (hl : k.addr i ∉ l)
    (he : eventRegister (k.addr i) = false) : CountedMany k i 0 s t := .of_reg (h.reg hl he)

theorem CountedMany.trans {s t u : State} {k : RegKind} {i n m : Nat} (h : CountedMany k i n s t) (h' : CountedMany k i m t u) :
    CountedMany k i (n + m) s u := by
  unfold CountedMany at *
  omega

/-- What counts none may follow. -/
theorem CountedMany.then {s t u : State} {k : RegKind} {i n : Nat} (h : CountedMany k i n s t) (h' : CountedMany k i 0 t u) :
    CountedMany k i n s u := h.trans h'

end Sys2Proof

namespace Sys2Proof.Machine

variable (s : State)

/-! ### Queues, packets and cells after an update -/

@[simp] theorem State.modQueue_sump (q : Nat) (f : SQueue → SQueue) :
    (s.modQueue q f).sump = { s.sump with queues := tabMod {} s.sump.queues q f } := rfl
@[simp] theorem State.modDesc_sump (d : Nat) (f : SDesc → SDesc) :
    (s.modDesc d f).sump = { s.sump with descs := tabMod {} s.sump.descs d f } := rfl
@[simp] theorem State.modSCell_sump (c : Nat) (f : SCell → SCell) :
    (s.modSCell c f).sump = { s.sump with cells := tabMod {} s.sump.cells c f } := rfl

variable {s} in
theorem State.queue_congr {t : State} (h : t.sump = s.sump) (q : Nat) : t.queue q = s.queue q := by rw [State.queue, h, State.queue]

@[simp] theorem State.modQueue_queue (q r : Nat) (f : SQueue → SQueue) :
    (s.modQueue q f).queue r = if q = r then f (s.queue q) else s.queue r := tabGet_tabMod ..
@[simp] theorem State.modDesc_queue (d r : Nat) (f : SDesc → SDesc) : (s.modDesc d f).queue r = s.queue r := rfl
@[simp] theorem State.modSCell_queue (c r : Nat) (f : SCell → SCell) : (s.modSCell c f).queue r = s.queue r := rfl
@[simp] theorem State.modDesc_desc (d e : Nat) (f : SDesc → SDesc) :
    (s.modDesc d f).desc e = if d = e then f (s.desc d) else s.desc e := tabGet_tabMod ..
@[simp] theorem State.modQueue_desc (q e : Nat) (f : SQueue → SQueue) : (s.modQueue q f).desc e = s.desc e := rfl
@[simp] theorem State.modSCell_desc (c e : Nat) (f : SCell → SCell) : (s.modSCell c f).desc e = s.desc e := rfl
@[simp] theorem State.modSCell_scell (c e : Nat) (f : SCell → SCell) :
    (s.modSCell c f).scell e = if c = e then f (s.scell c) else s.scell e := tabGet_tabMod ..
@[simp] theorem State.modQueue_scell (q e : Nat) (f : SQueue → SQueue) : (s.modQueue q f).scell e = s.scell e := rfl
@[simp] theorem State.modDesc_scell (d e : Nat) (f : SDesc → SDesc) : (s.modDesc d f).scell e = s.scell e := rfl

/-! ### Flags and counters (08_sump R193, R194) -/

variable {s} in
theorem SumpCounted.cfg {t : State} (h : SumpCounted s t) : t.cfg = s.cfg := (congrArg State.cfg h.beside :)

theorem evtOverflow_counted (b : Nat) : SumpCounted s (evtOverflow b s) := ⟨evtOverflow_besideFlags s b, evtOverflow_kept s _ b⟩

@[simp] theorem flagSump_sump (b : Nat) : (flagSump b s).sump = s.sump := (flagSump_counted s b).sump
@[simp] theorem flagSump_cfg (b : Nat) : (flagSump b s).cfg = s.cfg := (flagSump_counted s b).cfg
@[simp] theorem countSump_sump (k : RegKind) (n : Nat) : (countSump k n s).sump = s.sump :=
  (congrArg State.sump (countSump_besideFlags s k n) :)
@[simp] theorem countSump_cfg (k : RegKind) (n : Nat) : (countSump k n s).cfg = s.cfg :=
  (congrArg State.cfg (countSump_besideFlags s k n) :)
@[simp] theorem watchLevels_sump (old : State) : (watchLevels old s).sump = s.sump := (watchLevels_counted s old).sump
@[simp] theorem evtOverflow_sump (b : Nat) : (evtOverflow b s).sump = s.sump := (evtOverflow_counted s b).sump

/-- A flag of `SUMP_EVT` is set. -/
theorem flagSump_reg (b : Nat) : (flagSump b s).reg .sumpEvt 0 = s.reg .sumpEvt 0 ||| bitWord b :=
  setFlags_self s (how := .perBit 248) _ (show 248 + 32 ≤ 384 by decide) (by decide)

/-- A flag of `SUMP_EVT` stays set when another is set. -/
theorem flagSump_bit {b c : Nat} (hb : b < 32) (h : (s.reg .sumpEvt 0).getLsbD b = true ∨ b = c) :
    ((flagSump c s).reg .sumpEvt 0).getLsbD b = true := by
  rw [flagSump_reg, BitVec.getLsbD_or, Bool.or_eq_true]
  exact h.imp_right fun h => by rw [← h]; exact bitWord_self hb

/-- Setting a flag of `SUMP_EVT` writes no other register of the Sump. -/
theorem flagSump_kept (b : Nat) : RegsKept [RegKind.sumpEvt.addr 0] s (flagSump b s) :=
  setFlags_kept s (how := .perBit 248) _ (show 248 + 32 ≤ 384 by decide)

/-- A counter of the Sump writes itself, and where it saturates its bit in `SUMP_OVF` and `SUMP_EVT.CNT_OVF`. -/
theorem countSump_kept (k : RegKind) (n : Nat) :
    RegsKept [k.addr 0, RegKind.sumpOvf.addr 0, RegKind.sumpEvt.addr 0] s (countSump k n s) :=
  countStat_kept s (by simp) fun t =>
    ((setBits_kept t .sumpOvf 0 (bitWord n)).mono fun a ha => .inl (by simp_all)).trans
      ((flagSump_kept _ 3).mono fun a ha => .inl (by simp_all))

/-- The kinds of register that count in the Sump (08_sump R194). -/
def sumpCounters : List RegKind :=
  [.sumpCntFull, .sumpCntNodesc, .sumpCntRewind, .sumpCntTrunc, .sumpCntFlushed, .sumpCntStale, .sumpCntCorr, .sumpCntUncorr,
    .sumpCntSeqerr, .sumpCntEmpty]

/-- A counter of the Sump has an address of its own. -/
theorem sumpCounter_addr {k : RegKind} (hk : k ∈ sumpCounters) : k.addr 0 ∈ sumpRegisters ∧ eventRegister (k.addr 0) = false ∧
    k.addr 0 ≠ RegKind.sumpOvf.addr 0 ∧ k.addr 0 ≠ RegKind.sumpEvt.addr 0 ∧
    k.addr 0 ∉ [RegKind.scrubEvt.addr 0, RegKind.flogLostCnt.addr 0] := by
  revert k
  decide

/-- Setting a flag counts nothing. -/
theorem flagSump_countedNone {k : RegKind} (hk : k ∈ sumpCounters) (b : Nat) : CountedMany k 0 0 s (flagSump b s) := by
  obtain ⟨-, hevent, -, hflag, -⟩ := sumpCounter_addr hk
  exact .of_kept (flagSump_kept s b) (by simpa using hflag) hevent

/-- A counter of the Sump counts one, and saturates. -/
theorem countSump_countedOne {k : RegKind} (hk : k ∈ sumpCounters) (n : Nat) : CountedOne k 0 s (countSump k n s) := by
  obtain ⟨-, hevent, hovf, hflag, -⟩ := sumpCounter_addr hk
  have hreport (t : State) : (flagSump 3 (t.setBits .sumpOvf 0 (bitWord n))).reg k 0 = t.reg k 0 :=
    ((flagSump_kept _ 3).reg (by simpa using hflag) hevent).trans ((setBits_kept t .sumpOvf 0 _).reg (by simpa using hovf) hevent)
  unfold CountedOne countSump
  by_cases hfull : s.reg k 0 = 0xFFFFFFFF
  · rw [countStat_full s hfull, hfull]
    rfl
  · rw [countStat_self s hfull hreport]
    have : s.reg k 0 ≠ BitVec.allOnes 32 := hfull
    bv_omega

/-- A counter of the Sump leaves the other counters alone. -/
theorem countSump_countedNone {k k' : RegKind} (hk : k ∈ sumpCounters) (hne : k.addr 0 ≠ k'.addr 0) (n : Nat) :
    CountedMany k 0 0 s (countSump k' n s) := by
  obtain ⟨-, hevent, hovf, hflag, -⟩ := sumpCounter_addr hk
  exact .of_kept (countSump_kept s k' n) (by simp [hne, hovf, hflag]) hevent

/-! ### Operations on one queue -/

/-- From `s` to `t` an operation on queue `q` has acted: beside the Sump only flags and registers of the Sump have changed, and in it the
cells that the other queues hold and the beats that wait at the ports have stayed. -/
structure QueueStep (q : Nat) (s t : State) : Prop where
  frame : t.sumpFrame = s.sumpFrame
  regs : RegsKept sumpRegisters s t
  others : ∀ r, r ≠ q → (t.queue r).stream = (s.queue r).stream ∧ (t.queue r).held = (s.queue r).held
  offers : t.sump.offers = s.sump.offers

section

variable {s} {t u : State} {q : Nat}

theorem QueueStep.refl : QueueStep q s s := ⟨rfl, .refl s _, fun _ _ => ⟨rfl, rfl⟩, rfl⟩

theorem QueueStep.trans (h : QueueStep q s t) (h' : QueueStep q t u) : QueueStep q s u where
  frame := h'.frame.trans h.frame
  regs := h.regs.trans h'.regs
  others r hr := ⟨(h'.others r hr).1.trans (h.others r hr).1, (h'.others r hr).2.trans (h.others r hr).2⟩
  offers := h'.offers.trans h.offers

theorem QueueStep.ite {c : Prop} [Decidable c] (ht : QueueStep q s t) (hu : QueueStep q s u) : QueueStep q s (if c then t else u) := by
  split <;> assumption

theorem QueueStep.cfg (h : QueueStep q s t) : t.cfg = s.cfg := (congrArg State.cfg h.frame :)

theorem QueueStep.portals (h : QueueStep q s t) : t.portals = s.portals := (congrArg State.portals h.frame :)

/-- Beside the Sump, only what setting flags may change has changed. -/
theorem besideFlags_of_sumpFrame (h : t.sumpFrame = s.sumpFrame) : besideFlags { t with sump := s.sump } = besideFlags s :=
  (congrArg (fun v : State => { v with sump := s.sump }) h :)

theorem QueueStep.beside (h : QueueStep q s t) : besideFlags { t with sump := s.sump } = besideFlags s :=
  besideFlags_of_sumpFrame h.frame

theorem SumpCounted.queueStep (h : SumpCounted s t) : QueueStep q s t where
  frame := sumpFrame_of_counted h
  regs := h.regs
  others r _ := by rw [State.queue_congr h.sump]; exact ⟨rfl, rfl⟩
  offers := congrArg Sump.offers h.sump

/-- An update of the Sump that leaves its queues and its ports' waiting beats alone. -/
theorem QueueStep.of_withSump {f : Sump → Sump} (hq : (f s.sump).queues = s.sump.queues) (ho : (f s.sump).offers = s.sump.offers) :
    QueueStep q s (s.withSump f) where
  frame := rfl
  regs := .same (.refl s _) rfl
  others r _ := by rw [State.queue, State.withSump_sump, hq]; exact ⟨rfl, rfl⟩
  offers := ho

end

theorem modQueue_step (q : Nat) (f : SQueue → SQueue) : QueueStep q s (s.modQueue q f) where
  frame := rfl
  regs := .same (.refl s _) rfl
  others r hr := by rw [State.modQueue_queue, if_neg hr.symm]; exact ⟨rfl, rfl⟩
  offers := rfl

/-- A change of a queue that leaves its cells alone. -/
theorem modQueue_step_of_kept (q r : Nat) {f : SQueue → SQueue} (h : ∀ v, (f v).stream = v.stream ∧ (f v).held = v.held) :
    QueueStep q s (s.modQueue r f) where
  frame := rfl
  regs := .same (.refl s _) rfl
  others x _ := by
    rw [State.modQueue_queue]
    split
    · next hx => exact hx ▸ h _
    · exact ⟨rfl, rfl⟩
  offers := rfl

theorem modDesc_step (q d : Nat) (f : SDesc → SDesc) : QueueStep q s (s.modDesc d f) := .of_withSump rfl rfl

theorem modSCell_step (q c : Nat) (f : SCell → SCell) : QueueStep q s (s.modSCell c f) := .of_withSump rfl rfl

/-! ### Packets given back (08_sump R182) -/

/-- A packet's place in its queue. -/
def SQueue.without (d : Nat) (w : SQueue) : SQueue :=
  { w with vis := w.vis.filter (· ≠ d), opens := w.opens.filter (· ≠ d), prog := w.prog.filter (·.2 ≠ d)
           doomed := w.doomed.filter (· ≠ d) }

@[simp] theorem dropPacket_queue (d r : Nat) :
    (dropPacket d s).queue r = if (s.desc d).queue = r then (s.queue r).without d else s.queue r := by
  refine (State.modQueue_queue _ _ r _).trans ?_
  split
  · next h => subst h; rfl
  · rfl

@[simp] theorem dropPacket_desc (d e : Nat) : (dropPacket d s).desc e = if d = e then { s.desc d with cells := [] } else s.desc e :=
  s.modDesc_desc d e fun v => { v with cells := [] }

@[simp] theorem dropPacket_scell (d e : Nat) : (dropPacket d s).scell e = s.scell e := rfl
@[simp] theorem dropPacket_cfg (d : Nat) : (dropPacket d s).cfg = s.cfg := rfl
@[simp] theorem dropPacket_gone (d : Nat) : (dropPacket d s).sump.gone = s.sump.gone ++ (s.desc d).cells := rfl
@[simp] theorem dropPacket_goneDescs (d : Nat) : (dropPacket d s).sump.goneDescs = s.sump.goneDescs ++ [d] := rfl

theorem dropPacket_step (q d : Nat) : QueueStep q s (dropPacket d s) := by
  unfold dropPacket
  extract_lets v t u
  exact ((QueueStep.of_withSump rfl rfl).trans (modDesc_step t q d _)).trans (modQueue_step_of_kept u q v.queue fun _ => ⟨rfl, rfl⟩)

@[simp] theorem rewind_sump (d : Nat) : (rewind d s).sump = (dropPacket d s).sump := by
  rw [rewind, flagSump_sump, countSump_sump]

theorem rewind_step (q d : Nat) : QueueStep q s (rewind d s) :=
  ((dropPacket_step s q d).trans (countSump_counted _ (by decide) 2).queueStep).trans (flagSump_counted _ 8).queueStep

theorem rewind_countedOne (d : Nat) : CountedOne .sumpCntRewind 0 s (rewind d s) :=
  CountedMany.then (countSump_countedOne (dropPacket d s) (by decide) 2) (flagSump_countedNone _ (by decide) 8)

/-- A rewind counts in `SUMP_CNT_REWIND` alone. -/
theorem rewind_countedNone {k : RegKind} (hk : k ∈ sumpCounters) (hne : k.addr 0 ≠ RegKind.sumpCntRewind.addr 0) (d : Nat) :
    CountedMany k 0 0 s (rewind d s) :=
  (countSump_countedNone (dropPacket d s) hk hne 2).trans (flagSump_countedNone _ hk 8)

theorem closeDesc_step (q : Nat) (p : Producer) (d : Nat) : QueueStep q s (closeDesc q p d s) := by
  unfold closeDesc
  extract_lets u v w x
  have hu : QueueStep q s u := modQueue_step s q _
  refine .ite ?_ (hu.trans (rewind_step u q d))
  have hx : QueueStep q w x := by
    unfold x
    split
    · exact modSCell_step w q _ _
    · exact .refl
  have hcount : SumpCounted x (flagSump 9 (countSump .sumpCntTrunc 3 x)) := (countSump_counted x (by decide) 3).trans (flagSump_counted _ 9)
  exact ((hu.trans (modDesc_step u q d _)).trans hx).trans hcount.queueStep

theorem closePacket_step (q : Nat) (p : Producer) : QueueStep q s (closePacket q p s) := by
  unfold closePacket
  split
  · exact .refl
  · exact closeDesc_step s q p _

/-- An open packet that is closed is rewound. -/
theorem closeDesc_of_open {q d : Nat} (p : Producer) (h : (s.desc d).vis = false) :
    closeDesc q p d s = rewind d (s.modQueue q fun v =>
      { v with prog := v.prog.filter (·.1 ≠ p), dropping := if v.dropping.contains p then v.dropping else v.dropping ++ [p] }) := by
  rw [closeDesc, State.modQueue_desc, h]
  rfl

end Sys2Proof.Machine
end

section
/-! SUPPORT. Pops of the Sump (08_sump R184, R191): the errors that a pop counts and logs, the pops that find nothing, and what a pop takes
of a stream queue and of a packet. -/

namespace Sys2Proof.Machine

variable (s : State)

/-! ### The commands -/

theorem exec_sumpPop (port : Fin 4) (q : Fin 2048) (e0 e1 : BeatFound) :
    exec (.sumpPop port q e0 e1) s = .next (sumpPop port.val q.val e0 e1 s) := rfl

theorem exec_laneQueueDrain (n : Fin 96) (e0 e1 : BeatFound) : exec (.laneQueueDrain n e0 e1) s = .next (drainLane n.val e0 e1 s) := rfl

/-! ### What a pop leaves alone -/

/-- The registers that a pop may write: those of the Sump, and those of the fault log. -/
def popRegisters : List Nat := RegKind.scrubEvt.addr 0 :: RegKind.flogLostCnt.addr 0 :: sumpRegisters

/-- A state without what a pop may change beside registers: the Sump and the fault log. -/
def State.popFrame : State := { s with flog := State.reset.flog }.sumpFrame

@[simp] theorem State.withSump_popFrame (f : Sump → Sump) : (s.withSump f).popFrame = s.popFrame := rfl

section

variable {s} {t : State} (h : t.popFrame = s.popFrame)
include h

theorem portals_of_popFrame : t.portals = s.portals := (congrArg State.portals h :)

theorem haul_of_popFrame : t.haul = s.haul := (congrArg State.haul h :)

theorem besideFlags_of_popFrame : besideFlags { t with sump := s.sump, flog := s.flog } = besideFlags s :=
  (congrArg (fun u : State => { u with sump := s.sump, flog := s.flog }) h :)

end

/-- From `s` to `t` nothing but flags, registers of the Sump and the fault log has changed. -/
structure PopCounted (s t : State) : Prop where
  beside : besideFlags { t with flog := State.reset.flog } = besideFlags { s with flog := State.reset.flog }
  regs : RegsKept popRegisters s t

/-- From `s` to `t` a pop has acted: beside the Sump and the fault log only flags and registers have changed, and in the Sump the cells'
contents, the ports' uses in this clock and the pops on their way have stayed. -/
structure PopStep (s t : State) : Prop where
  frame : t.popFrame = s.popFrame
  regs : RegsKept popRegisters s t
  cells : t.sump.cells = s.sump.cells
  moved : t.sump.moved = s.sump.moved
  reads : t.sump.reads = s.sump.reads

section

variable {s} {t u : State}

theorem PopCounted.refl : PopCounted s s := ⟨rfl, .refl s _⟩

theorem PopCounted.trans (h : PopCounted s t) (h' : PopCounted t u) : PopCounted s u :=
  ⟨h'.beside.trans h.beside, h.regs.trans h'.regs⟩

theorem PopCounted.sump (h : PopCounted s t) : t.sump = s.sump := (congrArg State.sump h.beside :)

theorem PopCounted.cfg (h : PopCounted s t) : t.cfg = s.cfg := (congrArg State.cfg h.beside :)

theorem SumpCounted.popCounted (h : SumpCounted s t) : PopCounted s t where
  beside := (congrArg (fun v : State => { v with flog := State.reset.flog }) h.beside :)
  regs := h.regs.mono fun _ ha => .inl (List.mem_cons_of_mem _ (List.mem_cons_of_mem _ ha))

theorem PopStep.refl : PopStep s s := ⟨rfl, .refl s _, rfl, rfl, rfl⟩

theorem PopStep.trans (h : PopStep s t) (h' : PopStep t u) : PopStep s u :=
  ⟨h'.frame.trans h.frame, h.regs.trans h'.regs, h'.cells.trans h.cells, h'.moved.trans h.moved, h'.reads.trans h.reads⟩

theorem PopStep.ite {c : Prop} [Decidable c] (ht : PopStep s t) (hu : PopStep s u) : PopStep s (if c then t else u) := by
  split <;> assumption

theorem PopCounted.popStep (h : PopCounted s t) : PopStep s t where
  frame := (congrArg State.sumpFrame h.beside :)
  regs := h.regs
  cells := congrArg Sump.cells h.sump
  moved := congrArg Sump.moved h.sump
  reads := congrArg Sump.reads h.sump

/-- An update of the Sump that leaves the cells' contents, the uses of the ports and the pops on their way alone. -/
theorem PopStep.of_withSump {f : Sump → Sump} (hc : (f s.sump).cells = s.sump.cells) (hm : (f s.sump).moved = s.sump.moved)
    (hr : (f s.sump).reads = s.sump.reads) : PopStep s (s.withSump f) := ⟨rfl, .same (.refl s _) rfl, hc, hm, hr⟩

end

theorem modQueue_popStep (q : Nat) (f : SQueue → SQueue) : PopStep s (s.modQueue q f) := .of_withSump rfl rfl rfl

theorem modDesc_popStep (d : Nat) (f : SDesc → SDesc) : PopStep s (s.modDesc d f) := .of_withSump rfl rfl rfl

theorem dropPacket_popStep (d : Nat) : PopStep s (dropPacket d s) := by
  unfold dropPacket
  extract_lets v t u
  have ht : PopStep s t := .of_withSump rfl rfl rfl
  exact (ht.trans (modDesc_popStep t d _)).trans (modQueue_popStep u v.queue _)

theorem logFault_counted (code inst : Nat) : PopCounted s (logFault code inst s) where
  beside := (congrArg (fun u : State => { u with flog := State.reset.flog }) (logFault_besideFlags s code inst) :)
  regs := (logFault_kept s code inst).mono fun a ha => .inl (by simp [popRegisters]; simp at ha; tauto)

/-! ### Errors found (08_sump R191, 18_self_test_faults R453) -/

/-- What holds of each of several steps holds of all of them. -/
theorem times_rel {R : State → State → Prop} (hrefl : ∀ u, R u u) (htrans : ∀ {u v w}, R u v → R v w → R u w) {f : State → State}
    (hf : ∀ u, R u (f u)) (n : Nat) : R s (times n f s) := by
  induction n generalizing s with
  | zero => exact hrefl s
  | succ n ih => exact htrans (hf s) (ih (f s))

theorem times_counted {k : RegKind} {i m : Nat} {f : State → State} (hf : ∀ u, CountedMany k i m u (f u)) (n : Nat) :
    CountedMany k i (n * m) s (times n f s) := by
  induction n generalizing s with
  | zero => exact (Nat.zero_mul m).symm ▸ .of_reg rfl
  | succ n ih =>
    rw [Nat.succ_mul, Nat.add_comm]
    exact (hf s).trans (ih (f s))

/-- A group corrected. -/
def correctedGroup (s : State) : State := flagSump 4 (countSump .sumpCntCorr 6 s)

/-- A group found uncorrectable in cell `c`. -/
def lostGroup (c : Nat) (s : State) : State := logFault 0x05 c (flagSump 5 (countSump .sumpCntUncorr 7 s))

theorem popErrors_eq (c : Nat) (fixed bad : BitVec 16) : popErrors c fixed bad s =
    times (bitCount bad) (lostGroup c) (times (bitCount (fixed &&& ~~~bad)) correctedGroup s) := rfl

theorem correctedGroup_counted : SumpCounted s (correctedGroup s) :=
  (countSump_counted (k := .sumpCntCorr) s (by decide) 6).trans (flagSump_counted _ 4)

theorem lostGroup_counted (c : Nat) : PopCounted s (lostGroup c s) :=
  ((countSump_counted (k := .sumpCntUncorr) s (by decide) 7).trans (flagSump_counted _ 5)).popCounted.trans (logFault_counted _ 0x05 c)

theorem popErrors_counted (c : Nat) (fixed bad : BitVec 16) : PopCounted s (popErrors c fixed bad s) := by
  rw [popErrors_eq]
  exact (times_rel s (fun _ => .refl) .trans (fun u => (correctedGroup_counted u).popCounted) _).trans
    (times_rel _ (fun _ => .refl) .trans (fun u => lostGroup_counted u c) _)

/-- An entry of the fault log counts in no counter of the Sump. -/
theorem logFault_countedNone {k : RegKind} (hk : k ∈ sumpCounters) (code inst : Nat) : CountedMany k 0 0 s (logFault code inst s) := by
  obtain ⟨-, hevent, -, -, hlog⟩ := sumpCounter_addr hk
  exact .of_kept (logFault_kept s code inst) hlog hevent

/-- The groups corrected are counted in `SUMP_CNT_CORR`. -/
theorem popErrors_corrected (c : Nat) (fixed bad : BitVec 16) :
    CountedMany .sumpCntCorr 0 (bitCount (fixed &&& ~~~bad)) s (popErrors c fixed bad s) := by
  have hcorrected (u : State) : CountedMany .sumpCntCorr 0 1 u (correctedGroup u) :=
    CountedMany.then (countSump_countedOne u (by decide) 6) (flagSump_countedNone _ (by decide) 4)
  have hlost (u : State) : CountedMany .sumpCntCorr 0 0 u (lostGroup c u) :=
    ((countSump_countedNone u (by decide) (by decide) 7).trans (flagSump_countedNone _ (by decide) 5)).trans
      (logFault_countedNone _ (by decide) 0x05 c)
  rw [popErrors_eq]
  simpa using (times_counted s hcorrected _).trans (times_counted _ hlost (bitCount bad))

/-- The groups found uncorrectable are counted in `SUMP_CNT_UNCORR`. -/
theorem popErrors_lost (c : Nat) (fixed bad : BitVec 16) :
    CountedMany .sumpCntUncorr 0 (bitCount bad) s (popErrors c fixed bad s) := by
  have hcorrected (u : State) : CountedMany .sumpCntUncorr 0 0 u (correctedGroup u) :=
    (countSump_countedNone u (by decide) (by decide) 6).trans (flagSump_countedNone _ (by decide) 4)
  have hlost (u : State) : CountedMany .sumpCntUncorr 0 1 u (lostGroup c u) :=
    (CountedMany.then (countSump_countedOne u (by decide) 7) (flagSump_countedNone _ (by decide) 5)).then
      (logFault_countedNone _ (by decide) 0x05 c)
  rw [popErrors_eq]
  simpa using (times_counted s hcorrected (bitCount (fixed &&& ~~~bad))).trans (times_counted _ hlost (bitCount bad))

/-! ### Pops that find nothing -/

section

variable (port q : Nat) (e0 e1 : BeatFound)

/-- A queue that may be popped from a port (08_sump R184). -/
def State.popsFrom : Prop := qEn s.cfg q = true ∧ qMayPop s.cfg q port = true

variable {s port q}

theorem popQueue_of_barred (h : ¬ s.popsFrom port q) : popQueue port q e0 e1 s = popNothing false s := by
  rw [State.popsFrom, not_and_or, Bool.not_eq_true, Bool.not_eq_true] at h
  exact if_pos h

/-- A pop that may take place, by the queue's mode. -/
theorem popsFrom_open (h : s.popsFrom port q) : ¬ (qEn s.cfg q = false ∨ qMayPop s.cfg q port = false) := by
  obtain ⟨hen, hmay⟩ := h
  simp [hen, hmay]

theorem popQueue_of_empty (h : s.popsFrom port q)
    (hnone : (qPkt s.cfg q = true ∧ (s.queue q).vis = []) ∨ (qPkt s.cfg q = false ∧ (s.queue q).stream = [])) :
    popQueue port q e0 e1 s = popNothing (s.holdsCell q) s := by
  obtain ⟨hpkt, hvis⟩ | ⟨hpkt, hstream⟩ := hnone
  · simp only [popQueue, if_neg (popsFrom_open h), hpkt, if_true, hvis]
  · simp only [popQueue, if_neg (popsFrom_open h), hpkt, Bool.false_eq_true, if_false, hstream]

theorem popQueue_stream_of_waiting (h : s.popsFrom port q) (hpkt : qPkt s.cfg q = false) {c : Nat} {rest : List Nat}
    (hs : (s.queue q).stream = c :: rest) (hc : (s.scell c).committed = false) :
    popQueue port q e0 e1 s = popNothing (s.holdsCell q) s := by
  simp only [popQueue, if_neg (popsFrom_open h), hpkt, Bool.false_eq_true, if_false, hs, hc]

theorem popQueue_packet_of_waiting (h : s.popsFrom port q) (hpkt : qPkt s.cfg q = true) {d : Nat} {more : List Nat}
    (hd : (s.queue q).vis = d :: more) {c : Nat} {rest : List Nat} (hcells : (s.desc d).cells = c :: rest)
    (hc : (s.scell c).committed = false) : popQueue port q e0 e1 s = popNothing (s.holdsCell q) s := by
  simp only [popQueue, if_neg (popsFrom_open h), hpkt, if_true, hd, hcells, hc, Bool.false_eq_true, if_false]

theorem popQueue_packet_of_drained (h : s.popsFrom port q) (hpkt : qPkt s.cfg q = true) {d : Nat} {more : List Nat}
    (hd : (s.queue q).vis = d :: more) (hcells : (s.desc d).cells = []) (ht : (s.desc d).trunc = false) :
    popQueue port q e0 e1 s = popNothing (s.holdsCell q) s := by
  simp only [popQueue, if_neg (popsFrom_open h), hpkt, if_true, hd, hcells, ht, Bool.false_eq_true, if_false]

end

/-! ### Pops that take something -/

@[simp] theorem usePort_queue (port q : Nat) (pop : Bool) (r : Nat) : (usePort port q pop s).queue r = s.queue r := rfl
@[simp] theorem usePort_desc (port q : Nat) (pop : Bool) (d : Nat) : (usePort port q pop s).desc d = s.desc d := rfl
@[simp] theorem usePort_portal (port q : Nat) (pop : Bool) (p : Nat) : (usePort port q pop s).portal p = s.portal p := rfl
@[simp] theorem usePort_scell (port q : Nat) (pop : Bool) (c : Nat) : (usePort port q pop s).scell c = s.scell c := rfl

/-- Packets and bytes counted on the pop side change the queue's counts alone, and flags. -/
theorem countOut_counted (q pkts bytes : Nat) : SumpCounted
    (s.modQueue q fun v => { v with pktsOut := count64 v.pktsOut pkts, bytesOut := count64 v.bytesOut bytes })
    (countOut q pkts bytes s) := by
  unfold countOut
  extract_lets v u w
  exact .ite (evtOverflow_counted u 3) (.refl u)

@[simp] theorem countOut_sump (q pkts bytes : Nat) : (countOut q pkts bytes s).sump =
    (s.modQueue q fun v => { v with pktsOut := count64 v.pktsOut pkts, bytesOut := count64 v.bytesOut bytes }).sump :=
  (countOut_counted s q pkts bytes).sump

theorem countOut_popStep (q pkts bytes : Nat) : PopStep s (countOut q pkts bytes s) :=
  (modQueue_popStep s q _).trans (countOut_counted s q pkts bytes).popCounted.popStep

/-- Packets and bytes counted on the pop side count in no counter of the Sump. -/
theorem countOut_countedNone {k : RegKind} (hk : k ∈ sumpCounters) (q pkts bytes : Nat) :
    CountedMany k 0 0 s (countOut q pkts bytes s) := by
  obtain ⟨-, hevent, -⟩ := sumpCounter_addr hk
  unfold countOut
  extract_lets v u w
  refine .of_kept (l := []) (.ite s ?_ ?_) (by simp) hevent
  · exact .trans (.same (.refl s _) rfl) (evtOverflow_kept u _ 3)
  · exact .same (.refl s _) rfl

/-- The groups that a pop finds uncorrectable in the first beat of a cell. -/
def State.headLost (c : Nat) (e0 : BeatFound) : BitVec 16 := (s.scell c).err0 ||| e0.bad

/-- The groups that a pop finds uncorrectable in the second beat of a cell, where it has one. -/
def State.secondLost (c : Nat) (e1 : BeatFound) : BitVec 16 :=
  if 1 < (s.scell c).beats.length then (s.scell c).err1 ||| e1.bad else 0

/-- A cell leaves its stream queue. -/
def leaveStream (q c : Nat) (rest : List Nat) : State :=
  (s.withSump fun u => { u with gone := u.gone ++ [c] }).modQueue q fun x =>
    { x with timer := 0, stream := rest, doomed := x.doomed.filter (· ≠ c) }

/-- A cell leaves the packet at the head of its queue; `lost` says that a group of it is uncorrectable. -/
def leavePacket (q d c : Nat) (rest : List Nat) (lost0 lost1 : Bool) : State :=
  ((s.modDesc d fun v => { v with cells := rest, begun := true, bad := v.bad || lost0 || lost1 }).withSump fun u =>
    { u with gone := u.gone ++ [c] }).modQueue q fun x => { x with timer := 0 }

/-- The errors of both beats of a cell, counted and logged. -/
def cellErrors (c : Nat) (e0 e1 : BeatFound) : State :=
  let u := popErrors c e0.corrected (s.headLost c e0) s
  if 1 < (s.scell c).beats.length then popErrors c e1.corrected (s.secondLost c e1) u else u

theorem cellErrors_counted (c : Nat) (e0 e1 : BeatFound) : PopCounted s (cellErrors s c e0 e1) := by
  unfold cellErrors
  extract_lets u
  have hu : PopCounted s u := popErrors_counted s c _ _
  split
  · exact hu.trans (popErrors_counted u c _ _)
  · exact hu

theorem cellErrors_lost (c : Nat) (e0 e1 : BeatFound) :
    CountedMany .sumpCntUncorr 0 (bitCount (s.headLost c e0) + bitCount (s.secondLost c e1)) s (cellErrors s c e0 e1) := by
  unfold cellErrors
  extract_lets u
  have hu : CountedMany .sumpCntUncorr 0 (bitCount (s.headLost c e0)) s u := popErrors_lost s c _ _
  split
  · exact hu.trans (popErrors_lost u c _ _)
  · next h => rw [State.secondLost, if_neg h]; exact hu

/-- A packet whose cell `c` is popped (08_sump R184): with its last cell it is given back. -/
def packetPopped (q d c : Nat) (rest : List Nat) (e0 e1 : BeatFound) : State :=
  let ended := (s.scell c).beats.any SumpBeat.eop
  let u := countOut q (bitNat ended) ((s.scell c).beats.map SumpBeat.bytes).sum
    (leavePacket (cellErrors s c e0 e1) q d c rest (s.headLost c e0 ≠ 0) (s.secondLost c e1 ≠ 0))
  if ended then dropPacket d u else u

section

variable {s} {port q : Nat} (e0 e1 : BeatFound)

/-- The oldest cell of a stream queue popped. -/
theorem popQueue_stream (h : s.popsFrom port q) (hpkt : qPkt s.cfg q = false) {c : Nat} {rest : List Nat}
    (hs : (s.queue q).stream = c :: rest) (hc : (s.scell c).committed = true) :
    popQueue port q e0 e1 s = ((some c, popBeats (s.scell c).beats (s.headLost c e0 ≠ 0) false none),
      countOut q 0 ((s.scell c).beats.map SumpBeat.bytes).sum
        (leaveStream (popErrors c e0.corrected (s.headLost c e0) s) q c rest)) := by
  simp only [popQueue, if_neg (popsFrom_open h), hpkt, Bool.false_eq_true, if_false, hs, hc, if_true]
  rfl

/-- The next cell of a packet popped. -/
theorem popQueue_packet (h : s.popsFrom port q) (hpkt : qPkt s.cfg q = true) {d : Nat} {more : List Nat}
    (hd : (s.queue q).vis = d :: more) {c : Nat} {rest : List Nat} (hcells : (s.desc d).cells = c :: rest)
    (hc : (s.scell c).committed = true) :
    popQueue port q e0 e1 s =
      ((some c, popBeats (s.scell c).beats (s.headLost c e0 ≠ 0) (s.secondLost c e1 ≠ 0) (some (s.desc d))),
        packetPopped s q d c rest e0 e1) := by
  by_cases hl : 1 < (s.scell c).beats.length
  · simp only [popQueue, if_neg (popsFrom_open h), hpkt, if_true, hd, hcells, hc, packetPopped, cellErrors, State.secondLost, if_pos hl]
    rfl
  · simp only [popQueue, if_neg (popsFrom_open h), hpkt, if_true, hd, hcells, hc, packetPopped, cellErrors, State.secondLost, if_neg hl]
    rfl

/-- The closing beat of a packet that the Sump has closed (08_sump R182). -/
theorem popQueue_closing (h : s.popsFrom port q) (hpkt : qPkt s.cfg q = true) {d : Nat} {more : List Nat}
    (hd : (s.queue q).vis = d :: more) (hcells : (s.desc d).cells = []) (ht : (s.desc d).trunc = true) :
    popQueue port q e0 e1 s = ((none, [{ data := 0, tag := sumpTag false false true true (s.desc d).mark false false false true 0 }]),
      countOut q 1 0 (dropPacket d s)) := by
  simp only [popQueue, if_neg (popsFrom_open h), hpkt, if_true, hd, hcells, ht]

end

/-! ### A pop at a port -/

theorem popNothing_step (pend : Bool) : PopStep s (popNothing pend s).2 :=
  (countSump_counted (k := .sumpCntEmpty) s (by decide) 9).popCounted.popStep

theorem leaveStream_step (q c : Nat) (rest : List Nat) : PopStep s (leaveStream s q c rest) :=
  .trans (.of_withSump rfl rfl rfl) (modQueue_popStep _ q _)

theorem leavePacket_step (q d c : Nat) (rest : List Nat) (lost0 lost1 : Bool) : PopStep s (leavePacket s q d c rest lost0 lost1) :=
  .trans (.trans (modDesc_popStep s d _) (.of_withSump rfl rfl rfl)) (modQueue_popStep _ q _)

theorem leavePacket_countedNone (k : RegKind) (q d c : Nat) (rest : List Nat) (lost0 lost1 : Bool) :
    CountedMany k 0 0 s (leavePacket s q d c rest lost0 lost1) :=
  .of_regs (by rw [leavePacket, State.modQueue_regs, State.withSump_regs, State.modDesc_regs]) k 0

theorem packetPopped_step (q d c : Nat) (rest : List Nat) (e0 e1 : BeatFound) : PopStep s (packetPopped s q d c rest e0 e1) := by
  unfold packetPopped
  extract_lets ended u
  have hu : PopStep s u :=
    ((cellErrors_counted s c e0 e1).popStep.trans (leavePacket_step _ q d c rest _ _)).trans (countOut_popStep _ q _ _)
  exact .ite (hu.trans (dropPacket_popStep u d)) hu

theorem popQueue_step (port q : Nat) (e0 e1 : BeatFound) : PopStep s (popQueue port q e0 e1 s).2 := by
  by_cases h : s.popsFrom port q
  case neg =>
    rw [popQueue_of_barred e0 e1 h]
    exact popNothing_step s _
  cases hpkt : qPkt s.cfg q with
  | false =>
    cases hs : (s.queue q).stream with
    | nil =>
      rw [popQueue_of_empty e0 e1 h (.inr ⟨hpkt, hs⟩)]
      exact popNothing_step s _
    | cons c rest =>
      cases hc : (s.scell c).committed with
      | false =>
        rw [popQueue_stream_of_waiting e0 e1 h hpkt hs hc]
        exact popNothing_step s _
      | true =>
        rw [popQueue_stream e0 e1 h hpkt hs hc]
        exact ((popErrors_counted s c _ _).popStep.trans (leaveStream_step _ q c rest)).trans (countOut_popStep _ q _ _)
  | true =>
    cases hd : (s.queue q).vis with
    | nil =>
      rw [popQueue_of_empty e0 e1 h (.inl ⟨hpkt, hd⟩)]
      exact popNothing_step s _
    | cons d more =>
      cases hcells : (s.desc d).cells with
      | nil =>
        cases ht : (s.desc d).trunc with
        | false =>
          rw [popQueue_packet_of_drained e0 e1 h hpkt hd hcells ht]
          exact popNothing_step s _
        | true =>
          rw [popQueue_closing e0 e1 h hpkt hd hcells ht]
          exact (dropPacket_popStep s d).trans (countOut_popStep _ q _ _)
      | cons c rest =>
        cases hc : (s.scell c).committed with
        | false =>
          rw [popQueue_packet_of_waiting e0 e1 h hpkt hd hcells hc]
          exact popNothing_step s _
        | true =>
          rw [popQueue_packet e0 e1 h hpkt hd hcells hc]
          exact packetPopped_step s q d c rest e0 e1

/-- A pop at a port, whose beats are on their way. -/
theorem portPop_eq (port q : Nat) (e0 e1 : BeatFound) (dest : PopTo) : portPop port q e0 e1 dest s =
    let r := popQueue port q e0 e1 (usePort port q true s)
    r.2.withSump fun u => { u with reads := u.reads ++ [{ port := port, cell := r.1.1, beats := r.1.2, dest := dest }] } := rfl

/-- A pop at a port leaves alone what is beside the Sump, the fault log and flags. -/
theorem portPop_frame (port q : Nat) (e0 e1 : BeatFound) (dest : PopTo) : (portPop port q e0 e1 dest s).popFrame = s.popFrame := by
  rw [portPop_eq, State.withSump_popFrame, (popQueue_step (usePort port q true s) port q e0 e1).frame, usePort,
    State.withSump_popFrame]

theorem portPop_portals (port q : Nat) (e0 e1 : BeatFound) (dest : PopTo) : (portPop port q e0 e1 dest s).portals = s.portals :=
  portals_of_popFrame (portPop_frame s port q e0 e1 dest)

theorem portPop_haul (port q : Nat) (e0 e1 : BeatFound) (dest : PopTo) : (portPop port q e0 e1 dest s).haul = s.haul :=
  haul_of_popFrame (portPop_frame s port q e0 e1 dest)

section

variable {s} {q : Nat}

/-- What is left of a stream queue whose oldest cell is popped, and what is counted. -/
theorem streamPopped (c : Nat) (rest : List Nat) (bytes : Nat) (fixed lost : BitVec 16) :
    let t := countOut q 0 bytes (leaveStream (popErrors c fixed lost s) q c rest)
    (t.queue q).stream = rest ∧ t.sump.gone = s.sump.gone ++ [c] ∧ (t.queue q).timer = 0 ∧
      (t.queue q).bytesOut = min ((s.queue q).bytesOut + bytes) (2 ^ 64 - 1) ∧
      CountedMany .sumpCntCorr 0 (bitCount (fixed &&& ~~~lost)) s t ∧ CountedMany .sumpCntUncorr 0 (bitCount lost) s t := by
  intro t
  have herrors := (popErrors_counted s c fixed lost).sump
  have hqueue : t.queue q = _ := State.queue_congr (countOut_sump _ q 0 bytes) q
  have hcounted {k : RegKind} (hk : k ∈ sumpCounters) : CountedMany k 0 0 (popErrors c fixed lost s) t :=
    .then (.of_regs rfl k 0) (countOut_countedNone (leaveStream (popErrors c fixed lost s) q c rest) hk q 0 bytes)
  refine ⟨?_, ?_, ?_, ?_, ?_, ?_⟩
  · rw [hqueue]; simp [leaveStream]
  · simp [t, leaveStream, herrors]
  · rw [hqueue]; simp [leaveStream]
  · rw [hqueue]; simp [leaveStream, State.queue, herrors, count64]
  · exact (popErrors_corrected s c fixed lost).then (hcounted (by decide))
  · exact (popErrors_lost s c fixed lost).then (hcounted (by decide))

/-- What is left of a packet whose cell is popped, and what is counted. -/
theorem packetPopped_facts (d c : Nat) (rest : List Nat) (e0 e1 : BeatFound) :
    c ∈ (packetPopped s q d c rest e0 e1).sump.gone ∧
      ((packetPopped s q d c rest e0 e1).desc d).cells = (if (s.scell c).beats.any SumpBeat.eop then [] else rest) ∧
      ((packetPopped s q d c rest e0 e1).queue q).timer = 0 ∧
      ((s.scell c).beats.any SumpBeat.eop = true → d ∉ ((packetPopped s q d c rest e0 e1).queue (s.desc d).queue).vis ∧
        d ∈ (packetPopped s q d c rest e0 e1).sump.goneDescs) ∧
      CountedMany .sumpCntUncorr 0 (bitCount (s.headLost c e0) + bitCount (s.secondLost c e1)) s
        (packetPopped s q d c rest e0 e1) := by
  unfold packetPopped
  extract_lets ended u
  have herrors := (cellErrors_counted s c e0 e1).sump
  have hsump : u.sump = _ := countOut_sump _ q _ _
  have hgone : u.sump.gone = s.sump.gone ++ [c] := by simp [hsump, leavePacket, herrors]
  have hdesc : (u.desc d).cells = rest ∧ (u.desc d).queue = (s.desc d).queue := by
    simp [State.desc, hsump, leavePacket, herrors]
  have htimer : (u.queue q).timer = 0 := by simp [State.queue, hsump, leavePacket]
  have hlost : CountedMany .sumpCntUncorr 0 (bitCount (s.headLost c e0) + bitCount (s.secondLost c e1)) s u :=
    ((cellErrors_lost s c e0 e1).then (leavePacket_countedNone ..)).then (countOut_countedNone _ (by decide) q _ _)
  obtain ⟨hcells, hhome⟩ := hdesc
  clear_value u
  cases hended : ended with
  | false =>
    have hany : (s.scell c).beats.any SumpBeat.eop = false := hended
    rw [hany, if_neg Bool.false_ne_true]
    exact ⟨by simp [hgone], hcells, htimer, nofun, hlost⟩
  | true =>
    have hany : (s.scell c).beats.any SumpBeat.eop = true := hended
    rw [hany, if_pos rfl]
    refine ⟨by simp [hgone], by simp, ?_, fun _ => ⟨?_, by simp⟩, hlost⟩
    · rw [dropPacket_queue]
      split <;> exact htimer
    · simp [hhome, SQueue.without]

end

/-- What a pop at a port takes, gives and counts. -/
theorem portPop_popsAt (port q : Nat) (e0 e1 : BeatFound) (dest : PopTo) : PopsAt port q e0 e1 dest s (portPop port q e0 e1 dest s) := by
  let v := usePort port q true s
  have hframe : besideFlags { portPop port q e0 e1 dest s with sump := s.sump, flog := s.flog } = besideFlags s :=
    besideFlags_of_popFrame (portPop_frame s port q e0 e1 dest)
  have hstep : PopStep v (popQueue port q e0 e1 v).2 := popQueue_step v port q e0 e1
  have hreads {r : Popped × State} (h : popQueue port q e0 e1 v = r) : (portPop port q e0 e1 dest s).sump.reads =
      s.sump.reads ++ [{ port := port, cell := r.1.1, beats := r.1.2, dest := dest }] := by
    rw [portPop_eq, State.withSump_sump, hstep.reads, h]
    rfl
  have hqueue (x : Nat) : (portPop port q e0 e1 dest s).queue x = (popQueue port q e0 e1 v).2.queue x := rfl
  have hdesc (d : Nat) : (portPop port q e0 e1 dest s).desc d = (popQueue port q e0 e1 v).2.desc d := rfl
  have hgone : (portPop port q e0 e1 dest s).sump.gone = (popQueue port q e0 e1 v).2.sump.gone := rfl
  have hgoneDescs : (portPop port q e0 e1 dest s).sump.goneDescs = (popQueue port q e0 e1 v).2.sump.goneDescs := rfl
  have hcounted {k : RegKind} {n : Nat} (h : CountedMany k 0 n v (popQueue port q e0 e1 v).2) :
      CountedMany k 0 n s (portPop port q e0 e1 dest s) := h
  have hmoved : (portPop port q e0 e1 dest s).sump.moved = s.sump.moved ++ [(port, true, q)] := hstep.moved
  have hcells : (portPop port q e0 e1 dest s).sump.cells = s.sump.cells := hstep.cells
  have hregs : RegsKept popRegisters s (portPop port q e0 e1 dest s) := .same hstep.regs rfl
  generalize portPop port q e0 e1 dest s = t at *
  have hnothing {pend : Bool} (h : popQueue port q e0 e1 v = popNothing pend v) :
      t.sump.reads = s.sump.reads ++ [{ port := port, cell := none, beats := [notValidBeat pend], dest := dest }] ∧
      CountedOne .sumpCntEmpty 0 s t ∧ t.queue q = s.queue q ∧ t.sump.gone = s.sump.gone := by
    have hsump : (popNothing pend v).2.sump = v.sump := countSump_sump v .sumpCntEmpty 9
    refine ⟨hreads h, hcounted (n := 1) ?_, ?_, ?_⟩
    · rw [h]
      exact countSump_countedOne v (by decide) 9
    · rw [hqueue, h]
      exact State.queue_congr (s := v) hsump q
    · rw [hgone, h]
      exact (congrArg Sump.gone hsump :)
  refine ⟨fun h => hnothing (popQueue_of_barred e0 e1 h), fun h hnone => hnothing (popQueue_of_empty e0 e1 (s := v) h hnone),
    fun c rest h hpkt hs => ⟨fun hc => hnothing (popQueue_stream_of_waiting e0 e1 (s := v) h hpkt hs hc), fun hc => ?_⟩,
    fun d more c rest h hpkt hd hcells =>
      ⟨fun hc => hnothing (popQueue_packet_of_waiting e0 e1 (s := v) h hpkt hd hcells hc), fun hc => ?_⟩,
    fun d more h hpkt hd hcells =>
      ⟨fun ht => hnothing (popQueue_packet_of_drained e0 e1 (s := v) h hpkt hd hcells ht), fun ht => ?_⟩,
    hmoved, hcells, hregs, hframe⟩
  · have hpop := popQueue_stream e0 e1 (s := v) h hpkt hs hc
    obtain ⟨hstream, hleft, htimer, hbytes, hcorrected, hlost⟩ :=
      streamPopped (s := v) (q := q) c rest ((s.scell c).beats.map SumpBeat.bytes).sum e0.corrected (s.headLost c e0)
    have hreads' := hreads hpop
    rw [hqueue, hgone, hpop]
    rw [hpop] at hcounted
    exact ⟨hreads', hstream, hleft, htimer, hbytes, hcounted hcorrected, hcounted hlost⟩
  · have hpop := popQueue_packet e0 e1 (s := v) h hpkt hd hcells hc
    obtain ⟨hleft, hrest, htimer, hlast, hlost⟩ := packetPopped_facts (s := v) (q := q) d c rest e0 e1
    have hreads' := hreads hpop
    rw [hqueue, hqueue, hdesc, hgone, hgoneDescs, hpop]
    rw [hpop] at hcounted
    exact ⟨hreads', hleft, hrest, htimer, hlast, hcounted hlost⟩
  · have hpop := popQueue_closing e0 e1 (s := v) h hpkt hd hcells ht
    refine ⟨hreads hpop, ?_⟩
    rw [hgoneDescs, hpop]
    simp

/-! ### The attachments that ports 2 and 3 serve (08_sump R169) -/

theorem showHauler_kept (m : Nat) : RegsKept (if m < 64 then [RegKind.hchStatus, .hchCur, .hchLeft, .hchErraddr, .hchTag, .hchRetry,
    .hchEvt].map fun k => k.addr m else []) s (showHauler m s) := by
  unfold showHauler
  split
  · have hset {u : State} {k : RegKind} (v : Word) (hk : k ∈ [RegKind.hchStatus, .hchCur, .hchLeft]) :
        RegsKept ([RegKind.hchStatus, .hchCur, .hchLeft, .hchErraddr, .hchTag, .hchRetry, .hchEvt].map fun k => k.addr m) u
          (u.setReg k m v) :=
      (setReg_kept u k m v).mono fun a ha => .inl (by
        rw [List.mem_singleton.1 ha]
        refine List.mem_map_of_mem ?_
        simp only [List.mem_cons, List.not_mem_nil, or_false] at hk ⊢
        tauto)
    exact ((hset _ (by simp)).trans (hset _ (by simp))).trans (hset _ (by simp))
  · exact .refl s _

/-- A change of a master is shown in its own registers, and is its own (10_haulers R241). -/
theorem modMaster_only (m : Nat) (f : Hauler → Hauler) : MasterOnly m s (s.modMaster m f) := by
  let u : State := { s with haul := { s.haul with chans := tabMod {} s.haul.chans m f } }
  have hbeside (v : State) : besideFlags (showHauler m v) = besideFlags v := by
    unfold showHauler
    split <;> rfl
  refine ⟨fun k hk => ?_, .trans (.same (.refl s _) rfl) (showHauler_kept u m), ?_⟩
  · rw [State.master, State.modMaster_haul, State.master]
    exact (tabGet_tabMod ..).trans (if_neg hk.symm)
  · exact (congrArg (fun v : State => besideFlags { v with haul := s.haul }) (hbeside u) :)

theorem modMaster_master (m : Nat) (f : Hauler → Hauler) : (s.modMaster m f).master m = f (s.master m) := by
  rw [State.master, State.modMaster_haul]
  exact (tabGet_tabMod ..).trans (if_pos rfl)

/-- The portal of a pop entry is served: it is on, bound to the queue and not paused, and has no pop on its way. -/
def State.portalServed (p q : Nat) : Prop :=
  portalEn s.cfg p = true ∧ portalBind s.cfg p = q ∧ (s.portal p).paused = none ∧ s.reading (.portal p) = false

section

variable {s} {p q : Nat} (e0 e1 : BeatFound)

theorem portalServed_iff : (portalEn s.cfg p && portalBind s.cfg p = q && (s.portal p).paused.isNone && !(s.reading (.portal p))) = true ↔
    s.portalServed p q := by
  simp [State.portalServed, and_assoc]

theorem popPortal_of_unserved (h : ¬ s.portalServed p q) : popPortal p q e0 e1 s = s :=
  if_neg fun h' => h (portalServed_iff.1 h')

theorem popPortal_of_room (h : s.portalServed p q) (hheld : (s.portal p).held = [])
    (hroom : (s.portal p).queue.length + (s.portal p).stage.length + 2048 / portalWidth s.cfg p ≤ portalDepth s.cfg p) :
    popPortal p q e0 e1 s = portPop 2 q e0 e1 (.portal p) (s.modPortal p fun v => { v with burst := v.burst + 1 }) := by
  simp only [popPortal, portalServed_iff.2 h, if_true, hheld, List.isEmpty_nil, Bool.not_true, Bool.false_eq_true, if_false, hroom]

theorem popPortal_of_full (h : s.portalServed p q) (hheld : (s.portal p).held = [])
    (hfull : portalDepth s.cfg p < (s.portal p).queue.length + (s.portal p).stage.length + 2048 / portalWidth s.cfg p) :
    popPortal p q e0 e1 s = burstOver p s := by
  simp only [popPortal, portalServed_iff.2 h, if_true, hheld, List.isEmpty_nil, Bool.not_true, Bool.false_eq_true, if_false,
    Nat.not_le.2 hfull]

theorem popPortal_of_held (h : s.portalServed p q) {b : SumpBeat} {more : List SumpBeat} (hheld : (s.portal p).held = b :: more) :
    popPortal p q e0 e1 s = countBurst p false true ((b :: more).any SumpBeat.eop) ((usePort 2 q true s).modPortal p fun v =>
      { v with stage := v.stage ++ (v.held.take 1).flatMap (beatTokens (portalWidth s.cfg p)), held := v.held.drop 1 }) := by
  simp only [popPortal, portalServed_iff.2 h, if_true, hheld, List.isEmpty_cons, Bool.not_false]

end

@[simp] theorem State.modPortal_portal (p n : Nat) (f : Portal → Portal) :
    (s.modPortal p f).portal n = if p = n then f (s.portal p) else s.portal n := tabGet_tabMod ..

/-- Two changes of a portal that agree on it. -/
theorem State.modPortal_congr {p : Nat} {f g : Portal → Portal} (h : f (s.portal p) = g (s.portal p)) :
    s.modPortal p f = s.modPortal p g := by
  rw [State.modPortal, tabMod, State.modPortal, tabMod]
  exact congrArg (fun v => { s with portals := tabSet {} s.portals p v }) h

/-- The end of a burst, at a portal that is not paused (08_sump R192). -/
theorem burstOver_of_running {p : Nat} (h : (s.portal p).paused = none) :
    burstOver p s = s.modPortal p fun v => { v with burst := 0, pausing := none, paused := v.pausing } :=
  s.modPortal_congr (by rw [h]; cases (s.portal p).pausing <;> rfl)

/-- From `s` to `t` only the place of portal `p` in its burst has changed, and a pause that waits for its end (08_sump R192). -/
structure BurstStep (p : Nat) (s t : State) : Prop where
  frame : { t with portals := s.portals } = s
  place : t.portal p = { s.portal p with
    burst := (t.portal p).burst, pausing := (t.portal p).pausing, paused := (t.portal p).paused }
  others : ∀ n, n ≠ p → t.portal n = s.portal n

theorem BurstStep.refl (p : Nat) : BurstStep p s s := ⟨rfl, rfl, fun _ _ => rfl⟩

theorem BurstStep.trans {s t u : State} {p : Nat} (h : BurstStep p s t) (h' : BurstStep p t u) : BurstStep p s u where
  frame := (congrArg (fun v : State => { v with portals := s.portals }) h'.frame :).trans h.frame
  place := by
    rw [h'.place, h.place]
  others n hn := (h'.others n hn).trans (h.others n hn)

/-- A change of a portal's place in its burst. -/
theorem BurstStep.of_modPortal {p : Nat} {f : Portal → Portal}
    (h : ∀ v, f v = { v with burst := (f v).burst, pausing := (f v).pausing, paused := (f v).paused }) :
    BurstStep p s (s.modPortal p f) where
  frame := rfl
  place := by
    rw [State.modPortal_portal, if_pos rfl]
    exact h _
  others n hn := by rw [State.modPortal_portal, if_neg hn.symm]

theorem burstOver_step (p : Nat) : BurstStep p s (burstOver p s) := .of_modPortal s fun _ => rfl

theorem countBurst_step (p : Nat) (began ends eop : Bool) : BurstStep p s (countBurst p began ends eop s) := by
  unfold countBurst
  extract_lets u
  have hu : BurstStep p s u := by
    unfold u
    split
    · exact .of_modPortal s fun _ => rfl
    · exact .refl s p
  split
  · exact hu.trans (burstOver_step u p)
  · exact hu

/-- A burst ends with its packet. -/
theorem countBurst_eop (p : Nat) (began ends : Bool) : ((countBurst p began ends true s).portal p).burst = 0 := by
  rw [countBurst, Bool.true_or, if_pos rfl, burstOver, State.modPortal_portal, if_pos rfl]

/-! ### The command (08_sump R169) -/

section

variable {s} {port q : Nat} (e0 e1 : BeatFound)

theorem sumpPop_of_busy (h : ¬ (s.blocksRun = true ∧ s.portTakes port q true = true) ∨ port < 2) : sumpPop port q e0 e1 s = s := by
  unfold sumpPop
  split
  · next hfree => rw [if_pos (h.resolve_left fun hbusy => hbusy (by simpa using hfree))]
  · rfl

/-- Port 3 pops for the master of its slot, if that has asked for the queue. -/
theorem sumpPop_of_slot (hruns : s.blocksRun = true) (htakes : s.portTakes 3 q true = true) : sumpPop 3 q e0 e1 s =
    let m := slotOwner s.cfg s.clocks.sys
    if (s.master m).popping ∧ targetOf (s.master m).src = .queue q then
      portPop 3 q e0 e1 (.master m q) (s.modMaster m fun v => { v with popping := false })
    else s := by
  simp only [sumpPop, hruns, htakes, Bool.and_self, if_true]
  rfl

/-- Port 2 pops for the lane or the portal of its pop entry. -/
theorem sumpPop_of_entry (hruns : s.blocksRun = true) (htakes : s.portTakes 2 q true = true) : sumpPop 2 q e0 e1 s =
    let k := bitsOf 0 7 s.port2Now
    if bitAt 15 s.port2Now = true ∧ bitAt 14 s.port2Now = false then
      if bitAt 13 s.port2Now then (if lnTxq s.cfg k = q then drainLane k e0 e1 s else s) else popPortal (spPortal k 0) q e0 e1 s
    else s := by
  simp only [sumpPop, hruns, htakes, Bool.and_self, if_true, Bool.and_eq_true, Bool.not_eq_true']
  rfl

end

end Sys2Proof.Machine
end

section
/-! The statement about pops of the Sump. -/

open Sys2Proof Sys2Proof.Machine

/-- Settles O28: what a pop at a port does is `portPop_popsAt`; which attachment the port serves is read off its slot
(`sumpPop_of_slot`) or its entry (`sumpPop_of_entry`). -/
theorem sumpPop : Obligations.SumpPop := by
  unfold Obligations.SumpPop
  intro port q e0 e1 s free e k
  refine ⟨?_, ?_, ?_⟩
  · intro h
    rw [exec_sumpPop, sumpPop_of_busy e0 e1 h]
  · intro hfree h3 m v
    have hslot := sumpPop_of_slot e0 e1 hfree.1 (h3 ▸ hfree.2)
    rw [exec_sumpPop, h3, hslot]
    refine ⟨fun hpopping hsrc => ⟨_, congrArg Host.Outcome.next (if_pos ⟨hpopping, hsrc⟩), ?_⟩, fun h => ?_⟩
    · intro u
      have hhaul := portPop_haul u 3 q.val e0 e1 (.master m q.val)
      refine ⟨modMaster_only s m _, State.modMaster_sump s m _, ?_, hhaul, ?_, portPop_popsAt u 3 q.val e0 e1 _⟩
      · rw [State.master, hhaul]
        exact modMaster_master s m _
      · rw [portPop_portals]
        exact State.modMaster_portals s m _
    · exact congrArg Host.Outcome.next (if_neg fun h' => h.elim (by simp [v, m, h'.1]) fun h => h h'.2)
  · intro hfree h2 p v w serves
    have hentry := sumpPop_of_entry e0 e1 hfree.1 (h2 ▸ hfree.2)
    have hportal (h15 : bitAt 15 e = true) (h14 : bitAt 14 e = false) (h13 : bitAt 13 e = false) :
        Machine.sumpPop 2 q.val e0 e1 s = popPortal p q.val e0 e1 s :=
      hentry.trans ((if_pos ⟨h15, h14⟩).trans (if_neg (by simp [e, h13])))
    have hserves (h : serves) : s.portalServed p q.val ∧ Machine.sumpPop 2 q.val e0 e1 s = popPortal p q.val e0 e1 s :=
      have ⟨h15, h14, h13, hserved⟩ := h
      ⟨hserved, hportal h15 h14 h13⟩
    rw [exec_sumpPop, h2]
    refine ⟨fun h => ?_, fun n h15 h14 h13 hn => ?_, fun h13 h => ?_, fun h hheld hroom => ?_, fun h hheld hfull => ?_,
      fun b more h hheld => ?_⟩
    · exact congrArg Host.Outcome.next (hentry.trans (if_neg fun ⟨h15, h14⟩ => by simp [e, h15, h14] at h))
    · rw [hentry, exec_laneQueueDrain, hn]
      refine (congrArg Host.Outcome.next ((if_pos ⟨h15, h14⟩).trans (if_pos h13))).trans ?_
      split <;> rfl
    · by_cases hpops : bitAt 15 e = true ∧ bitAt 14 e = false
      · obtain ⟨h15, h14⟩ := hpops
        rw [hportal h15 h14 h13, popPortal_of_unserved e0 e1 fun hserved => h ⟨h15, h14, h13, hserved⟩]
      · exact congrArg Host.Outcome.next (hentry.trans (if_neg hpops))
    · obtain ⟨hserved, hpop⟩ := hserves h
      let u := s.modPortal p fun v => { v with burst := v.burst + 1 }
      have hportals : (portPop 2 q.val e0 e1 (.portal p) u).portals = u.portals := portPop_portals u 2 q.val e0 e1 _
      rw [hpop, popPortal_of_room e0 e1 hserved hheld hroom]
      refine ⟨_, rfl, ?_, fun n hn => ?_, ?_⟩
      · rw [State.portal, hportals]
        exact (State.modPortal_portal s p p _).trans (if_pos rfl)
      · rw [State.portal, hportals]
        exact (State.modPortal_portal s p n _).trans (if_neg hn.symm)
      · rw [hportals]
        exact portPop_popsAt u 2 q.val e0 e1 _
    · obtain ⟨hserved, hpop⟩ := hserves h
      rw [hpop, popPortal_of_full e0 e1 hserved hheld hfull]
      obtain ⟨-, -, hpaused, -⟩ := hserved
      exact congrArg Host.Outcome.next (burstOver_of_running s hpaused)
    · obtain ⟨hserved, hpop⟩ := hserves h
      let u := (usePort 2 q.val true s).modPortal p fun v =>
        { v with stage := v.stage ++ (v.held.take 1).flatMap (beatTokens w), held := v.held.drop 1 }
      have hstep : BurstStep p u (countBurst p false true ((b :: more).any SumpBeat.eop) u) := countBurst_step u p ..
      have hmoved : u.portal p = { v with stage := v.stage ++ beatTokens w b, held := more } := by
        simp [u, v, show (s.portal p).held = b :: more from hheld]
      rw [hpop, popPortal_of_held e0 e1 hserved hheld]
      refine ⟨_, rfl, ?_, ?_, ?_, fun n hn => ?_, ?_, ?_⟩
      · rw [hstep.place, hmoved]
      · rw [hstep.place, hmoved]
      · rw [hstep.place, hmoved]
      · exact (hstep.others n hn).trans ((State.modPortal_portal _ p n _).trans (if_neg hn.symm))
      · exact (congrArg (fun t : State => { t with portals := s.portals, sump := s.sump }) hstep.frame :)
      · exact (congrArg State.sump hstep.frame :)

end

section
/-! SUPPORT. The upkeep of the Sump's queues: cells written to their banks (08_sump R168, R178), the end of a clock as it takes commits and
flushes (R187), flushes that end (R188), and expiries (R189, R190). -/

namespace Sys2Proof.Machine

variable (s : State)

/-! ### The commands -/

theorem exec_sumpCellCommit (port : Fin 4) (c : Fin 32768) :
    exec (.sumpCellCommit port c) s = .next (if s.blocksRun then commitCell port.val c.val s else s) := rfl

theorem exec_sumpFlush (p : HostPort) (q : Fin 2048) : exec (.sumpFlush p q) s =
    .next (hostCommand p .sumpQcmd 0 (word (place 16 11 q.val + 1)) (flushQueue q.val) s) := rfl

theorem exec_sumpRecoverClr (p : HostPort) (q : Fin 2048) : exec (.sumpRecoverClr p q) s =
    .next (hostCommand p .sumpQcmd 0 (word (place 16 11 q.val + 2)) (recoverClear q.val) s) := rfl

theorem exec_sumpFlushDone (q : Fin 2048) : exec (.sumpFlushDone q) s = .next (if s.blocksRun then flushDone q.val s else s) := rfl

theorem exec_staleTimerExpiry (q : Fin 2048) :
    exec (.staleTimerExpiry q) s = .next (if s.blocksRun then staleExpiry q.val s else s) := rfl

/-- A command that writes a register is turned away as the write is (20_register_map R474, R475, 16_power R390). -/
theorem hostCommand_turnedAway (p : HostPort) (k : RegKind) (i : Nat) (val : Word) (f : State → State) :
    WriteTurnedAway p k i val s (.next (hostCommand p k i val f s)) := by
  refine ⟨fun h => ⟨_, rfl, ?_⟩, fun h hheld hfirst => ?_, fun h hrefused => ?_, fun h => ?_⟩
  · simp only [hostCommand, h]
    exact noteAccess_noted s p 0 (k.addr i)
  · have hfirst : (s.power.waiting.any fun w => decide (w.1 = p)) = false := by simpa using hfirst
    simp only [hostCommand, h, holdAccess_eq (s := s) rfl, hheld, hfirst, Bool.not_false, Bool.and_self, if_true]
  · have hwaits : (s.heldStandby p && !(s.power.waiting.any fun w => decide (w.1 = p))) = false := by
      rcases hrefused with h | h <;> simp only [h, Bool.false_and, Bool.not_true, Bool.and_false]
    simp only [hostCommand, h, holdAccess_eq (s := s) rfl, hwaits, Bool.false_eq_true, if_false]
  · simp only [hostCommand, h]

/-! ### Cells written to their banks (08_sump R168, R169, R178) -/

/-- A complete cell that its port writes to its bank in this clock. -/
def State.commitDue (port c : Nat) : Prop :=
  (s.scell c).full = true ∧ (s.scell c).committed = false ∧ (s.scell c).port = port ∧ bankPort c s.clocks.sys = port ∧
    (∀ d ∈ s.sump.doneCells, (s.scell d).port ≠ port) ∧ c ∉ s.sump.gone ∧ c % 64 ∉ s.sump.scrubbed

theorem commitDue_iff (port c : Nat) :
    ((s.scell c).full ∧ (s.scell c).committed = false ∧ (s.scell c).port = port ∧ bankPort c s.clocks.sys = port ∧
      !(s.sump.gone.contains c) ∧ !(s.sump.doneCells.any fun e => (s.scell e).port = port) ∧ !(s.sump.scrubbed.contains (c % 64))) ↔
    s.commitDue port c := by
  simp [State.commitDue, and_left_comm]

theorem commitCell_of_due {port c : Nat} (h : s.commitDue port c) :
    commitCell port c s = s.withSump fun u => { u with doneCells := u.doneCells ++ [c] } := if_pos ((commitDue_iff s port c).2 h)

theorem commitCell_of_undue {port c : Nat} (h : ¬ s.commitDue port c) : commitCell port c s = s :=
  if_neg fun h' => h ((commitDue_iff s port c).1 h')

/-! ### The end of a clock, in its parts (08_sump R180 to R190) -/

/-- The expiries, commits and flushes of the clock, taken. -/
def clockTaken : State :=
  let s := (s.sump.expiring.foldl (fun s q => expire q s) s).withSump fun u => { u with expiring := [] }
  let s := (s.sump.doneCells.foldl (fun s c => applyCommit c s) s).withSump fun u => { u with doneCells := [] }
  (s.sump.flushes.foldl (fun s q => beginFlush q s) s).withSump fun u => { u with flushes := [] }

/-- The packets that turn visible, shown. -/
def clockShown : State :=
  let s := s.sump.queues.foldl (fun s e =>
    (s.queue e.1).opens.foldl (fun s d => if s.turnsVisible e.1 d then makeVisible d s else s) s) s
  let s := s.sump.release.foldl (fun s d =>
    if (s.desc d).used ∧ (s.desc d).vis = false then makeVisible d (s.modDesc d fun v => { v with stale := true }) else s) s
  s.withSump fun u => { u with release := [] }

/-- One discard of each flush in progress. -/
def clockDiscarded : State := s.sump.queues.foldl (fun s e => if (s.queue e.1).flushing then discardOne e.1 s else s) s

/-- The flags that hold for one clock, and those that lag by one, at its end. -/
def clockTurned : State :=
  let dev := s.deviceCommit
  let changed := s.modeChanges dev
  let s := s.withSump fun u =>
    { u with devCommit := dev, moved := [], scrubbed := [], queues := u.queues.filterMap fun e =>
        let v : SQueue := { e.2 with recoverWas := e.2.recover }
        if v = {} then none else some (e.1, v) }
  if changed then flagSump 11 s else s

theorem sumpClock_eq : sumpClock s = clockTurned (freeGone (clockDiscarded (clockShown (clockTaken s)))) := rfl

/-- What making packets visible keeps, and the marks of expiries with it, the showing of packets keeps. -/
theorem clockShown_rel {R : State → Prop} (h : R s) (hvis : ∀ d u, R u → R (makeVisible d u))
    (hstale : ∀ d u, R u → R (u.modDesc d fun v => { v with stale := true }))
    (hrelease : ∀ u, R u → R (u.withSump fun u => { u with release := [] })) : R (clockShown s) := by
  unfold clockShown
  extract_lets u v
  have hu : R u := List.foldlRecOn _ _ h fun w hw e _ => List.foldlRecOn _ _ hw fun x hx d _ => by
    split
    · exact hvis d x hx
    · exact hx
  have hv : R v := List.foldlRecOn _ _ hu fun w hw d _ => by
    split
    · exact hvis d _ (hstale d w hw)
    · exact hw
  exact hrelease v hv

/-! ### A commit at the end of its clock -/

/-- Cell `c` is committed, no cell is given back, and no flush is begun or in progress. -/
structure CommittedQuietly (c : Nat) (s : State) : Prop where
  cell : (s.scell c).committed = true
  gone : s.sump.gone = []
  flushes : s.sump.flushes = []
  flushing : ∀ r, (s.queue r).flushing = false

theorem CommittedQuietly.modQueue {c : Nat} {s : State} (h : CommittedQuietly c s) (q : Nat) {f : SQueue → SQueue}
    (hf : ∀ v, (f v).flushing = v.flushing) : CommittedQuietly c (s.modQueue q f) where
  cell := h.cell
  gone := h.gone
  flushes := h.flushes
  flushing r := by
    rw [State.modQueue_queue]
    split
    · rw [hf, h.flushing]
    · exact h.flushing r

theorem CommittedQuietly.modDesc {c : Nat} {s : State} (h : CommittedQuietly c s) (d : Nat) (f : SDesc → SDesc) :
    CommittedQuietly c (s.modDesc d f) := ⟨h.cell, h.gone, h.flushes, h.flushing⟩

theorem CommittedQuietly.withSump {c : Nat} {s : State} (h : CommittedQuietly c s) {f : Sump → Sump}
    (hc : (f s.sump).cells = s.sump.cells) (hg : (f s.sump).gone = s.sump.gone) (hf : (f s.sump).flushes = s.sump.flushes)
    (hq : (f s.sump).queues = s.sump.queues) : CommittedQuietly c (s.withSump f) where
  cell := by rw [State.scell, State.withSump_sump, hc]; exact h.cell
  gone := hg.trans h.gone
  flushes := hf.trans h.flushes
  flushing r := by rw [State.queue, State.withSump_sump, hq]; exact h.flushing r

/-- A commit takes hold; an open packet that is not bad goes on. -/
theorem applyCommit_quietly {c : Nat} (hgone : s.sump.gone = []) (hflushes : s.sump.flushes = [])
    (hflushing : ∀ r, (s.queue r).flushing = false) (hbad : ∀ d, (s.scell c).desc = some d → (s.desc d).bad = false) :
    CommittedQuietly c (applyCommit c s) := by
  unfold applyCommit
  extract_lets u v
  have hu : CommittedQuietly c u := ⟨by simp [u], hgone, hflushes, hflushing⟩
  have hv : v.desc = (s.scell c).desc := by simp [v, u]
  split
  · exact hu
  · next d hd =>
    extract_lets w
    have hw : CommittedQuietly c w := hu.modDesc d _
    have hopen : (w.desc d).bad = false := by simpa [w, u] using hbad d (hv ▸ hd)
    split
    · rw [if_neg (by simp [hopen])]
      split
      · exact hw.modQueue _ fun _ => rfl
      · exact hw
    · exact hu

theorem freeGone_cells (h : s.sump.gone = []) : (freeGone s).sump.cells = s.sump.cells := by
  simp [freeGone, h]

@[simp] theorem clockTurned_cells : (clockTurned s).sump.cells = s.sump.cells := by
  unfold clockTurned
  extract_lets dev changed u
  split
  · rw [flagSump_sump]
    rfl
  · rfl

/-- Where nothing else ends with the clock, a cell written to its bank is committed. -/
theorem sumpClock_commits {c : Nat} (hdone : s.sump.doneCells = [c]) (hexpiring : s.sump.expiring = []) (hflushes : s.sump.flushes = [])
    (hgone : s.sump.gone = []) (hflushing : ∀ r, (s.queue r).flushing = false)
    (hbad : ∀ d, (s.scell c).desc = some d → (s.desc d).bad = false) : ((sumpClock s).scell c).committed = true := by
  let u := applyCommit c (s.withSump fun u => { u with expiring := [] })
  have hu : CommittedQuietly c u := applyCommit_quietly _ hgone hflushes hflushing hbad
  have htaken : clockTaken s = (u.withSump fun u => { u with doneCells := [] }).withSump fun u => { u with flushes := [] } := by
    unfold clockTaken
    extract_lets expired committed
    have hcommitted : committed = u.withSump fun u => { u with doneCells := [] } := by
      simp [committed, expired, hexpiring, hdone, u]
    have hnone : committed.sump.flushes = [] := by rw [hcommitted]; exact hu.flushes
    rw [hnone, hcommitted]
    rfl
  have hshown : CommittedQuietly c (clockShown (clockTaken s)) := by
    rw [htaken]
    exact clockShown_rel _ ((hu.withSump rfl rfl rfl rfl).withSump rfl rfl hu.flushes.symm rfl)
      (fun d v hv => (hv.modDesc d _).modQueue _ fun _ => rfl) (fun d v hv => hv.modDesc d _) fun v hv => hv.withSump rfl rfl rfl rfl
  have hdiscarded : CommittedQuietly c (clockDiscarded (clockShown (clockTaken s))) :=
    List.foldlRecOn _ _ hshown fun v hv e _ => by rwa [hv.flushing e.1, if_neg Bool.false_ne_true]
  rw [sumpClock_eq, State.scell, clockTurned_cells, freeGone_cells _ hdiscarded.gone]
  exact hdiscarded.cell

/-! ### A flush at the end of its clock (08_sump R187, R188) -/

theorem beginFlush_flushing (q : Nat) : ((beginFlush q s).queue q).flushing = true := by
  unfold beginFlush
  split <;> simp

/-- In packet mode a flush discards the packets that no consumer has begun, and every open one. -/
theorem beginFlush_packet {q : Nat} (h : qPkt s.cfg q = true) : ((beginFlush q s).queue q).opens = [] ∧
    ((beginFlush q s).queue q).doomed = (s.queue q).opens ++ (s.queue q).vis.filter fun d => !(s.desc d).begun := by
  rw [beginFlush, if_pos h]
  simp

/-- In stream mode a flush discards the committed cells. -/
theorem beginFlush_stream {q : Nat} (h : qPkt s.cfg q = false) :
    ((beginFlush q s).queue q).doomed = (s.queue q).stream.filter fun c => (s.scell c).committed := by
  rw [beginFlush, if_neg (by simp [h])]
  simp

theorem beginFlush_others (q : Nat) : OtherQueues q s (beginFlush q s) := by
  intro r hr
  unfold beginFlush
  split
  · exact (State.modQueue_queue ..).trans (if_neg hr.symm)
  · exact (State.modQueue_queue ..).trans (if_neg hr.symm)

theorem beginFlush_frame (q : Nat) : { beginFlush q s with sump := s.sump } = s := by
  unfold beginFlush
  split <;> rfl

/-- A flush of queue `q` is in progress; `none` says that it has left no packet open. -/
def Flushing (q : Nat) (none : Bool) (s : State) : Prop := (s.queue q).flushing = true ∧ (none = true → (s.queue q).opens = [])

section

variable {s} {q : Nat} {none : Bool}

theorem Flushing.modQueue (h : Flushing q none s) (r : Nat) {f : SQueue → SQueue}
    (hf : ∀ v, (f v).flushing = v.flushing ∧ (v.opens = [] → (f v).opens = [])) : Flushing q none (s.modQueue r f) := by
  unfold Flushing
  rw [State.modQueue_queue]
  split
  · next hr =>
    subst hr
    exact ⟨(hf _).1.trans h.1, fun hn => (hf _).2 (h.2 hn)⟩
  · exact h

theorem Flushing.of_queues {t : State} (h : Flushing q none s) (hq : t.sump.queues = s.sump.queues) : Flushing q none t := by
  unfold Flushing
  rw [State.queue, hq]
  exact h

theorem Flushing.makeVisible (h : Flushing q none s) (d : Nat) : Flushing q none (makeVisible d s) :=
  (h.of_queues (t := s.modDesc d _) rfl).modQueue _ fun _ => ⟨rfl, fun ho => by simp [ho]⟩

theorem Flushing.dropPacket (h : Flushing q none s) (d : Nat) : Flushing q none (dropPacket d s) := by
  unfold Flushing
  rw [dropPacket_queue]
  split
  · exact ⟨h.1, fun hn => by simp [SQueue.without, h.2 hn]⟩
  · exact h

theorem Flushing.discardOne (h : Flushing q none s) (r : Nat) : Flushing q none (discardOne r s) := by
  unfold Machine.discardOne
  split
  · exact h
  · next d rest _ =>
    extract_lets taken noted cut
    have htaken : Flushing q none taken := h.modQueue r fun _ => ⟨rfl, id⟩
    have hnoted : Flushing q none noted := htaken.modQueue r fun _ => ⟨rfl, id⟩
    have hcut : Flushing q none cut := htaken.modQueue r fun _ => ⟨rfl, id⟩
    split
    · split
      · exact htaken
      · exact (hnoted.dropPacket d).of_queues (by rw [countSump_sump])
    · exact hcut.of_queues (by rw [countSump_sump]; rfl)

theorem Flushing.freeGone (h : Flushing q none s) : Flushing q none (freeGone s) := by
  unfold Machine.freeGone
  extract_lets gone u
  have hu : Flushing q none u := List.foldlRecOn _ _ h fun v hv c _ => hv.modQueue _ fun _ => ⟨rfl, id⟩
  exact hu.of_queues rfl

/-- What a queue's entry is at the end of a clock: `RECOVER` as the next clock finds it, and none where nothing is left to hold. -/
def SQueue.turned (e : Nat × SQueue) : Option (Nat × SQueue) :=
  let v : SQueue := { e.2 with recoverWas := e.2.recover }
  if v = {} then Option.none else some (e.1, v)

/-- A queue that is being flushed keeps its entry. -/
theorem tabGet_turned {t : Tab SQueue} (h : (tabGet {} t q).flushing = true) :
    tabGet {} (t.filterMap SQueue.turned) q = { tabGet {} t q with recoverWas := (tabGet {} t q).recover } := by
  induction t with
  | nil => simp at h
  | cons e t ih =>
    rw [tabGet_cons] at h ⊢
    by_cases he : e.1 = q
    · rw [if_pos he] at h ⊢
      have hheld : ({ e.2 with recoverWas := e.2.recover } : SQueue) ≠ {} := fun hv => by
        have := congrArg SQueue.flushing hv
        simp [h] at this
      have hturned : SQueue.turned e = some (e.1, { e.2 with recoverWas := e.2.recover }) := if_neg hheld
      rw [List.filterMap_cons_some hturned, tabGet_cons, if_pos he]
    · rw [if_neg he] at h ⊢
      rw [← ih h, List.filterMap_cons]
      split
      · rfl
      · next v hv =>
        have hv : v.1 = e.1 := by
          unfold SQueue.turned at hv
          extract_lets at hv
          split at hv
          · contradiction
          · rw [← Option.some.inj hv]
        rw [tabGet_cons, if_neg (hv ▸ he)]

theorem Flushing.clockTurned (h : Flushing q none s) : Flushing q none (clockTurned s) := by
  have hturned : tabGet {} (s.sump.queues.filterMap SQueue.turned) q = _ := tabGet_turned h.1
  have hu {t : State} (ht : t.sump.queues = s.sump.queues.filterMap SQueue.turned) : Flushing q none t := by
    unfold Flushing
    rw [State.queue, ht, hturned]
    exact h
  unfold Machine.clockTurned
  extract_lets dev changed u
  split
  · exact hu (by rw [flagSump_sump]; rfl)
  · exact hu rfl

/-- A flush written in a clock in which no cell is written to its bank and no timer has run out is in progress after it. -/
theorem sumpClock_flushes (hflushes : s.sump.flushes = [q]) (hexpiring : s.sump.expiring = []) (hdone : s.sump.doneCells = []) :
    ((sumpClock s).queue q).flushing = true ∧ (qPkt s.cfg q = true → ((sumpClock s).queue q).opens = []) := by
  let u := (s.withSump fun u => { u with expiring := [] }).withSump fun u => { u with doneCells := [] }
  have htaken : clockTaken s = (beginFlush q u).withSump fun u => { u with flushes := [] } := by
    simp [clockTaken, hexpiring, hdone, hflushes, u]
  have hbegun : Flushing q (qPkt s.cfg q) (clockTaken s) := by
    have hbegun : Flushing q (qPkt s.cfg q) (beginFlush q u) := ⟨beginFlush_flushing u q, fun h => (beginFlush_packet u h).1⟩
    rw [htaken]
    exact hbegun.of_queues (by rw [State.withSump_sump])
  have hshown : Flushing q (qPkt s.cfg q) (clockShown (clockTaken s)) :=
    clockShown_rel _ hbegun (fun d v hv => hv.makeVisible d) (fun d v hv => hv.of_queues rfl) fun v hv => hv.of_queues rfl
  have hdiscarded : Flushing q (qPkt s.cfg q) (clockDiscarded (clockShown (clockTaken s))) :=
    List.foldlRecOn _ _ hshown fun v hv e _ => by
      split
      · exact hv.discardOne e.1
      · exact hv
  rw [sumpClock_eq]
  exact hdiscarded.freeGone.clockTurned

end

/-! ### The end of a flush (08_sump R188) -/

/-- A discard acts on its own queue. -/
theorem discardOne_step (q : Nat) : QueueStep q s (discardOne q s) := by
  unfold discardOne
  split
  · exact .refl
  · next d rest _ =>
    extract_lets taken noted cut
    have htaken : QueueStep q s taken := modQueue_step s q _
    have hcounted (u : State) : QueueStep q u (countSump .sumpCntFlushed 4 u) := (countSump_counted u (by decide) 4).queueStep
    split
    · split
      · exact htaken
      · exact ((htaken.trans (modQueue_step taken q _)).trans (dropPacket_step noted q d)).trans (hcounted _)
    · exact ((htaken.trans (modQueue_step taken q _)).trans (.of_withSump rfl rfl)).trans (hcounted _)

/-- One discard of a stream queue: the cell leaves it. -/
theorem discardOne_stream {q d : Nat} {rest : List Nat} (hpkt : qPkt s.cfg q = false) (hd : (s.queue q).doomed = d :: rest) :
    ((discardOne q s).queue q).doomed = rest ∧ ((discardOne q s).queue q).stream = (s.queue q).stream.filter (· ≠ d) := by
  simp only [discardOne, hd, State.modQueue_cfg, hpkt, Bool.false_eq_true, if_false]
  simp [State.queue]

/-- The discards that a flush of a stream queue owes, one after another. -/
theorem discards_stream {q : Nat} (hpkt : qPkt s.cfg q = false) (l : List Nat) (hl : (s.queue q).doomed = l) :
    let t := l.foldl (fun s _ => discardOne q s) s
    (∀ c ∈ (t.queue q).stream, c ∈ (s.queue q).stream) ∧ ∀ c ∈ l, c ∉ (t.queue q).stream := by
  induction l generalizing s with
  | nil => exact ⟨fun _ => id, nofun⟩
  | cons d rest ih =>
    obtain ⟨hdoomed, hstream⟩ := discardOne_stream s hpkt hl
    obtain ⟨hsub, hgone⟩ := ih (discardOne q s) ((discardOne_step s q).cfg ▸ hpkt) hdoomed
    have hleft (c : Nat) (hc : c ∈ ((rest.foldl (fun s _ => discardOne q s) (discardOne q s)).queue q).stream) :
        c ∈ (s.queue q).stream ∧ c ≠ d := by simpa [hstream] using hsub c hc
    refine ⟨fun c hc => (hleft c hc).1, fun c hc => ?_⟩
    rcases List.mem_cons.1 hc with rfl | hc
    · exact fun h => (hleft c h).2 rfl
    · exact hgone c hc

theorem discardAll_step (q : Nat) : QueueStep q s (discardAll q s) :=
  List.foldlRecOn _ _ .refl fun u hu _ _ => hu.trans (discardOne_step u q)

theorem flushDone_of_flushing {q : Nat} (h : (s.queue q).flushing = true) : flushDone q s =
    flagSump 7 ((discardAll q s).modQueue q fun v => { v with flushing := false, doomed := [] }) := if_pos h

/-! ### Expiries (08_sump R189, R190) -/

theorem staleExpiry_eq (q : Nat) : staleExpiry q s = if s.staleDue q = true then
    (if q ∈ s.sump.expiring then s else s.withSump fun u => { u with expiring := u.expiring ++ [q] }) else s := by
  unfold staleExpiry
  by_cases hdue : s.staleDue q = true
  · by_cases hq : q ∈ s.sump.expiring
    · simp [hdue, hq]
    · simp [hdue, hq]
  · simp [hdue]

theorem sumpStale_not_event (i : Nat) : eventRegister (RegKind.sumpStale.addr i) = false := by
  change eventRegister (0xA0100 + i * 4) = false
  simp only [eventRegister, Bool.or_eq_false_iff, Bool.and_eq_false_iff, decide_eq_false_iff_not, beq_eq_false_iff_ne]
  omega

theorem sumpStale_not_sump (i : Nat) : RegKind.sumpStale.addr i ∉ sumpRegisters := by
  have h : ∀ a ∈ sumpRegisters, a < 0xA0100 := by decide
  exact fun hi => absurd (h _ hi) (by change ¬ 0xA0100 + i * 4 < 0xA0100; omega)

theorem sumpCounter_ne_stale {k : RegKind} (hk : k ∈ sumpCounters) (i : Nat) : k.addr 0 ≠ RegKind.sumpStale.addr i :=
  fun h => sumpStale_not_sump i (h ▸ (sumpCounter_addr hk).1)

@[simp] theorem flagStale_besideFlags (q : Nat) : besideFlags (flagStale q s) = besideFlags s := by
  unfold flagStale
  extract_lets i b t
  split
  · rfl
  · exact raiseEvent_besideFlags t _

/-- The stale bit of a queue is set, and nothing but the register of its group, and events, is written (08_sump R196). -/
theorem flagStale_after {q : Nat} (hq : q < 2048) (l : List Nat) :
    RegsKept l (s.setBits .sumpStale (q / 32) (bitWord (q % 32))) (flagStale q s) :=
  .ite _ (.refl _ l) (raiseEvent_kept _ l (by omega))

theorem flagStale_kept {q : Nat} (hq : q < 2048) : RegsKept [RegKind.sumpStale.addr (q / 32)] s (flagStale q s) :=
  (setBits_kept s _ _ _).trans (flagStale_after s hq _)

theorem flagStale_reg {q : Nat} (hq : q < 2048) :
    (flagStale q s).reg .sumpStale (q / 32) = s.reg .sumpStale (q / 32) ||| bitWord (q % 32) :=
  ((flagStale_after s hq []).reg (by simp) (sumpStale_not_event _)).trans (State.setBits_reg s _ _ _)

/-- An expiry reported: the timer restarts, and the queue's bit, the count and the flag are set. -/
def staleReported (q : Nat) : State :=
  flagSump 10 (countSump .sumpCntStale 5 (flagStale q (s.modQueue q fun v => { v with timer := 0 })))

theorem staleReported_sump (q : Nat) : (staleReported s q).sump = (s.modQueue q fun v => { v with timer := 0 }).sump := by
  rw [staleReported, flagSump_sump, countSump_sump]
  exact (congrArg State.sump (flagStale_besideFlags (s.modQueue q _) q) :)

theorem staleReported_frame (q : Nat) : (staleReported s q).sumpFrame = s.sumpFrame := by
  have hcount : SumpCounted _ (staleReported s q) :=
    (countSump_counted (k := .sumpCntStale) (flagStale q (s.modQueue q fun v => { v with timer := 0 })) (by decide) 5).trans
      (flagSump_counted _ 10)
  exact (sumpFrame_of_counted hcount).trans
    ((congrArg State.besideSump (flagStale_besideFlags (s.modQueue q fun v => { v with timer := 0 }) q) :).trans
      (State.modQueue_sumpFrame s q _))

/-- The registers that the report of an expiry writes. -/
def staleRegisters (q : Nat) : List Nat :=
  [RegKind.sumpStale.addr (q / 32), RegKind.sumpCntStale.addr 0, RegKind.sumpOvf.addr 0, RegKind.sumpEvt.addr 0]

theorem staleReported_written {q : Nat} (hq : q < 2048) : RegsKept (staleRegisters q) s (staleReported s q) := by
  let u := s.modQueue q fun v => { v with timer := 0 }
  have hstale : RegsKept (staleRegisters q) u (flagStale q u) := (flagStale_kept u hq).mono fun a ha => .inl (by simp_all [staleRegisters])
  have hcount : RegsKept (staleRegisters q) (flagStale q u) (countSump .sumpCntStale 5 (flagStale q u)) :=
    (countSump_kept (flagStale q u) .sumpCntStale 5).mono fun a ha => .inl (List.mem_cons_of_mem _ ha)
  have hflag : RegsKept (staleRegisters q) (countSump .sumpCntStale 5 (flagStale q u)) (staleReported s q) :=
    (flagSump_kept _ 10).mono fun a ha => .inl (by simp_all [staleRegisters])
  exact .trans (.same (.refl s _) rfl) ((hstale.trans hcount).trans hflag)

theorem staleReported_kept {q : Nat} (hq : q < 2048) :
    RegsKept (RegKind.sumpStale.addr (q / 32) :: sumpRegisters) s (staleReported s q) := by
  have hsump : ∀ b ∈ [RegKind.sumpCntStale.addr 0, RegKind.sumpOvf.addr 0, RegKind.sumpEvt.addr 0], b ∈ sumpRegisters := by decide
  exact (staleReported_written s hq).mono fun a ha => .inl (List.mem_cons.2 ((List.mem_cons.1 ha).imp_right (hsump a)))

/-- The report of an expiry counts no rewind. -/
theorem staleReported_rewinds {q : Nat} (hq : q < 2048) :
    (staleReported s q).reg .sumpCntRewind 0 = s.reg .sumpCntRewind 0 :=
  (staleReported_written s hq).reg (by
    rw [staleRegisters, List.mem_cons, not_or]
    exact ⟨sumpCounter_ne_stale (by decide) _, by decide⟩) (by decide)

/-- The stale bit, the flag and the count of an expiry that is reported. -/
theorem staleReported_marks {q : Nat} (hq : q < 2048) :
    ((staleReported s q).reg .sumpStale (q / 32)).getLsbD (q % 32) = true ∧ ((staleReported s q).reg .sumpEvt 0).getLsbD 10 = true ∧
      CountedOne .sumpCntStale 0 s (staleReported s q) := by
  let u := flagStale q (s.modQueue q fun v => { v with timer := 0 })
  have hcount : SumpCounted u (staleReported s q) := (countSump_counted (k := .sumpCntStale) u (by decide) 5).trans (flagSump_counted _ 10)
  refine ⟨?_, flagSump_bit _ (by decide) (.inr rfl), ?_⟩
  · rw [hcount.regs.reg (sumpStale_not_sump _) (sumpStale_not_event _), flagStale_reg _ hq, BitVec.getLsbD_or,
      bitWord_self (Nat.mod_lt _ (by decide)), Bool.or_true]
  · have hne : RegKind.sumpCntStale.addr 0 ≠ RegKind.sumpStale.addr (q / 32) := sumpCounter_ne_stale (by decide) _
    have hu : u.reg .sumpCntStale 0 = s.reg .sumpCntStale 0 :=
      (flagStale_kept (s.modQueue q _) hq).reg (by simpa using hne) (by decide)
    rw [CountedOne, ← hu]
    exact CountedMany.then (n := 1) (countSump_countedOne u (by decide) 5) (flagSump_countedNone _ (by decide) 10)

/-! ### What an expiry does to the oldest open packet (08_sump R190) -/

/-- A counter of the Sump clears no flag. -/
theorem countSump_flags {k : RegKind} (hk : k ∈ sumpCounters) (n : Nat) {b : Nat} (hb : b < 32)
    (h : (s.reg .sumpEvt 0).getLsbD b = true) : ((countSump k n s).reg .sumpEvt 0).getLsbD b = true := by
  obtain ⟨-, -, -, hflag, -⟩ := sumpCounter_addr hk
  have hcount (v : Word) : ((s.setCount k 0 1 v).reg .sumpEvt 0).getLsbD b = true := by
    rwa [(setCount_kept s k 0 1 v).reg (by simpa using hflag.symm) (by decide)]
  unfold countSump countStat
  dsimp only
  split
  · exact h
  · split
    · refine flagSump_bit _ hb (.inl ?_)
      rw [(setBits_kept _ .sumpOvf 0 _).reg (by decide) (by decide)]
      exact hcount _
    · exact hcount _

/-- What the close of a packet does not do: it clears no flag, counts no expiry, and restarts no timer. -/
structure CloseStep (s t : State) : Prop where
  flags : ∀ b < 32, (s.reg .sumpEvt 0).getLsbD b = true → (t.reg .sumpEvt 0).getLsbD b = true
  stale : CountedMany .sumpCntStale 0 0 s t
  timer : ∀ r, (t.queue r).timer = (s.queue r).timer

section

variable {s} {t u : State}

theorem CloseStep.trans (h : CloseStep s t) (h' : CloseStep t u) : CloseStep s u where
  flags b hb hs := h'.flags b hb (h.flags b hb hs)
  stale := h.stale.then h'.stale
  timer r := (h'.timer r).trans (h.timer r)

/-- A change beside the registers that leaves the timers alone. -/
theorem CloseStep.of_timers (hregs : t.regs = s.regs) (h : ∀ r, (t.queue r).timer = (s.queue r).timer) : CloseStep s t where
  flags b _ hs := by rwa [State.reg, hregs]
  stale := .of_regs hregs _ _
  timer := h

end

/-- A case of R182 counted and flagged. -/
theorem counted_closeStep {k : RegKind} (hk : k ∈ sumpCounters) (hne : k.addr 0 ≠ RegKind.sumpCntStale.addr 0) (n b : Nat) :
    CloseStep s (flagSump b (countSump k n s)) where
  flags c hc hs := flagSump_bit _ hc (.inl (countSump_flags s hk n hc hs))
  stale := (countSump_countedNone s (by decide) hne.symm n).then (flagSump_countedNone _ (by decide) b)
  timer r := by rw [State.queue, flagSump_sump, countSump_sump, State.queue]

theorem rewind_closeStep (d : Nat) : CloseStep s (rewind d s) := by
  have hdrop : CloseStep s (dropPacket d s) := .of_timers rfl fun r => by
    rw [dropPacket_queue]
    split <;> rfl
  exact hdrop.trans (counted_closeStep _ (by decide) (by decide) 2 8)

theorem closeDesc_closeStep (q : Nat) (p : Producer) (d : Nat) : CloseStep s (closeDesc q p d s) := by
  unfold closeDesc
  extract_lets u v w x
  have hu : CloseStep s u := .of_timers rfl fun r => by
    rw [State.modQueue_queue]
    split
    · next h => subst h; rfl
    · rfl
  split
  · have hx : CloseStep w x := by
      unfold x
      split
      · exact .of_timers rfl fun _ => rfl
      · exact .of_timers rfl fun _ => rfl
    have hw : CloseStep u w := .of_timers rfl fun _ => rfl
    exact ((hu.trans hw).trans hx).trans (counted_closeStep x (by decide) (by decide) 3 9)
  · exact hu.trans (rewind_closeStep u d)

theorem staleReported_cfg (q : Nat) : (staleReported s q).cfg = s.cfg := (congrArg State.cfg (staleReported_frame s q) :)

theorem staleReported_queue (q : Nat) : (staleReported s q).queue q = { s.queue q with timer := 0 } := by
  rw [State.queue_congr (staleReported_sump s q), State.modQueue_queue, if_pos rfl]

theorem staleReported_desc (q d : Nat) : (staleReported s q).desc d = s.desc d := by
  rw [State.desc, staleReported_sump, State.modQueue_sump, State.desc]

theorem staleReported_commitMode (q : Nat) : (staleReported s q).commitMode q = s.commitMode q := by
  rw [State.commitMode, staleReported_cfg, staleReported_queue, staleReported_sump, State.modQueue_sump, State.commitMode]

/-- What becomes of the oldest open packet. -/
def agedPacket (q d : Nat) : State :=
  if s.commitMode q then
    match (s.queue q).prog.find? fun e => e.2 = d with
    | some e => closeDesc q e.1 d s
    | none => rewind d s
  else s.withSump fun u => { u with release := if u.release.contains d then u.release else u.release ++ [d] }

section

variable {s} {q : Nat} (h : s.staleDue q = true)
include h

theorem expire_eq : expire q s = match qPkt s.cfg q, (s.queue q).opens with
    | true, d :: _ => agedPacket (staleReported s q) q d
    | _, _ => staleReported s q := by
  have hcfg := staleReported_cfg s q
  have hopens : ((staleReported s q).queue q).opens = (s.queue q).opens := by rw [staleReported_queue]
  rw [← hcfg, ← hopens]
  exact if_pos h

theorem expire_of_open (hpkt : qPkt s.cfg q = true) {d : Nat} {rest : List Nat} (hd : (s.queue q).opens = d :: rest) :
    expire q s = agedPacket (staleReported s q) q d := by
  rw [expire_eq h, hpkt, hd]

end

/-- In cut-through service the oldest open packet is released. -/
theorem agedPacket_of_cutThrough {q : Nat} (d : Nat) (h : s.commitMode q = false) : agedPacket s q d =
    s.withSump fun u => { u with release := if u.release.contains d then u.release else u.release ++ [d] } := by
  rw [agedPacket, h, if_neg Bool.false_ne_true]

/-- In commit mode the oldest open packet is closed, whether its producer is still in it or not. -/
theorem agedPacket_of_commit {q : Nat} (d : Nat) (h : s.commitMode q = true) :
    agedPacket s q d = rewind d s ∨ ∃ p, agedPacket s q d = closeDesc q p d s := by
  rw [agedPacket, h, if_pos rfl]
  split
  · exact .inr ⟨_, rfl⟩
  · exact .inl rfl

theorem agedPacket_step (q d : Nat) : QueueStep q s (agedPacket s q d) ∧ CloseStep s (agedPacket s q d) := by
  cases h : s.commitMode q with
  | false =>
    rw [agedPacket_of_cutThrough s d h]
    exact ⟨.of_withSump rfl rfl, .of_timers rfl fun _ => rfl⟩
  | true =>
    obtain ha | ⟨p, ha⟩ := agedPacket_of_commit s d h
    · rw [ha]
      exact ⟨rewind_step s q d, rewind_closeStep s d⟩
    · rw [ha]
      exact ⟨closeDesc_step s q p d, closeDesc_closeStep s q p d⟩

/-- What follows the report of an expiry. -/
theorem expire_step {q : Nat} (h : s.staleDue q = true) :
    QueueStep q (staleReported s q) (expire q s) ∧ CloseStep (staleReported s q) (expire q s) := by
  rw [expire_eq h]
  split
  · exact agedPacket_step (staleReported s q) q _
  · exact ⟨.refl, .of_timers rfl fun _ => rfl⟩

/-- In commit mode the oldest open packet is rewound. -/
theorem agedPacket_rewound {q d : Nat} (h : s.commitMode q = true) (hvis : (s.desc d).vis = false) (hq : (s.desc d).queue = q) :
    d ∉ ((agedPacket s q d).queue q).opens ∧ d ∈ (agedPacket s q d).sump.goneDescs ∧
      CountedOne .sumpCntRewind 0 s (agedPacket s q d) := by
  have hrewound (u : State) (hu : (u.desc d).queue = q) : d ∉ ((rewind d u).queue q).opens ∧ d ∈ (rewind d u).sump.goneDescs := by
    rw [State.queue_congr (rewind_sump u d), rewind_sump, dropPacket_queue, if_pos hu]
    simp [SQueue.without]
  obtain ha | ⟨p, ha⟩ := agedPacket_of_commit s d h
  · rw [ha]
    obtain ⟨hopens, hgone⟩ := hrewound s hq
    exact ⟨hopens, hgone, rewind_countedOne s d⟩
  · rw [ha, closeDesc_of_open s p hvis]
    obtain ⟨hopens, hgone⟩ := hrewound (s.modQueue q _) hq
    exact ⟨hopens, hgone, rewind_countedOne (s.modQueue q _) d⟩

end Sys2Proof.Machine
end

section
/-! The statement about the upkeep of the Sump's queues. -/

open Sys2Proof Sys2Proof.Machine

/-- Settles O29: commits and flushes at the end of their clock are `sumpClock_commits` and `sumpClock_flushes`, the discards of a flush that
ends `discards_stream`, and an expiry reports (`staleReported`) and acts on the oldest open packet (`agedPacket`). -/
theorem sumpQueueUpkeep : Obligations.SumpQueueUpkeep := by
  unfold Obligations.SumpQueueUpkeep
  refine ⟨⟨?_, ?_, ?_⟩, ?_⟩
  · intro port c s v due
    refine ⟨fun ⟨hruns, hdue⟩ => ⟨_, rfl, ?_⟩, fun h => ?_⟩
    · rw [if_pos hruns, commitCell_of_due s hdue]
      refine ⟨rfl, fun hdone hexpiring hflushes hgone hflushing hbad => ?_, rfl⟩
      exact sumpClock_commits _ (by simp [hdone]) hexpiring hflushes hgone hflushing hbad
    · rw [exec_sumpCellCommit]
      split
      · next hruns => rw [commitCell_of_undue s fun hdue => h ⟨hruns, hdue⟩]
      · rfl
  · intro p q s
    refine ⟨fun hopen => ⟨?_, _, congrArg Host.Outcome.next (hostCommand_open s hopen ..), ?_, fun r hr => ?_, rfl, rfl⟩,
      hostCommand_turnedAway s .., hostCommand_turnedAway s .., ?_⟩
    · rw [exec_sumpFlush, hostCommand_open s hopen, flushQueue]
      simp only [Bool.or_eq_true, List.contains_iff_mem]
      rfl
    · exact (State.modQueue_queue ..).trans (if_pos rfl)
    · exact (State.modQueue_queue ..).trans (if_neg hr.symm)
    · intro t
      exact ⟨beginFlush_flushing s q.val, beginFlush_packet s, beginFlush_stream s, beginFlush_others s q.val,
        beginFlush_frame s q.val, sumpClock_flushes⟩
  · intro q s hruns
    rw [exec_sumpFlushDone, if_pos hruns]
    refine ⟨fun h => congrArg Host.Outcome.next (if_neg (by simp [h])), fun h => ⟨_, rfl, ?_⟩⟩
    rw [flushDone_of_flushing s h]
    have hstep : QueueStep q.val s ((discardAll q.val s).modQueue q.val fun v => { v with flushing := false, doomed := [] }) :=
      (discardAll_step s q.val).trans (modQueue_step _ q.val _)
    have hqueue : (flagSump 7 ((discardAll q.val s).modQueue q.val fun v => { v with flushing := false, doomed := [] })).queue q.val =
        { (discardAll q.val s).queue q.val with flushing := false, doomed := [] } := by
      rw [State.queue_congr (flagSump_sump _ 7), State.modQueue_queue, if_pos rfl]
    have hend := hstep.trans (flagSump_counted _ 7).queueStep
    refine ⟨by rw [hqueue], by rw [hqueue], flagSump_bit _ (by decide) (.inr rfl), fun hpkt c hc => ?_, hend.regs, hend.beside⟩
    rw [hqueue]
    exact (discards_stream s hpkt _ rfl).2 c hc
  · intro q s hruns
    rw [exec_staleTimerExpiry, if_pos hruns, staleExpiry_eq]
    refine ⟨fun h => congrArg Host.Outcome.next (if_neg (by simp [h])), fun h => ⟨congrArg Host.Outcome.next (if_pos h), ?_⟩⟩
    intro t
    obtain ⟨hstep, hclose⟩ := expire_step s h
    obtain ⟨hbit, hflag, hcount⟩ := staleReported_marks s q.isLt
    have hkept : RegsKept (RegKind.sumpStale.addr (q.val / 32) :: sumpRegisters) s t :=
      (staleReported_kept s q.isLt).trans (hstep.regs.mono fun a ha => .inl (List.mem_cons_of_mem _ ha))
    have hframe : t.sumpFrame = s.sumpFrame := hstep.frame.trans (staleReported_frame s q.val)
    refine ⟨?_, hclose.flags 10 (by decide) hflag, CountedMany.then (n := 1) hcount hclose.stale, ?_, fun d rest hpkt hd hmode => ?_,
      fun d rest hpkt hd hmode hvis hq => ?_, hkept, besideFlags_of_sumpFrame hframe⟩
    · rw [hstep.regs.reg (sumpStale_not_sump _) (sumpStale_not_event _)]
      exact hbit
    · rw [hclose.timer, staleReported_queue]
    · have ht : t = agedPacket (staleReported s q.val) q.val d := expire_of_open h hpkt hd
      rw [ht, agedPacket_of_cutThrough _ d ((staleReported_commitMode s q.val).trans hmode)]
      refine ⟨?_, ?_⟩
      · rw [State.withSump_sump]
        split
        · next hin => exact List.contains_iff_mem.1 hin
        · simp
      · rw [State.withSump_sump, staleReported_sump]
        rfl
    · have ht : t = agedPacket (staleReported s q.val) q.val d := expire_of_open h hpkt hd
      obtain ⟨hopens, hgone, hrewound⟩ := agedPacket_rewound (staleReported s q.val) (d := d)
        ((staleReported_commitMode s q.val).trans hmode) ((staleReported_desc s q.val d).symm ▸ hvis)
        ((staleReported_desc s q.val d).symm ▸ hq)
      have hreg : (staleReported s q.val).reg .sumpCntRewind 0 = s.reg .sumpCntRewind 0 := staleReported_rewinds s q.isLt
      rw [CountedOne, hreg] at hrewound
      exact ht ▸ ⟨hopens, hgone, hrewound⟩

end

section
/-! SUPPORT. Pushes of the Sump (08_sump R178, R179, R182): the checks of an attempt, the cell and the descriptor that it takes, and what a
push leaves alone. -/

namespace Sys2Proof.Machine

variable (s : State)

theorem exec_sumpPush (port : Fin 4) (q : Fin 2048) (o : SumpOffer) :
    exec (.sumpPush port q o) s = .next (sumpPush port.val q.val o s) := rfl

/-! ### The checks of an attempt (08_sump R178) -/

section

variable (port q : Nat) (sop : Bool)

/-- The queue holds as many cells as it may, or the pool has none. -/
def State.sumpFull : Prop := (qQuota s.cfg q ≠ 0 ∧ qQuota s.cfg q ≤ s.quotaCells q) ∨ s.freeCells = 0

/-- An attempt without a reservation is refused; `sop` says that it opens a packet. -/
def State.refuses : Prop :=
  qEn s.cfg q = false ∨ qMayPush s.cfg q port = false ∨ (sop = true ∧ s.freeDescs = 0) ∨ s.sumpFull q

/-- The registers that a refusal may write. -/
def refusalRegisters : List Nat :=
  [RegKind.sumpEvt.addr 0, RegKind.sumpCntNodesc.addr 0, RegKind.sumpCntFull.addr 0, RegKind.sumpOvf.addr 0]

/-- The code of a refusal: the first check that fails. -/
def State.refusalCode : Nat :=
  if qEn s.cfg q = false then 1 else if qMayPush s.cfg q port = false then 2 else if sop = true ∧ s.freeDescs = 0 then 3 else 4

/-- A refusal answers the first check that fails, and counts it. -/
structure Refused (code : Nat) (s : State) (r : PushAnswer × State) : Prop where
  answer : r.1 ≠ .taken
  code : r.1.code = code
  noDesc : r.1.code = 3 → CountedOne .sumpCntNodesc 0 s r.2
  full : r.1.code = 4 → CountedOne .sumpCntFull 0 s r.2
  uncounted : r.1.code ≤ 2 → r.2 = s
  regs : RegsKept refusalRegisters s r.2
  counted : SumpCounted s r.2

variable {s port q sop}

theorem pushCheck_of_disabled (hen : qEn s.cfg q = false) : pushCheck port q sop false false s = (.disabled, s) := by
  simp [pushCheck, hen]

section

variable (hen : qEn s.cfg q = true)
include hen

theorem pushCheck_of_notOwner (hmay : qMayPush s.cfg q port = false) : pushCheck port q sop false false s = (.notOwner, s) := by
  simp [pushCheck, hen, hmay]

variable (hmay : qMayPush s.cfg q port = true)
include hmay

theorem pushCheck_of_noDesc (hpkt : qPkt s.cfg q = true) (hsop : sop = true) (hdescs : s.freeDescs = 0) :
    pushCheck port q sop false false s = (.noDesc, countSump .sumpCntNodesc 1 s) := by
  simp [pushCheck, hen, hmay, hpkt, hsop, hdescs]

theorem pushCheck_of_full (hdesc : ¬ (sop = true ∧ s.freeDescs = 0)) (hfull : s.sumpFull q) :
    pushCheck port q sop false false s = (.full, countSump .sumpCntFull 0 s) := by
  have hdesc : (qPkt s.cfg q && sop && !false && decide (s.freeDescs = 0)) = false := by
    simpa using fun _ hs => not_and.1 hdesc hs
  have hfull : (!false && ((decide (qQuota s.cfg q ≠ 0) && decide (qQuota s.cfg q ≤ s.quotaCells q)) || decide (s.freeCells = 0))) =
      true := by simpa [State.sumpFull] using hfull
  simp only [pushCheck, hen, hmay, hdesc, hfull, Bool.not_true, Bool.false_eq_true, if_false, if_true]

end

theorem pushCheck_refused (hsop : sop = true → qPkt s.cfg q = true) (h : s.refuses port q sop) :
    Refused (s.refusalCode port q sop) s (pushCheck port q sop false false s) := by
  unfold State.refusalCode
  cases hen : qEn s.cfg q with
  | false =>
    rw [pushCheck_of_disabled hen, if_pos rfl]
    exact ⟨nofun, rfl, nofun, nofun, fun _ => rfl, .refl s _, .refl s⟩
  | true =>
    rw [if_neg (by decide)]
    cases hmay : qMayPush s.cfg q port with
    | false =>
      rw [pushCheck_of_notOwner hen hmay, if_pos rfl]
      exact ⟨nofun, rfl, nofun, nofun, fun _ => rfl, .refl s _, .refl s⟩
    | true =>
      rw [if_neg (by decide)]
      by_cases hdesc : sop = true ∧ s.freeDescs = 0
      · obtain ⟨hs, hdescs⟩ := hdesc
        rw [pushCheck_of_noDesc hen hmay (hsop hs) hs hdescs, if_pos ⟨hs, hdescs⟩]
        exact ⟨nofun, rfl, fun _ => countSump_countedOne s (by decide) 1, nofun, nofun,
          (countSump_kept s _ 1).mono fun a ha => .inl (by revert a; decide), countSump_counted s (by decide) 1⟩
      · have hfull : s.sumpFull q := by simpa [State.refuses, hen, hmay, hdesc] using h
        rw [pushCheck_of_full hen hmay hdesc hfull, if_neg hdesc]
        exact ⟨nofun, rfl, nofun, fun _ => countSump_countedOne s (by decide) 0, nofun,
          (countSump_kept s _ 0).mono fun a ha => .inl (by revert a; decide), countSump_counted s (by decide) 0⟩

theorem pushCheck_taken (h : ¬ s.refuses port q sop) : pushCheck port q sop false false s = (.taken, s) := by
  simp only [State.refuses, State.sumpFull, not_or, Bool.not_eq_false] at h
  obtain ⟨hen, hmay, hdesc, hquota, hcells⟩ := h
  have hdesc : (qPkt s.cfg q && sop && !false && decide (s.freeDescs = 0)) = false := by
    simpa using fun _ hs => not_and.1 hdesc hs
  have hfull : (!false && ((decide (qQuota s.cfg q ≠ 0) && decide (qQuota s.cfg q ≤ s.quotaCells q)) || decide (s.freeCells = 0))) =
      false := by simpa [hcells] using not_and.1 hquota
  simp only [pushCheck, hen, hmay, hdesc, hfull, Bool.not_true, Bool.false_eq_true, if_false]

end

/-! ### The free lists (08_sump R178) -/

/-- Taking a cell changes the free list alone. -/
theorem takeCell_eq : ∃ fresh free, (takeCell s).2 = s.withSump fun u => { u with freshCell := fresh, freeCells := free } := by
  unfold takeCell
  split
  · exact ⟨_, _, rfl⟩
  · split
    · exact ⟨_, _, rfl⟩
    · exact ⟨_, _, rfl⟩

/-- Taking a descriptor changes its free list alone. -/
theorem takeDesc_eq : ∃ fresh free, (takeDesc s).2 = s.withSump fun u => { u with freshDesc := fresh, freeDescs := free } := by
  unfold takeDesc
  split
  · exact ⟨_, _, rfl⟩
  · split
    · exact ⟨_, _, rfl⟩
    · exact ⟨_, _, rfl⟩

theorem takeCell_step (q : Nat) : QueueStep q s (takeCell s).2 := by
  obtain ⟨fresh, free, h⟩ := takeCell_eq s
  rw [h]
  exact .of_withSump rfl rfl

theorem takeDesc_step (q : Nat) : QueueStep q s (takeDesc s).2 := by
  obtain ⟨fresh, free, h⟩ := takeDesc_eq s
  rw [h]
  exact .of_withSump rfl rfl

/-- The cell taken is the head of the free list. -/
theorem takeCell_head (h : s.freeCells ≠ 0) :
    (s.sump.freshCell < 32768 → (takeCell s).1 = s.sump.freshCell ∧ (takeCell s).2.sump.freshCell = s.sump.freshCell + 1) ∧
      (32768 ≤ s.sump.freshCell → s.sump.freeCells = (takeCell s).1 :: (takeCell s).2.sump.freeCells) := by
  unfold takeCell
  refine ⟨fun hfresh => ?_, fun hfresh => ?_⟩
  · rw [if_pos hfresh]
    exact ⟨rfl, rfl⟩
  · rw [if_neg (Nat.not_lt.2 hfresh)]
    split
    · next hfree => exact hfree
    · next hfree =>
      refine absurd ?_ h
      rw [State.freeCells, hfree, List.length_nil]
      omega

/-- The descriptor taken is the first free one. -/
theorem takeDesc_head (h : s.freeDescs ≠ 0) : (s.sump.freshDesc < 16384 → (takeDesc s).1 = s.sump.freshDesc) ∧
    (16384 ≤ s.sump.freshDesc → s.sump.freeDescs = (takeDesc s).1 :: (takeDesc s).2.sump.freeDescs) := by
  unfold takeDesc
  refine ⟨fun hfresh => ?_, fun hfresh => ?_⟩
  · rw [if_pos hfresh]
  · rw [if_neg (Nat.not_lt.2 hfresh)]
    split
    · next hfree => exact hfree
    · next hfree =>
      refine absurd ?_ h
      rw [State.freeDescs, hfree, List.length_nil]
      omega

/-! ### A beat in a fresh cell -/

section

variable (port q : Nat) (d : Option Nat) (b : SumpBeat) (full : Bool)

theorem newCell_step : QueueStep q s (newCell port q d b full s).2 := by
  unfold newCell
  extract_lets u
  have hu : QueueStep q s u := .ite .refl (modQueue_step s q _)
  exact ((hu.trans (takeCell_step u q)).trans (modSCell_step _ q _ _)).trans (modQueue_step _ q _)

/-- The queue before its fresh cell: its timer restarts where it held none (08_sump R189). -/
def timerStarted : State := if s.holdsCell q then s else s.modQueue q fun v => { v with timer := 0 }

theorem newCell_eq : newCell port q d b full s =
    let r := takeCell (timerStarted s q)
    (r.1, (r.2.modSCell r.1 fun _ => { beats := [b], queue := q, port := port, desc := d, full := full }).modQueue q fun v =>
      { v with held := v.held + 1 }) := rfl

theorem timerStarted_queue : (timerStarted s q).queue q = { s.queue q with timer := ((timerStarted s q).queue q).timer } := by
  unfold timerStarted
  split
  · rfl
  · rw [State.modQueue_queue, if_pos rfl]

theorem timerStarted_others : OtherQueues q s (timerStarted s q) := by
  intro r hr
  unfold timerStarted
  split
  · rfl
  · exact (State.modQueue_queue ..).trans (if_neg hr.symm)

/-- The start of a timer leaves all of the Sump but its queues alone. -/
theorem timerStarted_sump : ∃ queues, (timerStarted s q).sump = { s.sump with queues := queues } := by
  unfold timerStarted
  split
  · exact ⟨_, rfl⟩
  · exact ⟨_, rfl⟩

end

/-- From `s` to `t` a beat has taken cell `c`: beside the cell and the queue's count and timer, only the free list of cells has changed. -/
structure CellStep (port q c : Nat) (b : SumpBeat) (d : Option Nat) (full : Bool) (s t : State) : Prop where
  took : TookCell port q c b d full s t
  queue : t.queue q = { s.queue q with held := (s.queue q).held + 1, timer := (t.queue q).timer }
  others : OtherQueues q s t
  descs : t.sump.descs = s.sump.descs
  freeDescs : t.sump.freeDescs = s.sump.freeDescs

theorem newCell_cellStep (port q : Nat) (d : Option Nat) (b : SumpBeat) (full : Bool) (h : s.freeCells ≠ 0) :
    CellStep port q (newCell port q d b full s).1 b d full s (newCell port q d b full s).2 := by
  obtain ⟨queues, hsump⟩ := timerStarted_sump s q
  have hqueue := timerStarted_queue s q
  have hothers := timerStarted_others s q
  rw [newCell_eq]
  generalize timerStarted s q = u at hsump hqueue hothers ⊢
  have hfree : u.freeCells ≠ 0 := by rwa [State.freeCells, hsump]
  obtain ⟨hfresh, hfreed⟩ := takeCell_head u hfree
  obtain ⟨fresh, free, htake⟩ := takeCell_eq u
  rw [hsump] at hfresh hfreed
  refine ⟨⟨hfresh, hfreed, ?_, ?_, fun e he => ?_⟩, ?_, fun r hr => ?_, ?_, ?_⟩
  · simp
  · rw [State.modQueue_queue, if_pos rfl, State.modSCell_queue, htake]
    exact (congrArg (fun v : SQueue => v.held + 1) hqueue :)
  · rw [State.modQueue_scell, State.modSCell_scell, if_neg (Ne.symm he), htake, State.scell, State.withSump_sump, hsump, State.scell]
  · rw [State.modQueue_queue, if_pos rfl, State.modSCell_queue, htake]
    exact congrArg (fun v : SQueue => { v with held := v.held + 1 }) hqueue
  · rw [State.modQueue_queue, if_neg hr.symm, State.modSCell_queue, htake]
    exact hothers r hr
  · rw [State.modQueue_sump, State.modSCell_sump, htake, State.withSump_sump, hsump]
  · rw [State.modQueue_sump, State.modSCell_sump, htake, State.withSump_sump, hsump]

/-! ### Beats counted and packets ended (08_sump R172, R182) -/

/-- Packets and bytes counted on the push side change the queue's counts alone, and flags. -/
theorem countIn_counted (q pkts bytes : Nat) : SumpCounted
    (s.modQueue q fun v => { v with pktsIn := count64 v.pktsIn pkts, bytesIn := count64 v.bytesIn bytes })
    (countIn q pkts bytes s) := by
  unfold countIn
  extract_lets v u w
  exact .ite (evtOverflow_counted u 3) (.refl u)

@[simp] theorem countIn_sump (q pkts bytes : Nat) : (countIn q pkts bytes s).sump =
    (s.modQueue q fun v => { v with pktsIn := count64 v.pktsIn pkts, bytesIn := count64 v.bytesIn bytes }).sump :=
  (countIn_counted s q pkts bytes).sump

theorem countIn_step (q pkts bytes : Nat) : QueueStep q s (countIn q pkts bytes s) :=
  (modQueue_step s q _).trans (countIn_counted s q pkts bytes).queueStep

theorem packetBeat_step (q d : Nat) (b : SumpBeat) (err : Bool) : QueueStep q s (packetBeat q d b err s) := by
  unfold packetBeat
  extract_lets u v w
  have hv : QueueStep q s v := (modDesc_step s q d _).trans (countIn_step u q _ _)
  have hw : QueueStep q s w := hv.trans (modQueue_step v q _)
  exact .ite (.ite (hw.trans (rewind_step w q d)) hw) hv

/-- The cell that a beat of a packet takes joins the packet. -/
theorem packetCell_eq (port q d : Nat) (b : SumpBeat) (err : Bool) : packetCell port q d b err s =
    let r := newCell port q (some d) b b.eop s
    packetBeat q d b err (r.2.modDesc d fun v => { v with cells := v.cells ++ [r.1], tail := r.1, total := v.total + 1 }) := rfl

theorem packetCell_step (port q d : Nat) (b : SumpBeat) (err : Bool) : QueueStep q s (packetCell port q d b err s) :=
  ((newCell_step s port q (some d) b b.eop).trans (modDesc_step _ q d _)).trans (packetBeat_step _ q d b err)

theorem packetFill_step (q d c : Nat) (b : SumpBeat) (err : Bool) : QueueStep q s (packetFill q d c b err s) :=
  (modSCell_step s q c _).trans (packetBeat_step _ q d b err)

theorem watchLevels_step (q : Nat) (old : State) : QueueStep q s (watchLevels old s) := (watchLevels_counted s old).queueStep

theorem seqError_step (q : Nat) : QueueStep q s (seqError s) :=
  ((countSump_counted s (by decide) 8).trans (flagSump_counted _ 6)).queueStep

/-- A push leaves alone what is beside its queue and the Sump's own registers. -/
theorem pushBeat_step (port q : Nat) (p : Producer) (b : SumpBeat) : QueueStep q s (pushBeat port q p b s).2 := by
  unfold pushBeat
  extract_lets b' old resv heldCell heldDesc useResv closed
  clear_value resv
  have huse (u : State) : QueueStep q u (useResv u) := by
    unfold useResv
    split
    · exact .of_withSump rfl rfl
    · exact .refl
  have hcheck (sop : Bool) : QueueStep q s (pushCheck port q sop heldCell heldDesc s).2 := (pushCheck_counted s ..).queueStep
  have hclosed (u : State) : QueueStep q u (closePacket q p (seqError u)) := (seqError_step u q).trans (closePacket_step _ q p)
  split
  · split
    · next t ht =>
      have ht : QueueStep q s t := by simpa [ht] using hcheck false
      exact (((ht.trans (huse t)).trans (newCell_step _ port q none b' true)).trans (modQueue_step _ q _)).trans
        ((countIn_step _ q 0 b'.bytes).trans (watchLevels_step _ q old))
    · exact hcheck _
  · split
    · split
      · next t ht =>
        have ht : QueueStep q s t := by simpa [ht] using hcheck true
        extract_lets u
        have hu : QueueStep q s u := .ite (ht.trans (hclosed t)) ht
        exact (((hu.trans (huse u)).trans (takeDesc_step _ q)).trans (modDesc_step _ q _ _)).trans
          ((modQueue_step _ q _).trans ((packetCell_step _ port q _ b' b.err).trans (watchLevels_step _ q old)))
      · exact hcheck _
    · split
      · split
        · exact .ite (modQueue_step s q _) .refl
        · exact seqError_step s q
      · next d hd =>
        split
        · exact packetFill_step s q d _ b' b.err
        · split
          · exact .ite ((hclosed s).trans (modQueue_step _ q _)) (hclosed s)
          · split
            · next t ht =>
              have ht : QueueStep q s t := by simpa [ht] using hcheck false
              exact ((ht.trans (huse t)).trans (packetCell_step _ port q d b' b.err)).trans (watchLevels_step _ q old)
            · exact hcheck _

end Sys2Proof.Machine
end

section
/-! SUPPORT. What a beat that is taken does in the Sump (08_sump R172, R178, R182): the cell and the packet that it begins, leaves open,
ends or has rewound. -/

namespace Sys2Proof.Machine

variable (s : State)

/-! ### What happens to a cell after it is taken -/

/-- From `s` to `t` the cells, their free list and what queue `q` holds have stayed, and the other queues. -/
structure CellsKept (q : Nat) (s t : State) : Prop where
  fresh : t.sump.freshCell = s.sump.freshCell
  free : t.sump.freeCells = s.sump.freeCells
  cells : t.sump.cells = s.sump.cells
  held : (t.queue q).held = (s.queue q).held
  others : OtherQueues q s t

section

variable {s} {t u : State} {port q c : Nat} {b : SumpBeat} {d : Option Nat} {full : Bool}

theorem CellsKept.trans (h : CellsKept q s t) (h' : CellsKept q t u) : CellsKept q s u :=
  ⟨h'.fresh.trans h.fresh, h'.free.trans h.free, h'.cells.trans h.cells, h'.held.trans h.held, fun r hr =>
    (h'.others r hr).trans (h.others r hr)⟩

theorem SumpCounted.cellsKept (h : SumpCounted s t) : CellsKept q s t := by
  have hqueue := State.queue_congr h.sump
  exact ⟨by rw [h.sump], by rw [h.sump], by rw [h.sump], by rw [hqueue], fun r _ => hqueue r⟩

theorem CellsKept.scell (h : CellsKept q s t) (e : Nat) : t.scell e = s.scell e := by rw [State.scell, h.cells, State.scell]

/-- A cell taken from the state that `s` has become was taken from `s`. -/
theorem TookCell.of_kept (h : TookCell port q c b d full t u) (hk : CellsKept q s t) : TookCell port q c b d full s u := by
  obtain ⟨hfresh, hfree, hcell, hheld, hcells⟩ := h
  rw [hk.fresh] at hfresh hfree
  rw [hk.free] at hfree
  exact ⟨hfresh, hfree, hcell, hheld.trans (congrArg (· + 1) hk.held), fun e he => (hcells e he).trans (hk.scell e)⟩

/-- A cell that is taken stays taken. -/
theorem TookCell.then (h : TookCell port q c b d full s t) (hk : CellsKept q t u) : TookCell port q c b d full s u := by
  obtain ⟨hfresh, hfree, hcell, hheld, hcells⟩ := h
  rw [← hk.fresh] at hfresh
  rw [← hk.free] at hfree
  exact ⟨hfresh, hfree, (hk.scell c).trans hcell, hk.held.trans hheld, fun e he => (hk.scell e).trans (hcells e he)⟩

end

/-- A change of a queue that leaves the number of its cells alone. -/
theorem modQueue_cellsKept (q : Nat) {f : SQueue → SQueue} (h : ∀ v, (f v).held = v.held) : CellsKept q s (s.modQueue q f) where
  fresh := rfl
  free := rfl
  cells := rfl
  held := by
    rw [State.modQueue_queue, if_pos rfl]
    exact h _
  others r hr := by rw [State.modQueue_queue, if_neg hr.symm]

theorem modDesc_cellsKept (q d : Nat) (f : SDesc → SDesc) : CellsKept q s (s.modDesc d f) := ⟨rfl, rfl, rfl, rfl, fun _ _ => rfl⟩

@[simp] theorem countIn_queue (q pkts bytes r : Nat) : (countIn q pkts bytes s).queue r =
    if q = r then { s.queue q with pktsIn := count64 (s.queue q).pktsIn pkts, bytesIn := count64 (s.queue q).bytesIn bytes }
    else s.queue r := by
  rw [State.queue_congr (countIn_sump s q pkts bytes), State.modQueue_queue]

@[simp] theorem countIn_desc (q pkts bytes d : Nat) : (countIn q pkts bytes s).desc d = s.desc d := by
  rw [State.desc, countIn_sump]
  rfl

theorem countIn_cellsKept (q pkts bytes : Nat) : CellsKept q s (countIn q pkts bytes s) :=
  (modQueue_cellsKept s q (f := fun v => { v with pktsIn := count64 v.pktsIn pkts, bytesIn := count64 v.bytesIn bytes }) fun _ => rfl).trans
    (countIn_counted s q pkts bytes).cellsKept

/-- Packets and bytes counted on the push side count in no counter of the Sump. -/
theorem countIn_countedNone {k : RegKind} (hk : k ∈ sumpCounters) (q pkts bytes : Nat) :
    CountedMany k 0 0 s (countIn q pkts bytes s) := by
  obtain ⟨-, hevent, -⟩ := sumpCounter_addr hk
  unfold countIn
  extract_lets v u w
  refine .of_kept (l := []) (.ite s ?_ ?_) (by simp) hevent
  · exact .trans (.same (.refl s _) rfl) (evtOverflow_kept u _ 3)
  · exact .same (.refl s _) rfl

/-- The levels of the free lists set flags alone. -/
theorem watchLevels_countedNone {k : RegKind} (hk : k ∈ sumpCounters) (old : State) : CountedMany k 0 0 s (watchLevels old s) := by
  obtain ⟨-, hevent, -, hflag, -⟩ := sumpCounter_addr hk
  unfold watchLevels
  extract_lets low u v
  have hu : RegsKept [RegKind.sumpEvt.addr 0] s u := .ite s (flagSump_kept s 0) (.refl s _)
  have hv : RegsKept [RegKind.sumpEvt.addr 0] s v := .ite s (hu.trans (flagSump_kept u 1)) hu
  exact .of_kept (.ite s (hv.trans (flagSump_kept v 2)) hv) (by simpa using hflag) hevent

theorem newCell_regs (port q : Nat) (d : Option Nat) (b : SumpBeat) (full : Bool) : (newCell port q d b full s).2.regs = s.regs := by
  obtain ⟨fresh, free, htake⟩ := takeCell_eq (timerStarted s q)
  rw [newCell_eq]
  simp only [State.modQueue_regs, State.modSCell_regs, htake, State.withSump_regs]
  unfold timerStarted
  split <;> rfl

/-- A packet given back leaves its queue's cells counted until the clock's end. -/
theorem rewind_cellsKept {q d : Nat} (h : (s.desc d).queue = q) : CellsKept q s (rewind d s) := by
  have hqueue (r : Nat) : (rewind d s).queue r = if q = r then (s.queue r).without d else s.queue r := by
    rw [State.queue_congr (rewind_sump s d), dropPacket_queue, h]
  refine ⟨by rw [rewind_sump]; rfl, by rw [rewind_sump]; rfl, by rw [rewind_sump]; rfl, ?_, fun r hr => ?_⟩
  · rw [hqueue, if_pos rfl, SQueue.without]
  · rw [hqueue, if_neg hr.symm]

/-! ### A beat of a stream queue (08_sump R178) -/

section

variable {s} {port q : Nat} {p : Producer} (b : SumpBeat)

theorem pushBeat_refused (hresv : s.resvOf p q = none) (hmode : qPkt s.cfg q = false ∨ b.stored.sop = true) :
    let r := pushCheck port q (qPkt s.cfg q && b.stored.sop) false false s
    r.1 ≠ .taken → pushBeat port q p b s = r := by
  intro r h
  have hr : pushCheck port q (qPkt s.cfg q && b.stored.sop) false false s = r := rfl
  clear_value r
  cases hpkt : qPkt s.cfg q with
  | false =>
    rw [hpkt, Bool.false_and] at hr
    simp only [pushBeat, hresv, hpkt, if_true, Option.isSome_none, hr]
    split
    · exact absurd rfl h
    · rfl
  | true =>
    have hsop := hmode.resolve_left (by simp [hpkt])
    rw [hpkt, hsop, Bool.true_and] at hr
    simp only [pushBeat, hresv, hpkt, hsop, Bool.true_eq_false, if_false, if_true, Option.isSome_none, hr]
    split
    · exact absurd rfl h
    · rfl

theorem pushBeat_refuses (hresv : s.resvOf p q = none) (hmode : qPkt s.cfg q = false ∨ b.stored.sop = true)
    (h : s.refuses port q (qPkt s.cfg q && b.stored.sop)) :
    Refused (s.refusalCode port q (qPkt s.cfg q && b.stored.sop)) s (pushBeat port q p b s) := by
  have hcheck := pushCheck_refused (fun hsop => (Bool.and_eq_true_iff.1 hsop).1) h
  rwa [pushBeat_refused b hresv hmode hcheck.answer]

theorem pushBeat_stream (hresv : s.resvOf p q = none) (hpkt : qPkt s.cfg q = false) (h : ¬ s.refuses port q false) :
    pushBeat port q p b s =
      let r := newCell port q none b.stored true s
      (.taken, watchLevels s (countIn q 0 b.stored.bytes (r.2.modQueue q fun v => { v with stream := v.stream ++ [r.1] }))) := by
  simp only [pushBeat, hresv, hpkt, if_true, Option.isSome_none, pushCheck_taken h]

/-- A packet is opened in a descriptor. -/
def openPacket (s : State) (q : Nat) (p : Producer) (d : Nat) : State :=
  (s.modDesc d fun _ => { used := true, queue := q, fresh := (s.queue q).recover }).modQueue q fun v =>
    { v with opens := v.opens ++ [d], prog := v.prog ++ [(p, d)], dropping := v.dropping.filter (· ≠ p) }

theorem pushBeat_opens (hresv : s.resvOf p q = none) (hpkt : qPkt s.cfg q = true) (hsop : b.stored.sop = true)
    (h : ¬ s.refuses port q true) (hprog : s.inProgress q p = none) :
    pushBeat port q p b s =
      let r := takeDesc s
      (.taken, watchLevels s (packetCell port q r.1 b.stored b.err (openPacket r.2 q p r.1))) := by
  simp only [pushBeat, hresv, hpkt, hsop, Bool.true_eq_false, if_false, if_true, Option.isSome_none, pushCheck_taken h, hprog]
  rfl

end

/-! ### A packet's first beat (08_sump R172, R178, R182) -/

/-- A beat is counted in its packet and in its queue. -/
def beatCounted (q d : Nat) (b : SumpBeat) (err : Bool) : State :=
  countIn q (bitNat b.eop) b.bytes (s.modDesc d fun v =>
    { v with len := v.len + b.bytes, mark := v.mark || b.mark, bad := v.bad || err || (b.eop && b.bad) })

/-- The packet's producer has it in progress no more. -/
def packetLeft (q d : Nat) : State := s.modQueue q fun v => { v with prog := v.prog.filter (·.2 ≠ d) }

section

variable {s} {q d : Nat} {b : SumpBeat} {err : Bool}

theorem packetBeat_of_open (h : b.eop = false) : packetBeat q d b err s = beatCounted s q d b err := by
  simp only [packetBeat, h, Bool.false_eq_true, if_false, beatCounted]

theorem packetBeat_of_end (h : b.eop = true) : packetBeat q d b err s =
    let u := packetLeft (beatCounted s q d b err) q d
    if (u.desc d).bad ∧ (u.desc d).vis = false then rewind d u else u := by
  simp only [packetBeat, h, if_true, beatCounted, packetLeft]

end

/-- From `s` to `t` a packet has been opened in descriptor `d` with its first beat, in cell `c`. -/
structure FirstBeat (port q : Nat) (p : Producer) (d c : Nat) (b : SumpBeat) (err : Bool) (s t : State) : Prop where
  took : TookCell port q c b (some d) b.eop s t
  queue : t.queue q = { s.queue q with
    opens := (s.queue q).opens ++ [d], prog := (s.queue q).prog ++ [(p, d)], dropping := (s.queue q).dropping.filter (· ≠ p)
    held := (s.queue q).held + 1, timer := (t.queue q).timer
    pktsIn := count64 (s.queue q).pktsIn (bitNat b.eop), bytesIn := count64 (s.queue q).bytesIn b.bytes }
  desc : t.desc d =
    { used := true, queue := q, fresh := (s.queue q).recover, cells := [c], tail := c, total := 1, len := b.bytes, mark := b.mark
      bad := err || (b.eop && b.bad) }
  others : OtherQueues q s t
  freeDescs : t.sump.freeDescs = s.sump.freeDescs
  rewinds : CountedMany .sumpCntRewind 0 0 s t

theorem openPacket_cellsKept (q : Nat) (p : Producer) (d : Nat) : CellsKept q s (openPacket s q p d) :=
  (modDesc_cellsKept s q d _).trans (modQueue_cellsKept _ q fun _ => rfl)

theorem beatCounted_cellsKept (q d : Nat) (b : SumpBeat) (err : Bool) : CellsKept q s (beatCounted s q d b err) :=
  (modDesc_cellsKept s q d _).trans (countIn_cellsKept _ q _ _)

theorem packetCell_firstBeat (port q : Nat) (p : Producer) (d : Nat) (b : SumpBeat) (err : Bool) (h : s.freeCells ≠ 0) :
    ∃ c t, FirstBeat port q p d c b err s t ∧ packetCell port q d b err (openPacket s q p d) =
      if b.eop then (let u := packetLeft t q d
        if (u.desc d).bad ∧ (u.desc d).vis = false then rewind d u else u) else t := by
  have hopen := openPacket_cellsKept s q p d
  have hfree : (openPacket s q p d).freeCells ≠ 0 := by rwa [State.freeCells, hopen.fresh, hopen.free]
  have hcell := newCell_cellStep (openPacket s q p d) port q (some d) b b.eop hfree
  have hqueue : (openPacket s q p d).queue q = { s.queue q with
      opens := (s.queue q).opens ++ [d], prog := (s.queue q).prog ++ [(p, d)]
      dropping := (s.queue q).dropping.filter (· ≠ p) } := by simp [openPacket]
  have hdesc : (openPacket s q p d).desc d = { used := true, queue := q, fresh := (s.queue q).recover } := by simp [openPacket]
  have hregs : (newCell port q (some d) b b.eop (openPacket s q p d)).2.regs = s.regs := newCell_regs ..
  rw [packetCell_eq]
  generalize newCell port q (some d) b b.eop (openPacket s q p d) = r at *
  let x := r.2.modDesc d fun v => { v with cells := v.cells ++ [r.1], tail := r.1, total := v.total + 1 }
  have hx : CellsKept q r.2 (beatCounted x q d b err) := (modDesc_cellsKept r.2 q d _).trans (beatCounted_cellsKept x q d b err)
  refine ⟨r.1, beatCounted x q d b err, ⟨?_, ?_, ?_, ?_, ?_, ?_⟩, ?_⟩
  · exact TookCell.then (TookCell.of_kept hcell.took hopen) hx
  · have hz : (beatCounted x q d b err).queue q = { r.2.queue q with
        pktsIn := count64 (r.2.queue q).pktsIn (bitNat b.eop), bytesIn := count64 (r.2.queue q).bytesIn b.bytes } := by
      simp [beatCounted, x]
    rw [hz, hcell.queue, hqueue]
  · have hr : r.2.desc d = (openPacket s q p d).desc d := by rw [State.desc, hcell.descs, State.desc]
    simp [beatCounted, x, hr, hdesc]
  · exact fun e he => (hx.others e he).trans ((hcell.others e he).trans (hopen.others e he))
  · rw [beatCounted, countIn_sump]
    exact hcell.freeDescs
  · have hx : CountedMany .sumpCntRewind 0 0 s (x.modDesc d fun v =>
        { v with len := v.len + b.bytes, mark := v.mark || b.mark, bad := v.bad || err || (b.eop && b.bad) }) := .of_regs hregs _ 0
    exact hx.then (countIn_countedNone _ (by decide) q _ _)
  · cases heop : b.eop with
    | false => rw [packetBeat_of_open heop, if_neg (by decide)]
    | true => rw [packetBeat_of_end heop, if_pos rfl]

section

variable {s} {t : State} {port q : Nat} {p : Producer} {d c : Nat} {b : SumpBeat} {err : Bool}

@[simp] theorem packetLeft_queue (q d : Nat) :
    (packetLeft s q d).queue q = { s.queue q with prog := (s.queue q).prog.filter (·.2 ≠ d) } := by
  rw [packetLeft, State.modQueue_queue, if_pos rfl]

theorem packetLeft_cellsKept (q d : Nat) : CellsKept q s (packetLeft s q d) := modQueue_cellsKept s q fun _ => rfl

/-- A packet's cells and its descriptor are on their way back, and the packet is in its queue no more. -/
theorem rewind_given (d : Nat) : (rewind d s).sump.gone = s.sump.gone ++ (s.desc d).cells ∧ d ∈ (rewind d s).sump.goneDescs ∧
    d ∉ ((rewind d s).queue (s.desc d).queue).opens := by
  rw [rewind_sump, State.queue_congr (rewind_sump s d)]
  simp [SQueue.without]

/-- A packet of one beat that is bad or was sent with ERR is rewound (R182). -/
theorem FirstBeat.rewound (h : FirstBeat port q p d c b err s t) (hbad : (err || (b.eop && b.bad)) = true) :
    let u := packetLeft t q d
    let v := rewind d u
    (if (u.desc d).bad ∧ (u.desc d).vis = false then v else u) = v ∧ TookCell port q c b (some d) b.eop s v ∧
      CountedOne .sumpCntRewind 0 s v ∧ d ∉ (v.queue q).opens ∧ c ∈ v.sump.gone ∧ d ∈ v.sump.goneDescs ∧ OtherQueues q s v ∧
      v.sump.freeDescs = s.sump.freeDescs := by
  intro u v
  have hdesc : u.desc d = t.desc d := rfl
  have hqueue : (u.desc d).queue = q := by rw [hdesc, h.desc]
  have hkept : CellsKept q t v := (packetLeft_cellsKept q d).trans (rewind_cellsKept u hqueue)
  obtain ⟨hgone, hdescs, hopens⟩ := rewind_given (s := u) d
  rw [hqueue] at hopens
  refine ⟨?_, TookCell.then h.took hkept, ?_, hopens, ?_, hdescs, fun r hr => (hkept.others r hr).trans (h.others r hr), ?_⟩
  · rw [hdesc, h.desc, if_pos ⟨hbad, rfl⟩]
  · have hu : CountedMany .sumpCntRewind 0 0 s u := h.rewinds.then (.of_regs rfl _ 0)
    exact hu.trans (rewind_countedOne u d)
  · rw [hgone, hdesc, h.desc]
    simp
  · rw [rewind_sump]
    exact h.freeDescs

/-- A good packet of one beat stays among the open ones, in progress no more. -/
theorem FirstBeat.ended (h : FirstBeat port q p d c b err s t) (heop : b.eop = true) (hgood : (err || (b.eop && b.bad)) = false) :
    let u := packetLeft t q d
    (if (u.desc d).bad ∧ (u.desc d).vis = false then rewind d u else u) = u ∧ TookCell port q c b (some d) b.eop s u ∧
      (u.queue q).opens = (s.queue q).opens ++ [d] ∧ (∀ e, (e, d) ∉ (u.queue q).prog) ∧ (u.desc d).cells = [c] ∧
      (u.queue q).pktsIn = min ((s.queue q).pktsIn + 1) (2 ^ 64 - 1) ∧ OtherQueues q s u ∧ u.sump.freeDescs = s.sump.freeDescs := by
  intro u
  have hdesc : u.desc d = t.desc d := rfl
  have hkept : CellsKept q t u := packetLeft_cellsKept q d
  have hqueue : u.queue q = { t.queue q with prog := (t.queue q).prog.filter (·.2 ≠ d) } := packetLeft_queue q d
  refine ⟨?_, TookCell.then h.took hkept, ?_, fun e => ?_, ?_, ?_, fun r hr => (hkept.others r hr).trans (h.others r hr), h.freeDescs⟩
  · rw [hdesc, h.desc, hgood, if_neg (by simp)]
  · rw [hqueue, h.queue]
  · rw [hqueue]
    simp
  · rw [hdesc, h.desc]
  · rw [hqueue, h.queue, heop]
    rfl

end

/-! ### What a beat that is taken does (08_sump R178, R182) -/

/-- From `s` to `t` a producer with no packet in progress has begun one in cell `c`; `err` says that the beat was sent with ERR. -/
structure PacketPush (port q : Nat) (p : Producer) (b : SumpBeat) (err : Bool) (d c : Nat) (s t : State) : Prop where
  took : TookCell port q c b (some d) b.eop s t
  begun : b.eop = false → (t.queue q).opens = (s.queue q).opens ++ [d] ∧ (p, d) ∈ (t.queue q).prog ∧ (t.desc d).cells = [c] ∧
    (t.desc d).used = true ∧ (t.desc d).len = 128
  ended : b.eop = true → b.bad = false → err = false →
    (t.queue q).opens = (s.queue q).opens ++ [d] ∧ (∀ e, (e, d) ∉ (t.queue q).prog) ∧ (t.desc d).cells = [c] ∧
      (t.queue q).pktsIn = min ((s.queue q).pktsIn + 1) (2 ^ 64 - 1)
  rewound : b.eop = true → b.bad = true ∨ err = true →
    CountedOne .sumpCntRewind 0 s t ∧ d ∉ (t.queue q).opens ∧ c ∈ t.sump.gone ∧ d ∈ t.sump.goneDescs
  others : OtherQueues q s t

section

variable {s} {t u : State} {port q : Nat} {p : Producer} {b : SumpBeat} {err : Bool} {d c : Nat}

theorem PacketPush.then_watchLevels (h : PacketPush port q p b err d c s t) (old : State) :
    PacketPush port q p b err d c s (watchLevels old t) := by
  have hsump := watchLevels_sump t old
  have hkept : CellsKept q t (watchLevels old t) := (watchLevels_counted t old).cellsKept
  have hcount : CountedMany .sumpCntRewind 0 0 t (watchLevels old t) := watchLevels_countedNone t (by decide) old
  have hqueue := State.queue_congr hsump q
  have hdesc : (watchLevels old t).desc d = t.desc d := by rw [State.desc, hsump, State.desc]
  refine ⟨TookCell.then h.took hkept, ?_, ?_, fun heop hbad => ?_, fun r hr => (hkept.others r hr).trans (h.others r hr)⟩
  · rw [hqueue, hdesc]
    exact h.begun
  · rw [hqueue, hdesc]
    exact h.ended
  · obtain ⟨hrewind, hrest⟩ := h.rewound heop hbad
    rw [hqueue, hsump]
    exact ⟨CountedMany.then hrewind hcount, hrest⟩

/-- The first beat of a packet leaves it open, ends it, or has it rewound. -/
theorem packetCell_push (hfree : s.freeCells ≠ 0) (htrunc : b.truncated = false) : ∃ c,
    PacketPush port q p b err d c s (packetCell port q d b err (openPacket s q p d)) ∧
      (packetCell port q d b err (openPacket s q p d)).sump.freeDescs = s.sump.freeDescs := by
  obtain ⟨c, t, h, heq⟩ := packetCell_firstBeat s port q p d b err hfree
  refine ⟨c, ?_⟩
  rw [heq]
  cases heop : b.eop with
  | false =>
    rw [if_neg (by decide)]
    refine ⟨⟨h.took, fun _ => ?_, by simp [heop], by simp [heop], h.others⟩, h.freeDescs⟩
    rw [h.queue, h.desc]
    simp [SumpBeat.bytes, heop, htrunc]
  | true =>
    rw [if_pos rfl]
    cases hbad : err || (b.eop && b.bad) with
    | true =>
      obtain ⟨hu, htook, hrewound, hopens, hgone, hdescs, hothers, hfreed⟩ := h.rewound hbad
      rw [hu]
      refine ⟨⟨htook, by simp [heop], fun _ hb he => ?_, fun _ _ => ⟨hrewound, hopens, hgone, hdescs⟩, hothers⟩, hfreed⟩
      simp [hb, he] at hbad
    | false =>
      obtain ⟨hu, htook, hopens, hprog, hcells, hpkts, hothers, hfreed⟩ := h.ended heop hbad
      rw [hu]
      refine ⟨⟨htook, by simp [heop], fun _ _ _ => ⟨hopens, hprog, hcells, hpkts⟩, fun _ hb => ?_, hothers⟩, hfreed⟩
      rcases hb with hb | hb <;> simp [heop, hb] at hbad

/-- No state bit of a popped beat is stored. -/
theorem stored_truncated (b : SumpBeat) : b.stored.truncated = false := by
  simp [SumpBeat.stored, SumpBeat.truncated]

theorem not_refuses {sop : Bool} (hen : qEn s.cfg q = true) (hmay : qMayPush s.cfg q port = true)
    (hdesc : sop = true → s.freeDescs ≠ 0) (hquota : qQuota s.cfg q = 0 ∨ s.quotaCells q < qQuota s.cfg q) (hcells : s.freeCells ≠ 0) :
    ¬ s.refuses port q sop := by
  simp only [State.refuses, State.sumpFull, hen, hmay, Bool.true_eq_false, false_or]
  rintro (⟨hsop, hdescs⟩ | ⟨hset, hfull⟩ | hnone)
  · exact hdesc hsop hdescs
  · exact hquota.elim hset (Nat.not_lt.2 hfull)
  · exact hcells hnone

theorem freeCells_of_unrefused {sop : Bool} (h : ¬ s.refuses port q sop) : s.freeCells ≠ 0 := fun h0 =>
  h (.inr (.inr (.inr (.inr h0))))

theorem pushBeat_packet (b : SumpBeat) (hresv : s.resvOf p q = none) (hpkt : qPkt s.cfg q = true) (hsop : b.stored.sop = true)
    (h : ¬ s.refuses port q true) (hprog : s.inProgress q p = none) :
    ∃ c d t, pushBeat port q p b s = (.taken, t) ∧
      (s.sump.freshDesc < 16384 → d = s.sump.freshDesc) ∧ (16384 ≤ s.sump.freshDesc → s.sump.freeDescs = d :: t.sump.freeDescs) ∧
      PacketPush port q p b.stored b.err d c s t := by
  have hdescs : s.freeDescs ≠ 0 := fun h0 => h (.inr (.inr (.inl ⟨rfl, h0⟩)))
  obtain ⟨hfresh, hfreed⟩ := takeDesc_head s hdescs
  have hpush := pushBeat_opens b hresv hpkt hsop h hprog
  obtain ⟨fresh, free, htake⟩ := takeDesc_eq s
  obtain ⟨c, hc, hrest⟩ := packetCell_push (s := (takeDesc s).2) (port := port) (q := q) (p := p) (err := b.err) (d := (takeDesc s).1)
    (by rw [htake]; exact freeCells_of_unrefused (s := s) h) (stored_truncated b)
  refine ⟨c, _, _, hpush, hfresh, fun hge => ?_, ?_⟩
  · rw [watchLevels_sump, hrest]
    exact hfreed hge
  · have hpushed := hc.then_watchLevels s
    generalize watchLevels s _ = t at hpushed ⊢
    rw [htake] at hpushed
    exact ⟨hpushed.took, hpushed.begun, hpushed.ended, hpushed.rewound, hpushed.others⟩

theorem pushBeat_streamed (b : SumpBeat) (hresv : s.resvOf p q = none) (hpkt : qPkt s.cfg q = false) (h : ¬ s.refuses port q false) :
    ∃ c t, pushBeat port q p b s = (.taken, t) ∧ TookCell port q c b.stored none true s t ∧
      (t.queue q).stream = (s.queue q).stream ++ [c] ∧
      (t.queue q).bytesIn = min ((s.queue q).bytesIn + b.stored.bytes) (2 ^ 64 - 1) ∧ OtherQueues q s t ∧ t.sump.descs = s.sump.descs := by
  have hcell := newCell_cellStep s port q none b.stored true (freeCells_of_unrefused h)
  have hpush := pushBeat_stream b hresv hpkt h
  generalize newCell port q none b.stored true s = r at *
  let x := r.2.modQueue q fun v => { v with stream := v.stream ++ [r.1] }
  have hx : CellsKept q r.2 x := modQueue_cellsKept r.2 q fun _ => rfl
  have hkept : CellsKept q r.2 (watchLevels s (countIn q 0 b.stored.bytes x)) :=
    (hx.trans (countIn_cellsKept x q _ _)).trans (watchLevels_counted _ s).cellsKept
  have hqueue : x.queue q = { r.2.queue q with stream := (r.2.queue q).stream ++ [r.1] } := by simp [x]
  have hstream : (r.2.queue q).stream = (s.queue q).stream := (congrArg SQueue.stream hcell.queue :)
  have hbytes : (r.2.queue q).bytesIn = (s.queue q).bytesIn := (congrArg SQueue.bytesIn hcell.queue :)
  refine ⟨r.1, _, hpush, TookCell.then hcell.took hkept, ?_, ?_, fun e he => (hkept.others e he).trans (hcell.others e he), ?_⟩
  · rw [State.queue_congr (watchLevels_sump ..), countIn_queue, if_pos rfl, hqueue, hstream]
  · rw [State.queue_congr (watchLevels_sump ..), countIn_queue, if_pos rfl, hqueue]
    exact congrArg (count64 · b.stored.bytes) hbytes
  · rw [watchLevels_sump, countIn_sump]
    exact hcell.descs

end

end Sys2Proof.Machine
end

section
/-! SUPPORT. Whose beat a port takes (08_sump R169, R171, R192): one that its sender offers for a producer, one that waits at a Crusher's
port, or that of the portal of the port 2 entry. -/

namespace Sys2Proof.Machine

section

variable {s t : State} {port q : Nat} {p : Producer}

theorem BurstStep.eq {n : Nat} (h : BurstStep n s t) : t = { s with portals := t.portals } :=
  congrArg (fun v : State => { v with portals := t.portals }) h.frame

theorem BurstStep.burstsOnly {n : Nat} (h : BurstStep n s t) : BurstsOnly s t := fun k => by
  by_cases hk : k = n
  · exact hk ▸ h.place
  · rw [h.others k hk]

theorem portPush_eq (port q : Nat) (p : Producer) (b : SumpBeat) : portPush port q p b s =
    let r := pushBeat port q p b (usePort port q false s)
    (r.1, r.2.withSump fun u => { u with result := tabSet 0 u.result port r.1.code }) := rfl

theorem code_eq_zero {a : PushAnswer} : a.code = 0 ↔ a = .taken := by cases a <;> decide

/-- A port keeps the code of its answer. -/
theorem portPush_result (port q : Nat) (p : Producer) (b : SumpBeat) :
    tabGet 0 (portPush port q p b s).2.sump.result port = (portPush port q p b s).1.code :=
  (tabGet_tabSet ..).trans (if_pos rfl)

theorem portPush_step (port q : Nat) (p : Producer) (b : SumpBeat) : QueueStep q s (portPush port q p b s).2 := by
  have huse : QueueStep q s (usePort port q false s) := .of_withSump rfl rfl
  have hresult (u : State) (code : Nat) : QueueStep q u (u.withSump fun v => { v with result := tabSet 0 v.result port code }) :=
    .of_withSump rfl rfl
  rw [portPush_eq]
  exact (huse.trans (pushBeat_step _ port q p b)).trans (hresult _ _)

theorem sumpPush_of_busy (o : SumpOffer) (h : s.blocksRun = false ∨ s.portTakes port q false = false) : sumpPush port q o s = s := by
  rcases h with h | h <;> simp [sumpPush, h]

variable (b : SumpBeat)

theorem sumpPush_of_unfit (h : s.producerFits port q p = false) : sumpPush port q (.given p b) s = s := by
  simp [sumpPush, h]

/-- The queues that the Foreman pushes into are noted beside the Sump's cells and queues. -/
theorem noteForeman_eq (q : Nat) (p : Producer) : ∃ fm, noteForeman q p s = s.withSump fun u => { u with fmQueues := fm } := by
  unfold noteForeman
  split
  · exact ⟨_, rfl⟩
  · exact ⟨s.sump.fmQueues, rfl⟩

section

variable (hruns : s.blocksRun = true) (htakes : s.portTakes port q false = true)
include hruns htakes

theorem sumpPush_of_refused (hfits : s.producerFits port q p = true) (h : (portPush port q p b s).1 ≠ .taken) :
    sumpPush port q (.given p b) s = (portPush port q p b s).2 := by
  simp only [sumpPush, hruns, htakes, hfits, Bool.and_self, if_true, if_neg h]

/-- The producer of a beat that is taken is noted: its burst where it is a portal, its queue where it is the Foreman. -/
theorem sumpPush_of_taken (hfits : s.producerFits port q p = true) {t : State} (h : portPush port q p b s = (.taken, t)) :
    ∃ portals fm, sumpPush port q (.given p b) s = { t with portals := portals, sump := { t.sump with fmQueues := fm } } ∧
      BurstsOnly s { t with portals := portals, sump := { t.sump with fmQueues := fm } } := by
  have hportals : t.portals = s.portals := by simpa [h] using (portPush_step (s := s) port q p b).portals
  have hkept (u : State) (hu : u = { t with portals := u.portals }) (hb : BurstsOnly t u) : ∃ portals fm,
      noteForeman q p u = { t with portals := portals, sump := { t.sump with fmQueues := fm } } ∧
        BurstsOnly s { t with portals := portals, sump := { t.sump with fmQueues := fm } } := by
    obtain ⟨fm, hfm⟩ := noteForeman_eq (s := u) q p
    refine ⟨u.portals, fm, ?_, fun n => ?_⟩
    · rw [hfm, hu]
      rfl
    · have hn : t.portal n = s.portal n := by rw [State.portal, hportals, State.portal]
      exact hn ▸ hb n
  simp only [sumpPush, hruns, htakes, hfits, Bool.and_self, if_true, h]
  split
  · next n _ =>
    have hburst : BurstStep n t (pushedBurst n q p b s t) := countBurst_step ..
    exact hkept _ hburst.eq hburst.burstsOnly
  · exact hkept t rfl fun _ => rfl

/-- A beat that is taken changes, beside what its push does, the port's answer and what is noted of its producer. -/
theorem sumpPush_of_pushed (hfits : s.producerFits port q p = true) {t : State}
    (h : pushBeat port q p b (usePort port q false s) = (.taken, t)) :
    ∃ portals fm,
      let u : State := { t with
        portals := portals, sump := { t.sump with result := tabSet 0 t.sump.result port 0, fmQueues := fm } }
      sumpPush port q (.given p b) s = u ∧ BurstsOnly s u ∧ tabGet 0 u.sump.result port = 0 ∧ RegsKept sumpRegisters s u ∧
        besideFlags { u with sump := s.sump, portals := s.portals } = besideFlags s := by
  have hport : portPush port q p b s = (.taken, t.withSump fun u => { u with result := tabSet 0 u.result port 0 }) := by
    rw [portPush_eq, h]
    rfl
  have hstep := portPush_step (s := s) port q p b
  rw [hport] at hstep
  obtain ⟨portals, fm, hpush, hbursts⟩ := sumpPush_of_taken b hruns htakes hfits hport
  have hresult : tabGet 0 (tabSet 0 t.sump.result port 0) port = 0 := by rw [tabGet_tabSet, if_pos rfl]
  exact ⟨portals, fm, hpush, hbursts, hresult, hstep.regs,
    (congrArg (fun v : State => { v with portals := s.portals }) hstep.beside :)⟩

theorem sumpPush_of_offer (hport : port < 2) {x : SOffer}
    (hx : s.sump.offers.find? (fun x => x.port = port ∧ x.queue = q) = some x) {r : PushAnswer × State}
    (h : portPush port q x.producer x.beat s = r) :
    (r.1 ≠ .taken → sumpPush port q .held s = r.2) ∧
    (r.1 = .taken → ∃ resv, sumpPush port q .held s = r.2.withSump fun u => { u with offers := u.offers.erase x, resv := resv }) := by
  obtain ⟨a, t⟩ := r
  simp only [sumpPush, hruns, htakes, hport, hx, Bool.and_self, if_true, h]
  refine ⟨fun ha => if_neg ha, fun ha => ?_⟩
  rw [if_pos ha]
  split
  · split
    · exact ⟨_, rfl⟩
    · exact ⟨t.sump.resv, rfl⟩
  · exact ⟨t.sump.resv, rfl⟩

/-- A waiting beat leaves its port when it is taken, and stays when it is refused. -/
theorem sumpPush_offer (hport : port < 2) {x : SOffer}
    (hx : s.sump.offers.find? (fun x => x.port = port ∧ x.queue = q) = some x) :
    let t := sumpPush port q .held s
    (tabGet 0 t.sump.result port = 0 → t.sump.offers = s.sump.offers.erase x) ∧
      (tabGet 0 t.sump.result port ≠ 0 → t.sump.offers = s.sump.offers) ∧
      (pushBeat port q x.producer x.beat (usePort port q false s)).1.code = tabGet 0 t.sump.result port ∧
      (∀ r, r ≠ q → (t.queue r).stream = (s.queue r).stream ∧ (t.queue r).held = (s.queue r).held) ∧
      RegsKept sumpRegisters s t ∧ besideFlags { t with sump := s.sump } = besideFlags s := by
  have hcode : (portPush port q x.producer x.beat s).1 = (pushBeat port q x.producer x.beat (usePort port q false s)).1 := rfl
  have hresult := portPush_result (s := s) port q x.producer x.beat
  have hstep := portPush_step (s := s) port q x.producer x.beat
  obtain ⟨hrefused, htaken⟩ := sumpPush_of_offer hruns htakes hport hx rfl
  rw [← hcode]
  generalize portPush port q x.producer x.beat s = r at *
  by_cases ha : r.1 = .taken
  · obtain ⟨resv, ht⟩ := htaken ha
    rw [ht]
    have hzero : tabGet 0 r.2.sump.result port = 0 := hresult.trans (code_eq_zero.2 ha)
    exact ⟨fun _ => congrArg (List.erase · x) hstep.offers, fun h => absurd hzero h, hresult.symm, hstep.others, hstep.regs, hstep.beside⟩
  · rw [hrefused ha]
    have hzero : tabGet 0 r.2.sump.result port ≠ 0 := fun h0 => ha (code_eq_zero.1 (hresult.symm.trans h0))
    exact ⟨fun h => absurd h hzero, fun _ => hstep.offers, hresult.symm, hstep.others, hstep.regs, hstep.beside⟩

end

theorem sumpPush_of_nothingHeld (hport : port < 2) (h : ∀ o ∈ s.sump.offers, o.port ≠ port ∨ o.queue ≠ q) :
    sumpPush port q .held s = s := by
  have hnone : s.sump.offers.find? (fun x => x.port = port ∧ x.queue = q) = none := by
    simpa [List.find?_eq_none, ← not_and_or] using h
  unfold sumpPush
  simp only [hport, hnone, if_true, ite_self]

theorem sumpPush_of_port3 (q : Nat) : sumpPush 3 q .held s = s := by
  simp [sumpPush]

/-- The push entry of the clock serves a portal that is on, bound to the queue and not paused. -/
def State.entryServed (s : State) (q : Nat) : Prop :=
  let e := s.port2Now
  let p := spPortal (bitsOf 0 7 e) 1
  bitAt 15 e = true ∧ bitAt 14 e = true ∧ bitAt 13 e = false ∧ portalEn s.cfg p = true ∧ portalBind s.cfg p = q ∧ (s.portal p).paused = none

/-- The producer that the push entry of the clock names. -/
def State.entryProducer (s : State) : Producer :=
  .portal (Fin.ofNat 16 (bitsOf 0 7 s.port2Now / 8)) (Fin.ofNat 54 (32 + bitsOf 0 7 s.port2Now % 8))

/-- The end of a burst at a portal that is not paused: a pause that waits for it applies. -/
theorem burstOver_portal {p : Nat} (h : (s.portal p).paused = none) :
    (∀ n, n ≠ p → (burstOver p s).portal n = s.portal n) ∧ ((burstOver p s).portal p).burst = 0 ∧
      ((burstOver p s).portal p).pausing = none ∧ ((burstOver p s).portal p).paused = (s.portal p).pausing ∧
      ((burstOver p s).portal p).queue = (s.portal p).queue := by
  have hend : (burstOver p s).portal p = { s.portal p with burst := 0, pausing := none, paused := (s.portal p).pausing } := by
    rw [burstOver_of_running s h, State.modPortal_portal, if_pos rfl]
  rw [hend]
  exact ⟨(burstOver_step s p).others, rfl, rfl, rfl, rfl⟩

/-- The portal that the push entry of the clock names. -/
def State.entryPortal (s : State) : Nat := spPortal (bitsOf 0 7 s.port2Now) 1

theorem entryServed_iff : (bitAt 15 s.port2Now && bitAt 14 s.port2Now && !(bitAt 13 s.port2Now) && portalEn s.cfg s.entryPortal &&
    portalBind s.cfg s.entryPortal = q && (s.portal s.entryPortal).paused.isNone) = true ↔ s.entryServed q := by
  simp only [State.entryServed, Bool.and_eq_true, Bool.not_eq_true', decide_eq_true_eq, Option.isNone_iff_eq_none, and_assoc]
  rfl

theorem sumpPush_of_unserved (h : ¬ s.entryServed q) : sumpPush 2 q .held s = s := by
  have h := mt entryServed_iff.1 h
  unfold State.entryPortal at h
  simp only [sumpPush, h, Nat.lt_irrefl, Bool.false_eq_true, if_false, ite_self]

section

variable (hruns : s.blocksRun = true) (htakes : s.portTakes 2 q false = true) (h : s.entryServed q)
include hruns htakes h

/-- An entry with nothing to move ends the burst. -/
theorem sumpPush_of_emptyEntry (hbeats : (s.portal s.entryPortal).beats = []) :
    sumpPush 2 q .held s = burstOver s.entryPortal s := by
  have h := entryServed_iff.2 h
  unfold State.entryPortal at *
  simp only [sumpPush, hruns, htakes, h, hbeats, Nat.lt_irrefl, Bool.and_self, if_false, if_true]

theorem sumpPush_of_entryBeat {b : SumpBeat} {n : Nat} {rest : List (SumpBeat × Nat)}
    (hbeats : (s.portal s.entryPortal).beats = (b, n) :: rest) : sumpPush 2 q .held s =
      let r := portPush 2 q s.entryProducer b s
      if r.1 = .taken then
        pushedBurst s.entryPortal q s.entryProducer b s (r.2.modPortal s.entryPortal fun v => { v with beats := rest })
      else r.2 := by
  have h := entryServed_iff.2 h
  unfold State.entryPortal at *
  simp only [sumpPush, hruns, htakes, h, hbeats, Nat.lt_irrefl, Bool.and_self, if_false, if_true]
  rfl

/-- What the beat of a portal's entry does to the portal, and what it leaves alone. -/
structure EntryPush (p q : Nat) (pr : Producer) (b : SumpBeat) (rest : List (SumpBeat × Nat)) (s t : State) : Prop where
  code : (pushBeat 2 q pr b (usePort 2 q false s)).1.code = tabGet 0 t.sump.result 2
  beats : (t.portal p).beats = if tabGet 0 t.sump.result 2 = 0 then rest else (s.portal p).beats
  burst : b.eop = true → tabGet 0 t.sump.result 2 = 0 → (t.portal p).burst = 0
  queue : (t.portal p).queue = (s.portal p).queue
  others : ∀ n, n ≠ p → t.portal n = s.portal n
  regs : RegsKept sumpRegisters s t
  beside : besideFlags { t with sump := s.sump, portals := s.portals } = besideFlags s

theorem sumpPush_entryPush {b : SumpBeat} {n : Nat} {rest : List (SumpBeat × Nat)}
    (hbeats : (s.portal s.entryPortal).beats = (b, n) :: rest) :
    EntryPush s.entryPortal q s.entryProducer b rest s (sumpPush 2 q .held s) := by
  have hcode : (portPush 2 q s.entryProducer b s).1 = (pushBeat 2 q s.entryProducer b (usePort 2 q false s)).1 := rfl
  have hresult := portPush_result (s := s) 2 q s.entryProducer b
  have hstep := portPush_step (s := s) 2 q s.entryProducer b
  have hportal (k : Nat) : (portPush 2 q s.entryProducer b s).2.portal k = s.portal k := by rw [State.portal, hstep.portals, State.portal]
  rw [sumpPush_of_entryBeat hruns htakes h hbeats]
  generalize portPush 2 q s.entryProducer b s = r at *
  have hbeside := congrArg (fun v : State => { v with portals := s.portals }) hstep.beside
  by_cases ha : r.1 = .taken
  · have hzero := code_eq_zero.2 ha
    let u := r.2.modPortal s.entryPortal fun v => { v with beats := rest }
    have hu (k : Nat) : u.portal k = if s.entryPortal = k then { s.portal k with beats := rest } else s.portal k := by
      rw [State.modPortal_portal]
      split
      · next hk => rw [hportal, hk]
      · exact hportal k
    have hburst : BurstStep s.entryPortal u (pushedBurst s.entryPortal q s.entryProducer b s u) := countBurst_step ..
    have hplace := hburst.place
    have hends (heop : b.eop = true) : ((pushedBurst s.entryPortal q s.entryProducer b s u).portal s.entryPortal).burst = 0 := by
      rw [pushedBurst, heop]
      exact countBurst_eop ..
    simp only [if_pos ha]
    change EntryPush s.entryPortal q s.entryProducer b rest s (pushedBurst s.entryPortal q s.entryProducer b s u)
    generalize pushedBurst s.entryPortal q s.entryProducer b s u = v at *
    have hsump : v.sump = r.2.sump := (congrArg State.sump hburst.frame :)
    refine ⟨?_, ?_, fun heop _ => hends heop, ?_, fun k hk => ?_, .same hstep.regs (congrArg State.regs hburst.frame :), ?_⟩
    · rw [hsump, hresult, hcode]
    · rw [hsump, hresult, if_pos hzero, hplace, hu, if_pos rfl]
    · rw [hplace, hu, if_pos rfl]
    · rw [hburst.others k hk, hu, if_neg hk.symm]
    · exact (congrArg (fun w : State => besideFlags { w with sump := s.sump, portals := s.portals }) hburst.frame :).trans hbeside
  · have hzero := mt code_eq_zero.1 ha
    simp only [if_neg ha]
    refine ⟨?_, ?_, ?_, ?_, fun k _ => hportal k, hstep.regs, hbeside⟩
    · rw [← hcode, hresult]
    · rw [hresult, if_neg hzero, hportal]
    · rw [hresult]
      exact fun _ h0 => absurd h0 hzero
    · rw [hportal]

end

end

end Sys2Proof.Machine
end

section
/-! SUPPORT. A packet of one beat with ERR set. -/

namespace Sys2Proof.Machine

/-- Queue 0 is on and in packet mode, and port 0 may push to it; the Sump holds nothing. -/
def packetQueue : State :=
  { State.reset with
    power := { State.reset.power with mode := .run, held := false }
    conf := { State.reset.conf with started := true }
    cfg := [(cfgKey 43 0 0 0, 3), (cfgKey 43 0 0 1, 1)] }

/-- A beat that begins and ends its packet with ERR set and BAD clear. -/
def errBeat : SumpBeat := { data := 0, tag := 0x6400 }

theorem packetQueue_ready : packetQueue.blocksRun = true ∧ packetQueue.portTakes 0 0 false = true ∧
    packetQueue.producerFits 0 0 (.client 0 0) = true ∧ packetQueue.resvOf (.client 0 0) 0 = none ∧ qEn packetQueue.cfg 0 = true ∧
    qMayPush packetQueue.cfg 0 0 = true ∧ qQuota packetQueue.cfg 0 = 0 ∧ packetQueue.freeCells ≠ 0 ∧ qPkt packetQueue.cfg 0 = true ∧
    packetQueue.freeDescs ≠ 0 ∧ packetQueue.inProgress 0 (.client 0 0) = none := by
  refine ⟨?_, ?_, ?_, ?_, ?_, ?_, ?_, ?_, ?_, ?_, ?_⟩ <;> decide +kernel

/-- ERR is not among the tag bits that a cell stores. -/
theorem errBeat_stored : errBeat.err = true ∧ errBeat.stored.err = false ∧ errBeat.stored.bad = false ∧
    errBeat.stored.sop = true ∧ errBeat.stored.eop = true := by
  decide +kernel

/-- The packet of one beat with ERR set is rewound (R182): no packet of the queue stays open. -/
theorem sumpPush_errBeat : ((sumpPush 0 0 (.given (.client 0 0) errBeat) packetQueue).queue 0).opens = [] := by
  decide +kernel

end Sys2Proof.Machine
end

section
/-! The statement about pushes. What is true of it stands before the refutation: refusals, beats that are taken, with ERR asked of the
beat as it was offered, and whose beat a port takes. -/

open Sys2Proof Sys2Proof.Machine

/-- O27's first part: a refused beat is answered by the first check that fails (`pushCheck_refused`), and not taken. -/
theorem sumpPush_refused (port : Fin 4) (q : Fin 2048) (p : Producer) (b : SumpBeat) (s : State) :
    let sop := qPkt s.cfg q.val && b.stored.sop
    let full := (qQuota s.cfg q.val ≠ 0 ∧ qQuota s.cfg q.val ≤ s.quotaCells q.val) ∨ s.freeCells = 0
    s.blocksRun = true → s.portTakes port.val q.val false = true → s.producerFits port.val q.val p = true →
    s.resvOf p q.val = none → (qPkt s.cfg q.val = false ∨ b.stored.sop = true) →
    (qEn s.cfg q.val = false ∨ qMayPush s.cfg q.val port.val = false ∨ (sop = true ∧ s.freeDescs = 0) ∨ full) →
    ∃ t, exec (.sumpPush port q (.given p b)) s = .next t ∧
      tabGet 0 t.sump.result port.val =
        (if qEn s.cfg q.val = false then 1 else if qMayPush s.cfg q.val port.val = false then 2
         else if sop = true ∧ s.freeDescs = 0 then 3 else 4) ∧
      (tabGet 0 t.sump.result port.val = 3 → CountedOne .sumpCntNodesc 0 s t) ∧
      (tabGet 0 t.sump.result port.val = 4 → CountedOne .sumpCntFull 0 s t) ∧
      (tabGet 0 t.sump.result port.val ≤ 2 → t.regs = s.regs) ∧
      t.sump = { s.sump with result := t.sump.result, moved := t.sump.moved } ∧
      RegsKept [RegKind.sumpEvt.addr 0, RegKind.sumpCntNodesc.addr 0, RegKind.sumpCntFull.addr 0, RegKind.sumpOvf.addr 0] s t ∧
      besideFlags { t with sump := s.sump } = besideFlags s := by
  intro sop full hruns htakes hfits hresv hmode hfails
  have hcheck : Refused (s.refusalCode port.val q.val sop) (usePort port.val q.val false s)
      (pushBeat port.val q.val p b (usePort port.val q.val false s)) :=
    pushBeat_refuses (s := usePort port.val q.val false s) b hresv hmode hfails
  have hport := portPush_eq (s := s) port.val q.val p b
  have hresult := portPush_result (s := s) port.val q.val p b
  have hstep := portPush_step (s := s) port.val q.val p b
  refine ⟨(portPush port.val q.val p b s).2, ?_⟩
  rw [exec_sumpPush, sumpPush_of_refused b hruns htakes hfits (by rw [hport]; exact hcheck.answer), hresult]
  rw [hport] at hstep ⊢
  generalize pushBeat port.val q.val p b (usePort port.val q.val false s) = r at *
  refine ⟨rfl, hcheck.code, hcheck.noDesc, hcheck.full, fun h => ?_, ?_, hcheck.regs, hstep.beside⟩
  · exact (congrArg State.regs (hcheck.uncounted h) :)
  · exact (congrArg (fun v : Sump => { v with result := tabSet 0 r.2.sump.result port.val r.1.code, moved := r.2.sump.moved })
      hcheck.counted.sump :)

/-- O27's second part, with ERR asked of the beat as it was offered: what a taken beat does (`pushBeat_streamed`, `pushBeat_packet`), and
whose producer is noted (`sumpPush_of_taken`). -/
theorem sumpPush_accepted (port : Fin 4) (q : Fin 2048) (p : Producer) (b : SumpBeat) (s : State) :
    s.blocksRun = true → s.portTakes port.val q.val false = true → s.producerFits port.val q.val p = true →
    s.resvOf p q.val = none → qEn s.cfg q.val = true → qMayPush s.cfg q.val port.val = true →
    (qQuota s.cfg q.val = 0 ∨ s.quotaCells q.val < qQuota s.cfg q.val) → s.freeCells ≠ 0 →
    (qPkt s.cfg q.val = false → ∃ c t, exec (.sumpPush port q (.given p b)) s = .next t ∧
      tabGet 0 t.sump.result port.val = 0 ∧ TookCell port.val q.val c b.stored none true s t ∧
      (t.queue q.val).stream = (s.queue q.val).stream ++ [c] ∧
      (t.queue q.val).bytesIn = min ((s.queue q.val).bytesIn + b.stored.bytes) (2 ^ 64 - 1) ∧
      OtherQueues q.val s t ∧ t.sump.descs = s.sump.descs ∧ RegsKept sumpRegisters s t ∧
      besideFlags { t with sump := s.sump, portals := s.portals } = besideFlags s ∧ BurstsOnly s t) ∧
    (qPkt s.cfg q.val = true → b.stored.sop = true → s.freeDescs ≠ 0 → s.inProgress q.val p = none →
      ∃ c d t, exec (.sumpPush port q (.given p b)) s = .next t ∧
        tabGet 0 t.sump.result port.val = 0 ∧
        (s.sump.freshDesc < 16384 → d = s.sump.freshDesc) ∧ (16384 ≤ s.sump.freshDesc → s.sump.freeDescs = d :: t.sump.freeDescs) ∧
        TookCell port.val q.val c b.stored (some d) b.stored.eop s t ∧
        (b.stored.eop = false → (t.queue q.val).opens = (s.queue q.val).opens ++ [d] ∧ (p, d) ∈ (t.queue q.val).prog ∧
          (t.desc d).cells = [c] ∧ (t.desc d).used = true ∧ (t.desc d).len = 128) ∧
        (b.stored.eop = true → b.stored.bad = false → b.err = false →
          (t.queue q.val).opens = (s.queue q.val).opens ++ [d] ∧ (∀ e, (e, d) ∉ (t.queue q.val).prog) ∧ (t.desc d).cells = [c] ∧
          (t.queue q.val).pktsIn = min ((s.queue q.val).pktsIn + 1) (2 ^ 64 - 1)) ∧
        (b.stored.eop = true → b.stored.bad = true ∨ b.err = true →
          CountedOne .sumpCntRewind 0 s t ∧ d ∉ (t.queue q.val).opens ∧ c ∈ t.sump.gone ∧ d ∈ t.sump.goneDescs) ∧
        OtherQueues q.val s t ∧ RegsKept sumpRegisters s t ∧ besideFlags { t with sump := s.sump, portals := s.portals } = besideFlags s ∧
        BurstsOnly s t) := by
  intro hruns htakes hfits hresv hen hmay hquota hcells
  have hopen {sop : Bool} (hdesc : sop = true → s.freeDescs ≠ 0) :
      ¬ (usePort port.val q.val false s).refuses port.val q.val sop := not_refuses hen hmay hdesc hquota hcells
  refine ⟨fun hpkt => ?_, fun hpkt hsop hdescs hprog => ?_⟩
  · obtain ⟨c, t, hpush, hdone⟩ := pushBeat_streamed (s := usePort port.val q.val false s) b hresv hpkt (hopen nofun)
    obtain ⟨portals, fm, hexec, hbursts, hresult, hregs, hbeside⟩ := sumpPush_of_pushed b hruns htakes hfits hpush
    obtain ⟨htook, hstream, hbytes, hothers, hdescs⟩ := hdone
    exact ⟨c, _, congrArg Host.Outcome.next hexec, hresult, htook, hstream, hbytes, hothers, hdescs, hregs, hbeside, hbursts⟩
  · obtain ⟨c, d, t, hpush, hfresh, hfreed, hdone⟩ :=
      pushBeat_packet (s := usePort port.val q.val false s) b hresv hpkt hsop (hopen fun _ => hdescs) hprog
    obtain ⟨portals, fm, hexec, hbursts, hresult, hregs, hbeside⟩ := sumpPush_of_pushed b hruns htakes hfits hpush
    obtain ⟨htook, hbegun, hended, hrewound, hothers⟩ := hdone
    exact ⟨c, d, _, congrArg Host.Outcome.next hexec, hresult, hfresh, hfreed, htook, hbegun, hended, hrewound, hothers, hregs, hbeside,
      hbursts⟩

/-- O27's third part: whose beat a port takes (`sumpPush_offer`, `sumpPush_entryPush`). -/
theorem sumpPush_offered (port : Fin 4) (q : Fin 2048) (s : State) :
    (∀ o, s.blocksRun = false ∨ s.portTakes port.val q.val false = false → exec (.sumpPush port q o) s = .next s) ∧
    (∀ p b, s.producerFits port.val q.val p = false → exec (.sumpPush port q (.given p b)) s = .next s) ∧
    (port.val < 2 → (∀ o ∈ s.sump.offers, o.port ≠ port.val ∨ o.queue ≠ q.val) →
      exec (.sumpPush port q .held) s = .next s) ∧
    (∀ x, s.blocksRun = true → s.portTakes port.val q.val false = true → port.val < 2 →
      s.sump.offers.find? (fun x => x.port = port.val ∧ x.queue = q.val) = some x →
      ∃ t, exec (.sumpPush port q .held) s = .next t ∧
        (tabGet 0 t.sump.result port.val = 0 → t.sump.offers = s.sump.offers.erase x) ∧
        (tabGet 0 t.sump.result port.val ≠ 0 → t.sump.offers = s.sump.offers) ∧
        (pushBeat port.val q.val x.producer x.beat (usePort port.val q.val false s)).1.code = tabGet 0 t.sump.result port.val ∧
        (∀ r, r ≠ q.val → (t.queue r).stream = (s.queue r).stream ∧ (t.queue r).held = (s.queue r).held) ∧
        RegsKept sumpRegisters s t ∧ besideFlags { t with sump := s.sump } = besideFlags s) ∧
    (port.val = 3 → exec (.sumpPush port q .held) s = .next s) ∧
    (s.blocksRun = true → s.portTakes port.val q.val false = true → port.val = 2 →
      let e := s.port2Now
      let k := bitsOf 0 7 e
      let p := spPortal k 1
      let pr : Producer := .portal (Fin.ofNat 16 (k / 8)) (Fin.ofNat 54 (32 + k % 8))
      let serves := bitAt 15 e = true ∧ bitAt 14 e = true ∧ bitAt 13 e = false ∧ portalEn s.cfg p = true ∧ portalBind s.cfg p = q.val ∧
        (s.portal p).paused = none
      (¬ serves → exec (.sumpPush port q .held) s = .next s) ∧
      (serves → ∃ t, exec (.sumpPush port q .held) s = .next t ∧
        (∀ n, n ≠ p → t.portal n = s.portal n) ∧
        ((s.portal p).beats = [] → t.sump = s.sump ∧ (t.portal p).burst = 0 ∧ (t.portal p).pausing = none ∧
          (t.portal p).paused = (s.portal p).pausing) ∧
        (∀ b n rest, (s.portal p).beats = (b, n) :: rest →
          (pushBeat 2 q.val pr b (usePort 2 q.val false s)).1.code = tabGet 0 t.sump.result 2 ∧
          (t.portal p).beats = (if tabGet 0 t.sump.result 2 = 0 then rest else (s.portal p).beats) ∧
          (b.eop = true → tabGet 0 t.sump.result 2 = 0 → (t.portal p).burst = 0)) ∧
        (t.portal p).queue = (s.portal p).queue ∧
        RegsKept sumpRegisters s t ∧ besideFlags { t with sump := s.sump, portals := s.portals } = besideFlags s)) := by
  refine ⟨fun o h => ?_, fun p b h => ?_, fun hport h => ?_, fun x hruns htakes hport hx => ?_, fun h3 => ?_,
    fun hruns htakes h2 => ?_⟩
  · rw [exec_sumpPush, sumpPush_of_busy o h]
  · rw [exec_sumpPush, sumpPush_of_unfit b h]
  · rw [exec_sumpPush, sumpPush_of_nothingHeld hport h]
  · exact ⟨_, exec_sumpPush .., sumpPush_offer hruns htakes hport hx⟩
  · rw [exec_sumpPush, h3, sumpPush_of_port3]
  · rw [h2] at htakes
    rw [exec_sumpPush, h2]
    intro e k p pr serves
    refine ⟨fun h => congrArg Host.Outcome.next (sumpPush_of_unserved h), fun h => ⟨_, rfl, ?_⟩⟩
    obtain ⟨-, -, -, -, -, hrunning⟩ := id h
    cases hbeats : (s.portal p).beats with
    | nil =>
      rw [sumpPush_of_emptyEntry hruns htakes h hbeats]
      obtain ⟨hothers, hburst, hpausing, hpaused, hqueue⟩ := burstOver_portal hrunning
      exact ⟨hothers, fun _ => ⟨rfl, hburst, hpausing, hpaused⟩, fun _ _ _ hb => absurd hb.symm (List.cons_ne_nil _ _), hqueue,
        .same (.refl s _) rfl, rfl⟩
    | cons x rest =>
      obtain ⟨b, n⟩ := x
      have hdone : EntryPush p q.val pr b rest s (sumpPush 2 q.val .held s) := sumpPush_entryPush hruns htakes h hbeats
      refine ⟨hdone.others, nofun, fun b' n' rest' hb => ?_, hdone.queue, hdone.regs, hdone.beside⟩
      obtain ⟨⟨rfl, rfl⟩, rfl⟩ : ((b = b') ∧ (n = n')) ∧ rest = rest' := by simpa using hb
      exact ⟨hdone.code, hbeats ▸ hdone.beats, hdone.burst⟩

/-- Refutes O27: whether an ended packet was sent with ERR is asked there of the beat as stored, and what a cell stores of a tag leaves ERR
out (`errBeat_stored`). A packet of one beat with ERR set and BAD clear therefore counts as good in the statement, which has it stay open,
while it is rewound as R182 says (`sumpPush_errBeat`). -/
theorem not_sumpPush : ¬ Obligations.SumpPush := by
  unfold Obligations.SumpPush
  rintro ⟨-, haccepted, -⟩
  obtain ⟨hrun, htakes, hfits, hresv, hen, hmay, hquota, hcells, hpkt, hdescs, hprog⟩ := packetQueue_ready
  obtain ⟨-, herr, hbad, hsop, heop⟩ := errBeat_stored
  obtain ⟨-, hpacket⟩ := haccepted 0 0 (.client 0 0) errBeat packetQueue hrun htakes hfits hresv hen hmay (.inl hquota) hcells
  obtain ⟨c, d, t, hexec, -, -, -, -, -, hgood, -⟩ := hpacket hpkt hsop hdescs hprog
  obtain ⟨hopens, -⟩ := hgood heop hbad herr
  obtain rfl : sumpPush 0 0 (.given (.client 0 0) errBeat) packetQueue = t := by injection hexec
  have hlost : [] = (packetQueue.queue 0).opens ++ [d] := sumpPush_errBeat.symm.trans hopens
  simp at hlost

end

section
/-! SUPPORT. The registers of the crossings between clock domains (09_portals R216): the overflow flags and the counters, and the pending
bits that raises and flags leave set (19_events_counters R459). -/

namespace Sys2Proof

open Sys2Proof.Machine

/-- What counts none may come first. -/
theorem CountedOne.of_kept {s t u : State} {l : List Nat} {k : RegKind} {i : Nat} (h : CountedOne k i t u) (hkept : RegsKept l s t)
    (hl : k.addr i ∉ l) (he : eventRegister (k.addr i) = false) : CountedOne k i s u := by
  rw [CountedOne, ← hkept.reg hl he]
  exact h

/-- What counts none may follow. -/
theorem CountedOne.then_kept {s t u : State} {l : List Nat} {k : RegKind} {i : Nat} (h : CountedOne k i s t) (hkept : RegsKept l t u)
    (hl : k.addr i ∉ l) (he : eventRegister (k.addr i) = false) : CountedOne k i s u := by
  rw [CountedOne, hkept.reg hl he]
  exact h

end Sys2Proof

namespace Sys2Proof.Machine

variable (s : State)

/-! ### Pending events -/

/-- No bit of `EVT_PEND` that is 1 in `s` is 0 in `t`. -/
def PendingKept (s t : State) : Prop := ∀ i b, i < 12 → s.bit .evtPend i b = true → t.bit .evtPend i b = true

theorem PendingKept.of_reg {s t : State} (h : ∀ i, i < 12 → t.reg .evtPend i = s.reg .evtPend i) : PendingKept s t := fun i b hi hb => by
  rw [State.bit, h i hi]
  exact hb

theorem PendingKept.refl : PendingKept s s := fun _ _ _ hb => hb

theorem PendingKept.trans {s t u : State} (h : PendingKept s t) (h' : PendingKept t u) : PendingKept s u :=
  fun i b hi hb => h' i b hi (h i b hi hb)

theorem PendingKept.ite {s a b : State} {c : Prop} [Decidable c] (ha : PendingKept s a) (hb : PendingKept s b) :
    PendingKept s (if c then a else b) := by
  split <;> assumption

/-- A write of a register beside `EVT_PEND`. -/
theorem setReg_pendingKept {k : RegKind} {i : Nat} (h : ∀ j, j < 12 → k.addr i ≠ RegKind.evtPend.addr j) (v : Word) :
    PendingKept s (s.setReg k i v) := .of_reg fun j hj => State.setReg_reg_ne s v (h j hj)

theorem raiseOnce_pendingKept (n : Nat) : PendingKept s (raiseOnce n s) := fun i b hi hb => by
  rw [State.bit, raiseOnce_evtPend s n hi]
  split
  · rw [BitVec.getLsbD_or]
    exact Bool.or_eq_true_iff.2 (.inl hb)
  · exact hb

theorem raiseEvent_pendingKept (n : Nat) : PendingKept s (raiseEvent n s) :=
  .ite ((raiseOnce_pendingKept s n).trans (raiseOnce_pendingKept _ 19)) (raiseOnce_pendingKept s n)

theorem raiseAll_pendingKept (ns : List Nat) : PendingKept s (raiseAll ns s) := by
  unfold raiseAll
  induction ns generalizing s with
  | nil => exact .refl s
  | cons n ns ih => exact (raiseEvent_pendingKept s n).trans (ih _)

theorem setFlags_pendingKept {k : RegKind} {i : Nat} (h : ∀ j, j < 12 → k.addr i ≠ RegKind.evtPend.addr j) (en : RegKind)
    (how : Raising) (bits : Word) : PendingKept s (setFlags k en i how bits s) := by
  have hset : PendingKept s (s.setBits k i bits) := setReg_pendingKept s h _
  unfold setFlags
  cases how with
  | perBit first => exact hset.trans (raiseAll_pendingKept _ _)
  | perReg ev => exact .ite hset (hset.trans (raiseEvent_pendingKept _ ev))
  | crossing cls ev => exact .ite hset (hset.trans (.of_reg fun _ _ => rfl))

/-- Only the registers of `EVT_PEND` itself lie among their twelve addresses. -/
theorem ne_evtPend_addr {a : Nat} (h : a < 0x20000 ∨ 0x20030 ≤ a) (j : Nat) (hj : j < 12) : a ≠ RegKind.evtPend.addr j := by
  change a ≠ 0x20000 + j * 4
  omega

theorem evtOverflow_pendingKept (b : Nat) : PendingKept s (evtOverflow b s) := by
  have hset : PendingKept s (setEvtOvf s b) := setReg_pendingKept s (ne_evtPend_addr (.inr (by decide))) _
  exact .ite hset (hset.trans (raiseEvent_pendingKept _ 19))

theorem countStat_pendingKept {k : RegKind} {i : Nat} (h : ∀ j, j < 12 → k.addr i ≠ RegKind.evtPend.addr j) {report : State → State}
    (hr : ∀ t, PendingKept t (report t)) : PendingKept s (countStat k i report s) := by
  have hset : PendingKept s (s.setCount k i 1 (s.reg k i + 1)) := setReg_pendingKept s h _
  exact .ite (.refl s) (.ite (hset.trans (hr _)) hset)

/-- An entry of the fault log takes no pending bit away. -/
theorem logFault_pendingKept (code inst : Nat) : PendingKept s (logFault code inst s) := by
  have hscrub (b : Nat) (t : State) : PendingKept t (flagScrub b t) :=
    setFlags_pendingKept t (ne_evtPend_addr (.inr (by decide))) _ _ _
  unfold logFault
  extract_lets e full held u v
  have hv : PendingKept s v := .trans (.of_reg fun _ _ => rfl) (hscrub 7 u)
  refine .ite ((hv.trans (hscrub 8 v)).trans ?_) hv
  exact countStat_pendingKept _ (ne_evtPend_addr (.inr (by decide))) fun t => evtOverflow_pendingKept t 1

/-! ### Overflow flags and counters -/

/-- A statistics counter counts one, and saturates (19_events_counters R467). -/
theorem countStat_countedOne {k : RegKind} {i : Nat} {report : State → State} (hr : ∀ t, (report t).reg k i = t.reg k i) :
    CountedOne k i s (countStat k i report s) := by
  unfold CountedOne
  by_cases hfull : s.reg k i = 0xFFFFFFFF
  · rw [countStat_full s hfull, hfull]
    rfl
  · rw [countStat_self s hfull hr]
    have : s.reg k i ≠ BitVec.allOnes 32 := hfull
    bv_omega

@[simp] theorem flagXc_besideFlags (b : Nat) : besideFlags (flagXc b s) = besideFlags s := by
  unfold flagXc
  dsimp only
  split <;> simp

/-- After the bit is written, `XC_OVR` raises alone. -/
theorem flagXc_after (b : Nat) (l : List Nat) : RegsKept l (s.setBits .xcOvr 0 (bitWord b)) (flagXc b s) :=
  .ite _ (.refl _ l) (raiseEvent_kept _ l (by decide))

theorem flagXc_kept (b : Nat) : RegsKept [RegKind.xcOvr.addr 0] s (flagXc b s) := (setBits_kept s _ _ _).trans (flagXc_after s b _)

theorem flagXc_reg (b : Nat) : (flagXc b s).reg .xcOvr 0 = s.reg .xcOvr 0 ||| bitWord b :=
  ((flagXc_after s b []).reg (by simp) (by decide)).trans (State.setBits_reg s ..)

section

variable {k : RegKind} (hk : k = .xcLost ∨ k = .xcFail) (b : Nat)
include hk

/-- The counters of the crossings lie beside `XC_OVR`, the event controller and the fault log. -/
theorem xcCounter_addr : k.addr 0 ≠ RegKind.xcOvr.addr 0 ∧ eventRegister (k.addr 0) = false ∧
    k.addr 0 ∉ [RegKind.scrubEvt.addr 0, RegKind.flogLostCnt.addr 0] := by
  rcases hk with rfl | rfl <;> decide

theorem countXc_countedOne : CountedOne k 0 s (countStat k 0 (flagXc b) s) := by
  obtain ⟨hovr, hevent, -⟩ := xcCounter_addr hk
  exact countStat_countedOne s fun t => (flagXc_kept t b).reg (by simpa using hovr) hevent

omit hk in
/-- A counter of the crossings writes itself, and where it saturates its bit in `XC_OVR`. -/
theorem countXc_kept : RegsKept [k.addr 0, RegKind.xcOvr.addr 0] s (countStat k 0 (flagXc b) s) :=
  countStat_kept s (by simp) fun t => (flagXc_kept t b).mono fun a ha => .inl (by simp_all)

omit hk in
@[simp] theorem countXc_besideFlags : besideFlags (countStat k 0 (flagXc b) s) = besideFlags s :=
  countStat_besideFlags s fun t => flagXc_besideFlags t b

/-- Counting takes no bit of `XC_OVR` away. -/
theorem countXc_ovr {c : Nat} (h : s.bit .xcOvr 0 c = true) : (countStat k 0 (flagXc b) s).bit .xcOvr 0 c = true := by
  obtain ⟨hovr, -⟩ := xcCounter_addr hk
  have hset (v : Word) : (s.setCount k 0 1 v).bit .xcOvr 0 c = true := by
    rw [State.bit, (setCount_kept s k 0 1 v).reg (by simpa using hovr.symm) (by decide)]
    exact h
  unfold countStat
  dsimp only
  split
  · exact h
  · split
    · rw [State.bit, flagXc_reg, BitVec.getLsbD_or]
      exact Bool.or_eq_true_iff.2 (.inl (hset _))
    · exact hset _

end

end Sys2Proof.Machine
end

section
/-! SUPPORT. Events and multi-bit values that cross between clock domains (09_portals R214, R215): the cases of each command. -/

namespace Sys2Proof.Machine

/-! ### The commands -/

section

variable (s : State)

theorem exec_eventCrossingArrival (cls : Fin 5) (code : Fin 384) :
    exec (.eventCrossingArrival cls code) s = .next (eventArrival cls.val code.val s) := rfl

theorem exec_eventCrossingDelivery (cls : Fin 5) (code : Fin 384) :
    exec (.eventCrossingDelivery cls code) s = .next (eventDelivery cls.val code.val s) := rfl

theorem exec_multibitValueLoad (x : Fin 1024) (v : BitVec 64) : exec (.multibitValueLoad x v) s = .next (multiLoad x.val v s) := rfl

theorem exec_multibitValueAccept (x : Fin 1024) (a b : BitVec 64) :
    exec (.multibitValueAccept x a b) s = .next (multiAccept x.val a b s) := rfl

end

/-! ### Events (09_portals R215) -/

section

variable {s : State} {cls code : Nat}

/-- An event taken from those that its source offers. -/
def State.unoffer (s : State) (cls code : Nat) : State :=
  { s with crossings := { s.crossings with offered := s.crossings.offered.erase (cls, code) } }

/-- An event that has left its crossing. -/
def State.landed (s : State) (cls code : Nat) : State :=
  { s with crossings := { s.crossings with flight := s.crossings.flight.erase (cls, code) } }

/-- No event of the class was accepted in the last 3 destination clocks. -/
def State.placeFree (s : State) (cls : Nat) : Prop :=
  tabGet 0 s.crossings.accepted cls = 0 ∨ tabGet 0 s.crossings.accepted cls + 2 ≤ s.crossingClock cls

theorem eventArrival_of_free (hruns : s.sysRuns = true) (h : s.placeFree cls) : eventArrival cls code s =
    { s with crossings := { s.crossings with
        offered := s.crossings.offered.erase (cls, code)
        accepted := tabSet 0 s.crossings.accepted cls (s.crossingClock cls + 1)
        flight := s.crossings.flight ++ [(cls, code)] } } := (if_pos hruns).trans (if_pos h)

theorem eventArrival_of_occupied (hruns : s.sysRuns = true) (h : ¬ s.placeFree cls) :
    eventArrival cls code s = countXcLost (flagXc cls (s.unoffer cls code)) := (if_pos hruns).trans (if_neg h)

/-- A lost event sets its class's bit in `XC_OVR`, counts one in `XC_LOST`, and does nothing else. -/
theorem eventArrival_lost (hruns : s.sysRuns = true) (h : ¬ s.placeFree cls) (hcls : cls < 32) :
    let t := eventArrival cls code s
    t.bit .xcOvr 0 cls = true ∧ CountedOne .xcLost 0 s t ∧ RegsKept [RegKind.xcOvr.addr 0, RegKind.xcLost.addr 0] s t ∧
      besideFlags t = besideFlags s := by
  have hflagged : RegsKept [RegKind.xcOvr.addr 0] s (flagXc cls (s.unoffer cls code)) := flagXc_kept (s.unoffer cls code) cls
  have hbit : (flagXc cls (s.unoffer cls code)).bit .xcOvr 0 cls = true := by
    rw [State.bit, flagXc_reg, BitVec.getLsbD_or, bitWord_self hcls, Bool.or_true]
  rw [eventArrival_of_occupied hruns h]
  refine ⟨countXc_ovr _ (.inl rfl) 8 hbit, ?_, ?_, ?_⟩
  · exact (countXc_countedOne _ (.inl rfl) 8).of_kept hflagged (by decide) (by decide)
  · exact (hflagged.mono fun a ha => .inl (by simp_all)).trans ((countXc_kept _ 8).mono fun a ha => .inl (by simp_all [or_comm]))
  · exact (countXc_besideFlags _ 8).trans (flagXc_besideFlags _ cls)

theorem eventDelivery_of_absent (h : (cls, code) ∉ s.crossings.flight) : eventDelivery cls code s = s :=
  if_neg fun hin => h (List.contains_iff_mem.1 hin.2)

theorem eventDelivery_of_flight (hruns : s.sysRuns = true) (h : (cls, code) ∈ s.crossings.flight) :
    eventDelivery cls code s = if cls ≤ 2 then raiseEvent code (s.landed cls code) else s.landed cls code :=
  if_pos ⟨hruns, List.contains_iff_mem.2 h⟩

/-- A delivery changes flags at most beside the crossing that the event leaves. -/
theorem eventDelivery_frame (hruns : s.sysRuns = true) (h : (cls, code) ∈ s.crossings.flight) (hcode : code < 384) :
    besideFlags (eventDelivery cls code s) = besideFlags (s.landed cls code) ∧ RegsKept [] s (eventDelivery cls code s) := by
  rw [eventDelivery_of_flight hruns h]
  split
  · exact ⟨raiseEvent_besideFlags _ code, raiseEvent_kept (s.landed cls code) [] hcode⟩
  · exact ⟨rfl, .refl s []⟩

end

/-! ### Multi-bit values (09_portals R214) -/

section

variable {s : State} {x : Nat}

/-- A crossing as its source's newer value has settled in this clock. -/
def State.settled (s : State) (x : Nat) : MultiBit := multiSettle s.clocks.sys (s.multi x)

theorem multiLoad_of_spaced (hruns : s.sysRuns = true)
    (h : (s.settled x).loadedAt = 0 ∨ (s.settled x).loadedAt + 3 ≤ s.clocks.sys) (v : BitVec 64) : multiLoad x v s =
    s.setMulti x { s.settled x with held := v, waiting := true, misses := 0, loadedAt := s.clocks.sys + 1, next := none } :=
  (if_pos hruns).trans (if_pos h)

theorem multiLoad_of_early (hruns : s.sysRuns = true)
    (h : ¬ ((s.settled x).loadedAt = 0 ∨ (s.settled x).loadedAt + 3 ≤ s.clocks.sys)) (v : BitVec 64) : multiLoad x v s =
    s.setMulti x { s.settled x with next := some v } := (if_pos hruns).trans (if_neg h)

theorem multiAccept_of_empty (h : (s.settled x).waiting = false) (a b : BitVec 64) : multiAccept x a b s = s :=
  if_neg fun hw => by simp [State.settled] at h; simp [h] at hw

variable (hruns : s.sysRuns = true) (hw : (s.settled x).waiting = true) {a b : BitVec 64}
include hruns hw

theorem multiAccept_of_agreed (h : a = b) : multiAccept x a b s =
    s.setMulti x { s.settled x with waiting := false, misses := 0, seen := (s.settled x).held } := (if_pos ⟨hruns, hw⟩).trans (if_pos h)

variable (hab : a ≠ b)
include hab

theorem multiAccept_of_retry (h : (s.settled x).misses < 2) : multiAccept x a b s =
    s.setMulti x { s.settled x with misses := (s.settled x).misses + 1 } :=
  (if_pos ⟨hruns, hw⟩).trans ((if_neg hab).trans (if_neg (Nat.not_le.2 h)))

theorem multiAccept_of_failed (h : 2 ≤ (s.settled x).misses) : multiAccept x a b s =
    logFault 0x0B x (raiseEvent 14 (countXcFail (s.setMulti x { s.settled x with waiting := false, misses := 0 }))) :=
  (if_pos ⟨hruns, hw⟩).trans ((if_neg hab).trans (if_pos h))

omit hruns hw hab in
theorem setMulti_multi (v : MultiBit) (y : Nat) : (s.setMulti x v).multi y = if x = y then v else s.multi y := tabGet_tabSet ..

/-- The value of a third pair that disagrees is given up: the destination keeps its old one, the failure counts, is raised and enters the
fault log. -/
theorem multiAccept_failed (h : 2 ≤ (s.settled x).misses) :
    let t := multiAccept x a b s
    (∀ y, t.multi y = if x = y then { s.settled x with waiting := false, misses := 0 } else s.multi y) ∧
      t.flog = s.flog.after 0x0B x s.clocks.stamp ∧ CountedOne .xcFail 0 s t ∧ t.bit .evtPend 0 14 = true ∧
      RegsKept [RegKind.xcFail.addr 0, RegKind.xcOvr.addr 0, RegKind.scrubEvt.addr 0, RegKind.flogLostCnt.addr 0] s t ∧
      besideFlags { t with crossings := { t.crossings with multi := s.crossings.multi }, flog := s.flog } = besideFlags s := by
  rw [multiAccept_of_failed hruns hw hab h]
  let u := s.setMulti x { s.settled x with waiting := false, misses := 0 }
  have hcount : RegsKept [RegKind.xcFail.addr 0, RegKind.xcOvr.addr 0] s (countXcFail u) := countXc_kept u 9
  have hraise : RegsKept [] (countXcFail u) (raiseEvent 14 (countXcFail u)) := raiseEvent_kept _ [] (by decide)
  have hlog := logFault_kept (raiseEvent 14 (countXcFail u)) 0x0B x
  have hone : CountedOne .xcFail 0 s (countXcFail u) := countXc_countedOne u (.inr rfl) 9
  have hbeside : besideFlags (logFault 0x0B x (raiseEvent 14 (countXcFail u))) = besideFlags (u.withFault 0x0B x) :=
    (logFault_besideFlags _ 0x0B x).trans (congrArg (fun v : State => besideFlags (v.withFault 0x0B x))
      ((raiseEvent_besideFlags _ 14).trans (countXc_besideFlags u 9)) :)
  have hmulti : (logFault 0x0B x (raiseEvent 14 (countXcFail u))).crossings.multi = u.crossings.multi :=
    (congrArg (fun v : State => v.crossings.multi) hbeside :)
  refine ⟨fun y => ?_, (congrArg State.flog hbeside :), ?_, ?_, ?_, ?_⟩
  · rw [State.multi, hmulti]
    exact setMulti_multi _ y
  · exact (hone.then_kept hraise (by decide) (by decide)).then_kept hlog (by decide) (by decide)
  · exact logFault_pendingKept _ 0x0B x 0 14 (by decide) (raiseEvent_pending _ (n := 14) (by decide))
  · refine ((hcount.mono fun c hc => .inl ?_).trans (hraise.mono fun c hc => nomatch hc)).trans (hlog.mono fun c hc => .inl ?_) <;>
      simp only [List.mem_cons, List.not_mem_nil, or_false] at hc ⊢ <;> tauto
  · exact (congrArg (fun v : State => { v with crossings := { v.crossings with multi := s.crossings.multi }, flog := s.flog }) hbeside :)

end

/-! ### A value that fails under a fault log past its bound -/

/-- SYS runs, crossing 0 waits with two pairs that have disagreed, and the fault log holds 65 empty entries. -/
def overlongCrossing : State :=
  { State.reset with
    power := { State.reset.power with mode := .run, held := false }
    crossings := { State.reset.crossings with multi := [(0, { waiting := true, misses := 2 })] }
    flog := { State.reset.flog with entries := List.replicate 65 (0, 0) } }

theorem overlongCrossing_waits : overlongCrossing.sysRuns = true ∧ (overlongCrossing.settled 0).waiting = true ∧
    2 ≤ (overlongCrossing.settled 0).misses := by
  decide +kernel

end Sys2Proof.Machine
end

section
/-! The statements about events and multi-bit values that cross between clock domains. As for cells and latches, what is true of the
second stands before the refutation: the failure of a value places its entry among the 64 of the fault log (18_self_test_faults R454)
only from a log that is within its bound. -/

open Sys2Proof Sys2Proof.Machine

/-- Settles O34: an arrival finds the place of its class free or occupied (`State.placeFree`), and a loss is what `eventArrival_lost` says; a
delivery takes an event in flight out of its crossing and at most raises it (`eventDelivery_frame`). -/
theorem eventCrossing : Obligations.EventCrossing := by
  unfold Obligations.EventCrossing
  intro cls code s hruns last now
  simp only [exec_eventCrossingArrival, exec_eventCrossingDelivery]
  refine ⟨fun h => ⟨_, congrArg _ (eventArrival_of_free hruns h), rfl, ?_, fun k hk => ?_, rfl, rfl⟩, fun hne hlt => ?_, fun h => ?_,
    fun h => ?_⟩
  · simp [now]
  · simp [hk.symm]
  · have hfull : ¬ s.placeFree cls.val := by
      rintro (h | h)
      · exact hne h
      · exact absurd hlt (Nat.not_lt.2 h)
    obtain ⟨hovr, hlost, hregs, hbeside⟩ := eventArrival_lost (code := code.val) hruns hfull (by omega)
    exact ⟨_, rfl, (congrArg (fun u : State => u.crossings.flight) hbeside :), hovr, hlost, hregs, hbeside⟩
  · rw [eventDelivery_of_absent h]
  · obtain ⟨hbeside, hregs⟩ := eventDelivery_frame hruns h code.isLt
    refine ⟨_, rfl, (congrArg (fun u : State => u.crossings.flight) hbeside :), fun hcls => ?_, fun hcls => ?_, hregs,
      (congrArg (fun u : State => { u with crossings := { u.crossings with flight := s.crossings.flight } }) hbeside :)⟩
    · rw [eventDelivery_of_flight hruns h, if_pos hcls]
      exact raiseEvent_pending _ code.isLt
    · rw [eventDelivery_of_flight hruns h, if_neg (by omega)]
      rfl

/-- O33 with the logs within their bounds where a value fails: the cases of a load are those of `multiLoad_of_spaced` and
`multiLoad_of_early`, and a third pair that disagrees is `multiAccept_failed`. -/
theorem multibitCrossing_of_logsBounded (x : Fin 1024) (v a b : BitVec 64) (s : State) (hruns : s.sysRuns = true) :
    let m := s.settled x.val
    ((m.loadedAt = 0 ∨ m.loadedAt + 3 ≤ s.clocks.sys) →
      exec (.multibitValueLoad x v) s =
        .next (s.setMulti x.val { m with held := v, waiting := true, misses := 0, loadedAt := s.clocks.sys + 1, next := none })) ∧
    (m.loadedAt ≠ 0 → s.clocks.sys < m.loadedAt + 3 → exec (.multibitValueLoad x v) s = .next (s.setMulti x.val { m with next := some v })) ∧
    (m.waiting = false → exec (.multibitValueAccept x a b) s = .next s) ∧
    (m.waiting = true → a = b →
      exec (.multibitValueAccept x a b) s = .next (s.setMulti x.val { m with waiting := false, misses := 0, seen := m.held })) ∧
    (m.waiting = true → a ≠ b → m.misses < 2 →
      exec (.multibitValueAccept x a b) s = .next (s.setMulti x.val { m with misses := m.misses + 1 })) ∧
    (m.waiting = true → a ≠ b → 2 ≤ m.misses →
      ∃ t, exec (.multibitValueAccept x a b) s = .next t ∧ (t.multi x.val).seen = m.seen ∧ (t.multi x.val).waiting = false ∧
        (∀ y, y ≠ x.val → t.multi y = s.multi y) ∧ CountedOne .xcFail 0 s t ∧ t.bit .evtPend 0 14 = true ∧
        (LogsBounded s → Logged (word (0x0B000000 + x.val)) s t) ∧
        RegsKept [RegKind.xcFail.addr 0, RegKind.xcOvr.addr 0, RegKind.scrubEvt.addr 0, RegKind.flogLostCnt.addr 0] s t ∧
        besideFlags { t with crossings := { t.crossings with multi := s.crossings.multi }, flog := s.flog } = besideFlags s) := by
  intro m
  simp only [exec_multibitValueLoad, exec_multibitValueAccept]
  refine ⟨fun h => congrArg _ (multiLoad_of_spaced hruns h v), fun hne hlt => congrArg _ (multiLoad_of_early hruns ?_ v),
    fun h => congrArg _ (multiAccept_of_empty h a b), fun hw h => congrArg _ (multiAccept_of_agreed hruns hw h),
    fun hw hab h => congrArg _ (multiAccept_of_retry hruns hw hab h), fun hw hab h => ?_⟩
  · rintro (h | h)
    · exact hne h
    · exact absurd hlt (Nat.not_lt.2 h)
  · obtain ⟨hread, hflog, hcount, hpending, hregs, hbeside⟩ := multiAccept_failed hruns hw hab h
    have hword : word (0x0B000000 + x.val) = word (place 24 8 0x0B + place 0 24 x.val) := by
      rw [place, place, Nat.shiftLeft_zero, Nat.mod_eq_of_lt (b := 2 ^ 24) (by omega)]
      rfl
    refine ⟨_, rfl, ?_, ?_, fun y hy => ?_, hcount, hpending, fun hlogs => ?_, hregs, hbeside⟩
    · rw [hread, if_pos rfl]
    · rw [hread, if_pos rfl]
    · rw [hread, if_neg hy.symm]
    · rw [hword]
      exact logged_of_after hlogs.1 hflog

/-- Refutes O33: with a fault log of 65 entries, the entry of a third pair that disagrees stands past the 64. -/
theorem not_multibitCrossing : ¬ Obligations.MultibitCrossing := by
  unfold Obligations.MultibitCrossing
  intro h
  obtain ⟨hruns, hwaits, hmisses⟩ := overlongCrossing_waits
  obtain ⟨-, -, -, -, -, hfails⟩ := h 0 0 0 1 overlongCrossing hruns
  obtain ⟨t, ht, -, -, -, -, -, hlogged, -⟩ := hfails hwaits (by decide) hmisses
  obtain ⟨-, hflog, -⟩ := multiAccept_failed (x := 0) (a := 0) (b := 1) hruns hwaits (by decide) hmisses
  obtain rfl : multiAccept 0 0 1 overlongCrossing = t := by injection ht
  exact not_logged_of_overlong rfl hflog (by decide) hlogged

end

section
/-! SUPPORT. Words delivered by the portals (09_portals R198, R202, R207, R211): the cases of a delivery. -/

namespace Sys2Proof.Machine

section

variable (s : State)

theorem exec_portalEnqueue (p : PortalId) : exec (.portalEnqueue p) s = .next (portalEnqueue (portalNo p) s) := rfl

theorem exec_portalDeliver (p : PortalId) : exec (.portalDeliver p) s = .next (portalDeliver (portalNo p) s) := rfl

/-- A portal is in use, and its island is out of reset (09_portals R210). -/
def State.portalOpen (p : Nat) : Prop := portalEn s.cfg p = true ∧ s.islandUp p = true

/-- An OUT portal whose words are gathered into beats for the Sump (09_portals R200, R203). -/
def gathersBeats (p : Nat) : Prop := 192 ≤ p ∧ 32 ≤ (p - 192) % 108 / 2 ∧ (p - 192) % 108 / 2 < 40

/-- The next word of an OUT portal may cross to its island: its frame has begun, or may begin (09_portals R207). -/
def State.wordMayCross (p : Nat) : Prop :=
  let v := s.portal p
  let f := frameWords (v.queue.drop v.ready)
  v.ready < v.queue.length ∧ (v.begun = true ∨ (if p < 192 then portalTxstart s.cfg p else 0) ≤ f.1 ∨ f.2 = true)

/-- The next word of an OUT portal has crossed to its island. -/
def State.wordCrossed (p : Nat) : State :=
  s.modPortal p fun v =>
    { v with ready := v.ready + 1, begun := !(match v.queue[v.ready]? with | some w => bitAt 0 w.2 | none => false) }

/-- The oldest word of an IN portal is offered to the fabric. -/
def State.wordOffered (p d tag : Nat) (rest : List (Nat × Nat)) : State :=
  (s.modPortal p fun v => { v with queue := rest, rst := false }).setAttIn (attPortal p)
    { val := d + 2 ^ portalWidth s.cfg p * (tag % 2 ^ 15 + 2 ^ 15 * bitNat (s.portal p).rst), ph := .offering }

end

section

variable {s : State} {p d tag : Nat} {rest : List (Nat × Nat)}

theorem portalDeliver_of_shut (h : ¬ s.portalOpen p) : portalDeliver p s = s := if_neg fun ho => h (by simpa [State.portalOpen] using ho)

variable (hopen : s.portalOpen p)
include hopen

/-- An IN portal offers its oldest word once the last has been transferred. -/
theorem portalDeliver_in (hdir : p % 2 = 0) (hq : (s.portal p).queue = (d, tag) :: rest) : portalDeliver p s =
    if s.fabricUp p = true ∧ (s.attIn (attPortal p)).ph = .idle then s.wordOffered p d tag rest else s := by
  obtain ⟨hen, hup⟩ := hopen
  simp only [portalDeliver, hen, hup, Bool.and_self, if_true, hdir, hq, Bool.and_eq_true, decide_eq_true_eq]
  rfl

/-- A Sump push portal takes its oldest word into the beat that is gathered, unless a beat waits or a pause applies. -/
theorem portalDeliver_gathers (hdir : p % 2 = 1) (hpush : gathersBeats p) (hq : (s.portal p).queue = (d, tag) :: rest) :
    portalDeliver p s = if (s.portal p).beats = [] ∧ (s.portal p).paused = none then
      gatherToken p d tag (s.modPortal p fun v => { v with queue := rest }) else s := by
  obtain ⟨hen, hup⟩ := hopen
  rw [gathersBeats] at hpush
  simp only [portalDeliver, hen, hup, Bool.and_self, if_true, hdir, Nat.one_ne_zero, if_false, if_pos hpush, hq]
  cases (s.portal p).beats <;> cases (s.portal p).paused <;> simp

variable (hdir : p % 2 = 1) (hpush : ¬ gathersBeats p)
include hdir hpush

/-- Any other OUT portal passes its next word once that may cross. -/
theorem portalDeliver_of_word (h : s.wordMayCross p) : portalDeliver p s = s.wordCrossed p := by
  obtain ⟨hen, hup⟩ := hopen
  obtain ⟨hready, hbegins⟩ := h
  rw [gathersBeats] at hpush
  simp only [portalDeliver, hen, hup, Bool.and_self, if_true, hdir, Nat.one_ne_zero, if_false, if_neg hpush, hready]
  refine (if_pos (by simpa [or_assoc] using hbegins)).trans (s.modPortal_congr ?_)
  cases (s.portal p).queue[(s.portal p).ready]? <;> rfl

theorem portalDeliver_of_noWord (h : ¬ s.wordMayCross p) : portalDeliver p s = s := by
  obtain ⟨hen, hup⟩ := hopen
  rw [gathersBeats] at hpush
  simp only [portalDeliver, hen, hup, Bool.and_self, if_true, hdir, Nat.one_ne_zero, if_false, if_neg hpush]
  split
  · next hready => exact if_neg fun hbegins => h ⟨hready, by simpa [or_assoc] using hbegins⟩
  · rfl

omit hopen hdir hpush in
theorem portalDeliver_of_empty (h : (s.portal p).queue = []) : portalDeliver p s = s := by
  simp only [portalDeliver, h, List.length_nil, Nat.not_lt_zero, if_false, ite_self]

omit hopen hdir hpush in
theorem wordOffered_attIn (a : Nat) : (s.wordOffered p d tag rest).attIn a = if attPortal p = a then
    { val := d + 2 ^ portalWidth s.cfg p * (tag % 2 ^ 15 + 2 ^ 15 * bitNat (s.portal p).rst), ph := .offering } else s.attIn a :=
  tabGet_tabSet ..

omit hopen hdir hpush in
theorem wordOffered_portal (q : Nat) : (s.wordOffered p d tag rest).portal q =
    if p = q then { s.portal p with queue := rest, rst := false } else s.portal q :=
  s.modPortal_portal p q fun v => { v with queue := rest, rst := false }

end

end Sys2Proof.Machine
end

section
/-! The statements about portals. -/

open Sys2Proof Sys2Proof.Machine

/-- Settles O31: a delivery does nothing at a portal that is off or empty; at an IN portal it is `portalDeliver_in`, at a Sump push portal
`portalDeliver_gathers`, and at any other OUT portal it turns on `State.wordMayCross`. -/
theorem portalDeliver : Obligations.PortalDeliver := by
  unfold Obligations.PortalDeliver
  intro id s p v open' push f goes
  simp only [exec_portalDeliver]
  refine ⟨fun h => congrArg _ ?_, fun d tag rest hopen hdir hq => ⟨fun hup hidle => ?_, fun h => congrArg _ ?_⟩,
    fun d tag rest hopen hdir hpush hq => congrArg _ (portalDeliver_gathers hopen hdir hpush hq),
    fun hopen hdir hpush hgoes => congrArg _ (portalDeliver_of_word hopen hdir hpush hgoes),
    fun hopen hdir hpush hgoes => congrArg _ (portalDeliver_of_noWord hopen hdir hpush hgoes)⟩
  · exact h.elim portalDeliver_of_shut portalDeliver_of_empty
  · refine ⟨_, congrArg _ ((portalDeliver_in hopen hdir hq).trans (if_pos ⟨hup, hidle⟩)), ?_, ?_, ⟨rfl, rfl, rfl, fun b hb => ⟨?_, rfl⟩⟩, rfl,
      fun q hne => ?_, rfl⟩
    · exact (wordOffered_portal p).trans (if_pos rfl)
    · exact (wordOffered_attIn _).trans (if_pos rfl)
    · exact (wordOffered_attIn b).trans (if_neg hb.symm)
    · exact (wordOffered_portal q).trans (if_neg hne.symm)
  · refine (portalDeliver_in hopen hdir hq).trans (if_neg ?_)
    rintro ⟨hup, hidle⟩
    exact h.elim (by simp [hup]) fun hn => hn hidle

end

section
/-! SUPPORT. Words enqueued at the portals (09_portals R197): tokens of the fabric, words of an island, and what a lane has received
(12_lane_link R284, R286, R287, R300). -/

namespace Sys2Proof.Machine

/-! ### The gates -/

/-- What holds between each value of a table and its image, and between the value of an unlisted key and itself, holds key by key. -/
theorem tabGet_map_rel {α : Type} {d : α} {g : Nat × α → Nat × α} {R : α → α → Prop} (hkey : ∀ e, (g e).1 = e.1)
    (hg : ∀ e, R e.2 (g e).2) (hd : R d d) (t : Tab α) (k : Nat) : R (tabGet d t k) (tabGet d (t.map g) k) := by
  induction t with
  | nil => exact hd
  | cons e t ih =>
    rw [List.map_cons, tabGet_cons, tabGet_cons, hkey]
    split
    · exact hg e
    · exact ih

section

variable (s : State)

/-- What the gates let move on is in the tokens that pass them, and in the outputs that wait for outside consumers (01_architecture R21). -/
theorem gateProgress_cav (c : Nat) : (gateProgress s).cav c =
    { s.cav c with pass := ((gateProgress s).cav c).pass, owed := ((gateProgress s).cav c).owed } := by
  refine tabGet_map_rel (d := ({} : Cavern)) (R := fun v w => w = { v with pass := w.pass, owed := w.owed }) ?_ ?_ ?_ s.cavs c
  · exact fun _ => rfl
  · exact fun _ => rfl
  · rfl

/-- A word joins a portal's queue. -/
def State.enqueued (p : Nat) (w : Nat × Nat) : State := s.modPortal p fun v => { v with queue := v.queue ++ [w] }

/-- A portal that is in use, its island not held, has room for a word. -/
def State.portalRoom (p : Nat) : Prop :=
  portalEn s.cfg p = true ∧ s.islandUp p = true ∧ (s.portal p).queue.length < portalDepth s.cfg p

/-- A token of the fabric taken: its acknowledge rises, and it joins the queue as a word of data and tag. -/
def State.tokenTaken (p tok : Nat) : State :=
  (s.setAttAck (attPortal p) true).enqueued p (tok % 2 ^ portalWidth s.cfg p, tok / 2 ^ portalWidth s.cfg p % 2 ^ 15)

/-- The blocks left in a lane's receive buffer. -/
def State.bufLeft (n : Nat) (buf : List RxBlk) : State := s.modRx n fun r => { r with buf := buf }

/-- The link's oldest token leaves its receive buffer, and is due to be acknowledged (12_lane_link R300). -/
def State.tokensLeft (n : Nat) (tokens : List (Nat × Nat)) : State :=
  showAdit n (s.modAdit n fun a => { a with rxTokens := tokens, ackDue := true })

/-- The lane runs the raw service (12_lane_link R287). -/
def State.isRaw (n : Nat) : Bool := decide (lnProto s.cfg n = 1)

/-- The lane's IN portal carries two blocks a word (12_lane_link R284). -/
def State.isWide (n : Nat) : Bool := decide (portalWidth s.cfg (lanePortal n 0) = 128)

end

/-- The tag of a word that carries one block (12_lane_link R284, R287). -/
def blockTag (raw wide : Bool) (a : RxBlk) : Nat :=
  bitNat (!raw && a.isTerm) + 2 * bitNat wide + 4 * bitNat (!raw && a.ctrl) + 16 * bitNat a.gap + 32 * bitNat (!raw && a.err)

/-- The tag of a word that carries two blocks of a stream (12_lane_link R284). -/
def pairTag (a b : RxBlk) : Nat :=
  bitNat b.isTerm + 4 * bitNat a.ctrl + 8 * bitNat b.ctrl + 16 * bitNat a.gap + 32 * bitNat a.err + 64 * bitNat b.err

/-! ### The next word of a lane (12_lane_link R284, R286, R287, R300) -/

section

variable {s : State} {n : Nat}

theorem laneWord_of_tokens (h : s.isAdit n = true) {w : Nat × Nat} {rest : List (Nat × Nat)} (ht : (s.lane n).adit.rxTokens = w :: rest) :
    laneWord n s = some (w, s.tokensLeft n rest) := by
  simp only [laneWord, h, if_true, ht]
  rfl

theorem laneWord_of_noTokens (h : s.isAdit n = true) (ht : (s.lane n).adit.rxTokens = []) : laneWord n s = none := by
  simp only [laneWord, h, if_true, ht]

variable (h : s.isAdit n = false)
include h

theorem laneWord_of_noBlocks (hbuf : (s.lane n).rx.buf = []) : laneWord n s = none := by
  simp only [laneWord, h, Bool.false_eq_true, if_false, hbuf]

variable {a : RxBlk} {rest : List RxBlk}

/-- A word carries one block where the portal is narrow, the service raw, the block ends its frame, or blocks are missing after it. -/
theorem laneWord_of_single (hbuf : (s.lane n).rx.buf = a :: rest)
    (hone : s.isWide n = false ∨ s.isRaw n = true ∨ a.isTerm = true ∨ ∃ b others, rest = b :: others ∧ b.gap = true) :
    laneWord n s = some ((a.payload, blockTag (s.isRaw n) (s.isWide n) a), s.bufLeft n rest) := by
  cases rest with
  | nil =>
    simp only [laneWord, h, Bool.false_eq_true, if_false, hbuf]
    refine if_pos ?_
    simpa [State.isWide, State.isRaw, or_assoc] using hone
  | cons b others =>
    simp only [laneWord, h, Bool.false_eq_true, if_false, hbuf]
    refine if_pos ?_
    simpa [State.isWide, State.isRaw, or_assoc] using hone

variable (hwide : s.isWide n = true) (hraw : s.isRaw n = false) (hterm : a.isTerm = false)
include hwide hraw hterm

theorem laneWord_of_waiting (hbuf : (s.lane n).rx.buf = [a]) : laneWord n s = none := by
  simp only [laneWord, h, Bool.false_eq_true, if_false, hbuf]
  rw [State.isWide] at hwide
  rw [State.isRaw] at hraw
  simp only [hwide, hraw, hterm, Bool.not_true, Bool.or_self, Bool.false_eq_true, if_false]

theorem laneWord_of_pair {b : RxBlk} {others : List RxBlk} (hbuf : (s.lane n).rx.buf = a :: b :: others) (hgap : b.gap = false) :
    laneWord n s = some ((a.payload + 2 ^ 64 * b.payload, pairTag a b), s.bufLeft n others) := by
  simp only [laneWord, h, Bool.false_eq_true, if_false, hbuf]
  rw [State.isWide] at hwide
  rw [State.isRaw] at hraw
  simp only [hwide, hraw, hterm, hgap, Bool.not_true, Bool.or_self, Bool.false_eq_true, if_false, Bool.not_false, Bool.true_and]
  refine congrArg (fun tag => some ((a.payload + 2 ^ 64 * b.payload, tag), s.bufLeft n others)) ?_
  have hfalse : bitNat false = 0 := rfl
  rw [pairTag, hfalse]
  omega

end

/-! ### The cases of an enqueue (09_portals R197) -/

section

variable {s : State} {p : Nat}

theorem portalEnqueue_of_closed (h : ¬ s.portalRoom p) : portalEnqueue p s = s :=
  if_neg fun ho => h (by simpa [State.portalRoom, and_assoc] using ho)

variable (hroom : s.portalRoom p)
include hroom

section

variable (hdir : p % 2 = 1)
include hdir

theorem portalEnqueue_of_noToken (h : s.power.retention = true ∨ s.outToken (attPortal p) = none) : portalEnqueue p s = s := by
  obtain ⟨hen, hup, hlen⟩ := hroom
  simp only [portalEnqueue, hen, hup, hlen, decide_true, Bool.and_self, if_true, hdir]
  rcases h with h | h <;> simp [h]

/-- The token that the fabric presents joins the queue of an OUT portal, and the gates move on. -/
theorem portalEnqueue_of_token (hawake : s.power.retention = false) {tok : Nat} (htok : s.outToken (attPortal p) = some tok) :
    portalEnqueue p s = gateProgress (s.tokenTaken p tok) := by
  obtain ⟨hen, hup, hlen⟩ := hroom
  simp only [portalEnqueue, hen, hup, hlen, decide_true, Bool.and_self, if_true, hdir, hawake, Bool.false_eq_true, if_false, htok]
  rfl

end

variable (hdir : p % 2 = 0)
include hdir

theorem portalEnqueue_of_word (hlane : p < 192) {w : Nat × Nat} {t : State} (h : laneWord (p / 2) s = some (w, t)) :
    portalEnqueue p s = t.enqueued p w := by
  obtain ⟨hen, hup, hlen⟩ := hroom
  simp only [portalEnqueue, hen, hup, hlen, decide_true, Bool.and_self, if_true, hdir, Nat.zero_ne_one, if_false, hlane, h]
  rfl

theorem portalEnqueue_of_noWord (hlane : p < 192) (h : laneWord (p / 2) s = none) : portalEnqueue p s = s := by
  obtain ⟨hen, hup, hlen⟩ := hroom
  simp only [portalEnqueue, hen, hup, hlen, decide_true, Bool.and_self, if_true, hdir, Nat.zero_ne_one, if_false, hlane, h]

theorem portalEnqueue_of_staged (hsite : 192 ≤ p) {w : Nat × Nat} {rest : List (Nat × Nat)} (h : (s.portal p).stage = w :: rest) :
    portalEnqueue p s = s.modPortal p fun v => { v with queue := v.queue ++ [w], stage := rest } := by
  obtain ⟨hen, hup, hlen⟩ := hroom
  simp only [portalEnqueue, hen, hup, hlen, decide_true, Bool.and_self, if_true, hdir, Nat.zero_ne_one, if_false, Nat.not_lt.2 hsite, h]

theorem portalEnqueue_of_unstaged (hsite : 192 ≤ p) (h : (s.portal p).stage = []) : portalEnqueue p s = s := by
  obtain ⟨hen, hup, hlen⟩ := hroom
  simp only [portalEnqueue, hen, hup, hlen, decide_true, Bool.and_self, if_true, hdir, Nat.zero_ne_one, if_false, Nat.not_lt.2 hsite, h]

end

/-! ### What an enqueue leaves -/

section

variable (s : State) (p : Nat)

theorem enqueued_portal (w : Nat × Nat) (q : Nat) : (s.enqueued p w).portal q =
    if p = q then { s.portal p with queue := (s.portal p).queue ++ [w] } else s.portal q :=
  s.modPortal_portal p q fun v => { v with queue := v.queue ++ [w] }

theorem modLane_lane (n m : Nat) (f : Lane → Lane) : (s.modLane n f).lane m = if n = m then f (s.lane n) else s.lane m := tabGet_tabMod ..

/-- The registers of a link show its counts (12_lane_link R306). -/
theorem showAdit_registers (n : Nat) : ∃ regs, showAdit n s = { s with regs := regs } ∧
    RegsKept [RegKind.lnAditSeq.addr n, RegKind.lnAditRx.addr n, RegKind.lnAditCred.addr n] s { s with regs := regs } := by
  have hset (u : State) (k : RegKind) (v : Word) (hk : k = .lnAditSeq ∨ k = .lnAditRx ∨ k = .lnAditCred) :
      RegsKept [RegKind.lnAditSeq.addr n, RegKind.lnAditRx.addr n, RegKind.lnAditCred.addr n] u (u.setReg k n v) :=
    (setReg_kept u k n v).mono fun b hb => .inl (by rcases hk with rfl | rfl | rfl <;> simp_all)
  exact ⟨_, rfl, ((hset _ _ _ (.inl rfl)).trans (hset _ _ _ (.inr (.inl rfl)))).trans (hset _ _ _ (.inr (.inr rfl)))⟩

variable {s p}

/-- The token taken from the fabric: its word ends the queue, its acknowledge is high, and beside these the gates alone have moved. -/
theorem tokenTaken_frame (tok : Nat) : let t := gateProgress (s.tokenTaken p tok)
    (∀ q, t.portal q = (s.tokenTaken p tok).portal q) ∧ tabGet false t.fabric.attAck (attPortal p) = true ∧
      OthersAttached (attPortal p) s t ∧
      (∀ c, t.cav c = { s.cav c with pass := (t.cav c).pass, owed := (t.cav c).owed }) ∧
      { t with portals := s.portals, fabric := s.fabric, cavs := s.cavs } = s := by
  have hack (b : Nat) : tabGet false (gateProgress (s.tokenTaken p tok)).fabric.attAck b =
      if attPortal p = b then true else tabGet false s.fabric.attAck b := tabGet_tabSet false s.fabric.attAck (attPortal p) b true
  exact ⟨fun _ => rfl, (hack _).trans (if_pos rfl), ⟨rfl, rfl, rfl, fun b hb => ⟨rfl, (hack b).trans (if_neg hb.symm)⟩⟩,
    gateProgress_cav (s.tokenTaken p tok), rfl⟩

/-- A word made of a lane's oldest blocks is taken: it ends the queue, and the blocks have left the receive buffer. -/
theorem portalEnqueue_of_blocks (hroom : s.portalRoom p) (hdir : p % 2 = 0) (hlane : p < 192) {w : Nat × Nat} {buf : List RxBlk}
    (h : laneWord (p / 2) s = some (w, s.bufLeft (p / 2) buf)) : ∃ t, portalEnqueue p s = t ∧
      t.portal p = { s.portal p with queue := (s.portal p).queue ++ [w] } ∧
      t.lane (p / 2) = { s.lane (p / 2) with rx := { (s.lane (p / 2)).rx with buf := buf } } ∧
      (∀ m, m ≠ p / 2 → t.lane m = s.lane m) ∧ (∀ q, q ≠ p → t.portal q = s.portal q) ∧
      { t with portals := s.portals, lanes := s.lanes } = s := by
  let left (l : Lane) : Lane := { l with rx := { l.rx with buf := buf } }
  refine ⟨_, portalEnqueue_of_word hroom hdir hlane h, ?_, ?_, fun m hm => ?_, fun q hq => ?_, rfl⟩
  · exact (enqueued_portal _ p w p).trans (if_pos rfl)
  · exact (modLane_lane s (p / 2) (p / 2) left).trans (if_pos rfl)
  · exact (modLane_lane s (p / 2) m left).trans (if_neg hm.symm)
  · exact (enqueued_portal _ p w q).trans (if_neg hq.symm)

/-- The oldest token of an ADIT lane is taken: it ends the queue, and its departure is due to be acknowledged. -/
theorem portalEnqueue_of_linkToken (hroom : s.portalRoom p) (hdir : p % 2 = 0) (hlane : p < 192) (hadit : s.isAdit (p / 2) = true)
    {w : Nat × Nat} {rest : List (Nat × Nat)} (hw : (s.lane (p / 2)).adit.rxTokens = w :: rest) : ∃ t, portalEnqueue p s = t ∧
      t.portal p = { s.portal p with queue := (s.portal p).queue ++ [w] } ∧
      t.lane (p / 2) = { s.lane (p / 2) with adit := { (s.lane (p / 2)).adit with rxTokens := rest, ackDue := true } } ∧
      (∀ m, m ≠ p / 2 → t.lane m = s.lane m) ∧ (∀ q, q ≠ p → t.portal q = s.portal q) ∧
      RegsKept [RegKind.lnAditSeq.addr (p / 2), RegKind.lnAditRx.addr (p / 2), RegKind.lnAditCred.addr (p / 2)] s t ∧
      { t with portals := s.portals, lanes := s.lanes, regs := s.regs } = s := by
  let u := s.modAdit (p / 2) fun a => { a with rxTokens := rest, ackDue := true }
  have hread (m : Nat) : u.lane m = if p / 2 = m then
      { s.lane (p / 2) with adit := { (s.lane (p / 2)).adit with rxTokens := rest, ackDue := true } } else s.lane m :=
    modLane_lane s (p / 2) m fun l => { l with adit := { l.adit with rxTokens := rest, ackDue := true } }
  obtain ⟨regs, hshown, hregs⟩ := showAdit_registers u (p / 2)
  have hword := portalEnqueue_of_word hroom hdir hlane (laneWord_of_tokens hadit hw)
  rw [State.tokensLeft, hshown] at hword
  rw [hword]
  refine ⟨_, rfl, ?_, ?_, fun m hm => ?_, fun q hq => ?_, ?_, rfl⟩
  · exact (enqueued_portal _ p w p).trans (if_pos rfl)
  · exact (hread (p / 2)).trans (if_pos rfl)
  · exact (hread m).trans (if_neg hm.symm)
  · exact (enqueued_portal _ p w q).trans (if_neg hq.symm)
  · exact hregs

end

end Sys2Proof.Machine
end

section
/-! The statement about enqueues. -/

open Sys2Proof Sys2Proof.Machine

/-- Settles O30: an OUT portal takes the token presented (`tokenTaken_frame`), the IN portal of a site the next word staged, and that of a lane
the link's oldest token or a word of one or two blocks, as `laneWord` makes it. -/
theorem portalEnqueue : Obligations.PortalEnqueue := by
  unfold Obligations.PortalEnqueue
  intro id s p v open'
  rw [exec_portalEnqueue]
  refine ⟨fun h => congrArg _ (portalEnqueue_of_closed h), fun hroom hdir h => congrArg _ (portalEnqueue_of_noToken hroom hdir h),
    fun tok hroom hdir hawake htok => ?_, fun w rest hroom hdir hsite hw => ?_,
    fun hroom hdir hsite h => congrArg _ (portalEnqueue_of_unstaged hroom hdir hsite h), fun w rest hroom hdir hlane hadit hw => ?_,
    fun hroom hdir hlane h => congrArg _ (portalEnqueue_of_noWord hroom hdir hlane ?_), fun a rest hroom hdir hlane hadit hbuf => ?_⟩
  · obtain ⟨hportal, hack, hatts, hcavs, hframe⟩ := tokenTaken_frame (s := s) (p := p) tok
    refine ⟨_, congrArg _ (portalEnqueue_of_token hroom hdir hawake htok), ?_, hack, hatts, rfl, fun q hq => ?_, hcavs, hframe⟩
    · exact (hportal p).trans ((enqueued_portal _ p _ p).trans (if_pos rfl))
    · exact (hportal q).trans ((enqueued_portal _ p _ q).trans (if_neg hq.symm))
  · refine ⟨_, congrArg _ (portalEnqueue_of_staged hroom hdir hsite hw), ?_, fun q hq => ?_, rfl⟩
    · rw [State.modPortal_portal, if_pos rfl]
    · rw [State.modPortal_portal, if_neg hq.symm]
  · obtain ⟨t, rfl, h⟩ := portalEnqueue_of_linkToken hroom hdir hlane hadit hw
    exact ⟨_, rfl, h⟩
  · split at h
    · next hadit => exact laneWord_of_noTokens hadit h
    · next hadit => exact laneWord_of_noBlocks (by simpa using hadit) h
  · have hportal : lanePortal (p / 2) 0 = p := by
      rw [lanePortal]
      omega
    have hwide : s.isWide (p / 2) = decide (portalWidth s.cfg p = 128) := by rw [State.isWide, hportal]
    intro raw wide takes alone
    have hsingle (hone : wide = false ∨ raw = true ∨ a.isTerm = true ∨ ∃ b others, rest = b :: others ∧ b.gap = true) : alone := by
      have hword := laneWord_of_single hadit hbuf (by rw [hwide]; exact hone)
      rw [hwide] at hword
      obtain ⟨t, rfl, h⟩ := portalEnqueue_of_blocks hroom hdir hlane hword
      exact ⟨_, rfl, h⟩
    refine ⟨fun hone => hsingle ?_, fun hw hraw hterm hrest => ?_, fun b others hw hraw hterm hrest => ⟨fun hgap => ?_, fun hgap => ?_⟩⟩
    · exact hone.imp_right fun h => h.imp_right .inl
    · exact congrArg _ (portalEnqueue_of_noWord hroom hdir hlane (laneWord_of_waiting hadit (hwide.trans hw) hraw hterm (hrest ▸ hbuf)))
    · exact hsingle (.inr (.inr (.inr ⟨b, others, hrest, hgap⟩)))
    · obtain ⟨t, rfl, h⟩ := portalEnqueue_of_blocks hroom hdir hlane
        (laneWord_of_pair hadit (hwide.trans hw) hraw hterm (hrest ▸ hbuf) hgap)
      exact ⟨_, rfl, h⟩

end

section
/-! SUPPORT. Crossings between clocked islands (09_portals R213): beats that enter a Crusher's input buffer, and beats that enter a lane's
transmitter (12_lane_link R285, R286, R288). -/

namespace Sys2Proof.Machine

theorem exec_islandCrossingTransfer (s : State) (x : CrossingId) : exec (.islandCrossingTransfer x) s = .next (crossingTransfer x s) := rfl

/-- Entries added to the list at a key. -/
theorem prefix_tabMod_append {α : Type} [DecidableEq α] (t : Tab (List α)) (n : Nat) (l : List α) :
    tabGet [] t n <+: tabGet [] (tabMod [] t n (· ++ l)) n := by
  rw [tabGet_tabMod, if_pos rfl]
  exact List.prefix_append ..

/-! ### Blocks passed to a Crusher (12_lane_link R286) -/

section

variable {s t u : State} {n : Nat}

/-- From `s` to `t` blocks of lane `n` have at most joined its crossing to its Crusher. -/
structure BlocksPassed (n : Nat) (s t : State) : Prop where
  beats : tabGet [] s.crossings.toCrusher n <+: tabGet [] t.crossings.toCrusher n
  others : ∀ m, m ≠ n → tabGet [] t.crossings.toCrusher m = tabGet [] s.crossings.toCrusher m ∧ t.lane m = s.lane m
  tx : (t.lane n).tx = (s.lane n).tx
  adit : (t.lane n).adit = (s.lane n).adit
  frame : { t with lanes := s.lanes, crossings := { t.crossings with toCrusher := s.crossings.toCrusher } } = s

theorem BlocksPassed.refl (n : Nat) (s : State) : BlocksPassed n s s := ⟨List.prefix_rfl, fun _ _ => ⟨rfl, rfl⟩, rfl, rfl, rfl⟩

theorem BlocksPassed.trans (h : BlocksPassed n s t) (h' : BlocksPassed n t u) : BlocksPassed n s u where
  beats := h.beats.trans h'.beats
  others m hm := ⟨(h'.others m hm).1.trans (h.others m hm).1, (h'.others m hm).2.trans (h.others m hm).2⟩
  tx := h'.tx.trans h.tx
  adit := h'.adit.trans h.adit
  frame := (congrArg (fun v : State => { v with
    lanes := s.lanes, crossings := { v.crossings with toCrusher := s.crossings.toCrusher } }) h'.frame :).trans h.frame

theorem modRx_lane (s : State) (n m : Nat) (f : LaneRx → LaneRx) :
    (s.modRx n f).lane m = if n = m then { s.lane n with rx := f (s.lane n).rx } else s.lane m :=
  modLane_lane s n m fun l => { l with rx := f l.rx }

theorem modRx_blocksPassed (s : State) (n : Nat) (f : LaneRx → LaneRx) : BlocksPassed n s (s.modRx n f) where
  beats := List.prefix_rfl
  others m hm := ⟨rfl, by rw [modRx_lane, if_neg hm.symm]⟩
  tx := by rw [modRx_lane, if_pos rfl]
  adit := by rw [modRx_lane, if_pos rfl]
  frame := rfl

/-- Beats join a lane's crossing to its Crusher. -/
def State.beatsToCrusher (s : State) (n : Nat) (bs : List CBeat) : State :=
  { s with crossings := { s.crossings with toCrusher := tabMod [] s.crossings.toCrusher n (· ++ bs) } }

theorem beatsToCrusher_blocksPassed (s : State) (n : Nat) (bs : List CBeat) : BlocksPassed n s (s.beatsToCrusher n bs) where
  beats := prefix_tabMod_append ..
  others m hm := ⟨by rw [State.beatsToCrusher, tabGet_tabMod, if_neg hm.symm], rfl⟩
  tx := rfl
  adit := rfl
  frame := rfl

theorem drainToCrusher_blocksPassed (n fuel : Nat) (s : State) : BlocksPassed n s (drainToCrusher n fuel s) := by
  induction fuel generalizing s with
  | zero => exact .refl n s
  | succ fuel ih =>
    rw [drainToCrusher]
    split
    · exact .refl n s
    · split
      · exact ((modRx_blocksPassed s n _).trans (beatsToCrusher_blocksPassed _ n _)).trans (ih _)
      · exact .refl n s

end

/-! ### Beats taken by a transmitter (12_lane_link R285, R288) -/

section

variable {s t u : State} {n : Nat}

/-- From `s` to `t` blocks have at most joined those that wait at lane `n`'s transmitter. -/
structure TransmitterFed (n : Nat) (s t : State) : Prop where
  out : (s.lane n).tx.out <+: (t.lane n).tx.out
  rx : (t.lane n).rx = (s.lane n).rx
  adit : (t.lane n).adit = (s.lane n).adit
  others : ∀ m, m ≠ n → t.lane m = s.lane m

theorem modTx_lane (s : State) (n m : Nat) (f : LaneTx → LaneTx) :
    (s.modTx n f).lane m = if n = m then { s.lane n with tx := f (s.lane n).tx } else s.lane m :=
  modLane_lane s n m fun l => { l with tx := f l.tx }

theorem modTx_fed {f : LaneTx → LaneTx} (h : (s.lane n).tx.out <+: (f (s.lane n).tx).out) : TransmitterFed n s (s.modTx n f) where
  out := by
    rw [modTx_lane, if_pos rfl]
    exact h
  rx := by rw [modTx_lane, if_pos rfl]
  adit := by rw [modTx_lane, if_pos rfl]
  others m hm := by rw [modTx_lane, if_neg hm.symm]

/-- A beat taken adds to the blocks that wait, and may use a free value for the bytes that it lacks. -/
theorem feedBeat_modTx (n : Nat) (bytes : List Byte) (sop fin bad : Bool) (s : State) : ∃ free f, (∀ t : LaneTx, t.out <+: (f t).out) ∧
    feedBeat n bytes sop fin bad s = { s with freeCtr := free }.modTx n f := by
  unfold feedBeat
  extract_lets t short
  split
  · refine ⟨s.freeCtr, _, fun _ => ?_, rfl⟩
    exact List.prefix_rfl
  · split
    · refine ⟨s.freeCtr, _, fun _ => ?_, rfl⟩
      exact List.prefix_append ..
    · refine ⟨if short then s.freeCtr + 1 else s.freeCtr, _, fun _ => ?_, by cases short <;> rfl⟩
      exact List.prefix_append ..

theorem feedBeat_fed (n : Nat) (bytes : List Byte) (sop fin bad : Bool) (s : State) :
    TransmitterFed n s (feedBeat n bytes sop fin bad s) ∧
      { feedBeat n bytes sop fin bad s with lanes := s.lanes, freeCtr := s.freeCtr } = s := by
  obtain ⟨free, f, hout, heq⟩ := feedBeat_modTx n bytes sop fin bad s
  rw [heq]
  obtain ⟨hblocks, hrx, hadit, hothers⟩ := modTx_fed (s := { s with freeCtr := free }) (n := n) (hout (s.lane n).tx)
  exact ⟨⟨hblocks, hrx, hadit, hothers⟩, rfl⟩

end

/-! ### Beats that end a halted client's packet -/

section

variable (n : Nat) (s : State)

theorem admitStop_of_none (h : (s.crushers.stops.all fun x => decide (x.1 ≠ n)) = true) : admitStop n s = s := by
  have hnone : s.crushers.stops.find? (·.1 = n) = none := by simpa [List.find?_eq_none] using h
  rw [admitStop, hnone]

/-- A beat that ends a packet joins the crossing, and nothing else changes. -/
theorem admitStop_admits : let t := admitStop n s
    tabGet [] s.crossings.fromCrusher n <+: tabGet [] t.crossings.fromCrusher n ∧
      (∀ m, m ≠ n → tabGet [] t.crossings.fromCrusher m = tabGet [] s.crossings.fromCrusher m) ∧
      { t with crushers := { t.crushers with stops := s.crushers.stops }
               crossings := { t.crossings with fromCrusher := s.crossings.fromCrusher } } = s := by
  unfold admitStop
  split
  · split
    · refine ⟨prefix_tabMod_append .., fun m hm => ?_, rfl⟩
      dsimp only [State.withCrushers]
      rw [tabGet_tabMod, if_neg hm.symm]
    · exact ⟨List.prefix_rfl, fun _ _ => rfl, rfl⟩
  · exact ⟨List.prefix_rfl, fun _ _ => rfl, rfl⟩

end

/-! ### Underruns (12_lane_link R288) -/

section

variable (n : Nat) (s : State)

theorem flagLink_kept (b : Nat) : RegsKept [RegKind.lnLinkEvt.addr n] s (flagLink n b s) :=
  setFlags_kept s (how := .crossing 1 (64 + n)) _ trivial

@[simp] theorem flagLink_besideFlags (b : Nat) : besideFlags (flagLink n b s) = besideFlags s := setFlags_besideFlags s _ _ _ _ _

/-- The count of underruns lies beside the link's flags and the event controller. -/
theorem lnTxUnderrun_addr : RegKind.lnTxUnderrun.addr n ∉ [RegKind.lnLinkEvt.addr n] ∧
    RegKind.lnTxUnderrun.addr n ∉ [RegKind.lnLinkOvf.addr n] ∧ eventRegister (RegKind.lnTxUnderrun.addr n) = false := by
  change 0x80120 + n * 0x400 ∉ [0x80108 + n * 0x400] ∧ 0x80120 + n * 0x400 ∉ [0x80134 + n * 0x400] ∧
    eventRegister (0x80120 + n * 0x400) = false
  refine ⟨by simp, by simp, ?_⟩
  simp only [eventRegister, Bool.or_eq_false_iff, Bool.and_eq_false_iff, decide_eq_false_iff_not, beq_eq_false_iff_ne]
  omega

/-- An underrun counts one in its lane, and beside that sets flags alone. -/
theorem countUnderrun_counts : CountedOne .lnTxUnderrun n s (countUnderrun n s) ∧ besideFlags (countUnderrun n s) = besideFlags s := by
  obtain ⟨hflag, hovf, hevent⟩ := lnTxUnderrun_addr n
  have hreport (t : State) : (linkOverflow 4 n t).reg .lnTxUnderrun n = t.reg .lnTxUnderrun n :=
    ((flagLink_kept n _ 8).reg hflag hevent).trans ((setBits_kept t .lnLinkOvf n (bitWord 4)).reg hovf hevent)
  have hbeside (t : State) : besideFlags (linkOverflow 4 n t) = besideFlags t :=
    (flagLink_besideFlags n _ 8).trans (setBits_besideFlags t _ _ _)
  have hone : CountedOne .lnTxUnderrun n s (countLink .lnTxUnderrun 4 n s) := countStat_countedOne s hreport
  exact ⟨hone.then_kept (flagLink_kept n _ 6) hflag hevent, (flagLink_besideFlags n _ 6).trans (countStat_besideFlags s hbeside)⟩

/-- The frame that a transmitter has begun is cut off by an ERROR block, and the rest of it will be discarded. -/
def State.frameCut : State :=
  s.modTx n fun t =>
    { t with out := t.out ++ [{ ctrl := true, payload := errorPayload, last := true }], skip := true, opened := false, started := false
             bytes := [] }

/-- A not-valid beat within a packet cuts its frame off, and counts. -/
theorem underrun_counts : CountedOne .lnTxUnderrun n s (underrun n s) ∧ besideFlags (underrun n s) = besideFlags (s.frameCut n) :=
  countUnderrun_counts n (s.frameCut n)

theorem underrun_lane (m : Nat) : (underrun n s).lane m = (s.frameCut n).lane m := by
  obtain ⟨-, hbeside⟩ := underrun_counts n s
  exact (congrArg (fun u : State => u.lane m) hbeside :)

theorem frameCut_lane : (s.frameCut n).lane n = { s.lane n with tx := { (s.lane n).tx with
    out := (s.lane n).tx.out ++ [{ ctrl := true, payload := errorPayload, last := true }], skip := true, opened := false
    started := false, bytes := [] } } := by
  rw [State.frameCut, modTx_lane, if_pos rfl]

end

/-! ### The cases of a transfer (09_portals R213) -/

section

variable (s : State) (n : Nat)

/-- The oldest beat of the crossing to a Crusher has entered its input buffer. -/
def State.intoCrusher (b : CBeat) (rest : List CBeat) : State :=
  { s with crossings := { s.crossings with toCrusher := tabSet [] s.crossings.toCrusher n rest }
           crushers := { s.crushers with inbuf := tabMod [] s.crushers.inbuf n (· ++ [b]) } }

/-- The oldest beat of the crossing from a Crusher has left it. -/
def State.leftCrusher (rest : List CBeat) : State :=
  { s with crossings := { s.crossings with fromCrusher := tabSet [] s.crossings.fromCrusher n rest } }

/-- The oldest beat of the crossing from the Sump has left it. -/
def State.leftSump (rest : List SumpBeat) : State :=
  { s with crossings := { s.crossings with fromSump := tabSet [] s.crossings.fromSump n rest } }

theorem intoCrusher_toCrusher (b : CBeat) (rest : List CBeat) (m : Nat) :
    tabGet [] (s.intoCrusher n b rest).crossings.toCrusher m = if n = m then rest else tabGet [] s.crossings.toCrusher m :=
  tabGet_tabSet [] s.crossings.toCrusher n m rest

theorem intoCrusher_inbuf (b : CBeat) (rest : List CBeat) (m : Nat) : tabGet [] (s.intoCrusher n b rest).crushers.inbuf m =
    if n = m then tabGet [] s.crushers.inbuf n ++ [b] else tabGet [] s.crushers.inbuf m :=
  tabGet_tabMod [] s.crushers.inbuf n m (· ++ [b])

theorem leftCrusher_fromCrusher (rest : List CBeat) (m : Nat) :
    tabGet [] (s.leftCrusher n rest).crossings.fromCrusher m = if n = m then rest else tabGet [] s.crossings.fromCrusher m :=
  tabGet_tabSet [] s.crossings.fromCrusher n m rest

theorem leftSump_fromSump (rest : List SumpBeat) (m : Nat) :
    tabGet [] (s.leftSump n rest).crossings.fromSump m = if n = m then rest else tabGet [] s.crossings.fromSump m :=
  tabGet_tabSet [] s.crossings.fromSump n m rest

/-- The lane is UP, and its transmitter has room for `k` blocks. -/
def State.laneTakes (k : Nat) : Prop := s.laneOn n = true ∧ s.laneState n = 5 ∧ (s.lane n).tx.out.length + k ≤ 64

end

section

variable {s : State} {l : Fin 96}

theorem crossingTransfer_of_stopped (h : s.blocksRun = false) (x : CrossingId) : crossingTransfer x s = s := by
  simp only [crossingTransfer, h, Bool.false_eq_true, if_false]

theorem crossingTransfer_toCrusher_of_waiting
    (h : 32 ≤ (tabGet [] s.crushers.inbuf l.val).length ∨ tabGet [] s.crossings.toCrusher l.val = []) :
    crossingTransfer (.toCrusher l) s = s := by
  simp only [crossingTransfer]
  split
  · split
    · next hb =>
      exact if_neg (Nat.not_lt.2 (h.resolve_right fun hnil => by simp [hnil] at hb))
    · rfl
  · rfl

/-- A lane that is not UP takes nothing. -/
theorem crossingTransfer_of_down (h : s.laneOn l.val = false ∨ s.laneState l.val ≠ 5) :
    crossingTransfer (.fromCrusher l) s = s ∧ crossingTransfer (.fromSump l) s = s := by
  have hdown (k : Nat) : ¬ (s.laneOn l.val = true ∧ s.laneState l.val = 5 ∧ (s.lane l.val).tx.out.length + k ≤ 64) := by
    rintro ⟨hon, hup, -⟩
    exact h.elim (by simp [hon]) fun hne => hne hup
  constructor <;>
  · simp only [crossingTransfer, hdown, if_false]
    split
    · split <;> rfl
    · rfl

variable (hruns : s.blocksRun = true)
include hruns

theorem crossingTransfer_toCrusher {b : CBeat} {rest : List CBeat} (hb : tabGet [] s.crossings.toCrusher l.val = b :: rest)
    (hroom : (tabGet [] s.crushers.inbuf l.val).length < 32) :
    crossingTransfer (.toCrusher l) s = drainToCrusher l.val 64 (s.intoCrusher l.val b rest) := by
  simp only [crossingTransfer, hruns, if_true, hb, hroom]
  rfl

theorem crossingTransfer_fromCrusher {b : CBeat} {rest : List CBeat} (hb : tabGet [] s.crossings.fromCrusher l.val = b :: rest)
    (htakes : s.laneTakes l.val 6) :
    crossingTransfer (.fromCrusher l) s = feedCrusher l.val b (admitStop l.val (s.leftCrusher l.val rest)) := by
  simp only [crossingTransfer, hruns, if_true, hb]
  exact if_pos htakes

theorem crossingTransfer_fromSump {b : SumpBeat} {rest : List SumpBeat} (hb : tabGet [] s.crossings.fromSump l.val = b :: rest)
    (htakes : s.laneTakes l.val 18) : crossingTransfer (.fromSump l) s = feedSump l.val b (s.leftSump l.val rest) := by
  simp only [crossingTransfer, hruns, if_true, hb]
  exact if_pos htakes

end

section

variable (s : State) (n : Nat)

/-- The oldest beat enters the Crusher's buffer; blocks of the lane may follow into the crossing, and nothing else changes. -/
theorem toCrusher_moves (b : CBeat) (rest : List CBeat) : let t := drainToCrusher n 64 (s.intoCrusher n b rest)
    tabGet [] t.crushers.inbuf n = tabGet [] s.crushers.inbuf n ++ [b] ∧ rest <+: tabGet [] t.crossings.toCrusher n ∧
      (∀ m, m ≠ n → tabGet [] t.crossings.toCrusher m = tabGet [] s.crossings.toCrusher m ∧ t.lane m = s.lane m ∧
        tabGet [] t.crushers.inbuf m = tabGet [] s.crushers.inbuf m) ∧
      (t.lane n).tx = (s.lane n).tx ∧ (t.lane n).adit = (s.lane n).adit ∧
      { t with crushers := { t.crushers with inbuf := s.crushers.inbuf }, lanes := s.lanes
               crossings := { t.crossings with toCrusher := s.crossings.toCrusher } } = s := by
  obtain ⟨hbeats, hothers, htx, hadit, hframe⟩ := drainToCrusher_blocksPassed n 64 (s.intoCrusher n b rest)
  generalize drainToCrusher n 64 (s.intoCrusher n b rest) = t at *
  have hcrushers : t.crushers = (s.intoCrusher n b rest).crushers := (congrArg State.crushers hframe :)
  refine ⟨?_, ?_, fun m hm => ⟨?_, (hothers m hm).2, ?_⟩, htx, hadit, ?_⟩
  · rw [hcrushers, intoCrusher_inbuf, if_pos rfl]
  · rw [intoCrusher_toCrusher, if_pos rfl] at hbeats
    exact hbeats
  · rw [(hothers m hm).1, intoCrusher_toCrusher, if_neg hm.symm]
  · rw [hcrushers, intoCrusher_inbuf, if_neg hm.symm]
  · exact (congrArg (fun u : State => { u with
      crushers := { u.crushers with inbuf := s.crushers.inbuf }, crossings := { u.crossings with toCrusher := s.crossings.toCrusher } })
      hframe :)

/-- The oldest beat leaves the crossing from the Crusher; a beat that ends a packet may enter it, and blocks join the transmitter's. -/
theorem fromCrusher_moves (b : CBeat) (rest : List CBeat) : let t := feedCrusher n b (admitStop n (s.leftCrusher n rest))
    rest <+: tabGet [] t.crossings.fromCrusher n ∧
      ((s.crushers.stops.all fun x => decide (x.1 ≠ n)) = true → tabGet [] t.crossings.fromCrusher n = rest) ∧
      (s.lane n).tx.out <+: (t.lane n).tx.out ∧ (t.lane n).rx = (s.lane n).rx ∧ (t.lane n).adit = (s.lane n).adit ∧
      (∀ m, m ≠ n → t.lane m = s.lane m ∧ tabGet [] t.crossings.fromCrusher m = tabGet [] s.crossings.fromCrusher m) ∧
      { t with lanes := s.lanes, freeCtr := s.freeCtr, crushers := { t.crushers with stops := s.crushers.stops }
               crossings := { t.crossings with fromCrusher := s.crossings.fromCrusher } } = s := by
  obtain ⟨hjoined, hkept, hadmitted⟩ := admitStop_admits n (s.leftCrusher n rest)
  have hnone := admitStop_of_none n (s.leftCrusher n rest)
  generalize admitStop n (s.leftCrusher n rest) = u at *
  obtain ⟨⟨hout, hrx, hadit, hothers⟩, hframe⟩ :=
    feedBeat_fed n ((bytesOf b.data.toNat 32).take b.bytes) b.start b.fin b.bad u
  rw [← feedCrusher] at *
  generalize feedCrusher n b u = t at *
  have hcrossings : t.crossings = u.crossings := (congrArg State.crossings hframe :)
  have hlane (m : Nat) : u.lane m = s.lane m := (congrArg (fun v : State => v.lane m) hadmitted :)
  rw [leftCrusher_fromCrusher, if_pos rfl] at hjoined
  refine ⟨hcrossings ▸ hjoined, fun hstops => ?_, hlane n ▸ hout, hlane n ▸ hrx, hlane n ▸ hadit, fun m hm => ⟨?_, ?_⟩, ?_⟩
  · rw [hcrossings, hnone hstops, leftCrusher_fromCrusher, if_pos rfl]
  · rw [hothers m hm, hlane m]
  · rw [hcrossings, hkept m hm, leftCrusher_fromCrusher, if_neg hm.symm]
  · have hfree : u.freeCtr = s.freeCtr := (congrArg State.freeCtr hadmitted :)
    have hlanes : u.lanes = s.lanes := (congrArg State.lanes hadmitted :)
    rw [hfree, hlanes] at hframe
    exact (congrArg (fun v : State => { v with
      crushers := { v.crushers with stops := s.crushers.stops }, crossings := { v.crossings with fromCrusher := s.crossings.fromCrusher } }) hframe :).trans
      (congrArg (fun v : State => { v with crossings := { v.crossings with fromCrusher := s.crossings.fromCrusher } }) hadmitted :)

/-- A beat of the Sump at its lane: blocks join those that wait there, and beside the lane flags and the free values' index alone change. -/
theorem feedSump_fed (b : SumpBeat) : TransmitterFed n s (feedSump n b s) ∧
    besideFlags { feedSump n b s with lanes := s.lanes, freeCtr := s.freeCtr } = besideFlags s := by
  unfold feedSump
  split
  · split
    · obtain ⟨-, hbeside⟩ := underrun_counts n s
      have hlane := underrun_lane n s
      obtain ⟨hout, hrx, hadit, hothers⟩ : TransmitterFed n s (s.frameCut n) := modTx_fed (List.prefix_append ..)
      refine ⟨⟨hlane n ▸ hout, hlane n ▸ hrx, hlane n ▸ hadit, fun m hm => (hlane m).trans (hothers m hm)⟩, ?_⟩
      exact (congrArg (fun u : State => { u with lanes := s.lanes, freeCtr := s.freeCtr }) hbeside :)
    · exact ⟨⟨List.prefix_rfl, rfl, rfl, fun _ _ => rfl⟩, rfl⟩
  · obtain ⟨hfed, hframe⟩ := feedBeat_fed n ((bytesOf b.data.toNat 128).take b.bytes) b.sop b.eop b.bad s
    exact ⟨hfed, congrArg besideFlags hframe⟩

/-- A not-valid beat within a packet is an underrun. -/
theorem feedSump_of_cut {b : SumpBeat} (hnv : b.nv = true) (hopen : (s.lane n).tx.opened = true) : feedSump n b s = underrun n s := by
  rw [feedSump, if_pos hnv, if_pos hopen]

/-- A not-valid beat outside a packet is dropped. -/
theorem feedSump_of_dropped {b : SumpBeat} (hnv : b.nv = true) (hshut : (s.lane n).tx.opened = false) : feedSump n b s = s := by
  rw [feedSump, if_pos hnv, hshut]
  rfl

/-- The oldest beat leaves the crossing from the Sump for the transmitter, where a not-valid one is an underrun or is dropped. -/
theorem fromSump_moves (b : SumpBeat) (rest : List SumpBeat) : let t := feedSump n b (s.leftSump n rest)
    tabGet [] t.crossings.fromSump n = rest ∧ (s.lane n).tx.out <+: (t.lane n).tx.out ∧ (t.lane n).rx = (s.lane n).rx ∧
      (t.lane n).adit = (s.lane n).adit ∧
      (b.nv = true → (s.lane n).tx.opened = true →
        (t.lane n).tx.out = (s.lane n).tx.out ++ [{ ctrl := true, payload := errorPayload, last := true }] ∧
        (t.lane n).tx.skip = true ∧ CountedOne .lnTxUnderrun n s t) ∧
      (b.nv = true → (s.lane n).tx.opened = false → t.lanes = s.lanes) ∧
      (∀ m, m ≠ n → t.lane m = s.lane m ∧ tabGet [] t.crossings.fromSump m = tabGet [] s.crossings.fromSump m) ∧
      StoredKept s t ∧ besideFlags { t with lanes := s.lanes, freeCtr := s.freeCtr
                                            crossings := { t.crossings with fromSump := s.crossings.fromSump } } = besideFlags s := by
  let u := s.leftSump n rest
  obtain ⟨⟨hout, hrx, hadit, hothers⟩, hbeside⟩ := feedSump_fed u n b
  have hcrossing (m : Nat) : tabGet [] (feedSump n b u).crossings.fromSump m = if n = m then rest else tabGet [] s.crossings.fromSump m :=
    (congrArg (fun v : State => tabGet [] v.crossings.fromSump m) hbeside :).trans (leftSump_fromSump s n rest m)
  refine ⟨?_, hout, hrx, hadit, fun hnv hopen => ?_, fun hnv hshut => ?_, fun m hm => ⟨hothers m hm, ?_⟩, ⟨?_, ?_, ?_, ?_, ?_⟩, ?_⟩
  · rw [hcrossing, if_pos rfl]
  · obtain ⟨hone, -⟩ := underrun_counts n u
    rw [feedSump_of_cut u n hnv hopen, underrun_lane, frameCut_lane]
    exact ⟨rfl, rfl, hone⟩
  · rw [feedSump_of_dropped u n hnv hshut]
    rfl
  · rw [hcrossing, if_neg hm.symm]
  · exact (congrArg State.cfg hbeside :)
  · exact (congrArg (fun v : State => v.conf.store) hbeside :)
  · exact (congrArg (fun v : State => v.conf.otp) hbeside :)
  · exact (congrArg (fun v : State => v.foreman.ram) hbeside :)
  · exact (congrArg (fun v : State => v.pockets.rows) hbeside :)
  · exact (congrArg (fun v : State => { v with crossings := { v.crossings with fromSump := s.crossings.fromSump } }) hbeside :)

end

end Sys2Proof.Machine
end

section
/-! The statement about crossings between clocked islands. -/

open Sys2Proof Sys2Proof.Machine

/-- Settles O32: a beat to a Crusher enters its buffer, and blocks that wait may follow (`drainToCrusher_blocksPassed`); a beat from a Crusher
lets one that ends a packet in (`admitStop_admits`) and is fed to its lane (`feedBeat_fed`), and so is one from the Sump
(`feedSump_fed`). -/
theorem islandCrossingTransfer : Obligations.IslandCrossingTransfer := by
  unfold Obligations.IslandCrossingTransfer
  intro l s n
  simp only [exec_islandCrossingTransfer]
  refine ⟨fun x h => congrArg _ (crossingTransfer_of_stopped h x),
    fun b rest hruns hb hroom => ⟨_, congrArg _ (crossingTransfer_toCrusher hruns hb hroom), toCrusher_moves s l.val b rest⟩,
    fun h => congrArg _ (crossingTransfer_toCrusher_of_waiting h),
    fun b rest hruns hb hon hup hroom =>
      ⟨_, congrArg _ (crossingTransfer_fromCrusher hruns hb ⟨hon, hup, hroom⟩), fromCrusher_moves s l.val b rest⟩,
    fun b rest hruns hb hon hup hroom =>
      ⟨_, congrArg _ (crossingTransfer_fromSump hruns hb ⟨hon, hup, hroom⟩), fromSump_moves s l.val b rest⟩,
    fun h => ?_⟩
  obtain ⟨hcrusher, hsump⟩ := crossingTransfer_of_down h
  exact ⟨congrArg _ hcrusher, congrArg _ hsump⟩

end

section
/-! SUPPORT. Masters of the haul road (10_haulers R241): the registers in which a channel shows itself, its flags and its retries, and what
every move of a master leaves alone. -/

namespace Sys2Proof

open Sys2Proof.Machine

/-! ### One master moves -/

theorem MasterOnly.refl (m : Nat) (s : State) : MasterOnly m s s := ⟨fun _ _ => rfl, .refl s _, rfl⟩

theorem MasterOnly.trans {m : Nat} {s t u : State} (h : MasterOnly m s t) (h' : MasterOnly m t u) : MasterOnly m s u := by
  obtain ⟨hothers, hregs, hbeside⟩ := h
  obtain ⟨hothers', hregs', hbeside'⟩ := h'
  exact ⟨fun k hk => (hothers' k hk).trans (hothers k hk), hregs.trans hregs',
    (congrArg (fun v : State => besideFlags { v with haul := s.haul }) hbeside' :).trans hbeside⟩

end Sys2Proof

namespace Sys2Proof.Machine

variable (s : State)

/-- The kinds of a channel's registers that its moves may write (10_haulers R241). -/
def channelKinds : List RegKind := [.hchStatus, .hchCur, .hchLeft, .hchErraddr, .hchTag, .hchRetry, .hchEvt]

/-- The registers of a channel that its moves may write; the Foreman has none. -/
def channelRegisters (m : Nat) : List Nat := if m < 64 then channelKinds.map fun k => k.addr m else []

theorem mem_channelRegisters {m : Nat} (hm : m < 64) {k : RegKind} (hk : k ∈ channelKinds) : k.addr m ∈ channelRegisters m := by
  rw [channelRegisters, if_pos hm]
  exact List.mem_map_of_mem hk

theorem channelKinds_loc : ∀ k ∈ channelKinds, 0xB0000 ≤ k.loc.base ∧ k.loc.stride = 0x40 := by decide

/-- Two registers of one channel lie at two addresses. -/
theorem channelKind_addr_ne {k k' : RegKind} (hk : k ∈ channelKinds) (hk' : k' ∈ channelKinds) (hne : k ≠ k') (m : Nat) :
    k.addr m ≠ k'.addr m := by
  have hbase : ∀ k ∈ channelKinds, ∀ k' ∈ channelKinds, k ≠ k' → k.loc.base ≠ k'.loc.base := by decide
  have hne := hbase k hk k' hk' hne
  rw [RegKind.addr, RegKind.addr, (channelKinds_loc k hk).2, (channelKinds_loc k' hk').2]
  omega

/-- A channel's registers lie beside the event controller. -/
theorem channelKind_not_event {k : RegKind} (hk : k ∈ channelKinds) (m : Nat) : eventRegister (k.addr m) = false := by
  obtain ⟨hbase, -⟩ := channelKinds_loc k hk
  have haddr : 0xB0000 ≤ k.addr m := hbase.trans (Nat.le_add_right _ _)
  simp only [eventRegister, Bool.or_eq_false_iff, Bool.and_eq_false_iff, decide_eq_false_iff_not, beq_eq_false_iff_ne]
  omega

/-- A move that is flags and counters of the channel alone. -/
theorem masterOnly_of_besideFlags {m : Nat} {s t : State} (h : besideFlags t = besideFlags s) (hregs : RegsKept (channelRegisters m) s t) :
    MasterOnly m s t :=
  ⟨fun k _ => (congrArg (fun v : State => v.master k) h :), hregs, (congrArg (fun v : State => besideFlags { v with haul := s.haul }) h :)⟩

/-- From `s` to `t` one master has moved on, in a slot that is used if it was (10_haulers R222, R241). -/
structure MasterStep (m : Nat) (s t : State) : Prop where
  only : MasterOnly m s t
  used : t.haul.used = s.haul.used

theorem MasterStep.refl (m : Nat) : MasterStep m s s := ⟨.refl m s, rfl⟩

theorem MasterStep.trans {m : Nat} {s t u : State} (h : MasterStep m s t) (h' : MasterStep m t u) : MasterStep m s u :=
  ⟨h.only.trans h'.only, h'.used.trans h.used⟩

theorem MasterStep.ite {m : Nat} {s a b : State} {c : Prop} [Decidable c] (ha : MasterStep m s a) (hb : MasterStep m s b) :
    MasterStep m s (if c then a else b) := by
  split <;> assumption

theorem modMaster_step (m : Nat) (f : Hauler → Hauler) : MasterStep m s (s.modMaster m f) :=
  ⟨modMaster_only s m f, by rw [State.modMaster_haul]⟩

/-! ### A channel's registers -/

section

variable {m : Nat} (hm : m < 64)
include hm

/-- A write of a channel's own register. -/
theorem setReg_step {k : RegKind} (hk : k ∈ channelKinds) (v : Word) : MasterStep m s (s.setReg k m v) :=
  ⟨masterOnly_of_besideFlags rfl ((setReg_kept s k m v).mono fun _ ha =>
    .inl (List.mem_singleton.1 ha ▸ mem_channelRegisters hm hk)), rfl⟩

/-- A change of a master is one of the haul road, shown in three registers. -/
theorem modMaster_eq (f : Hauler → Hauler) : ∃ u : State, u.regs = s.regs ∧ s.modMaster m f =
    ((u.setReg .hchStatus m (word (place 16 6 (f (s.master m)).opened.length + place 12 4 (f (s.master m)).terr +
      place 8 4 (f (s.master m)).err + (f (s.master m)).st))).setReg .hchCur m (word (f (s.master m)).cur)).setReg .hchLeft m
        (word (f (s.master m)).left) := by
  refine ⟨{ s with haul := { s.haul with chans := tabMod {} s.haul.chans m f } }, rfl, ?_⟩
  have hmaster : State.master { s with haul := { s.haul with chans := tabMod {} s.haul.chans m f } } m = f (s.master m) :=
    (tabGet_tabMod ..).trans (if_pos rfl)
  rw [State.modMaster, showHauler, if_pos hm, hmaster]

/-- A change of a master leaves the registers that do not show its state. -/
theorem modMaster_reg {k : RegKind} (hk : k ∈ [RegKind.hchErraddr, .hchTag, .hchRetry, .hchEvt]) (f : Hauler → Hauler) :
    (s.modMaster m f).reg k m = s.reg k m := by
  obtain ⟨u, hu, heq⟩ := modMaster_eq s hm f
  have hkind : ∀ k ∈ [RegKind.hchErraddr, .hchTag, .hchRetry, .hchEvt],
      k ∈ channelKinds ∧ RegKind.hchStatus ≠ k ∧ RegKind.hchCur ≠ k ∧ RegKind.hchLeft ≠ k := by decide
  obtain ⟨hin, hstatus, hcur, hleft⟩ := hkind k hk
  rw [heq, State.setReg_reg_ne _ _ (channelKind_addr_ne (by decide) hin hleft m),
    State.setReg_reg_ne _ _ (channelKind_addr_ne (by decide) hin hcur m),
    State.setReg_reg_ne _ _ (channelKind_addr_ne (by decide) hin hstatus m), State.reg, hu, State.reg]

theorem modMaster_bit {k : RegKind} (hk : k ∈ [RegKind.hchErraddr, .hchTag, .hchRetry, .hchEvt]) (f : Hauler → Hauler) (b : Nat) :
    (s.modMaster m f).bit k m b = s.bit k m b := by
  rw [State.bit, modMaster_reg s hm hk, State.bit]

/-- `HCHnn_CUR` shows the descriptor that a channel is at. -/
theorem modMaster_cur (f : Hauler → Hauler) : (s.modMaster m f).reg .hchCur m = word (f (s.master m)).cur := by
  obtain ⟨u, -, heq⟩ := modMaster_eq s hm f
  rw [heq, State.setReg_reg_ne _ _ (channelKind_addr_ne (by decide) (by decide) (by decide) m), State.setReg_reg]

/-- `HCHnn_STATUS.STATE` shows a channel's state. -/
theorem modMaster_state (f : Hauler → Hauler) : (s.modMaster m f).field .hchStatus m 0 4 = (f (s.master m)).st % 16 := by
  obtain ⟨u, -, heq⟩ := modMaster_eq s hm f
  rw [State.field, heq, State.setReg_reg_ne _ _ (channelKind_addr_ne (by decide) (by decide) (by decide) m),
    State.setReg_reg_ne _ _ (channelKind_addr_ne (by decide) (by decide) (by decide) m), State.setReg_reg]
  simp only [bitsOf, word, place, BitVec.toNat_ofNat, Nat.shiftLeft_eq, Nat.shiftRight_zero]
  omega

/-! ### Flags and retries -/

omit hm in
theorem flagHauler_besideFlags (b : Nat) : besideFlags (flagHauler m b s) = besideFlags s := setFlags_besideFlags s _ _ _ _ _

theorem flagHauler_kept (b : Nat) : RegsKept [RegKind.hchEvt.addr m] s (flagHauler m b s) :=
  setFlags_kept s _ (show 184 + m < 384 by omega)

theorem flagHauler_step (b : Nat) : MasterStep m s (flagHauler m b s) :=
  have hbeside := flagHauler_besideFlags s b
  ⟨masterOnly_of_besideFlags hbeside ((flagHauler_kept s hm b).mono fun _ ha =>
    .inl (List.mem_singleton.1 ha ▸ mem_channelRegisters hm (by decide))), (congrArg (fun v : State => v.haul.used) hbeside :)⟩

omit hm in
@[simp] theorem flagHauler_haul (b : Nat) : (flagHauler m b s).haul = s.haul :=
  (congrArg State.haul (flagHauler_besideFlags s b) :)

omit hm in
@[simp] theorem flagHauler_master (b k : Nat) : (flagHauler m b s).master k = s.master k :=
  (congrArg (fun v : State => v.master k) (flagHauler_besideFlags s b) :)

theorem flagHauler_evt (b : Nat) : (flagHauler m b s).reg .hchEvt m = s.reg .hchEvt m ||| bitWord b :=
  setFlags_self s _ (show 184 + m < 384 by omega) (channelKind_not_event (by decide) m)

/-- A flag leaves the channel's other registers. -/
theorem flagHauler_reg {k : RegKind} (hk : k ∈ channelKinds) (hne : k ≠ .hchEvt) (b : Nat) : (flagHauler m b s).reg k m = s.reg k m :=
  (flagHauler_kept s hm b).reg (by simpa using channelKind_addr_ne hk (by decide) hne m) (channelKind_not_event hk m)

/-- A flag set is 1. -/
theorem flagHauler_bit {b : Nat} (hb : b < 32) : (flagHauler m b s).bit .hchEvt m b = true := by
  rw [State.bit, flagHauler_evt s hm, BitVec.getLsbD_or, bitWord, BitVec.getLsbD_ofNat]
  simp [hb]

/-- A flag that is 1 stays 1 when another is set. -/
theorem flagHauler_bit_of_set {b : Nat} (h : s.bit .hchEvt m b = true) (c : Nat) : (flagHauler m c s).bit .hchEvt m b = true := by
  rw [State.bit, flagHauler_evt s hm, BitVec.getLsbD_or]
  exact Bool.or_eq_true_iff.2 (.inl h)

theorem masterFlag_eq (b : Nat) : masterFlag m b s = flagHauler m b s := if_pos hm

theorem countRetry_eq : countRetry m s = countStat .hchRetry m (flagHauler m 5) s := if_pos hm

/-- A retry counts one, and is the channel's own (10_haulers R222). -/
theorem countRetry_counts : CountedOne .hchRetry m s (countRetry m s) ∧ MasterStep m s (countRetry m s) ∧
    (countRetry m s).master m = s.master m := by
  have hbeside : besideFlags (countStat .hchRetry m (flagHauler m 5) s) = besideFlags s :=
    countStat_besideFlags s fun t => flagHauler_besideFlags t 5
  rw [countRetry_eq s hm]
  refine ⟨countStat_countedOne s fun t => flagHauler_reg t hm (by decide) (by decide) 5,
    ⟨masterOnly_of_besideFlags hbeside ?_, (congrArg (fun v : State => v.haul.used) hbeside :)⟩,
    (congrArg (fun v : State => v.master m) hbeside :)⟩
  exact countStat_kept s (mem_channelRegisters hm (by decide)) fun t => (flagHauler_step t hm 5).only.2.1

end

/-! ### Reads ahead (10_haulers R230, R231) -/

/-- A master without the reads that wait to be requested, and without what says for which elements and bursts they are. -/
def Hauler.besideReads (v : Hauler) : Hauler := { v with waiting := [], ahead := false, elems := 0 }

theorem askSeq_besideReads (v : Hauler) (goal : Nat) : (v.askSeq goal).besideReads = v.besideReads := by
  unfold Hauler.askSeq
  split <;> rfl

theorem requestReads_besideReads (v : Hauler) : v.requestReads.besideReads = v.besideReads := by
  unfold Hauler.requestReads
  split
  · exact askSeq_besideReads v _
  · split
    · extract_lets more
      split <;> rfl
    · split
      · rfl
      · exact askSeq_besideReads v _

/-- Without index entries in hand no element's read is asked for. -/
theorem requestReads_elems {v : Hauler} (h : v.idx = []) : v.requestReads.elems = v.elems := by
  have hseq (goal : Nat) : (v.askSeq goal).elems = v.elems := by
    unfold Hauler.askSeq
    split <;> rfl
  unfold Hauler.requestReads
  rw [if_pos h]
  split
  · exact hseq _
  · extract_lets more
    split <;> rfl

/-- The next burst's reads are asked for ahead, or nothing is done. -/
theorem requestAhead_cases (m : Nat) :
    requestAhead m s = s ∨ requestAhead m s = s.modMaster m fun v => { v.requestReads with ahead := true } := by
  unfold requestAhead
  extract_lets v far
  split
  · exact .inr rfl
  · exact .inl rfl

theorem requestAhead_step (m : Nat) : MasterStep m s (requestAhead m s) := by
  rcases requestAhead_cases s m with h | h <;> rw [h]
  · exact .refl s m
  · exact modMaster_step s m _

/-- Asking ahead changes a master by the reads alone. -/
theorem requestAhead_besideReads (m : Nat) : ((requestAhead m s).master m).besideReads = (s.master m).besideReads := by
  rcases requestAhead_cases s m with h | h <;> rw [h]
  rw [modMaster_master]
  exact requestReads_besideReads (s.master m)

theorem requestAhead_elems {m : Nat} (hidx : (s.master m).idx = []) : ((requestAhead m s).master m).elems = (s.master m).elems := by
  rcases requestAhead_cases s m with h | h <;> rw [h]
  rw [modMaster_master]
  exact requestReads_elems hidx

end Sys2Proof.Machine
end

section
/-! SUPPORT. `START`, `STOP` and `RESUME` of a Hauler channel (10_haulers R225, R236, R239, R240): what each does in a state that takes it. -/

namespace Sys2Proof.Machine

variable {s : State} {m : Nat}

theorem exec_haulerStart (p : HostPort) (h : Fin 64) :
    exec (.haulerStart p h) s = .next (hostCommand p .hchCtrl h.val (bitWord 0) (haulerStart h.val) s) := rfl

theorem exec_haulerStop (p : HostPort) (h : Fin 64) :
    exec (.haulerStop p h) s = .next (hostCommand p .hchCtrl h.val (bitWord 2) (haulerStop h.val) s) := rfl

theorem exec_haulerResume (p : HostPort) (h : Fin 64) :
    exec (.haulerResume p h) s = .next (hostCommand p .hchCtrl h.val (bitWord 1) (haulerResume h.val) s) := rfl

/-- A channel that takes `START`: idle, stopped, done or in error (10_haulers R240). -/
def Hauler.startable (v : Hauler) : Prop := v.st = 0 ∨ v.st = 5 ∨ v.st = 6 ∨ v.st = 7

/-- A channel that `RESUME` lets go on: stopped, or paused with all its caverns powered (10_haulers R239). -/
def State.resumable (s : State) (v : Hauler) : Prop := v.st = 5 ∨ (v.st = 4 ∧ ∀ c ∈ v.places, (s.cav c).power = false)

/-- The master that `RESUME` leaves, before it asks for reads ahead. -/
def Hauler.resumed (v : Hauler) : Hauler :=
  let v := { v with stop := false, pause := false }
  if v.desc = [] then { v with st := 1 }.askDesc else { v with st := 2 }

/-- A command that a channel does not take sets `CMD_REJ` and nothing else (10_haulers R240). -/
theorem flagHauler_rejects (hm : m < 64) :
    (flagHauler m 4 s).haul = s.haul ∧ (flagHauler m 4 s).bit .hchEvt m 4 = true ∧ MasterOnly m s (flagHauler m 4 s) :=
  ⟨flagHauler_haul s 4, flagHauler_bit s hm (by decide), (flagHauler_step s hm 4).only⟩

/-- `START` leaves nothing of the channel but its count of elements left; that it clears `ERR` is log 47's. -/
theorem haulerStart_of_startable (h : (s.master m).startable) : haulerStart m s =
    s.modMaster m fun v => ({ st := 1, cur := (s.reg .hchDesc m).toNat, left := v.left } : Hauler).askDesc := by
  refine if_pos ?_
  rcases h with h | h | h | h <;> simp [h]

theorem haulerStart_of_busy (h : ¬ (s.master m).startable) : haulerStart m s = flagHauler m 4 s := by
  refine if_neg fun h' => h ?_
  rcases h' with h' | h' | h' | h' <;> simp [Hauler.startable, h']

section

variable (hactive : (s.master m).st = 1 ∨ (s.master m).st = 2 ∨ (s.master m).st = 3)
include hactive

/-- `STOP` waits for the burst in progress, and for a pause that comes before it (10_haulers R236, R240). -/
theorem haulerStop_of_burst (h : (s.master m).burst.isSome = true ∨ (s.master m).pause = true) :
    haulerStop m s = s.modMaster m fun v => { v with stop := true } := by
  refine (if_pos hactive).trans ?_
  cases hburst : (s.master m).burst with
  | some e => exact if_neg (by simp)
  | none =>
    have hpause : (s.master m).pause = true := h.resolve_left (by simp [hburst])
    exact (if_pos rfl).trans (if_pos hpause)

theorem haulerStop_at_boundary (hburst : (s.master m).burst = none) (hpause : (s.master m).pause = false) :
    haulerStop m s = flagHauler m 3 (s.modMaster m fun v => { v.cancelReads with st := 5 }) :=
  (if_pos hactive).trans ((if_pos (by rw [hburst]; rfl)).trans (if_neg (by rw [hpause]; exact Bool.false_ne_true)))

end

theorem haulerStop_of_idle (h : ¬ ((s.master m).st = 1 ∨ (s.master m).st = 2 ∨ (s.master m).st = 3)) :
    haulerStop m s = flagHauler m 4 s := if_neg h

theorem resumable_iff (v : Hauler) :
    ((v.st = 4 ∨ v.st = 5) ∧ (v.st = 4 && v.places.any fun c => (s.cav c).power) = false) ↔ s.resumable v := by
  simp only [State.resumable, Bool.and_eq_false_iff, decide_eq_false_iff_not, List.any_eq_false, Bool.not_eq_true]
  constructor
  · rintro ⟨h4 | h5, hoff⟩
    · exact .inr ⟨h4, hoff.resolve_left (not_not_intro h4)⟩
    · exact .inl h5
  · rintro (h5 | ⟨h4, hon⟩)
    · exact ⟨.inr h5, .inl (by omega)⟩
    · exact ⟨.inl h4, .inr hon⟩

theorem haulerResume_of_resumable (h : s.resumable (s.master m)) :
    haulerResume m s = requestAhead m (s.modMaster m Hauler.resumed) := if_pos ((resumable_iff _).2 h)

theorem haulerResume_of_other (h : ¬ s.resumable (s.master m)) : haulerResume m s = flagHauler m 4 s :=
  if_neg fun h' => h ((resumable_iff _).1 h')

/-- What a channel that goes on holds, beside the reads that it asks for. -/
theorem resumed_besideReads (v : Hauler) : v.resumed.besideReads =
    { v with st := if v.desc = [] then 1 else 2, stop := false, pause := false, waiting := [], ahead := false, elems := 0 } := by
  unfold Hauler.resumed
  extract_lets u
  have hdesc : u.desc = v.desc := rfl
  rw [hdesc]
  split <;> rfl

end Sys2Proof.Machine
end

section
/-! The statement about `START`, `STOP` and `RESUME` of a Hauler channel. -/

open Sys2Proof Sys2Proof.Machine

/-- Settles O36: a write that does not reach `HCHnn_CTRL` is turned away (`hostCommand_turnedAway`); each command that does is one change of
the channel in a state that takes it, and `CMD_REJ` alone in every other (`flagHauler_rejects`). -/
theorem haulerControls : Obligations.HaulerControls := by
  unfold Obligations.HaulerControls
  intro p h s v ctrl idle moving held refused
  have hm := h.isLt
  refine ⟨hostCommand_turnedAway s .., hostCommand_turnedAway s .., hostCommand_turnedAway s .., fun hopen => ?_⟩
  simp only [refused, exec_haulerStart, exec_haulerStop, exec_haulerResume, hostCommand_open s hopen]
  refine ⟨fun hidle => ⟨_, congrArg _ (haulerStart_of_startable hidle), ?_, ?_, ?_, (modMaster_step ..).only⟩,
    fun hidle => ⟨_, congrArg _ (haulerStart_of_busy hidle), flagHauler_rejects hm⟩,
    fun hactive hwaits => ⟨_, congrArg _ (haulerStop_of_burst hactive hwaits), modMaster_master .., (modMaster_step ..).only⟩,
    fun hactive hburst hpause => ⟨_, congrArg _ (haulerStop_at_boundary hactive hburst hpause), ?_, ?_, ?_, ?_⟩,
    fun hactive => ⟨_, congrArg _ (haulerStop_of_idle hactive), flagHauler_rejects hm⟩,
    fun hheld => ⟨_, congrArg _ (haulerResume_of_resumable hheld), ?_, ?_⟩,
    fun hheld => ⟨_, congrArg _ (haulerResume_of_other hheld), flagHauler_rejects hm⟩⟩
  · exact modMaster_master ..
  · exact modMaster_state s hm _
  · rw [modMaster_cur s hm]
    exact (BitVec.ofNat_toNat 32 _).trans (BitVec.setWidth_eq _)
  · rw [flagHauler_master]
    exact modMaster_master ..
  · rw [State.field, flagHauler_reg _ hm (by decide) (by decide)]
    exact modMaster_state s hm _
  · exact flagHauler_bit _ hm (by decide)
  · exact ((modMaster_step ..).trans (flagHauler_step _ hm 3)).only
  · refine (requestAhead_besideReads _ _).trans ?_
    rw [modMaster_master]
    exact resumed_besideReads v
  · exact ((modMaster_step ..).trans (requestAhead_step ..)).only

end

section
/-! SUPPORT. Descriptor fetches, burst read requests and staged beats (10_haulers R220, R225, R234): what each command does, the halt of a
master without a descriptor, and what a read of the shared RAM gives. -/

namespace Sys2Proof.Machine

variable (s : State)

theorem exec_descriptorFetch (h : Fin 64) : exec (.descriptorFetch h) s = .next (descriptorFetch h.val s) := rfl

theorem exec_burstReadRequest (m : Fin 65) : exec (.burstReadRequest m) s = .next (burstRequest m.val s) := rfl

theorem exec_targetBeatStaged (m : Fin 65) : exec (.targetBeatStaged m) s = .next (stageBeat m.val s) := rfl

/-- The slot used is no move of a master (10_haulers R222). -/
theorem useSlot_only (m : Nat) : MasterOnly m s (useSlot s) := ⟨fun _ _ => rfl, .same (.refl s _) rfl, rfl⟩

/-- A move in the slot that a master uses. -/
theorem MasterStep.ofSlot {s t : State} {m : Nat} (h : MasterStep m (useSlot s) t) : t.haul.used = s.clocks.sys + 1 ∧ MasterOnly m s t :=
  ⟨h.used, (useSlot_only s m).trans h.only⟩

/-! ### Halts (10_haulers R234) -/

/-- A master that an error halts. -/
def Hauler.halted (code terr left : Nat) (v : Hauler) : Hauler :=
  { v with st := 7, err := code, terr := terr, left := left, waiting := [], opened := [], staged := [], popping := false,
           popped := [], elems := 0, failed := none, ahead := false, burst := none, stop := false, pause := false }

/-- Without a descriptor no destination has a packet or a word to close. -/
theorem haltMaster_of_noDesc {m : Nat} (hm : m < 64) (hdesc : (s.master m).desc = []) (code terr left addr : Nat) :
    haltMaster m code terr left addr s =
      flagHauler m 1 ((s.modMaster m (Hauler.halted code terr left)).setReg .hchErraddr m (word addr)) := by
  rw [haltMaster]
  simp only [hdesc, hm, if_true, masterFlag_eq _ hm]
  rfl

theorem haltMaster_halts {m : Nat} (hm : m < 64) (hdesc : (s.master m).desc = []) (code terr left addr : Nat) :
    (haltMaster m code terr left addr s).master m = (s.master m).halted code terr left ∧
      (haltMaster m code terr left addr s).reg .hchErraddr m = word addr ∧
      (haltMaster m code terr left addr s).bit .hchEvt m 1 = true ∧ MasterStep m s (haltMaster m code terr left addr s) := by
  rw [haltMaster_of_noDesc s hm hdesc]
  refine ⟨?_, ?_, flagHauler_bit _ hm (by decide), ?_⟩
  · rw [flagHauler_master]
    exact modMaster_master ..
  · rw [flagHauler_reg _ hm (by decide) (by decide), State.setReg_reg]
  · exact ((modMaster_step ..).trans (setReg_step _ hm (by decide) _)).trans (flagHauler_step _ hm 1)

/-- A channel in its slot that drops its descriptor and halts. -/
theorem slotHalt_halts {m : Nat} (hm : m < 64) {f : Hauler → Hauler} (hdesc : (f (s.master m)).desc = []) (code terr left addr : Nat) :
    let t := haltMaster m code terr left addr ((useSlot s).modMaster m f)
    (t.master m).st = 7 ∧ (t.master m).err = code ∧ (t.master m).terr = terr ∧ (t.master m).left = left ∧
      t.reg .hchErraddr m = word addr ∧ t.bit .hchEvt m 1 = true ∧ t.haul.used = s.clocks.sys + 1 ∧ MasterOnly m s t := by
  have hdropped : (((useSlot s).modMaster m f).master m).desc = [] := by
    rw [modMaster_master]
    exact hdesc
  obtain ⟨hmaster, haddr, hflag, hstep⟩ := haltMaster_halts ((useSlot s).modMaster m f) hm hdropped code terr left addr
  intro t
  rw [hmaster]
  exact ⟨rfl, rfl, rfl, rfl, haddr, hflag, ((modMaster_step ..).trans hstep).ofSlot⟩

/-! ### Descriptor fetches (10_haulers R224, R225) -/

/-- A channel in FETCH in its own usable slot. -/
def State.fetches (h : Nat) : Prop := s.slotFree h = true ∧ (s.master h).st = 1 ∧ (s.master h).pause = false

/-- The master with the descriptor that a beat brings. -/
def Hauler.fetched (v : Hauler) (b : StagedBeat) : Hauler :=
  { cur := v.cur, desc := (List.range 8).map fun i => word (b.data >>> (32 * i)), st := 2, skip := v.skip }

section

variable {s} {h : Nat}

theorem descriptorFetch_of_off (hoff : ¬ s.fetches h) : descriptorFetch h s = s := if_neg hoff

variable (hon : s.fetches h)
include hon

theorem descriptorFetch_of_unstaged (hstaged : (s.master h).staged = []) : descriptorFetch h s =
    countRetry h (if (s.master h).waiting = [] ∧ (s.master h).opened = [] then (useSlot s).modMaster h Hauler.askDesc
      else useSlot s) := by
  refine (if_pos hon).trans ?_
  rw [hstaged]

variable {b : StagedBeat} {rest : List StagedBeat} (hstaged : (s.master h).staged = b :: rest)
include hstaged

theorem descriptorFetch_of_unread (hcode : b.code ≠ 0) : descriptorFetch h s =
    haltMaster h herrFetch b.terr 0 (s.master h).cur ((useSlot s).modMaster h fun v => { v with desc := [] }) := by
  refine (if_pos hon).trans ?_
  rw [hstaged]
  exact if_pos hcode

theorem descriptorFetch_of_bad (hcode : b.code = 0) (hbad : descError s.cfg h ((s.master h).fetched b) ≠ 0) : descriptorFetch h s =
    haltMaster h (descError s.cfg h ((s.master h).fetched b)) 0 ((s.master h).fetched b).count (s.master h).cur
      ((useSlot s).modMaster h fun _ => { (s.master h).fetched b with desc := [] }) := by
  refine (if_pos hon).trans ?_
  rw [hstaged]
  exact (if_neg (not_not_intro hcode)).trans (if_neg hbad)

theorem descriptorFetch_of_good (hcode : b.code = 0) (hgood : descError s.cfg h ((s.master h).fetched b) = 0) : descriptorFetch h s =
    requestAhead h ((useSlot s).modMaster h fun _ => { (s.master h).fetched b with left := ((s.master h).fetched b).count }) := by
  refine (if_pos hon).trans ?_
  rw [hstaged]
  exact (if_neg (not_not_intro hcode)).trans (if_pos hgood)

end

/-- A fetch whose descriptor is not yet staged counts a retry, and asks for one that it has not asked for (10_haulers R225). -/
theorem fetchRetry_retries {h : Nat} (hm : h < 64) :
    let v := s.master h
    let t := countRetry h (if v.waiting = [] ∧ v.opened = [] then (useSlot s).modMaster h Hauler.askDesc else useSlot s)
    t.master h = (if v.waiting = [] ∧ v.opened = [] then { v with waiting := [{ kind := .desc, addr := v.cur, stage := 1, left := 1 }] }
      else v) ∧ CountedOne .hchRetry h s t ∧ t.haul.used = s.clocks.sys + 1 ∧ MasterOnly h s t := by
  intro v t
  let u := if v.waiting = [] ∧ v.opened = [] then (useSlot s).modMaster h Hauler.askDesc else useSlot s
  have hu : MasterStep h (useSlot s) u := .ite (modMaster_step ..) (.refl ..)
  have hreg : u.reg .hchRetry h = s.reg .hchRetry h := by
    unfold u
    split
    · exact modMaster_reg (useSlot s) hm (by decide) _
    · rfl
  obtain ⟨hcount, hstep, hmaster⟩ := countRetry_counts u hm
  refine ⟨hmaster.trans ?_, ?_, (hu.trans hstep).ofSlot⟩
  · unfold u
    split
    · exact modMaster_master ..
    · rfl
  · rwa [CountedOne, ← hreg]

/-- A descriptor that passes its checks runs, and its first burst's reads are asked for ahead (10_haulers R225, R231). -/
theorem fetchRun_runs {h : Nat} (n : Hauler) (hidx : n.idx = []) (helems : n.elems = 0) :
    let t := requestAhead h ((useSlot s).modMaster h fun _ => n)
    { t.master h with waiting := [], ahead := false } = { n with waiting := [], ahead := false } ∧ t.haul.used = s.clocks.sys + 1 ∧
      MasterOnly h s t := by
  intro t
  have hbeside := requestAhead_besideReads ((useSlot s).modMaster h fun _ => n) h
  have helems' : (t.master h).elems = 0 := by
    refine (requestAhead_elems _ ?_).trans ?_ <;> rw [modMaster_master]
    · exact hidx
    · exact helems
  rw [modMaster_master] at hbeside
  refine ⟨?_, ((modMaster_step ..).trans (requestAhead_step ..)).ofSlot⟩
  calc { t.master h with waiting := [], ahead := false }
    _ = { (t.master h).besideReads with elems := (t.master h).elems } := rfl
    _ = { n.besideReads with elems := n.elems } := by rw [hbeside, helems', helems]
    _ = { n with waiting := [], ahead := false } := rfl

/-! ### Requests (10_haulers R220) -/

/-- A master may place a burst read in this clock. -/
def State.mayRequest (m : Nat) : Prop :=
  s.blocksRun = true ∧ s.clocks.sys % 65 = m ∧ s.haul.asked ≠ s.clocks.sys + 1 ∧ (s.master m).opened.length < 32 ∧ s.readsOut < 2048

/-- The request path used in this clock. -/
def State.asked : State := { s with haul := { s.haul with asked := s.clocks.sys + 1 } }

theorem State.asked_only (m : Nat) : MasterOnly m s s.asked := ⟨fun _ _ => rfl, .same (.refl s _) rfl, rfl⟩

section

variable {s} {m : Nat}

theorem burstRequest_of_none (h : ¬ s.mayRequest m ∨ (s.master m).waiting = []) : burstRequest m s = s := by
  by_cases hmay : s.mayRequest m
  · refine (if_pos hmay).trans ?_
    rw [h.resolve_left (not_not_intro hmay)]
  · exact if_neg hmay

theorem burstRequest_of_waiting (hmay : s.mayRequest m) {r : ReadReq} {rest : List ReadReq} (hw : (s.master m).waiting = r :: rest) :
    burstRequest m s = s.asked.modMaster m fun v =>
      { v with waiting := rest, opened := v.opened ++ [r] } := by
  refine (if_pos hmay).trans ?_
  rw [hw]
  rfl

end

/-! ### Reads of the shared RAM -/

/-- Bytes as the digits of a number. -/
theorem natOfBytes_eq_ofDigits (bs : List Byte) : natOfBytes bs = Nat.ofDigits 256 (bs.map BitVec.toNat) := by
  induction bs with
  | nil => rfl
  | cons b bs ih =>
    rw [List.map_cons, Nat.ofDigits_cons, ← ih]
    rfl

theorem natOfBytes_append (bs cs : List Byte) : natOfBytes (bs ++ cs) = natOfBytes bs + 256 ^ bs.length * natOfBytes cs := by
  simp only [natOfBytes_eq_ofDigits, List.map_append, Nat.ofDigits_append, List.length_map]

theorem natOfBytes_lt (bs : List Byte) : natOfBytes bs < 256 ^ bs.length := by
  rw [natOfBytes_eq_ofDigits, ← List.length_map (f := BitVec.toNat)]
  refine Nat.ofDigits_lt_base_pow_length (by decide) fun d hd => ?_
  obtain ⟨b, -, rfl⟩ := List.mem_map.1 hd
  exact b.isLt

theorem memRead_add (fill : Byte) (m : Mem) (a n k : Nat) : memRead fill m a (n + k) = memRead fill m a n ++ memRead fill m (a + n) k := by
  simp only [memRead, List.range_add, List.map_append, List.map_map]
  congr 2
  funext i
  simp only [Function.comp_apply, Nat.add_assoc]

/-- The middle of three runs of bytes. -/
theorem bitsOf_bytes {x y o n : Nat} (hx : x < 256 ^ o) (hy : y < 256 ^ n) (z : Nat) :
    bitsOf (8 * o) (8 * n) (x + 256 ^ o * (y + 256 ^ n * z)) = y := by
  have hpow (i : Nat) : 2 ^ (8 * i) = 256 ^ i := by
    rw [pow_mul]
    norm_num
  rw [bitsOf, Nat.shiftRight_eq_div_pow, hpow, hpow, Nat.add_mul_div_left x _ (by positivity), Nat.div_eq_of_lt hx, Nat.zero_add,
    Nat.add_mul_mod_self_left, Nat.mod_eq_of_lt hy]

/-- Some bytes within a block. -/
theorem bitsOf_memRead (fill : Byte) (m : Mem) (a o n k : Nat) :
    bitsOf (8 * o) (8 * n) (natOfBytes (memRead fill m a (o + (n + k)))) = natOfBytes (memRead fill m (a + o) n) := by
  have hlen (a n : Nat) : (memRead fill m a n).length = n := by simp [memRead]
  have hlow := natOfBytes_lt (memRead fill m a o)
  have hmid := natOfBytes_lt (memRead fill m (a + o) n)
  rw [hlen] at hlow hmid
  rw [memRead_add, natOfBytes_append, hlen, memRead_add, natOfBytes_append, hlen]
  exact bitsOf_bytes hlow hmid _

/-- An offset in the shared RAM lies in its block as the address does. -/
theorem targetOf_ram_mod {a off : Nat} (h : targetOf a = .ram off) : off % 128 = a % 128 := by
  unfold targetOf at h
  split_ifs at h with hpocket _ _ hram
  · extract_lets c i at h
    split at h <;> simp only [reduceCtorEq] at h
  · have hoff := Target.ram.inj h
    omega

/-- The shared RAM gives the block that holds an address. -/
theorem readBlock_ram {a off : Nat} (h : targetOf a = .ram off) (m : Nat) :
    readBlock m a s = (.data (natOfBytes (memRead ramFill s.foreman.ram (off - off % 128) 128)), s) := by
  simp only [readBlock, h, accessError, ne_eq, not_true_eq_false, if_false]

theorem readSpan_ram {a off : Nat} (h : targetOf a = .ram off) {len : Nat} (hlen : off % 128 + len ≤ 128) (m : Nat) :
    readSpan m a len s = (.data (natOfBytes (memRead ramFill s.foreman.ram off len)), s) := by
  have hmod := targetOf_ram_mod h
  have hblock : 128 = off % 128 + (len + (128 - off % 128 - len)) := by omega
  have hbytes := bitsOf_memRead ramFill s.foreman.ram (off - off % 128) (off % 128) len (128 - off % 128 - len)
  rw [← hblock, Nat.sub_add_cancel (Nat.mod_le ..)] at hbytes
  simp only [readSpan, readBlock_ram s h, ← hmod, hlen, if_true, hbytes]

/-! ### What reads leave of the masters -/

/-- A block access of a Pocket leaves the haul road alone. -/
theorem pocketBlock_haul (pk blk : Nat) (op : BlockOp) : (pocketBlock pk blk op s).2.haul = s.haul :=
  (congrArg State.haul (pocketBlock_blockOnly s pk blk op).1 :)

theorem readBlock_haul (m a : Nat) : (readBlock m a s).2.haul = s.haul := by
  unfold readBlock
  extract_lets e
  split
  · rfl
  · split
    · next pk off _ =>
      have hkept := pocketBlock_haul s pk (off / 128) .read
      split <;> simp_all
    · rfl
    · split <;> rfl
    · rfl

theorem readSpan_haul (m a len : Nat) : (readSpan m a len s).2.haul = s.haul := by
  have hfirst := readBlock_haul s m a
  unfold readSpan
  extract_lets o
  split
  · next d t hread =>
    rw [hread] at hfirst
    split
    · exact hfirst
    · have hsecond := (readBlock_haul t m (a - o + 128)).trans hfirst
      split
      · next hread' => rwa [hread'] at hsecond
      · exact hsecond
  · exact hfirst

theorem readDesc_haul (h a : Nat) : (readDesc h a s).2.haul = s.haul := by
  unfold readDesc
  split
  · exact readSpan_haul s h a 32
  · split
    · rfl
    · exact readSpan_haul s h a 32
  · rfl

/-- What a target stages leaves the masters alone. -/
theorem stageOne_haul (m : Nat) (r : ReadReq) : (stageOne m r s).2.haul = s.haul := by
  unfold stageOne
  extract_lets beat
  split
  · exact readDesc_haul s m r.addr
  · exact readSpan_haul s m r.addr _
  · exact readSpan_haul s m r.addr _
  · split
    · extract_lets e p w x rem n b
      split
      · rfl
      · split <;> rfl
    · exact readBlock_haul s m r.addr

/-! ### Beats staged (10_haulers R220, 06_pockets R129) -/

theorem stageOne_seq_ram {r : ReadReq} {off : Nat} (hkind : r.kind = .seq) (h : targetOf r.addr = .ram off) (m : Nat) : stageOne m r s =
    (some { data := natOfBytes (memRead ramFill s.foreman.ram (off - off % 128) 128) >>> (8 * (off % 128))
            bytes := 128 - off % 128, addr := r.addr }, s) := by
  simp only [stageOne, hkind, h, readBlock_ram s h, stagedAnswer, ReadReq.blocks, targetOf_ram_mod h]

theorem stageOne_desc_ram {r : ReadReq} {off : Nat} (hkind : r.kind = .desc) (h : targetOf r.addr = .ram off) (hoff : off % 128 ≤ 96)
    (m : Nat) : stageOne m r s =
      (some { data := natOfBytes (memRead ramFill s.foreman.ram off 32), bytes := 32, kind := .desc, addr := r.addr }, s) := by
  simp only [stageOne, hkind, readDesc, h, readSpan_ram s h (show off % 128 + 32 ≤ 128 by omega), stagedAnswer, ReadReq.blocks]

/-- A descriptor in no memory that holds one, or in a Pocket that is not on the haul road (10_haulers R225). -/
theorem readDesc_of_nowhere {a : Nat} (hram : ∀ off, targetOf a ≠ .ram off)
    (hpocket : ∀ pk off, targetOf a = .pocket pk off → pocketBits s.cfg (pk / 112) (pk % 112) 6 1 = 0) (h : Nat) :
    readDesc h a s = (.fails herrFetch 0, s) := by
  unfold readDesc
  split
  · next off htarget => exact absurd htarget (hram off)
  · next pk off htarget => exact if_pos (hpocket pk off htarget)
  · rfl

theorem stageOne_desc_nowhere {r : ReadReq} (hkind : r.kind = .desc) (hram : ∀ off, targetOf r.addr ≠ .ram off)
    (hpocket : ∀ pk off, targetOf r.addr = .pocket pk off → pocketBits s.cfg (pk / 112) (pk % 112) 6 1 = 0) (m : Nat) :
    stageOne m r s = (some { data := 0, bytes := 0, kind := .desc, code := herrFetch, addr := r.addr }, s) := by
  simp only [stageOne, hkind, readDesc_of_nowhere s hram hpocket, stagedAnswer, ReadReq.blocks]

/-- A burst read once its next beat is staged; a portal's beats that are still wanted are counted again (10_haulers R228). -/
def Hauler.readStaged (v : Hauler) (r : ReadReq) (b : StagedBeat) : ReadReq :=
  match targetOf r.addr with
  | .portal _ =>
    let n := (v.portalWants - b.bytes + 127) / 128
    { r with stage := n, left := r.left - r.stage + 1 + n }
  | _ => { r with stage := r.stage - 1, addr := r.addr - r.addr % 128 + 128 }

theorem readStaged_of_memory {r : ReadReq} (h : ∀ k, targetOf r.addr ≠ .portal k) (v : Hauler) (b : StagedBeat) :
    v.readStaged r b = { r with stage := r.stage - 1, addr := r.addr - r.addr % 128 + 128 } := by
  unfold Hauler.readStaged
  split
  · next k htarget => exact absurd htarget (h k)
  · rfl

/-- A beat joins those staged (10_haulers R220). -/
theorem stagedBeat_staged {u : State} {m : Nat} (hu : u.haul = s.haul) (b : StagedBeat) (i : Nat) (r : ReadReq) :
    let v := s.master m
    let t := u.modMaster m fun w => { w with staged := w.staged ++ [b], opened := w.opened.set i (v.readStaged r b) }
    (t.master m).staged = v.staged ++ [b] ∧
      ((∀ k, targetOf r.addr ≠ .portal k) → (t.master m).opened =
        v.opened.set i { r with stage := r.stage - 1, addr := r.addr - r.addr % 128 + 128 }) ∧
      { t.master m with staged := v.staged, opened := v.opened } = v ∧ t.haul.used = s.haul.used ∧ MasterOnly m u t := by
  intro v t
  have hv : u.master m = v := congrArg (fun w : Haul => tabGet ({} : Hauler) w.chans m) hu
  obtain ⟨honly, hused⟩ := modMaster_step u m fun w => { w with staged := w.staged ++ [b], opened := w.opened.set i (v.readStaged r b) }
  have hmaster : t.master m = { v with staged := v.staged ++ [b], opened := v.opened.set i (v.readStaged r b) } := by
    rw [modMaster_master, hv]
  rw [hmaster]
  exact ⟨rfl, fun h => by rw [readStaged_of_memory h], rfl, hused.trans (congrArg Haul.used hu), honly⟩

section

variable {s} {m : Nat}

theorem stageBeat_of_none (h : s.blocksRun = false ∨ (s.master m).opened.findIdx? (fun r => decide (0 < r.stage)) = none) :
    stageBeat m s = s := by
  rw [stageBeat]
  split
  · next hruns => rw [h.resolve_left (by simp [hruns])]
  · rfl

variable {i : Nat} {r : ReadReq} (hruns : s.blocksRun = true)
  (hi : (s.master m).opened.findIdx? (fun r => decide (0 < r.stage)) = some i) (hr : (s.master m).opened[i]? = some r)
include hruns hi hr

theorem stageBeat_of_full (hroom : s.stageRoom r = false) : stageBeat m s = s := by
  simp only [stageBeat, hruns, hi, hr, hroom, Bool.false_eq_true, if_true, if_false]

theorem stageBeat_of_waits (hroom : s.stageRoom r = true) (hq : (stageOne m r s).1 = none) : stageBeat m s = (stageOne m r s).2 := by
  simp only [stageBeat, hruns, hi, hr, hroom, if_true]
  split
  · next h => rw [h]
  · next h => simp [h] at hq

theorem stageBeat_of_beat (hroom : s.stageRoom r = true) {b : StagedBeat} (hq : (stageOne m r s).1 = some b) : stageBeat m s =
    (stageOne m r s).2.modMaster m fun v =>
      { v with staged := v.staged ++ [b], opened := v.opened.set i ((s.master m).readStaged r b) } := by
  simp only [stageBeat, hruns, hi, hr, hroom, if_true]
  split
  · next h => simp [h] at hq
  · next h =>
    rw [h] at hq ⊢
    injection hq with hq
    subst hq
    rfl

end

end Sys2Proof.Machine
end

section
/-! The statement about descriptor fetches, burst read requests and staged beats. -/

open Sys2Proof Sys2Proof.Machine

/-- Settles O37: the cases of each command are `descriptorFetch_of_…`, `burstRequest_of_…` and `stageBeat_of_…`; a fetch that fails is a halt
without a descriptor (`slotHalt_halts`), and what a target stages leaves the masters alone (`stageOne_haul`). -/
theorem haulerReads : Obligations.HaulerReads := by
  unfold Obligations.HaulerReads
  refine ⟨fun h s => ?_, fun m s => ?_⟩
  · intro v on halted
    have hm := h.isLt
    simp only [halted, exec_descriptorFetch]
    refine ⟨fun hoff => congrArg _ (descriptorFetch_of_off hoff),
      fun hon hstaged => ⟨_, congrArg _ (descriptorFetch_of_unstaged hon hstaged), fetchRetry_retries s hm⟩,
      fun b rest hon hstaged hcode => ⟨_, congrArg _ (descriptorFetch_of_unread hon hstaged hcode), slotHalt_halts s hm rfl ..⟩,
      fun b rest hon hstaged hcode => ⟨fun hbad =>
        ⟨_, congrArg _ (descriptorFetch_of_bad hon hstaged hcode hbad), slotHalt_halts s hm rfl ..⟩, fun hgood =>
        ⟨_, congrArg _ (descriptorFetch_of_good hon hstaged hcode hgood), fetchRun_runs s _ rfl rfl⟩⟩⟩
  · intro v may
    simp only [exec_burstReadRequest, exec_targetBeatStaged]
    refine ⟨fun h => congrArg _ (burstRequest_of_none h),
      fun r rest hmay hw => ⟨_, congrArg _ (burstRequest_of_waiting hmay hw), modMaster_master .., ?_, ?_,
        (s.asked_only _).trans (modMaster_step ..).only⟩,
      fun h => congrArg _ (stageBeat_of_none h), fun i r hruns hi hr =>
        ⟨fun hroom => congrArg _ (stageBeat_of_full hruns hi hr hroom), fun hroom hq => congrArg _ (stageBeat_of_waits hruns hi hr hroom hq),
          fun b hroom hq => ⟨_, congrArg _ (stageBeat_of_beat hruns hi hr hroom hq), ?_⟩,
          fun off hkind htarget => stageOne_seq_ram s hkind htarget m.val,
          fun off hkind htarget hoff => stageOne_desc_ram s hkind htarget hoff m.val,
          fun hkind hram hpocket => stageOne_desc_nowhere s hkind hram hpocket m.val⟩⟩
    · rw [State.modMaster_haul]
      rfl
    · rw [State.modMaster_haul]
      rfl
    · exact stagedBeat_staged s (stageOne_haul s ..) b i r

end

section
/-! SUPPORT. One slot of a transfer (10_haulers R222, R226, R227, R230): what a source beat taken and elements converted leave of a master, the
destination beat in the shared RAM, and the ends of bursts and descriptors. -/

namespace Sys2Proof.Machine

variable (s : State)

theorem exec_haulerBeat (h : Fin 64) : exec (.haulerBeat h) s = .next (masterBeat h.val s) := rfl

/-! ### The element stream (10_haulers R227) -/

/-- A master without its stream of bits: those in hand, those converted, and how many elements these are. -/
def Hauler.besideStream (v : Hauler) : Hauler := { v with hold := 0, holdLen := 0, conv := 0, out := 0, outLen := 0 }

theorem convert_besideStream (need fuel : Nat) (v : Hauler) : (convert need fuel v).besideStream = v.besideStream := by
  induction fuel generalizing v with
  | zero => rfl
  | succ fuel ih =>
    rw [convert]
    split
    · exact ih _
    · rfl

/-- A master without what a source beat taken changes. -/
def Hauler.besideSource (v : Hauler) : Hauler :=
  { v with hold := 0, holdLen := 0, lastLen := 0, sb := 0, staged := [], opened := [], marks := [] }

/-- A beat of sequential bytes that ends nothing (10_haulers R228). -/
def StagedBeat.plain (b : StagedBeat) : Prop :=
  b.nv = false ∧ b.code = 0 ∧ b.kind = .seq ∧ b.err = false ∧ b.bad = false ∧ b.eop = false

/-- A master whose source is read, has not failed, and gives sequential bytes that end nothing. -/
structure Hauler.ReadsPlain (v : Hauler) : Prop where
  sound : v.failed = none
  read : v.popsSource = false
  plain : ∀ b rest, v.staged = b :: rest → b.plain

theorem takeSeq_besideSource {v : Hauler} {b : StagedBeat} (hpops : v.popsSource = false) (hb : b.plain) :
    (takeSeq v b false).besideSource = v.besideSource := by
  obtain ⟨-, -, hkind, herr, hbad, heop⟩ := hb
  simp only [takeSeq, hkind, hpops, herr, hbad, heop, Bool.or_self, Bool.false_and, Bool.false_eq_true, if_false]
  split <;> rfl

/-- The master once its slot has taken a source beat, where one is staged and wanted. -/
def Hauler.taken (v : Hauler) : Hauler :=
  match v.staged with
  | b :: _ => if v.wants then takeSeq v b false else v
  | [] => v

theorem taken_besideSource {v : Hauler} (h : v.ReadsPlain) : v.taken.besideSource = v.besideSource := by
  unfold Hauler.taken
  split
  · next b rest hstaged =>
    split
    · exact takeSeq_besideSource h.read (h.plain b rest hstaged)
    · rfl
  · rfl

/-! ### The source side of a slot (10_haulers R222) -/

section

variable {s} {m : Nat} (hfailed : (s.master m).failed = none) (hpops : (s.master m).popsSource = false)
include hfailed hpops

theorem sourceSide_of_unstaged (hstaged : (s.master m).staged = []) : sourceSide m s = (false, s) := by
  simp [sourceSide, hfailed, hpops, hstaged]

theorem sourceSide_of_staged {b : StagedBeat} {rest : List StagedBeat} (hstaged : (s.master m).staged = b :: rest) (hb : b.plain) :
    sourceSide m s = if (s.master m).wants then (true, s.modMaster m fun v => takeSeq v b false) else (false, s) := by
  obtain ⟨hnv, hcode, hkind, -⟩ := hb
  simp [sourceSide, hfailed, hpops, hstaged, hnv, hcode, hkind]

omit hfailed hpops in
/-- A slot takes the source beat that is staged and wanted, and nothing else of its master changes. -/
theorem sourceSide_takes (h : (s.master m).ReadsPlain) : ∃ a u, sourceSide m s = (a, u) ∧ u.master m = (s.master m).taken ∧ MasterStep m s u := by
  unfold Hauler.taken
  cases hstaged : (s.master m).staged with
  | nil => exact ⟨false, s, sourceSide_of_unstaged h.sound h.read hstaged, rfl, .refl s m⟩
  | cons b rest =>
    rw [sourceSide_of_staged h.sound h.read hstaged (h.plain b rest hstaged)]
    cases hwants : (s.master m).wants with
    | false => exact ⟨false, s, rfl, rfl, .refl s m⟩
    | true => exact ⟨true, _, rfl, modMaster_master .., modMaster_step ..⟩

end

/-! ### The destination beat (10_haulers R222) -/

/-- A state with other contents of the Foreman's RAM. -/
def State.withRam (ram : Mem) : State := { s with foreman := { s.foreman with ram := ram } }

theorem MasterStep.withRam {s t : State} {m : Nat} (h : MasterStep m s t) (ram : Mem) : MasterStep m (s.withRam ram) (t.withRam ram) := by
  obtain ⟨⟨hothers, hregs, hbeside⟩, hused⟩ := h
  exact ⟨⟨hothers, hregs, (congrArg (fun v : State => besideFlags (v.withRam ram)) hbeside :)⟩, hused⟩

theorem MasterStep.foreman {s t : State} {m : Nat} (h : MasterStep m s t) : t.foreman = s.foreman :=
  (congrArg State.foreman h.only.2.2 :)

/-- Bytes within one block of the shared RAM are written. -/
theorem writeSpan_ram {a off len : Nat} (h : targetOf a = .ram off) (hlen : a % 128 + len ≤ 128) (m d : Nat) :
    writeSpan m a len d s = (.data 0, s.withRam (memWrite ramFill s.foreman.ram off (bytesOf d len))) := by
  simp only [writeSpan, hlen, if_true, writeBlock, h, accessError, ne_eq, not_true_eq_false, if_false]
  rfl

theorem writeBeat_ram {a off nb m : Nat} (h : targetOf a = .ram off) (hlen : a % 128 + (nb - (s.master m).db) ≤ 128) (d : Nat) (first last : Bool) :
    writeBeat m a nb d first last s =
      (.data 0, s.withRam (memWrite ramFill s.foreman.ram off (bytesOf d (nb - (s.master m).db)))) := by
  simp only [writeBeat, h, writeSpan_ram s h hlen]

/-- The bits that the next destination beat of a sequential destination wants. -/
def Hauler.beatBits (v : Hauler) : Nat := 8 * (v.beatEnd v.db - v.db)

/-- The master with what its next destination beat is made of converted. -/
def Hauler.made (v : Hauler) : Hauler := convert v.beatBits 1024 v

theorem made_besideStream (v : Hauler) : v.made.besideStream = v.besideStream := convert_besideStream ..

@[simp] theorem made_hd (v : Hauler) (w lo len : Nat) : v.made.hd w lo len = v.hd w lo len :=
  (congrArg (fun u : Hauler => u.hd w lo len) (made_besideStream v) :)
@[simp] theorem made_ixm (v : Hauler) : v.made.ixm = v.ixm := (congrArg Hauler.ixm (made_besideStream v) :)
@[simp] theorem made_db (v : Hauler) : v.made.db = v.db := (congrArg Hauler.db (made_besideStream v) :)
@[simp] theorem made_sb (v : Hauler) : v.made.sb = v.sb := (congrArg Hauler.sb (made_besideStream v) :)
@[simp] theorem made_dst (v : Hauler) : v.made.dst = v.dst := (congrArg Hauler.dst (made_besideStream v) :)
@[simp] theorem made_extent (v : Hauler) : v.made.extent = v.extent := (congrArg Hauler.extent (made_besideStream v) :)
@[simp] theorem made_total (v : Hauler) : v.made.total = v.total := (congrArg Hauler.total (made_besideStream v) :)
@[simp] theorem made_count (v : Hauler) : v.made.count = v.count := (congrArg Hauler.count (made_besideStream v) :)
@[simp] theorem made_pkt (v : Hauler) : v.made.pkt = v.pkt := (congrArg Hauler.pkt (made_besideStream v) :)
@[simp] theorem made_stop (v : Hauler) : v.made.stop = v.stop := (congrArg Hauler.stop (made_besideStream v) :)
@[simp] theorem made_pause (v : Hauler) : v.made.pause = v.pause := (congrArg Hauler.pause (made_besideStream v) :)
@[simp] theorem made_desc (v : Hauler) : v.made.desc = v.desc := (congrArg Hauler.desc (made_besideStream v) :)
@[simp] theorem made_stopErr (v : Hauler) : v.made.stopErr = v.stopErr := (congrArg Hauler.stopErr (made_besideStream v) :)
@[simp] theorem made_failed (v : Hauler) : v.made.failed = v.failed := (congrArg Hauler.failed (made_besideStream v) :)
@[simp] theorem made_st (v : Hauler) : v.made.st = v.st := (congrArg Hauler.st (made_besideStream v) :)

/-- A beat in a memory stays within a block. -/
theorem beatEnd_block {v : Hauler} (hmem : (targetOf v.dst).memory = true) :
    (v.dst + v.db) % 128 + (v.beatEnd v.db - v.db) ≤ 128 := by
  rw [Hauler.beatEnd, if_pos hmem]
  omega

/-- A master whose next destination beat, of sequential elements that make no packet, lies in the shared RAM at an offset. -/
structure Hauler.FillsRam (v : Hauler) (off : Nat) : Prop where
  sequential : v.ixm = 0
  stream : v.pkt = false
  within : v.db < v.extent
  memory : (targetOf v.dst).memory = true
  target : targetOf (v.dst + v.db) = .ram off

/-- The source side leaves the destination beat where it is. -/
theorem Hauler.FillsRam.congr {v w : Hauler} {off : Nat} (h : v.FillsRam off) (hw : w.besideSource = v.besideSource) :
    w.FillsRam off := by
  have hbeside : w.besideSource.FillsRam off := hw ▸ ⟨h.sequential, h.stream, h.within, h.memory, h.target⟩
  exact ⟨hbeside.sequential, hbeside.stream, hbeside.within, hbeside.memory, hbeside.target⟩

theorem nextBeat_of_sequential {v : Hauler} (h : v.ixm = 0) : v.nextBeat = (v.beatEnd v.db, v.beatBits) := by
  have hnot : ¬ v.ixm = 2 := by omega
  simp only [Hauler.nextBeat, if_neg hnot, Hauler.beatBits]

/-- Two changes of a master that agree on it. -/
theorem modMaster_congr {m : Nat} {f g : Hauler → Hauler} (h : f (s.master m) = g (s.master m)) : s.modMaster m f = s.modMaster m g := by
  rw [State.modMaster, tabMod, State.modMaster, tabMod]
  exact congrArg (fun v => showHauler m { s with haul := { s.haul with chans := tabSet {} s.haul.chans m v } }) h

/-- The conversion of a slot, as a change of the master. -/
theorem modMaster_convert (m : Nat) : s.modMaster m (convert (s.master m).beatBits 1024) = s.modMaster m Hauler.made :=
  modMaster_congr s rfl

section

variable {s} {m : Nat}

/-- A whole beat for the shared RAM is written there, and the master moves on. -/
theorem destSide_writes {off : Nat} (h : (s.master m).FillsRam off) (hwhole : (s.master m).beatBits ≤ (s.master m).made.outLen ∨
      (s.master m).extent ≤ (s.master m).beatEnd (s.master m).db ∧ (s.master m).made.conv = (s.master m).made.total) :
    destSide m s = (true, wroteBeat m ((s.master m).beatEnd (s.master m).db) ((s.modMaster m Hauler.made).withRam
      (memWrite ramFill s.foreman.ram off (bytesOf ((s.master m).made.out % 2 ^ (s.master m).beatBits)
        ((s.master m).beatEnd (s.master m).db - (s.master m).db))))) := by
  obtain ⟨hixm, hpkt, hdb, hmem, htarget⟩ := h
  have hbeat (d : Nat) (first last : Bool) := writeBeat_ram (s.modMaster m Hauler.made) (nb := (s.master m).beatEnd (s.master m).db)
    (m := m) htarget (by rw [modMaster_master, made_db]; exact beatEnd_block hmem) d first last
  rw [modMaster_master, made_db, (modMaster_step s m Hauler.made).foreman] at hbeat
  rw [destSide, nextBeat_of_sequential hixm]
  dsimp only
  rw [modMaster_convert]
  rw [made_total] at hwhole
  rcases hwhole with hwhole | hwhole <;> simp [modMaster_master, hixm, hpkt, hmem, hwhole, hbeat, Nat.not_le.2 hdb]

/-- With no whole beat in hand, and none to come of what has failed, the destination side does nothing. -/
theorem destSide_waits (hixm : (s.master m).ixm = 0) (hdb : (s.master m).db < (s.master m).extent) (hfailed : (s.master m).failed = none)
    (hshort : (s.master m).made.outLen < (s.master m).beatBits) (hconv : (s.master m).made.conv ≠ (s.master m).made.total) :
    destSide m s = (false, s.modMaster m Hauler.made) := by
  rw [destSide, nextBeat_of_sequential hixm]
  dsimp only
  rw [modMaster_convert]
  rw [made_total] at hconv
  simp [modMaster_master, hixm, hfailed, hconv, Nat.not_le.2 hshort, Nat.not_le.2 hdb]

end

/-! ### A beat written (10_haulers R226, R230) -/

/-- The master moved past the destination bytes below `nb`. -/
def Hauler.wrote (nb : Nat) (v : Hauler) : Hauler :=
  { v with out := v.out / 2 ^ (8 * (nb - v.db)), outLen := v.outLen - 8 * (nb - v.db), db := nb
           left := v.count - v.movedAt nb, marks := v.marks.filter (8 * nb < ·.1)
           idx := if v.ixm = 2 then v.idx.drop 1 else v.idx }

section

variable {s} {m nb : Nat}

theorem wroteBeat_eq : wroteBeat m nb s =
    if (s.master m).extent ≤ nb then finishTransfer m (s.modMaster m (Hauler.wrote nb))
    else if (s.master m).burst.getD 0 ≤ nb then endBurst m (s.modMaster m (Hauler.wrote nb))
    else s.modMaster m (Hauler.wrote nb) := by
  have hmaster : (s.modMaster m (Hauler.wrote nb)).master m = (s.master m).wrote nb := modMaster_master ..
  have hext : ((s.master m).wrote nb).extent = (s.master m).extent := rfl
  have hburst : ((s.master m).wrote nb).burst = (s.master m).burst := rfl
  rw [← hext, ← hburst, ← hmaster]
  rfl

/-- A burst ends where no stop waits: the next one's reads may be asked for ahead. -/
theorem endBurst_of_running (h : (s.master m).stop = false) :
    endBurst m s = requestAhead m (s.modMaster m fun v => { v with burst := none, skip := v.hd 5 16 8 }) := by
  simp only [endBurst, h, Bool.false_and, Bool.false_eq_true, if_false]

/-- A beat that is not the last of its descriptor moves the master past it, whether or not its burst ends there. -/
theorem wroteBeat_passes (hstop : (s.master m).stop = false) (hnb : nb < (s.master m).extent) :
    let v := s.master m
    let t := wroteBeat m nb s
    (t.master m).db = nb ∧ (t.master m).sb = v.sb ∧ (t.master m).left = v.count - v.movedAt nb ∧ MasterStep m s t := by
  intro v t
  let u := s.modMaster m (Hauler.wrote nb)
  have hu : u.master m = v.wrote nb := modMaster_master ..
  by_cases hburst : v.burst.getD 0 ≤ nb
  · have ht : t = requestAhead m (u.modMaster m fun v => { v with burst := none, skip := v.hd 5 16 8 }) := by
      rw [← endBurst_of_running (show (u.master m).stop = false by rw [hu]; exact hstop)]
      exact wroteBeat_eq.trans ((if_neg (Nat.not_le.2 hnb)).trans (if_pos hburst))
    have hbeside := requestAhead_besideReads (u.modMaster m fun v => { v with burst := none, skip := v.hd 5 16 8 }) m
    rw [← ht, modMaster_master, hu] at hbeside
    refine ⟨(congrArg Hauler.db hbeside :), (congrArg Hauler.sb hbeside :), (congrArg Hauler.left hbeside :), ?_⟩
    rw [ht]
    exact ((modMaster_step ..).trans (modMaster_step ..)).trans (requestAhead_step ..)
  · have ht : t = u := wroteBeat_eq.trans ((if_neg (Nat.not_le.2 hnb)).trans (if_neg hburst))
    rw [ht, hu]
    exact ⟨rfl, rfl, rfl, modMaster_step ..⟩

/-! ### The end of a descriptor (10_haulers R226) -/

/-- What ends a descriptor shows beside the state of its master: its tag, and `DONE` where the descriptor asks for it. -/
def State.tagged (s : State) (m : Nat) : State :=
  let u := s.setReg .hchTag m ((s.master m).desc.getD 6 0)
  if (s.master m).hd 5 29 1 = 1 then flagHauler m 0 u else u

/-- The master past a descriptor that is not its last. -/
def Hauler.chained (v : Hauler) : Hauler :=
  { st := 1, left := v.left, pause := v.pause, skip := v.hd 5 16 8, cur := 32 * v.hd 7 5 27, desc := [] }

/-- The master past a descriptor: done after the last one, else in FETCH at the next, which it asks for unless a pause or a stop waits; a
stop alone takes effect here. -/
def Hauler.ended (v : Hauler) : Hauler :=
  if v.hd 7 0 1 = 1 then { cur := v.cur, left := v.left, desc := v.desc, st := 6 }
  else if v.pause then v.chained
  else if v.stop then { v.chained with st := 5 }
  else v.chained.askDesc

theorem ended_left (v : Hauler) : v.ended.left = v.left := by
  unfold Hauler.ended
  split
  · rfl
  · split
    · rfl
    · split <;> rfl

theorem ended_cur {v : Hauler} (h : v.hd 7 0 1 = 0) : v.ended.cur = 32 * v.hd 7 5 27 := by
  unfold Hauler.ended
  rw [if_neg (by omega)]
  split
  · rfl
  · split <;> rfl

theorem ended_st (v : Hauler) : v.ended.st = if v.hd 7 0 1 = 1 then 6 else if v.stop && !v.pause then 5 else 1 := by
  unfold Hauler.ended
  split
  · rfl
  · cases hpause : v.pause
    · cases hstop : v.stop <;> rfl
    · cases hstop : v.stop <;> rfl

/-- A stop takes effect at the end of the descriptor. -/
def Hauler.stopsAtEnd (v : Hauler) : Prop := v.hd 7 0 1 ≠ 1 ∧ v.pause = false ∧ v.stop = true

variable (hm : m < 64)
include hm

theorem tagged_eq : (if (s.master m).hd 5 29 1 = 1 then masterFlag m 0 (s.setReg .hchTag m ((s.master m).desc.getD 6 0))
    else s.setReg .hchTag m ((s.master m).desc.getD 6 0)) = s.tagged m := by
  rw [masterFlag_eq _ hm]
  rfl

theorem endDescriptor_of_going (h : ¬ (s.master m).stopsAtEnd) :
    endDescriptor m s = (s.tagged m).modMaster m fun _ => (s.master m).ended := by
  simp only [endDescriptor, hm, if_true, tagged_eq hm, Hauler.ended]
  split
  · simp only [hm.ne, decide_false, Bool.and_false]
  · next hlast =>
    split
    · rfl
    · next hpause =>
      have hstop : ¬ (s.master m).stop = true := fun hstop => h ⟨hlast, by simpa using hpause, hstop⟩
      rw [if_neg hstop, if_neg hstop]
      rfl

theorem endDescriptor_of_stop (h : (s.master m).stopsAtEnd) :
    endDescriptor m s = flagHauler m 3 ((s.tagged m).modMaster m fun _ => (s.master m).ended) := by
  obtain ⟨hlast, hpause, hstop⟩ := h
  simp only [endDescriptor, hm, if_true, tagged_eq hm, Hauler.ended, Hauler.chained, if_neg hlast, hpause, hstop, Bool.false_eq_true, if_false]
  exact masterFlag_eq _ hm 3

/-- The tag and the flag of a descriptor's end. -/
theorem tagged_shows : (s.tagged m).reg .hchTag m = (s.master m).desc.getD 6 0 ∧
    ((s.master m).hd 5 29 1 = 1 → (s.tagged m).bit .hchEvt m 0 = true) ∧ MasterStep m s (s.tagged m) := by
  have hset : MasterStep m s (s.setReg .hchTag m ((s.master m).desc.getD 6 0)) := setReg_step s hm (by decide) _
  unfold State.tagged
  extract_lets u
  split
  · refine ⟨?_, fun _ => flagHauler_bit u hm (by decide), hset.trans (flagHauler_step u hm 0)⟩
    rw [flagHauler_reg u hm (by decide) (by decide)]
    exact State.setReg_reg ..
  · next h => exact ⟨State.setReg_reg .., fun h' => absurd h' h, hset⟩

/-- The end of a descriptor (10_haulers R226). -/
theorem endDescriptor_ends : (endDescriptor m s).master m = (s.master m).ended ∧
    (endDescriptor m s).reg .hchTag m = (s.master m).desc.getD 6 0 ∧
    ((s.master m).hd 5 29 1 = 1 → (endDescriptor m s).bit .hchEvt m 0 = true) ∧ MasterStep m s (endDescriptor m s) := by
  obtain ⟨htag, hdone, hstep⟩ := tagged_shows (s := s) hm
  have hended : MasterStep m s ((s.tagged m).modMaster m fun _ => (s.master m).ended) := hstep.trans (modMaster_step ..)
  by_cases h : (s.master m).stopsAtEnd
  · rw [endDescriptor_of_stop hm h]
    refine ⟨?_, ?_, fun hasks => flagHauler_bit_of_set _ hm ?_ 3, hended.trans (flagHauler_step _ hm 3)⟩
    · rw [flagHauler_master]
      exact modMaster_master ..
    · rw [flagHauler_reg _ hm (by decide) (by decide), modMaster_reg _ hm (by decide), htag]
    · rw [modMaster_bit _ hm (by decide), hdone hasks]
  · rw [endDescriptor_of_going hm h]
    refine ⟨modMaster_master .., ?_, fun hasks => ?_, hended⟩
    · rw [modMaster_reg _ hm (by decide), htag]
    · rw [modMaster_bit _ hm (by decide), hdone hasks]

/-- The last beat of a descriptor without an error ends it. -/
theorem wroteBeat_ends (hlast : (s.master m).extent ≤ nb) (herr : (s.master m).stopErr = none) :
    let v := s.master m
    let t := wroteBeat m nb s
    (t.master m).st = (if v.hd 7 0 1 = 1 then 6 else if v.stop && !v.pause then 5 else 1) ∧
      (v.hd 7 0 1 = 0 → (t.master m).cur = 32 * v.hd 7 5 27) ∧ (t.master m).left = v.count - v.total ∧
      t.reg .hchTag m = v.desc.getD 6 0 ∧ (v.hd 5 29 1 = 1 → t.bit .hchEvt m 0 = true) ∧ MasterStep m s t := by
  intro v t
  let w : Hauler := { v.wrote nb with left := v.count - v.total }
  let u := (s.modMaster m (Hauler.wrote nb)).modMaster m fun v => { v with left := v.count - v.total }
  have hwrote : (s.modMaster m (Hauler.wrote nb)).master m = v.wrote nb := modMaster_master ..
  have hu : u.master m = w := by
    rw [modMaster_master, hwrote]
    rfl
  have ht : t = endDescriptor m u := by
    refine wroteBeat_eq.trans ((if_pos hlast).trans ?_)
    have herr' : (v.wrote nb).stopErr = none := herr
    simp only [finishTransfer, hwrote, herr']
    rfl
  obtain ⟨hmaster, htag, hdone, hstep⟩ := endDescriptor_ends (s := u) hm
  rw [← ht, hu] at hmaster htag hdone
  rw [← ht] at hstep
  refine ⟨?_, ?_, ?_, htag, hdone, ((modMaster_step ..).trans (modMaster_step ..)).trans hstep⟩
  · rw [hmaster]
    exact ended_st w
  · intro hmore
    rw [hmaster]
    exact ended_cur (v := w) hmore
  · rw [hmaster]
    exact ended_left w

end

end Sys2Proof.Machine
end

section
/-! SUPPORT. The slots of a channel (10_haulers R222, R230, R232): what its slot is used for between bursts and in one. -/

namespace Sys2Proof.Machine

variable {s : State} {m : Nat}

/-! ### One slot of a transfer -/

theorem transferSlot_of_used {a : Bool} {u t : State} (hsource : sourceSide m s = (a, u)) (hrun : (u.master m).st = 2)
    (hdest : destSide m u = (true, t)) : transferSlot m s = t := by
  simp only [transferSlot, hsource, hrun, hdest, ne_eq, not_true_eq_false, if_false, Bool.or_true, Bool.true_or, if_true]

/-- A slot in which neither side has anything to do is a retry (10_haulers R222). -/
theorem transferSlot_of_idle {u t : State} (hsource : sourceSide m s = (false, u)) (hrun : (u.master m).st = 2)
    (hdest : destSide m u = (false, t)) (hrun' : (t.master m).st = 2) (hretry : t.reg .hchRetry m = s.reg .hchRetry m) :
    transferSlot m s = countRetry m t := by
  simp [transferSlot, hsource, hrun, hdest, hrun', hretry]

/-- The Foreman's RAM with the next destination beat of a master written at an offset, made with the source beat that its slot takes. -/
def State.ramAfter (s : State) (m off : Nat) : Mem :=
  memWrite ramFill s.foreman.ram off (bytesOf ((s.master m).taken.made.out % 2 ^ (s.master m).beatBits)
    ((s.master m).beatEnd (s.master m).db - (s.master m).db))

/-- A move in a used slot that began with a write of the RAM. -/
theorem MasterStep.ofRam {t : State} {ram : Mem} (h : MasterStep m (useSlot (s.withRam ram)) t) :
    t.foreman.ram = ram ∧ t.haul.used = s.clocks.sys + 1 ∧ MasterOnly m (s.withRam t.foreman.ram) t := by
  have hram : t.foreman.ram = ram := congrArg Foreman.ram h.foreman
  rw [hram]
  exact ⟨rfl, h.ofSlot⟩

/-- A slot with a whole destination beat in hand, after the source beat that it takes, writes it to the shared RAM. -/
theorem transferSlot_writes {off : Nat} (hrun : (s.master m).st = 2) (hreads : (s.master m).ReadsPlain) (hfills : (s.master m).FillsRam off)
    (hwhole : (s.master m).beatBits ≤ (s.master m).taken.made.outLen ∨
      (s.master m).extent ≤ (s.master m).beatEnd (s.master m).db ∧ (s.master m).taken.made.conv = (s.master m).taken.made.total) :
    ∃ w, transferSlot m s = wroteBeat m ((s.master m).beatEnd (s.master m).db) w ∧ w.master m = (s.master m).taken.made ∧
      MasterStep m (s.withRam (s.ramAfter m off)) w := by
  let v := s.master m
  have hv : v.taken.besideSource = v.besideSource := taken_besideSource hreads
  obtain ⟨a, u, hsource, hu, hstep⟩ := sourceSide_takes hreads
  have hst : (u.master m).st = v.st := by rw [hu]; exact (congrArg Hauler.st hv :)
  have hat : (u.master m).db = v.db := by rw [hu]; exact (congrArg Hauler.db hv :)
  have hext : (u.master m).extent = v.extent := by rw [hu]; exact (congrArg Hauler.extent hv :)
  have hend : (u.master m).beatEnd v.db = v.beatEnd v.db := by rw [hu]; exact (congrArg (fun w : Hauler => w.beatEnd v.db) hv :)
  have hbits : (u.master m).beatBits = v.beatBits := by rw [hu]; exact (congrArg Hauler.beatBits hv :)
  have hdest := destSide_writes (s := u) (m := m) (hu ▸ hfills.congr hv) (by rw [hbits, hext, hat, hend, hu]; exact hwhole)
  rw [hat, hend, hbits, hu, hstep.foreman] at hdest
  refine ⟨_, transferSlot_of_used hsource (hst.trans hrun) hdest, ?_, (hstep.trans (modMaster_step ..)).withRam _⟩
  rw [← hu]
  exact modMaster_master u m Hauler.made

/-- A slot with nothing staged and no whole beat in hand is a retry. -/
theorem transferSlot_retries (hm : m < 64) (hrun : (s.master m).st = 2) (hfailed : (s.master m).failed = none)
    (hpops : (s.master m).popsSource = false) (hixm : (s.master m).ixm = 0) (hdb : (s.master m).db < (s.master m).extent)
    (hstaged : (s.master m).staged = []) (hshort : (s.master m).made.outLen < (s.master m).beatBits)
    (hconv : (s.master m).made.conv ≠ (s.master m).made.total) :
    (transferSlot m s).master m = (s.master m).made ∧ CountedOne .hchRetry m s (transferSlot m s) ∧ MasterStep m s (transferSlot m s) := by
  have hmade : (s.modMaster m Hauler.made).master m = (s.master m).made := modMaster_master ..
  have hretry : (s.modMaster m Hauler.made).reg .hchRetry m = s.reg .hchRetry m := modMaster_reg s hm (by decide) _
  have hslot : transferSlot m s = countRetry m (s.modMaster m Hauler.made) :=
    transferSlot_of_idle (sourceSide_of_unstaged hfailed hpops hstaged) hrun (destSide_waits hixm hdb hfailed hshort hconv)
      (by rw [hmade, made_st, hrun]) hretry
  obtain ⟨hcount, hstep, hmaster⟩ := countRetry_counts (s.modMaster m Hauler.made) hm
  rw [← hslot] at hcount hstep hmaster
  exact ⟨hmaster.trans hmade, by rwa [CountedOne, ← hretry], (modMaster_step ..).trans hstep⟩

/-! ### The slots of a channel -/

/-- A channel in RUN or WAIT_REQ in its own usable slot. -/
def State.beats (s : State) (m : Nat) : Prop := s.slotFree m = true ∧ ((s.master m).st = 2 ∨ (s.master m).st = 3)

theorem masterBeat_of_off (h : ¬ s.beats m) : masterBeat m s = s := if_neg h

section

variable (hon : s.beats m)
include hon

theorem masterBeat_of_burst (hburst : (s.master m).burst.isSome = true) : masterBeat m s = transferSlot m (useSlot s) := by
  refine (if_pos hon).trans (if_neg ?_)
  simp [Option.isNone_iff_eq_none, Option.isSome_iff_ne_none.1 hburst]

/-- The slot of a burst with a whole destination beat in hand writes it to the shared RAM. -/
theorem masterBeat_writes {off : Nat} (hburst : (s.master m).burst.isSome = true) (hrun : (s.master m).st = 2)
    (hreads : (s.master m).ReadsPlain) (hfills : (s.master m).FillsRam off)
    (hwhole : (s.master m).beatBits ≤ (s.master m).taken.made.outLen ∨
      (s.master m).extent ≤ (s.master m).beatEnd (s.master m).db ∧ (s.master m).taken.made.conv = (s.master m).taken.made.total) :
    ∃ w, masterBeat m s = wroteBeat m ((s.master m).beatEnd (s.master m).db) w ∧ w.master m = (s.master m).taken.made ∧
      MasterStep m (useSlot (s.withRam (s.ramAfter m off))) w := by
  rw [masterBeat_of_burst hon hburst]
  exact transferSlot_writes (s := useSlot s) hrun hreads hfills hwhole

variable (hburst : (s.master m).burst = none)
include hburst

theorem masterBeat_of_pause (hpause : (s.master m).pause = true) : masterBeat m s = useSlot s :=
  (if_pos hon).trans ((if_pos (by simp [hburst])).trans (if_pos hpause))

variable (hpause : (s.master m).pause = false)
include hpause

theorem masterBeat_of_skip (hskip : 0 < (s.master m).skip) :
    masterBeat m s = requestAhead m ((useSlot s).modMaster m fun v => { v with skip := v.skip - 1 }) :=
  (if_pos hon).trans ((if_pos (by simp [hburst])).trans ((if_neg (by simp [hpause])).trans (if_pos hskip)))

theorem masterBeat_of_unpaced (hskip : (s.master m).skip = 0) (hpaced : s.paced (s.master m) = false) :
    masterBeat m s = (useSlot s).modMaster m fun v => { v with st := 3 } :=
  (if_pos hon).trans ((if_pos (by simp [hburst])).trans ((if_neg (by simp [hpause])).trans ((if_neg (by simp [hskip])).trans
    (if_neg (show ¬ s.paced (s.master m) = true by simp [hpaced])))))

end

/-- A destination beat that leaves more of its descriptor goes forward. -/
theorem le_beatEnd {v : Hauler} (h : v.beatEnd v.db < v.extent) : v.db ≤ v.beatEnd v.db := by
  unfold Hauler.beatEnd at h ⊢
  extract_lets at h ⊢
  split at h
  · next hmem =>
    rw [if_pos hmem]
    omega
  · next hmem =>
    rw [if_neg hmem]
    omega

/-- An idle slot counts `SKIP` down (10_haulers R230). -/
theorem skippedSlot_counts (m : Nat) :
    let v := s.master m
    let t := requestAhead m ((useSlot s).modMaster m fun v => { v with skip := v.skip - 1 })
    (t.master m).skip = v.skip - 1 ∧
      { t.master m with skip := v.skip, waiting := v.waiting, ahead := v.ahead, elems := v.elems } = v ∧ MasterOnly m s t := by
  intro v t
  have hbeside := requestAhead_besideReads ((useSlot s).modMaster m fun v => { v with skip := v.skip - 1 }) m
  rw [modMaster_master] at hbeside
  exact ⟨(congrArg Hauler.skip hbeside :),
    (congrArg (fun w : Hauler => { w with skip := v.skip, waiting := v.waiting, ahead := v.ahead, elems := v.elems }) hbeside :),
    ((modMaster_step ..).trans (requestAhead_step ..)).ofSlot.2⟩

/-- A slot of a transfer into the shared RAM, with a whole destination beat in hand (10_haulers R222, R227). -/
theorem masterBeat_movesBeat (s : State) (m : Nat) : MovesBeat m s (.next (masterBeat m s)) := by
  unfold MovesBeat
  intro v v0 nb v1 off e hfree hst hburst hstop hfailed hixm hpkt hpops hmem htarget hnb hplain hwhole
  have hreads : v.ReadsPlain := ⟨hfailed, hpops, hplain⟩
  have hv : v.taken.besideSource = v.besideSource := taken_besideSource hreads
  have hbits : v.taken.beatBits = v.beatBits := (congrArg Hauler.beatBits hv :)
  have hv1 : v1 = v.taken.made := by
    rw [Hauler.made, hbits]
    rfl
  have hdb : v.db < v.extent := (le_beatEnd hnb).trans_lt hnb
  rw [hv1] at hwhole ⊢
  obtain ⟨w, hwrote, hw, hstep⟩ := masterBeat_writes ⟨hfree, .inl hst⟩ (by rw [hburst]; rfl) hst hreads ⟨hixm, hpkt, hdb, hmem, htarget⟩
    (.inl hwhole)
  have hext : (w.master m).extent = v.extent := by
    rw [hw, made_extent]
    exact (congrArg Hauler.extent hv :)
  have hstop' : (w.master m).stop = false := by
    rw [hw, made_stop]
    exact (congrArg Hauler.stop hv :).trans hstop
  have hmoved : v.taken.made.count - v.taken.made.movedAt nb = v.count - v.movedAt nb :=
    (congrArg (fun u : Hauler => u.count - u.movedAt nb) (made_besideStream v.taken) :).trans
      (congrArg (fun u : Hauler => u.count - u.movedAt nb) hv :)
  obtain ⟨hat, hsb, hleft, hpasses⟩ := wroteBeat_passes hstop' (hext ▸ hnb)
  rw [hw] at hsb hleft
  obtain ⟨hram, hframe⟩ := (hstep.trans hpasses).ofRam
  exact ⟨_, congrArg _ hwrote, hram, hat, hsb.trans (made_sb _), hleft.trans hmoved, hframe⟩

/-- The slot of the last beat of a descriptor into the shared RAM (10_haulers R226). -/
theorem masterBeat_endsDescriptor (hm : m < 64) {off : Nat} (hon : s.beats m) (hburst : (s.master m).burst.isSome = true)
    (hrun : (s.master m).st = 2) (hreads : (s.master m).ReadsPlain) (hfills : (s.master m).FillsRam off)
    (hstaged : (s.master m).staged = []) (herr : (s.master m).stopErr = none)
    (hlast : (s.master m).extent ≤ (s.master m).beatEnd (s.master m).db)
    (hwhole : (s.master m).beatBits ≤ (s.master m).made.outLen ∨ (s.master m).made.conv = (s.master m).made.total) :
    let v := s.master m
    let nb := v.beatEnd v.db
    let t := masterBeat m s
    t.foreman.ram = memWrite ramFill s.foreman.ram off (bytesOf (v.made.out % 2 ^ v.beatBits) (nb - v.db)) ∧
      (t.master m).st = (if v.hd 7 0 1 = 1 then 6 else if v.stop && !v.pause then 5 else 1) ∧
      (v.hd 7 0 1 = 0 → (t.master m).cur = 32 * v.hd 7 5 27) ∧ (t.master m).left = v.count - v.total ∧
      t.reg .hchTag m = v.desc.getD 6 0 ∧ (v.hd 5 29 1 = 1 → t.bit .hchEvt m 0 = true) ∧
      MasterOnly m (s.withRam t.foreman.ram) t := by
  have htaken : (s.master m).taken = s.master m := by
    unfold Hauler.taken
    split
    · next hbeat => exact absurd (hstaged.symm.trans hbeat) (by simp)
    · rfl
  obtain ⟨w, hwrote, hw, hstep⟩ := masterBeat_writes hon hburst hrun hreads hfills
    (by rw [htaken]; exact hwhole.imp id (⟨hlast, ·⟩))
  rw [htaken] at hw
  have hwritten : s.ramAfter m off = memWrite ramFill s.foreman.ram off (bytesOf ((s.master m).made.out % 2 ^ (s.master m).beatBits)
      ((s.master m).beatEnd (s.master m).db - (s.master m).db)) := by rw [State.ramAfter, htaken]
  intro v nb t
  obtain ⟨hst, hcur, hleft, htag, hdone, hends⟩ := wroteBeat_ends (s := w) hm (nb := nb)
    (by rw [hw, made_extent]; exact hlast) (by rw [hw, made_stopErr]; exact herr)
  have ht : t = wroteBeat m nb w := hwrote
  rw [← ht, hw] at hst hcur hleft htag hdone
  rw [← ht] at hends
  obtain ⟨hram, -, honly⟩ := (hstep.trans hends).ofRam
  simp only [made_hd, made_stop, made_pause, made_count, made_total, made_desc] at hst hcur hleft htag hdone
  exact ⟨hram.trans hwritten, hst, hcur, hleft, htag, hdone, honly⟩

end Sys2Proof.Machine
end

section
/-! SUPPORT. Pauses of a forced power-down (10_haulers R238, 01_architecture R30): what the cause POWER of a cavern leaves alone, and a
channel paused at its burst boundary. -/

namespace Sys2Proof.Machine

variable (s : State)

theorem exec_haulerPausePower (h : Fin 64) : exec (.haulerPausePower h) s = .next (domSettleAll (haulerPause h.val s)) := rfl

/-! ### The cause POWER (01_architecture R20 to R23, R30) -/

/-- A state without what the cause POWER of a cavern may change beside registers: caverns, the fabric's tokens, the commands on domains,
and what `State.freezeBase` leaves out. -/
def State.besidePower : State :=
  { s with cavs := [], fabric := State.reset.fabric, power := State.reset.power }.freezeBase

/-- What stands when caverns whose bursts are over get the cause POWER: everything beside, and the flags of every channel. -/
structure PowerStep (s t : State) : Prop where
  beside : t.besidePower = s.besidePower
  flags : ∀ m, t.reg .hchEvt m = s.reg .hchEvt m

theorem PowerStep.refl : PowerStep s s := ⟨rfl, fun _ => rfl⟩

variable {s} in
theorem PowerStep.trans {t u : State} (h : PowerStep s t) (h' : PowerStep t u) : PowerStep s u :=
  ⟨h'.beside.trans h.beside, fun m => (h'.flags m).trans (h.flags m)⟩

/-- A change beside the registers. -/
theorem PowerStep.of_regs {s t : State} (h : t.besidePower = s.besidePower) (hregs : t.regs = s.regs) : PowerStep s t :=
  ⟨h, fun m => by rw [State.reg, hregs, State.reg]⟩

theorem PowerStep.ite {s a b : State} {c : Prop} [Decidable c] (ha : PowerStep s a) (hb : PowerStep s b) :
    PowerStep s (if c then a else b) := by
  split <;> assumption

theorem powerStep_foldl {α : Type} {g : State → α → State} (hg : ∀ s x, PowerStep s (g s x)) (l : List α) : PowerStep s (l.foldl g s) := by
  induction l generalizing s with
  | nil => exact .refl s
  | cons x l ih => exact (hg s x).trans (ih _)

theorem besidePower_of_freezeBase {s t : State} (h : t.freezeBase = s.freezeBase) : t.besidePower = s.besidePower :=
  (congrArg State.besidePower h :)

theorem isolatePins_powerStep (c : Nat) : PowerStep s (isolatePins c s) := by
  refine powerStep_foldl s (fun u b => .ite ?_ (.refl u)) _
  refine powerStep_foldl u (fun v n => .ite (.ite ?_ ?_) (.refl v)) _
  · exact .of_regs rfl rfl
  · exact .of_regs rfl rfl

theorem completeAttachments_powerStep (c : Nat) : PowerStep s (completeAttachments c s) := by
  obtain ⟨hbeside, -⟩ := pinsSettle_samplesOffered (s.withFabric fun f =>
    { f with attIn := f.attIn.filter fun e => e.1 < 10000 || attCav e.1 ≠ c }) c
  exact .of_regs (congrArg State.besidePower hbeside :) (congrArg State.regs hbeside :)

/-- A channel's flags lie beyond the registers of the caverns. -/
theorem hchEvt_addr_gt (m : Nat) : 0xB0000 ≤ RegKind.hchEvt.addr m := Nat.le_add_right_of_le (by decide)

theorem gaugeStop_powerStep {c : Nat} (hc : c < 40) : PowerStep s (gaugeStop c s) := by
  refine ⟨rfl, fun m => State.setReg_reg_ne s _ ?_⟩
  have hevt := hchEvt_addr_gt m
  have hgauge : RegKind.speedGauge.addr c = 0x30200 + c * 4 := rfl
  omega

theorem flagIso_powerStep (c : Nat) : PowerStep s (flagIso c s) := by
  refine ⟨besidePower_of_freezeBase (flagIso_freezeBase s c), fun m => ?_⟩
  have hevt := hchEvt_addr_gt m
  have hiso {k en : RegKind} (hk : k.addr 0 < 0xB0000) (bits : Word) :
      (setFlags k en 0 (.perReg 9) bits s).reg .hchEvt m = s.reg .hchEvt m :=
    (setFlags_kept s (how := .perReg 9) bits (show 9 < 384 by decide)).reg (by rw [List.mem_singleton]; omega)
      (channelKind_not_event (by decide) m)
  unfold flagIso
  split
  · exact hiso (by decide) _
  · exact hiso (by decide) _

theorem setCause_powerStep {c : Nat} (hc : c < 40) : PowerStep s (setCause c .power s) := by
  unfold setCause
  extract_lets old valid owed gated empties shadow marked wiped stopped
  have hgated : PowerStep s gated := .ite (.refl s) (isolatePins_powerStep s c)
  have hmarked : PowerStep s marked := hgated.trans (.of_regs rfl rfl)
  have hwiped : wiped = marked := if_neg (by decide)
  have hstopped : PowerStep s stopped := by
    unfold stopped
    rw [hwiped]
    exact .ite (hmarked.trans (gaugeStop_powerStep marked hc)) hmarked
  refine .ite (.refl s) (.trans (.ite ?_ hstopped) (flagIso_powerStep _ c))
  exact hstopped.trans (completeAttachments_powerStep stopped c)

theorem domSettle_powerStep (c : Nat) : PowerStep s (domSettle c s) := by
  unfold domSettle
  split
  · next v _ =>
    split
    · next h =>
      simp only [Bool.and_eq_true, decide_eq_true_eq] at h
      obtain ⟨⟨⟨⟨hc, -⟩, -⟩, -⟩, -⟩ := h
      exact (setCause_powerStep s hc).trans (.of_regs rfl rfl)
    · exact .refl s
  · exact .refl s

theorem domSettleAll_powerStep : PowerStep s (domSettleAll s) := by
  unfold domSettleAll
  refine powerStep_foldl s (fun u e => ?_) _
  exact domSettle_powerStep u e.1

theorem PowerStep.haul {s t : State} (h : PowerStep s t) : t.haul = s.haul := (congrArg State.haul h.beside :)

/-- What is stored lies beside the masters and beside what the cause POWER changes. -/
theorem storedKept_of_beside {s t : State} (h : State.besidePower { t with haul := s.haul } = s.besidePower) : StoredKept s t :=
  ⟨(congrArg State.cfg h :), (congrArg (fun v : State => v.conf.store) h :), (congrArg (fun v : State => v.conf.otp) h :),
    (congrArg (fun v : State => v.foreman.ram) h :), (congrArg (fun v : State => v.pockets.rows) h :)⟩

theorem PowerStep.stored {s t : State} (h : PowerStep s t) : StoredKept s t :=
  storedKept_of_beside (congrArg (fun v : State => { v with haul := s.haul }) h.beside :)

/-! ### Pauses -/

/-- A channel that a pause meets at its burst boundary (10_haulers R238). -/
def Hauler.pausable (v : Hauler) : Prop := v.pause = true ∧ v.burst = none ∧ (v.st = 1 ∨ v.st = 2 ∨ v.st = 3)

theorem haulerPause_of_pausable {m : Nat} (h : (s.master m).pausable) : haulerPause m s =
    flagHauler m 2 (s.modMaster m fun v => { v.cancelReads with st := 4, pause := false, stop := false }) := by
  obtain ⟨hpause, hburst, hst⟩ := h
  exact if_pos ⟨hpause, by simp [hburst], hst⟩

theorem haulerPause_of_other {m : Nat} (h : ¬ (s.master m).pausable) : haulerPause m s = s :=
  if_neg fun ⟨hpause, hburst, hst⟩ => h ⟨hpause, Option.isNone_iff_eq_none.1 hburst, hst⟩

theorem haulerPause_step {m : Nat} (hm : m < 64) : MasterStep m s (haulerPause m s) :=
  .ite ((modMaster_step ..).trans (flagHauler_step _ hm 2)) (.refl s m)

/-- What is stored stands through a move of a master. -/
theorem MasterStep.stored {s t : State} {m : Nat} (h : MasterStep m s t) : StoredKept s t :=
  storedKept_of_beside (congrArg State.besidePower h.only.2.2 :)

/-- The pause of a channel, and the caverns whose bursts are then over (10_haulers R238, 01_architecture R30). -/
theorem haulerPausePower_pauses {m : Nat} (hm : m < 64) :
    let v := s.master m
    let t := domSettleAll (haulerPause m s)
    (v.pause = true → v.burst = none → v.st = 1 ∨ v.st = 2 ∨ v.st = 3 →
      t.master m = { v.cancelReads with st := 4, pause := false, stop := false } ∧ t.bit .hchEvt m 2 = true) ∧
    (v.pause = false ∨ v.burst.isSome = true ∨ ¬ (v.st = 1 ∨ v.st = 2 ∨ v.st = 3) → t.haul = s.haul) ∧
    (s.power.dom = [] → MasterOnly m s t) ∧ (∀ k, k ≠ m → t.master k = s.master k) ∧ StoredKept s t := by
  intro v t
  have hpause := haulerPause_step s hm
  have hsettled := domSettleAll_powerStep (haulerPause m s)
  have hmaster (k : Nat) : t.master k = (haulerPause m s).master k := by rw [State.master, hsettled.haul, State.master]
  refine ⟨fun hwaits hburst hst => ⟨?_, ?_⟩, fun hother => ?_, fun hdom => ?_, fun k hk => (hmaster k).trans (hpause.only.1 k hk), ?_⟩
  · rw [hmaster, haulerPause_of_pausable s ⟨hwaits, hburst, hst⟩, flagHauler_master]
    exact modMaster_master ..
  · rw [State.bit, hsettled.flags, haulerPause_of_pausable s ⟨hwaits, hburst, hst⟩]
    exact flagHauler_bit _ hm (by decide)
  · have hnot : ¬ v.pausable := by
      rintro ⟨hwaits, hburst, hst⟩
      simp [hwaits, hburst, hst] at hother
    rw [hsettled.haul, haulerPause_of_other s hnot]
  · have hpower : (haulerPause m s).power = s.power := (congrArg State.power hpause.only.2.2 :)
    have ht : t = haulerPause m s := by
      unfold t domSettleAll
      rw [hpower, hdom]
      rfl
    rw [ht]
    exact hpause.only
  · exact storedKept_trans hpause.stored hsettled.stored

end Sys2Proof.Machine
end

section
/-! The statement about the slots of a channel and its pauses. -/

open Sys2Proof Sys2Proof.Machine

/-- Settles O38: each use of a slot is a case of `masterBeat`; in a burst a whole destination beat is written and the master moves past it
(`masterBeat_movesBeat`) or its descriptor ends (`masterBeat_endsDescriptor`), and otherwise a retry counts (`transferSlot_retries`). A pause is
`haulerPausePower_pauses`. -/
theorem haulerBeats : Obligations.HaulerBeats := by
  unfold Obligations.HaulerBeats
  intro h s v on nb v1
  have hm := h.isLt
  simp only [exec_haulerBeat, exec_haulerPausePower]
  refine ⟨fun hoff => congrArg _ (masterBeat_of_off hoff), fun hon hburst hpause => congrArg _ (masterBeat_of_pause hon hburst hpause),
    fun hon hburst hpause hskip => ⟨_, congrArg _ (masterBeat_of_skip hon hburst hpause hskip), skippedSlot_counts h.val⟩,
    fun hon hburst hpause hskip hpaced => ⟨_, congrArg _ (masterBeat_of_unpaced hon hburst hpause hskip hpaced),
      modMaster_master .., (modMaster_step ..).ofSlot.2⟩,
    masterBeat_movesBeat s h.val,
    fun off e hon hrun hburst hixm hpkt hpops hstaged hfailed herr hmem htarget hdb hlast hwhole => ⟨_, rfl,
      masterBeat_endsDescriptor hm hon (by rw [hburst]; rfl) hrun
        ⟨hfailed, hpops, fun b rest hbeat => absurd (hstaged.symm.trans hbeat) (List.cons_ne_nil b rest).symm⟩
        ⟨hixm, hpkt, hdb, hmem, htarget⟩ hstaged herr hlast hwhole⟩,
    fun hon hrun hburst hixm hpops hstaged hfailed hdb hshort hconv => ⟨_, congrArg _ (masterBeat_of_burst hon hburst), ?_⟩,
    ⟨_, rfl, haulerPausePower_pauses s hm⟩⟩
  obtain ⟨hmaster, hcount, hstep⟩ := transferSlot_retries (s := useSlot s) hm hrun hfailed hpops hixm hdb hstaged hshort hconv
  exact ⟨hmaster, hcount, hstep.ofSlot.2⟩

end

section
/-! SUPPORT. One lane (11_lane_electrical, 12_lane_link): where its registers lie, the relation that one lane and registers of its own have
changed and nothing else, and the small updates that keep it. The proofs of this section and of those after it are elaborated one after
another, as those of the tests are: side by side they wait for one another, each in a thread with a stack of its own. -/

set_option Elab.async false

namespace Sys2Proof.Machine

/-! ### The registers of a lane -/

/-- The kinds of a lane's registers. -/
def laneKinds : List RegKind :=
  [.lnPmaCtrl, .lnPmaStatus, .lnPmaEvt, .lnPmaEvtEn, .lnEq, .lnLevels, .lnPatCtrl, .lnPatStatus, .lnPatUserLo, .lnPatUserHi,
    .lnPrbsBitsLo, .lnPrbsBitsHi, .lnPrbsErrLo, .lnPrbsErrHi, .lnPrbsSymerr, .lnPrbsRelock, .lnMargin, .lnMarginSamp, .lnMarginErr,
    .lnLinkStatus, .lnLinkCtrl, .lnLinkEvt, .lnLinkEvtEn, .lnBlkErr, .lnFecCorr, .lnFecUncorr, .lnRxDrop, .lnTxUnderrun, .lnRetrains,
    .lnAditCrc, .lnAditReplay, .lnAditProto, .lnLinkOvf, .lnAditSeq, .lnAditRx, .lnAditCred]

theorem laneKinds_loc : ∀ k ∈ laneKinds, 0x80000 ≤ k.loc.base ∧ k.loc.base < 0x80400 ∧ k.loc.stride = 0x400 := by decide

theorem laneKinds_base : ∀ k ∈ laneKinds, ∀ k' ∈ laneKinds, k.loc.base = k'.loc.base → k = k' := by decide +kernel

/-- Two registers of the lanes that lie at one address are one register. -/
theorem laneKind_addr_inj {k k' : RegKind} (hk : k ∈ laneKinds) (hk' : k' ∈ laneKinds) {n m : Nat} (h : k.addr n = k'.addr m) :
    k = k' ∧ n = m := by
  obtain ⟨hlo, hhi, hstride⟩ := laneKinds_loc k hk
  obtain ⟨hlo', hhi', hstride'⟩ := laneKinds_loc k' hk'
  rw [RegKind.addr, RegKind.addr, hstride, hstride'] at h
  have hn : n = m := by omega
  subst hn
  exact ⟨laneKinds_base k hk k' hk' (by omega), rfl⟩

theorem laneKind_addr_ne {k k' : RegKind} (hk : k ∈ laneKinds) (hk' : k' ∈ laneKinds) (hne : k ≠ k') (n m : Nat) :
    k.addr n ≠ k'.addr m := fun h => hne (laneKind_addr_inj hk hk' h).1

/-- A lane's registers lie beside the event controller. -/
theorem laneKind_not_event {k : RegKind} (hk : k ∈ laneKinds) (n : Nat) : eventRegister (k.addr n) = false := by
  obtain ⟨hlo, -⟩ := laneKinds_loc k hk
  have haddr : 0x80000 ≤ k.addr n := hlo.trans (Nat.le_add_right _ _)
  simp only [eventRegister, Bool.or_eq_false_iff, Bool.and_eq_false_iff, decide_eq_false_iff_not, beq_eq_false_iff_ne]
  omega

/-- An address outside the windows of the lanes. -/
def besideLanes (a : Nat) : Bool := decide (a < 0x80000) || decide (0x98000 ≤ a)

theorem laneKind_addr_ne_beside {k : RegKind} (hk : k ∈ laneKinds) {n a : Nat} (hn : n < 96) (ha : besideLanes a = true) :
    k.addr n ≠ a := by
  obtain ⟨hlo, hhi, hstride⟩ := laneKinds_loc k hk
  rw [besideLanes, Bool.or_eq_true, decide_eq_true_eq, decide_eq_true_eq] at ha
  rw [RegKind.addr, hstride]
  omega

theorem adEvt_besideLanes (b : Nat) : besideLanes (RegKind.adEvt.addr b) = true := by
  change (decide (0xD0000 + b * 0x10 < 0x80000) || decide (0x98000 ≤ 0xD0000 + b * 0x10)) = true
  simp only [Bool.or_eq_true, decide_eq_true_eq]
  omega

/-- One register written is one of those that may be. -/
theorem RegsKept.of_one {a : Nat} {l : List Nat} {s t : State} (h : RegsKept [a] s t) (ha : a ∈ l) : RegsKept l s t :=
  h.mono fun _ hb => .inl (List.mem_singleton.1 hb ▸ ha)

/-- A register of a lane that is not among those written reads the same. -/
theorem RegsKept.laneReg {own : List RegKind} {more : List Nat} {n m : Nat} {s t : State}
    (h : RegsKept (own.map (fun k => k.addr n) ++ more) s t) {k : RegKind} (hm : m < 96) (hk : k ∈ laneKinds)
    (hown : ∀ k' ∈ own, k' ∈ laneKinds ∧ (k' ≠ k ∨ n ≠ m)) (hmore : more.all besideLanes = true) : t.reg k m = s.reg k m := by
  refine h.reg (fun ha => ?_) (laneKind_not_event hk m)
  rcases List.mem_append.1 ha with ha | ha
  · obtain ⟨k', hk', haddr⟩ := List.mem_map.1 ha
    obtain ⟨hlane, hne⟩ := hown k' hk'
    obtain ⟨hkind, hnum⟩ := laneKind_addr_inj hlane hk haddr
    exact hne.elim (· hkind) (· hnum)
  · exact laneKind_addr_ne_beside hk hm (List.all_eq_true.1 hmore _ ha) rfl

end Sys2Proof.Machine

namespace Sys2Proof

open Sys2Proof.Machine

/-! ### One lane changes -/

section

variable {n : Nat} {own own' : List RegKind} {more more' : List Nat} {s t u : State}

theorem LaneOnly.refl : LaneOnly n own more s s := ⟨fun _ _ => rfl, .refl s _, rfl⟩

theorem LaneOnly.trans (h : LaneOnly n own more s t) (h' : LaneOnly n own more t u) : LaneOnly n own more s u := by
  obtain ⟨hlanes, hregs, hbeside⟩ := h
  obtain ⟨hlanes', hregs', hbeside'⟩ := h'
  exact ⟨fun k hk => (hlanes' k hk).trans (hlanes k hk), hregs.trans hregs',
    (congrArg (fun v : State => besideFlags { v with lanes := s.lanes }) hbeside' :).trans hbeside⟩

theorem LaneOnly.ite {c : Prop} [Decidable c] (ht : LaneOnly n own more s t) (hu : LaneOnly n own more s u) :
    LaneOnly n own more s (if c then t else u) := by
  split <;> assumption

theorem LaneOnly.mono (h : LaneOnly n own more s t) (hown : own ⊆ own' := by decide) (hmore : more ⊆ more' := by simp) :
    LaneOnly n own' more' s t := by
  obtain ⟨hlanes, hregs, hbeside⟩ := h
  refine ⟨hlanes, hregs.mono fun a ha => .inl ?_, hbeside⟩
  exact (List.mem_append.1 ha).elim (fun h => List.mem_append_left _ (List.map_subset _ hown h)) fun h =>
    List.mem_append_right _ (hmore h)

theorem LaneOnly.beside (h : LaneOnly n own more s t) : besideFlags { t with lanes := s.lanes } = besideFlags s := h.2.2

theorem LaneOnly.cfg (h : LaneOnly n own more s t) : t.cfg = s.cfg := (congrArg State.cfg h.beside :)

theorem LaneOnly.pmaOn (h : LaneOnly n own more s t) (m : Nat) : t.pmaOn m = s.pmaOn m :=
  (congrArg (fun v : State => v.pmaOn m) h.beside :)

theorem LaneOnly.isAdit (h : LaneOnly n own more s t) (m : Nat) : t.isAdit m = s.isAdit m := by rw [State.isAdit, h.cfg, State.isAdit]

/-- A register of a lane that is not among those named reads the same. -/
theorem LaneOnly.reg (h : LaneOnly n own more s t) (hn : n < 96) {k : RegKind} (hk : k ∈ laneKinds := by decide)
    (hown : ∀ k' ∈ own, k' ∈ laneKinds ∧ k' ≠ k := by decide) (hmore : more.all besideLanes = true := by simp [adEvt_besideLanes]) :
    t.reg k n = s.reg k n :=
  RegsKept.laneReg h.2.1 hn hk (fun k' hk' => (hown k' hk').imp_right .inl) hmore

theorem LaneOnly.bit (h : LaneOnly n own more s t) (hn : n < 96) {k : RegKind} (b : Nat) (hk : k ∈ laneKinds := by decide)
    (hown : ∀ k' ∈ own, k' ∈ laneKinds ∧ k' ≠ k := by decide) (hmore : more.all besideLanes = true := by simp [adEvt_besideLanes]) :
    t.bit k n b = s.bit k n b := congrArg (·.getLsbD b) (h.reg hn hk hown hmore)

theorem LaneOnly.field (h : LaneOnly n own more s t) (hn : n < 96) {k : RegKind} (lo len : Nat) (hk : k ∈ laneKinds := by decide)
    (hown : ∀ k' ∈ own, k' ∈ laneKinds ∧ k' ≠ k := by decide) (hmore : more.all besideLanes = true := by simp [adEvt_besideLanes]) :
    t.field k n lo len = s.field k n lo len := congrArg (fun w : Word => bitsOf lo len w.toNat) (h.reg hn hk hown hmore)

theorem LaneOnly.laneOn (h : LaneOnly n own more s t) (hn : n < 96) (hown : ∀ k' ∈ own, k' ∈ laneKinds ∧ k' ≠ .lnLinkCtrl := by decide)
    (hmore : more.all besideLanes = true := by simp [adEvt_besideLanes]) : t.laneOn n = s.laneOn n := by
  rw [State.laneOn, h.pmaOn, h.bit hn 2 (by decide) hown hmore, State.laneOn]

/-- Flags and counters of the lane alone. -/
theorem LaneOnly.of_besideFlags (h : besideFlags t = besideFlags s) (hregs : RegsKept (own.map (fun k => k.addr n) ++ more) s t) :
    LaneOnly n own more s t :=
  ⟨fun k _ => (congrArg (fun v : State => v.lane k) h :), hregs, (congrArg (fun v : State => { v with lanes := s.lanes }) h :)⟩

end

end Sys2Proof

namespace Sys2Proof.Machine

/-! ### The small updates -/

section

variable (s : State) {n : Nat} {own : List RegKind} {more : List Nat}

theorem modLane_only (f : Lane → Lane) : LaneOnly n own more s (s.modLane n f) :=
  ⟨fun k hk => (modLane_lane s n k f).trans (if_neg hk.symm), .same (.refl s _) rfl, rfl⟩

theorem modTx_only (f : LaneTx → LaneTx) : LaneOnly n own more s (s.modTx n f) := modLane_only s _
theorem modRx_only (f : LaneRx → LaneRx) : LaneOnly n own more s (s.modRx n f) := modLane_only s _
theorem modAdit_only (f : Adit → Adit) : LaneOnly n own more s (s.modAdit n f) := modLane_only s _

theorem kept_of_own {k : RegKind} (hk : k ∈ own) {t : State} (h : RegsKept [k.addr n] s t) :
    RegsKept (own.map (fun k => k.addr n) ++ more) s t :=
  RegsKept.of_one h (List.mem_append_left _ (List.mem_map_of_mem (f := fun k => k.addr n) hk))

theorem setReg_only {k : RegKind} (hk : k ∈ own) (v : Word) : LaneOnly n own more s (s.setReg k n v) :=
  .of_besideFlags rfl (kept_of_own s hk (setReg_kept s k n v))

theorem setField_only {k : RegKind} (hk : k ∈ own) (lo len v : Nat) : LaneOnly n own more s (s.setField k n lo len v) :=
  setReg_only s hk _

theorem setBits_only {k : RegKind} (hk : k ∈ own) (bits : Word) : LaneOnly n own more s (s.setBits k n bits) :=
  .of_besideFlags rfl (kept_of_own s hk (setBits_kept s k n bits))

theorem setPma_only (b : Nat) (v : Bool) (hk : .lnPmaStatus ∈ own := by decide) : LaneOnly n own more s (s.setPma n b v) :=
  setField_only s hk _ _ _

theorem setLink_only (b : Nat) (v : Bool) (hk : .lnLinkStatus ∈ own := by decide) : LaneOnly n own more s (s.setLink n b v) :=
  setField_only s hk _ _ _

theorem setLaneState_only (v : Nat) (hk : .lnLinkStatus ∈ own := by decide) : LaneOnly n own more s (s.setLaneState n v) :=
  setField_only s hk _ _ _

theorem flagPma_only (b : Nat) (hk : .lnPmaEvt ∈ own := by decide) : LaneOnly n own more s (flagPma n b s) :=
  .of_besideFlags (setFlags_besideFlags s _ _ _ _ _) (kept_of_own s hk (setFlags_kept s (how := .crossing 1 (64 + n)) _ trivial))

theorem flagLink_only (b : Nat) (hk : .lnLinkEvt ∈ own := by decide) : LaneOnly n own more s (flagLink n b s) :=
  .of_besideFlags (flagLink_besideFlags n s b) (kept_of_own s hk (flagLink_kept n s b))

theorem flagAdit_only (hn : n < 96) (b : Nat) (hk : RegKind.adEvt.addr (n / 4) ∈ more := by simp) :
    LaneOnly n own more s (flagAdit (n / 4) b s) :=
  .of_besideFlags (setFlags_besideFlags s _ _ _ _ _)
    (RegsKept.of_one (setFlags_kept s (how := .perReg (296 + n / 4)) _ (show 296 + n / 4 < 384 by omega)) (List.mem_append_right _ hk))

/-- A counter of the lane, with what its overflow writes. -/
theorem countStat_only {k : RegKind} (hk : k ∈ own) {report : State → State} (hreport : ∀ t, LaneOnly n own more t (report t)) :
    LaneOnly n own more s (countStat k n report s) := by
  have hset (v : Word) : LaneOnly n own more s (s.setCount k n 1 v) :=
    .of_besideFlags rfl (kept_of_own s hk (setCount_kept s k n 1 v))
  unfold countStat
  extract_lets v u
  exact .ite .refl (.ite ((hset _).trans (hreport _)) (hset _))

end

/-! ### What is read after them -/

section

variable (s : State) (n : Nat)

theorem getLsbD_putField (w : Word) {lo len v c : Nat} (hc : c < 32) :
    (putField w lo len v).getLsbD c = if lo ≤ c ∧ c < lo + len then v.testBit (c - lo) else w.getLsbD c := by
  by_cases h : lo ≤ c ∧ c < lo + len
  · have hones : (2 ^ len - 1).testBit (c - lo) = true := by rw [Nat.testBit_two_pow_sub_one]; simp; omega
    rw [if_pos h]
    simp only [putField, word, place, BitVec.getLsbD_or, BitVec.getLsbD_and, BitVec.getLsbD_not, BitVec.getLsbD_ofNat,
      Nat.testBit_shiftLeft, Nat.testBit_mod_two_pow, hones, hc, h.1, show c - lo < len by omega]
    simp
  · rw [if_neg h]
    exact getLsbD_putField_of_outside w v (by omega)

/-- A bit written, and the bits beside it. -/
theorem State.setField_bit (k : RegKind) {i b c : Nat} (v : Bool) (hc : c < 32) :
    (s.setField k i b 1 (bitNat v)).bit k i c = if c = b then v else s.bit k i c := by
  rw [State.bit, State.setField_reg, getLsbD_putField _ hc]
  by_cases h : c = b
  · rw [if_pos (by omega), if_pos h, h, Nat.sub_self]
    cases v <;> rfl
  · rw [if_neg (by omega), if_neg h, State.bit]

theorem setPma_bit {b c : Nat} (v : Bool) (hc : c < 32) :
    (s.setPma n b v).bit .lnPmaStatus n c = if c = b then v else s.bit .lnPmaStatus n c := s.setField_bit _ v hc

theorem setLink_bit {b c : Nat} (v : Bool) (hc : c < 32) :
    (s.setLink n b v).bit .lnLinkStatus n c = if c = b then v else s.bit .lnLinkStatus n c := s.setField_bit _ v hc

@[simp] theorem setLaneState_laneState {v : Nat} (hv : v < 8) : (s.setLaneState n v).laneState n = v :=
  (s.setField_field _ _ _ (by decide)).trans (Nat.mod_eq_of_lt hv)

@[simp] theorem setLink_laneState {b : Nat} (hb : 3 ≤ b) (v : Bool) : (s.setLink n b v).laneState n = s.laneState n :=
  s.setField_field_of_disjoint _ _ _ (.inl hb)

theorem setLaneState_linkBit {c : Nat} (hc : 3 ≤ c) (v : Nat) :
    (s.setLaneState n v).bit .lnLinkStatus n c = s.bit .lnLinkStatus n c := by
  rw [State.bit, State.setLaneState, State.setField_reg, getLsbD_putField_of_outside _ _ (.inr hc), State.bit]

@[simp] theorem setField_lane (k : RegKind) (i lo len v m : Nat) : (s.setField k i lo len v).lane m = s.lane m := rfl
@[simp] theorem setPma_lane (b : Nat) (v : Bool) (m : Nat) : (s.setPma n b v).lane m = s.lane m := rfl
@[simp] theorem setLink_lane (b : Nat) (v : Bool) (m : Nat) : (s.setLink n b v).lane m = s.lane m := rfl
@[simp] theorem setLaneState_lane (v m : Nat) : (s.setLaneState n v).lane m = s.lane m := rfl
@[simp] theorem modRx_bit (f : LaneRx → LaneRx) (k : RegKind) (i b : Nat) : (s.modRx n f).bit k i b = s.bit k i b := rfl
@[simp] theorem modAdit_bit (f : Adit → Adit) (k : RegKind) (i b : Nat) : (s.modAdit n f).bit k i b = s.bit k i b := rfl
@[simp] theorem modRx_laneState (f : LaneRx → LaneRx) (m : Nat) : (s.modRx n f).laneState m = s.laneState m := rfl
@[simp] theorem modAdit_laneState (f : Adit → Adit) (m : Nat) : (s.modAdit n f).laneState m = s.laneState m := rfl

theorem modTx_tx (f : LaneTx → LaneTx) : ((s.modTx n f).lane n) = { s.lane n with tx := f (s.lane n).tx } := by
  rw [modTx_lane, if_pos rfl]

theorem modRx_rx (f : LaneRx → LaneRx) : ((s.modRx n f).lane n) = { s.lane n with rx := f (s.lane n).rx } := by
  rw [modRx_lane, if_pos rfl]

theorem modAdit_adit (f : Adit → Adit) : ((s.modAdit n f).lane n) = { s.lane n with adit := f (s.lane n).adit } :=
  (modLane_lane ..).trans (if_pos rfl)

theorem flagPma_bit {b c : Nat} (hc : c < 32) (h : b = c ∨ s.bit .lnPmaEvt n c = true) : (flagPma n b s).bit .lnPmaEvt n c = true := by
  rw [State.bit, flagPma, setFlags_self s (how := .crossing 1 (64 + n)) _ trivial (laneKind_not_event (by decide) n), BitVec.getLsbD_or,
    Bool.or_eq_true]
  exact h.symm.imp_right fun hb => by rw [hb]; exact bitWord_self hc

theorem flagLink_bit {b c : Nat} (hc : c < 32) (h : b = c ∨ s.bit .lnLinkEvt n c = true) :
    (flagLink n b s).bit .lnLinkEvt n c = true := by
  rw [State.bit, flagLink, setFlags_self s (how := .crossing 1 (64 + n)) _ trivial (laneKind_not_event (by decide) n), BitVec.getLsbD_or,
    Bool.or_eq_true]
  exact h.symm.imp_right fun hb => by rw [hb]; exact bitWord_self hc

@[simp] theorem flagPma_lane (b m : Nat) : (flagPma n b s).lane m = s.lane m :=
  (congrArg (fun v : State => v.lane m) (setFlags_besideFlags s _ _ _ _ _) :)

@[simp] theorem flagLink_lane (b m : Nat) : (flagLink n b s).lane m = s.lane m :=
  (congrArg (fun v : State => v.lane m) (flagLink_besideFlags n s b) :)

@[simp] theorem flagAdit_lane (k b m : Nat) : (flagAdit k b s).lane m = s.lane m :=
  (congrArg (fun v : State => v.lane m) (setFlags_besideFlags s _ _ _ _ _) :)

end

end Sys2Proof.Machine
end

section
/-! SUPPORT. Locks and the link state of one lane (11_lane_electrical R256, R260, R268; 12_lane_link R290, R291, R294): what each step does,
and what it leaves alone. -/

set_option Elab.async false

namespace Sys2Proof.Machine

variable (s : State) (n : Nat)

/-! ### The checker and the equaliser's entries -/

theorem checkerSearch_only : LaneOnly n [.lnPatStatus] [] s (checkerSearch n s) :=
  (setField_only s (by decide) 0 1 0).trans (modRx_only _ _)

theorem checkerSearch_lock : (checkerSearch n s).bit .lnPatStatus n 0 = false := s.setField_bit .lnPatStatus false (by decide)

theorem checkerSearch_lane :
    (checkerSearch n s).lane n = { s.lane n with rx := { (s.lane n).rx with chk := 0, chkRun := 0, chkErr := 0 } } :=
  modRx_rx ..

theorem lnCfg_lt (t : Tab Word) (lo len : Nat) : lnCfg t n lo len < 2 ^ len := Nat.mod_lt _ (by positivity)

/-- The entry of the board table in force (11_lane_electrical R256). -/
def State.eqEntry (s : State) (n ov im : Nat) : Nat := if s.bit .lnEq n 0 then s.field .lnEq n ov 6 else lnCfg s.cfg n im 6

theorem eqEntry_lt (ov im : Nat) : s.eqEntry n ov im < 2 ^ 6 := by
  unfold State.eqEntry
  split
  · exact Nat.mod_lt _ (by decide)
  · exact lnCfg_lt n ..

theorem applyTxEq_eq : applyTxEq n s = s.setField .lnEq n 10 6 (s.eqEntry n 26 26) := rfl

theorem applyRxEq_eq : applyRxEq n s = s.setField .lnEq n 4 6 (s.eqEntry n 20 20) := rfl

/-- Taking the transmit entry changes no other part of the register. -/
theorem applyTxEq_eqEntry : (applyTxEq n s).eqEntry n 20 20 = s.eqEntry n 20 20 := by
  have hbit : (applyTxEq n s).bit .lnEq n 0 = s.bit .lnEq n 0 := by
    rw [State.bit, applyTxEq_eq, State.setField_reg, getLsbD_putField_of_outside _ _ (.inl (by decide)), State.bit]
  have hfield : (applyTxEq n s).field .lnEq n 20 6 = s.field .lnEq n 20 6 := s.setField_field_of_disjoint _ _ _ (.inr (by decide))
  rw [State.eqEntry, hbit, hfield]
  rfl

/-! ### Locks (11_lane_electrical R260) -/

/-- The registers that a lock writes. -/
def lockKinds : List RegKind := [.lnPmaStatus, .lnPatStatus, .lnEq]

/-- A lock begun, before the receiver hears something: nothing is locked and the checker searches. -/
def State.lockBase (s : State) (n : Nat) : State :=
  applyTxEq n ((checkerSearch n (((s.setPma n 2 false).setPma n 3 false).setPma n 4 false)).modRx n fun r =>
    { r with locking := true, heard := s.hears n })

theorem hears_setPma {b : Nat} (hb : b ≠ 1) (v : Bool) : (s.setPma n b v).hears n = s.hears n := by
  have hsignal : (s.setPma n b v).signal n = s.signal n := by
    rw [State.signal, setPma_bit _ _ _ (by decide), if_neg hb.symm, State.signal]
  have hloop : (s.setPma n b v).loop n = s.loop n :=
    congrArg (fun w : Word => bitsOf 4 2 w.toNat)
      (s.setField_reg_ne b 1 _ (laneKind_addr_ne (k := .lnPmaStatus) (k' := .lnPmaCtrl) (by decide) (by decide) (by decide) n n))
  rw [State.hears, hsignal, hloop, State.hears]

theorem lockStart_eq (hn : n < 96) : lockStart n s = if s.hears n then
    applyRxEq n (((s.lockBase n).modRx n fun r => { r with lost := false }).setPma n 6 false) else s.lockBase n := by
  let u := ((s.setPma n 2 false).setPma n 3 false).setPma n 4 false
  have hears : (checkerSearch n u).hears n = s.hears n := by
    have hu : u.hears n = s.hears n := by
      rw [hears_setPma _ _ (by decide), hears_setPma _ _ (by decide), hears_setPma _ _ (by decide)]
    have honly := checkerSearch_only u n
    rw [State.hears, State.signal, honly.bit hn, State.loop, honly.field hn, ← hu]
    rfl
  unfold lockStart
  extract_lets a h b
  have hh : h = s.hears n := hears
  have hb : b = s.lockBase n := by
    unfold b State.lockBase
    rw [hh]
  rw [hh, hb]

theorem lockBase_only : LaneOnly n lockKinds [] s (s.lockBase n) :=
  ((((setPma_only s 2 false).trans (setPma_only _ 3 false)).trans (setPma_only _ 4 false)).trans
    (((checkerSearch_only _ n).mono).trans (modRx_only _ _))).trans (setField_only _ (by decide) _ _ _)

theorem lockBase_lane : (s.lockBase n).lane n = { s.lane n with
    rx := { (s.lane n).rx with locking := true, heard := s.hears n, chk := 0, chkRun := 0, chkErr := 0 } } := by
  rw [State.lockBase, applyTxEq_eq, setField_lane, modRx_rx, checkerSearch_lane]
  rfl

theorem lockBase_pma (hn : n < 96) {c : Nat} (hc : c < 32) : (s.lockBase n).bit .lnPmaStatus n c =
    if c = 2 ∨ c = 3 ∨ c = 4 then false else s.bit .lnPmaStatus n c := by
  let u := ((s.setPma n 2 false).setPma n 3 false).setPma n 4 false
  have hframe : LaneOnly n [.lnPatStatus, .lnEq] [] u (s.lockBase n) :=
    ((checkerSearch_only u n).mono.trans (modRx_only _ _)).trans (setField_only _ (by decide) _ _ _)
  rw [hframe.bit hn, setPma_bit _ _ _ hc, setPma_bit _ _ _ hc, setPma_bit _ _ _ hc]
  by_cases h4 : c = 4 <;> by_cases h3 : c = 3 <;> by_cases h2 : c = 2 <;> simp [h4, h3, h2]

theorem lockBase_eq (hn : n < 96) : (s.lockBase n).field .lnEq n 10 6 = s.eqEntry n 26 26 ∧
    (s.lockBase n).field .lnEq n 4 6 = s.field .lnEq n 4 6 ∧ (s.lockBase n).eqEntry n 20 20 = s.eqEntry n 20 20 := by
  let u := (checkerSearch n (((s.setPma n 2 false).setPma n 3 false).setPma n 4 false)).modRx n fun r =>
    { r with locking := true, heard := s.hears n }
  have honly : LaneOnly n [.lnPmaStatus, .lnPatStatus] [] s u :=
    (((setPma_only s 2 false).trans (setPma_only _ 3 false)).trans (setPma_only _ 4 false)).trans
      (((checkerSearch_only _ n).mono).trans (modRx_only _ _))
  have hentry (ov im : Nat) : u.eqEntry n ov im = s.eqEntry n ov im := by
    rw [State.eqEntry, honly.bit hn, honly.field hn, honly.cfg, State.eqEntry]
  refine ⟨?_, ?_, (applyTxEq_eqEntry u n).trans (hentry ..)⟩
  · refine (u.setField_field .lnEq n _ (by decide)).trans ((Nat.mod_eq_of_lt (eqEntry_lt ..)).trans (hentry ..))
  · exact (u.setField_field_of_disjoint _ _ _ (.inl (by decide))).trans (honly.field hn 4 6)

theorem lockStart_only (hn : n < 96) : LaneOnly n lockKinds [] s (lockStart n s) := by
  rw [lockStart_eq s n hn]
  refine .ite ?_ (lockBase_only s n)
  exact (((lockBase_only s n).trans (modRx_only _ _)).trans (setPma_only _ 6 false)).trans (setField_only _ (by decide) _ _ _)

/-- A lock changes of the lane's own state the receiver alone. -/
theorem lockStart_lane (hn : n < 96) : (lockStart n s).lane n = { s.lane n with rx := { (s.lane n).rx with
    locking := true, heard := s.hears n, chk := 0, chkRun := 0, chkErr := 0, lost := (s.lane n).rx.lost && !s.hears n } } := by
  rw [lockStart_eq s n hn]
  split
  · next h =>
    rw [applyRxEq_eq, setField_lane, setPma_lane, modRx_rx, lockBase_lane, h, Bool.not_true, Bool.and_false]
  · next h =>
    rw [lockBase_lane, Bool.eq_false_iff.2 h, Bool.not_false, Bool.and_true]

theorem lockStart_pma (hn : n < 96) {c : Nat} (hc : c < 32) : (lockStart n s).bit .lnPmaStatus n c =
    if c = 2 ∨ c = 3 ∨ c = 4 ∨ (c = 6 ∧ s.hears n = true) then false else s.bit .lnPmaStatus n c := by
  rw [lockStart_eq s n hn]
  have hbase := lockBase_pma s n hn hc
  split
  · next h =>
    have hframe (u : State) : LaneOnly n [.lnEq] [] u (applyRxEq n u) := setField_only u (by decide) _ _ _
    rw [(hframe _).bit hn, setPma_bit _ _ _ hc, modRx_bit, hbase]
    by_cases h6 : c = 6 <;> simp [h6, h]
  · next h => simp [hbase, h]

/-- The registers of the equaliser and of the checker after a lock has begun. -/
theorem lockStart_entries (hn : n < 96) : (lockStart n s).field .lnEq n 10 6 = s.eqEntry n 26 26 ∧
    (lockStart n s).field .lnEq n 4 6 = (if s.hears n then s.eqEntry n 20 20 else s.field .lnEq n 4 6) ∧
    (lockStart n s).bit .lnPatStatus n 0 = false := by
  obtain ⟨htx, hrx, hentry⟩ := lockBase_eq s n hn
  have hpat : (s.lockBase n).bit .lnPatStatus n 0 = false := by
    have hframe (u : State) (f : LaneRx → LaneRx) : LaneOnly n [.lnEq] [] u (applyTxEq n (u.modRx n f)) :=
      (modRx_only u f).trans (setField_only _ (by decide) _ _ _)
    exact ((hframe _ _).bit hn 0).trans (checkerSearch_lock _ n)
  rw [lockStart_eq s n hn]
  split
  · let w := ((s.lockBase n).modRx n fun r => { r with lost := false }).setPma n 6 false
    have hw : LaneOnly n [.lnPmaStatus] [] (s.lockBase n) w := (modRx_only _ _).trans (setPma_only _ 6 false)
    have hwentry : w.eqEntry n 20 20 = (s.lockBase n).eqEntry n 20 20 := by
      rw [State.eqEntry, hw.bit hn, hw.field hn, hw.cfg, State.eqEntry]
    have happlied : LaneOnly n [.lnEq] [] w (applyRxEq n w) := setField_only w (by decide) _ _ _
    refine ⟨?_, ?_, (happlied.bit hn 0).trans ((hw.bit hn 0).trans hpat)⟩
    · exact (w.setField_field_of_disjoint _ _ _ (.inr (by decide))).trans ((hw.field hn 10 6).trans htx)
    · exact (w.setField_field .lnEq n _ (by decide)).trans ((Nat.mod_eq_of_lt (eqEntry_lt ..)).trans (hwentry.trans hentry))
  · exact ⟨htx, hrx, hpat⟩

theorem lockStart_begun (hn : n < 96) : LockBegun n s (lockStart n s) := by
  obtain ⟨htx, hrx, hpat⟩ := lockStart_entries s n hn
  have hlane := lockStart_lane s n hn
  have hbit {c : Nat} (hc : c < 32) := lockStart_pma s n hn hc
  unfold LockBegun
  rw [hlane]
  refine ⟨hbit (by decide), hbit (by decide), hbit (by decide), hpat, rfl, rfl, rfl, rfl, rfl, htx, fun h => ⟨?_, ?_, ?_⟩,
    fun h => ⟨?_, ?_, ?_⟩⟩
  · simp only [h, Bool.not_true, Bool.and_false]
  · rw [hbit (by decide), if_pos (by simp [h])]
  · rw [hrx, if_pos h]
    rfl
  · simp only [h, Bool.not_false, Bool.and_true]
  · rw [hbit (by decide), if_neg (by simp [h])]
  · rw [hrx, h]
    rfl

/-! ### The link state (12_lane_link R290, R291) -/

theorem lockStart_laneState (hn : n < 96) : (lockStart n s).laneState n = s.laneState n := (lockStart_only s n hn).field hn 0 3

theorem lockStop_only : LaneOnly n [.lnPmaStatus] [] s (lockStop n s) :=
  (((setPma_only s 2 false).trans (setPma_only _ 3 false)).trans (setPma_only _ 4 false)).trans (modRx_only _ _)

theorem lockStop_lane : (lockStop n s).lane n = { s.lane n with rx := { (s.lane n).rx with locking := false } } := modRx_rx ..

theorem lockStop_pma {c : Nat} (hc : c < 32) : (lockStop n s).bit .lnPmaStatus n c =
    if c = 2 ∨ c = 3 ∨ c = 4 then false else s.bit .lnPmaStatus n c := by
  rw [lockStop, modRx_bit, setPma_bit _ _ _ hc, setPma_bit _ _ _ hc, setPma_bit _ _ _ hc]
  by_cases h4 : c = 4 <;> by_cases h3 : c = 3 <;> by_cases h2 : c = 2 <;> simp [h4, h3, h2]

theorem unalign_only : LaneOnly n [.lnLinkStatus] [] s (unalign n s) :=
  (((setLink_only s 9 false).trans (setLink_only _ 10 false)).trans (modRx_only _ _)).trans (modAdit_only _ _)

/-- What a lost alignment leaves of a receiver: its lock and its checker. -/
theorem unalign_lane : ((unalign n s).lane n).tx = (s.lane n).tx ∧
    ((unalign n s).lane n).rx = { (s.lane n).rx with
      bits := [], phase := 0, runs := [], align := none, inval := 0, cw := [], cwPhase := 0, cwTried := true, cwRuns := []
      cwAlign := none, cwBad := 0 } := by
  rw [unalign, modAdit_adit, modRx_rx]
  exact ⟨rfl, rfl⟩

theorem unalign_laneState : (unalign n s).laneState n = s.laneState n := by
  rw [unalign, modAdit_laneState, modRx_laneState, setLink_laneState _ _ (by decide), setLink_laneState _ _ (by decide)]

theorem unalign_link {c : Nat} (hc : c < 32) : (unalign n s).bit .lnLinkStatus n c =
    if c = 9 ∨ c = 10 then false else s.bit .lnLinkStatus n c := by
  rw [unalign, modAdit_bit, modRx_bit, setLink_bit _ _ _ hc, setLink_bit _ _ _ hc]
  by_cases h9 : c = 9 <;> by_cases h10 : c = 10 <;> simp [h9, h10]

/-- The registers that a lane's way up from LOCK writes. -/
def beginKinds : List RegKind := .lnLinkStatus :: lockKinds

theorem beginLock_only (hn : n < 96) : LaneOnly n beginKinds [] s (beginLock n s) :=
  ((setLaneState_only s 2).trans (unalign_only _ n).mono).trans (lockStart_only _ n hn).mono

theorem beginLock_laneState (hn : n < 96) : (beginLock n s).laneState n = 2 := by
  rw [beginLock, lockStart_laneState _ _ hn, unalign_laneState, setLaneState_laneState _ _ (by decide)]

theorem beginLock_link (hn : n < 96) {c : Nat} (hc : c < 32) (h3 : 3 ≤ c) : (beginLock n s).bit .lnLinkStatus n c =
    if c = 9 ∨ c = 10 then false else s.bit .lnLinkStatus n c := by
  rw [beginLock, (lockStart_only _ n hn).bit hn, unalign_link _ _ hc, setLaneState_linkBit _ _ h3]

end Sys2Proof.Machine
end

section
/-! SUPPORT. The way of one lane to UP, its link-down and its transmitter (11_lane_electrical R244, R263, R264; 12_lane_link R291, R294,
R296): what each step does, and what it leaves alone. -/

set_option Elab.async false

namespace Sys2Proof

open Sys2Proof.Machine

/-- What a receiver hears depends on signal detect and the loopback alone (11_lane_electrical R260, R272). -/
theorem LaneOnly.hears {n : Nat} {own : List RegKind} {more : List Nat} {s t : State} (h : LaneOnly n own more s t) (hn : n < 96)
    (hstatus : ∀ k' ∈ own, k' ∈ laneKinds ∧ k' ≠ .lnPmaStatus := by decide)
    (hctrl : ∀ k' ∈ own, k' ∈ laneKinds ∧ k' ≠ .lnPmaCtrl := by decide)
    (hmore : more.all besideLanes = true := by simp [adEvt_besideLanes]) : t.hears n = s.hears n := by
  rw [State.hears, State.signal, h.bit hn 1 (by decide) hstatus hmore, State.loop, h.field hn 4 2 (by decide) hctrl hmore]
  rfl

end Sys2Proof

namespace Sys2Proof.Machine

variable (s : State) {n : Nat}

/-! ### A lock from LOCK on -/

theorem beginLock_hears (hn : n < 96) : (unalign n (s.setLaneState n 2)).hears n = s.hears n :=
  ((setLaneState_only (own := [.lnLinkStatus]) (more := []) s 2).trans (unalign_only _ n)).hears hn

theorem beginLock_pma (hn : n < 96) {c : Nat} (hc : c < 32) : (beginLock n s).bit .lnPmaStatus n c =
    if c = 2 ∨ c = 3 ∨ c = 4 ∨ (c = 6 ∧ s.hears n = true) then false else s.bit .lnPmaStatus n c := by
  rw [beginLock, lockStart_pma _ _ hn hc, beginLock_hears s hn, (unalign_only _ n).bit hn,
    (setLaneState_only (own := [.lnLinkStatus]) (more := []) s 2).bit hn]

theorem beginLock_lane (hn : n < 96) : ((beginLock n s).lane n).tx = (s.lane n).tx ∧ ((beginLock n s).lane n).rx.locking = true ∧
    ((beginLock n s).lane n).rx.heard = s.hears n ∧ ((beginLock n s).lane n).rx.lost = ((s.lane n).rx.lost && !s.hears n) ∧
    ((beginLock n s).lane n).rx.pre = (s.lane n).rx.pre := by
  obtain ⟨htx, hrx⟩ := unalign_lane (s.setLaneState n 2) n
  rw [beginLock, lockStart_lane _ _ hn, beginLock_hears s hn]
  refine ⟨htx, rfl, rfl, ?_, ?_⟩
  · dsimp only
    rw [hrx]
    rfl
  · dsimp only
    rw [hrx]
    rfl

/-! ### The way up (12_lane_link R291) -/

/-- The registers that a step up writes, beside `ADbb_EVT`. -/
def stepKinds : List RegKind := [.lnLinkStatus, .lnLinkEvt]

theorem linkUp_only (hn : n < 96) : LaneOnly n stepKinds [RegKind.adEvt.addr (n / 4)] s (linkUp n s) := by
  unfold linkUp
  extract_lets u v
  have hv : LaneOnly n stepKinds [RegKind.adEvt.addr (n / 4)] s v :=
    (((setLaneState_only s 5).trans (setLink_only _ 8 false)).trans (setLink_only _ 12 false)).trans (flagLink_only u 0)
  exact .ite ((hv.trans (modAdit_only v _)).trans (flagAdit_only _ hn _)) hv

theorem linkUp_lane : ((linkUp n s).lane n).tx = (s.lane n).tx ∧ ((linkUp n s).lane n).rx = (s.lane n).rx := by
  unfold linkUp
  extract_lets u v
  have hv : v.lane n = s.lane n := flagLink_lane u n 0 n
  split
  · rw [flagAdit_lane, modAdit_adit, hv]
    exact ⟨rfl, rfl⟩
  · rw [hv]
    exact ⟨rfl, rfl⟩

theorem linkUp_laneState (hn : n < 96) : (linkUp n s).laneState n = 5 := by
  unfold linkUp
  extract_lets u v
  have hu : u.laneState n = 5 := by
    rw [setLink_laneState _ _ (by decide), setLink_laneState _ _ (by decide), setLaneState_laneState _ _ (by decide)]
  have hv : v.laneState n = 5 := ((flagLink_only (own := [.lnLinkEvt]) (more := []) u 0).field hn 0 3).trans hu
  split
  · have hadit : LaneOnly n [] [RegKind.adEvt.addr (n / 4)] v (flagAdit (n / 4) (n % 4) (v.modAdit n fun a =>
        { a with kept := true, matched := 0, oks := 0 })) := (modAdit_only v _).trans (flagAdit_only _ hn _)
    exact (hadit.field hn 0 3).trans hv
  · exact hv

/-- A locked receiver under a locked transmit PLL ends LOCK. -/
def State.lockedAt (s : State) (n : Nat) : Prop := s.laneState n = 2 ∧ s.ready n = true ∧ s.bit .lnPmaStatus n 0 = true

/-- The first step up: LOCK ends, and a lane without blocks is UP. -/
def leaveLock (n : Nat) (s : State) : State :=
  if s.laneState n = 2 ∧ s.ready n ∧ s.bit .lnPmaStatus n 0 then (if lnProto s.cfg n = 1 then linkUp n s else s.setLaneState n 3) else s

/-- The next: ALIGN ends in TRAIN or UP. -/
def leaveAlign (n : Nat) (s : State) : State :=
  if s.laneState n = 3 ∧ (s.bit .lnLinkStatus n 9 && (!(lnFec s.cfg n) || s.bit .lnLinkStatus n 10)) then
    (if s.isAdit n then s.setLaneState n 4 else linkUp n s) else s

theorem advanceLink_eq : advanceLink n s = leaveAlign n (leaveLock n s) := rfl

theorem leaveLock_only (hn : n < 96) : LaneOnly n stepKinds [RegKind.adEvt.addr (n / 4)] s (leaveLock n s) :=
  .ite (.ite (linkUp_only s hn) (setLaneState_only s 3)) .refl

theorem leaveAlign_only (hn : n < 96) : LaneOnly n stepKinds [RegKind.adEvt.addr (n / 4)] s (leaveAlign n s) :=
  .ite (.ite (setLaneState_only s 4) (linkUp_only s hn)) .refl

theorem advanceLink_only (hn : n < 96) : LaneOnly n stepKinds [RegKind.adEvt.addr (n / 4)] s (advanceLink n s) :=
  (leaveLock_only s hn).trans (leaveAlign_only _ hn)

/-- A step up changes neither the transmitter nor the receiver. -/
theorem advanceLink_lane : ((advanceLink n s).lane n).tx = (s.lane n).tx ∧ ((advanceLink n s).lane n).rx = (s.lane n).rx := by
  have hlock : ((leaveLock n s).lane n).tx = (s.lane n).tx ∧ ((leaveLock n s).lane n).rx = (s.lane n).rx := by
    unfold leaveLock
    split
    · split
      · exact linkUp_lane s
      · exact ⟨rfl, rfl⟩
    · exact ⟨rfl, rfl⟩
  rw [advanceLink_eq, ← hlock.1, ← hlock.2]
  unfold leaveAlign
  split
  · split
    · exact ⟨rfl, rfl⟩
    · exact linkUp_lane _
  · exact ⟨rfl, rfl⟩

/-- From ALIGN a lane stays or goes on, to TRAIN or UP. -/
theorem leaveAlign_of_align (hn : n < 96) (h : s.laneState n = 3) :
    3 ≤ (leaveAlign n s).laneState n ∧ (leaveAlign n s).laneState n ≤ 5 := by
  unfold leaveAlign
  split
  · split
    · rw [setLaneState_laneState _ _ (by decide)]
      decide
    · rw [linkUp_laneState s hn]
      decide
  · rw [h]
    decide

/-- From LOCK a lane that is locked goes on, and one without blocks to UP. -/
theorem advanceLink_of_locked (hn : n < 96) (h : s.lockedAt n) : 3 ≤ (advanceLink n s).laneState n ∧ (advanceLink n s).laneState n ≤ 5 ∧
    (lnProto s.cfg n = 1 → (advanceLink n s).laneState n = 5) := by
  have hlock : leaveLock n s = if lnProto s.cfg n = 1 then linkUp n s else s.setLaneState n 3 := if_pos h
  rw [advanceLink_eq, hlock]
  by_cases hraw : lnProto s.cfg n = 1
  · have hup := linkUp_laneState s hn
    rw [if_pos hraw, leaveAlign, if_neg (by rw [hup]; exact fun h => absurd h.1 (by decide)), hup]
    exact ⟨by decide, by decide, fun _ => rfl⟩
  · obtain ⟨h3, h5⟩ := leaveAlign_of_align (s.setLaneState n 3) hn (setLaneState_laneState _ _ (by decide))
    rw [if_neg hraw]
    exact ⟨h3, h5, fun h => absurd h hraw⟩

/-- A lane that is neither locked in LOCK nor in ALIGN stays where it is. -/
theorem advanceLink_of_still (h3 : s.laneState n ≠ 3) (h : ¬ s.lockedAt n) : advanceLink n s = s := by
  have hlock : leaveLock n s = s := if_neg h
  rw [advanceLink_eq, hlock]
  exact if_neg fun h => h3 h.1

/-! ### Link-down (12_lane_link R294) -/

theorem linkDown_only (hn : n < 96) : LaneOnly n stepKinds [RegKind.adEvt.addr (n / 4)] s (linkDown n s) := by
  unfold linkDown
  extract_lets u v
  have hu : LaneOnly n stepKinds [RegKind.adEvt.addr (n / 4)] s u := .ite (modTx_only s _) .refl
  have hv : LaneOnly n stepKinds [RegKind.adEvt.addr (n / 4)] s v := (hu.trans (setLink_only u 12 true)).trans (flagLink_only _ 1)
  exact .ite hu (.ite (hv.trans (flagAdit_only v hn _)) hv)

/-- Link-down drops what an ADIT lane was to send, and nothing else of the lane's own state. -/
theorem linkDown_lane : (linkDown n s).lane n = if s.isAdit n then
    { s.lane n with tx := { (s.lane n).tx with out := [], inFrame := false } } else s.lane n := by
  unfold linkDown
  extract_lets u v
  have hu : u.lane n = if s.isAdit n then { s.lane n with tx := { (s.lane n).tx with out := [], inFrame := false } } else s.lane n := by
    unfold u
    split
    · exact modTx_tx ..
    · rfl
  have hv : v.lane n = u.lane n := flagLink_lane _ n 1 n
  rw [← hu]
  split
  · rfl
  · split
    · rw [flagAdit_lane, hv]
    · exact hv

/-- Link-down shows in its bit of the link's status, and in no other. -/
theorem linkDown_status (hn : n < 96) : (linkDown n s).bit .lnLinkStatus n 12 = true ∧ (linkDown n s).laneState n = s.laneState n ∧
    (linkDown n s).bit .lnLinkStatus n 8 = s.bit .lnLinkStatus n 8 := by
  unfold linkDown
  extract_lets u v
  have hu : u.reg .lnLinkStatus n = s.reg .lnLinkStatus n := by
    unfold u
    split <;> rfl
  have hbit (c : Nat) : u.bit .lnLinkStatus n c = s.bit .lnLinkStatus n c := congrArg (·.getLsbD c) hu
  have hstate : u.laneState n = s.laneState n := congrArg (fun w : Word => bitsOf 0 3 w.toNat) hu
  have hflag : LaneOnly n [.lnLinkEvt] [] (u.setLink n 12 true) v := flagLink_only _ 1
  have hv : v.bit .lnLinkStatus n 12 = true ∧ v.laneState n = s.laneState n ∧ v.bit .lnLinkStatus n 8 = s.bit .lnLinkStatus n 8 := by
    refine ⟨(hflag.bit hn 12).trans ?_, (hflag.field hn 0 3).trans ?_, (hflag.bit hn 8).trans ?_⟩
    · exact setLink_bit u n true (by decide)
    · exact (setLink_laneState u n (by decide) true).trans hstate
    · exact (setLink_bit u n true (by decide)).trans (hbit 8)
  split
  · next h => exact ⟨h, hstate, hbit 8⟩
  · split
    · have hadit : LaneOnly n [] [RegKind.adEvt.addr (n / 4)] v (flagAdit (n / 4) (4 + n % 4) v) := flagAdit_only v hn _
      rw [hadit.bit hn, hadit.bit hn, State.laneState, hadit.field hn]
      exact hv
    · exact hv

/-! ### Bring-up (12_lane_link R291, R296) -/

/-- A lane that waits for its cable or its signal. -/
def laneWaits (n : Nat) (s : State) : State := (unalign n (lockStop n s)).setLaneState n 1

theorem laneWaits_only : LaneOnly n beginKinds [] s (laneWaits n s) :=
  ((lockStop_only s n).mono.trans (unalign_only _ n).mono).trans (setLaneState_only _ 1)

theorem laneWaits_lane : ((laneWaits n s).lane n).tx = (s.lane n).tx := by
  rw [laneWaits, setLaneState_lane, (unalign_lane _ n).1, lockStop_lane]

section

variable {s} (hon : s.laneOn n = true) (hproto : lnProto s.cfg n ≠ 0) (hgen : s.gen n = 0)
include hon hproto hgen

/-- A lane with a service and without a pattern begins its lock, or waits for its cable or signal. -/
theorem bringUp_cases : bringUp n s = beginLock n s ∨ (bringUp n s = laneWaits n s ∧ lnHpMode s.cfg n ≠ 0) := by
  unfold bringUp
  extract_lets open?
  rw [if_pos hon, if_neg hproto, if_neg (not_not_intro hgen)]
  split
  · exact .inl rfl
  · next hshut => exact .inr ⟨rfl, fun h0 => hshut (by unfold open?; rw [h0]; rfl)⟩

/-- A lane that waits for its signal begins its lock once there is one. -/
theorem bringUp_of_signal (hmode : lnHpMode s.cfg n = 2) (hsignal : s.signal n = true) : bringUp n s = beginLock n s := by
  have hne : ¬ s.gen n ≠ 0 := not_not_intro hgen
  simp only [bringUp, hon, hproto, hne, if_true, if_false, hmode, hsignal]

end

theorem bringUp_only (hn : n < 96) : LaneOnly n beginKinds [] s (bringUp n s) := by
  unfold bringUp
  extract_lets open?
  refine .ite (.ite ?_ (.ite ?_ (.ite (beginLock_only s n hn) (laneWaits_only s)))) (setLaneState_only s 0)
  · exact (setLaneState_only s 0).trans (lockStart_only _ n hn).mono
  · exact ((setLaneState_only s 7).trans (unalign_only _ n).mono).trans (lockStart_only _ n hn).mono

/-! ### The transmitter (11_lane_electrical R253, R263, R264) -/

theorem quietTx_only : LaneOnly n [.lnPmaStatus] [] s (quietTx n s) := (setPma_only s 5 true).trans (modTx_only _ _)

theorem quietTx_lane : (quietTx n s).lane n = { s.lane n with tx := { (s.lane n).tx with tail := [0] } } := modTx_tx ..

theorem quietTx_pma {c : Nat} (hc : c < 32) : (quietTx n s).bit .lnPmaStatus n c = if c = 5 then true else s.bit .lnPmaStatus n c :=
  setPma_bit s n true hc

theorem putLine_only (syms : List Nat) : LaneOnly n [] [] s (putLine n syms s) := modTx_only s _

theorem sendBurst_only : LaneOnly n [] [] s (sendBurst n s) := (putLine_only s _).trans (modTx_only _ _)

theorem putLine_sent (syms : List Nat) : LineSent n syms s (putLine n syms s) ∧ ((putLine n syms s).lane n) = { s.lane n with
    tx := { (s.lane n).tx with
      line := ((putLine n syms s).lane n).tx.line, tail := ((putLine n syms s).lane n).tx.tail, fir := ((putLine n syms s).lane n).tx.fir } } := by
  have h : (putLine n syms s).lane n = _ := modTx_tx ..
  unfold LineSent
  rw [h]
  exact ⟨⟨rfl, rfl, rfl⟩, rfl⟩

/-- A training burst goes out, and of the lane's own state only the transmitter changes. -/
theorem sendBurst_sent : BurstSent n s (sendBurst n s) ∧ ((sendBurst n s).lane n).rx = (s.lane n).rx ∧
    ((sendBurst n s).lane n).adit = (s.lane n).adit := by
  obtain ⟨hline, hlane⟩ := putLine_sent s (n := n) ((burstSymbols (lnPam4 s.cfg n)).map
    (invertSymbol (lnPam4 s.cfg n) (lnCfg s.cfg n 17 1 = 1)))
  unfold BurstSent LineSent at *
  rw [sendBurst, modTx_tx]
  refine ⟨⟨hline, ?_⟩, ?_, ?_⟩
  · dsimp only
    rw [hlane]
  · dsimp only
    rw [hlane]
  · dsimp only
    rw [hlane]

theorem enterRxIdle_only : LaneOnly n [.lnPmaStatus] [] s (enterRxIdle n s) := (setPma_only s 6 true).trans (setPma_only _ 4 false)

@[simp] theorem enterRxIdle_lane (m : Nat) : (enterRxIdle n s).lane m = s.lane m := rfl

/-- Receive idle shows in its bit, and the receiver is no longer READY (11_lane_electrical R265). -/
theorem enterRxIdle_pma {c : Nat} (hc : c < 32) : (enterRxIdle n s).bit .lnPmaStatus n c =
    if c = 6 then true else if c = 4 then false else s.bit .lnPmaStatus n c := by
  rw [enterRxIdle, setPma_bit _ _ _ hc, setPma_bit _ _ _ hc]
  by_cases h4 : c = 4 <;> by_cases h6 : c = 6 <;> simp [h4, h6]

end Sys2Proof.Machine
end

section
/-! SUPPORT. Transmit PLLs (11_lane_electrical R244, R263): what a lock of one does to its lane. -/

set_option Elab.async false

namespace Sys2Proof

open Sys2Proof.Machine

section

variable {n : Nat} {s s' t t' : State}

/-- A lock begun, seen from a state before that differs in nothing that a lock reads. -/
theorem LockBegun.of_before (h : LockBegun n s' t) (hcfg : s'.cfg = s.cfg) (heq : s'.reg .lnEq n = s.reg .lnEq n)
    (hears : s'.hears n = s.hears n) (hlost : (s'.lane n).rx.lost = (s.lane n).rx.lost)
    (hidle : s'.bit .lnPmaStatus n 6 = s.bit .lnPmaStatus n 6) : LockBegun n s t := by
  unfold LockBegun State.bit State.field at *
  rw [hcfg, heq, hears, hlost, hidle] at h
  exact h

/-- A lock begun stays begun where the receiver and what shows it stay. -/
theorem LockBegun.then_kept (h : LockBegun n s t) (hrx : (t'.lane n).rx = (t.lane n).rx)
    (hpma : t'.reg .lnPmaStatus n = t.reg .lnPmaStatus n) (hpat : t'.reg .lnPatStatus n = t.reg .lnPatStatus n)
    (heq : t'.reg .lnEq n = t.reg .lnEq n) : LockBegun n s t' := by
  unfold LockBegun State.ready State.bit State.field at *
  rw [hrx, hpma, hpat, heq]
  exact h

/-- A burst sent, seen from a state before that differs in nothing that the transmitter reads. -/
theorem BurstSent.of_before (h : BurstSent n s' t) (hcfg : s'.cfg = s.cfg) (heq : s'.reg .lnEq n = s.reg .lnEq n)
    (hctrl : s'.reg .lnPmaCtrl n = s.reg .lnPmaCtrl n) (htx : (s'.lane n).tx = (s.lane n).tx) : BurstSent n s t := by
  unfold BurstSent LineSent State.loop State.field at *
  rw [hcfg, heq, hctrl, htx] at h
  exact h

theorem BurstSent.then_kept (h : BurstSent n s t) (htx : (t'.lane n).tx = (t.lane n).tx) : BurstSent n s t' := by
  unfold BurstSent LineSent at *
  rw [htx]
  exact h

end

end Sys2Proof

namespace Sys2Proof.Machine

variable (s : State) {n : Nat}

theorem exec_txpllLock (l : Fin 96) : exec (.txpllLock l) s = .next (txpllLock l.val s) := rfl

theorem exec_refclkLoss (k : Fin 12) : exec (.refclkLoss k) s = .next (refclkLoss k.val s) := rfl

theorem exec_refclkBack (k : Fin 12) : exec (.refclkBack k) s = .next (refclkBack k.val s) := rfl

theorem exec_relock (p : HostPort) (l : Fin 96) : exec (.relock p l) s =
    .next (hostCommand p .lnPmaCtrl l.val (s.actWord .lnPmaCtrl l.val (word (2 ^ 7))) (relockWrite l.val) s) := rfl

/-! ### The transmit PLL (11_lane_electrical R244) -/

/-- An enabled lane with a valid reference clock whose transmit PLL is not locked. -/
def State.pllLocks (s : State) (n : Nat) : Prop := s.laneOn n = true ∧ s.refOk n = true ∧ s.bit .lnPmaStatus n 0 = false

/-- The transmit PLL locked, and electrical idle left where nobody asks for it. -/
def State.pllLocked (s : State) (n : Nat) : State :=
  if s.idleAsked n then s.setPma n 0 true else sendBurst n ((s.setPma n 0 true).setPma n 5 false)

/-- And a lock begun, where the receiver is neither locking nor READY nor waiting. -/
def State.pllRelocked (s : State) (n : Nat) : State :=
  if (s.lane n).rx.locking ∨ s.ready n ∨ s.laneState n = 1 then s.pllLocked n else lockStart n (s.pllLocked n)

theorem pllLocked_only : LaneOnly n [.lnPmaStatus] [] s (s.pllLocked n) :=
  .ite (setPma_only s 0 true) (((setPma_only s 0 true).trans (setPma_only _ 5 false)).trans (sendBurst_only _).mono)

theorem pllLocked_rx : ((s.pllLocked n).lane n).rx = (s.lane n).rx := by
  unfold State.pllLocked
  split
  · rfl
  · exact (sendBurst_sent _).2.1

theorem pllLocked_pma {c : Nat} (hc : c < 32) : (s.pllLocked n).bit .lnPmaStatus n c =
    if c = 0 then true else if c = 5 ∧ s.idleAsked n = false then false else s.bit .lnPmaStatus n c := by
  unfold State.pllLocked
  split
  · next h => simp [setPma_bit _ _ _ hc, h]
  · next h =>
    have hsent (u : State) : (sendBurst n u).bit .lnPmaStatus n c = u.bit .lnPmaStatus n c := rfl
    rw [hsent, setPma_bit _ _ _ hc, setPma_bit _ _ _ hc]
    by_cases h5 : c = 5 <;> by_cases h0 : c = 0 <;> simp [h5, h0, h]

/-- Electrical idle that nobody asks for ends in a training burst; otherwise the transmitter stays as it is (11_lane_electrical R263). -/
theorem pllLocked_tx (hn : n < 96) : (s.idleAsked n = true → ((s.pllLocked n).lane n).tx = (s.lane n).tx) ∧
    (s.idleAsked n = false → BurstSent n s (s.pllLocked n)) := by
  refine ⟨fun h => by rw [State.pllLocked, if_pos h, setPma_lane], fun h => ?_⟩
  have hframe : LaneOnly n [.lnPmaStatus] [] s ((s.setPma n 0 true).setPma n 5 false) := (setPma_only s 0 true).trans (setPma_only _ 5 false)
  rw [State.pllLocked, if_neg (by simp [h])]
  exact (sendBurst_sent _).1.of_before rfl (hframe.reg hn) (hframe.reg hn) rfl

theorem txpllLock_of_not (h : ¬ s.pllLocks n) : txpllLock n s = s := if_neg h

theorem txpllLock_of_locks (hn : n < 96) (h : s.pllLocks n) : txpllLock n s = advanceLink n (s.pllRelocked n) := by
  have hframe : LaneOnly n [.lnPmaStatus] [] s (s.setPma n 0 true) := setPma_only s 0 true
  have hasked : (s.setPma n 0 true).idleAsked n = s.idleAsked n := by
    rw [State.idleAsked, State.laneState, hframe.bit hn, hframe.field hn, hframe.bit hn, setPma_lane, State.idleAsked, State.laneState]
  have hready : (s.pllLocked n).ready n = s.ready n := (pllLocked_pma s (by decide)).trans rfl
  have hstate : (s.pllLocked n).laneState n = s.laneState n := (pllLocked_only s).field hn 0 3
  unfold txpllLock
  extract_lets u v w
  have hv : v = s.pllLocked n := by
    unfold v
    rw [hasked]
    rfl
  have hw : w = s.pllRelocked n := by
    unfold w
    rw [hv, pllLocked_rx, hready, hstate]
    rfl
  rw [hw]
  exact if_pos h

theorem pllRelocked_only (hn : n < 96) : LaneOnly n lockKinds [] s (s.pllRelocked n) :=
  .ite (pllLocked_only s).mono ((pllLocked_only s).mono.trans (lockStart_only _ n hn))

theorem pllRelocked_tx (hn : n < 96) : ((s.pllRelocked n).lane n).tx = ((s.pllLocked n).lane n).tx := by
  unfold State.pllRelocked
  split
  · rfl
  · rw [lockStart_lane _ _ hn]

theorem pllRelocked_pma (hn : n < 96) {c : Nat} (hc : c = 0 ∨ c = 5) :
    (s.pllRelocked n).bit .lnPmaStatus n c = (s.pllLocked n).bit .lnPmaStatus n c := by
  unfold State.pllRelocked
  split
  · rfl
  · rw [lockStart_pma _ _ hn (by omega), if_neg (by omega)]

theorem pllRelocked_ready (hn : n < 96) (h : s.ready n = false) : (s.pllRelocked n).ready n = false := by
  have hlocked : (s.pllLocked n).ready n = s.ready n := (pllLocked_pma s (by decide)).trans rfl
  unfold State.pllRelocked
  split
  · exact hlocked.trans h
  · exact (lockStart_begun _ n hn).1

/-- A receiver that is neither locking nor READY nor waiting begins a lock when its transmit PLL has locked. -/
theorem pllRelocked_begun (hn : n < 96) (hlocking : (s.lane n).rx.locking = false) (hready : s.ready n = false) (hwaits : s.laneState n ≠ 1) :
    LockBegun n s (s.pllRelocked n) := by
  have hframe := pllLocked_only s (n := n)
  have hears : (s.pllLocked n).hears n = s.hears n := by
    rw [State.hears, State.signal, pllLocked_pma s (by decide), State.loop, hframe.field hn]
    rfl
  rw [State.pllRelocked, if_neg (by simp [hlocking, hready, hwaits])]
  exact (lockStart_begun _ n hn).of_before hframe.cfg (hframe.reg hn) hears (by rw [pllLocked_rx]) ((pllLocked_pma s (by decide)).trans rfl)

end Sys2Proof.Machine
end

section
/-! SUPPORT. Reference clocks (11_lane_electrical R245): the lanes and benches of one that is lost or back, and `RELOCK`. -/

set_option Elab.async false

namespace Sys2Proof.Machine

variable (s : State) {n : Nat}

/-! ### The lanes of a reference clock -/

/-- Lane `n` and its status registers are the same. -/
def SameLane (n : Nat) (s t : State) : Prop :=
  t.lane n = s.lane n ∧ (n < 96 → t.reg .lnPmaStatus n = s.reg .lnPmaStatus n ∧ t.reg .lnLinkStatus n = s.reg .lnLinkStatus n)

theorem SameLane.refl (n : Nat) (s : State) : SameLane n s s := ⟨rfl, fun _ => ⟨rfl, rfl⟩⟩

theorem SameLane.trans {n : Nat} {s t u : State} (h : SameLane n s t) (h' : SameLane n t u) : SameLane n s u :=
  ⟨h'.1.trans h.1, fun hn => ⟨(h'.2 hn).1.trans (h.2 hn).1, (h'.2 hn).2.trans (h.2 hn).2⟩⟩

/-- A lane's clock is lost: nothing is locked, the lane idles, and its link is back in LOCK where it had left it. -/
def ClockLost (n : Nat) (s t : State) : Prop :=
  t.bit .lnPmaStatus n 0 = false ∧ t.bit .lnPmaStatus n 5 = true ∧ t.ready n = false ∧ (t.lane n).rx.locking = false ∧
    (t.lane n).tx = { (s.lane n).tx with tail := [0] } ∧
    (2 ≤ s.laneState n → s.laneState n ≤ 6 → t.laneState n = 2 ∧ t.bit .lnLinkStatus n 9 = false ∧ t.bit .lnLinkStatus n 10 = false)

theorem ClockLost.congr {s s' t t' : State} (h : ClockLost n s' t) (hn : n < 96) (hs : SameLane n s s') (ht : SameLane n t t') :
    ClockLost n s t' := by
  obtain ⟨hlane, hregs⟩ := hs
  obtain ⟨hlane', hregs'⟩ := ht
  obtain ⟨-, hlink⟩ := hregs hn
  obtain ⟨hpma', hlink'⟩ := hregs' hn
  unfold ClockLost State.ready State.laneState State.bit State.field at *
  rw [hlane', hpma', hlink', ← hlane, ← hlink]
  exact h

/-- What the loss of its clock does to one lane. -/
def laneLost (n : Nat) (s : State) : State :=
  if s.pmaOn n then
    let s := lockStop n (quietTx n (s.setPma n 0 false))
    if 2 ≤ s.laneState n ∧ s.laneState n ≤ 6 then unalign n (s.setLaneState n 2) else s
  else s

theorem laneLost_only : LaneOnly n [.lnPmaStatus, .lnLinkStatus] [] s (laneLost n s) := by
  unfold laneLost
  extract_lets u
  have hu : LaneOnly n [.lnPmaStatus, .lnLinkStatus] [] s u :=
    ((setPma_only s 0 false).trans (quietTx_only _).mono).trans (lockStop_only _ n).mono
  exact .ite (.ite ((hu.trans (setLaneState_only u 2)).trans (unalign_only _ n).mono) hu) .refl

theorem laneLost_lost (hn : n < 96) (hon : s.pmaOn n = true) : ClockLost n s (laneLost n s) := by
  let u := lockStop n (quietTx n (s.setPma n 0 false))
  have hpma {c : Nat} (hc : c < 32) : u.bit .lnPmaStatus n c = if c = 2 ∨ c = 3 ∨ c = 4 then false else if c = 5 then true else
      if c = 0 then false else s.bit .lnPmaStatus n c := by
    rw [lockStop_pma _ _ hc, quietTx_pma _ hc, setPma_bit _ _ _ hc]
  have hlane : u.lane n = { s.lane n with
      tx := { (s.lane n).tx with tail := [0] }, rx := { (s.lane n).rx with locking := false } } := by
    rw [lockStop_lane, quietTx_lane, setPma_lane]
  have hstate : u.laneState n = s.laneState n := by
    have hu : LaneOnly n [.lnPmaStatus] [] s u := ((setPma_only s 0 false).trans (quietTx_only _)).trans (lockStop_only _ n)
    exact hu.field hn 0 3
  have heq : laneLost n s = if 2 ≤ s.laneState n ∧ s.laneState n ≤ 6 then unalign n (u.setLaneState n 2) else u := by
    rw [← hstate]
    exact if_pos hon
  rw [heq]
  split
  · next h =>
    obtain ⟨htx, hrx⟩ := unalign_lane (u.setLaneState n 2) n
    have hframe : LaneOnly n [.lnLinkStatus] [] u (unalign n (u.setLaneState n 2)) := (setLaneState_only u 2).trans (unalign_only _ n)
    refine ⟨?_, ?_, ?_, ?_, ?_, fun _ _ => ⟨?_, ?_, ?_⟩⟩
    · rw [hframe.bit hn, hpma (by decide)]
      rfl
    · rw [hframe.bit hn, hpma (by decide)]
      rfl
    · rw [State.ready, hframe.bit hn, hpma (by decide)]
      rfl
    · rw [hrx, setLaneState_lane, hlane]
    · rw [htx, setLaneState_lane, hlane]
    · rw [unalign_laneState, setLaneState_laneState _ _ (by decide)]
    · rw [unalign_link _ _ (by decide)]
      rfl
    · rw [unalign_link _ _ (by decide)]
      rfl
  · next h =>
    refine ⟨(hpma (by decide)).trans rfl, (hpma (by decide)).trans rfl, (hpma (by decide)).trans rfl, by rw [hlane], by rw [hlane],
      fun h2 h6 => absurd ⟨h2, h6⟩ h⟩

/-- The loss of one lane's clock touches no other lane. -/
theorem laneLost_other {m : Nat} (hm : m ≠ n) : SameLane m s (laneLost n s) := by
  have hframe := laneLost_only s (n := n)
  have hreg {k : RegKind} (hk : k ∈ laneKinds) (h96 : m < 96) : (laneLost n s).reg k m = s.reg k m :=
    RegsKept.laneReg hframe.2.1 h96 hk (fun k' hk' => ⟨by revert k'; decide, .inr hm.symm⟩) rfl
  exact ⟨hframe.1 m hm, fun h96 => ⟨hreg (by decide) h96, hreg (by decide) h96⟩⟩

/-- What the loss of lanes' clocks leaves of the benches and of everything beside the lanes. -/
structure BesideLanes (s t : State) : Prop where
  beside : besideFlags { t with lanes := s.lanes } = besideFlags s
  status : ∀ b, t.reg .lbStatus b = s.reg .lbStatus b
  evt : ∀ b, t.reg .lbEvt b = s.reg .lbEvt b

theorem BesideLanes.refl : BesideLanes s s := ⟨rfl, fun _ => rfl, fun _ => rfl⟩

theorem BesideLanes.trans {s t u : State} (h : BesideLanes s t) (h' : BesideLanes t u) : BesideLanes s u :=
  ⟨(congrArg (fun v : State => besideFlags { v with lanes := s.lanes }) h'.beside :).trans h.beside,
    fun b => (h'.status b).trans (h.status b), fun b => (h'.evt b).trans (h.evt b)⟩

theorem laneLost_besideLanes (hn : n < 96) : BesideLanes s (laneLost n s) := by
  have hframe := laneLost_only s (n := n)
  have hreg {k : RegKind} {b : Nat} (haddr : 0x98000 ≤ k.addr b) : (laneLost n s).reg k b = s.reg k b := by
    refine hframe.2.1.reg (fun ha => ?_) ?_
    · rw [List.append_nil] at ha
      obtain ⟨k', hk', he⟩ := List.mem_map.1 ha
      have hlane : k' ∈ laneKinds := (by decide : ∀ k' ∈ [RegKind.lnPmaStatus, .lnLinkStatus], k' ∈ laneKinds) k' hk'
      exact laneKind_addr_ne_beside hlane hn (by rw [besideLanes, decide_eq_true haddr, Bool.or_true]) he
    · simp only [eventRegister, Bool.or_eq_false_iff, Bool.and_eq_false_iff, decide_eq_false_iff_not, beq_eq_false_iff_ne]
      omega
  exact ⟨hframe.beside, fun b => hreg (Nat.le_add_right _ _), fun b => hreg (Nat.le_add_right_of_le (by decide))⟩

/-- The lanes of a list lose their clock where they run, and no others. -/
structure LanesLost (l : List Nat) (s t : State) : Prop where
  lost : ∀ n ∈ l, s.pmaOn n = true → ClockLost n s t
  same : ∀ n, n ∉ l ∨ s.pmaOn n = false → SameLane n s t
  beside : BesideLanes s t

theorem laneLost_of_off (h : s.pmaOn n = false) : laneLost n s = s := if_neg (by rw [h]; exact Bool.false_ne_true)

/-- One lane more. -/
theorem LanesLost.cons {m : Nat} {l : List Nat} {s t : State} (h : LanesLost l (laneLost m s) t) (hl : ∀ n ∈ m :: l, n < 96)
    (hm : m ∉ l) : LanesLost (m :: l) s t := by
  obtain ⟨hlost, hsame, hbeside⟩ := h
  have hm96 : m < 96 := hl m List.mem_cons_self
  have hon (n : Nat) : (laneLost m s).pmaOn n = s.pmaOn n := (laneLost_only s).pmaOn n
  refine ⟨fun n hn h => ?_, fun n hn => ?_, (laneLost_besideLanes s hm96).trans hbeside⟩
  · rcases List.mem_cons.1 hn with rfl | hn
    · exact (laneLost_lost s hm96 h).congr hm96 (.refl n s) (hsame n (.inl hm))
    · have hne : n ≠ m := fun e => hm (e ▸ hn)
      exact (hlost n hn ((hon n).trans h)).congr (hl n (List.mem_cons_of_mem _ hn)) (laneLost_other s hne) (.refl n _)
  · by_cases hne : n = m
    · subst hne
      have hoff : s.pmaOn n = false := hn.resolve_left (not_not_intro List.mem_cons_self)
      rw [laneLost_of_off s hoff] at hsame
      exact hsame n (.inr hoff)
    · exact (laneLost_other s hne).trans (hsame n (hn.imp (fun h h' => h (List.mem_cons_of_mem _ h')) (hon n).trans))

theorem lanesLost (l : List Nat) (hl : ∀ n ∈ l, n < 96) (hnodup : l.Nodup) : LanesLost l s (l.foldl (fun s n => laneLost n s) s) := by
  induction l generalizing s with
  | nil => exact ⟨fun _ h => absurd h List.not_mem_nil, fun n _ => .refl n s, .refl s⟩
  | cons m l ih =>
    obtain ⟨hm, hnodup⟩ := List.nodup_cons.1 hnodup
    exact (ih (laneLost m s) (fun n hn => hl n (List.mem_cons_of_mem _ hn)) hnodup).cons hl hm

/-! ### The benches of a reference clock -/

theorem flagBench_kept (b c : Nat) : RegsKept [RegKind.lbEvt.addr b] s (flagBench b c s) :=
  setFlags_kept s (how := .crossing 1 (160 + b)) _ trivial

theorem flagBench_besideFlags (b c : Nat) : besideFlags (flagBench b c s) = besideFlags s := setFlags_besideFlags s _ _ _ _ _

/-- A bench's registers lie beyond the lanes', at addresses of their own. -/
theorem bench_addr {k k' : RegKind} (hk : k = .lbStatus ∨ k = .lbEvt) (hk' : k' = .lbStatus ∨ k' = .lbEvt) {b b' : Nat}
    (hne : k ≠ k' ∨ b ≠ b') : k.addr b ≠ k'.addr b' ∧ 0x98000 ≤ k.addr b ∧ eventRegister (k.addr b) = false := by
  have hstatus (b : Nat) : RegKind.lbStatus.addr b = 0x98000 + b * 0x10 := rfl
  have hevt (b : Nat) : RegKind.lbEvt.addr b = 0x98004 + b * 0x10 := rfl
  have haddr (k : RegKind) (hk : k = .lbStatus ∨ k = .lbEvt) (b : Nat) : 0x98000 ≤ k.addr b := by
    rcases hk with rfl | rfl
    · rw [hstatus]; omega
    · rw [hevt]; omega
  refine ⟨?_, haddr k hk b, ?_⟩
  · rcases hk with rfl | rfl <;> rcases hk' with rfl | rfl <;> simp only [hstatus, hevt, ne_eq, not_true_eq_false, false_or] at hne ⊢ <;> omega
  · have := haddr k hk b
    simp only [eventRegister, Bool.or_eq_false_iff, Bool.and_eq_false_iff, decide_eq_false_iff_not, beq_eq_false_iff_ne]
    omega

/-- A bench's status and a flag of it set. -/
def benchSet (b c : Nat) (v : Bool) (s : State) : State := flagBench b c (s.setField .lbStatus b 0 1 (bitNat v))

theorem benchSet_kept (b c : Nat) (v : Bool) : RegsKept [RegKind.lbStatus.addr b, RegKind.lbEvt.addr b] s (benchSet b c v s) :=
  (RegsKept.of_one (setField_kept s _ _ _ _ _) List.mem_cons_self).trans (RegsKept.of_one (flagBench_kept _ b c) (by simp))

theorem benchSet_besideFlags (b c : Nat) (v : Bool) : besideFlags (benchSet b c v s) = besideFlags s := flagBench_besideFlags _ b c

theorem benchSet_sets (b : Nat) {c : Nat} (hc : c < 32) (v : Bool) :
    (benchSet b c v s).bit .lbStatus b 0 = v ∧ (benchSet b c v s).bit .lbEvt b c = true := by
  let u := s.setField .lbStatus b 0 1 (bitNat v)
  obtain ⟨hne, -, hevent⟩ := bench_addr (k := .lbStatus) (k' := .lbEvt) (.inl rfl) (.inr rfl) (b := b) (b' := b) (.inl (by decide))
  obtain ⟨-, -, hevent'⟩ := bench_addr (k := .lbEvt) (k' := .lbEvt) (.inr rfl) (.inr rfl) (b := b) (b' := b + 1) (.inr (by omega))
  have hstatus : (benchSet b c v s).reg .lbStatus b = u.reg .lbStatus b := (flagBench_kept u b c).reg (by simpa using hne) hevent
  have hevt : (benchSet b c v s).reg .lbEvt b = u.reg .lbEvt b ||| bitWord c :=
    setFlags_self u (how := .crossing 1 (160 + b)) _ trivial hevent'
  refine ⟨?_, ?_⟩
  · rw [State.bit, hstatus]
    exact s.setField_bit .lbStatus v (by decide)
  · rw [State.bit, hevt, BitVec.getLsbD_or, bitWord_self hc, Bool.or_true]

/-- The other bench of a pair is as it was. -/
theorem benchSet_other {b b' : Nat} (hne : b' ≠ b) (c : Nat) (v : Bool) {k : RegKind} (hk : k = .lbStatus ∨ k = .lbEvt) :
    (benchSet b c v s).reg k b' = s.reg k b' := by
  obtain ⟨hstatus, -, hevent⟩ := bench_addr (k' := .lbStatus) hk (.inl rfl) (.inr hne)
  obtain ⟨hevt, -, -⟩ := bench_addr (k' := .lbEvt) hk (.inr rfl) (.inr hne)
  exact (benchSet_kept s b c v).reg (by simp [hstatus, hevt]) hevent

theorem benchSet_sameLane (b c : Nat) (v : Bool) (n : Nat) : SameLane n s (benchSet b c v s) := by
  have hlane : (benchSet b c v s).lane n = s.lane n := (congrArg (fun u : State => u.lane n) (benchSet_besideFlags s b c v) :)
  have hreg {k : RegKind} (hk : k ∈ laneKinds) (hn : n < 96) : (benchSet b c v s).reg k n = s.reg k n := by
    obtain ⟨-, hstatus, -⟩ := bench_addr (k := .lbStatus) (k' := .lbEvt) (.inl rfl) (.inr rfl) (b := b) (b' := b) (.inl (by decide))
    obtain ⟨-, hevt, -⟩ := bench_addr (k := .lbEvt) (k' := .lbStatus) (.inr rfl) (.inl rfl) (b := b) (b' := b) (.inl (by decide))
    have hbeside {a : Nat} (ha : 0x98000 ≤ a) : k.addr n ≠ a :=
      laneKind_addr_ne_beside hk hn (by rw [besideLanes, decide_eq_true ha, Bool.or_true])
    exact (benchSet_kept s b c v).reg (by simp [hbeside hstatus, hbeside hevt]) (laneKind_not_event hk n)
  exact ⟨hlane, fun hn => ⟨hreg (by decide) hn, hreg (by decide) hn⟩⟩

/-! ### Loss and return of a reference clock -/

/-- The lanes of a bench. -/
def lanesOfBench (b : Nat) : List Nat := (List.range 4).map (4 * b + ·)

theorem mem_lanesOfBench {b n : Nat} : n ∈ lanesOfBench b ↔ n / 4 = b := by
  simp only [lanesOfBench, List.mem_map, List.mem_range]
  constructor
  · rintro ⟨p, hp, rfl⟩
    omega
  · intro h
    exact ⟨n % 4, by omega, by omega⟩

theorem lanesOfBench_nodup (b : Nat) : (lanesOfBench b).Nodup :=
  List.Nodup.map (fun _ _ h => Nat.add_left_cancel h) List.nodup_range

/-- What the loss of its clock does to one bench. -/
def benchLost (b : Nat) (s : State) : State := (lanesOfBench b).foldl (fun s n => laneLost n s) (benchSet b 0 false s)

/-- A bench is without its clock, its lanes that run have lost it, and every other lane and bench stays. -/
structure BenchLost (b : Nat) (s t : State) : Prop where
  status : t.bit .lbStatus b 0 = false
  evt : t.bit .lbEvt b 0 = true
  others : ∀ b', b' ≠ b → t.reg .lbStatus b' = s.reg .lbStatus b' ∧ t.reg .lbEvt b' = s.reg .lbEvt b'
  lost : ∀ n, n / 4 = b → s.pmaOn n = true → ClockLost n s t
  same : ∀ n, n / 4 ≠ b ∨ s.pmaOn n = false → SameLane n s t
  beside : besideFlags { t with lanes := s.lanes } = besideFlags s

/-- The lanes of a bench that has lost its clock lose theirs. -/
theorem LanesLost.benchLost {b : Nat} {u t : State} (h : LanesLost (lanesOfBench b) u t) (hb : b < 24) (hu : besideFlags u = besideFlags s)
    (hstatus : u.bit .lbStatus b 0 = false) (hevt : u.bit .lbEvt b 0 = true)
    (hothers : ∀ b', b' ≠ b → u.reg .lbStatus b' = s.reg .lbStatus b' ∧ u.reg .lbEvt b' = s.reg .lbEvt b')
    (hlanes : ∀ n, SameLane n s u) : BenchLost b s t := by
  obtain ⟨hlost, hsame, hbeside, hstatus', hevt'⟩ := h
  have hon (n : Nat) : u.pmaOn n = s.pmaOn n := (congrArg (fun v : State => v.pmaOn n) hu :)
  refine ⟨?_, ?_, fun b' hb' => ⟨(hstatus' b').trans (hothers b' hb').1, (hevt' b').trans (hothers b' hb').2⟩, fun n hn h => ?_,
    fun n hn => ?_, ?_⟩
  · rwa [State.bit, hstatus' b]
  · rwa [State.bit, hevt' b]
  · exact (hlost n (mem_lanesOfBench.2 hn) ((hon n).trans h)).congr (by omega) (hlanes n) (.refl n _)
  · exact (hlanes n).trans (hsame n (hn.imp (fun h h' => h (mem_lanesOfBench.1 h')) (hon n).trans))
  · have hlanes' : u.lanes = s.lanes := (congrArg State.lanes hu :)
    rw [hlanes'] at hbeside
    exact hbeside.trans hu

theorem benchLost_loses {b : Nat} (hb : b < 24) : BenchLost b s (benchLost b s) := by
  have hlanes : ∀ n ∈ lanesOfBench b, n < 96 := fun n hn => by
    have := mem_lanesOfBench.1 hn
    omega
  obtain ⟨hbit, hflag⟩ := benchSet_sets s b (c := 0) (by decide) false
  exact (lanesLost (benchSet b 0 false s) (lanesOfBench b) hlanes (lanesOfBench_nodup b)).benchLost s hb
    (benchSet_besideFlags s b 0 false) hbit hflag
    (fun b' hb' => ⟨benchSet_other s hb' 0 false (.inl rfl), benchSet_other s hb' 0 false (.inr rfl)⟩) (benchSet_sameLane s b 0 false)

theorem refclkLoss_of_not {k : Nat} (h : ¬ (refUsed s.cfg k = true ∧ s.bit .lbStatus (2 * k) 0 = true)) : refclkLoss k s = s := if_neg h

theorem benchLost_eq (b : Nat) :
    benchLost b s = (List.range 4).foldl (fun s p => laneLost (4 * b + p) s) (benchSet b 0 false s) := by
  rw [benchLost, lanesOfBench, List.foldl_map]

theorem refclkLoss_of_used {k : Nat} (h : refUsed s.cfg k = true ∧ s.bit .lbStatus (2 * k) 0 = true) :
    refclkLoss k s = benchLost (2 * k + 1) (benchLost (2 * k) (stopTests (fun r => r.type = 4 && r.target / 2 = k) s)) := by
  have hfold (u : State) : (List.range 2).foldl (fun s i => (List.range 4).foldl (fun s p => laneLost (4 * (2 * k + i) + p) s)
      (benchSet (2 * k + i) 0 false s)) u = benchLost (2 * k + 1) (benchLost (2 * k) u) := by
    simp only [← benchLost_eq]
    rw [List.range_succ, List.range_one, List.singleton_append, List.foldl_cons, List.foldl_cons, List.foldl_nil]
    rfl
  rw [refclkLoss, if_pos h]
  exact hfold _

/-- Both benches lose their clock, and their lanes that run with them. -/
structure RefclkLost (k : Nat) (s t : State) : Prop where
  benches : ∀ b, b / 2 = k → t.bit .lbStatus b 0 = false ∧ t.bit .lbEvt b 0 = true
  lost : ∀ n, n / 8 = k → s.pmaOn n = true → ClockLost n s t
  same : ∀ n, n / 8 ≠ k ∨ s.pmaOn n = false → SameLane n s t
  beside : besideFlags { t with lanes := s.lanes } = besideFlags s

theorem BenchLost.refclkLost {k : Nat} {s u t : State} (hk : k < 12) (h : BenchLost (2 * k) s u) (h' : BenchLost (2 * k + 1) u t) :
    RefclkLost k s t := by
  have hon (n : Nat) : u.pmaOn n = s.pmaOn n := (congrArg (fun w : State => w.pmaOn n) h.beside :)
  refine ⟨fun b hb => ?_, fun n hn hrun => ?_, fun n hn => ?_, ?_⟩
  · obtain rfl | rfl : b = 2 * k ∨ b = 2 * k + 1 := by omega
    · obtain ⟨hstatus, hevt⟩ := h'.others (2 * k) (by omega)
      exact ⟨(congrArg (·.getLsbD 0) hstatus).trans h.status, (congrArg (·.getLsbD 0) hevt).trans h.evt⟩
    · exact ⟨h'.status, h'.evt⟩
  · obtain hb | hb : n / 4 = 2 * k ∨ n / 4 = 2 * k + 1 := by omega
    · exact (h.lost n hb hrun).congr (by omega) (.refl n s) (h'.same n (.inl (by omega)))
    · exact (h'.lost n hb ((hon n).trans hrun)).congr (by omega) (h.same n (.inl (by omega))) (.refl n _)
  · exact (h.same n (hn.imp (by omega) id)).trans (h'.same n (hn.imp (by omega) (hon n).trans))
  · exact (congrArg (fun w : State => besideFlags { w with lanes := s.lanes }) h'.beside :).trans h.beside

theorem refclkLoss_loses {k : Nat} (hk : k < 12) (h : refUsed s.cfg k = true ∧ s.bit .lbStatus (2 * k) 0 = true) :
    RefclkLost k (stopTests (fun r => r.type = 4 && r.target / 2 = k) s) (refclkLoss k s) := by
  rw [refclkLoss_of_used s h]
  exact (benchLost_loses _ (by omega)).refclkLost hk (benchLost_loses _ (by omega))

theorem refclkBack_of_not {k : Nat}
    (h : ¬ (refUsed s.cfg k = true ∧ s.bit .lbStatus (2 * k) 0 = false ∧ s.sysRuns = true ∧ s.configured = true)) : refclkBack k s = s :=
  if_neg h

/-- Both benches have their clock back. -/
theorem refclkBack_regains {k : Nat}
    (h : refUsed s.cfg k = true ∧ s.bit .lbStatus (2 * k) 0 = false ∧ s.sysRuns = true ∧ s.configured = true) : let t := refclkBack k s
    (∀ b, b / 2 = k → t.bit .lbStatus b 0 = true ∧ t.bit .lbEvt b 1 = true) ∧
      RegsKept ([2 * k, 2 * k + 1].flatMap fun b => [RegKind.lbStatus.addr b, RegKind.lbEvt.addr b]) s t ∧ besideFlags t = besideFlags s := by
  intro t
  let u := benchSet (2 * k) 1 true s
  have ht : t = benchSet (2 * k + 1) 1 true u := if_pos h
  rw [ht]
  refine ⟨fun b hb => ?_, ?_, (benchSet_besideFlags u _ 1 true).trans (benchSet_besideFlags s _ 1 true)⟩
  · obtain rfl | rfl : b = 2 * k ∨ b = 2 * k + 1 := by omega
    · obtain ⟨hbit, hflag⟩ := benchSet_sets s (2 * k) (c := 1) (by decide) true
      have hother {k' : RegKind} (hk' : k' = .lbStatus ∨ k' = .lbEvt) := benchSet_other u (b := 2 * k + 1) (b' := 2 * k) (by omega) 1 true hk'
      exact ⟨(congrArg (·.getLsbD 0) (hother (.inl rfl))).trans hbit, (congrArg (·.getLsbD 1) (hother (.inr rfl))).trans hflag⟩
    · exact benchSet_sets u (2 * k + 1) (by decide) true
  · exact ((benchSet_kept s (2 * k) 1 true).mono fun _ ha => .inl (List.mem_flatMap.2 ⟨2 * k, by simp, ha⟩)).trans
      ((benchSet_kept u (2 * k + 1) 1 true).mono fun _ ha => .inl (List.mem_flatMap.2 ⟨2 * k + 1, by simp, ha⟩))

/-! ### RELOCK (11_lane_electrical R260) -/

theorem relockWrite_of_off (h : s.laneOn n = false) : relockWrite n s = s := if_neg (by simp [h])

theorem relockWrite_of_on (h : s.laneOn n = true) : relockWrite n s = lockStart n s := if_pos h

end Sys2Proof.Machine
end

section
/-! The statement about transmit PLLs, reference clocks and `RELOCK`. -/

set_option Elab.async false

open Sys2Proof Sys2Proof.Machine

/-- Settles O39: a transmit PLL that locks is `pllRelocked` and then a step up; the loss of a reference clock is `benchLost` of both its
benches, lane by lane. -/
theorem laneClocks : Obligations.LaneClocks := by
  unfold Obligations.LaneClocks
  refine ⟨?_, ?_, ?_⟩
  · intro l s n on
    have hn : n < 96 := l.isLt
    simp only [exec_txpllLock]
    refine ⟨fun h => congrArg _ (txpllLock_of_not s h), fun h => ⟨_, congrArg _ (txpllLock_of_locks s hn h), ?_⟩⟩
    let u := s.pllRelocked n
    have hframe : LaneOnly n lockKinds [] s u := pllRelocked_only s hn
    have hup := advanceLink_only u hn
    have hstate : u.laneState n = s.laneState n := hframe.field hn 0 3
    obtain ⟨htx, hrx⟩ := advanceLink_lane u (n := n)
    obtain ⟨hstays, hburst⟩ := pllLocked_tx s hn
    have hpma {c : Nat} (hc : c = 0 ∨ c = 5) : (advanceLink n u).bit .lnPmaStatus n c = (s.pllLocked n).bit .lnPmaStatus n c :=
      (hup.bit hn c).trans (pllRelocked_pma s hn hc)
    refine ⟨?_, fun hasked => ⟨?_, ?_⟩, fun hasked => ⟨?_, ?_⟩, fun hidle => ?_, fun hlocking hready hwaits => ?_, fun h2 hready => ?_,
      fun h3 h2 => ?_, ?_⟩
    · rw [hpma (.inl rfl), pllLocked_pma s (by decide)]
      rfl
    · rw [hpma (.inr rfl), pllLocked_pma s (by decide)]
      simp [hasked]
    · rw [htx, pllRelocked_tx s hn, hstays hasked]
    · rw [hpma (.inr rfl), pllLocked_pma s (by decide)]
      simp [hasked]
    · exact (hburst hasked).then_kept (htx.trans (pllRelocked_tx s hn))
    · rw [hrx]
      exact (congrArg (fun v : State => (v.lane n).rx) (if_pos hidle)).trans (pllLocked_rx s)
    · exact (pllRelocked_begun s hn hlocking hready hwaits).then_kept hrx (hup.reg hn) (hup.reg hn) (hup.reg hn)
    · have hu : u = s.pllLocked n := if_pos (.inr (.inl hready))
      have hlocked : u.lockedAt n := by
        refine ⟨hstate.trans h2, ?_, ?_⟩
        · rw [hu, State.ready, pllLocked_pma s (by decide)]
          exact hready
        · rw [hu, pllLocked_pma s (by decide)]
          rfl
      rw [← hframe.cfg]
      exact advanceLink_of_locked u hn hlocked
    · have hopen : ¬ u.lockedAt n := fun ⟨h2', hready', _⟩ => by
        have hready := pllRelocked_ready s hn (h2.resolve_left (not_not_intro (hstate ▸ h2')))
        exact Bool.false_ne_true (hready.symm.trans hready')
      rw [advanceLink_of_still u (hstate ▸ h3) hopen, hstate]
    · exact hframe.mono.trans hup.mono
  · intro k s used has
    simp only [exec_refclkLoss, exec_refclkBack]
    refine ⟨fun h => congrArg _ (refclkLoss_of_not s ?_), fun hused hhas => ?_,
      fun h => congrArg _ (refclkBack_of_not s ?_), fun hused hhas hruns hconf => ⟨_, rfl, refclkBack_regains s ⟨hused, hhas, hruns, hconf⟩⟩⟩
    · rintro ⟨hused, hhas⟩
      exact h.elim (· hused) fun h => Bool.false_ne_true (h.symm.trans hhas)
    · obtain ⟨hbenches, hlost, hsame, hbeside⟩ := refclkLoss_loses s k.isLt ⟨hused, hhas⟩
      refine ⟨_, rfl, hbenches, hlost, hsame, (congrArg State.test hbeside :), ?_⟩
      exact (congrArg (fun w : State => { w with test := s.test }) hbeside :)
    · rintro ⟨hused, hhas, hruns, hconf⟩
      rcases h with h | h | h | h
      · exact h hused
      · exact Bool.false_ne_true (hhas.symm.trans h)
      · exact Bool.false_ne_true (h.symm.trans hruns)
      · exact Bool.false_ne_true (h.symm.trans hconf)
  · intro p l s n near
    have hn : n < 96 := l.isLt
    simp only [exec_relock]
    refine ⟨hostCommand_turnedAway s p _ _ _ _, fun h hoff => ?_, fun h hon => ⟨_, ?_, lockStart_begun s n hn, ?_, ?_, lockStart_only s n hn⟩⟩
    · rw [hostCommand_open s h, relockWrite_of_off s hoff]
    · rw [hostCommand_open s h, relockWrite_of_on s hon]
    · rw [lockStart_lane s n hn]
    · rw [lockStart_lane s n hn]

end

section
/-! SUPPORT. Host writes that give read-write fields of a lane their values (20_register_map R474, R476), the pattern generator and the
pattern checker (11_lane_electrical R266 to R270): what each step does, and what it leaves alone. -/

set_option Elab.async false

namespace Sys2Proof.Machine

variable (s : State) {n : Nat}

/-! ### Host writes of fields -/

theorem hostField_turnedAway (p : HostPort) (k : RegKind) (i : Nat) (val : Word) (f : State → State) :
    FieldTurnedAway p k i val s (.next (hostField p k i val f s)) := by
  refine ⟨hostCommand_turnedAway s p k i val _, fun ⟨hopen, hlate⟩ hval => ?_, fun ⟨hopen, hlate⟩ hval => ⟨_, rfl, ?_⟩⟩
  · rw [hostField, hostCommand_open s hopen, if_pos hlate, noteReserved, if_pos hval]
  · rw [hostField, hostCommand_open s hopen, if_pos hlate]
    exact noteReserved_noted s hval p

/-- A field write that is taken acts once its port is noted as the register's writer. -/
theorem hostField_taken {p : HostPort} {k : RegKind} {i : Nat} (h : FieldTaken p k i s) (val : Word) (f : State → State) :
    hostField p k i val f s = f (noteWrite (writerRank p) (k.addr i) s) := by
  obtain ⟨hopen, htaken⟩ := h
  rw [hostField, hostCommand_open s hopen, if_neg (by rw [htaken]; exact Bool.false_ne_true)]

/-! ### The pattern generator (11_lane_electrical R266, R267; 12_lane_link R305) -/

/-- A pattern of code `code` begun, where it has not begun before: only the generator's own state and the free values change. -/
structure GenBegun (n code : Nat) (s u : State) : Prop where
  regs : u.regs = s.regs
  lane : u.lane n = { s.lane n with tx := { (s.lane n).tx with gen := (u.lane n).tx.gen } }
  frame : LaneOnly n [] [] s { u with freeCtr := s.freeCtr }
  same : s.gen n = code → (u.lane n).tx.gen = (s.lane n).tx.gen
  prbs : ∀ len taps, s.gen n ≠ code → prbsTaps code = some (len, taps) → 0 < (u.lane n).tx.gen ∧ (u.lane n).tx.gen < 2 ^ len
  other : s.gen n ≠ code → prbsTaps code = none → (u.lane n).tx.gen = 0

theorem prbsTaps_len {code len taps : Nat} (h : prbsTaps code = some (len, taps)) : 2 ≤ 2 ^ len := by
  have hlen : 7 ≤ len := by
    unfold prbsTaps at h
    split at h <;> simp at h <;> omega
  exact (Nat.pow_le_pow_right (by decide) hlen).trans' (by decide)

/-- A PRBS starts from any state but zero, another pattern at its first place. -/
theorem startPattern_eq (code : Nat) : ∃ c g,
    startPattern n code s = ({ s with freeCtr := c } : State).modTx n (fun t => { t with gen := g }) ∧
      (∀ len taps, prbsTaps code = some (len, taps) → 0 < g ∧ g < 2 ^ len) ∧ (prbsTaps code = none → g = 0) := by
  unfold startPattern
  split
  · next len taps h =>
    refine ⟨_, _, rfl, fun len' taps' h' => ?_, fun h' => by simp [h] at h'⟩
    have := prbsTaps_len h
    have := Nat.mod_lt (Config.freeNat s.freeCtr) (show 0 < 2 ^ len - 1 by omega)
    obtain ⟨rfl, -⟩ : len = len' ∧ taps = taps' := by simpa [h] using h'
    omega
  · next h => exact ⟨s.freeCtr, 0, rfl, fun len taps h' => by simp [h] at h', fun _ => rfl⟩

theorem startPattern_begun {code : Nat} (h : s.gen n ≠ code) : GenBegun n code s (startPattern n code s) := by
  obtain ⟨c, g, heq, hprbs, hother⟩ := startPattern_eq s (n := n) code
  have hframe : LaneOnly n [] [] s (s.modTx n fun t => { t with gen := g }) := modTx_only s _
  rw [heq]
  refine ⟨rfl, ?_, hframe, fun h' => absurd h' h, fun len taps _ ht => ?_, fun _ ht => ?_⟩
  · rw [modTx_tx]
    rfl
  · rw [modTx_tx]
    exact hprbs len taps ht
  · rw [modTx_tx]
    exact hother ht

/-- The generator once its code is written. -/
theorem genBegun (code : Nat) : GenBegun n code s (if s.gen n = code then s else startPattern n code s) := by
  split
  · next h => exact ⟨rfl, rfl, .refl, fun _ => rfl, fun _ _ hne => absurd h hne, fun hne => absurd h hne⟩
  · next h => exact startPattern_begun s h

/-- What a written code does to the link of a lane with blocks: a pattern that begins takes the lane down, one that ends brings it up. -/
def genLink (n old code : Nat) (s : State) : State :=
  if s.laneOn n ∧ lnProto s.cfg n ≠ 0 then
    if old = 0 ∧ code ≠ 0 then linkDown n (((unalign n s).setLaneState n 7).setLink n 8 false)
    else if old ≠ 0 ∧ code = 0 then bringUp n (s.modTx n fun t => { t with inject := false })
    else s
  else s

theorem genWrite_of_refused {code : Nat} (h : patternAllowed s.cfg n code = false) : genWrite n code s = s :=
  if_neg (by rw [h]; exact Bool.false_ne_true)

theorem genWrite_of_allowed {code : Nat} (h : patternAllowed s.cfg n code = true) : genWrite n code s =
    genLink n (s.gen n) code ((if s.gen n = code then s else startPattern n code s).setField .lnPatCtrl n 0 4 code) := if_pos h

/-- The registers that the link of a lane with a pattern writes. -/
def genKinds : List RegKind := [.lnPmaStatus, .lnPatStatus, .lnEq, .lnLinkStatus, .lnLinkEvt]

theorem genLink_only (hn : n < 96) (old code : Nat) : LaneOnly n genKinds [RegKind.adEvt.addr (n / 4)] s (genLink n old code s) := by
  refine .ite (.ite ?_ (.ite ?_ .refl)) .refl
  · exact (((unalign_only s n).mono.trans (setLaneState_only _ 7)).trans (setLink_only _ 8 false)).trans (linkDown_only _ hn).mono
  · exact (modTx_only s _).trans (bringUp_only _ hn).mono

theorem genLink_of_off {old code : Nat} (h : s.laneOn n = false ∨ lnProto s.cfg n = 0 ∨ (old = 0 ↔ code = 0)) :
    genLink n old code s = s := by
  unfold genLink
  split
  · next hon =>
    obtain ⟨hon, hproto⟩ := hon
    have hsame : old = 0 ↔ code = 0 := (h.resolve_left (by simp [hon])).resolve_left hproto
    rw [if_neg (by tauto), if_neg (by tauto)]
  · rfl

/-- A pattern that begins takes the lane's link down (12_lane_link R305). -/
theorem genLink_begins {code : Nat} (hn : n < 96) (hon : s.laneOn n = true) (hproto : lnProto s.cfg n ≠ 0) (hcode : code ≠ 0) :
    (genLink n 0 code s).laneState n = 7 ∧ (genLink n 0 code s).bit .lnLinkStatus n 8 = false ∧
      (genLink n 0 code s).bit .lnLinkStatus n 12 = true ∧
      ((genLink n 0 code s).lane n).tx = if s.isAdit n then { (s.lane n).tx with out := [], inFrame := false } else (s.lane n).tx := by
  let u := ((unalign n s).setLaneState n 7).setLink n 8 false
  have hu : LaneOnly n [.lnLinkStatus] [] s u :=
    ((unalign_only s n).trans (setLaneState_only _ 7)).trans (setLink_only _ 8 false)
  have htx : (u.lane n).tx = (s.lane n).tx := (unalign_lane s n).1
  have heq : genLink n 0 code s = linkDown n u := (if_pos ⟨hon, hproto⟩).trans (if_pos ⟨rfl, hcode⟩)
  obtain ⟨hdown, hstate, hlinked⟩ := linkDown_status u hn
  rw [heq, hdown, hstate, hlinked, linkDown_lane, hu.isAdit]
  refine ⟨?_, ?_, rfl, ?_⟩
  · rw [setLink_laneState _ _ (by decide), setLaneState_laneState _ _ (by decide)]
  · exact setLink_bit _ _ _ (by decide)
  · split
    · dsimp only
      rw [htx]
    · exact htx

/-- A pattern that ends brings the lane up. -/
theorem genLink_ends {old : Nat} (hn : n < 96) (hon : s.laneOn n = true) (hproto : lnProto s.cfg n ≠ 0) (hold : old ≠ 0)
    (hgen : s.gen n = 0) : ((genLink n old 0 s).lane n).tx = { (s.lane n).tx with inject := false } ∧
      ((genLink n old 0 s).laneState n = 1 ∨ (genLink n old 0 s).laneState n = 2) ∧
      (lnHpMode s.cfg n = 0 → (genLink n old 0 s).laneState n = 2 ∧ ((genLink n old 0 s).lane n).rx.locking = true) := by
  let u := s.modTx n fun t => { t with inject := false }
  have htx : (u.lane n).tx = { (s.lane n).tx with inject := false } := by rw [modTx_tx]
  have heq : genLink n old 0 s = bringUp n u := (if_pos ⟨hon, hproto⟩).trans ((if_neg (by simp [hold])).trans (if_pos ⟨hold, rfl⟩))
  rw [heq, ← htx]
  rcases bringUp_cases (s := u) hon hproto hgen with hup | ⟨hup, hmode⟩
  · obtain ⟨hlane, hlocking, -⟩ := beginLock_lane u hn
    have hstate := beginLock_laneState u n hn
    rw [hup]
    exact ⟨hlane, .inr hstate, fun _ => ⟨hstate, hlocking⟩⟩
  · rw [hup]
    exact ⟨laneWaits_lane u, .inl (setLaneState_laneState _ _ (by decide)), fun h0 => absurd h0 hmode⟩

/-- The link's way leaves the generator alone. -/
theorem genLink_gen {old code : Nat} (hn : n < 96) (hgen : s.gen n = code) :
    ((genLink n old code s).lane n).tx.gen = (s.lane n).tx.gen := by
  by_cases hoff : s.laneOn n = false ∨ lnProto s.cfg n = 0 ∨ (old = 0 ↔ code = 0)
  · rw [genLink_of_off s hoff]
  · obtain ⟨hon, hproto, hchange⟩ : s.laneOn n = true ∧ lnProto s.cfg n ≠ 0 ∧ ¬ (old = 0 ↔ code = 0) := by simpa [not_or] using hoff
    by_cases hold : old = 0
    · subst hold
      obtain ⟨-, -, -, htx⟩ := genLink_begins s hn hon hproto fun h => hchange ⟨fun _ => h, fun _ => rfl⟩
      rw [htx]
      split <;> rfl
    · obtain rfl : code = 0 := by tauto
      obtain ⟨htx, -⟩ := genLink_ends s hn hon hproto hold hgen
      rw [htx]

end Sys2Proof.Machine
end

section
/-! SUPPORT. The pattern checker, its counters and error injection (11_lane_electrical R267 to R270): what each step does, and what it
leaves alone. -/

set_option Elab.async false

namespace Sys2Proof

open Sys2Proof.Machine

/-- A count seen from a state before that reads the counter alike, and to one after that does. -/
theorem CountedOne.of_reads {k : RegKind} {i : Nat} {s s' t t' : State} (h : CountedOne k i s' t') (hs : s'.reg k i = s.reg k i)
    (ht : t.reg k i = t'.reg k i) : CountedOne k i s t := by
  unfold CountedOne at *
  rw [ht, ← hs]
  exact h

end Sys2Proof

namespace Sys2Proof.Machine

variable (s : State) {n : Nat}

/-! ### The checker's code and place (11_lane_electrical R267, R268) -/

theorem chkWrite_of_not {code : Nat} (h : ¬ (patternAllowed s.cfg n code = true ∧ s.field .lnPatCtrl n 8 4 ≠ code)) :
    chkWrite n code s = s := if_neg h

theorem chkWrite_of_taken {code : Nat} (h : patternAllowed s.cfg n code = true ∧ s.field .lnPatCtrl n 8 4 ≠ code) :
    chkWrite n code s = checkerSearch n (s.setField .lnPatCtrl n 8 4 code) := if_pos h

/-- A PRBS is found once 128 bits have followed from those before them. -/
theorem checkerReady_of_prbs {len taps : Nat} (h : prbsTaps (s.chkCode n) = some (len, taps)) :
    s.checkerReady n = if 128 ≤ (s.lane n).rx.chkRun then some ((s.lane n).rx.chk % 2 ^ len) else none := by
  simp only [State.checkerReady, h]

/-- A running checker that searches. -/
def State.chkSearching (s : State) (n : Nat) : Prop := s.pmaOn n = true ∧ s.ready n = true ∧ s.chkCode n ≠ 0 ∧ s.chkLock n = false

theorem checkerSync_of_not (h : ¬ s.chkSearching n ∨ s.checkerReady n = none) : checkerSync n s = s := by
  unfold checkerSync
  split
  · next hon => rw [h.resolve_left (not_not_intro hon)]
  · rfl

theorem checkerSync_of_ready {g : Nat} (h : s.chkSearching n) (hg : s.checkerReady n = some g) :
    checkerSync n s = (s.setField .lnPatStatus n 0 1 1).modRx n fun r => { r with chk := g, chkErr := 0 } := by
  refine (if_pos h).trans ?_
  rw [hg]

/-- A synchronised checker with 64 errors in its window. -/
def State.chkLost (s : State) (n : Nat) : Prop :=
  s.pmaOn n = true ∧ s.chkLock n = true ∧ 64 ≤ onesOf 1024 (s.lane n).rx.chkErr

theorem checkerLoss_of_not (h : ¬ s.chkLost n) : checkerLoss n s = s :=
  if_neg fun ⟨hon, hlock, hlost⟩ => h ⟨hon, hlock, of_decide_eq_true hlost⟩

theorem checkerLoss_of_lost (h : s.chkLost n) :
    checkerLoss n s = flagPma n 5 (countStat .lnPrbsRelock n (patOverflow n 4) (checkerSearch n s)) := by
  obtain ⟨hon, hlock, hlost⟩ := h
  exact if_pos ⟨hon, hlock, decide_eq_true hlost⟩

/-! ### The counters (11_lane_electrical R270) -/

/-- The registers that an overflow writes. -/
def overflowKinds : List RegKind := [.lnPatStatus, .lnPmaEvt]

theorem patOverflow_only (b : Nat) : LaneOnly n overflowKinds [] s (patOverflow n b s) :=
  (setBits_only s (by decide) _).trans (flagPma_only _ 6)

@[simp] theorem patOverflow_lane (b m : Nat) : (patOverflow n b s).lane m = s.lane m := flagPma_lane _ n 6 m

/-- A bit of the pattern status that is 0 stays so where another one overflows. -/
theorem patOverflow_bit (hn : n < 96) {b c : Nat} (hne : b ≠ c) :
    (patOverflow n b s).bit .lnPatStatus n c = s.bit .lnPatStatus n c := by
  have hflag (u : State) : LaneOnly n [.lnPmaEvt] [] u (flagPma n 6 u) := flagPma_only u 6
  rw [patOverflow, (hflag _).bit hn, State.bit, State.setBits_reg, BitVec.getLsbD_or, State.bit, bitWord, BitVec.getLsbD_ofNat,
    Nat.one_shiftLeft, Nat.testBit_two_pow_of_ne hne, Bool.and_false, Bool.or_false]

@[simp] theorem countStat_lane {k : RegKind} {i b : Nat} (m : Nat) :
    (countStat k i (patOverflow n b) s).lane m = s.lane m := by
  unfold countStat
  extract_lets v u
  split
  · rfl
  · split
    · exact patOverflow_lane u b m
    · rfl

/-- A counter of the lane with its overflow. -/
theorem countStat_patOverflow_only {k : RegKind} (b : Nat) :
    LaneOnly n (k :: overflowKinds) [] s (countStat k n (patOverflow n b) s) :=
  countStat_only s List.mem_cons_self fun t => (patOverflow_only t b).mono (List.subset_cons_self _ _)

theorem countStat_patOverflow_bit (hn : n < 96) {k : RegKind} (hk : k ∈ laneKinds) (hne : k ≠ .lnPatStatus) {b c : Nat}
    (hbc : b ≠ c) : (countStat k n (patOverflow n b) s).bit .lnPatStatus n c = s.bit .lnPatStatus n c := by
  have hset (v : Word) : (s.setCount k n 1 v).bit .lnPatStatus n c = s.bit .lnPatStatus n c :=
    congrArg (·.getLsbD c) (s.setReg_reg_ne v (laneKind_addr_ne hk (by decide) hne n n))
  unfold countStat
  extract_lets v u
  split
  · rfl
  · split
    · exact (patOverflow_bit u hn hbc).trans (hset _)
    · exact hset _

theorem countStat_patOverflow {k : RegKind} (hn : n < 96) (hk : k ∈ laneKinds) (hne : k ∉ overflowKinds) (b : Nat) :
    CountedOne k n s (countStat k n (patOverflow n b) s) :=
  countStat_countedOne s fun t => (patOverflow_only t b).reg hn hk (fun k' hk' =>
    ⟨(by decide : ∀ k' ∈ overflowKinds, k' ∈ laneKinds) k' hk', fun h => hne (h ▸ hk')⟩) rfl

/-- A counter of 48 bits in two registers. -/
def State.long (s : State) (n : Nat) (lo hi : RegKind) : Nat := (s.reg lo n).toNat + 2 ^ 32 * (s.reg hi n).toNat

theorem count48_only {lo hi : RegKind} (b k : Nat) : LaneOnly n (lo :: hi :: overflowKinds) [] s (count48 lo hi b n k s) := by
  unfold count48
  extract_lets v t u
  have hu : LaneOnly n (lo :: hi :: overflowKinds) [] s u :=
    (setReg_only s List.mem_cons_self _).trans (setReg_only _ (List.mem_cons_of_mem _ List.mem_cons_self) _)
  exact .ite (hu.trans ((patOverflow_only u b).mono (fun k hk => List.mem_cons_of_mem _ (List.mem_cons_of_mem _ hk)))) hu

@[simp] theorem count48_lane {lo hi : RegKind} (b k m : Nat) : (count48 lo hi b n k s).lane m = s.lane m := by
  unfold count48
  extract_lets v t u
  split
  · exact patOverflow_lane u b m
  · rfl

/-- It counts up to its largest value, and stays there. -/
theorem count48_counts {lo hi : RegKind} (hn : n < 96) (hlo : lo ∈ laneKinds) (hhi : hi ∈ laneKinds) (hne : lo ≠ hi)
    (hlo' : lo ∉ overflowKinds) (hhi' : hi ∉ overflowKinds) (b k : Nat) :
    (count48 lo hi b n k s).long n lo hi = min (s.long n lo hi + k) (2 ^ 48 - 1) := by
  unfold count48
  extract_lets v t u
  have hu : u.long n lo hi = t := by
    have hread : u.reg lo n = word t := by
      rw [State.setReg_reg_ne _ _ (laneKind_addr_ne hhi hlo hne.symm n n), State.setReg_reg]
    have ht : t ≤ 2 ^ 48 - 1 := Nat.min_le_right _ _
    rw [State.long, hread, State.setReg_reg]
    simp only [word, BitVec.toNat_ofNat]
    omega
  have hreads {k' : RegKind} (hk : k' ∈ laneKinds) (hk' : k' ∉ overflowKinds) : (patOverflow n b u).reg k' n = u.reg k' n :=
    (patOverflow_only u b).reg hn hk (fun k hmem =>
      ⟨(by decide : ∀ k' ∈ overflowKinds, k' ∈ laneKinds) k hmem, fun h => hk' (h ▸ hmem)⟩) rfl
  split
  · rw [State.long, hreads hlo hlo', hreads hhi hhi']
    exact hu
  · exact hu

/-- A lost synchronisation: the checker searches, shows it and counts it. -/
theorem checkerLoss_searches (hn : n < 96) (h : s.chkLost n) : (checkerLoss n s).bit .lnPatStatus n 0 = false ∧
    (checkerLoss n s).lane n = { s.lane n with rx := { (s.lane n).rx with chk := 0, chkRun := 0, chkErr := 0 } } ∧
    (checkerLoss n s).bit .lnPmaEvt n 5 = true ∧ CountedOne .lnPrbsRelock n s (checkerLoss n s) ∧
    LaneOnly n [.lnPatStatus, .lnPrbsRelock, .lnPmaEvt] [] s (checkerLoss n s) := by
  let u := checkerSearch n s
  let v := countStat .lnPrbsRelock n (patOverflow n 4) u
  have hu : LaneOnly n [.lnPatStatus] [] s u := checkerSearch_only s n
  have hv : LaneOnly n (.lnPrbsRelock :: overflowKinds) [] u v := countStat_patOverflow_only u 4
  have hflag : LaneOnly n [.lnPmaEvt] [] v (flagPma n 5 v) := flagPma_only v 5
  rw [checkerLoss_of_lost s h]
  refine ⟨?_, ?_, flagPma_bit v n (by decide) (.inl rfl), ?_, (hu.mono.trans hv.mono).trans hflag.mono⟩
  · rw [hflag.bit hn, countStat_patOverflow_bit u hn (by decide) (by decide) (by decide)]
    exact checkerSearch_lock s n
  · rw [flagPma_lane, countStat_lane, checkerSearch_lane]
  · exact (countStat_patOverflow u hn (by decide) (by decide) 4).of_reads (hu.reg hn) (hflag.reg hn)

/-! ### A bit at a synchronised checker -/

/-- The counters of bits and of errors after a bit. -/
def countBit (n : Nat) (bad : Bool) (s : State) : State :=
  let s := count48 .lnPrbsBitsLo .lnPrbsBitsHi 1 n 1 s
  if bad then count48 .lnPrbsErrLo .lnPrbsErrHi 2 n 1 s else s

theorem countBit_only (bad : Bool) : LaneOnly n
    [.lnPatStatus, .lnPmaEvt, .lnPrbsBitsLo, .lnPrbsBitsHi, .lnPrbsErrLo, .lnPrbsErrHi] [] s (countBit n bad s) :=
  .ite ((count48_only s 1 1).mono.trans (count48_only _ 2 1).mono) (count48_only s 1 1).mono

theorem countBit_counts (hn : n < 96) (bad : Bool) :
    (countBit n bad s).long n .lnPrbsBitsLo .lnPrbsBitsHi = min (s.long n .lnPrbsBitsLo .lnPrbsBitsHi + 1) (2 ^ 48 - 1) ∧
      (countBit n bad s).long n .lnPrbsErrLo .lnPrbsErrHi =
        (if bad then min (s.long n .lnPrbsErrLo .lnPrbsErrHi + 1) (2 ^ 48 - 1) else s.long n .lnPrbsErrLo .lnPrbsErrHi) := by
  unfold countBit
  extract_lets u
  have hbits : u.long n .lnPrbsBitsLo .lnPrbsBitsHi = min (s.long n .lnPrbsBitsLo .lnPrbsBitsHi + 1) (2 ^ 48 - 1) :=
    count48_counts s hn (by decide) (by decide) (by decide) (by decide) (by decide) 1 1
  have hother : u.long n .lnPrbsErrLo .lnPrbsErrHi = s.long n .lnPrbsErrLo .lnPrbsErrHi := by
    have hframe : LaneOnly n [.lnPrbsBitsLo, .lnPrbsBitsHi, .lnPatStatus, .lnPmaEvt] [] s u := count48_only s 1 1
    rw [State.long, hframe.reg hn, hframe.reg hn, State.long]
  split
  · have hframe : LaneOnly n [.lnPrbsErrLo, .lnPrbsErrHi, .lnPatStatus, .lnPmaEvt] [] u (count48 .lnPrbsErrLo .lnPrbsErrHi 2 n 1 u) :=
      count48_only u 2 1
    rw [State.long, hframe.reg hn, hframe.reg hn, count48_counts u hn (by decide) (by decide) (by decide) (by decide) (by decide), hother]
    exact ⟨hbits, rfl⟩
  · exact ⟨hbits, hother⟩

/-- A synchronised checker that stays so compares the bit with the pattern's next, and counts. -/
theorem checkBit_of_locked (b : Bool) (hlock : s.chkLock n = true) (hlost : onesOf 1024 (s.lane n).rx.chkErr < 64) :
    let e := patternNext (s.chkCode n) (s.patUser n) (s.lane n).rx.chk
    checkBit n b s = (e.1 != b, (countBit n (e.1 != b) s).modRx n fun r =>
      { r with chk := e.2, chkErr := (2 * r.chkErr + bitNat (e.1 != b)) % 2 ^ 1024 }) := by
  intro e
  have hsync : checkerSync n s = s := checkerSync_of_not s (.inl fun ⟨_, _, _, h⟩ => Bool.false_ne_true (h.symm.trans hlock))
  have hloss : checkerLoss n s = s := checkerLoss_of_not s fun ⟨_, _, h⟩ => absurd h (by omega)
  rw [checkBit, hsync, hloss]
  exact if_pos hlock

/-! ### Injection and clearing (11_lane_electrical R269, R270) -/

theorem inject_of_not (h : ¬ (s.laneOn n = true ∧ (s.gen n ≠ 0 ∨ s.bit .lnPatCtrl n 29 = true))) : inject n s = s := if_neg h

theorem inject_of (h : s.laneOn n = true ∧ (s.gen n ≠ 0 ∨ s.bit .lnPatCtrl n 29 = true)) :
    inject n s = s.modTx n fun t => { t with inject := true } := if_pos h

theorem injectRate_of_zero (h : s.field .lnPatCtrl n 24 5 = 0) : injectRate n s = s := if_pos h

theorem injectRate_of_rate (h : s.field .lnPatCtrl n 24 5 ≠ 0) : injectRate n s = inject n s := if_neg h

/-- Registers of a lane cleared one after another. -/
theorem clearRegs (l : List RegKind) (hl : ∀ k ∈ l, k ∈ laneKinds) : let t := l.foldl (fun s k => s.setReg k n 0) s
    (∀ k ∈ l, t.reg k n = 0) ∧ RegsKept (l.map fun k => k.addr n) s t ∧ besideRegs t = besideRegs s := by
  induction l generalizing s with
  | nil => exact ⟨fun _ h => absurd h List.not_mem_nil, .refl s _, rfl⟩
  | cons k l ih =>
    obtain ⟨hzero, hkept, hbeside⟩ := ih (s.setReg k n 0) fun k' hk' => hl k' (List.mem_cons_of_mem _ hk')
    have hmem : ∀ a ∈ l.map (fun k => k.addr n), a ∈ (k :: l).map (fun k => k.addr n) ∨ eventRegister a = true :=
      fun a ha => .inl (List.mem_cons_of_mem _ ha)
    refine ⟨fun k' hk' => ?_, (RegsKept.of_one (setReg_kept s k n 0) List.mem_cons_self).trans (hkept.mono hmem), hbeside⟩
    by_cases hin : k' ∈ l
    · exact hzero k' hin
    · obtain rfl : k' = k := (List.mem_cons.1 hk').resolve_right hin
      refine (hkept.reg (fun ha => ?_) (laneKind_not_event (hl k' hk') n)).trans (s.setReg_reg k' n 0)
      obtain ⟨k'', hk'', haddr⟩ := List.mem_map.1 ha
      exact hin ((laneKind_addr_inj (hl k'' (List.mem_cons_of_mem _ hk'')) (hl k' hk') haddr).1 ▸ hk'')

end Sys2Proof.Machine
end

section
/-! SUPPORT. The margin slicer, a UI's decision and loopback (11_lane_electrical R254, R261, R271, R272): what each step does, and what it
leaves alone. -/

set_option Elab.async false

namespace Sys2Proof.Machine

/-! ### `LNnn_MARGIN` written (11_lane_electrical R271) -/

/-- The word that `LNnn_MARGIN` takes from a written one: what its fields do not allow stays. -/
def marginWord (old val : Word) : Word :=
  let v := val.toNat
  word (place 31 1 (bitsOf 31 1 v) + place 16 2 (if bitsOf 16 2 v = 3 then bitsOf 16 2 old.toNat else bitsOf 16 2 v) +
    place 8 7 (if bitsOf 8 7 v = 64 then bitsOf 8 7 old.toNat else bitsOf 8 7 v) +
    (if bitsOf 0 7 v ≤ 32 ∨ 96 ≤ bitsOf 0 7 v then bitsOf 0 7 v else bitsOf 0 7 old.toNat))

theorem bitsOf_lt (lo len v : Nat) : bitsOf lo len v < 2 ^ len := Nat.mod_lt _ (by positivity)

/-- The four fields of a margin word lie side by side. -/
theorem marginFields {on eye volt phase : Nat} (hon : on < 2) (heye : eye < 4) (hvolt : volt < 128) (hphase : phase < 128) :
    let w := word (place 31 1 on + place 16 2 eye + place 8 7 volt + phase)
    bitsOf 31 1 w.toNat = on ∧ bitsOf 16 2 w.toNat = eye ∧ bitsOf 8 7 w.toNat = volt ∧ bitsOf 0 7 w.toNat = phase := by
  simp only [word, place, bitsOf, BitVec.toNat_ofNat, Nat.shiftLeft_eq, Nat.shiftRight_eq_div_pow]
  omega

theorem marginWord_fields (old val : Word) :
    (marginWord old val).getLsbD 31 = val.getLsbD 31 ∧
    bitsOf 0 7 (marginWord old val).toNat = (if bitsOf 0 7 val.toNat ≤ 32 ∨ 96 ≤ bitsOf 0 7 val.toNat then bitsOf 0 7 val.toNat
      else bitsOf 0 7 old.toNat) ∧
    bitsOf 8 7 (marginWord old val).toNat = (if bitsOf 8 7 val.toNat = 64 then bitsOf 8 7 old.toNat else bitsOf 8 7 val.toNat) ∧
    bitsOf 16 2 (marginWord old val).toNat = (if bitsOf 16 2 val.toNat = 3 then bitsOf 16 2 old.toNat else bitsOf 16 2 val.toNat) := by
  have hif {c : Prop} [Decidable c] {lo len x y : Nat} : (if c then bitsOf lo len x else bitsOf lo len y) < 2 ^ len := by
    split <;> exact bitsOf_lt ..
  obtain ⟨hon, heye, hvolt, hphase⟩ := marginFields (bitsOf_lt 31 1 val.toNat)
    (hif (c := bitsOf 16 2 val.toNat = 3) (lo := 16) (len := 2) (x := old.toNat) (y := val.toNat))
    (hif (c := bitsOf 8 7 val.toNat = 64) (lo := 8) (len := 7) (x := old.toNat) (y := val.toNat))
    (hif (c := bitsOf 0 7 val.toNat ≤ 32 ∨ 96 ≤ bitsOf 0 7 val.toNat) (lo := 0) (len := 7) (x := val.toNat) (y := old.toNat))
  refine ⟨?_, hphase, hvolt, heye⟩
  have hbit (w : Word) : w.getLsbD 31 = decide (bitsOf 31 1 w.toNat = 1) := by
    rw [BitVec.getLsbD, Nat.testBit_eq_decide_div_mod_eq, bitsOf, Nat.shiftRight_eq_div_pow]
    rfl
  rw [hbit, hbit]
  exact congrArg (fun x : Nat => decide (x = 1)) hon

variable (s : State) {n : Nat}

/-- A changed word clears both counters, and nothing but the three registers changes. -/
theorem marginWrite_writes (val : Word) : let t := marginWrite n val s
    t.reg .lnMargin n = marginWord (s.reg .lnMargin n) val ∧
    (t.reg .lnMargin n ≠ s.reg .lnMargin n → t.reg .lnMarginSamp n = 0 ∧ t.reg .lnMarginErr n = 0) ∧
    (t.reg .lnMargin n = s.reg .lnMargin n → t.reg .lnMarginSamp n = s.reg .lnMarginSamp n ∧ t.reg .lnMarginErr n = s.reg .lnMarginErr n) ∧
    RegsKept [RegKind.lnMargin.addr n, RegKind.lnMarginSamp.addr n, RegKind.lnMarginErr.addr n] s t ∧ besideRegs t = besideRegs s := by
  intro t
  have hms : RegKind.lnMargin.addr n ≠ RegKind.lnMarginSamp.addr n := laneKind_addr_ne (by decide) (by decide) (by decide) n n
  have hme : RegKind.lnMargin.addr n ≠ RegKind.lnMarginErr.addr n := laneKind_addr_ne (by decide) (by decide) (by decide) n n
  have hse : RegKind.lnMarginSamp.addr n ≠ RegKind.lnMarginErr.addr n := laneKind_addr_ne (by decide) (by decide) (by decide) n n
  let u := s.setReg .lnMargin n (marginWord (s.reg .lnMargin n) val)
  have hu : u.reg .lnMargin n = marginWord (s.reg .lnMargin n) val := s.setReg_reg ..
  have hkept : RegsKept [RegKind.lnMargin.addr n, RegKind.lnMarginSamp.addr n, RegKind.lnMarginErr.addr n] s u :=
    RegsKept.of_one (setReg_kept s _ _ _) List.mem_cons_self
  by_cases hsame : marginWord (s.reg .lnMargin n) val = s.reg .lnMargin n
  · have ht : t = u := if_pos hsame
    rw [ht, hu]
    exact ⟨rfl, fun h => absurd hsame h, fun _ => ⟨s.setReg_reg_ne _ hms, s.setReg_reg_ne _ hme⟩, hkept, rfl⟩
  · let v := u.setReg .lnMarginSamp n 0
    have ht : t = v.setReg .lnMarginErr n 0 := if_neg hsame
    have hread : t.reg .lnMargin n = marginWord (s.reg .lnMargin n) val := by
      rw [ht, v.setReg_reg_ne _ hme.symm, u.setReg_reg_ne _ hms.symm, hu]
    refine ⟨hread, fun _ => ⟨?_, ?_⟩, fun h => absurd (hread.symm.trans h) hsame, ?_, ?_⟩
    · rw [ht, v.setReg_reg_ne _ hse.symm, u.setReg_reg]
    · rw [ht, v.setReg_reg]
    · rw [ht]
      exact (hkept.trans (RegsKept.of_one (setReg_kept u _ _ _) (by simp))).trans (RegsKept.of_one (setReg_kept v _ _ _) (by simp))
    · rw [ht]
      rfl

/-- The record of a reserved bit leaves a lane's registers alone. -/
theorem noteReserved_lane (hn : n < 96) {k : RegKind} (hk : k ∈ laneKinds) (p : HostPort) (k' : RegKind) (i : Nat) (val : Word) :
    (noteReserved p k' i val s).reg k n = s.reg k n :=
  noteReserved_other s (.inr ⟨laneKind_addr_ne_beside hk hn rfl, laneKind_addr_ne_beside hk hn rfl⟩) p _

theorem noteReserved_kept (p : HostPort) (k : RegKind) (i : Nat) (val : Word) :
    RegsKept [RegKind.gstat.addr 0, RegKind.gstatAddr.addr 0] s (noteReserved p k i val s) := fun a d ha _ =>
  noteReserved_other s (.inr (by simpa using ha)) p d

/-! ### A UI decided (11_lane_electrical R254, R261, R271) -/

/-- The margin slicer counts a decision that differs. -/
def marginError (n : Nat) (x aux : Int) (s : State) : State :=
  if s.marginDiffers n x aux then countStat .lnMarginErr n (patOverflow n 5) s else s

/-- It counts a UI that it samples. -/
def marginCount (n : Nat) (x aux : Int) (s : State) : State :=
  let s := countStat .lnMarginSamp n (patOverflow n 6) s
  marginError n x (if s.field .lnMargin n 0 7 = 0 then x else aux) s

theorem marginSample_eq (x aux : Int) : marginSample n x aux s =
    let u := s.modRx n fun r => { r with ui := ((s.lane n).rx.ui + 1) % 16 }
    if s.bit .lnMargin n 31 = true ∧ (s.lane n).rx.ui = 0 then marginCount n x aux u else u := rfl

theorem marginError_only (x aux : Int) : LaneOnly n (.lnMarginErr :: overflowKinds) [] s (marginError n x aux s) :=
  .ite (countStat_patOverflow_only s 5) .refl

theorem marginError_lane (x aux : Int) (m : Nat) : (marginError n x aux s).lane m = s.lane m := by
  unfold marginError
  split
  · exact countStat_lane s m
  · rfl

theorem marginCount_lane (x aux : Int) (m : Nat) : (marginCount n x aux s).lane m = s.lane m :=
  (marginError_lane _ x _ m).trans (countStat_lane s m)

/-- The registers that the margin slicer writes. -/
def marginKinds : List RegKind := .lnMarginSamp :: .lnMarginErr :: overflowKinds

theorem marginCount_only (x aux : Int) : LaneOnly n marginKinds [] s (marginCount n x aux s) :=
  (countStat_patOverflow_only s 6).mono.trans (marginError_only _ x _).mono

theorem marginCount_samples (hn : n < 96) (x aux : Int) : CountedOne .lnMarginSamp n s (marginCount n x aux s) :=
  (countStat_patOverflow s hn (by decide) (by decide) 6).of_reads rfl ((marginError_only _ x _).reg hn)

/-- A slicer at the data slicer's own phase and voltage decides as it does. -/
theorem marginDiffers_of_same (h : s.field .lnMargin n 8 7 = 0) (x : Int) : s.marginDiffers n x x = false := by
  simp [State.marginDiffers, h]

theorem marginCount_same (hn : n < 96) (x aux : Int) (hphase : s.field .lnMargin n 0 7 = 0) (hvolt : s.field .lnMargin n 8 7 = 0) :
    (marginCount n x aux s).reg .lnMarginErr n = s.reg .lnMarginErr n := by
  unfold marginCount
  extract_lets u
  have hu : LaneOnly n (.lnMarginSamp :: overflowKinds) [] s u := countStat_patOverflow_only s 6
  have hphase' : u.field .lnMargin n 0 7 = 0 := (hu.field hn 0 7).trans hphase
  have hvolt' : u.field .lnMargin n 8 7 = 0 := (hu.field hn 8 7).trans hvolt
  rw [if_pos hphase', marginError, marginDiffers_of_same u hvolt', if_neg Bool.false_ne_true]
  exact hu.reg hn

/-- A decision taken into the receiver's last six. -/
def State.decision (s : State) (n d : Nat) : State := s.modRx n fun r => { r with past := (d :: r.past).take 6 }

theorem decision_ui (d : Nat) : ((s.decision n d).lane n).rx.ui = (s.lane n).rx.ui := by rw [State.decision, modRx_rx]

/-- The state in which the margin slicer sees a UI: its decision taken, and the UI counted. -/
def State.decided (s : State) (n d : Nat) : State := (s.decision n d).modRx n fun r => { r with ui := ((s.lane n).rx.ui + 1) % 16 }

theorem decided_lane (d : Nat) : (s.decided n d).lane n = { s.lane n with
    rx := { (s.lane n).rx with past := (d :: (s.lane n).rx.past).take 6, ui := ((s.lane n).rx.ui + 1) % 16 } } := by
  rw [State.decided, modRx_rx, State.decision, modRx_rx]

theorem decideUi_eq (u : RxSample) : decideUi n u s =
    let x := u.data - s.dfe n (s.lane n).rx.past
    (s.slice n x, if s.bit .lnMargin n 31 = true ∧ (s.lane n).rx.ui = 0 then
      marginCount n x (u.aux - s.dfe n (s.lane n).rx.past) (s.decided n (s.slice n x)) else s.decided n (s.slice n x)) := by
  have hsample (d : Nat) (x aux : Int) : marginSample n x aux (s.decision n d) =
      if s.bit .lnMargin n 31 = true ∧ (s.lane n).rx.ui = 0 then marginCount n x aux (s.decided n d) else s.decided n d := by
    rw [marginSample_eq, decision_ui]
    rfl
  exact congrArg (Prod.mk _) (hsample _ _ _)

theorem slice_eq (x : Int) : s.slice n x = ((s.thresholds n).filter fun h => decide (h < x)).length := List.countP_eq_length_filter

/-! ### Loopback (11_lane_electrical R272) -/

theorem loopWrite_of_same {c : Nat} (h : c = 3 ∨ s.loop n = c) : loopWrite n c s = s := if_pos h

theorem loopWrite_of_change {c : Nat} (h3 : c ≠ 3) (h : s.loop n ≠ c) : loopWrite n c s =
    let u := s.setField .lnPmaCtrl n 4 2 c
    if u.laneOn n then (if 2 ≤ u.laneState n ∧ u.laneState n ≤ 6 then beginLock n u else lockStart n u) else u :=
  if_neg (by rintro (h' | h'); exacts [h3 h', h h'])

/-- What a lane in loopback hears: the signal, and its own transmitter in near serial loopback. -/
theorem setLoop_hears (hn : n < 96) {c : Nat} (hc : c < 4) :
    (s.setField .lnPmaCtrl n 4 2 c).hears n = (s.signal n || decide (c = 1)) := by
  have hframe : LaneOnly n [.lnPmaCtrl] [] s (s.setField .lnPmaCtrl n 4 2 c) := setField_only s (by decide) 4 2 c
  have hloop : (s.setField .lnPmaCtrl n 4 2 c).loop n = c := (s.setField_field .lnPmaCtrl n _ (by decide)).trans (Nat.mod_eq_of_lt hc)
  rw [State.hears, hloop, State.signal, hframe.bit hn]
  rfl

/-- A lock that follows a change of the loopback, from LOCK where the lane had left it. -/
theorem relock_locks (hn : n < 96) : let t := if 2 ≤ s.laneState n ∧ s.laneState n ≤ 6 then beginLock n s else lockStart n s
    (t.lane n).rx.locking = true ∧ t.ready n = false ∧ (t.lane n).rx.heard = s.hears n ∧
      t.laneState n = (if 2 ≤ s.laneState n ∧ s.laneState n ≤ 6 then 2 else s.laneState n) ∧ LaneOnly n beginKinds [] s t := by
  intro t
  by_cases h : 2 ≤ s.laneState n ∧ s.laneState n ≤ 6
  · have ht : t = beginLock n s := if_pos h
    obtain ⟨-, hlocking, hheard, -⟩ := beginLock_lane s hn
    rw [ht, if_pos h]
    exact ⟨hlocking, (beginLock_pma s hn (by decide)).trans (by simp), hheard, beginLock_laneState s n hn, beginLock_only s n hn⟩
  · have ht : t = lockStart n s := if_neg h
    have hlane := lockStart_lane s n hn
    rw [ht, if_neg h, hlane]
    exact ⟨rfl, (lockStart_pma s n hn (by decide)).trans (by simp), rfl, lockStart_laneState s n hn, (lockStart_only s n hn).mono⟩

end Sys2Proof.Machine
end

section
/-! SUPPORT. Patterns, margins and loopback of a lane, command by command (11_lane_electrical R266 to R272). -/

set_option Elab.async false

namespace Sys2Proof

open Sys2Proof.Machine

/-- A change of the lane that follows one that has taken a free value. -/
theorem LaneOnly.afterFree {n : Nat} {own : List RegKind} {more : List Nat} {s t u : State}
    (h : LaneOnly n [] [] s { u with freeCtr := s.freeCtr }) (hregs : u.regs = s.regs) (h' : LaneOnly n own more u t) :
    LaneOnly n own more s { t with freeCtr := s.freeCtr } := by
  obtain ⟨hlanes, -, hbeside⟩ := h
  obtain ⟨hlanes', hkept, hbeside'⟩ := h'
  refine ⟨fun k hk => (hlanes' k hk).trans (hlanes k hk), (RegsKept.same (.refl s _) hregs).trans hkept, ?_⟩
  exact (congrArg (fun v : State => { v with lanes := s.lanes, freeCtr := s.freeCtr }) hbeside' :).trans hbeside

end Sys2Proof

namespace Sys2Proof.Machine

variable (s : State) {n : Nat}

theorem exec_patternGenSet (p : HostPort) (l : Fin 96) (g : BitVec 4) : exec (.patternGenSet p l g) s =
    .next (hostField p .lnPatCtrl l.val (putField (s.actWord .lnPatCtrl l.val 0) 0 4 g.toNat) (genWrite l.val g.toNat) s) := rfl

theorem exec_patternChkSet (p : HostPort) (l : Fin 96) (c : BitVec 4) : exec (.patternChkSet p l c) s =
    .next (hostField p .lnPatCtrl l.val (putField (s.actWord .lnPatCtrl l.val 0) 8 4 c.toNat) (chkWrite l.val c.toNat) s) := rfl

theorem exec_checkerSync (l : Fin 96) : exec (.checkerSync l) s = .next (checkerSync l.val s) := rfl

theorem exec_checkerSyncLoss (l : Fin 96) (line : List RxSample) :
    exec (.checkerSyncLoss l line) s = .next (checkerLoss l.val (rxBlock l.val line s)) := rfl

theorem exec_injOne (p : HostPort) (l : Fin 96) : exec (.injOne p l) s =
    .next (hostCommand p .lnPatCtrl l.val (s.actWord .lnPatCtrl l.val (word (2 ^ 30))) (inject l.val) s) := rfl

theorem exec_injRateInjection (l : Fin 96) : exec (.injRateInjection l) s = .next (injectRate l.val s) := rfl

theorem exec_patCounterClear (p : HostPort) (l : Fin 96) : exec (.patCounterClear p l) s =
    .next (hostCommand p .lnPatCtrl l.val (s.actWord .lnPatCtrl l.val (word (2 ^ 31))) (patClear l.val) s) := rfl

theorem exec_marginWrite (p : HostPort) (l : Fin 96) (v : Word) : exec (.marginWrite p l v) s =
    .next (hostField p .lnMargin l.val v (fun s => noteReserved p .lnMargin l.val v (marginWrite l.val v s)) s) := rfl

theorem exec_loopbackChange (p : HostPort) (l : Fin 96) (c : BitVec 2) : exec (.loopbackChange p l c) s =
    .next (hostField p .lnPmaCtrl l.val (putField (s.actWord .lnPmaCtrl l.val 0) 4 2 c.toNat) (loopWrite l.val c.toNat) s) := rfl

/-- What PATTERN_GEN_SET does with a code that the rate allows (11_lane_electrical R266, R267; 12_lane_link R305). -/
structure GenTaken (n code : Nat) (s t : State) : Prop where
  gen : t.gen n = code
  same : s.gen n = code → (t.lane n).tx.gen = (s.lane n).tx.gen
  prbs : ∀ len taps, s.gen n ≠ code → prbsTaps code = some (len, taps) → 0 < (t.lane n).tx.gen ∧ (t.lane n).tx.gen < 2 ^ len
  other : s.gen n ≠ code → prbsTaps code = none → (t.lane n).tx.gen = 0
  begins : s.laneOn n = true → lnProto s.cfg n ≠ 0 → s.gen n = 0 → code ≠ 0 → t.laneState n = 7 ∧ t.bit .lnLinkStatus n 8 = false ∧
    t.bit .lnLinkStatus n 12 = true ∧ (s.isAdit n = true → (t.lane n).tx.out = [])
  ends : s.laneOn n = true → lnProto s.cfg n ≠ 0 → s.gen n ≠ 0 → code = 0 → (t.lane n).tx.inject = false ∧
    (t.laneState n = 1 ∨ t.laneState n = 2) ∧ (lnHpMode s.cfg n = 0 → t.laneState n = 2 ∧ (t.lane n).rx.locking = true)
  stays : s.laneOn n = false ∨ lnProto s.cfg n = 0 ∨ (s.gen n = 0 ↔ code = 0) →
    t.lane n = { s.lane n with tx := { (s.lane n).tx with gen := (t.lane n).tx.gen } } ∧ t.laneState n = s.laneState n
  frame : LaneOnly n (.lnPatCtrl :: genKinds) [RegKind.adEvt.addr (n / 4)] s { t with freeCtr := s.freeCtr }


theorem genWrite_taken {code : Nat} (hn : n < 96) (hcode : code < 16) (h : patternAllowed s.cfg n code = true) :
    GenTaken n code s (genWrite n code s) := by
  obtain ⟨hregs, hlane, hfree, hsame, hprbs, hother⟩ := genBegun s (n := n) code
  rw [genWrite_of_allowed s h]
  generalize (if s.gen n = code then s else startPattern n code s) = u at *
  let w := u.setField .lnPatCtrl n 0 4 code
  have hw : LaneOnly n [.lnPatCtrl] [] u w := setField_only u (by decide) 0 4 code
  have hgen : w.gen n = code := (u.setField_field .lnPatCtrl n _ (by decide)).trans (Nat.mod_eq_of_lt hcode)
  have hcfg : w.cfg = s.cfg := hfree.cfg
  have hon : w.laneOn n = s.laneOn n := (hw.laneOn hn).trans (hfree.laneOn hn)
  have hstate : w.laneState n = s.laneState n := (hw.field hn 0 3).trans (hfree.field hn 0 3)
  have hadit : w.isAdit n = s.isAdit n := by rw [State.isAdit, hcfg, State.isAdit]
  have hframe : LaneOnly n genKinds [RegKind.adEvt.addr (n / 4)] w (genLink n (s.gen n) code w) := genLink_only w hn _ code
  have hwlane : w.lane n = u.lane n := rfl
  have htx : ((genLink n (s.gen n) code w).lane n).tx.gen = (u.lane n).tx.gen :=
    (genLink_gen w hn hgen).trans (congrArg (fun l : Lane => l.tx.gen) hwlane)
  refine ⟨(hframe.field hn 0 4).trans hgen, fun h => htx.trans (hsame h), fun len taps hne ht => by rw [htx]; exact hprbs len taps hne ht,
    fun hne ht => htx.trans (hother hne ht), fun hon' hproto hold hne => ?_, fun hon' hproto hold h0 => ?_, fun h => ?_, ?_⟩
  · obtain ⟨hpattern, hup, hdown, hout⟩ := genLink_begins w hn (hon.trans hon') (hcfg ▸ hproto) hne
    rw [hold]
    exact ⟨hpattern, hup, hdown, fun h => by rw [hout, if_pos (hadit.trans h)]⟩
  · obtain ⟨hout, hup, hopen⟩ := genLink_ends w hn (hon.trans hon') (hcfg ▸ hproto) hold (hgen.trans h0)
    subst h0
    rw [hout]
    exact ⟨rfl, hup, fun h => hopen (hcfg ▸ h)⟩
  · rw [genLink_of_off w (by rwa [hon, hcfg])]
    exact ⟨hlane, hstate⟩
  · have hchange : LaneOnly n (.lnPatCtrl :: genKinds) [RegKind.adEvt.addr (n / 4)] u (genLink n (s.gen n) code w) :=
      hw.mono.trans hframe.mono
    exact hfree.afterFree hregs hchange

theorem chkWrite_takes {code : Nat} (hn : n < 96) (hcode : code < 16)
    (h : patternAllowed s.cfg n code = true ∧ s.field .lnPatCtrl n 8 4 ≠ code) : let t := chkWrite n code s
    t.field .lnPatCtrl n 8 4 = code ∧ t.gen n = s.gen n ∧
      (t.bit .lnPatStatus n 0 = false ∧ (t.lane n).rx = { (s.lane n).rx with chk := 0, chkRun := 0, chkErr := 0 }) ∧
      (t.lane n).tx = (s.lane n).tx ∧ (t.lane n).adit = (s.lane n).adit ∧ LaneOnly n [.lnPatCtrl, .lnPatStatus] [] s t := by
  intro t
  let u := s.setField .lnPatCtrl n 8 4 code
  have ht : t = checkerSearch n u := chkWrite_of_taken s h
  have hsearch : LaneOnly n [.lnPatStatus] [] u t := ht ▸ checkerSearch_only u n
  have hlane : t.lane n = { s.lane n with rx := { (s.lane n).rx with chk := 0, chkRun := 0, chkErr := 0 } } :=
    ht ▸ checkerSearch_lane u n
  have hcode' : u.field .lnPatCtrl n 8 4 = code := (s.setField_field .lnPatCtrl n _ (by decide)).trans (Nat.mod_eq_of_lt hcode)
  have hgen : u.gen n = s.gen n := s.setField_field_of_disjoint _ _ _ (.inl (by decide))
  refine ⟨(hsearch.field hn 8 4).trans hcode', (hsearch.field hn 0 4).trans hgen, ⟨?_, (congrArg Lane.rx hlane :)⟩, (congrArg Lane.tx hlane :),
    (congrArg Lane.adit hlane :), (setField_only s (by decide) 8 4 code).trans hsearch.mono⟩
  rw [ht]
  exact checkerSearch_lock u n

/-- The registers that `CLR` clears. -/
def clearedKinds : List RegKind :=
  [.lnPrbsBitsLo, .lnPrbsBitsHi, .lnPrbsErrLo, .lnPrbsErrHi, .lnPrbsSymerr, .lnPrbsRelock, .lnMarginSamp, .lnMarginErr]

theorem patClear_eq : patClear n s = let u := clearedKinds.foldl (fun s k => s.setReg k n 0) s
    u.setReg .lnPatStatus n (u.reg .lnPatStatus n &&& 1) := rfl

theorem patClear_clears : (∀ k ∈ clearedKinds, (patClear n s).reg k n = 0) ∧
    (patClear n s).reg .lnPatStatus n = s.reg .lnPatStatus n &&& 1 ∧
    RegsKept ((.lnPatStatus :: clearedKinds).map fun k => k.addr n) s (patClear n s) ∧ besideRegs (patClear n s) = besideRegs s := by
  have hlanes : ∀ k ∈ clearedKinds, k ∈ laneKinds ∧ k ≠ .lnPatStatus := by decide
  have hclear := clearRegs s (n := n) clearedKinds fun k hk => (hlanes k hk).1
  rw [patClear_eq]
  generalize clearedKinds.foldl (fun s k => s.setReg k n 0) s = u at *
  obtain ⟨hzero, hkept, hbeside⟩ := hclear
  have hstatus : u.reg .lnPatStatus n = s.reg .lnPatStatus n := by
    refine hkept.reg (fun ha => ?_) (laneKind_not_event (by decide) n)
    obtain ⟨k, hk, haddr⟩ := List.mem_map.1 ha
    exact laneKind_addr_ne (hlanes k hk).1 (by decide) (hlanes k hk).2 n n haddr
  refine ⟨fun k hk => ?_, ?_, ?_, hbeside⟩
  · exact (u.setReg_reg_ne _ (laneKind_addr_ne (by decide) (hlanes k hk).1 (hlanes k hk).2.symm n n)).trans (hzero k hk)
  · exact (u.setReg_reg ..).trans (congrArg (· &&& 1) hstatus)
  · exact (hkept.mono fun a ha => .inl (List.mem_cons_of_mem _ ha)).trans (RegsKept.of_one (setReg_kept u _ _ _) List.mem_cons_self)

theorem marginWrite_taken (hn : n < 96) (p : HostPort) (v : Word) : let t := noteReserved p .lnMargin n v (marginWrite n v s)
    t.bit .lnMargin n 31 = v.getLsbD 31 ∧
    t.field .lnMargin n 0 7 = (if bitsOf 0 7 v.toNat ≤ 32 ∨ 96 ≤ bitsOf 0 7 v.toNat then bitsOf 0 7 v.toNat
      else s.field .lnMargin n 0 7) ∧
    t.field .lnMargin n 8 7 = (if bitsOf 8 7 v.toNat = 64 then s.field .lnMargin n 8 7 else bitsOf 8 7 v.toNat) ∧
    t.field .lnMargin n 16 2 = (if bitsOf 16 2 v.toNat = 3 then s.field .lnMargin n 16 2 else bitsOf 16 2 v.toNat) ∧
    (t.reg .lnMargin n ≠ s.reg .lnMargin n → t.reg .lnMarginSamp n = 0 ∧ t.reg .lnMarginErr n = 0) ∧
    (t.reg .lnMargin n = s.reg .lnMargin n → t.reg .lnMarginSamp n = s.reg .lnMarginSamp n ∧ t.reg .lnMarginErr n = s.reg .lnMarginErr n) ∧
    RegsKept [RegKind.lnMargin.addr n, RegKind.lnMarginSamp.addr n, RegKind.lnMarginErr.addr n, RegKind.gstat.addr 0,
      RegKind.gstatAddr.addr 0] s t ∧ besideRegs t = besideRegs s := by
  intro t
  obtain ⟨hword, hchange, hsame, hkept, hbeside⟩ := marginWrite_writes s (n := n) v
  have hreg {k : RegKind} (hk : k ∈ laneKinds) : t.reg k n = (marginWrite n v s).reg k n := noteReserved_lane _ hn hk p _ n v
  have hmargin : t.reg .lnMargin n = marginWord (s.reg .lnMargin n) v := (hreg (by decide)).trans hword
  obtain ⟨hon, hphase, hvolt, heye⟩ := marginWord_fields (s.reg .lnMargin n) v
  have hfield (lo len : Nat) : t.field .lnMargin n lo len = bitsOf lo len (marginWord (s.reg .lnMargin n) v).toNat :=
    congrArg (fun w : Word => bitsOf lo len w.toNat) hmargin
  refine ⟨(congrArg (·.getLsbD 31) hmargin).trans hon, (hfield 0 7).trans hphase, (hfield 8 7).trans hvolt, (hfield 16 2).trans heye, ?_, ?_,
    ?_, (noteReserved_besideRegs _ p _ n v).trans hbeside⟩
  · rw [hreg (by decide), hreg (by decide), hreg (by decide)]
    exact hchange
  · rw [hreg (by decide), hreg (by decide), hreg (by decide)]
    exact hsame
  · refine (hkept.mono fun a ha => .inl ?_).trans ((noteReserved_kept _ p _ n v).mono fun a ha => .inl ?_)
    · exact List.mem_append_left [RegKind.gstat.addr 0, RegKind.gstatAddr.addr 0] ha
    · exact List.mem_append_right [RegKind.lnMargin.addr n, RegKind.lnMarginSamp.addr n, RegKind.lnMarginErr.addr n] ha

theorem decideUi_decides (hn : n < 96) (u : RxSample) :
    let q := decideUi n u s
    let due := s.bit .lnMargin n 31 = true ∧ (s.lane n).rx.ui = 0
    q.1 = ((s.thresholds n).filter fun h => decide (h < u.data - s.dfe n (s.lane n).rx.past)).length ∧
      (q.2.lane n).rx = { (s.lane n).rx with past := (q.1 :: (s.lane n).rx.past).take 6, ui := ((s.lane n).rx.ui + 1) % 16 } ∧
      (due → CountedOne .lnMarginSamp n s q.2) ∧
      (due → s.field .lnMargin n 0 7 = 0 → s.field .lnMargin n 8 7 = 0 → q.2.reg .lnMarginErr n = s.reg .lnMarginErr n) ∧
      (¬ due → q.2.regs = s.regs) := by
  intro q due
  let x := u.data - s.dfe n (s.lane n).rx.past
  let v := s.decided n (s.slice n x)
  have hq : q = (s.slice n x, if due then marginCount n x (u.aux - s.dfe n (s.lane n).rx.past) v else v) := decideUi_eq s u
  have hlane : v.lane n = { s.lane n with
    rx := { (s.lane n).rx with past := (s.slice n x :: (s.lane n).rx.past).take 6, ui := ((s.lane n).rx.ui + 1) % 16 } } := decided_lane s _
  rw [hq]
  refine ⟨slice_eq s x, ?_, fun hdue => ?_, fun hdue hphase hvolt => ?_, fun hdue => ?_⟩
  · dsimp only
    split
    · rw [marginCount_lane, hlane]
    · rw [hlane]
  · rw [if_pos hdue]
    exact (marginCount_samples v hn x _).of_reads rfl rfl
  · rw [if_pos hdue]
    exact marginCount_same v hn x _ hphase hvolt
  · rw [if_neg hdue]
    rfl

theorem loopWrite_changes (hn : n < 96) (c : BitVec 2) (h3 : c ≠ 3) (h : s.loop n ≠ c.toNat) : let t := loopWrite n c.toNat s
    t.loop n = c.toNat ∧
      (s.laneOn n = true → (t.lane n).rx.locking = true ∧ t.ready n = false ∧
        (t.lane n).rx.heard = (s.signal n || decide (c = 1)) ∧
        t.laneState n = (if 2 ≤ s.laneState n ∧ s.laneState n ≤ 6 then 2 else s.laneState n)) ∧
      (s.laneOn n = false → t.regs = (s.setField .lnPmaCtrl n 4 2 c.toNat).regs ∧ t.lanes = s.lanes) ∧
      LaneOnly n [.lnPmaCtrl, .lnPmaStatus, .lnPatStatus, .lnEq, .lnLinkStatus] [] s t := by
  intro t
  let u := s.setField .lnPmaCtrl n 4 2 c.toNat
  have hu : LaneOnly n [.lnPmaCtrl] [] s u := setField_only s (by decide) 4 2 _
  have h3' : c.toNat ≠ 3 := fun e => h3 (BitVec.eq_of_toNat_eq e)
  have hone : decide (c.toNat = 1) = decide (c = 1) := decide_eq_decide.2 (BitVec.toNat_inj (y := 1#2))
  have hloop : u.loop n = c.toNat := (s.setField_field .lnPmaCtrl n _ (by decide)).trans (Nat.mod_eq_of_lt c.isLt)
  have hstate : u.laneState n = s.laneState n := hu.field hn 0 3
  have hears : u.hears n = (s.signal n || decide (c = 1)) := (setLoop_hears s hn c.isLt).trans (by rw [hone])
  have ht : t = if u.laneOn n then (if 2 ≤ u.laneState n ∧ u.laneState n ≤ 6 then beginLock n u else lockStart n u) else u :=
    loopWrite_of_change s h3' h
  obtain ⟨hlocking, hready, hheard, hlock, hframe⟩ := relock_locks u hn
  by_cases hon : u.laneOn n = true
  · rw [ht, if_pos hon]
    refine ⟨(hframe.field hn 4 2).trans hloop, fun _ => ⟨hlocking, hready, hheard.trans hears, ?_⟩, fun hoff => ?_, hu.mono.trans hframe.mono⟩
    · rw [hlock, hstate]
    · exact absurd (hon.symm.trans ((hu.laneOn hn).trans hoff)) (by decide)
  · rw [ht, if_neg hon]
    exact ⟨hloop, fun hon' => absurd ((hu.laneOn hn).trans hon') hon, fun _ => ⟨rfl, rfl⟩, hu.mono⟩

end Sys2Proof.Machine
end

section
/-! The statement about a lane's patterns, margin slicer and loopback. -/

set_option Elab.async false

open Sys2Proof Sys2Proof.Machine

/-- Settles O41: a write that is taken acts as its function (`genWrite_taken`, `marginWrite_writes`, `relock_locks`), and the checker and the
slicers count as their counters do. -/
theorem lanePatterns : Obligations.LanePatterns := by
  unfold Obligations.LanePatterns
  intro p l s n near sets injects injected long searches
  have hn : n < 96 := l.isLt
  refine ⟨?_, ?_, ?_, ?_, ?_, ?_, ?_, ?_, ?_, ?_, ?_, ?_, ?_, ?_, ?_⟩
  · intro g
    rw [exec_patternGenSet]
    refine ⟨hostField_turnedAway s p _ _ _ _, fun h hrefused => ⟨_, rfl, ?_⟩, fun h hallowed => ⟨_, rfl, ?_⟩⟩
    · have hself := genWrite_of_refused (noteWrite (writerRank p) (RegKind.lnPatCtrl.addr n) s) hrefused
      rw [hostField_taken s h]
      exact ⟨(congrArg State.regs hself :), (congrArg besideRegs hself :)⟩
    · rw [hostField_taken s h]
      obtain ⟨hgen, hsame, hprbs, hother, hbegins, hends, hstays, hframe⟩ :=
        genWrite_taken (noteWrite (writerRank p) (RegKind.lnPatCtrl.addr n) s) hn g.isLt hallowed
      have hzero : g = 0 ↔ g.toNat = 0 := BitVec.toNat_inj.symm
      refine ⟨hgen, hsame, hprbs, hother, fun hon hproto hold hne => hbegins hon hproto hold fun h => hne (hzero.2 h),
        fun hon hproto hold h0 => hends hon hproto hold (hzero.1 h0), fun h => hstays (h.imp_right fun h => h.imp_right fun h => ?_), hframe⟩
      exact h.trans hzero
  · intro c taken
    rw [exec_patternChkSet]
    refine ⟨hostField_turnedAway s p _ _ _ _, fun h hnot => ⟨_, rfl, ?_⟩, fun h htaken => ⟨_, rfl, ?_⟩⟩
    · have hself := chkWrite_of_not (noteWrite (writerRank p) (RegKind.lnPatCtrl.addr n) s) hnot
      rw [hostField_taken s h]
      exact ⟨(congrArg State.regs hself :), (congrArg besideRegs hself :)⟩
    · rw [hostField_taken s h]
      exact chkWrite_takes _ hn c.isLt htaken
  · intro on
    rw [exec_checkerSync]
    refine ⟨fun h => congrArg _ (checkerSync_of_not s h), fun len taps h => checkerReady_of_prbs s h,
      fun g hon hg => ⟨_, congrArg _ (checkerSync_of_ready s hon hg), ?_, modRx_rx .., (setField_only s (by decide) 0 1 1).trans (modRx_only _ _)⟩⟩
    exact s.setField_bit .lnPatStatus true (by decide)
  · intro line h lost
    rw [exec_checkerSyncLoss]
    refine ⟨fun hnot => congrArg _ (checkerLoss_of_not h hnot), fun hlost => ⟨_, rfl, ?_⟩⟩
    obtain ⟨hlock, hlane, hevt, hcount, hframe⟩ := checkerLoss_searches h hn hlost
    exact ⟨hlock, (congrArg Lane.rx hlane :), hevt, hcount, (congrArg Lane.tx hlane :), hframe⟩
  · intro b hon hlock hlost e bad q
    have hq : q = (bad, (countBit n bad s).modRx n fun r => { r with chk := e.2, chkErr := (2 * r.chkErr + bitNat bad) % 2 ^ 1024 }) :=
      checkBit_of_locked s b hlock hlost
    obtain ⟨hbits, herrs⟩ := countBit_counts s hn bad
    rw [hq]
    refine ⟨rfl, ?_, hbits, herrs, (countBit_only s bad).trans (modRx_only _ _)⟩
    dsimp only
    rw [modRx_rx]
  · exact hostCommand_turnedAway s p _ _ _ _
  · intro hopen hinj
    rw [exec_injOne, hostCommand_open s hopen, inject_of s hinj]
  · intro hopen hnot
    rw [exec_injOne, hostCommand_open s hopen, inject_of_not s hnot]
  · intro hinj hrate
    rw [exec_injRateInjection, injectRate_of_rate s hrate, inject_of s hinj]
  · intro h
    rw [exec_injRateInjection]
    by_cases hrate : s.field .lnPatCtrl n 24 5 = 0
    · rw [injectRate_of_zero s hrate]
    · rw [injectRate_of_rate s hrate, inject_of_not s (h.resolve_right hrate)]
  · exact hostCommand_turnedAway s p _ _ _ _
  · intro hopen cleared
    rw [exec_patCounterClear, hostCommand_open s hopen]
    exact ⟨_, rfl, patClear_clears s⟩
  · intro v ph vo eye
    rw [exec_marginWrite]
    refine ⟨hostField_turnedAway s p _ _ _ _, fun h => ⟨_, rfl, ?_⟩⟩
    rw [hostField_taken s h]
    exact marginWrite_taken _ hn p v
  · intro u x q due
    exact decideUi_decides s hn u
  · intro c now
    rw [exec_loopbackChange]
    refine ⟨hostField_turnedAway s p _ _ _ _, fun h hsame => ⟨_, rfl, ?_⟩, fun h h3 hne => ⟨_, rfl, ?_⟩⟩
    · have hself := loopWrite_of_same (noteWrite (writerRank p) (RegKind.lnPmaCtrl.addr n) s)
        (hsame.imp_left fun h => (congrArg BitVec.toNat h :))
      rw [hostField_taken s h]
      exact ⟨(congrArg State.regs hself :), (congrArg besideRegs hself :)⟩
    · rw [hostField_taken s h]
      exact loopWrite_changes _ hn c h3 hne

end

section
/-! SUPPORT. One lane with what it feeds (12_lane_link R295, 09_portals R200, 08_sump R183): the relation that it has changed and nothing
else, and the steps of a retrain that keep it. -/

set_option Elab.async false

namespace Sys2Proof

open Sys2Proof.Machine

section

variable {n : Nat} {own own' : List RegKind} {s t u : State}

/-- The addresses beside the lane's own that a change of what it feeds may write. -/
def fedAddresses (n : Nat) : List Nat := [RegKind.adEvt.addr (n / 4), RegKind.portalDisc.addr 0, RegKind.xcOvr.addr 0,
  RegKind.scrubEvt.addr 0, RegKind.flogLostCnt.addr 0] ++ sumpRegisters

theorem fedAddresses_besideLanes (n : Nat) : (fedAddresses n).all besideLanes = true := by
  rw [fedAddresses, List.cons_append, List.all_cons, adEvt_besideLanes, Bool.true_and]
  decide

/-- A state with what a lane feeds as in another one. -/
def fedFrame (s v : State) : State := besideFlags { v with
  lanes := s.lanes, portals := s.portals, fabric := s.fabric, crossings := s.crossings, sump := s.sump, flog := s.flog }

/-- Nothing stored is among what the lane feeds. -/
theorem LaneFed.of_parts (hlanes : ∀ k, k ≠ n → t.lane k = s.lane k)
    (hportals : ∀ p, p ≠ lanePortal n 0 → p ≠ lanePortal n 1 → t.portal p = s.portal p)
    (hregs : RegsKept (own.map (fun k => k.addr n) ++ fedAddresses n) s t)
    (hbeside : fedFrame s t = besideFlags s) :
    LaneFed n own s t := by
  refine ⟨hlanes, hportals, ?_, ?_, hbeside⟩
  · exact ⟨(congrArg State.cfg hbeside :), (congrArg (fun v : State => v.conf.store) hbeside :), (congrArg (fun v : State => v.conf.otp) hbeside :),
      (congrArg (fun v : State => v.foreman.ram) hbeside :), (congrArg (fun v : State => v.pockets.rows) hbeside :)⟩
  · rw [List.append_assoc]
    exact hregs

theorem LaneFed.regsKept (h : LaneFed n own s t) : RegsKept (own.map (fun k => k.addr n) ++ fedAddresses n) s t := by
  obtain ⟨-, -, -, hregs, -⟩ := h
  rw [List.append_assoc] at hregs
  exact hregs

theorem LaneFed.beside (h : LaneFed n own s t) : fedFrame s t = besideFlags s :=
  h.2.2.2.2

theorem LaneFed.refl : LaneFed n own s s := .of_parts (fun _ _ => rfl) (fun _ _ _ => rfl) (.refl s _) rfl

theorem LaneFed.trans (h : LaneFed n own s t) (h' : LaneFed n own t u) : LaneFed n own s u := by
  have hregs := h.regsKept.trans h'.regsKept
  have hbeside : fedFrame s u = besideFlags s := (congrArg (fedFrame s) h'.beside :).trans h.beside
  obtain ⟨hlanes, hportals, -⟩ := h
  obtain ⟨hlanes', hportals', -⟩ := h'
  exact .of_parts (fun k hk => (hlanes' k hk).trans (hlanes k hk)) (fun p h0 h1 => (hportals' p h0 h1).trans (hportals p h0 h1)) hregs hbeside

theorem LaneFed.mono (h : LaneFed n own s t) (hown : own ⊆ own' := by decide) : LaneFed n own' s t := by
  have hregs := h.regsKept
  have hbeside := h.beside
  obtain ⟨hlanes, hportals, -⟩ := h
  refine .of_parts hlanes hportals (hregs.mono fun a ha => .inl ?_) hbeside
  exact (List.mem_append.1 ha).elim (fun h => List.mem_append_left _ (List.map_subset _ hown h)) (List.mem_append_right _)

theorem LaneFed.ite {c : Prop} [Decidable c] (ht : LaneFed n own s t) (hu : LaneFed n own s u) :
    LaneFed n own s (if c then t else u) := by
  split <;> assumption

/-- A change of the lane alone. -/
theorem LaneOnly.fed {more : List Nat} (h : LaneOnly n own more s t) (hmore : more ⊆ fedAddresses n := by simp [fedAddresses]) :
    LaneFed n own s t := by
  obtain ⟨hlanes, hregs, hbeside⟩ := h
  refine .of_parts hlanes (fun p _ _ => (congrArg (fun v : State => v.portal p) hbeside :)) (hregs.mono fun a ha => .inl ?_)
    (congrArg (fedFrame s) hbeside :)
  exact (List.mem_append.1 ha).elim (List.mem_append_left _) fun h => List.mem_append_right _ (hmore h)

/-- A register of the lane that is not among those named reads the same. -/
theorem LaneFed.reg (h : LaneFed n own s t) (hn : n < 96) {k : RegKind} (hk : k ∈ laneKinds := by decide)
    (hown : ∀ k' ∈ own, k' ∈ laneKinds ∧ k' ≠ k := by decide) : t.reg k n = s.reg k n :=
  RegsKept.laneReg h.regsKept hn hk (fun k' hk' => (hown k' hk').imp_right .inl) (fedAddresses_besideLanes n)

theorem LaneFed.bit (h : LaneFed n own s t) (hn : n < 96) {k : RegKind} (b : Nat) (hk : k ∈ laneKinds := by decide)
    (hown : ∀ k' ∈ own, k' ∈ laneKinds ∧ k' ≠ k := by decide) : t.bit k n b = s.bit k n b := congrArg (·.getLsbD b) (h.reg hn hk hown)

theorem LaneFed.field (h : LaneFed n own s t) (hn : n < 96) {k : RegKind} (lo len : Nat) (hk : k ∈ laneKinds := by decide)
    (hown : ∀ k' ∈ own, k' ∈ laneKinds ∧ k' ≠ k := by decide) : t.field k n lo len = s.field k n lo len :=
  congrArg (fun w : Word => bitsOf lo len w.toNat) (h.reg hn hk hown)

theorem LaneFed.cfg (h : LaneFed n own s t) : t.cfg = s.cfg := (congrArg State.cfg h.beside :)

theorem LaneFed.stops (h : LaneFed n own s t) : t.crushers.stops = s.crushers.stops :=
  (congrArg (fun v : State => v.crushers.stops) h.beside :)

theorem LaneFed.isAdit (h : LaneFed n own s t) (m : Nat) : t.isAdit m = s.isAdit m := by rw [State.isAdit, h.cfg, State.isAdit]

theorem LaneFed.hears (h : LaneFed n own s t) (hn : n < 96) (hstatus : ∀ k' ∈ own, k' ∈ laneKinds ∧ k' ≠ .lnPmaStatus := by decide)
    (hctrl : ∀ k' ∈ own, k' ∈ laneKinds ∧ k' ≠ .lnPmaCtrl := by decide) : t.hears n = s.hears n := by
  rw [State.hears, State.signal, h.bit hn 1 (by decide) hstatus, State.loop, h.field hn 4 2 (by decide) hctrl]
  rfl

end

end Sys2Proof

namespace Sys2Proof.Machine

variable (s : State) {n : Nat} {own : List RegKind}

/-! ### What a retrain empties -/

theorem countMany_kept {k : RegKind} {i m : Nat} {report : State → State} {l : List Nat} (hk : k.addr i ∈ l)
    (hr : ∀ t, RegsKept l t (report t)) : RegsKept l s (countMany k i m report s) := by
  unfold countMany
  extract_lets v t u
  have hu : RegsKept l s u := (setCount_kept s k i _ _).mono fun a ha => .inl (List.mem_singleton.1 ha ▸ hk)
  exact .ite s (hu.trans (hr u)) hu

theorem countPortalDisc_besideFlags (m : Nat) : besideFlags (countPortalDisc m s) = besideFlags s := by
  unfold countPortalDisc countMany
  extract_lets v t u
  split
  · exact flagXc_besideFlags u 10
  · rfl

theorem countPortalDisc_fed (m : Nat) : LaneFed n own s (countPortalDisc m s) := by
  have hbeside := countPortalDisc_besideFlags s m
  have hkept : RegsKept [RegKind.portalDisc.addr 0, RegKind.xcOvr.addr 0] s (countPortalDisc m s) :=
    countMany_kept s List.mem_cons_self fun t => (flagXc_kept t 10).mono fun a ha => .inl (List.mem_cons_of_mem _ ha)
  have hmem : [RegKind.portalDisc.addr 0, RegKind.xcOvr.addr 0] ⊆ fedAddresses n := by simp [fedAddresses]
  exact .of_parts (fun k _ => (congrArg (fun v : State => v.lane k) hbeside :)) (fun p _ _ => (congrArg (fun v : State => v.portal p) hbeside :))
    (hkept.mono fun a ha => .inl (List.mem_append_right _ (hmem ha))) (congrArg (fedFrame s) hbeside :)

/-- A portal of the lane changes. -/
theorem modPortal_fed {p : Nat} (hp : p = lanePortal n 0 ∨ p = lanePortal n 1) (f : Portal → Portal) : LaneFed n own s (s.modPortal p f) := by
  refine .of_parts (fun _ _ => rfl) (fun q h0 h1 => ?_) (.same (.refl s _) rfl) rfl
  rw [State.modPortal_portal, if_neg]
  rintro rfl
  exact hp.elim h0 h1

theorem portalReset_fed {p : Nat} (hp : p = lanePortal n 0 ∨ p = lanePortal n 1) : LaneFed n own s (portalReset p s) := by
  unfold portalReset
  extract_lets v lost sump u w
  have hu : LaneFed n own s u := .of_parts (fun _ _ => rfl) (fun _ _ _ => rfl) (.same (.refl s _) rfl) rfl
  have hw : LaneFed n own s w := hu.trans (modPortal_fed u hp _)
  exact .ite hw (hw.trans (countPortalDisc_fed w lost))

/-- Its reset touches a portal, what it was to read of the Sump, and a count. -/
theorem portalReset_beside (p : Nat) : besideFlags { portalReset p s with portals := s.portals, sump := s.sump } = besideFlags s := by
  unfold portalReset
  extract_lets v lost sump u w
  have hcount : besideFlags (if lost = 0 then w else countPortalDisc lost w) = besideFlags w := by
    split
    · rfl
    · exact countPortalDisc_besideFlags w lost
  exact (congrArg (fun v : State => { v with portals := s.portals, sump := s.sump }) hcount :)

theorem portalReset_lane (p m : Nat) : (portalReset p s).lane m = s.lane m := (congrArg (fun v : State => v.lane m) (portalReset_beside s p) :)

theorem portalReset_flog (p : Nat) : (portalReset p s).flog = s.flog := (congrArg State.flog (portalReset_beside s p) :)

/-- The lane's crossings emptied, and the beats that wait for room in them dropped. -/
def emptyCrossings (n : Nat) (s : State) : State :=
  { s with crossings := { s.crossings with toCrusher := tabErase s.crossings.toCrusher n
                                           fromCrusher := tabErase s.crossings.fromCrusher n
                                           fromSump := tabErase s.crossings.fromSump n
                                           sumpHeld := tabErase s.crossings.sumpHeld n }
           crushers := { s.crushers with stops := s.crushers.stops.filter (·.1 ≠ n) } }

/-- No beat of the lane's own Crusher clients waits for room. -/
def State.noStops (s : State) (n : Nat) : Prop := (s.crushers.stops.all fun x => decide (x.1 ≠ n)) = true

theorem emptyCrossings_lane (m : Nat) : (emptyCrossings n s).lane m = s.lane m := rfl

theorem emptyCrossings_flog : (emptyCrossings n s).flog = s.flog := rfl

theorem emptyCrossings_fed (h : s.noStops n) : LaneFed n own s (emptyCrossings n s) := by
  have hstops : s.crushers.stops.filter (·.1 ≠ n) = s.crushers.stops := by
    rw [List.filter_eq_self]
    exact List.all_eq_true.1 h
  refine .of_parts (fun _ _ => rfl) (fun _ _ _ => rfl) (.same (.refl s _) rfl) ?_
  rw [emptyCrossings, hstops]
  rfl

theorem noStops_of_fed {t : State} (h : LaneFed n own s t) (hs : s.noStops n) : t.noStops n := by
  rw [State.noStops, h.stops]
  exact hs

/-- What a lane forgets of a packet on its way, from its TX queue or not. -/
def forgetPacket (n : Nat) (fromQueue : Bool) (s : State) : State :=
  (s.modTx n fun t =>
    { t with out := [], inFrame := false, bytes := [], opened := false, started := false
             skip := if fromQueue then t.draining else lnTxCr s.cfg n && (t.opened || t.skip) }).modRx n fun r =>
    { r with buf := [], inArrival := false, cutting := false, gap := false, bytes := [], inPkt := false, bad := false, begun := false }

/-- The parts of a lane's reset; it counts an underrun where it cuts off a packet. -/
theorem laneReset_eq : ∃ q cut : Bool, laneReset n s =
    (let u := forgetPacket n q (emptyCrossings n (portalReset (lanePortal n 1) (portalReset (lanePortal n 0) s)))
     if cut then countUnderrun n u else u) :=
  ⟨lnTxqEn s.cfg n, _, rfl⟩

theorem linkOverflow_only (b : Nat) : LaneOnly n [.lnLinkOvf, .lnLinkEvt] [] s (linkOverflow b n s) :=
  (setBits_only s (by decide) _).trans (flagLink_only _ 8)

theorem countLink_only {k : RegKind} (b : Nat) : LaneOnly n [k, .lnLinkOvf, .lnLinkEvt] [] s (countLink k b n s) :=
  countStat_only s List.mem_cons_self fun t => (linkOverflow_only t b).mono (List.subset_cons_self _ _)

theorem countUnderrun_only : LaneOnly n [.lnTxUnderrun, .lnLinkOvf, .lnLinkEvt] [] s (countUnderrun n s) :=
  (countLink_only s 4).trans (flagLink_only _ 6)

/-- The registers that a lane's reset writes. -/
def resetKinds : List RegKind := [.lnTxUnderrun, .lnLinkOvf, .lnLinkEvt]

theorem forgetPacket_only (q : Bool) : LaneOnly n [] [] s (forgetPacket n q s) := (modTx_only s _).trans (modRx_only _ _)

theorem laneReset_fed (h : s.noStops n) : LaneFed n resetKinds s (laneReset n s) := by
  obtain ⟨q, cut, heq⟩ := laneReset_eq s (n := n)
  have hportals : LaneFed n resetKinds s (portalReset (lanePortal n 1) (portalReset (lanePortal n 0) s)) :=
    (portalReset_fed s (.inl rfl)).trans (portalReset_fed _ (.inr rfl))
  have hforget := (hportals.trans (emptyCrossings_fed _ (noStops_of_fed s hportals h))).trans ((forgetPacket_only _ q).fed.mono (List.nil_subset _))
  rw [heq]
  exact .ite (hforget.trans (countUnderrun_only _).fed) hforget

/-- A reset leaves of the lane's receiver its lock, and what it was locking to. -/
theorem laneReset_rx : ((laneReset n s).lane n).rx = { (s.lane n).rx with
    buf := [], inArrival := false, cutting := false, gap := false, bytes := [], inPkt := false, bad := false, begun := false } := by
  obtain ⟨q, cut, heq⟩ := laneReset_eq s (n := n)
  have hlane : (emptyCrossings n (portalReset (lanePortal n 1) (portalReset (lanePortal n 0) s))).lane n = s.lane n := by
    rw [emptyCrossings_lane, portalReset_lane, portalReset_lane]
  rw [heq]
  generalize emptyCrossings n (portalReset (lanePortal n 1) (portalReset (lanePortal n 0) s)) = u at hlane ⊢
  have hrx : ((forgetPacket n q u).lane n).rx = { (s.lane n).rx with
      buf := [], inArrival := false, cutting := false, gap := false, bytes := [], inPkt := false, bad := false, begun := false } := by
    rw [forgetPacket, modRx_rx, modTx_tx, hlane]
  dsimp only
  split
  · obtain ⟨-, hbeside⟩ := countUnderrun_counts n (forgetPacket n q u)
    exact (congrArg (fun v : State => (v.lane n).rx) hbeside :).trans hrx
  · exact hrx

theorem laneReset_flog : (laneReset n s).flog = s.flog := by
  obtain ⟨q, cut, heq⟩ := laneReset_eq s (n := n)
  have hflog : (emptyCrossings n (portalReset (lanePortal n 1) (portalReset (lanePortal n 0) s))).flog = s.flog := by
    rw [emptyCrossings_flog, portalReset_flog, portalReset_flog]
  rw [heq]
  generalize emptyCrossings n (portalReset (lanePortal n 1) (portalReset (lanePortal n 0) s)) = u at hflog ⊢
  dsimp only
  split
  · obtain ⟨-, hbeside⟩ := countUnderrun_counts n (forgetPacket n q u)
    exact (congrArg State.flog hbeside :).trans hflog
  · exact hflog

/-! ### Events of the link that stay set -/

theorem linkOverflow_evt {b c : Nat} (hc : c < 32) (h : s.bit .lnLinkEvt n c = true) : (linkOverflow b n s).bit .lnLinkEvt n c = true := by
  have hset : (s.setBits .lnLinkOvf n (bitWord b)).bit .lnLinkEvt n c = true :=
    (congrArg (·.getLsbD c) (s.setReg_reg_ne _ (laneKind_addr_ne (by decide) (by decide) (by decide) n n))).trans h
  exact flagLink_bit _ n hc (.inr hset)

theorem countLink_evt {k : RegKind} (hk : k ∈ laneKinds) (hne : k ≠ .lnLinkEvt) {b c : Nat} (hc : c < 32)
    (h : s.bit .lnLinkEvt n c = true) : (countLink k b n s).bit .lnLinkEvt n c = true := by
  have hset (v : Word) : (s.setCount k n 1 v).bit .lnLinkEvt n c = true :=
    (congrArg (·.getLsbD c) (s.setReg_reg_ne v (laneKind_addr_ne hk (by decide) hne n n))).trans h
  unfold countLink countStat
  extract_lets v u
  split
  · exact h
  · split
    · exact linkOverflow_evt u hc (hset _)
    · exact hset _

theorem laneReset_evt {c : Nat} (hn : n < 96) (hc : c < 32) (hstops : s.noStops n) (h : s.bit .lnLinkEvt n c = true) :
    (laneReset n s).bit .lnLinkEvt n c = true := by
  obtain ⟨q, cut, heq⟩ := laneReset_eq s (n := n)
  have hportals : LaneFed n [] s (portalReset (lanePortal n 1) (portalReset (lanePortal n 0) s)) :=
    (portalReset_fed s (.inl rfl)).trans (portalReset_fed _ (.inr rfl))
  have hforget := (hportals.trans (emptyCrossings_fed _ (noStops_of_fed s hportals hstops))).trans (forgetPacket_only _ q).fed
  have hu := (hforget.bit hn c).trans h
  rw [heq]
  generalize forgetPacket n q (emptyCrossings n (portalReset (lanePortal n 1) (portalReset (lanePortal n 0) s))) = u at hu ⊢
  dsimp only
  split
  · exact flagLink_bit _ n hc (.inr (countLink_evt u (by decide) (by decide) hc hu))
  · exact hu

end Sys2Proof.Machine
end

section
/-! SUPPORT. Retrains and the causes that drop a receiver (12_lane_link R292): what each does, and what it leaves alone. -/

set_option Elab.async false

namespace Sys2Proof.Machine

variable (s : State) {n : Nat} {own : List RegKind}

/-! ### The lane's Crusher client (08_sump R183) -/

theorem interruptProducer_step (q : Nat) (p : Producer) : QueueStep q s (interruptProducer q p s) := by
  have hfold (l : List Nat) (t : State) :
      QueueStep q t (l.foldl (fun s d => s.modDesc d fun v => { v with fresh := false }) t) := by
    induction l generalizing t with
    | nil => exact .refl
    | cons d l ih => exact (modDesc_step t q d _).trans (ih _)
  exact (((modQueue_step s q _).trans (hfold _ _)).trans (hfold _ _)).trans (closePacket_step _ q p)

/-- Closing a client's packet touches the Sump and its counters alone. -/
theorem interruptClient_fed (e : Nat) : LaneFed n own s (interruptClient e n s) := by
  have hframe := interruptClient_sumpFrame s e n
  have hbeside : besideFlags { interruptClient e n s with sump := s.sump } = besideFlags s := besideFlags_of_sumpFrame hframe
  have hregs : RegsKept sumpRegisters s (interruptClient e n s) := by
    unfold interruptClient
    extract_lets d
    exact .ite s (interruptProducer_step s d.2 _).regs (.refl s _)
  refine .of_parts (fun k _ => (congrArg (fun v : State => v.lane k) hbeside :)) (fun p _ _ => (congrArg (fun v : State => v.portal p) hbeside :))
    (hregs.mono fun a ha => .inl (List.mem_append_right _ (List.mem_append_right _ ha))) (congrArg (fedFrame s) hbeside :)

theorem interruptLaneClient_fed : LaneFed n own s (interruptLaneClient n s) := by
  unfold interruptLaneClient
  split
  · split
    · exact interruptClient_fed s _
    · exact .refl
  · exact .refl

theorem interruptLaneClient_lane (m : Nat) : (interruptLaneClient n s).lane m = s.lane m := by
  unfold interruptLaneClient
  split
  · split
    · exact (congrArg (fun v : State => v.lane m) (interruptClient_sumpFrame s _ n) :)
    · rfl
  · rfl

theorem interruptLaneClient_flog : (interruptLaneClient n s).flog = s.flog := by
  unfold interruptLaneClient
  split
  · split
    · exact (congrArg State.flog (interruptClient_sumpFrame s _ n) :)
    · rfl
  · rfl

/-! ### A retrain (12_lane_link R292) -/

/-- A retrain begun: the link shows it, counts it and flags it. -/
def retrainShown (n : Nat) (s : State) : State := flagLink n 2 (countLink .lnRetrains 5 n (s.setLink n 8 true))

/-- What the lane feeds emptied, where it has a service, and its client's packet closed. -/
def retrainEmptied (n : Nat) (s : State) : State := interruptLaneClient n (if s.isAdit n then s else laneReset n s)

theorem retrain_eq : retrain n s = beginLock n (retrainEmptied n (retrainShown n s)) := rfl

/-- The registers that show a retrain. -/
def shownKinds : List RegKind := [.lnLinkStatus, .lnRetrains, .lnLinkOvf, .lnLinkEvt]

theorem retrainShown_only : LaneOnly n shownKinds [] s (retrainShown n s) :=
  ((setLink_only s 8 true).trans (countLink_only _ 5).mono).trans (flagLink_only _ 2)

theorem countLink_lane {k : RegKind} (b m : Nat) : (countLink k b n s).lane m = s.lane m := by
  have hbeside (t : State) : besideFlags (linkOverflow b n t) = besideFlags t := flagLink_besideFlags n _ 8
  exact (congrArg (fun v : State => v.lane m) (countStat_besideFlags s hbeside) :)

theorem retrainShown_lane (m : Nat) : (retrainShown n s).lane m = s.lane m := by
  rw [retrainShown, flagLink_lane, countLink_lane, setLink_lane]

theorem retrainShown_shows (hn : n < 96) : (retrainShown n s).bit .lnLinkStatus n 8 = true ∧
    (retrainShown n s).bit .lnLinkEvt n 2 = true ∧ CountedOne .lnRetrains n s (retrainShown n s) := by
  let u := s.setLink n 8 true
  let v := countLink .lnRetrains 5 n u
  have hu : LaneOnly n [.lnLinkStatus] [] s u := setLink_only s 8 true
  have hv : LaneOnly n [.lnRetrains, .lnLinkOvf, .lnLinkEvt] [] u v := countLink_only u 5
  have hflag : LaneOnly n [.lnLinkEvt] [] v (retrainShown n s) := flagLink_only v 2
  have hone : CountedOne .lnRetrains n u v := countStat_countedOne u fun t => (linkOverflow_only t 5).reg hn
  refine ⟨?_, flagLink_bit v n (by decide) (.inl rfl), hone.of_reads (hu.reg hn) (hflag.reg hn)⟩
  rw [hflag.bit hn, hv.bit hn]
  exact setLink_bit s n true (by decide)

theorem retrainEmptied_fed (h : s.noStops n) : LaneFed n resetKinds s (retrainEmptied n s) :=
  (LaneFed.ite .refl (laneReset_fed s h)).trans (interruptLaneClient_fed _)

/-- Emptying what the lane feeds leaves its lock alone. -/
theorem retrainEmptied_rx : ((retrainEmptied n s).lane n).rx.lost = (s.lane n).rx.lost ∧
    ((retrainEmptied n s).lane n).rx.pre = (s.lane n).rx.pre := by
  rw [retrainEmptied, interruptLaneClient_lane]
  split
  · exact ⟨rfl, rfl⟩
  · rw [laneReset_rx]
    exact ⟨rfl, rfl⟩

theorem retrainEmptied_evt {c : Nat} (hn : n < 96) (hc : c < 32) (hstops : s.noStops n) (h : s.bit .lnLinkEvt n c = true) :
    (retrainEmptied n s).bit .lnLinkEvt n c = true := by
  have hclient (u : State) : LaneFed n [] u (interruptLaneClient n u) := interruptLaneClient_fed u
  rw [retrainEmptied, (hclient _).bit hn]
  split
  · exact h
  · exact laneReset_evt s hn hc hstops h

/-- The state from which a retrain begins its lock. -/
theorem retrain_lockState (h : s.noStops n) : let u := retrainEmptied n (retrainShown n s)
    LaneFed n [.lnLinkStatus, .lnRetrains, .lnLinkOvf, .lnLinkEvt, .lnTxUnderrun] s u ∧ (u.lane n).rx.lost = (s.lane n).rx.lost ∧
      (u.lane n).rx.pre = (s.lane n).rx.pre := by
  intro u
  have hshown : LaneFed n [.lnLinkStatus, .lnRetrains, .lnLinkOvf, .lnLinkEvt, .lnTxUnderrun] s (retrainShown n s) :=
    (retrainShown_only s).fed.mono
  obtain ⟨hlost, hpre⟩ := retrainEmptied_rx (retrainShown n s) (n := n)
  rw [retrainShown_lane] at hlost hpre
  exact ⟨hshown.trans (retrainEmptied_fed _ (noStops_of_fed s hshown h)).mono, hlost, hpre⟩

theorem retrain_retrained (hn : n < 96) (h : s.noStops n) : Retrained n s (retrain n s) := by
  let u := retrainShown n s
  let v := retrainEmptied n u
  obtain ⟨hbit, hevt, hone⟩ := retrainShown_shows s hn
  have hu : LaneFed n shownKinds s u := (retrainShown_only s).fed
  have hstops := noStops_of_fed s hu h
  have hv : LaneFed n resetKinds u v := retrainEmptied_fed u hstops
  have hlock : LaneOnly n beginKinds [] v (retrain n s) := beginLock_only v n hn
  obtain ⟨-, hlocking, -⟩ := beginLock_lane v hn
  refine ⟨beginLock_laneState v n hn, ?_, ?_, ?_, hlocking⟩
  · exact (beginLock_link v n hn (by decide) (by decide)).trans ((hv.bit hn 8).trans hbit)
  · exact (hlock.bit hn 2).trans (retrainEmptied_evt u hn (by decide) hstops hevt)
  · exact hone.of_reads rfl ((hlock.reg hn).trans (hv.reg hn))

/-- The registers that a retrain writes. -/
def retrainKinds : List RegKind :=
  [.lnPmaStatus, .lnPatStatus, .lnEq, .lnLinkStatus, .lnRetrains, .lnLinkOvf, .lnLinkEvt, .lnTxUnderrun]

theorem retrain_fed (hn : n < 96) (h : s.noStops n) : LaneFed n retrainKinds s (retrain n s) := by
  obtain ⟨hframe, -⟩ := retrain_lockState s h
  exact hframe.mono.trans (beginLock_only _ n hn).fed.mono

theorem retrain_pma (hn : n < 96) (h : s.noStops n) {c : Nat} (hc : c < 32) : (retrain n s).bit .lnPmaStatus n c =
    if c = 2 ∨ c = 3 ∨ c = 4 ∨ (c = 6 ∧ s.hears n = true) then false else s.bit .lnPmaStatus n c := by
  obtain ⟨hframe, -⟩ := retrain_lockState s h
  rw [retrain_eq, beginLock_pma _ hn hc, hframe.hears hn, hframe.bit hn]

/-- What a retrain leaves of the receiver. -/
theorem retrain_rx (hn : n < 96) (h : s.noStops n) : ((retrain n s).lane n).rx.lost = ((s.lane n).rx.lost && !s.hears n) ∧
    ((retrain n s).lane n).rx.pre = (s.lane n).rx.pre := by
  obtain ⟨hframe, hlost, hpre⟩ := retrain_lockState s h
  obtain ⟨-, -, -, hlost', hpre'⟩ := beginLock_lane (retrainEmptied n (retrainShown n s)) hn
  exact ⟨hlost'.trans (by rw [hlost, hframe.hears hn]), hpre'.trans hpre⟩

/-- A retrain keeps the fault log. -/
theorem retrain_flog (hn : n < 96) : (retrain n s).flog = s.flog := by
  have hlock (u : State) : (beginLock n u).flog = u.flog := (congrArg State.flog (beginLock_only u n hn).beside :)
  have hshown : (retrainShown n s).flog = s.flog := (congrArg State.flog (retrainShown_only s).beside :)
  rw [retrain_eq, hlock, retrainEmptied, interruptLaneClient_flog]
  split
  · exact hshown
  · rw [laneReset_flog, hshown]

/-! ### A cause that drops the receiver -/

theorem linkCause_of_up (h : s.laneState n = 4 ∨ s.laneState n = 5) : linkCause n s = retrain n s := if_pos h.symm

theorem linkCause_of_lock (h : s.laneState n = 2 ∨ s.laneState n = 3 ∨ s.laneState n = 6) : linkCause n s = beginLock n s :=
  (if_neg (by omega)).trans (if_pos h)

theorem linkCause_of_other (h : s.laneState n = 0 ∨ s.laneState n = 1 ∨ s.laneState n = 7) : linkCause n s = lockStart n s :=
  (if_neg (by omega)).trans (if_neg (by omega))

/-- The states of a lane: where it retrains, where it starts again at LOCK, and where it only locks. -/
theorem laneState_cases : (s.laneState n = 4 ∨ s.laneState n = 5) ∨ (s.laneState n = 2 ∨ s.laneState n = 3 ∨ s.laneState n = 6) ∨
    (s.laneState n = 0 ∨ s.laneState n = 1 ∨ s.laneState n = 7) := by
  have : s.laneState n < 2 ^ 3 := bitsOf_lt 0 3 _
  omega

theorem linkCause_dropped (hn : n < 96) (hstops : s.noStops n) : Dropped n s (linkCause n s) := by
  rcases laneState_cases s (n := n) with h | h | h
  · have hre := retrain_retrained s hn hstops
    have hready : (retrain n s).ready n = false := (retrain_pma s hn hstops (by decide)).trans (by simp)
    obtain ⟨-, -, -, -, hlocking⟩ := id hre
    rw [linkCause_of_up s h]
    exact ⟨hready, hlocking, fun _ => hre, fun h' => by omega, fun h' => by omega, fun h4 h5 => absurd h (not_or.2 ⟨h4, h5⟩),
      (retrain_fed s hn hstops).mono⟩
  · have hframe := beginLock_only s n hn
    obtain ⟨-, hlocking, -⟩ := beginLock_lane s hn
    rw [linkCause_of_lock s h]
    exact ⟨(beginLock_pma s hn (by decide)).trans (by simp), hlocking, fun h' => by omega, fun _ => beginLock_laneState s n hn,
      fun h' => by omega, fun _ _ => hframe.mono, hframe.fed.mono⟩
  · have hframe := lockStart_only s n hn
    have hlane := lockStart_lane s n hn
    rw [linkCause_of_other s h]
    exact ⟨(lockStart_pma s n hn (by decide)).trans (by simp), by rw [hlane], fun h' => by omega, fun h' => by omega,
      fun _ => lockStart_laneState s n hn, fun _ _ => hframe.mono, hframe.fed.mono⟩

theorem linkCause_fed (hn : n < 96) (hstops : s.noStops n) : LaneFed n retrainKinds s (linkCause n s) := by
  rcases laneState_cases s (n := n) with h | h | h
  · rw [linkCause_of_up s h]
    exact retrain_fed s hn hstops
  · rw [linkCause_of_lock s h]
    exact (beginLock_only s n hn).fed.mono
  · rw [linkCause_of_other s h]
    exact (lockStart_only s n hn).fed.mono

/-- Whatever the state, a cause starts a lock. -/
theorem linkCause_pma (hn : n < 96) (hstops : s.noStops n) {c : Nat} (hc : c < 32) : (linkCause n s).bit .lnPmaStatus n c =
    if c = 2 ∨ c = 3 ∨ c = 4 ∨ (c = 6 ∧ s.hears n = true) then false else s.bit .lnPmaStatus n c := by
  rcases laneState_cases s (n := n) with h | h | h
  · rw [linkCause_of_up s h, retrain_pma s hn hstops hc]
  · rw [linkCause_of_lock s h, beginLock_pma s hn hc]
  · rw [linkCause_of_other s h, lockStart_pma s n hn hc]

/-- A cause leaves the precoder's state alone. -/
theorem linkCause_pre (hn : n < 96) (hstops : s.noStops n) : ((linkCause n s).lane n).rx.pre = (s.lane n).rx.pre := by
  rcases laneState_cases s (n := n) with h | h | h
  · obtain ⟨-, hpre⟩ := retrain_rx s hn hstops
    rw [linkCause_of_up s h, hpre]
  · obtain ⟨-, -, -, -, hpre⟩ := beginLock_lane s hn
    rw [linkCause_of_lock s h, hpre]
  · rw [linkCause_of_other s h, lockStart_lane s n hn]

end Sys2Proof.Machine

namespace Sys2Proof

open Sys2Proof.Machine

/-- A receiver dropped, seen from a state before that differs in its PMA registers and its receiver alone. -/
theorem Dropped.of_before {n : Nat} {s s' t : State} (hn : n < 96) (h : Dropped n s' t) (hframe : LaneOnly n [.lnPmaStatus, .lnPmaEvt] [] s s') :
    Dropped n s t := by
  have hstate : s'.laneState n = s.laneState n := hframe.field hn 0 3
  obtain ⟨hready, hlocking, hup, hlock, hother, honly, hfed⟩ := h
  rw [hstate] at hup hlock hother honly
  refine ⟨hready, hlocking, fun h => ?_, hlock, hother, fun h4 h5 => (hframe.mono).trans (honly h4 h5), hframe.fed.mono.trans hfed⟩
  obtain ⟨hlocked, hbit, hevt, hone, hre⟩ := hup h
  exact ⟨hlocked, hbit, hevt, hone.of_reads (hframe.reg hn) rfl, hre⟩

end Sys2Proof
end

section
/-! SUPPORT. Signal detect of one lane (11_lane_electrical R259, R265; 12_lane_link R292): what a rise and a fall do. -/

set_option Elab.async false

namespace Sys2Proof

open Sys2Proof.Machine

/-- A bench's status is none of a lane's registers. -/
theorem LaneOnly.refOk {n : Nat} {own : List RegKind} {s t : State} (h : LaneOnly n own [] s t) (hn : n < 96)
    (hown : ∀ k' ∈ own, k' ∈ laneKinds := by decide) : t.refOk n = s.refOk n := by
  obtain ⟨-, hbeyond, hevent⟩ := bench_addr (k := .lbStatus) (k' := .lbEvt) (.inl rfl) (.inr rfl) (b := n / 4) (b' := n / 4) (.inl (by decide))
  obtain ⟨-, hregs, -⟩ := h
  refine congrArg (·.getLsbD 0) (hregs.reg (fun ha => ?_) hevent)
  rw [List.append_nil] at ha
  obtain ⟨k', hk', haddr⟩ := List.mem_map.1 ha
  exact laneKind_addr_ne_beside (hown k' hk') hn (by rw [besideLanes, decide_eq_true hbeyond, Bool.or_true]) haddr

/-- A retrain, seen from a state before that differs in its PMA registers and its receiver, and in the fault log. -/
theorem Retrained.of_before {n : Nat} {s s' t : State} (hn : n < 96) (h : Retrained n s' t) (hframe : LaneFed n [.lnPmaStatus, .lnPmaEvt] s s') :
    Retrained n s t := by
  obtain ⟨hlocked, hbit, hevt, hone, hre⟩ := h
  exact ⟨hlocked, hbit, hevt, hone.of_reads (hframe.reg hn) rfl, hre⟩

end Sys2Proof

namespace Sys2Proof.Machine

variable (s : State) {n : Nat}

theorem exec_signalDetectRise (l : Fin 96) : exec (.signalDetectRise l) s = .next (signalRise l.val s) := rfl

theorem exec_signalDetectFall (l : Fin 96) : exec (.signalDetectFall l) s = .next (signalFall l.val s) := rfl

/-- A lane that has a rate and a bench, whose signal detector works. -/
def State.sdSeen (s : State) (n : Nat) : Prop := lnRate s.cfg n ≠ 0 ∧ s.benchOn (n / 4) = true ∧ s.configured = true

theorem pmaOn_of_seen (h : s.sdSeen n) : s.pmaOn n = s.sysRuns := by
  obtain ⟨hrate, hbench, hconf⟩ := h
  simp [State.pmaOn, hrate, hbench, hconf]

/-- `SD` at a level that waits for the end of the sleep. -/
def signalNoted (n : Nat) (v : Bool) (s : State) : State := noteEdge (.signal n v) (s.setPma n 1 v)

/-- `SD` at a level, with its event. -/
def signalShown (n : Nat) (v : Bool) (s : State) : State := flagSignal n v (s.setPma n 1 v)

theorem signalShown_only (v : Bool) : LaneOnly n [.lnPmaStatus, .lnPmaEvt] [] s (signalShown n v s) :=
  (setPma_only s 1 v).trans (.ite (flagPma_only _ _) .refl)

theorem signalShown_lane (v : Bool) (m : Nat) : (signalShown n v s).lane m = s.lane m := by
  unfold signalShown flagSignal
  split
  · exact flagPma_lane _ n _ m
  · rfl

theorem signalShown_pma (v : Bool) (hn : n < 96) {c : Nat} (hc : c < 32) :
    (signalShown n v s).bit .lnPmaStatus n c = if c = 1 then v else s.bit .lnPmaStatus n c := by
  have hflag : LaneOnly n [.lnPmaEvt] [] (s.setPma n 1 v) (signalShown n v s) := .ite (flagPma_only _ _) .refl
  rw [hflag.bit hn, setPma_bit s n v hc]

theorem signalShown_evt (v : Bool) (h : lnCfg s.cfg n 11 1 = 1) :
    (signalShown n v s).bit .lnPmaEvt n (if v then 0 else 1) = true := by
  have heq : signalShown n v s = flagPma n (if v then 0 else 1) (s.setPma n 1 v) := if_pos h
  rw [heq]
  exact flagPma_bit _ n (by split <;> decide) (.inl rfl)

/-! ### A rise -/

theorem signalRise_of_not (h : ¬ (s.sdSeen n ∧ s.signal n = false)) : signalRise n s = s :=
  if_neg fun ⟨hrate, hbench, hconf, hsd⟩ => h ⟨⟨hrate, hbench, hconf⟩, hsd⟩

/-- A receiver that hears something once more locks, or a lane that waits for its signal is brought up. -/
def heardAgain (n : Nat) (s : State) : State :=
  if s.laneOn n then
    if s.laneState n = 1 then (if lnHpMode s.cfg n = 2 then bringUp n s else s)
    else if s.refOk n then lockStart n s else s
  else s

theorem signalRise_eq (h : s.sdSeen n) (hsd : s.signal n = false) : signalRise n s =
    if (s.setPma n 1 true).pmaOn n then heardAgain n (signalShown n true s) else signalNoted n true s := by
  obtain ⟨hrate, hbench, hconf⟩ := h
  rw [signalRise, if_pos ⟨hrate, hbench, hconf, hsd⟩]
  rfl

theorem pmaOn_setPma (h : s.sdSeen n) (b : Nat) (v : Bool) : (s.setPma n b v).pmaOn n = s.sysRuns := pmaOn_of_seen s h

theorem signalRise_of_asleep (h : s.sdSeen n) (hsd : s.signal n = false) (hsys : s.sysRuns = false) :
    signalRise n s = signalNoted n true s := by
  rw [signalRise_eq s h hsd, pmaOn_setPma s h, hsys, if_neg Bool.false_ne_true]

theorem signalRise_of_awake (h : s.sdSeen n) (hsd : s.signal n = false) (hsys : s.sysRuns = true) :
    signalRise n s = heardAgain n (signalShown n true s) := by
  rw [signalRise_eq s h hsd, pmaOn_setPma s h, hsys, if_pos rfl]

theorem heardAgain_only (hn : n < 96) : LaneOnly n beginKinds [] s (heardAgain n s) :=
  .ite (.ite (.ite (bringUp_only s hn) .refl) (.ite (lockStart_only s n hn).mono .refl)) .refl

theorem heardAgain_of_locks (hon : s.laneOn n = true) (hstate : s.laneState n ≠ 1) (href : s.refOk n = true) :
    heardAgain n s = lockStart n s := (if_pos hon).trans ((if_neg hstate).trans (if_pos href))

theorem heardAgain_of_waits (hon : s.laneOn n = true) (hstate : s.laneState n = 1) (hmode : lnHpMode s.cfg n = 2) :
    heardAgain n s = bringUp n s := (if_pos hon).trans ((if_pos hstate).trans (if_pos hmode))

/-- Bring-up leaves signal detect alone. -/
theorem bringUp_signal (hn : n < 96) : (bringUp n s).signal n = s.signal n := by
  have hlink (u : State) (v : Nat) : (u.setLaneState n v).signal n = u.signal n :=
    (setLaneState_only (own := [.lnLinkStatus]) (more := []) u v).bit hn 1
  have halign (u : State) : (unalign n u).signal n = u.signal n := (unalign_only u n).bit hn 1
  have hlock (u : State) : (lockStart n u).signal n = u.signal n := (lockStart_pma u n hn (by decide)).trans (if_neg (by simp))
  have hstop (u : State) : (lockStop n u).signal n = u.signal n := (lockStop_pma u n (by decide)).trans (if_neg (by simp))
  unfold bringUp
  extract_lets open?
  split
  · split
    · exact (hlock _).trans (hlink s 0)
    · split
      · exact ((hlock _).trans (halign _)).trans (hlink s 7)
      · split
        · exact ((hlock _).trans (halign _)).trans (hlink s 2)
        · exact ((hlink _ 1).trans (halign _)).trans (hstop s)
  · exact hlink s 0

theorem heardAgain_signal (hn : n < 96) : (heardAgain n s).signal n = s.signal n := by
  unfold heardAgain
  split
  · split
    · split
      · exact bringUp_signal s hn
      · rfl
    · split
      · exact (lockStart_pma s n hn (by decide)).trans (if_neg (by simp))
      · rfl
  · rfl

/-- What a rise of signal detect does while SYS runs (11_lane_electrical R259, R265). -/
theorem signalRise_rises (hn : n < 96) (hseen : s.sdSeen n) (hsd : s.signal n = false) (hsys : s.sysRuns = true) :
    let t := signalRise n s
    t.signal n = true ∧ (lnCfg s.cfg n 11 1 = 1 → t.bit .lnPmaEvt n 0 = true) ∧
      (s.laneOn n = true → s.laneState n ≠ 1 → s.refOk n = true →
        t.bit .lnPmaStatus n 6 = false ∧ (t.lane n).rx.lost = false ∧ (t.lane n).rx.locking = true ∧ (t.lane n).rx.heard = true) ∧
      (s.laneOn n = true → s.laneState n = 1 → lnHpMode s.cfg n = 2 → lnProto s.cfg n ≠ 0 → s.gen n = 0 →
        t.laneState n = 2 ∧ (t.lane n).rx.locking = true ∧ t.bit .lnPmaStatus n 6 = false) ∧
      LaneOnly n [.lnPmaStatus, .lnPmaEvt, .lnPatStatus, .lnEq, .lnLinkStatus] [] s t := by
  intro t
  let u := signalShown n true s
  have ht : t = heardAgain n u := signalRise_of_awake s hseen hsd hsys
  have hu : LaneOnly n [.lnPmaStatus, .lnPmaEvt] [] s u := signalShown_only s true
  have hagain : LaneOnly n beginKinds [] u (heardAgain n u) := heardAgain_only u hn
  have hsignal : u.signal n = true := signalShown_pma s true hn (by decide)
  have hears : u.hears n = true := by rw [State.hears, hsignal, Bool.true_or]
  have hon : u.laneOn n = s.laneOn n := hu.laneOn hn
  have hstate : u.laneState n = s.laneState n := hu.field hn 0 3
  have href : u.refOk n = s.refOk n := hu.refOk hn
  rw [ht]
  refine ⟨(heardAgain_signal u hn).trans hsignal, fun h => (hagain.bit hn 0).trans (signalShown_evt s true h), fun h hne hr => ?_,
    fun h hwaits hmode hproto hgen => ?_, hu.mono.trans hagain.mono⟩
  · rw [heardAgain_of_locks u (hon.trans h) (hstate ▸ hne) (href.trans hr), lockStart_pma u n hn (by decide), lockStart_lane u n hn, hears]
    exact ⟨by simp, by simp, rfl, rfl⟩
  · have hbegin : heardAgain n u = beginLock n u := (heardAgain_of_waits u (hon.trans h) (hstate.trans hwaits) (hu.cfg ▸ hmode)).trans
      (bringUp_of_signal (hon.trans h) (hu.cfg ▸ hproto) ((hu.field hn 0 4).trans hgen) (hu.cfg ▸ hmode) hsignal)
    obtain ⟨-, hlocking, -⟩ := beginLock_lane u hn
    rw [hbegin, beginLock_pma u hn (by decide), hears]
    exact ⟨beginLock_laneState u n hn, hlocking, by simp⟩

/-! ### A fall -/

theorem signalFall_of_not (h : ¬ (s.sdSeen n ∧ s.signal n = true)) : signalFall n s = s :=
  if_neg fun ⟨hrate, hbench, hconf, hsd⟩ => h ⟨⟨hrate, hbench, hconf⟩, hsd⟩

/-- A receiver in a lock that hears something. -/
def State.lockUnder (s : State) (n : Nat) : Prop := (s.lane n).rx.locking = true ∧ (s.lane n).rx.heard = true

/-- A signal lost, as the receiver sees it. -/
def signalGone (n : Nat) (s : State) : State := (signalShown n false s).modRx n fun r => { r with lost := true }

/-- And with receive idle begun, where no lock that hears something goes on. -/
def signalLost (n : Nat) (s : State) : State :=
  if ((signalGone n s).lane n).rx.locking && ((signalGone n s).lane n).rx.heard then signalGone n s else enterRxIdle n (signalGone n s)

theorem signalFall_eq (h : s.sdSeen n) (hsd : s.signal n = true) : signalFall n s =
    if (s.setPma n 1 false).pmaOn n then
      (if (signalLost n s).laneState n = 5 ∨ (signalLost n s).laneState n = 4 then retrain n (logFault 0x09 n (signalLost n s))
        else signalLost n s)
    else signalNoted n false s := by
  obtain ⟨hrate, hbench, hconf⟩ := h
  rw [signalFall, if_pos ⟨hrate, hbench, hconf, hsd⟩]
  rfl

theorem signalFall_of_asleep (h : s.sdSeen n) (hsd : s.signal n = true) (hsys : s.sysRuns = false) :
    signalFall n s = signalNoted n false s := by
  rw [signalFall_eq s h hsd, pmaOn_setPma s h, hsys, if_neg Bool.false_ne_true]

theorem signalFall_of_awake (h : s.sdSeen n) (hsd : s.signal n = true) (hsys : s.sysRuns = true) : signalFall n s =
    if (signalLost n s).laneState n = 5 ∨ (signalLost n s).laneState n = 4 then retrain n (logFault 0x09 n (signalLost n s))
    else signalLost n s := by
  rw [signalFall_eq s h hsd, pmaOn_setPma s h, hsys, if_pos rfl]

theorem signalGone_only : LaneOnly n [.lnPmaStatus, .lnPmaEvt] [] s (signalGone n s) := (signalShown_only s false).trans (modRx_only _ _)

theorem signalGone_lane : (signalGone n s).lane n = { s.lane n with rx := { (s.lane n).rx with lost := true } } := by
  rw [signalGone, modRx_rx, signalShown_lane]

theorem signalLost_eq :
    signalLost n s = if (s.lane n).rx.locking && (s.lane n).rx.heard then signalGone n s else enterRxIdle n (signalGone n s) := by
  rw [signalLost, signalGone_lane]

theorem signalLost_only : LaneOnly n [.lnPmaStatus, .lnPmaEvt] [] s (signalLost n s) :=
  .ite (signalGone_only s) ((signalGone_only s).trans (enterRxIdle_only _).mono)

theorem signalLost_evt (hn : n < 96) (h : lnCfg s.cfg n 11 1 = 1) : (signalLost n s).bit .lnPmaEvt n 1 = true := by
  have hshown := signalShown_evt s false h
  rw [if_neg Bool.false_ne_true] at hshown
  unfold signalLost
  split
  · rw [signalGone, modRx_bit, hshown]
  · rw [(enterRxIdle_only _).bit hn, signalGone, modRx_bit, hshown]

theorem signalLost_lane : (signalLost n s).lane n = { s.lane n with rx := { (s.lane n).rx with lost := true } } := by
  unfold signalLost
  split
  · exact signalGone_lane s
  · rw [enterRxIdle_lane, signalGone_lane]

/-- Receive idle begins unless a lock goes on. -/
theorem signalLost_pma (hn : n < 96) : (signalLost n s).signal n = false ∧
    (¬ s.lockUnder n → (signalLost n s).bit .lnPmaStatus n 6 = true ∧ (signalLost n s).ready n = false) ∧
    (s.lockUnder n → (signalLost n s).ready n = s.ready n ∧ (signalLost n s).bit .lnPmaStatus n 6 = s.bit .lnPmaStatus n 6) := by
  have hpma {c : Nat} (hc : c < 32) : (signalGone n s).bit .lnPmaStatus n c = if c = 1 then false else s.bit .lnPmaStatus n c := by
    rw [signalGone, modRx_bit, signalShown_pma s false hn hc]
  rw [signalLost_eq]
  generalize signalGone n s = u at *
  by_cases hunder : s.lockUnder n
  · obtain ⟨hlocking, hheard⟩ := id hunder
    rw [if_pos (by rw [hlocking, hheard]; rfl)]
    exact ⟨hpma (by decide), fun h => absurd hunder h, fun _ => ⟨hpma (by decide), hpma (by decide)⟩⟩
  · rw [if_neg (by rw [Bool.and_eq_true]; exact hunder)]
    refine ⟨?_, fun _ => ⟨enterRxIdle_pma u (by decide), enterRxIdle_pma u (by decide)⟩, fun h => absurd h hunder⟩
    exact (enterRxIdle_pma u (by decide)).trans (hpma (by decide))

theorem logFault_fed {own : List RegKind} (code inst : Nat) : LaneFed n own s (logFault code inst s) := by
  have hbeside := logFault_besideFlags s code inst
  have hmem : [RegKind.scrubEvt.addr 0, RegKind.flogLostCnt.addr 0] ⊆ fedAddresses n := by simp [fedAddresses]
  exact .of_parts (fun k _ => (congrArg (fun v : State => v.lane k) hbeside :)) (fun p _ _ => (congrArg (fun v : State => v.portal p) hbeside :))
    ((logFault_kept s code inst).mono fun a ha => .inl (List.mem_append_right _ (hmem ha))) (congrArg (fedFrame s) hbeside :)

/-- The first word of a fault of code 9 of a lane. -/
theorem signalFault_word (hn : n < 96) : word (place 24 8 0x09 + place 0 24 n) = word (0x09000000 + n) := by
  rw [place, place, Nat.mod_eq_of_lt (show n < 2 ^ 24 by omega)]
  rfl

/-- A lane that is UP or in TRAIN retrains once its signal is lost and that is logged (12_lane_link R292). -/
theorem retrain_of_lost {u v : State} (hn : n < 96) (hstops : s.noStops n) (hlogs : s.flog.entries.length ≤ 64)
    (hu : LaneOnly n [.lnPmaStatus, .lnPmaEvt] [] s u) (hsignal : u.signal n = false) (hv : LaneFed n [] u v)
    (hlane : (v.lane n).rx.lost = true) (hflog : v.flog = u.flog.after 0x09 n u.clocks.stamp) :
    (retrain n v).signal n = false ∧ (retrain n v).reg .lnPmaEvt n = u.reg .lnPmaEvt n ∧ Retrained n s (retrain n v) ∧
      (retrain n v).ready n = false ∧ Logged (word (0x09000000 + n)) s (retrain n v) ∧
      (s.loop n ≠ 1 → ((retrain n v).lane n).rx.lost = true ∧ (retrain n v).bit .lnPmaStatus n 6 = u.bit .lnPmaStatus n 6) ∧
      LaneFed n linkRegisters s (retrain n v) := by
  have hsv : LaneFed n [.lnPmaStatus, .lnPmaEvt] s v := hu.fed.trans hv.mono
  have hstops' : v.noStops n := noStops_of_fed s hsv hstops
  have hre : LaneFed n retrainKinds v (retrain n v) := retrain_fed v hn hstops'
  have hpma {c : Nat} (hc : c < 32) : (retrain n v).bit .lnPmaStatus n c =
      if c = 2 ∨ c = 3 ∨ c = 4 ∨ (c = 6 ∧ v.hears n = true) then false else u.bit .lnPmaStatus n c := by
    rw [retrain_pma v hn hstops' hc, hv.bit hn]
  have hears (h : s.loop n ≠ 1) : v.hears n = false := by
    have hloop : u.loop n = s.loop n := hu.field hn 4 2
    rw [hv.hears hn, State.hears, hsignal, hloop]
    simpa using h
  have huflog : u.flog = s.flog := (congrArg State.flog hu.beside :)
  have hclocks : u.clocks = s.clocks := (congrArg State.clocks hu.beside :)
  obtain ⟨hlost, -⟩ := retrain_rx v hn hstops'
  refine ⟨(hpma (by decide)).trans hsignal, (hre.reg hn).trans (hv.reg hn), (retrain_retrained v hn hstops').of_before hn hsv,
    (hpma (by decide)).trans (by simp), ?_, fun h => ⟨?_, ?_⟩, hsv.mono.trans hre.mono⟩
  · rw [← signalFault_word hn]
    refine logged_of_after hlogs ?_
    rw [retrain_flog v hn, hflog, huflog, hclocks]
  · rw [hlost, hlane, hears h]
    rfl
  · rw [hpma (by decide), hears h]
    simp

/-- What a fall of signal detect does while SYS runs (11_lane_electrical R259, R265, R273). -/
theorem signalFall_falls (hn : n < 96) (hstops : s.noStops n) (hlogs : s.flog.entries.length ≤ 64) (hseen : s.sdSeen n)
    (hsd : s.signal n = true) (hsys : s.sysRuns = true) : let t := signalFall n s
    t.signal n = false ∧ (lnCfg s.cfg n 11 1 = 1 → t.bit .lnPmaEvt n 1 = true) ∧
      (s.laneState n ≠ 4 → s.laneState n ≠ 5 → (t.lane n).rx = { (s.lane n).rx with lost := true } ∧
        (¬ s.lockUnder n → t.bit .lnPmaStatus n 6 = true ∧ t.ready n = false) ∧
        (s.lockUnder n → t.ready n = s.ready n ∧ t.bit .lnPmaStatus n 6 = s.bit .lnPmaStatus n 6) ∧
        LaneOnly n [.lnPmaStatus, .lnPmaEvt] [] s t) ∧
      (s.laneState n = 4 ∨ s.laneState n = 5 → Retrained n s t ∧ t.ready n = false ∧ Logged (word (0x09000000 + n)) s t ∧
        (s.loop n ≠ 1 → (t.lane n).rx.lost = true ∧ (¬ s.lockUnder n → t.bit .lnPmaStatus n 6 = true))) ∧
      LaneFed n linkRegisters s t := by
  intro t
  have ht : t = _ := signalFall_of_awake s hseen hsd hsys
  have hu := signalLost_only s (n := n)
  have hlane := signalLost_lane s (n := n)
  obtain ⟨hsignal, hidle, hlocking⟩ := signalLost_pma s hn
  have hevt := signalLost_evt s hn
  have hstate : (signalLost n s).laneState n = s.laneState n := hu.field hn 0 3
  rw [ht]
  clear ht t
  generalize signalLost n s = u at *
  by_cases hup : s.laneState n = 4 ∨ s.laneState n = 5
  · have hlog := logFault_besideFlags u 0x09 n
    have hfed : LaneFed n [] u (logFault 0x09 n u) := logFault_fed u 0x09 n
    have hlost : ((logFault 0x09 n u).lane n).rx.lost = true :=
      (congrArg (fun v : State => (v.lane n).rx.lost) hlog :).trans (congrArg (fun l : Lane => l.rx.lost) hlane :)
    obtain ⟨hsignal', hreg, hre, hready, hlogged, hloop, hframe⟩ := retrain_of_lost s hn hstops hlogs hu hsignal hfed hlost
      (congrArg State.flog hlog :)
    rw [if_pos (hstate ▸ hup.symm)]
    generalize retrain n (logFault 0x09 n u) = t at *
    refine ⟨hsignal', fun h => (congrArg (·.getLsbD 1) hreg).trans (hevt h), fun h4 h5 => absurd hup (not_or.2 ⟨h4, h5⟩),
      fun _ => ⟨hre, hready, hlogged, fun h => ⟨(hloop h).1, fun hnot => (hloop h).2.trans (hidle hnot).1⟩⟩, hframe⟩
  · rw [if_neg (by rw [hstate]; exact fun h => hup h.symm)]
    exact ⟨hsignal, hevt, fun _ _ => ⟨congrArg Lane.rx hlane, hidle, hlocking, hu⟩, fun h => absurd h hup, hu.fed.mono⟩

end Sys2Proof.Machine
end

section
/-! SUPPORT. The receiver's lock, electrical idle, the training burst and the equaliser's override (11_lane_electrical R256, R260 to R265):
what each command does, and what it leaves alone. -/

set_option Elab.async false

namespace Sys2Proof.Machine

variable (s : State) {n : Nat}

theorem exec_rxLockDone (l : Fin 96) (l0 l1 l2 l3 : BitVec 8) :
    exec (.rxLockDone l l0 l1 l2 l3) s = .next (lockDone l.val l0 l1 l2 l3 s) := rfl

theorem exec_cdrLockLoss (l : Fin 96) : exec (.cdrLockLoss l) s = .next (cdrLoss l.val s) := rfl

theorem exec_txIdleEntry (l : Fin 96) : exec (.txIdleEntry l) s = .next (txIdleEntry l.val s) := rfl

theorem exec_txIdleExit (l : Fin 96) : exec (.txIdleExit l) s = .next (txIdleExit l.val s) := rfl

theorem exec_rxBurstCheck (l : Fin 96) (line : List RxSample) : exec (.rxBurstCheck l line) s = .next (burstCheck l.val line s) := rfl

theorem exec_eqOverrideWrite (p : HostPort) (l : Fin 96) (v : Word) : exec (.eqOverrideWrite p l v) s =
    .next (hostField p .lnEq l.val v (fun s => noteReserved p .lnEq l.val v (eqWrite l.val v s)) s) := rfl

/-! ### The end of a lock (11_lane_electrical R260, R261) -/

/-- A lock that completes ends in receive idle where there is nothing to hear or the link itself idles. -/
def State.lockIdles (s : State) (n : Nat) : Prop := s.hears n = false ∨ s.linkIdle n = true

/-- The registers that the end of a lock writes. -/
def lockEndKinds : List RegKind := [.lnPmaStatus, .lnLinkStatus, .lnLinkEvt]

theorem lockEnd_only (hn : n < 96) : LaneOnly n lockEndKinds [RegKind.adEvt.addr (n / 4)] s (lockEnd n s) := by
  unfold lockEnd
  extract_lets u
  have hu : LaneOnly n lockEndKinds [RegKind.adEvt.addr (n / 4)] s u := modRx_only s _
  exact .ite (hu.trans (enterRxIdle_only u).mono) ((hu.trans (setPma_only u 4 true)).trans (advanceLink_only _ hn).mono)

/-- The receiver's lock over, as the rest of the end of a lock sees it. -/
def lockOver (n : Nat) (s : State) : State := s.modRx n fun r => { r with locking := false }

theorem lockOver_lane : (lockOver n s).lane n = { s.lane n with rx := { (s.lane n).rx with locking := false } } := modRx_rx ..

theorem lockEnd_eq : lockEnd n s =
    if !(s.hears n) || s.linkIdle n then enterRxIdle n (lockOver n s) else advanceLink n ((lockOver n s).setPma n 4 true) := by
  have hidle : (lockOver n s).linkIdle n = s.linkIdle n := by
    have hlane := lockOver_lane s (n := n)
    unfold State.linkIdle
    rw [hlane]
    rfl
  rw [← hidle]
  rfl

theorem lockEnd_of_idles (h : s.lockIdles n) : lockEnd n s = enterRxIdle n (lockOver n s) := by
  rw [lockEnd_eq, if_pos]
  rw [Bool.or_eq_true, Bool.not_eq_true']
  exact h

theorem lockEnd_of_hears (h : ¬ s.lockIdles n) : lockEnd n s = advanceLink n ((lockOver n s).setPma n 4 true) := by
  rw [lockEnd_eq, if_neg]
  rw [Bool.or_eq_true, Bool.not_eq_true']
  exact h

theorem lockEnd_ends (hn : n < 96) : ((lockEnd n s).lane n).tx = (s.lane n).tx ∧
    ((lockEnd n s).lane n).rx = { (s.lane n).rx with locking := false } ∧ (¬ s.lockIdles n → (lockEnd n s).ready n = true) ∧
    (s.lockIdles n → ((lockEnd n s).bit .lnPmaStatus n 6 = true ∧ (lockEnd n s).ready n = false) ∧
      (lockEnd n s).laneState n = s.laneState n) ∧
    ∀ c < 4, (lockEnd n s).bit .lnPmaStatus n c = s.bit .lnPmaStatus n c := by
  have hover := lockOver_lane s (n := n)
  by_cases h : s.lockIdles n
  · have hidle (u : State) : LaneOnly n [.lnPmaStatus] [] u (enterRxIdle n u) := enterRxIdle_only u
    rw [lockEnd_of_idles s h, enterRxIdle_lane, hover]
    refine ⟨rfl, rfl, fun hnot => absurd h hnot, fun _ => ⟨⟨enterRxIdle_pma _ (by decide), enterRxIdle_pma _ (by decide)⟩, ?_⟩, fun c hc => ?_⟩
    · exact (hidle _).field hn 0 3
    · rw [enterRxIdle_pma _ (by omega), if_neg (by omega), if_neg (by omega)]
      rfl
  · let u := (lockOver n s).setPma n 4 true
    have hup : LaneOnly n stepKinds [RegKind.adEvt.addr (n / 4)] u (advanceLink n u) := advanceLink_only u hn
    have hpma {c : Nat} (hc : c < 32) : u.bit .lnPmaStatus n c = if c = 4 then true else s.bit .lnPmaStatus n c := setPma_bit _ _ _ hc
    obtain ⟨htx, hrx⟩ := advanceLink_lane u (n := n)
    have hlane : u.lane n = _ := hover
    rw [lockEnd_of_hears s h]
    refine ⟨by rw [htx, hlane], by rw [hrx, hlane], fun _ => (hup.bit hn 4).trans (hpma (by decide)), fun h' => absurd h' h, fun c hc => ?_⟩
    rw [hup.bit hn, hpma (by omega), if_neg (by omega)]

/-- An enabled lane whose lock hears something, with its reference clock. -/
def State.lockCompletes (s : State) (n : Nat) : Prop := s.laneOn n = true ∧ s.lockUnder n ∧ s.refOk n = true

/-- The levels found, as `LNnn_LEVELS` shows them. -/
def levelsWord (pam : Bool) (l0 l1 l2 l3 : BitVec 8) : Word :=
  if pam then word (place 24 8 l3.toNat + place 16 8 l2.toNat + place 8 8 l1.toNat + l0.toNat) else word (place 24 8 l3.toNat + l0.toNat)

theorem levelsWord_eq (pam : Bool) (l0 l1 l2 l3 : BitVec 8) : levelsWord pam l0 l1 l2 l3 =
    if pam then word (l3.toNat * 2 ^ 24 + l2.toNat * 2 ^ 16 + l1.toNat * 2 ^ 8 + l0.toNat) else word (l3.toNat * 2 ^ 24 + l0.toNat) := by
  simp only [levelsWord, place, Nat.shiftLeft_eq, Nat.mod_eq_of_lt l1.isLt, Nat.mod_eq_of_lt l2.isLt, Nat.mod_eq_of_lt l3.isLt]

/-- The receiver locked, with the levels that it has found. -/
def lockFound (n : Nat) (pam : Bool) (l0 l1 l2 l3 : BitVec 8) (s : State) : State :=
  (s.setPma n 2 true).setReg .lnLevels n (levelsWord pam l0 l1 l2 l3)

theorem lockDone_of_not {l0 l1 l2 l3 : BitVec 8} (h : ¬ s.lockCompletes n) : lockDone n l0 l1 l2 l3 s = s :=
  if_neg fun ⟨hon, hlocking, hheard, href⟩ => h ⟨hon, ⟨hlocking, hheard⟩, href⟩

theorem lockDone_of {l0 l1 l2 l3 : BitVec 8} (h : s.lockCompletes n) : lockDone n l0 l1 l2 l3 s =
    if lnPam4 s.cfg n then
      (if levelsPass l0 l1 l2 l3 then lockEnd n ((lockFound n true l0 l1 l2 l3 s).setPma n 3 true)
        else flagPma n 3 (lockFound n true l0 l1 l2 l3 s))
    else lockEnd n (lockFound n false l0 l1 l2 l3 s) := by
  obtain ⟨hon, ⟨hlocking, hheard⟩, href⟩ := h
  rw [lockDone, if_pos ⟨hon, hlocking, hheard, href⟩]
  rfl

/-- The registers that a completed lock writes. -/
def lockDoneKinds : List RegKind := [.lnPmaStatus, .lnLevels, .lnPmaEvt, .lnLinkStatus, .lnLinkEvt]

theorem lockFound_only (pam : Bool) (l0 l1 l2 l3 : BitVec 8) : LaneOnly n [.lnPmaStatus, .lnLevels] [] s (lockFound n pam l0 l1 l2 l3 s) :=
  (setPma_only s 2 true).trans (setReg_only _ (by decide) _)

theorem lockFound_finds (hn : n < 96) (pam : Bool) (l0 l1 l2 l3 : BitVec 8) : let u := lockFound n pam l0 l1 l2 l3 s
    LaneOnly n [.lnPmaStatus, .lnLevels] [] s u ∧ u.lane n = s.lane n ∧ u.reg .lnLevels n = levelsWord pam l0 l1 l2 l3 ∧
      u.bit .lnPmaStatus n 2 = true ∧ u.hears n = s.hears n := by
  intro u
  have hlevels : LaneOnly n [.lnLevels] [] (s.setPma n 2 true) u := setReg_only _ (by decide) _
  refine ⟨lockFound_only s pam l0 l1 l2 l3, rfl, State.setReg_reg .., ?_, ?_⟩
  · exact (hlevels.bit hn 2).trans (setPma_bit s n true (by decide))
  · exact (hlevels.hears hn).trans (hears_setPma s n (by decide) true)

/-- What follows a lock's bits and levels: its end. `u` is the state in which they stand. -/
theorem lockEnd_of_found {u : State} (hn : n < 96) {w : Word} (hu : LaneOnly n [.lnPmaStatus, .lnLevels] [] s u) (hlane : u.lane n = s.lane n)
    (hlevels : u.reg .lnLevels n = w) (hlocked : u.bit .lnPmaStatus n 2 = true) (hears : u.hears n = s.hears n) :
    (lockEnd n u).bit .lnPmaStatus n 2 = true ∧ (lockEnd n u).reg .lnLevels n = w ∧
      ((lockEnd n u).lane n).tx = (s.lane n).tx ∧ ((lockEnd n u).lane n).rx = { (s.lane n).rx with locking := false } ∧
      (¬ s.lockIdles n → (lockEnd n u).ready n = true) ∧
      (s.lockIdles n → ((lockEnd n u).bit .lnPmaStatus n 6 = true ∧ (lockEnd n u).ready n = false) ∧
        (lockEnd n u).laneState n = s.laneState n) ∧
      (lockEnd n u).bit .lnPmaStatus n 3 = u.bit .lnPmaStatus n 3 ∧
      LaneOnly n lockDoneKinds [RegKind.adEvt.addr (n / 4)] s (lockEnd n u) := by
  have hend := lockEnd_only u hn
  obtain ⟨htx, hrx, hready, hidle, hbits⟩ := lockEnd_ends u hn
  have hstate : u.laneState n = s.laneState n := hu.field hn 0 3
  have hidles : u.lockIdles n ↔ s.lockIdles n := by
    unfold State.lockIdles State.linkIdle
    rw [hears, hstate, hlane, hu.bit hn]
  rw [hidles, hstate] at hidle
  rw [hidles] at hready
  rw [hlane] at htx hrx
  exact ⟨(hbits 2 (by decide)).trans hlocked, (hend.reg hn).trans hlevels, htx, hrx, hready, hidle, hbits 3 (by decide),
    hu.mono.trans hend.mono⟩

/-- What the end of a lock does to an enabled lane (11_lane_electrical R260, R261). -/
theorem lockDone_done {l0 l1 l2 l3 : BitVec 8} (hn : n < 96) (h : s.lockCompletes n) : let t := lockDone n l0 l1 l2 l3 s
    let passes := lnPam4 s.cfg n = false ∨ levelsPass l0 l1 l2 l3 = true
    t.bit .lnPmaStatus n 2 = true ∧
      t.reg .lnLevels n = levelsWord (lnPam4 s.cfg n) l0 l1 l2 l3 ∧
      (passes → (t.lane n).tx = (s.lane n).tx ∧ (t.lane n).rx = { (s.lane n).rx with locking := false }) ∧
      (passes → ¬ s.lockIdles n → t.ready n = true) ∧
      (passes → s.lockIdles n → (t.bit .lnPmaStatus n 6 = true ∧ t.ready n = false) ∧ t.laneState n = s.laneState n) ∧
      (lnPam4 s.cfg n = true → levelsPass l0 l1 l2 l3 = true → t.bit .lnPmaStatus n 3 = true) ∧
      (lnPam4 s.cfg n = true → levelsPass l0 l1 l2 l3 = false → t.bit .lnPmaEvt n 3 = true ∧ t.lanes = s.lanes ∧
        t.laneState n = s.laneState n) ∧
      LaneOnly n lockDoneKinds [RegKind.adEvt.addr (n / 4)] s t := by
  intro t passes
  have ht : t = _ := lockDone_of s h
  clear_value t
  cases hpam : lnPam4 s.cfg n
  · obtain ⟨hu, hlane, hlevels, hlocked, hears⟩ := lockFound_finds s hn false l0 l1 l2 l3
    obtain ⟨hbit, hreg, htx, hrx, hready, hidle, -, hframe⟩ := lockEnd_of_found s hn hu hlane hlevels hlocked hears
    rw [hpam, if_neg Bool.false_ne_true] at ht
    rw [ht]
    exact ⟨hbit, hreg, fun _ => ⟨htx, hrx⟩, fun _ => hready, fun _ => hidle, fun h => absurd h Bool.false_ne_true,
      fun h => absurd h Bool.false_ne_true, hframe⟩
  · have hlanes' : (lockFound n true l0 l1 l2 l3 s).lanes = s.lanes := rfl
    obtain ⟨hu, hlane, hlevels, hlocked, hears⟩ := lockFound_finds s hn true l0 l1 l2 l3
    rw [hpam, if_pos rfl] at ht
    generalize lockFound n true l0 l1 l2 l3 s = u at *
    cases hpass : levelsPass l0 l1 l2 l3
    · have hflag : LaneOnly n [.lnPmaEvt] [] u (flagPma n 3 u) := flagPma_only u 3
      have hlanes : (flagPma n 3 u).lanes = u.lanes := (congrArg State.lanes (setFlags_besideFlags u _ _ _ _ _) :)
      have hfails : ¬ passes := by simp [passes, hpam, hpass]
      rw [hpass, if_neg Bool.false_ne_true] at ht
      rw [ht]
      refine ⟨(hflag.bit hn 2).trans hlocked, (hflag.reg hn).trans hlevels, fun h => absurd h hfails, fun h => absurd h hfails,
        fun h => absurd h hfails, fun _ h => absurd h Bool.false_ne_true, fun _ _ => ⟨flagPma_bit u n (by decide) (.inl rfl), ?_, ?_⟩,
        hu.mono.trans hflag.mono⟩
      · exact hlanes.trans hlanes'
      · exact (hflag.field hn 0 3).trans (hu.field hn 0 3)
    · let w := u.setPma n 3 true
      have hw : LaneOnly n [.lnPmaStatus] [] u w := setPma_only u 3 true
      obtain ⟨hbit, hreg, htx, hrx, hready, hidle, hthree, hframe⟩ := lockEnd_of_found s (u := w) hn (hu.trans hw.mono) hlane
        ((hw.reg hn).trans hlevels) ((setPma_bit u n true (by decide)).trans hlocked) ((hears_setPma u n (by decide) true).trans hears)
      rw [hpass, if_pos rfl] at ht
      rw [ht]
      exact ⟨hbit, hreg, fun _ => ⟨htx, hrx⟩, fun _ => hready, fun _ => hidle, fun _ _ => hthree.trans (setPma_bit u n true (by decide)),
        fun _ h => absurd h (by decide), hframe⟩

end Sys2Proof.Machine
end

section
/-! SUPPORT. A lost lock, electrical idle, the received training burst and the equaliser's override (11_lane_electrical R256, R262, R263,
R265): what each command does, and what it leaves alone. -/

set_option Elab.async false

namespace Sys2Proof.Machine

variable (s : State) {n : Nat}

/-! ### A lock lost (11_lane_electrical R262) -/

theorem cdrLoss_of_not (h : s.pmaOn n = false ∨ s.ready n = false) : cdrLoss n s = s := if_neg fun ⟨hon, hready⟩ => by
  rcases h with h | h
  · exact Bool.false_ne_true (h.symm.trans hon)
  · exact Bool.false_ne_true (h.symm.trans hready)

theorem cdrLoss_drops (hn : n < 96) (hstops : s.noStops n) (hon : s.pmaOn n = true) (hready : s.ready n = true) :
    (cdrLoss n s).bit .lnPmaStatus n 2 = false ∧ (cdrLoss n s).bit .lnPmaEvt n 2 = true ∧ Dropped n s (cdrLoss n s) := by
  let u := flagPma n 2 ((s.setPma n 4 false).setPma n 2 false)
  have hu : LaneOnly n [.lnPmaStatus, .lnPmaEvt] [] s u := ((setPma_only s 4 false).trans (setPma_only _ 2 false)).trans (flagPma_only _ 2)
  have hstops' : u.noStops n := noStops_of_fed s (hu.fed (n := n)) hstops
  have heq : cdrLoss n s = linkCause n u := if_pos ⟨hon, hready⟩
  rw [heq]
  refine ⟨(linkCause_pma u hn hstops' (by decide)).trans (by simp), ?_, (linkCause_dropped u hn hstops').of_before hn hu⟩
  exact ((linkCause_fed u hn hstops').bit hn 2).trans (flagPma_bit _ n (by decide) (.inl rfl))

/-! ### Electrical idle (11_lane_electrical R263) -/

/-- A running lane that is asked to idle and does not. -/
def State.idleDue (s : State) (n : Nat) : Prop := s.pmaOn n = true ∧ s.idleAsked n = true ∧ s.bit .lnPmaStatus n 5 = false

theorem txIdleEntry_of_not (h : ¬ s.idleDue n) : txIdleEntry n s = s := if_neg h

theorem lockUnder_iff : ((s.lane n).rx.locking && (s.lane n).rx.heard) = true ↔ s.lockUnder n := by
  rw [Bool.and_eq_true]
  rfl

theorem txIdleEntry_of_due (hn : n < 96) (h : s.idleDue n) : txIdleEntry n s =
    if s.linkIdle n && !((s.lane n).rx.locking && (s.lane n).rx.heard) then enterRxIdle n (quietTx n s) else quietTx n s := by
  have hquiet := quietTx_only s (n := n)
  have hlane := quietTx_lane s (n := n)
  have hidle : (quietTx n s).linkIdle n = s.linkIdle n := by
    rw [State.linkIdle, State.laneState, hquiet.field hn, hquiet.bit hn, hlane]
    rfl
  obtain ⟨hon, hasked, hbusy⟩ := h
  rw [txIdleEntry, if_pos ⟨hon, hasked, hbusy⟩]
  dsimp only
  rw [hidle, hlane]

theorem txIdleEntry_idles (hn : n < 96) (h : s.idleDue n) : let t := txIdleEntry n s
    t.bit .lnPmaStatus n 5 = true ∧ t.lane n = { s.lane n with tx := { (s.lane n).tx with tail := [0] } } ∧
      (s.linkIdle n = true → ¬ s.lockUnder n → t.bit .lnPmaStatus n 6 = true ∧ t.ready n = false) ∧
      (s.linkIdle n = false ∨ s.lockUnder n → t.ready n = s.ready n ∧ t.bit .lnPmaStatus n 6 = s.bit .lnPmaStatus n 6) ∧
      LaneOnly n [.lnPmaStatus] [] s t := by
  intro t
  have ht : t = _ := txIdleEntry_of_due s hn h
  clear_value t
  have hquiet := quietTx_only s (n := n)
  have hlane := quietTx_lane s (n := n)
  have hpma {c : Nat} (hc : c < 32) := quietTx_pma s (n := n) hc
  generalize quietTx n s = u at *
  by_cases hidles : s.linkIdle n = true ∧ ¬ s.lockUnder n
  · obtain ⟨hlink, hfree⟩ := id hidles
    rw [if_pos (by rw [hlink, Bool.true_and, Bool.not_eq_true', ← Bool.not_eq_true, lockUnder_iff]; exact hfree)] at ht
    rw [ht, enterRxIdle_lane]
    refine ⟨(enterRxIdle_pma u (by decide)).trans (hpma (by decide)), hlane, fun _ _ => ⟨enterRxIdle_pma u (by decide), enterRxIdle_pma u (by decide)⟩,
      fun h => ?_, hquiet.trans (enterRxIdle_only u)⟩
    exact absurd h (by rw [hlink]; simpa using hfree)
  · have hstays : ¬ (s.linkIdle n && !((s.lane n).rx.locking && (s.lane n).rx.heard)) = true := by
      rw [Bool.and_eq_true, Bool.not_eq_true', ← Bool.not_eq_true, lockUnder_iff]
      exact hidles
    rw [if_neg hstays] at ht
    rw [ht]
    exact ⟨hpma (by decide), hlane, fun hlink hfree => absurd ⟨hlink, hfree⟩ hidles, fun _ => ⟨hpma (by decide), hpma (by decide)⟩, hquiet⟩

/-- An enabled lane that idles and is no longer asked to, with its transmit PLL locked. -/
def State.idleOver (s : State) (n : Nat) : Prop :=
  s.laneOn n = true ∧ s.idleAsked n = false ∧ s.bit .lnPmaStatus n 5 = true ∧ s.bit .lnPmaStatus n 0 = true

theorem txIdleExit_of_not (h : ¬ s.idleOver n) : txIdleExit n s = s := if_neg h

theorem txIdleExit_exits (hn : n < 96) (h : s.idleOver n) : let t := txIdleExit n s
    t.bit .lnPmaStatus n 5 = false ∧ BurstSent n s t ∧ (t.lane n).rx = (s.lane n).rx ∧ (t.lane n).adit = (s.lane n).adit ∧
      LaneOnly n [.lnPmaStatus] [] s t := by
  intro t
  let u := s.setPma n 5 false
  have hu : LaneOnly n [.lnPmaStatus] [] s u := setPma_only s 5 false
  have ht : t = sendBurst n u := if_pos h
  have hburst : LaneOnly n [] [] u (sendBurst n u) := sendBurst_only u
  obtain ⟨hsent, hrx, hadit⟩ := sendBurst_sent u (n := n)
  rw [ht]
  refine ⟨(hburst.bit hn 5).trans (setPma_bit s n false (by decide)), hsent.of_before hu.cfg (hu.reg hn) (hu.reg hn) rfl, hrx, hadit,
    hu.trans hburst.mono⟩

/-! ### The received training burst (11_lane_electrical R265) -/

theorem decided_only (d : Nat) : LaneOnly n [] [] s (s.decided n d) := (modRx_only s _).trans (modRx_only _ _)

theorem decideUi_only (u : RxSample) : LaneOnly n marginKinds [] s (decideUi n u s).2 := by
  rw [decideUi_eq]
  exact .ite ((decided_only s _).mono.trans (marginCount_only _ _ _)) (decided_only s _).mono

theorem decideUi_tx (u : RxSample) : ((decideUi n u s).2.lane n).tx = (s.lane n).tx := by
  rw [decideUi_eq]
  dsimp only
  split
  · rw [marginCount_lane, decided_lane]
  · rw [decided_lane]

theorem decideLine_only (line : List RxSample) : LaneOnly n marginKinds [] s (decideLine n line s).2 := by
  induction line generalizing s with
  | nil => exact .refl
  | cons u rest ih => exact (decideUi_only s u).trans (ih _)

theorem decideLine_tx (line : List RxSample) : ((decideLine n line s).2.lane n).tx = (s.lane n).tx := by
  induction line generalizing s with
  | nil => rfl
  | cons u rest ih => exact (ih _).trans (decideUi_tx s u)

/-- An enabled lane in receive idle whose signal has come back, while no lock goes on. -/
def State.burstDue (s : State) (n : Nat) : Prop := s.laneOn n = true ∧ s.bit .lnPmaStatus n 6 = true ∧ s.signal n = true ∧
  (s.lane n).rx.lost = false ∧ (s.lane n).rx.locking = false

theorem burstCheck_of_not {line : List RxSample} (h : ¬ s.burstDue n) : burstCheck n line s = s := if_neg h

/-- The receiver after a burst, its precoder's state begun afresh. -/
def burstHeard (n : Nat) (line : List RxSample) (s : State) : State := (decideLine n line s).2.modRx n fun r => { r with pre := 0 }

/-- The burst has fewer than 8 symbol errors. -/
def State.burstFew (s : State) (n : Nat) (line : List RxSample) : Prop :=
  burstErrors (lnPam4 s.cfg n) ((decideLine n line s).1.map (invertSymbol (lnPam4 s.cfg n) (lnCfg s.cfg n 18 1 = 1))) < 8

theorem burstHeard_only (line : List RxSample) : LaneOnly n [] [] (decideLine n line s).2 (burstHeard n line s) := modRx_only _ _

theorem burstHeard_lane (line : List RxSample) : (burstHeard n line s).lane n =
    { (decideLine n line s).2.lane n with rx := { ((decideLine n line s).2.lane n).rx with pre := 0 } } := modRx_rx ..

theorem burstCheck_eq {line : List RxSample} (h : s.burstDue n) : burstCheck n line s =
    if burstErrors (lnPam4 s.cfg n) ((decideLine n line s).1.map
        (invertSymbol (lnPam4 s.cfg n) (lnCfg (burstHeard n line s).cfg n 18 1 = 1))) < 8 then
      advanceLink n (((burstHeard n line s).setPma n 6 false).setPma n 4 true)
    else linkCause n (flagPma n 4 (((burstHeard n line s).setPma n 6 false).setPma n 4 false)) := by
  obtain ⟨hon, hidle, hsignal, hlost, hlocking⟩ := h
  rw [burstCheck, if_pos ⟨hon, hidle, hsignal, hlost, hlocking⟩]
  rfl

theorem burstHeard_cfg (line : List RxSample) : (burstHeard n line s).cfg = s.cfg :=
  (burstHeard_only s line).cfg.trans (decideLine_only s line).cfg

theorem burstCheck_of_few {line : List RxSample} (h : s.burstDue n) (hfew : s.burstFew n line) :
    burstCheck n line s = advanceLink n (((burstHeard n line s).setPma n 6 false).setPma n 4 true) := by
  rw [burstCheck_eq s h, burstHeard_cfg]
  exact if_pos hfew

theorem burstCheck_of_many {line : List RxSample} (h : s.burstDue n) (hmany : ¬ s.burstFew n line) :
    burstCheck n line s = linkCause n (flagPma n 4 (((burstHeard n line s).setPma n 6 false).setPma n 4 false)) := by
  rw [burstCheck_eq s h, burstHeard_cfg]
  exact if_neg hmany

/-- Few errors: receive idle ends in READY. -/
theorem burstCheck_ready {line : List RxSample} (hn : n < 96) (h : s.burstDue n) (hfew : s.burstFew n line) : let t := burstCheck n line s
    t.bit .lnPmaStatus n 6 = false ∧ t.ready n = true ∧ (t.lane n).tx = (s.lane n).tx ∧
      (t.lane n).rx = { ((decideLine n line s).2.lane n).rx with pre := 0 } ∧
      LaneOnly n [.lnPmaStatus, .lnLinkStatus, .lnLinkEvt] [RegKind.adEvt.addr (n / 4)] (decideLine n line s).2 t := by
  intro t
  have ht : t = _ := burstCheck_of_few s h hfew
  clear_value t
  have hheard := burstHeard_only s (n := n) line
  have hlane := burstHeard_lane s (n := n) line
  have htx := decideLine_tx s (n := n) line
  generalize burstHeard n line s = u at *
  let v := (u.setPma n 6 false).setPma n 4 true
  have hv : LaneOnly n [.lnPmaStatus] [] u v := (setPma_only u 6 false).trans (setPma_only _ 4 true)
  have hup : LaneOnly n stepKinds [RegKind.adEvt.addr (n / 4)] v (advanceLink n v) := advanceLink_only v hn
  obtain ⟨htx', hrx'⟩ := advanceLink_lane v (n := n)
  have hvlane : v.lane n = u.lane n := rfl
  rw [ht]
  refine ⟨?_, ?_, ?_, ?_, (hheard.mono.trans hv.mono).trans hup.mono⟩
  · rw [hup.bit hn, setPma_bit _ _ _ (by decide), setPma_bit _ _ _ (by decide)]
    rfl
  · rw [State.ready, hup.bit hn, setPma_bit _ _ _ (by decide)]
    rfl
  · rw [htx', hvlane, hlane]
    exact htx
  · rw [hrx', hvlane, hlane]

/-- Many errors: receive idle ends in a lock. -/
theorem burstCheck_drops {line : List RxSample} (hn : n < 96) (hstops : s.noStops n) (h : s.burstDue n) (hmany : ¬ s.burstFew n line) :
    let t := burstCheck n line s
    t.bit .lnPmaStatus n 6 = false ∧ t.bit .lnPmaEvt n 4 = true ∧ (t.lane n).rx.pre = 0 ∧ Dropped n (decideLine n line s).2 t := by
  intro t
  have ht : t = _ := burstCheck_of_many s h hmany
  clear_value t
  have hheard := burstHeard_only s (n := n) line
  have hlane := burstHeard_lane s (n := n) line
  have hstopsd : (decideLine n line s).2.noStops n := noStops_of_fed s ((decideLine_only s line).fed (n := n)) hstops
  generalize burstHeard n line s = u at *
  generalize (decideLine n line s).2 = d at *
  let w := (u.setPma n 6 false).setPma n 4 false
  let v := flagPma n 4 w
  have hw : LaneOnly n [.lnPmaStatus] [] u w := (setPma_only u 6 false).trans (setPma_only _ 4 false)
  have hflag : LaneOnly n [.lnPmaEvt] [] w v := flagPma_only w 4
  have hdv : LaneOnly n [.lnPmaStatus, .lnPmaEvt] [] d v := (hheard.mono.trans hw.mono).trans hflag.mono
  have hstopsv : v.noStops n := noStops_of_fed d hdv.fed hstopsd
  have hpre : (v.lane n).rx.pre = 0 := by
    have hvlane : v.lane n = u.lane n := flagPma_lane w n 4 n
    rw [hvlane, hlane]
  have hsix : v.bit .lnPmaStatus n 6 = false := by
    rw [hflag.bit hn, setPma_bit _ _ _ (by decide), setPma_bit _ _ _ (by decide)]
    rfl
  rw [ht]
  refine ⟨?_, ((linkCause_fed v hn hstopsv).bit hn 4).trans (flagPma_bit w n (by decide) (.inl rfl)), (linkCause_pre v hn hstopsv).trans hpre,
    (linkCause_dropped v hn hstopsv).of_before hn hdv⟩
  rw [linkCause_pma v hn hstopsv (by decide), hsix, ite_self]

/-! ### The equaliser's override (11_lane_electrical R256) -/

/-- Fields of two words whose bits agree there agree. -/
theorem bitsOf_congr {w w' : Word} {lo len : Nat} (h : ∀ b, lo ≤ b → b < lo + len → w.getLsbD b = w'.getLsbD b) :
    bitsOf lo len w.toNat = bitsOf lo len w'.toNat := by
  refine Nat.eq_of_testBit_eq fun i => ?_
  rw [bitsOf, bitsOf, Nat.testBit_mod_two_pow, Nat.testBit_mod_two_pow, Nat.testBit_shiftRight, Nat.testBit_shiftRight]
  by_cases hi : i < len
  · rw [decide_eq_true hi, Bool.true_and, Bool.true_and]
    exact h (lo + i) (Nat.le_add_right _ _) (by omega)
  · rw [decide_eq_false hi, Bool.false_and, Bool.false_and]

/-- Both entries that a written word names are defined for the lane's rate. -/
def State.eqFits (s : State) (n : Nat) (v : Word) : Prop :=
  beqFits s.cfg n (bitsOf 26 6 v.toNat) = true ∧ beqFits s.cfg n (bitsOf 20 6 v.toNat) = true

theorem eqWrite_of_fits {v : Word} (h : s.eqFits n v) : eqWrite n v s = s.setReg .lnEq n (codedValue .lnEq (s.reg .lnEq n) v) :=
  if_pos (by rw [Bool.and_eq_true]; exact h)

theorem eqWrite_of_not {v : Word} (h : ¬ s.eqFits n v) : eqWrite n v s = s.setField .lnEq n 0 1 0 :=
  if_neg (by rw [Bool.and_eq_true]; exact h)

theorem eqWrite_kept (v : Word) : RegsKept [RegKind.lnEq.addr n] s (eqWrite n v s) ∧ besideRegs (eqWrite n v s) = besideRegs s := by
  unfold eqWrite
  extract_lets w
  split
  · exact ⟨setReg_kept s _ _ _, rfl⟩
  · exact ⟨setField_kept s _ _ _ _ _, rfl⟩

/-- Of `LNnn_EQ` a host writes the override and the entries that it names. -/
theorem lnEq_masks : ∀ b < 32, ((RegKind.lnEq.mask .rw).getLsbD b = decide (b = 0 ∨ 20 ≤ b)) ∧ (RegKind.lnEq.mask .w1c).getLsbD b = false := by
  decide

theorem eqWrite_entries (v : Word) : let t := eqWrite n v s
    t.field .lnEq n 4 12 = s.field .lnEq n 4 12 ∧
      (s.eqFits n v → t.field .lnEq n 26 6 = bitsOf 26 6 v.toNat ∧ t.field .lnEq n 20 6 = bitsOf 20 6 v.toNat ∧
        t.bit .lnEq n 0 = v.getLsbD 0) ∧
      (¬ s.eqFits n v → t.field .lnEq n 20 12 = s.field .lnEq n 20 12 ∧ t.bit .lnEq n 0 = false) := by
  intro t
  by_cases hfits : s.eqFits n v
  · have hreg : t.reg .lnEq n = codedValue .lnEq (s.reg .lnEq n) v := by
      rw [show t = _ from eqWrite_of_fits s hfits, State.setReg_reg]
    have hbit {b : Nat} (hb : b < 32) : (t.reg .lnEq n).getLsbD b = if b = 0 ∨ 20 ≤ b then v.getLsbD b else (s.reg .lnEq n).getLsbD b := by
      obtain ⟨hrw, hw1c⟩ := lnEq_masks b hb
      rw [hreg, getLsbD_codedValue _ _ _ hb, hrw, hw1c, if_neg Bool.false_ne_true]
      simp only [decide_eq_true_eq]
    refine ⟨bitsOf_congr fun b hlo hhi => ?_, fun _ => ⟨bitsOf_congr fun b hlo hhi => ?_, bitsOf_congr fun b hlo hhi => ?_, hbit (by decide)⟩,
      fun h => absurd hfits h⟩
    · rw [hbit (by omega), if_neg (by omega)]
    · rw [hbit (by omega), if_pos (by omega)]
    · rw [hbit (by omega), if_pos (by omega)]
  · have ht : t = s.setField .lnEq n 0 1 0 := eqWrite_of_not s hfits
    rw [ht]
    exact ⟨s.setField_field_of_disjoint _ _ _ (.inr (by decide)), fun h => absurd h hfits, fun _ =>
      ⟨s.setField_field_of_disjoint _ _ _ (.inr (by decide)), s.setField_bit .lnEq false (by decide)⟩⟩

theorem eqWrite_taken (hn : n < 96) (p : HostPort) (v : Word) : let t := noteReserved p .lnEq n v (eqWrite n v s)
    t.field .lnEq n 4 12 = s.field .lnEq n 4 12 ∧
      (s.eqFits n v → t.field .lnEq n 26 6 = bitsOf 26 6 v.toNat ∧ t.field .lnEq n 20 6 = bitsOf 20 6 v.toNat ∧
        t.bit .lnEq n 0 = v.getLsbD 0) ∧
      (¬ s.eqFits n v → t.field .lnEq n 20 12 = s.field .lnEq n 20 12 ∧ t.bit .lnEq n 0 = false) ∧
      RegsKept [RegKind.lnEq.addr n, RegKind.gstat.addr 0, RegKind.gstatAddr.addr 0] s t ∧ besideRegs t = besideRegs s := by
  intro t
  obtain ⟨hkept, hbeside⟩ := eqWrite_kept s (n := n) v
  obtain ⟨hentries, hfits, hnot⟩ := eqWrite_entries s (n := n) v
  have hreg : t.reg .lnEq n = (eqWrite n v s).reg .lnEq n := noteReserved_lane _ hn (by decide) p _ n v
  have hframe : RegsKept [RegKind.lnEq.addr n, RegKind.gstat.addr 0, RegKind.gstatAddr.addr 0] s t :=
    (RegsKept.of_one hkept List.mem_cons_self).trans ((noteReserved_kept _ p _ n v).mono fun a ha => .inl (List.mem_cons_of_mem _ ha))
  have hbeside' : besideRegs t = besideRegs s := (noteReserved_besideRegs _ p _ n v).trans hbeside
  unfold State.field State.bit at *
  rw [hreg]
  exact ⟨hentries, hfits, hnot, hframe, hbeside'⟩

end Sys2Proof.Machine
end

section
/-! The statement about a lane's receiver. As for crossings and slots, what is true stands before the refutation: a retrain drops the beats of
the lane's Crusher clients that wait for room, which the statement's frame keeps, and a fault log longer than its 64 entries may keep the
lost signal's entry past them. -/

set_option Elab.async false

open Sys2Proof Sys2Proof.Machine

/-- O40 where no beat of a client of the lane waits for room and the logs are within their bounds: each command as its function does. -/
theorem laneReceiver_of_sound :
    ∀ (l : Fin 96) (s : State), LogsBounded s → s.noStops l.val →
      let n := l.val
      let seen := lnRate s.cfg n ≠ 0 ∧ s.benchOn (n / 4) = true ∧ s.configured = true
      let later := fun (v : Bool) => { s.setField .lnPmaStatus n 1 1 (bitNat v) with
        power := { s.power with edges := s.power.edges ++ [.signal n v] } }
      let under := (s.lane n).rx.locking = true ∧ (s.lane n).rx.heard = true
      let idleEntered := fun (t : State) => t.bit .lnPmaStatus n 6 = true ∧ t.ready n = false
      (¬ (seen ∧ s.signal n = false) → exec (.signalDetectRise l) s = .next s) ∧
      (seen → s.signal n = false → s.sysRuns = false → exec (.signalDetectRise l) s = .next (later true)) ∧
      (seen → s.signal n = false → s.sysRuns = true → ∃ t, exec (.signalDetectRise l) s = .next t ∧ t.signal n = true ∧
        (lnCfg s.cfg n 11 1 = 1 → t.bit .lnPmaEvt n 0 = true) ∧
        (s.laneOn n = true → s.laneState n ≠ 1 → s.refOk n = true →
          t.bit .lnPmaStatus n 6 = false ∧ (t.lane n).rx.lost = false ∧ (t.lane n).rx.locking = true ∧ (t.lane n).rx.heard = true) ∧
        (s.laneOn n = true → s.laneState n = 1 → lnHpMode s.cfg n = 2 → lnProto s.cfg n ≠ 0 → s.gen n = 0 →
          t.laneState n = 2 ∧ (t.lane n).rx.locking = true ∧ t.bit .lnPmaStatus n 6 = false) ∧
        LaneOnly n [.lnPmaStatus, .lnPmaEvt, .lnPatStatus, .lnEq, .lnLinkStatus] [] s t) ∧
      (¬ (seen ∧ s.signal n = true) → exec (.signalDetectFall l) s = .next s) ∧
      (seen → s.signal n = true → s.sysRuns = false → exec (.signalDetectFall l) s = .next (later false)) ∧
      (seen → s.signal n = true → s.sysRuns = true → ∃ t, exec (.signalDetectFall l) s = .next t ∧ t.signal n = false ∧
        (lnCfg s.cfg n 11 1 = 1 → t.bit .lnPmaEvt n 1 = true) ∧
        (s.laneState n ≠ 4 → s.laneState n ≠ 5 → (t.lane n).rx = { (s.lane n).rx with lost := true } ∧
          (¬ under → idleEntered t) ∧ (under → t.ready n = s.ready n ∧ t.bit .lnPmaStatus n 6 = s.bit .lnPmaStatus n 6) ∧
          LaneOnly n [.lnPmaStatus, .lnPmaEvt] [] s t) ∧
        (s.laneState n = 4 ∨ s.laneState n = 5 → Retrained n s t ∧ t.ready n = false ∧ Logged (word (0x09000000 + n)) s t ∧
          (s.loop n ≠ 1 → (t.lane n).rx.lost = true ∧ (¬ under → t.bit .lnPmaStatus n 6 = true))) ∧
        LaneFed n linkRegisters s t) ∧
      (∀ l0 l1 l2 l3 : BitVec 8,
        let on := s.laneOn n = true ∧ under ∧ s.refOk n = true
        let passes := lnPam4 s.cfg n = false ∨ levelsPass l0 l1 l2 l3 = true
        let idles := s.hears n = false ∨ s.linkIdle n = true
        (¬ on → exec (.rxLockDone l l0 l1 l2 l3) s = .next s) ∧
        (on → ∃ t, exec (.rxLockDone l l0 l1 l2 l3) s = .next t ∧ t.bit .lnPmaStatus n 2 = true ∧
          (lnPam4 s.cfg n = false → t.reg .lnLevels n = word (l3.toNat * 2 ^ 24 + l0.toNat)) ∧
          (lnPam4 s.cfg n = true →
            t.reg .lnLevels n = word (l3.toNat * 2 ^ 24 + l2.toNat * 2 ^ 16 + l1.toNat * 2 ^ 8 + l0.toNat)) ∧
          (passes → (t.lane n).tx = (s.lane n).tx ∧ (t.lane n).rx = { (s.lane n).rx with locking := false }) ∧
          (passes → ¬ idles → t.ready n = true) ∧
          (passes → idles → idleEntered t ∧ t.laneState n = s.laneState n) ∧
          (lnPam4 s.cfg n = true → levelsPass l0 l1 l2 l3 = true → t.bit .lnPmaStatus n 3 = true) ∧
          (lnPam4 s.cfg n = true → levelsPass l0 l1 l2 l3 = false → t.bit .lnPmaEvt n 3 = true ∧ t.lanes = s.lanes ∧
            t.laneState n = s.laneState n) ∧
          LaneOnly n [.lnPmaStatus, .lnLevels, .lnPmaEvt, .lnLinkStatus, .lnLinkEvt] [RegKind.adEvt.addr (n / 4)] s t)) ∧
      (s.pmaOn n = false ∨ s.ready n = false → exec (.cdrLockLoss l) s = .next s) ∧
      (s.pmaOn n = true → s.ready n = true → ∃ t, exec (.cdrLockLoss l) s = .next t ∧ t.bit .lnPmaStatus n 2 = false ∧
        t.bit .lnPmaEvt n 2 = true ∧ Dropped n s t) ∧
      (let on := s.pmaOn n = true ∧ s.idleAsked n = true ∧ s.bit .lnPmaStatus n 5 = false
       (¬ on → exec (.txIdleEntry l) s = .next s) ∧
       (on → ∃ t, exec (.txIdleEntry l) s = .next t ∧ t.bit .lnPmaStatus n 5 = true ∧
         t.lane n = { s.lane n with tx := { (s.lane n).tx with tail := [0] } } ∧
         (s.linkIdle n = true → ¬ under → idleEntered t) ∧
         (s.linkIdle n = false ∨ under → t.ready n = s.ready n ∧ t.bit .lnPmaStatus n 6 = s.bit .lnPmaStatus n 6) ∧
         LaneOnly n [.lnPmaStatus] [] s t)) ∧
      (let on := s.laneOn n = true ∧ s.idleAsked n = false ∧ s.bit .lnPmaStatus n 5 = true ∧ s.bit .lnPmaStatus n 0 = true
       (¬ on → exec (.txIdleExit l) s = .next s) ∧
       (on → ∃ t, exec (.txIdleExit l) s = .next t ∧ t.bit .lnPmaStatus n 5 = false ∧ BurstSent n s t ∧
         (t.lane n).rx = (s.lane n).rx ∧ (t.lane n).adit = (s.lane n).adit ∧ LaneOnly n [.lnPmaStatus] [] s t)) ∧
      (∀ line : List RxSample,
        let on := s.laneOn n = true ∧ s.bit .lnPmaStatus n 6 = true ∧ s.signal n = true ∧ (s.lane n).rx.lost = false ∧
          (s.lane n).rx.locking = false
        let pam := lnPam4 s.cfg n
        let d := decideLine n line s
        let few := burstErrors pam (d.1.map (invertSymbol pam (lnCfg s.cfg n 18 1 = 1))) < 8
        LaneOnly n [.lnMarginSamp, .lnMarginErr, .lnPatStatus, .lnPmaEvt] [] s d.2 ∧
        (¬ on → exec (.rxBurstCheck l line) s = .next s) ∧
        (on → few → ∃ t, exec (.rxBurstCheck l line) s = .next t ∧ t.bit .lnPmaStatus n 6 = false ∧ t.ready n = true ∧
          (t.lane n).tx = (s.lane n).tx ∧ (t.lane n).rx = { (d.2.lane n).rx with pre := 0 } ∧
          LaneOnly n [.lnPmaStatus, .lnLinkStatus, .lnLinkEvt] [RegKind.adEvt.addr (n / 4)] d.2 t) ∧
        (on → ¬ few → ∃ t, exec (.rxBurstCheck l line) s = .next t ∧ t.bit .lnPmaStatus n 6 = false ∧ t.bit .lnPmaEvt n 4 = true ∧
          (t.lane n).rx.pre = 0 ∧ Dropped n d.2 t)) ∧
      (∀ (p : HostPort) (v : Word),
        let fits := beqFits s.cfg n (bitsOf 26 6 v.toNat) = true ∧ beqFits s.cfg n (bitsOf 20 6 v.toNat) = true
        FieldTurnedAway p .lnEq n v s (exec (.eqOverrideWrite p l v) s) ∧
        (FieldTaken p .lnEq n s → ∃ t, exec (.eqOverrideWrite p l v) s = .next t ∧
          t.field .lnEq n 4 12 = s.field .lnEq n 4 12 ∧
          (fits → t.field .lnEq n 26 6 = bitsOf 26 6 v.toNat ∧ t.field .lnEq n 20 6 = bitsOf 20 6 v.toNat ∧
            t.bit .lnEq n 0 = v.getLsbD 0) ∧
          (¬ fits → t.field .lnEq n 20 12 = s.field .lnEq n 20 12 ∧ t.bit .lnEq n 0 = false) ∧
          RegsKept [RegKind.lnEq.addr n, RegKind.gstat.addr 0, RegKind.gstatAddr.addr 0] s t ∧ besideRegs t = besideRegs s)) := by
  intro l s hlogs hstops n seen later under idleEntered
  have hn : n < 96 := l.isLt
  obtain ⟨hflog, -⟩ := hlogs
  refine ⟨?_, ?_, ?_, ?_, ?_, ?_, ?_, ?_, ?_, ?_, ?_, ?_, ?_⟩
  · rw [exec_signalDetectRise]
    exact fun h => congrArg _ (signalRise_of_not s h)
  · rw [exec_signalDetectRise]
    exact fun h hsd hsys => congrArg _ (signalRise_of_asleep s h hsd hsys)
  · rw [exec_signalDetectRise]
    exact fun h hsd hsys => ⟨_, rfl, signalRise_rises s hn h hsd hsys⟩
  · rw [exec_signalDetectFall]
    exact fun h => congrArg _ (signalFall_of_not s h)
  · rw [exec_signalDetectFall]
    exact fun h hsd hsys => congrArg _ (signalFall_of_asleep s h hsd hsys)
  · rw [exec_signalDetectFall]
    exact fun h hsd hsys => ⟨_, rfl, signalFall_falls s hn hstops hflog h hsd hsys⟩
  · intro l0 l1 l2 l3 on passes idles
    rw [exec_rxLockDone]
    refine ⟨fun h => congrArg _ (lockDone_of_not s h), fun hon => ⟨_, rfl, ?_⟩⟩
    obtain ⟨hbit, hlevels, hpasses, hready, hidle, hpass, hfail, hframe⟩ := lockDone_done s (l0 := l0) (l1 := l1) (l2 := l2) (l3 := l3) hn hon
    rw [levelsWord_eq] at hlevels
    refine ⟨hbit, fun h => ?_, fun h => ?_, hpasses, hready, hidle, hpass, hfail, hframe⟩
    · exact hlevels.trans (if_neg (by rw [h]; exact Bool.false_ne_true))
    · exact hlevels.trans (if_pos h)
  · rw [exec_cdrLockLoss]
    exact fun h => congrArg _ (cdrLoss_of_not s h)
  · rw [exec_cdrLockLoss]
    exact fun hon hready => ⟨_, rfl, cdrLoss_drops s hn hstops hon hready⟩
  · rw [exec_txIdleEntry]
    exact ⟨fun h => congrArg _ (txIdleEntry_of_not s h), fun h => ⟨_, rfl, txIdleEntry_idles s hn h⟩⟩
  · rw [exec_txIdleExit]
    exact ⟨fun h => congrArg _ (txIdleExit_of_not s h), fun h => ⟨_, rfl, txIdleExit_exits s hn h⟩⟩
  · intro line on pam d few
    rw [exec_rxBurstCheck]
    exact ⟨(decideLine_only s line).mono, fun h => congrArg _ (burstCheck_of_not s h), fun h hfew => ⟨_, rfl, burstCheck_ready s hn h hfew⟩,
      fun h hmany => ⟨_, rfl, burstCheck_drops s hn hstops h hmany⟩⟩
  · intro p v fits
    rw [exec_eqOverrideWrite]
    refine ⟨hostField_turnedAway s p _ _ _ _, fun h => ⟨_, rfl, ?_⟩⟩
    rw [hostField_taken s h]
    exact eqWrite_taken _ hn p v

/-- A lane that is UP, with a beat of a client of its own waiting for room. -/
def stoppedLane : State :=
  { Tests.lnk 1 2 0 5 2 [] {} with
    crushers := { Crushers.reset with stops := [(0, { data := 0, start := true, fin := true, bad := false, mark := false, bytes := 32 })] } }

/-- Its signal may fall. -/
theorem stoppedLane_up : (lnRate stoppedLane.cfg 0 ≠ 0 ∧ stoppedLane.benchOn (0 / 4) = true ∧ stoppedLane.configured = true) ∧
    stoppedLane.signal 0 = true ∧ stoppedLane.sysRuns = true ∧ stoppedLane.laneState 0 = 5 := by
  decide +kernel

/-- The retrain that follows drops the beat. -/
theorem stoppedLane_dropped : (signalFall (0 : Fin 96).val stoppedLane).crushers.stops.length = 0 ∧ stoppedLane.crushers.stops.length = 1 := by
  decide +kernel

/-- Refutes O40: a retrain drops the beats of the lane's clients that wait for room, of which the statement says that they stay. -/
theorem not_laneReceiver : ¬ Obligations.LaneReceiver := by
  unfold Obligations.LaneReceiver
  intro h
  obtain ⟨hseen, hsignal, hsys, -⟩ := stoppedLane_up
  obtain ⟨-, -, -, -, -, hfall, -⟩ := h 0 stoppedLane
  obtain ⟨t, ht, -, -, -, -, hfed⟩ := hfall hseen hsignal hsys
  rw [exec_signalDetectFall, Host.Outcome.next.injEq] at ht
  subst ht
  obtain ⟨hdropped, hheld⟩ := stoppedLane_dropped
  have hlength := congrArg List.length hfed.stops
  rw [hdropped, hheld] at hlength
  exact absurd hlength (by decide)

end
